-- ==== Sys2Proof/Word.lean ====
section
/-!
DEFINITION. The word types of the device: bytes, 32-bit registers (R18), 64-bit counters (R467), 128-bit step words (R90).
-/
namespace Sys2Proof

/-- A byte of a packet, a record or a memory. -/
abbrev Byte := BitVec 8

/-- A 32-bit register of BAR0 (R18). -/
abbrev Reg := BitVec 32

/-- A 64-bit counter (R467). -/
abbrev Ctr := BitVec 64

/-- A 128-bit Cairn step word (R90). -/
abbrev StepWord := BitVec 128

end Sys2Proof
end

