-- ==== Sys2Proof/Machine/Bytes.lean ====
section
/-!
DEFINITION. Byte order and bit-field helpers: multi-byte fields are little-endian (R18); signed fields are two's complement.
-/
namespace Sys2Proof.Machine

/-- `n` little-endian bytes of `x` (R18). -/
def le : Nat → Nat → List Byte
  | 0, _ => []
  | n + 1, x => BitVec.ofNat 8 x :: le n (x / 256)

/-- `n` little-endian bytes of a signed value in two's complement. -/
def leS (n : Nat) (x : Int) : List Byte := le n (x % (2 ^ (8 * n) : Nat)).toNat

/-- The number a little-endian byte list spells. -/
def unle : List Byte → Nat
  | [] => 0
  | b :: bs => b.toNat + 256 * unle bs

/-- `n` zero bytes. -/
def zeros (n : Nat) : List Byte := List.replicate n 0

/-- The unsigned field of `n` bytes at offset `off` of a payload; bytes past the end read as zero. -/
def fld (p : List Byte) (off n : Nat) : Nat := unle ((p.drop off).take n)

/-- Two's complement reading of an `n`-byte value. -/
def signed (n x : Nat) : Int := if x < 2 ^ (8 * n - 1) then (x : Int) else (x : Int) - (2 ^ (8 * n) : Nat)

/-- The signed field of `n` bytes at offset `off`. -/
def fldS (p : List Byte) (off n : Nat) : Int := signed n (fld p off n)

/-- Bits `[lo + w - 1 : lo]` of `x`. -/
def bitsAt (x lo w : Nat) : Nat := x / 2 ^ lo % 2 ^ w

/-- Bit `i` of `x`. -/
def bitAt (x i : Nat) : Bool := x.testBit i

/-- Are the bytes `[off, off + n)` all zero (a reserved field, R19, R20)? -/
def zeroAt (p : List Byte) (off n : Nat) : Bool := ((p.drop off).take n).all (· == 0)

/-- Cut or zero-fill a byte list to exactly `n` bytes (R444). -/
def padTo (n : Nat) (l : List Byte) : List Byte := (l ++ zeros (n - l.length)).take n

/-- One or zero. -/
def bit (b : Bool) : Nat := if b then 1 else 0

/-- The value whose bit `i` is the `i`-th Bool. -/
def ofBits : List Bool → Nat
  | [] => 0
  | b :: bs => bit b + 2 * ofBits bs

/-- The smaller of a count and the largest `n`-byte value: counts saturate (R513, R531). -/
def satN (n x : Nat) : Nat := min x (2 ^ (8 * n) - 1)

/-- The positions `i < n` at which `f` holds. -/
def indices (n : Nat) (f : Nat → Bool) : List Nat := (List.range n).filter f

/-- Round to nearest, halves away from zero, of `a / b`. -/
def roundDiv (a b : Int) : Int :=
  if b = 0 then 0 else if a ≥ 0 then (2 * a + b) / (2 * b) else -((2 * (-a) + b) / (2 * b))

/-- `a / b` rounded up. -/
def ceilDiv (a b : Nat) : Nat := (a + b - 1) / b

/-- ASCII bytes of a string. -/
def ascii (t : String) : List Byte := t.toList.map fun c => BitVec.ofNat 8 c.toNat

/-- Insert into a sorted list, after the elements that are not later. -/
def insertBy {α : Type} (le : α → α → Bool) (x : α) : List α → List α
  | [] => [x]
  | y :: ys => if le y x then y :: insertBy le x ys else x :: y :: ys

/-- Stable insertion sort. -/
def sortBy {α : Type} (le : α → α → Bool) (l : List α) : List α := l.foldl (fun acc x => insertBy le x acc) []

/-! Evaluation helpers: each equals plain application, and evaluates a number before it is used, so that a long computation runs in
bounded depth. -/

/-- `f n`, with `n` evaluated first. -/
def forced {α : Type} (n : Nat) (f : Nat → α) : α :=
  match n with
  | 0 => f 0
  | k + 1 => f (k + 1)

/-- Left fold of numbers, every intermediate number evaluated. -/
def foldN {α : Type} (f : Nat → α → Nat) : Nat → List α → Nat
  | x, [] => x
  | x, a :: l => forced (f x a) fun y => foldN f y l

end Sys2Proof.Machine
end

