-- ==== Sys2Proof/Machine/Tab.lean ====
section
/-!
DEFINITION. Sparse tables and byte memories as plain data in one canonical form: keys strictly rising; in a byte memory no
entry equals what an unlisted address reads as, which is 0 (an invalid block reads as zeros, R481).
-/
namespace Sys2Proof.Machine

/-- A table from numbers to values, keys strictly rising. -/
abbrev Tab (α : Type) := List (Nat × α)

/-- The entry at `k`. -/
def tget {α : Type} : Tab α → Nat → Option α
  | [], _ => none
  | (k, v) :: t, j => if j = k then some v else tget t j

/-- The entry at `k`, or `d`. -/
def tgetD {α : Type} (t : Tab α) (k : Nat) (d : α) : α := (tget t k).getD d

/-- Is there an entry at `k`? -/
def thas {α : Type} (t : Tab α) (k : Nat) : Bool := (tget t k).isSome

/-- Set the entry at `k`, keeping the keys rising. -/
def tput {α : Type} : Tab α → Nat → α → Tab α
  | [], k, v => [(k, v)]
  | (k', v') :: t, k, v =>
    if k < k' then (k, v) :: (k', v') :: t
    else if k = k' then (k, v) :: t
    else (k', v') :: tput t k v

/-- Remove the entry at `k`. -/
def tdel {α : Type} (t : Tab α) (k : Nat) : Tab α := t.filter fun e => e.1 ≠ k

/-- Change the entry at `k`, which reads as `d` when it is missing. -/
def tupd {α : Type} (t : Tab α) (k : Nat) (d : α) (f : α → α) : Tab α := tput t k (f (tgetD t k d))

/-- Change the entry at `k` where there is one. -/
def tmod {α : Type} (t : Tab α) (k : Nat) (f : α → α) : Tab α :=
  t.map fun e => if e.1 = k then (e.1, f e.2) else e

/-- Change every entry. -/
def tmapv {α : Type} (t : Tab α) (f : Nat → α → α) : Tab α := t.map fun e => (e.1, f e.1 e.2)

/-- The keys of a table. -/
def tkeys {α : Type} (t : Tab α) : List Nat := t.map Prod.fst

/-- The values of a table. -/
def tvals {α : Type} (t : Tab α) : List α := t.map Prod.snd

/-- The canonical form of a table: keys strictly rising. -/
abbrev Tab.wf {α : Type} (t : Tab α) : Prop := t.Pairwise fun a b => a.1 < b.1

/-- A byte memory: address and byte pairs, addresses strictly rising, no byte 0 listed. -/
abbrev Memory := List Host.Cell

/-- The byte at an address; an unlisted address reads 0 (R481). -/
def Memory.read (m : Memory) (a : Nat) : Byte := tgetD m a 0

/-- Write one byte, keeping the canonical form. -/
def Memory.write (m : Memory) (a : Nat) (b : Byte) : Memory := if b = 0 then tdel m a else tput m a b

/-- Write bytes at rising addresses. -/
def Memory.writeL (m : Memory) : Nat → List Byte → Memory
  | _, [] => m
  | a, b :: bs => Memory.writeL (Memory.write m a b) (a + 1) bs

/-- Read `n` bytes at rising addresses. -/
def Memory.readL (m : Memory) (a : Nat) : Nat → List Byte
  | 0 => []
  | n + 1 => Memory.read m a :: Memory.readL m (a + 1) n

/-- The canonical form of a byte memory. -/
abbrev Memory.wf (m : Memory) : Prop := (m.Pairwise fun a b => a.1 < b.1) ∧ ∀ e ∈ m, e.2 ≠ 0

end Sys2Proof.Machine
end

