-- ==== Sys2Proof/Machine/Samples.lean ====
section
/-!
DEFINITION. Bits, blocks and what the signal processors hold: samples, shaping frames (R205) and symbol blocks (R202).
-/
namespace Sys2Proof

/-- A 66-bit block (R30): its sync header, 0b01 for data and 0b10 for control, and its 64 payload bits, bit i of `w` being payload bit
i of IEEE 802.3 in transmission order (R183). The block type field of a control block is byte 0. -/
structure Block where
  sync : BitVec 2 := 2
  w    : BitVec 64 := 0x1E
  deriving DecidableEq, Repr

/-- Bits in the order in which they are sent, the most significant bit of `val` first (R165): `len` bits. -/
structure Bits where
  len : Nat := 0
  val : Nat := 0
  deriving DecidableEq, Repr

end Sys2Proof

namespace Sys2Proof.Machine
open Sys2Proof (Bits Block)

/-- A complex sample. -/
structure Cx where
  re : Rat
  im : Rat
  deriving DecidableEq, Repr

/-- One shaping frame: its subcarrier, the index of its first data symbol on it, and the bits of its two halves. -/
structure ShapingFrame where
  sub   : Nat
  first : Nat
  x     : Bits
  y     : Bits
  deriving DecidableEq, Repr

/-- A symbol block of one polarisation of a subcarrier: a pilot and 63 data symbols. -/
structure SymBlock where
  sub : Nat
  pol : Nat
  symbols : List Cx
  deriving DecidableEq, Repr

/-- The four filters of a subcarrier's butterfly, 33 taps each: X from X, X from Y, Y from X, Y from Y (R258). -/
structure Butterfly where
  xx : List Cx
  xy : List Cx
  yx : List Cx
  yy : List Cx
  deriving DecidableEq, Repr

/-- What the receive DSP holds of one subcarrier, from the polarisation equaliser to the demapper (R258, R262 to R264). -/
structure SubRx where
  x       : List Cx := []                  -- half-symbol samples of X that wait, the oldest of the next symbol's 33 first
  y       : List Cx := []
  taps    : Butterfly
  place   : Nat := 0                       -- place of the next symbol in its symbol block, 0 the pilot
  regs    : Nat × Nat := (0, 0)            -- the receiver's copies of the pilot generators of X and Y (R203)
  sent    : Option (Cx × Cx) := none       -- the pilots sent at the begin of the block under way
  turns   : Cx × Cx := (⟨1, 0⟩, ⟨1, 0⟩)    -- the rotations that they show
  aided   : Option (List Cx × List Cx × Cx × Cx) := none   -- their samples and errors, until the taps update
  block   : List (Cx × Cx) := []           -- equalised symbols of the block under way, its pilot first
  pointX  : List Cx := []                  -- data points of X that wait for the demapper
  pointY  : List Cx := []
  pointAt : Nat := 0                       -- data symbol of the first of them
  next    : Nat := 0                       -- data symbol at which the next shaping frame begins
  errSum  : Rat := 0                       -- sum of the squared pilot errors of the SNR window (R270)
  errN    : Nat := 0
  noise   : Rat := 1                       -- the current noise variance
  deriving DecidableEq, Repr

/-- What an acquisition found of the pilots of a subcarrier in one polarisation (R251): the generator's register and the symbols until the
next pilot, the data symbols from there to the next shaping frame, and the symbols at pilot places as they came and with the lane pair
mirrored. -/
structure PilotProbe where
  sub      : Nat
  pol      : Nat
  reg      : Nat
  ahead    : Nat
  begins   : Nat
  straight : List Cx
  mirrored : List Cx
  deriving DecidableEq, Repr

/-- The trims of a converter element (R323, R330, R335, R338): the selection of capacitor elements and comparator, offset, gain and skew of an
ADC slice; the current of a DAC cell. Their units are not stated. -/
structure Trim where
  select  : Nat := 0
  offset  : Int := 0
  gain    : Int := 0
  skew    : Int := 0
  current : Int := 0
  deriving DecidableEq, Repr

/-- An estimate that is being averaged (R277): since when, in monotone time, its values' sum, peak and number. -/
structure Avg where
  since : Nat := 0
  sum   : Rat := 0
  peak  : Rat := 0
  n     : Nat := 0
  deriving DecidableEq, Repr

/-- What the receive stages of an engine hold (Table 7.1). Lane samples are counted from the engine's enable (R242). -/
structure RxDsp where
  adcNo    : Nat := 0                     -- lane samples converted
  adcHeld  : List (List Int) := []        -- input levels of the latest instant, not yet converted
  winHit   : List Nat := [0, 0, 0, 0]     -- by lane, one more than the number of its last window that saturated
  ovrMs    : List Nat := [0, 0, 0, 0]     -- by lane, saturated samples of the millisecond under way (R245)
  codes    : List Byte := []              -- ADC codes that the CD equaliser still needs, XI, XQ, YI, YQ of each instant
  codesAt  : Nat := 0                     -- number of the first
  flatX    : List Cx := []                -- output of the CD equaliser that the resampling still needs
  flatY    : List Cx := []
  flatAt   : Nat := 0                     -- number of the first
  phase    : Rat := 0                     -- lane-sample instant of the next half-symbol sample of the far end's grid (R260)
  clock    : Rat := 0                     -- recovered symbol rate against the nominal one, minus 1
  freq     : Rat := 0                     -- carrier frequency offset in GHz (R262)
  subs     : List SubRx := []
  soft     : List Int := []               -- soft values that the collector holds (R263, R264)
  softAt   : Nat := 0                     -- coded bit of the first, counted from RX_LOCK
  codedAt  : Nat := 0                     -- coded bit at which the next codeword begins
  placed   : List (Nat × Nat × Nat) := [] -- shaping frames collected, newest first: coded bit, its bits, first data symbol
  switchAt : Option Nat := none           -- data symbol from which the new profile of a change runs (R265)
  avgs     : Tab Avg := []                -- averages under way, by estimate
  cdFar    : Option Nat := none           -- monotone time since which |D_est - D_set| has exceeded R_RES / 4 (R256)
  cdNear   : Option Nat := none           -- monotone time since which |D_est| has been within 0.98 D_SPAN (R257)
  deriving DecidableEq, Repr

end Sys2Proof.Machine
end

