-- ==== Sys2Proof/Request.lean ====
section
/-!
DEFINITION. Command packets as the transports deliver them (R425, R440): the fields that a command's own rules read.
-/
namespace Sys2Proof

/-- The transport that carried a request; its response returns the same way (R425). -/
inductive Via where
  | ring (page : Nat)                     -- the mailbox ring of a tenant page
  | spi                                   -- the SPI target
  | i2c                                   -- the I2C target
  | domain (input srcNode : Nat) (broadcast : Bool)   -- a command in a domain message (R415)
  deriving DecidableEq, Repr

/-- A command packet whose header passed the checks of R443: what the command itself sees. -/
structure Request where
  via     : Via
  tenant  : Nat
  tag     : BitVec 32
  payload : List Byte
  deriving DecidableEq, Repr

end Sys2Proof
end

