-- ==== Sys2Proof/Inputs.lean ====
section
/-!
DEFINITION. What the outside world and the analogue side supply to the timed and firmware events: received fields, measured values
and outcomes of transfers.
-/
namespace Sys2Proof
open Sys2Proof.Machine (Cx Butterfly Trim)

/-- How one DMA turn of a mailbox ring ends (R430, R432). -/
inductive RingIo where
  | entry (bytes : List Byte)   -- the command entry was read whole
  | readError                   -- the read ended in an error completion
  | poisoned                    -- the read returned poisoned or uncorrectable data
  | writeError (page : Nat)     -- a response write of that page ended in an error completion
  deriving DecidableEq, Repr

/-- One load of the fuse array (R586): the 32-bit words of its two reads, and what the words of a load that passes say: the trims, the spare
rows, the bond sense and the part (R6, R587). -/
structure FuseRead where
  first     : List (BitVec 32)
  second    : List (BitVec 32)
  engines   : Nat
  cipher    : Bool
  bond64    : Bool
  dieStep   : Nat
  serial    : Nat
  spareRows : List Nat
  vtrim     : List Nat
  deriving DecidableEq, Repr

/-- What the monitors measured of one timing input over the last second: its frequency against the oscillator at equally spaced instants,
oldest first, in 0.001 ppb (R396, R401). -/
structure Meas where
  input : Nat
  freqs : List Int
  deriving DecidableEq, Repr

/-- What a whole chamber's slot entries say of a leg (R51): every slot carried the expected TRAIL, some slot another one, or some
entry could not be compared (R176). -/
inductive TrailSeen where
  | all
  | other (trail : Nat)
  | part
  deriving DecidableEq, Repr

/-- One slot of a carrier as an arriving block names it: the KIND, INDEX, SUB and LEAF of Table 2.1 and the slot. -/
structure SlotAt where
  kind  : Nat
  index : Nat
  sub   : Nat := 0
  leaf  : Nat := 0xFFFF
  slot  : Nat := 0
  deriving DecidableEq, Repr

/-- What arrives at an ingress slot: a block, with whether it came from an uncorrectable codeword of a host port's RS-FEC (R137); or, at a
plain host port, one FEC block: the PAM4 symbols of each lane and the codewords that the corrector offers (R136). -/
inductive Arrival where
  | block (b : Block) (bad : Bool)
  | fec (pam : List (List Nat)) (sent : List (Option (List Nat)))
  deriving DecidableEq, Repr

/-- A frame of an engine as the decoder delivers it (05_line_frame_fec.md): its information bits; its position in the decoded information
stream, counted from the first codeword after RX_LOCK; the arrival of its marker in domain time; in compatibility mode, whether the 400ZR
frame was found; and the chamber's pre-FEC BER in 10^-6. -/
structure LineFrame where
  bits    : Bits := {}
  pos     : Nat := 0
  arrival : Nat := 0
  found   : Bool := true
  ber     : Nat := 0
  deriving DecidableEq, Repr

/-- A compare mismatch in a segment (R360, R361): the lane, whether it lies in the tag alone, and how many of the segment's blocks
had been released. -/
structure SegFault where
  lane     : Nat
  inTag    : Bool
  released : Nat
  deriving DecidableEq, Repr

/-- A frame of an Umran port (18_umran_link.md): the 1 024 blocks of each of its four physical lanes as they arrive, and the arrival of
its lane-0 comma in domain time, quarter-nanoseconds. -/
structure UlFrame where
  lanes   : List (List Block) := []
  arrival : Nat := 0
  deriving DecidableEq, Repr

/-- What the burst receiver delivers of a confirmed burst (08_multipoint.md): δ in ps; the estimates of the leaf, its timing phase and taps; each codeword as
uncorrectable, corrected bits and iterations; and the information bits of all of them. -/
structure Burst where
  delta   : Int := 0
  snr     : Nat := 0
  cd      : Int := 0
  freq    : Int := 0
  phase   : Rat := 0
  taps    : Option Butterfly := none
  words   : List (Bool × Nat × Nat) := []
  info    : Bits := {}
  deriving DecidableEq, Repr

/-- What a memory read served, where an uncorrectable code has an effect on state (Table 13.5): an instruction fetch of a guide pair, a
transfer of a job, the copy of an event record at a ring position, the bin of a counter group, a cipher segment, a codeword, blocks of a
passage buffer, or a ring transfer. -/
inductive MemUse where
  | plain
  | fetch
  | job (token : Nat)
  | record (pos : Nat)
  | bin (group : Nat) (day : Bool) (index : Nat)
  | segment (id ch : Nat)
  | codeword                              -- bits of a codeword in engine memory (R189)
  | buffered (id : Nat) (blocks : List Nat)   -- queued blocks of a passage, by place in its buffer
  | ring (page : Nat)                     -- a ring transfer of a DMA channel
  deriving DecidableEq, Repr

/-- One code that a scrubber reads with bits in error: its address, and those bits by number, the data bits first (R476, R477). -/
structure Finding where
  addr  : Nat
  flips : List Nat
  deriving DecidableEq, Repr

/-- What the outside supplies to one step of a job: bytes that DMA brought from host memory, whether a flash, MTP or regulator write
succeeded, the place in this step's bytes of a word that a memory read found uncorrectable, and what a sweep found in its block. -/
structure JobIo where
  bytes    : List Byte := []
  ok       : Bool := true
  readBad  : Option Nat := none
  findings : List Finding := []
  deriving DecidableEq, Repr

/-- The statistics of one slice over a window (R341), in 0.1 codes: whether all its samples are equal, its mean and RMS and the lane's,
whether a clamp engaged, and the share of saturated samples in 0.01 %. -/
structure SliceWindow where
  slice     : Nat
  equal     : Bool
  mean      : Int
  rms       : Nat
  laneMean  : Int
  laneRms   : Nat
  clamped   : Bool
  saturated : Nat
  deriving DecidableEq, Repr

/-- What foreground calibration found of a converter (R330): the trims of its elements, and a DAC's binary cells and output timing. -/
structure BootTrims where
  trims  : List Trim := []
  binary : List Int := []
  timing : Int := 0
  deriving DecidableEq, Repr

/-- What one calibration step measured (R329, R335 to R338): CALRES in ohms; what each selection of elements leaves of the offline
element's error; the trims that the calibration found, and what the shadow phase adds to skew and gain; the lane's RMS over the shadow phase in 0.1 code; the samples of the offline and the serving slice at the instants of
verify, with whether a clamp was engaged; and whether an MTP write succeeded. An ADC slice's residues are its offset in 0.01 LSB and its
gain in 0.01 %; a DAC cell's are its distance from I_REF and from the cell it will replace, in 0.001 LSB. -/
structure StepIo where
  ohms    : Nat
  trims   : List (Nat × Nat) := [(0, 0)]
  found   : Trim := {}
  refine  : Int × Int := (0, 0)
  laneRms : Nat := 300
  verify  : List (Int × Int × Bool) := []
  mtpOk   : Bool := true
  deriving DecidableEq, Repr

end Sys2Proof
end

