-- ==== Sys2Proof/Machine/EventCodes.lean ====
section
/-!
DEFINITION. The events of the device, their codes (R515: class times 0x100 plus the index of the row in the class's table) and
their fixed severities (R516, Table 14.4, and the event tables of classes 0x0E to 0x12).
-/
namespace Sys2Proof.Machine

/-- One constructor for every event name of the event tables. -/
inductive Ev where
  | darkAccess
  | passageActive
  | passageClosed
  | passageSignalFail
  | passageSignalClear
  | passageTrailMismatch
  | passageAdaptSlip
  | passageBoundExceeded
  | protectSwitch
  | protectSkewExceeded
  | bitloadHeld
  | tableSwap
  | tableCommitRefused
  | tableStepSkipped
  | tableCommitAborted
  | tablePairMismatch
  | tableMark
  | hostPortUp
  | hostPortDown
  | hostFecDegrade
  | hostFecDegradeClear
  | hostAdaptLimit
  | hostTableDefault
  | hostTableLoaded
  | flexeGroupUp
  | flexeGroupDown
  | flexeCalSwitch
  | flexeCalTimeout
  | flexeCalMismatch
  | lineFrameLock
  | lineFrameLost
  | lineFecSf
  | lineFecSfClear
  | lineFecDegrade
  | lineFecDegradeClear
  | lineRemoteDefect
  | lineProfileMismatch
  | txLightWithheld
  | txRampDone
  | txFrontendSettled
  | dacClipHigh
  | bitloadLowSnr
  | rxLock
  | rxLockLost
  | rxAcqFail
  | lineLos
  | lineLosClear
  | lineAdcOvr
  | lineAdcOvrClear
  | rxFrontendLimit
  | rxCdRecentred
  | lineCdOutOfSpan
  | lineCdInSpan
  | rxSnrMeasured
  | captureDone
  | leafRanged
  | leafLost
  | collisionCaptured
  | burstOverlap
  | burstLeafMismatch
  | leafHLow
  | leafOutOfTime
  | calBootDone
  | calRunDone
  | calAborted
  | calSkipped
  | calNoSpare
  | convSliceFailed
  | convDegraded
  | convFailed
  | calresFault
  | cipherCompareMismatch
  | cipherPairReturned
  | cipherPairFailed
  | cipherNoSpare
  | cipherTagFail
  | cipherRekeyed
  | cipherKeyAge
  | keyUnwrapFail
  | kekChanged
  | refQualified
  | refDisqualified
  | refSelected
  | refDispute
  | refDriftWarn
  | timeLocked
  | timeHoldover
  | timeFreeRun
  | timeStepNeeded
  | timeStepped
  | timePartnerOffset
  | timeElasticSlip
  | domainJoined
  | domainMismatch
  | domainAuthFail
  | domainNodeClash
  | jobComplete
  | ringHalted
  | spiOverrun
  | tenantRevoked
  | unwrittenRead
  | memUncorrectable
  | eccBucketOverflow
  | hardSuspect
  | scrubTrackFull
  | scrubLate
  | memRepaired
  | pageRetired
  | logOverflow
  | logSpillFull
  | pmBinClosed
  | lifeSlotFail
  | leapTableStale
  | powerStateChanged
  | powerEntryRefused
  | powerEntryAborted
  | retentionLost
  | dripWake
  | powerWake
  | powerLatched
  | powerLatchFull
  | perfLevelChanged
  | powerRailFault
  | belayReleased
  | deviceReset
  | islandReset
  | unitReset
  | fuseLoadRetry
  | fwAuthFail
  | boardConfigFail
  | fwActivated
  | mtpWriteFail
  | strapReserved
  | guideMismatch
  | guideTakeover
  | guideStandbyReady
  | guidePairFailed
  | faultOverlap
  | ulinkPortUp
  | ulinkPortDown
  | ulinkLaneLost
  | ulinkRemoteDefect
  | ulinkSpreadDetected
  | ulinkPartnerMismatch
  | ulinkTableDefault
  | hkOpenWire
  | hkOpenWireClear
  | hkLimit
  | hkThermalWarn
  | hkThermalAlarm
  | hkThermalClear
  | hkFilterRestart
  deriving DecidableEq, Repr

/-- The event code (R515, R161, R237, R286, R348, R388, R424, R474, R511, R539, R623, R647, R670). -/
def Ev.code : Ev → Nat
  | .darkAccess => 0x0101
  | .passageActive => 0x0201
  | .passageClosed => 0x0202
  | .passageSignalFail => 0x0203
  | .passageSignalClear => 0x0204
  | .passageTrailMismatch => 0x0205
  | .passageAdaptSlip => 0x0206
  | .passageBoundExceeded => 0x0207
  | .protectSwitch => 0x0208
  | .protectSkewExceeded => 0x0209
  | .bitloadHeld => 0x020A
  | .tableSwap => 0x0301
  | .tableCommitRefused => 0x0302
  | .tableStepSkipped => 0x0303
  | .tableCommitAborted => 0x0304
  | .tablePairMismatch => 0x0305
  | .tableMark => 0x0306
  | .hostPortUp => 0x0401
  | .hostPortDown => 0x0402
  | .hostFecDegrade => 0x0403
  | .hostFecDegradeClear => 0x0404
  | .hostAdaptLimit => 0x0405
  | .hostTableDefault => 0x0406
  | .hostTableLoaded => 0x0407
  | .flexeGroupUp => 0x0408
  | .flexeGroupDown => 0x0409
  | .flexeCalSwitch => 0x040A
  | .flexeCalTimeout => 0x040B
  | .flexeCalMismatch => 0x040C
  | .lineFrameLock => 0x0501
  | .lineFrameLost => 0x0502
  | .lineFecSf => 0x0503
  | .lineFecSfClear => 0x0504
  | .lineFecDegrade => 0x0505
  | .lineFecDegradeClear => 0x0506
  | .lineRemoteDefect => 0x0507
  | .lineProfileMismatch => 0x0508
  | .txLightWithheld => 0x0601
  | .txRampDone => 0x0602
  | .txFrontendSettled => 0x0603
  | .dacClipHigh => 0x0604
  | .bitloadLowSnr => 0x0605
  | .rxLock => 0x0701
  | .rxLockLost => 0x0702
  | .rxAcqFail => 0x0703
  | .lineLos => 0x0704
  | .lineLosClear => 0x0705
  | .lineAdcOvr => 0x0706
  | .lineAdcOvrClear => 0x0707
  | .rxFrontendLimit => 0x0708
  | .rxCdRecentred => 0x0709
  | .lineCdOutOfSpan => 0x070A
  | .lineCdInSpan => 0x070B
  | .rxSnrMeasured => 0x070C
  | .captureDone => 0x070D
  | .leafRanged => 0x0801
  | .leafLost => 0x0802
  | .collisionCaptured => 0x0803
  | .burstOverlap => 0x0804
  | .burstLeafMismatch => 0x0805
  | .leafHLow => 0x0806
  | .leafOutOfTime => 0x0807
  | .calBootDone => 0x0901
  | .calRunDone => 0x0902
  | .calAborted => 0x0903
  | .calSkipped => 0x0904
  | .calNoSpare => 0x0905
  | .convSliceFailed => 0x0906
  | .convDegraded => 0x0907
  | .convFailed => 0x0908
  | .calresFault => 0x0909
  | .cipherCompareMismatch => 0x0A01
  | .cipherPairReturned => 0x0A02
  | .cipherPairFailed => 0x0A03
  | .cipherNoSpare => 0x0A04
  | .cipherTagFail => 0x0A05
  | .cipherRekeyed => 0x0A06
  | .cipherKeyAge => 0x0A07
  | .keyUnwrapFail => 0x0A08
  | .kekChanged => 0x0A09
  | .refQualified => 0x0B01
  | .refDisqualified => 0x0B02
  | .refSelected => 0x0B03
  | .refDispute => 0x0B04
  | .refDriftWarn => 0x0B05
  | .timeLocked => 0x0B06
  | .timeHoldover => 0x0B07
  | .timeFreeRun => 0x0B08
  | .timeStepNeeded => 0x0B09
  | .timeStepped => 0x0B0A
  | .timePartnerOffset => 0x0B0B
  | .timeElasticSlip => 0x0B0C
  | .domainJoined => 0x0B0D
  | .domainMismatch => 0x0B0E
  | .domainAuthFail => 0x0B0F
  | .domainNodeClash => 0x0B10
  | .jobComplete => 0x0102
  | .ringHalted => 0x0103
  | .spiOverrun => 0x0104
  | .tenantRevoked => 0x0105
  | .unwrittenRead => 0x0C01
  | .memUncorrectable => 0x0C02
  | .eccBucketOverflow => 0x0C03
  | .hardSuspect => 0x0C04
  | .scrubTrackFull => 0x0C05
  | .scrubLate => 0x0C06
  | .memRepaired => 0x0C07
  | .pageRetired => 0x0C08
  | .logOverflow => 0x0D01
  | .logSpillFull => 0x0D02
  | .pmBinClosed => 0x0D03
  | .lifeSlotFail => 0x0D04
  | .leapTableStale => 0x0D05
  | .powerStateChanged => 0x0E01
  | .powerEntryRefused => 0x0E02
  | .powerEntryAborted => 0x0E03
  | .retentionLost => 0x0E04
  | .dripWake => 0x0E05
  | .powerWake => 0x0E06
  | .powerLatched => 0x0E07
  | .powerLatchFull => 0x0E08
  | .perfLevelChanged => 0x0E09
  | .powerRailFault => 0x0E0A
  | .belayReleased => 0x0E0B
  | .deviceReset => 0x0F01
  | .islandReset => 0x0F02
  | .unitReset => 0x0F03
  | .fuseLoadRetry => 0x0F04
  | .fwAuthFail => 0x0F05
  | .boardConfigFail => 0x0F06
  | .fwActivated => 0x0F07
  | .mtpWriteFail => 0x0F08
  | .strapReserved => 0x0F09
  | .guideMismatch => 0x1001
  | .guideTakeover => 0x1002
  | .guideStandbyReady => 0x1003
  | .guidePairFailed => 0x1004
  | .faultOverlap => 0x1005
  | .ulinkPortUp => 0x1101
  | .ulinkPortDown => 0x1102
  | .ulinkLaneLost => 0x1103
  | .ulinkRemoteDefect => 0x1104
  | .ulinkSpreadDetected => 0x1105
  | .ulinkPartnerMismatch => 0x1106
  | .ulinkTableDefault => 0x1107
  | .hkOpenWire => 0x1201
  | .hkOpenWireClear => 0x1202
  | .hkLimit => 0x1203
  | .hkThermalWarn => 0x1204
  | .hkThermalAlarm => 0x1205
  | .hkThermalClear => 0x1206
  | .hkFilterRestart => 0x1207

/-- The event class (R515). -/
def Ev.cls (e : Ev) : Nat := e.code / 256

/-- The fixed severity of an event code: 3 CRITICAL, 2 ALARM, 1 WARNING, 0 INFO (R516). -/
def Ev.severity : Ev → Nat
  | .darkAccess => 1
  | .passageSignalFail => 2
  | .passageTrailMismatch => 2
  | .passageAdaptSlip => 2
  | .passageBoundExceeded => 2
  | .protectSwitch => 2
  | .protectSkewExceeded => 2
  | .bitloadHeld => 1
  | .tableCommitRefused => 2
  | .tableStepSkipped => 2
  | .tableCommitAborted => 1
  | .tablePairMismatch => 3
  | .hostPortDown => 2
  | .hostFecDegrade => 1
  | .hostAdaptLimit => 1
  | .hostTableDefault => 1
  | .flexeGroupDown => 2
  | .flexeCalTimeout => 1
  | .flexeCalMismatch => 1
  | .lineFrameLost => 2
  | .lineFecSf => 2
  | .lineFecDegrade => 1
  | .lineRemoteDefect => 1
  | .lineProfileMismatch => 1
  | .txLightWithheld => 1
  | .dacClipHigh => 1
  | .bitloadLowSnr => 1
  | .rxLockLost => 2
  | .rxAcqFail => 2
  | .lineLos => 2
  | .lineAdcOvr => 1
  | .rxFrontendLimit => 1
  | .lineCdOutOfSpan => 2
  | .leafLost => 2
  | .collisionCaptured => 1
  | .burstOverlap => 1
  | .burstLeafMismatch => 1
  | .leafHLow => 1
  | .leafOutOfTime => 1
  | .calAborted => 1
  | .calSkipped => 1
  | .calNoSpare => 2
  | .convSliceFailed => 2
  | .convDegraded => 2
  | .convFailed => 3
  | .calresFault => 2
  | .cipherCompareMismatch => 2
  | .cipherPairFailed => 3
  | .cipherNoSpare => 3
  | .cipherTagFail => 2
  | .cipherKeyAge => 1
  | .keyUnwrapFail => 1
  | .refDisqualified => 1
  | .refDispute => 1
  | .refDriftWarn => 1
  | .timeHoldover => 2
  | .timeFreeRun => 2
  | .timeStepNeeded => 1
  | .timePartnerOffset => 1
  | .timeElasticSlip => 3
  | .domainMismatch => 2
  | .domainAuthFail => 2
  | .domainNodeClash => 2
  | .ringHalted => 2
  | .spiOverrun => 1
  | .unwrittenRead => 1
  | .memUncorrectable => 3
  | .eccBucketOverflow => 1
  | .hardSuspect => 2
  | .scrubTrackFull => 1
  | .scrubLate => 1
  | .logOverflow => 1
  | .logSpillFull => 1
  | .lifeSlotFail => 1
  | .leapTableStale => 1
  | .powerEntryRefused => 1
  | .powerEntryAborted => 1
  | .retentionLost => 2
  | .powerLatchFull => 1
  | .powerRailFault => 2
  | .fuseLoadRetry => 1
  | .fwAuthFail => 2
  | .boardConfigFail => 2
  | .mtpWriteFail => 2
  | .strapReserved => 1
  | .guideMismatch => 2
  | .guideTakeover => 2
  | .guidePairFailed => 3
  | .faultOverlap => 3
  | .ulinkPortDown => 2
  | .ulinkLaneLost => 1
  | .ulinkRemoteDefect => 1
  | .ulinkSpreadDetected => 1
  | .ulinkPartnerMismatch => 1
  | .ulinkTableDefault => 1
  | .hkOpenWire => 2
  | .hkLimit => 1
  | .hkThermalWarn => 1
  | .hkThermalAlarm => 2
  | _ => 0

end Sys2Proof.Machine
end

