-- ==== Sys2Proof/Syntax.lean ====
section
/-!
DEFINITION. The commands of the block: one constructor per row of spec/opcode_table.json. A host command carries its request; a
transport access carries what the host puts on the bus; a timed, firmware or environment event carries what the outside world or
the analogue side supplies to it (a measured value, a received field, the outcome of a DMA transfer).
-/
namespace Sys2Proof
open Sys2Proof.Machine (Ev PilotProbe)

/-- The commands of the block. -/
inductive Instr where
  | getInfo (q : Request)
  | getVariant (q : Request)
  | jobStatus (q : Request)
  | jobCancel (q : Request)
  | setTenantPolicy (q : Request)
  | echo (q : Request)
  | engineConfig (q : Request)
  | engineEnable (q : Request)
  | engineDisable (q : Request)
  | bitloadSet (q : Request)
  | bitloadMeasure (q : Request)
  | txRamp (q : Request)
  | captureSamples (q : Request)
  | multipointConfig (q : Request)
  | leafProfileSet (q : Request)
  | passageOpen (q : Request)
  | passageClose (q : Request)
  | passageQuery (q : Request)
  | tableWrite (q : Request)
  | tableCommit (q : Request)
  | tableRead (q : Request)
  | protectGroupSet (q : Request)
  | keyLoadWrapped (q : Request)
  | keyRetire (q : Request)
  | cipherBind (q : Request)
  | cipherUnbind (q : Request)
  | kekRotate (q : Request)
  | refConfig (q : Request)
  | refStatus (q : Request)
  | loopConfig (q : Request)
  | timeSet (q : Request)
  | domainJoin (q : Request)
  | memFill (q : Request)
  | scrubConfig (q : Request)
  | memRepair (q : Request) (ok : Bool)
  | pageRetire (q : Request)
  | eccStatus (q : Request)
  | eventMask (q : Request)
  | pmBinRead (q : Request)
  | counterSnapshot (q : Request)
  | lifeRead (q : Request)
  | leapTableSet (q : Request) (ok : Bool)
  | powerStateSet (q : Request)
  | perfLevelSet (q : Request)
  | driplineConfig (q : Request)
  | belayRelease (q : Request)
  | powerAccountRead (q : Request)
  | reset (q : Request)
  | fwUpdate (q : Request)
  | fuseStatus (q : Request)
  | ulinkConfig (q : Request)
  | ulinkStatus (q : Request)
  | hostPortConfig (q : Request)
  | hostTableLoad (q : Request)
  | flexeCalendarSet (q : Request)
  | hkSequenceSet (q : Request)
  | hkFilterSet (q : Request)
  | hkRead (q : Request)
  | calPolicy (q : Request)
  | calRun (q : Request)
  | cmdqTailDoorbell (page : Nat) (v : BitVec 16)
  | ringFetch (io : RingIo)
  | rspqHeadWrite (page : Nat) (v : BitVec 16)
  | ringEnable (page : Nat) (cmdqLog : Nat) (rspqLog : Nat)
  | ringReset (page : Nat)
  | intStatusClear (page : Nat) (v : Reg)
  | rspReadyModeration (page : Nat)
  | evtRdWrite (v : Reg)
  | chamberLoRead
  | counterLowWordRead (page : Nat) (index : Nat)
  | bar0DarkRead (addr : Nat) (size : Nat)
  | registerWrite (addr : Nat) (size : Nat) (v : Reg)
  | uncorrectableRegisterRead (unit : Nat) (inst : Nat) (addr : Nat) (spi : Bool)
  | packetWrite (bytes : List Byte)
  | responseRead (whole : Bool)
  | statusRead
  | regRead (addr : Nat)
  | regWrite (addr : Nat) (v : Reg)
  | i2cPacketWrite (bytes : List Byte)
  | i2cRead (status : Bool) (whole : Bool)
  | pciePerst
  | jobStep (io : JobIo)
  | jobComplete (token : Nat)
  | jobRecordExpiry
  | porstNAssert
  | sysrstNAssert
  | supplyMonitorTrip (code : Nat) (mv : Nat)
  | thermalTrip (temp : Int)
  | thermalTripRelease (hottest : Int) (ms : Nat)
  | watchdogExpiry (ms : Nat)
  | doubleLockstepFault
  | resetCommandAssert (lifeOk : Bool)
  | resetRelease (bootSrc : Nat) (clkMode : Nat)
  | fuseLoad (f : FuseRead)
  | boardConfigRead
  | lpddr6TrainingDone
  | imageAuthenticate
  | bootComplete
  | tableSwap
  | passageFree (id : Nat)
  | imageBankCopy
  | commitStaging (bad : Option (Nat × Nat × Nat))
  | timedStepIssue (errs : List (Nat × Nat × Nat))
  | pairedCommitDecide
  | lineFrameSend (n : Nat)
  | lineFrameReceive (n : Nat) (f : LineFrame)
  | fecCodewordDecode (n : Nat) (failed : Bool) (corrected : Nat) (iters : Nat)
  | domainMessageReceive
  | timeStatusSend
  | relayTimeout
  | lineLos (n : Nat) (mv : Nat)
  | lineLosClear (n : Nat) (mv : Nat)
  | frozenStateExpiry (n : Nat)
  | agcUpdate (n : Nat) (inputs : List (List Int)) (want : Int)
  | rxAcquisitionStart (n : Nat)
  | rxLock (n : Nat) (probes : List PilotProbe) (d : Int) (skip : Nat)
  | rxAcqFail (n : Nat) (met : List Nat)
  | warmAcquisitionTimeout (n : Nat)
  | rxLockLost (n : Nat) (cause : Nat)
  | snrWindowEnd (n : Nat)
  | firstUseCommit (n : Nat)
  | rxCdRecentred (n : Nat)
  | lineCdOutOfSpan (n : Nat)
  | lineCdInSpan (n : Nat)
  | lineAdcOvr (n : Nat)
  | adcClampEngage (n : Nat) (lane : Nat)
  | adcClampRelease (n : Nat) (lane : Nat)
  | rxFrontendLimit (n : Nat) (what : Nat) (lane : Nat) (value : Int) (ms : Nat)
  | txFrontendStep (n : Nat)
  | dacClipHigh (n : Nat)
  | carrierDriverOn (n : Nat)
  | carrierRampStart (n : Nat)
  | carrierRampEnd (n : Nat)
  | carrierLaserOff (n : Nat)
  | blockIngress (a : SlotAt) (x : Arrival)
  | blockEgress (a : SlotAt) (room : Bool)
  | hostPortUp (lane : Nat) (pcs : List (Nat × Nat))
  | hostPortDown (lane : Nat) (cause : Nat) (bad : Nat)
  | hostPortTimeout (lane : Nat) (cause : Nat)
  | hostFecWindowEnd (lane : Nat) (hist : List Nat) (uncorr : Nat)
  | hostAdaptLimit (lane : Nat) (which : Nat)
  | txTapStep (lane : Nat) (ctle : Int) (ffe : Int) (dfe : Int)
  | flexeCalSwitch (g : Nat)
  | flexeCalTimeout (g : Nat)
  | flexeCalRequest (g : Nat) (cal : List Nat)
  | flexeGroupDown (g : Nat) (cause : Nat) (crcErrors : Nat) (losses : Nat)
  | flexeGroupUp (g : Nat)
  | protectSelect (id : Nat)
  | protectRevert (id : Nat)
  | protectSkewClear (id : Nat)
  | cipherSegment (id : Nat) (ch : Nat) (fault : Option SegFault)
  | cipherPairSelftestDone (k : Nat) (failed : Option Nat)
  | cipherTagCheck (id : Nat) (ch : Nat)
  | keySlotRelease (id : Nat)
  | cipherRekeyed (id : Nat)
  | cipherKeyAge (id : Nat)
  | refInputLost (input : Nat) (quiet : Nat)
  | refInputPresent (input : Nat)
  | refQualified (input : Nat)
  | refSecondEval (ms : List Meas) (loopFreq : Int)
  | loopNarrowStep
  | oscOffsetWrite (temp : Int) (mtpOk : Bool)
  | ppsInEdge
  | qlTimeout (input : Nat)
  | timePartnerOffset (input : Nat) (off : Int)
  | timeElasticSlip (input : Nat) (theta : Int)
  | domainJoinApply
  | burstSync (n : Nat) (sub : Nat) (time : Nat) (decisions : Nat) (power : Int)
  | burstHeader (n : Nat) (sub : Nat) (header : Nat)
  | burstDecode (n : Nat) (sub : Nat) (b : Burst)
  | windowMissed (n : Nat) (sub : Nat) (w : Nat) (ch : Nat) (profBad : Bool)
  | leafBurstSend (n : Nat) (sub : Nat) (w : Nat) (ch : Nat)
  | calBootDone (n : Nat) (ohms : Nat) (temp : Int) (bad : List (Nat × Nat)) (found : List BootTrims)
  | calTrigger (n : Nat) (c : Nat) (cause : Nat) (temp : Int) (ohms : Nat)
  | calStepEnd (n : Nat) (c : Nat) (io : StepIo)
  | sliceWindowEval (n : Nat) (c : Nat) (w : SliceWindow) (mtpOk : Bool)
  | scrubStep (lp : Bool) (found : List Finding) (ok : Bool)
  | memoryRead (unit : Nat) (inst : Nat) (addr : Nat) (reader : Nat) (flips : List Nat) (use : MemUse)
  | eccBucketLeak
  | memRepairSwitch (bad : List Nat) (ok : Bool)
  | pageRetireSwitch (bad : List Nat) (ok : Bool)
  | eventRecordWrite (e : Ev) (island : Nat) (source : Nat) (payload : List Byte)
  | logOverflow
  | snapshotFreeze
  | pmBinClose
  | lifeRecordWrite (ok : Bool)
  | leapTableStale
  | powerTransitionDone (target : Nat) (corrupt : List Nat) (lifeOk : Bool)
  | powerEntryAborted (target : Nat) (cause : Nat) (code : Nat) (status : Nat)
  | wakeSource (source : Nat) (gpio : Nat) (level : Bool) (arg : Nat) (message : List Byte)
  | driplineCycle (n : Nat) (los : List Nat) (samples : List Int)
  | perfLevelChange (n : Nat) (confirmed : Bool) (status : Nat) (drift : Int)
  | vTrimRecompute (n : Nat) (drift : Int)
  | pmAlert (code : Nat) (status : Nat)
  | pmbusTelemetryPoll (xs : List (Nat × Nat × Nat × Int × Nat))
  | guideActiveTrap (cause : Nat)
  | guideTakeover
  | guideStandbyTrap (cause : Nat)
  | guideStandbyReady (failed : Option Nat)
  | ulinkLaneLock (p : Nat) (lane : Nat) (blocks : List Block) (skew : Nat)
  | ulinkFrameSend (p : Nat) (depart : Nat)
  | ulinkFrameReceive (p : Nat) (f : UlFrame)
  | ulinkPortTimeout (p : Nat)
  | ulinkRefclkMeasure (ppm : Int) (peak : Nat)
  | hkFrame (adc0 : List Int) (adc1 : List Int)
  | hkThermalEval
  | captureTrigger (n : Nat)
  | pcieD3hotTransition (on : Bool)
  | pmGaugeSample
  | tapInstructionUpdate (code : Nat)
  deriving DecidableEq, Repr

end Sys2Proof
end

