-- ==== Sys2Proof/Config.lean ====
section
/-!
DEFINITION. What an implementation fixes and what the specification leaves open. Every open value is an opaque constant with no
body, so nothing can be proved of its value; each is named in a row of the assumption log.
-/
namespace Sys2Proof.Config

/-- The k-th value the specification leaves open, as a number of any size: applied to `State.freeCtr` (assumption 3). -/
opaque freeNat : Nat → Nat

/-- The key that wraps a tenant's stored KEK: R374 names the fused device root key and the tenant as its inputs and states no
derivation (assumption 4). -/
opaque storageKey : Nat → BitVec 256

/-- Does an image's ECDSA P-384 signature verify against the Isaulo public key of the boot ROM (R596)? The key is not in the
specification (assumption 7). -/
opaque signatureOk : List Byte → Bool

/-- Isaulo's JEDEC manufacturer code, bits [11:1] of IDCODE, which stands in the BSDL file alone (R690, assumption 10). -/
opaque jedecCode : BitVec 11

/-- The receive SNR of a host lane in 0.01 dB at a monotone time: a measurement (Table 4.9, assumption 11). -/
opaque laneSnr : Nat → Nat → BitVec 16

/-- What a bin stores for a gauge that took no sample and for which no chapter gives a not-valid value (R528, assumption 12). -/
opaque voidGauge : BitVec 64

/-- The fixed marks between which rate adaptation holds a passage buffer's fill, in blocks, for a buffer of a number of blocks (R71,
assumption 81). -/
opaque lowMark : Nat → Nat
opaque highMark : Nat → Nat

/-- The fused skew trim of a slice of an ADC of an engine (R330, assumption 88). -/
opaque fusedSkew : Nat → Nat → Nat → Int

/-! Arithmetic of the signal processors, whose word lengths and approximations the specification does not give (assumption 78). -/

/-- Subcarrier synthesis (R204): the value, real and imaginary, at an instant in half subcarrier symbols of the band-limited signal
that a half-symbol-spaced sequence stands for. -/
opaque upsample : List (Rat × Rat) → Rat → Rat × Rat

/-- The step size of the polarisation equaliser's tap update (R258). -/
opaque eqStep : Rat

/-- The reach of the 6-bit soft values: how many units of log-likelihood one step stands for (R263). -/
opaque llrStep : Rat

/-- The parity bits of a codeword of a code from its information bits: the parity-check matrices of the ZFEC-S codes are not in the
specification (assumption 78). -/
opaque parity : Nat → Nat → Nat

/-- The 120-bit alignment marker of a PCS lane of a PHY type, and the padding of a marker group: IEEE 802.3's, which is not in the
specification (R136, assumption 86). -/
opaque marker : Nat → Nat → Nat
opaque markerPad : Nat

/-- The CFEC-coded bits of a 400ZR frame, as their number and value, from the frame's; and what the 400ZR DSP frame carries of X and Y at
a place of the symbol stream, none where it carries data: parts of the implementation agreement, which is not in the specification (R200,
assumption 80). -/
opaque cfec : Nat → Nat → Nat × Nat
opaque zrPilot : Nat → Option ((Rat × Rat) × (Rat × Rat))

/-- The subcarrier demultiplexer's band filter (R238): the value, from 128 consecutive samples already moved to the subcarrier's frequency,
at a part of a sample behind the 64th, for ROLLOFF_MAX and a number of subcarriers. -/
opaque bandpass : Nat → Nat → List (Rat × Rat) → Rat → Rat × Rat

/-- What timing recovery adds to its phase, in lane samples, and to its relative clock, from the half-symbol samples of a subcarrier
(R260); and what carrier recovery adds to the frequency offset, in GHz, from the rotations of the pilots before and behind (R262). -/
opaque timingError : List (Rat × Rat) → Rat × Rat
opaque freqError : (Rat × Rat) → (Rat × Rat) → Rat

/-- The blind refinement of carrier phase, in half-turns, at an entropy and a place of a symbol block, from the block's symbols (R262). -/
opaque blindPhase : Nat → Nat → List (Rat × Rat) → Rat

/-- What the taps of the polarisation equalisers, before and after a step, say of the line: 0 residual dispersion in ps/nm, 1 DGD in 0.1 ps,
2 PDL in 0.1 dB, 3 SOP rate in krad/s (R256, R277). -/
opaque tapEstimate : Nat → List (List (List (Rat × Rat))) → List (List (List (Rat × Rat))) → Rat

/-- The value of a lane, given by its samples, at a sample's instant shifted by a fraction of a sample: the skew correction of the receive
front end (R250, assumption 78). -/
opaque interpolate : Rat → List Rat → Nat → Rat

end Sys2Proof.Config
end

