-- ==== Sys2Proof/Machine/Crc.lean ====
section
/-!
DEFINITION. The cyclic redundancy checks the chapters name: CRC-32C (R441), the CRC-32 of the retention signatures (R549) and
the CRC-16 of the frame overheads.
-/
namespace Sys2Proof.Machine

/-- `n` shifts of a reflected CRC register. -/
def crcShift (poly : Nat) : Nat → Nat → Nat
  | 0, c => c
  | n + 1, c => crcShift poly n (if c % 2 = 1 then (c / 2) ^^^ poly else c / 2)

/-- A reflected CRC register run over bytes. -/
def crcRun (poly : Nat) (c : Nat) (l : List Byte) : Nat :=
  foldN (fun c b => crcShift poly 8 (c ^^^ b.toNat)) c l

/-- CRC-32C: polynomial 0x1EDC_6F41 reflected, initial value and final XOR 0xFFFF_FFFF (R441). -/
def crc32c (l : List Byte) : Nat := crcRun 0x82F63B78 0xFFFFFFFF l ^^^ 0xFFFFFFFF

/-- CRC-32: polynomial 0x04C1_1DB7 reflected, initial value and final XOR 0xFFFF_FFFF (R549). -/
def crc32 (l : List Byte) : Nat := crcRun 0xEDB88320 0xFFFFFFFF l ^^^ 0xFFFFFFFF

/-- A linear map of 32-bit registers, by the images of the single bits, applied to a register. -/
def gfApply (m : List Nat) (c : Nat) : Nat := (m.zip (List.range m.length)).foldl (fun a x => if c.testBit x.2 then a ^^^ x.1 else a) 0

/-- A CRC register run over `n` zero bytes: `m` is the map of 2^j of them, and `n` counts those. -/
def crcZeros : Nat → List Nat → Nat → Nat → Nat
  | 0, _, _, c => c
  | k + 1, m, n, c =>
    let c := if n % 2 = 1 then gfApply m c else c
    if n / 2 = 0 then c else crcZeros k (m.map fun x => gfApply m x) (n / 2) c

/-- The map of one zero byte under the CRC-32. -/
def crcZero32 : List Nat := (List.range 32).map fun i => crcShift 0xEDB88320 8 (2 ^ i)

/-- The CRC-32 register over the bytes from `lo` up to `hi` of a memory whose unlisted bytes are zero. -/
def crcSpan (data : List (Nat × Byte)) (c lo hi : Nat) : Nat :=
  let r := (data.filter fun x => decide (lo ≤ x.1) && decide (x.1 < hi)).foldl
    (fun (a : Nat × Nat) x => (x.1 + 1, crcShift 0xEDB88320 8 (crcZeros 64 crcZero32 (x.1 - a.1) a.2 ^^^ x.2.toNat))) (lo, c)
  crcZeros 64 crcZero32 (hi - r.1) r.2

/-- One byte through an unreflected CRC register of `w` bits. -/
def crcMsbByte (w poly c : Nat) (b : Byte) : Nat :=
  foldN
    (fun c i => if c.testBit (w - 1) != b.toNat.testBit (7 - i) then (c * 2) % 2 ^ w ^^^ poly else (c * 2) % 2 ^ w)
    c (List.range 8)

/-- An unreflected CRC of `w` bits over bytes, most significant bit first. -/
def crcMsb (w poly start : Nat) (l : List Byte) : Nat := foldN (crcMsbByte w poly) start l

end Sys2Proof.Machine
end

