-- ==== Sys2Proof/Machine/StateCom.lean ====
section
/-!
DEFINITION. State of the command interface (12_commands.md): transports, rings, interrupts, jobs, tenants, snapshots.
Default field values are the values after reset.
-/
namespace Sys2Proof.Machine

/-- A response packet waiting for the host: OPCODE with bit 15 set, TENANT, HOST_TAG and payload (R442). -/
structure Rsp where
  op      : Nat
  tenant  : Nat
  tag     : BitVec 32
  payload : List Byte
  deriving DecidableEq, Repr

/-- A received command not yet executed (R446). -/
structure Received where
  op  : Nat
  req : Request
  started : Bool := false       -- executed and journalled; its response comes later
  bad : Option Nat := none      -- the status of a packet whose header failed R443, still to be answered
  void : Bool := false          -- its ring was reset: the response is discarded (R433)
  deriving DecidableEq, Repr

/-- The registers of one tenant page (Table 12.13) and the ring's own bookkeeping. -/
structure Page where
  enable      : Bool := false          -- RING_CTRL.ENABLE
  cmdqLog     : Nat := 0               -- RING_CTRL.CMDQ_LOG
  rspqLog     : Nat := 0               -- RING_CTRL.RSPQ_LOG
  halted      : Bool := false          -- RING_STATUS.HALTED
  cause       : Nat := 0               -- RING_STATUS.CAUSE
  index       : Nat := 0               -- RING_STATUS.INDEX
  vector      : Nat := 0               -- INT_CONFIG.VECTOR
  pin         : Nat := 0               -- INT_CONFIG.PIN
  pinEn       : Bool := false          -- INT_CONFIG.PIN_EN
  moderation  : Nat := 0               -- INT_CONFIG.MODERATION_US
  cmdqBaseLo  : Reg := 0
  cmdqBaseHi  : Reg := 0
  cmdqTail    : BitVec 16 := 0
  cmdqHead    : BitVec 16 := 0
  rspqBaseLo  : Reg := 0
  rspqBaseHi  : Reg := 0
  rspqTail    : BitVec 16 := 0
  rspqHead    : BitVec 16 := 0
  intStatus   : Reg := 0
  intMask     : Reg := 0x7F
  ctrSelect   : Reg := 0x0000FFFF
  shadowHi    : Reg := 0               -- CTR_SHADOW_HI
  outstanding : Nat := 0               -- commands fetched and not yet answered (R430)
  unread      : List Rsp := []         -- responses written and not yet consumed, oldest first
  held        : List Rsp := []         -- responses held back in D3hot (R427)
  rspCleared  : Option Nat := none     -- monotone time at which the host cleared RSP_READY (R472)
  rspDue      : Bool := false          -- a response was written since RSP_READY was cleared
  deriving DecidableEq, Repr

/-- The policy of a tenant (Table 12.10, R460). -/
structure Policy where
  enabled      : Bool := false
  engineUse    : Nat := 0
  engineManage : Nat := 0
  umranUse     : Nat := 0
  hostLanes    : Nat := 0
  flexeGroups  : Nat := 0
  slotQuota    : Nat := 0
  keyQuota     : Nat := 0
  deriving DecidableEq, Repr

/-- A frozen counter group in a snapshot slot (Table 12.14). -/
structure Snapshot where
  unit    : Nat := 0
  inst    : Nat := 0
  seq     : Nat := 0
  chamber : Nat := 0
  values  : List Ctr := []
  deriving DecidableEq, Repr

/-- A COUNTER_SNAPSHOT or an open-bin read waiting for the next chamber boundary (R469, R530). -/
structure SnapPending where
  req     : Request
  unit    : Nat
  inst    : Nat
  slot    : Nat
  bin     : Option Nat := none    -- PM_BIN_READ of INDEX 0: its KIND
  chamber : Nat                   -- chamber of receipt
  deriving DecidableEq, Repr

/-- The SPI target (R434, R435) or the I2C target (R438). -/
structure Target where
  responses : List Rsp := []
  overrun   : Bool := false
  discarded : Nat := 0            -- packets discarded since the last STATUS_READ (Table 12.15)
  lastRead  : List Byte := []     -- bytes the device last returned on the bus
  deriving DecidableEq, Repr

/-- State of the command interface. -/
structure Com where
  scratch0     : Reg := 0
  scratch1     : Reg := 0              -- RWS: survives every reset but PORST_N
  chamberHi    : Reg := 0
  evtThreshold : Reg := 0x0000C000
  msix         : Tab Reg := []         -- MSI-X table words, by word index 0 to 255
  pba          : BitVec 64 := 0        -- MSI-X pending bits
  msiSent      : Tab Nat := []         -- messages sent so far, by vector
  d3hot        : Bool := false         -- PCIe power state (R427)
  pages        : Tab Page := []
  lastServed   : Nat := 17             -- the page or target last served in the rotation (R431)
  spi          : Target := {}
  i2c          : Target := {}
  spiT0Only    : Bool := false         -- GLOBAL_FLAGS.SPI_T0_ONLY
  i2cOff       : Bool := false         -- GLOBAL_FLAGS.I2C_TARGET_OFF
  policies     : Tab Policy := []      -- T1 to T15; T0's is fixed (R460)
  revoking     : List (Nat × Nat) := []   -- revoked tenants whose keys go at their FREE_CHAMBER (R462)
  received     : List Received := []   -- received, not yet answered, in order of receipt
  relayed      : List (Nat × Nat × Rsp) := []   -- responses due as domain messages: input and node (R415)
  readData     : List Byte := []       -- the bytes that the last BAR0 read over PCIe returned
  snapshots    : Tab Snapshot := []    -- key: 16 x tenant + slot
  snapPending  : List SnapPending := []
  deriving DecidableEq, Repr

end Sys2Proof.Machine
end

