-- ==== Sys2Proof/Machine/StateEng.lean ====
section
/-!
DEFINITION. State of a wavelength engine: configuration, transmit and receive path, line frame, multipoint roles (05 to 08) and
its power (15). Default field values are the values after reset.
-/
namespace Sys2Proof.Machine

/-- Power of an engine: Dripline (R558 to R560) and performance level (R561 to R565). -/
structure EngPwr where
  autoWake  : Bool := true
  useSlice  : Bool := true
  sliceRms  : Nat := 4
  periodMs  : Nat := 10
  losSetMv  : Nat := 100
  losClearMv : Nat := 120
  light     : Nat := 0           -- 0 unknown, 1 absent, 2 present
  losdetMv  : Nat := 0           -- last LOSDETn mean
  opposite  : Nat := 0           -- consecutive cycles that found the state opposite to LIGHT
  cycleAt   : Nat := 0           -- monotone time of the last cycle
  floor     : Nat := 0
  level     : Nat := 0
  agingMv   : Nat := 0           -- aging part of V_TRIM
  trimAt    : Nat := 0           -- monotone time at which it was last recomputed
  deriving DecidableEq, Repr

/-- The front-end and drive fields (R211, R225). -/
structure FrontEnd where
  swing : Int := 0               -- mV
  drive : Int := 0               -- codes
  emph  : Int := 0               -- 0.5 dB
  skew  : List Int := [0, 0, 0, 0]
  iqX   : Int := 0
  iqY   : Int := 0
  gain  : List Int := [0, 0, 0, 0]
  deriving DecidableEq, Repr

/-- Configuration of an engine (Table 6.2). -/
structure EngCfg where
  configured : Bool := false     -- an ENGINE_CONFIG came since the island's last reset (R215)
  mode       : Nat := 1
  code       : Nat := 1
  subs       : Nat := 1          -- S
  symRate    : Nat := 0          -- 0.1 GBd
  rollMax    : Nat := 0
  roll       : Nat := 0          -- as ENGINE_CONFIG gave it
  dspan      : Nat := 0
  hStart     : Nat := 32
  margin     : Nat := 0
  zrPort     : Nat := 0
  txFlags    : Nat := 0
  fe         : FrontEnd := {}
  settleMs   : Nat := 0
  rampMs     : Nat := 1
  gpio       : Nat := 0xFF
  deriving DecidableEq, Repr

/-- Stages of the carrier (Table 6.5). -/
inductive CarSt where
  | dark         -- both enables low
  | laserOn      -- LSR_EN high, waiting LASER_SETTLE_MS
  | driverOn     -- DRV_EN high, 1 ms before the amplitude ramp
  | rampUp
  | full
  | rampDown
  | laserHold    -- DRV_EN low again, LSR_EN high for 1 ms more
  deriving DecidableEq, Repr

/-- Transmit path (06_transmit.md). -/
structure TxPath where
  enabled   : Bool := false
  enableAt  : Option Nat := none          -- chamber of a scheduled ENGINE_ENABLE
  disableAt : Option Nat := none          -- chamber of a scheduled ENGINE_DISABLE
  forced    : Bool := false               -- that ENGINE_DISABLE has its force flag set (R77)
  prof      : List Nat := []              -- transmit LOADING, H of each subcarrier in sixteenths
  roll      : Nat := 0                    -- the active roll-off, that of the PULSE step (R222)
  seeds     : List Nat := []              -- pilot generators' seeds, 2s + p (R203)
  fe        : FrontEnd := {}              -- front-end values reached (R225)
  settling  : Bool := false
  permit    : Bool := false               -- light is permitted (R227, R228)
  withheld  : Bool := false
  car       : CarSt := .dark
  carAt     : Nat := 0                    -- monotone time at which the stage began
  carDone   : Nat := 0                    -- part of the ramp behind when the stage began, quarter-nanoseconds
  ramp      : Nat := 1                    -- ramp in ms of the sequence under way
  clipHigh  : Bool := false               -- DAC_CLIP_HIGH raised (R226)
  clipMs    : List Nat := []              -- saturated samples of each lane in the millisecond under way (R226)
  txDelay   : Nat := 0                    -- TX_DELAY of the profile
  paired    : Option Nat := none          -- Cc of the latest paired swap (R121)
  rdi       : Bool := false               -- RDI being sent
  header    : List Nat := []              -- the eight header words of the last frame sent (Table 5.2)
  frame     : Bits := {}                  -- the last frame sent (R163)
  sentCh    : Option Nat := none          -- the chamber for which symbols were last formed
  mgmtQ     : List (List Byte) := []      -- management messages waiting, framed, the first one's bytes not yet sent (R180)
  stage     : Tab (List Block) := []      -- blocks that wait for their slot of the next frame, by `stageKey`
  info      : Bits := {}                  -- information bits of the codeword not yet whole (R164)
  coded     : Bits := {}                  -- codeword bits not yet dealt to a shaping frame (R205)
  gridAt    : Nat := 0                    -- chamber at which the symbol grid began
  next      : List Nat := []              -- data symbol at which each subcarrier's next shaping frame begins
  points    : Tab (List Cx) := []         -- data points that wait for a symbol block, by 2 x subcarrier + polarisation
  symbols   : List SymBlock := []         -- the symbol blocks that the last frame completed (R202)
  prev      : List SymBlock := []         -- those of the frame before it
  prior     : List SymBlock := []         -- those of the one before that
  formed    : List Nat := []              -- symbols formed on each subcarrier since the grid began
  oldRoll   : Nat := 0                    -- roll-off that the cross-fade under way leaves (R223)
  fadeAt    : Option Nat := none          -- symbol block of the grid at which it begins
  zrBlocks  : List Block := []            -- compatibility mode: blocks of the host port that wait for the 400ZR frame (R200)
  deriving DecidableEq, Repr

/-- Receive path (07_receive.md) and line frame receiver (05_line_frame_fec.md). -/
structure RxPath where
  los       : Bool := true                -- loss of light; the monitor starts in the loss state (R248)
  losMv     : Nat := 0                    -- LOSDET_LEVEL gauge
  frozenAt  : Option Nat := none          -- monotone time since which frozen state is kept (R249)
  duty      : Nat := 0                    -- TIA_GC
  inRange   : Bool := false               -- the RMS has entered the target range
  rms       : Nat := 0                    -- ADC_RMS, 0.1 code
  ovr       : Bool := false               -- LINE_ADC_OVR raised
  ovrClean  : Nat := 0                    -- consecutive clean milliseconds
  clamps    : List Bool := [false, false, false, false]
  limits    : List (Nat × Nat) := []      -- front-end corrections at their limit (R250)
  front     : Tab Int := []               -- the corrections in force, by 4 x (1 skew, 2 gain, 3 quadrature) + lane (R250)
  mirrorX   : Bool := false
  mirrorY   : Bool := false
  cdSets    : Int × Int := (0, 0)
  cdActive  : Nat := 0
  dEst      : Option Int := none
  outSpan   : Bool := false
  acq       : Option Bool := none         -- acquiring: true cold, false warm
  acqAt     : Nat := 0                    -- monotone time of the reference (R266)
  tryAt     : Nat := 0                    -- that from which the 50 ms of the acquisition under way run (R267)
  acqFailed : Bool := false               -- RX_ACQ_FAIL raised in this run of failures
  lock      : Bool := false               -- RX_LOCK
  prof      : List Nat := []              -- receive LOADING
  oldProf   : List Nat := []              -- the profile before the last change
  switchCh  : Option Nat := none          -- chamber of that change: frames before it are read under the old profile (R265)
  frame     : Bool := false               -- frame lock (R194)
  marker    : Option Nat := none          -- CHAMBER of the last good marker
  expect    : Option (Nat × Nat) := none  -- CHAMBER and position in the decoded stream of the next frame (R193)
  stamps    : List (Nat × Nat) := []      -- markers used, newest first: CHAMBER and arrival in domain time, at most 32
  bits      : Bits := {}                  -- the last frame received in lock
  bitsCh    : Nat := 0                    -- its CHAMBER
  lostBits  : List (Nat × Nat) := []      -- its bit ranges in uncorrectable codewords: first bit and length
  dsp       : RxDsp := {}                 -- the receive stages (Table 7.1)
  cwAt      : Nat := 0                    -- place of the next codeword in the decoded information stream
  cwBad     : List (Nat × Nat) := []      -- uncorrectable codewords of it: first bit and length (R190)
  memBad    : Bool := false               -- engine memory returned an uncorrectable error (R189)
  zrOut     : List Block := []            -- compatibility mode: blocks for the host port (R200)
  bers      : List Nat := []              -- pre-FEC BER of the last chambers in 10^-6, newest first, at most 8 192 (R192)
  oldSet    : Option (Int × Nat) := none  -- dispersion that a CD cross-fade leaves, and its chamber (R255)
  badRun    : Nat := 0                    -- consecutive bad markers
  farEpoch  : Option Nat := none
  farNode   : Nat := 0
  farEngine : Nat := 0
  farRdi    : Bool := false
  farDeg    : Bool := false
  farTxDelay : Nat := 0
  theta     : Option Int := none          -- offset of the last two-way exchange, quarter-nanoseconds (R408)
  delay     : Int := 0                    -- its d_AB, quarter-nanoseconds
  epochBad  : Bool := false               -- DOMAIN_MISMATCH raised
  profBad   : Bool := false               -- LINE_PROFILE_MISMATCH raised
  pairRun   : Nat := 0                    -- consecutive chambers in which PAIRED differs (R121)
  fecRun    : Nat := 0                    -- consecutive uncorrectable codewords
  fecSf     : Bool := false
  fecBad    : Bool := false               -- an uncorrectable codeword came since the last frame
  fecWhole  : Bool := false               -- the chamber under way began in frame lock
  fecDeg    : Bool := false
  ber       : Nat := 0                    -- PRE_FEC_BER, 10^-6
  mgmtBuf   : List (Option Byte) := []    -- management bytes not yet delivered, none for a lost one
  winStart  : Option Nat := none          -- chamber at which the running SNR window began
  winBad    : Bool := false               -- the running window is invalid
  window    : Option (Nat × List Int) := none   -- last valid window: last chamber, SNR per subcarrier in 0.1 dB
  b2b       : Nat := 240
  use       : Nat := 0                    -- first-use STATE (Table 7.5)
  useFails  : Nat := 0
  useCc     : Option Nat := none          -- Cc of an armed first-use commit
  useProf   : List Nat := []              -- the profile it carries
  useReply  : Option (Nat × Bool) := none -- message tag of the BITLOAD_SET sent to the far node; accepted locally
  est       : Tab Int := []               -- estimates of Table 7.6 by index: 0 CD, 1 DGD, 2 PDL, 3 SOP, 5 FREQ, 6 CLOCK
  deriving DecidableEq, Repr

/-- A leaf profile of a hub (R317). -/
structure LeafProf where
  st        : Nat := 0                    -- Table 8.6
  windows   : List Nat := []              -- 16 bytes
  periodLog : Nat := 0
  offset    : Nat := 0
  hMin      : Nat := 32
  node      : Nat := 0
  cd        : Int := 0
  freq      : Int := 0
  power     : Int := 0
  snr       : Nat := 0
  phase     : Rat := 0                    -- timing phase stored by a confirmed burst, in symbols
  taps      : Tab Butterfly := []         -- polarisation-equaliser taps stored by confirmed bursts, by subcarrier
  hLast     : Nat := 0
  lastCh    : Nat := 0
  deltas    : List Int := []              -- δ of the last 16 bursts in ps, newest first
  ranging   : Nat := 0                    -- consecutive confirmed ranging bursts
  missRun   : Nat := 0                    -- consecutive missed windows
  msgAt     : Option Nat := none          -- chamber of the last timing message
  down      : Bool := true                -- its passages substitute until every window of a chamber was received (R311)
  chBad     : Bool := false               -- the last burst carried another CHAMBER_LO (R310)
  seenCh    : Nat := 0                    -- chamber that the next three fields speak of
  got       : List Nat := []              -- windows received in it, 8 x subcarrier + window
  lost      : List Nat := []              -- windows counted as missed in it
  trails    : Tab Nat := []               -- TRAIL entries received in it, by slot
  mgmtBuf   : List (Option Byte) := []    -- the leaf's management bytes not yet delivered, none for a lost one
  ok        : Ctr := 0
  missed    : Ctr := 0
  uncorr    : Ctr := 0
  deriving DecidableEq, Repr

/-- A burst reception in progress on a subcarrier of a hub (R309). -/
structure Recept where
  window    : Nat
  chamber   : Nat
  power     : Int
  confirmed : Bool := false
  leaf      : Nat := 0xFF
  header    : Nat := 0                        -- bits [47:0] of the confirmed header
  captured  : Option (Nat × Int) := none      -- leaf ID abandoned for this reception and the power difference
  cand      : Option (Nat × Nat × Int) := none   -- strongest candidate sync: chamber, window and power
  deriving DecidableEq, Repr

/-- A burst that a leaf sent (R299 to R304, R312). -/
structure SentBurst where
  sub     : Nat
  window  : Nat
  chamber : Nat
  departs : Int                               -- leaf domain time at which its first symbol leaves, in ps
  header  : Nat                               -- Table 8.4
  info    : Bits := {}                        -- the information bits of a data burst (R301)
  symbols : List Cx × List Cx := ([], [])     -- its symbols in X and Y, from the first ramp symbol on (Table 8.3)
  deriving DecidableEq, Repr

/-- Multipoint role of an engine (08_multipoint.md). -/
structure Multi where
  role      : Nat := 0                    -- 0 point-to-point, 1 hub, 2 leaf
  leafId    : Nat := 0
  hubNode   : Nat := 0
  syncErr   : Nat := 6
  capture   : Nat := 60
  loss      : Nat := 8
  oldLimits : Nat × Nat × Nat := (6, 60, 8)   -- the three thresholds before the last ACTION 2
  limitsAt  : Nat := 0                    -- domain time of the window from which the new ones hold (R290)
  leafSt    : Nat := 0                    -- Table 8.8
  advance   : Int := 0                    -- A in ps
  mDown     : Int := 0                    -- measured downstream delay in ps (R313)
  leafH     : Nat := 0                    -- H sent
  leafCh    : Nat := 0                    -- chamber of the last burst
  sent      : Ctr := 0
  bursts    : List SentBurst := []        -- the bursts sent, newest first, at most one for each window of two chambers
  offer     : Option (Int × Int) := none  -- two-way measurement offered to TIME: e and round trip (R316)
  own       : LeafProf := {}              -- a leaf's own windows and H_MIN
  profs     : Tab LeafProf := []          -- a hub's profiles, by leaf ID
  recv      : Tab Recept := []            -- receptions in progress, by subcarrier
  deriving DecidableEq, Repr

/-- A calibration run (R333 to R340). -/
structure Run where
  trigger : Nat                           -- 1 temperature, 2 interval, 3 command, 4 first lock, 5 wake
  temp    : Int                           -- at its start, 0.1 degC
  chamber : Nat
  since   : Nat                           -- monotone time of its start
  job     : Bool                          -- a CAL_RUN caused it
  off     : Nat                           -- the offline slice or cell
  step    : Nat := 0                      -- steps completed
  stepAt  : Nat := 0                      -- monotone time at which the step under way began
  checked : Bool := false                 -- CALRES was checked (R329)
  retried : Bool := false                 -- the step under way repeats (R336)
  stop    : Option Nat := none            -- the run is abandoned at the end of the step, with this cause
  failed  : Bool := false                 -- a slice failed during it
  deriving DecidableEq, Repr

/-- A line converter (R321 to R324): which slice or cell holds each position, and the spares. -/
structure Conv where
  hold     : List Nat := []
  rover    : Option Nat := none
  reserve  : Option Nat := none
  failed   : List Nat := []
  degraded : List Nat := []               -- positions without a slice (Table 9.5)
  dead     : Bool := false                -- more than two elements failed at boot (R331)
  flags    : Nat := 3
  delta    : Nat := 30
  hours    : Nat := 24
  run      : Option Run := none
  held     : Option (Nat × Bool) := none  -- a held trigger, and whether a CAL_RUN waits for its run
  next     : Nat := 0                     -- position that the next run takes first
  temp     : Int := 0                     -- at the start of the last run, the measure of trigger 1
  since    : Nat := 0                     -- monotone time of that start, the measure of trigger 2
  lastTemp : Int := 0                     -- of the last completed run (Table 9.7)
  lastCh   : Nat := 0
  lastAt   : Nat := 0
  badWins  : Tab Nat := []                -- consecutive failing windows by slice (R341)
  trims    : List Trim := []              -- by slice or cell
  binary   : List Int := []               -- currents of a DAC's cells of 4, 2 and 1 LSB (R324)
  timing   : Int := 0                     -- its output timing (R330)
  deriving DecidableEq, Repr

/-- Calibration of an engine (09_converters.md). -/
structure Cal where
  convs    : List Conv := []              -- converters 0 to 7
  bootDone : Bool := false
  calres   : Nat := 0                     -- Table 9.7
  ohms     : Option Nat := none           -- the value accepted at boot
  locked   : Bool := false                -- RX_LOCK was reached after boot calibration
  temp     : Int := 0                     -- the engine's die sensor, 1 s average
  deriving DecidableEq, Repr

/-- A wavelength engine. -/
structure Engine where
  cfg : EngCfg := {}
  nextCfg : Option (Nat × EngCfg) := none     -- configuration that a scheduled commit brings: its chamber (R215)
  pwr : EngPwr := {}
  tx  : TxPath := {}
  rx  : RxPath := {}
  mp  : Multi := {}
  cal : Cal := {}
  deriving DecidableEq, Repr

end Sys2Proof.Machine
end

