-- ==== Sys2Proof/Machine/StateFab.lean ====
section
/-!
DEFINITION. State of the passages (02_passages.md) and of the Cairn tables (03_cairn_tables.md).
-/
namespace Sys2Proof.Machine

/-- An endpoint descriptor (Table 2.1, R46, R47). -/
structure Endpoint where
  kind  : Nat := 0
  index : Nat := 0
  sub   : Nat := 0
  leaf  : Nat := 0
  first : Nat := 0
  deriving DecidableEq, Repr

/-- A protect leg (R82, R83). -/
structure ProtLeg where
  engine : Nat
  sub    : Nat
  first  : Nat
  wtr    : Nat                        -- 0 non-revertive
  deriving DecidableEq, Repr

/-- What a leg of a KIND 3 or KIND 4 ingress shows of its slots (R51, R87). -/
structure LegSt where
  trailBad : Bool := false            -- a slot of the run carries another TRAIL
  received : Nat := 0                 -- the TRAIL received in its place
  dirty    : Nat := 0                 -- the last fault, while no whole clean chamber was received since it: 1 loss, 2 TRAIL, 3 epoch
  goodFrom : Option Nat := none       -- domain time since which every entry seen was the expected one (Umran)
  tag      : Nat := 0                 -- chamber that the count below speaks of
  count    : Nat := 0                 -- blocks that the leg delivered in it
  came     : Nat := 0                 -- local chamber in which the last of them came
  deriving DecidableEq, Repr

/-- A block of a passage inside the device. -/
structure QBlock where
  b   : Block
  ch  : Nat                           -- chamber in which it was admitted; on a port or client the chamber whose place it takes (R30)
  tag : Nat                           -- CHAMBER of the frame that brought it; the chamber of admission from a port or client
  ix  : Nat                           -- its place among the leg's blocks of that chamber
  at_ : Nat                           -- arrival at the ingress point in domain time, on the leg that delivered it first (R66)
  first : Bool := false               -- the first block that the passage admitted in its chamber (R80)
  lf  : Bool := false                 -- replaced by a local-fault ordered set (R77)
  deriving DecidableEq, Repr

/-- A passage, open or pending (R707). -/
structure Passage where
  owner   : Nat
  slots   : Nat
  ing     : Endpoint                  -- SLOT_FIRST as granted
  eg      : Endpoint
  mode    : Nat                       -- CIPHER_MODE
  skew    : Nat                       -- PROTECT_SKEW
  trail   : Nat
  st      : Nat := 1                  -- 1 PENDING, 2 ACTIVE, 3 DRAINING
  start   : Nat
  stop    : Option Nat := none        -- Cs
  reason  : Nat := 1                  -- the reason PASSAGE_CLOSED will carry
  terms   : List Nat                  -- T_IN, T_SW, T_CI, T_MP, T_PS, T_OUT
  plane   : List Nat                  -- plane positions
  base    : Nat                       -- buffer base, slot-chambers
  lane    : Nat := 0                  -- cipher lane
  key     : Option Nat := none        -- key slot
  maxSeen : Nat := 0
  blocksIn  : Ctr := 0
  blocksOut : Ctr := 0
  idleIns   : Ctr := 0
  idleDel   : Ctr := 0
  adaptDrops : Ctr := 0
  subst     : Ctr := 0
  late      : Nat := 0                -- blocks discarded after Cs
  failing   : Bool := false           -- SIGNAL_FAIL: substituting under R87
  failFrom  : Nat × Nat := (0, 0)     -- the chamber in which the run of substitution began, and the blocks admitted in it before
  gap       : Option Nat := none      -- the chamber from which the ingress delivers again after its latest gap
  lead      : Option Nat := none      -- chambers from the number of a chamber to its arrival on the leg that leads (R84)
  work      : LegSt := {}
  prot      : LegSt := {}
  queue     : List QBlock := []       -- admitted blocks that wait for egress, oldest first (R70); those of the working leg
  queueP    : List QBlock := []       -- those of the protect leg
  secret    : List QBlock := []       -- blocks of a decrypting passage that wait for their segment: working leg
  secretP   : List QBlock := []       -- protect leg
  opened    : List QBlock := []       -- decrypted blocks that are free to leave
  sealed    : List (Block × Option QBlock) := []   -- encrypted blocks that wait for egress, each with the block it was, none where substituted
  bridgeW   : List (Block × Option QBlock) := []   -- blocks that left on the protect leg and wait for the working leg's slots (R81)
  bridgeP   : List (Block × Option QBlock) := []   -- the reverse
  slipCh    : Option Nat := none      -- chamber that is substituted whole after an elastic slip (R410)
  tagFail   : Bool := false
  endNext   : Bool := false           -- the next block to leave egress ends a packet as an error block (R366)
  inPacket  : Bool := false           -- the last block that left egress was a start block or lies inside a packet (R366)
  segTags   : List (Nat × Nat) := []       -- chamber and GCM tag of the last segments sealed, newest first (R177)
  cut       : Option (Nat × Nat) := none  -- monotone times of the first and last block of the latest interruption at egress (R606)
  snap      : Option (Nat × List Ctr) := none   -- the counters as they stood at a chamber's boundary (R79)
  leg       : Option ProtLeg := none
  legLive   : Bool := false           -- the leg stands in the active bank (R81)
  force     : Nat := 0                -- 0 none, 1 working, 2 protect
  onProt    : Bool := false
  skewNs    : Option Int := none      -- measured skew
  unusable  : Bool := false           -- PROTECT_UNUSABLE
  inBudget  : Nat := 0                -- monotone time since the skew is within budget
  cleanAt   : Option Nat := none      -- monotone time since the working leg is clean
  legStop   : Option Nat := none      -- the chamber at which the leg's removal is scheduled (R711)
  legHeld   : Option (ProtLeg × Nat) := none   -- a removed leg, its slots held until the chamber (R711)
  deriving DecidableEq, Repr

/-- A word of a firmware region and the passage it serves (R100). -/
structure FwWord where
  w      : StepWord
  serves : Option Nat := none
  deriving DecidableEq, Repr

/-- A flow that a raw switch step carries (R97). -/
structure RawFlow where
  queue : List QBlock := []
  tag   : Nat := 0
  count : Nat := 0
  until_ : Option Nat := none         -- the step is removed: the chamber at which its DELAY is over (R75)
  deriving DecidableEq, Repr

/-- The selector of a raw SELECT step (R81, R97). -/
structure RawSel where
  onProt  : Bool := false
  cleanAt : Option Nat := none        -- monotone time since the working leg is clean, while the selector is on the protect leg
  deriving DecidableEq, Repr

/-- The two regions of one bank of an island (R98). -/
structure Bank where
  fw  : List FwWord := []
  raw : List StepWord := []
  deriving DecidableEq, Repr

/-- An edit of a raw region (R105). -/
inductive RawOp where
  | write (first : Nat) (words : List StepWord)
  | trunc (count : Nat)
  | dropEngine (n : Nat)              -- removal of the raw steps that target an engine (R103)
  deriving DecidableEq, Repr

/-- What the firmware changes at a commit, beyond raw edits. -/
inductive FwChange where
  | openP (id : Nat)
  | closeP (id : Nat)
  | protSet (id : Nat)
  | protDel (id : Nat)
  | force (id f : Nat)
  | revert (id : Nat)
  | enable (n : Nat)
  | disable (n : Nat)
  | reconfig (n : Nat) (cfg : EngCfg)
  | loading (n : Nat) (rx : Bool) (prof : List Nat)
  | pulse (n roll : Nat)
  | cdSet (n set : Nat)
  | carrier (n : Nat) (on : Bool) (ramp : Nat)
  | windows (n leaf : Nat) (wins : List Nat) (periodLog offset hMin node : Nat)
  | flexe (group : Nat) (cal : Bool)
  | rebind (id slot : Nat)
  | timeWord (code : Nat) (period : Option Nat)
  deriving DecidableEq, Repr

/-- What a paired commit adds (R120). -/
structure Paired where
  engine  : Nat
  farNode : Nat
  since   : Nat                       -- chamber of acceptance
  farArm  : Bool := false             -- the far end's arm was received in time
  deriving DecidableEq, Repr

/-- A scheduled commit (R114). -/
structure Commit where
  cc      : Nat
  paired  : Option Paired := none
  raw     : List (Nat × RawOp) := []  -- island and edit, in order
  changes : List FwChange := []
  user    : Bool := false             -- a TABLE_COMMIT named this chamber (R107)
  staged  : Bool := false             -- its standing steps are in the units' shadow memories
  bad     : Bool := false             -- staging met an uncorrectable error
  deriving DecidableEq, Repr

/-- The Cairn tables. -/
structure Tables where
  banks   : Tab Bank := []                         -- active banks, by island
  image   : Tab Bank := []                         -- image banks, by island (R90, R94)
  onB     : Bool := false                          -- the active note: bank B is active, A holds the image
  raws    : Tab RawFlow := []                      -- flows of raw switch steps, by their words
  rawSel  : Tab RawSel := []                       -- selectors of raw SELECT steps, by `selKey`
  commits : List Commit := []                      -- in order of Cc
  edits   : List (Nat × List (Nat × RawOp)) := []  -- raw edits of chambers not yet committed
  copying : Option Nat := none                     -- the chamber in which the copy of R94 began
  issued  : Option Nat := none                     -- the chamber whose timed steps were issued last (R92)
  skipped : List (Nat × StepWord) := []            -- timed words skipped in that chamber, with their islands (R119)
  marks   : List (Nat × Nat × Nat) := []           -- MARK steps issued, not yet applied: domain time, island and OPERAND (R92, R123)
  deriving DecidableEq, Repr

end Sys2Proof.Machine
end

