-- ==== Sys2Proof/Machine/StateHk.lean ====
section
/-!
DEFINITION. State of the housekeeping converters, their sequences and filters, and the thermal limits (19_housekeeping_adc.md).
Default field values are the values after reset.
-/
namespace Sys2Proof.Machine

/-- A result (Table 19.3): a raw 12-bit code or a filtered 16-bit value, with the domain time it speaks of. -/
structure HkRes where
  code  : Nat := 0
  ovr   : Bool := false
  valid : Bool := false
  stamp : Nat := 0
  deriving DecidableEq, Repr

/-- An entry of a sequence (Table 19.6) with its newest result and the state of its open-wire test and limits. -/
structure HkEntry where
  channel : Nat
  openCheck : Bool := false
  filtered : Bool := false
  low     : Nat := 0xFFFF
  high    : Nat := 0xFFFF
  res     : HkRes := {}
  open_   : Bool := false
  exceed  : Nat := 0              -- consecutive tests that exceed
  clean   : Nat := 0              -- consecutive tests that do not
  armed   : Bool := true          -- HK_LIMIT may be raised
  deriving DecidableEq, Repr

/-- A sequence and its header (Table 19.5). -/
structure HkSeq where
  left     : Bool := false        -- ALIGN 1
  owPeriod : Nat := 0
  owThresh : Nat := 256
  hyst     : Nat := 64
  entries  : List HkEntry := []
  deriving DecidableEq, Repr

/-- A converter: the sequence in force and those that take effect later, with the first chamber of each. -/
structure HkConv where
  seq  : HkSeq := {}
  pend : List (Nat × HkSeq) := []
  deriving DecidableEq, Repr

/-- What a filter channel is set to. -/
structure HkCfg where
  conv  : Nat
  entry : Nat
  decim : Nat                     -- DECIM_LOG
  shape : Nat
  deriving DecidableEq, Repr

/-- A filter channel: samples newest first, its newest output, and a cross-fade from an earlier SHAPE with its next output's number. -/
structure HkFilter where
  cfg     : Option HkCfg := none
  samples : List (Nat × Bool) := []
  lost    : Bool := false         -- its entry's result is not valid
  out     : HkRes := {}
  fade    : Option (Nat × Nat) := none
  pend    : List (Nat × Option HkCfg) := []
  deriving DecidableEq, Repr

/-- The thermal limits (Table 19.5), in 0.1 degC. -/
structure HkLimits where
  warn  : Int := 1000
  alarm : Int := 1050
  hyst  : Int := 30
  deriving DecidableEq, Repr

/-- Housekeeping. -/
structure Hk where
  conv0   : HkConv := {}
  conv1   : HkConv := {}
  filters : Tab HkFilter := []
  system  : Tab HkRes := []       -- results of the system slots
  limits  : HkLimits := {}
  limPend : List (Nat × HkLimits) := []
  warned  : List Nat := []        -- sensors whose warning stands
  alarmed : List Nat := []
  resetAt : Nat := 0              -- monotone time of the last unit reset of HK-ADC1
  msSum   : Tab (Nat × Nat) := [] -- codes of each die sensor since the last 1 ms evaluation: their sum and number (R663)
  sSum    : Tab (Nat × Nat) := [] -- the same since the last whole second (R333, R532)
  sAt     : Nat := 0              -- monotone time at which that second began
  deriving DecidableEq, Repr

end Sys2Proof.Machine
end

