-- ==== Sys2Proof/Machine/Blocks.lean ====
section
/-!
DEFINITION. 66-bit blocks and bit strings: the blocks the rules name (R53, R54, R186), the words that carry them and the tiles of the
line frame (R182 to R185, Table 5.3).
-/
namespace Sys2Proof

/-! Bit strings. -/

/-- Bits `[lo, lo + n)` of a string, counted from the first one sent, as a number. -/
def Bits.field (b : Bits) (lo n : Nat) : Nat := b.val / 2 ^ (b.len - lo - n) % 2 ^ n

/-- The same bits as a string. -/
def Bits.slice (b : Bits) (lo n : Nat) : Bits := { len := n, val := b.field lo n }

/-- One string after another. -/
def Bits.append (a b : Bits) : Bits := { len := a.len + b.len, val := a.val * 2 ^ b.len + b.val }

/-- A string followed by zero bits up to a length. -/
def Bits.padTo (b : Bits) (n : Nat) : Bits := { len := b.len + (n - b.len), val := b.val * 2 ^ (n - b.len) }

/-- Fields of `n` bits each, one after another. -/
def Bits.ofFields (n : Nat) (l : List Nat) : Bits := { len := n * l.length, val := l.foldl (fun a x => a * 2 ^ n + x % 2 ^ n) 0 }

/-- The fields of `n` bits of a string from bit `lo` on, `k` of them. -/
def Bits.fields (b : Bits) (lo n k : Nat) : List Nat := (List.range k).map fun i => b.field (lo + n * i) n

/-- The bits of a string from bit `lo` on. -/
def Bits.drop (b : Bits) (lo : Nat) : Bits := b.slice lo (b.len - lo)

/-- The bits of a number of `n` bits in the opposite order. -/
def revBits : Nat → Nat → Nat
  | 0, _ => 0
  | n + 1, x => x % 2 * 2 ^ n + revBits n (x / 2)

/-! Blocks. -/

/-- The block type field of a control block. -/
def Block.type (b : Block) : Nat := b.w.toNat % 256

/-- A data block. -/
def Block.isData (b : Block) : Bool := b.sync == 1

/-- The block types of Table 5.3 in the order of their codes. -/
def blockTypes : List Nat := [0x1E, 0x78, 0x4B, 0x87, 0x99, 0xAA, 0xB4, 0xCC, 0xD2, 0xE1, 0xFF]

/-- A control block whose type Table 5.3 lists. -/
def Block.isControl (b : Block) : Bool := b.sync == 2 && blockTypes.contains b.type

/-- An idle block: type 0x1E with eight /I/ characters. A fill block has the same form (R186). -/
def Block.idle : Block := { sync := 2, w := 0x1E }

/-- An error control block: type 0x1E with eight /E/ characters of 7 bits, 0x1E each (R183). -/
def Block.error : Block := { sync := 2, w := BitVec.ofNat 64 (0x1E + (List.range 8).foldl (fun a i => a + 0x1E * 2 ^ (8 + 7 * i)) 0) }

/-- An Ethernet local-fault ordered set: type 0x4B, lane bytes 0, 0, 1, ordered-set code 0, as IEEE 802.3 has it (PRESUMED, assumption
77). -/
def Block.localFault : Block := { sync := 2, w := 0x100004B }

/-- A terminate block: one of the eight types that end a frame. -/
def Block.isTerminate (b : Block) : Bool := b.sync == 2 && [0x87, 0x99, 0xAA, 0xB4, 0xCC, 0xD2, 0xE1, 0xFF].contains b.type

/-- A start block. -/
def Block.isStart (b : Block) : Bool := b.sync == 2 && b.type == 0x78

/-- A block that stands for an error: no sync header, a type that is not in Table 5.3, or an error control block. -/
def Block.isError (b : Block) : Bool := !(b.isData || b.isControl) || b == Block.error

/-- A block as the device carries it (R183): any block with no place in Table 5.3 becomes an error control block. -/
def Block.carried (b : Block) : Block := if b.isData || b.isControl then b else Block.error

/-- Must the device replace a block (R183)? -/
def Block.replaced (b : Block) : Bool := !(b.isData || b.isControl)

/-! Words and tiles (R182 to R185). -/

/-- CODE of a block type. -/
def codeOfType (t : Nat) : Nat := (blockTypes.findIdx? fun x => x == t).getD 0

/-- The word of a block at a position of its tile: payload bit i is word bit 63 - i, and the type field of a control block gives way to
position, LAST and CODE (R183). -/
def Block.word (b : Block) (pos : Nat) (last : Bool) : Nat :=
  let x := revBits 64 b.w.toNat
  if b.isData then x else (pos * 32 + (if last then 16 else 0) + codeOfType b.type) * 2 ^ 56 + x % 2 ^ 56

/-- The data block of a word. -/
def dataBlock (x : Nat) : Block := { sync := 1, w := BitVec.ofNat 64 (revBits 64 x) }

/-- The control block of a word, with its type restored. -/
def controlBlock (x : Nat) : Block :=
  let t := (blockTypes[x / 2 ^ 56 % 16]?).getD 0x1E
  { sync := 2, w := BitVec.ofNat 64 (revBits 64 (x % 2 ^ 56) / 256 * 256 + t) }

/-- Blocks with their positions. -/
def numbered (bs : List Block) : List (Nat × Block) := (List.range bs.length).zip bs

/-- A tile: its tile bit and its words (R184). Control words stand first, ascending, LAST on the last of them; then the data words. -/
def tileOf (bs : List Block) : Bool × List Nat :=
  let l := (numbered bs).map fun x => (x.1, x.2.carried)
  let ctl := l.filter fun x => !x.2.isData
  let data := (l.filter fun x => x.2.isData).map fun x => x.2.word x.1 false
  let lastPos := (ctl.getLast?.map Prod.fst).getD 0
  (ctl.isEmpty, ctl.map (fun x => x.2.word x.1 (x.1 == lastPos)) ++ data)

/-- The positions of the control words of a tile in the order of its words; none on a decode error (R185): positions that do not ascend
or lie beyond the tile, a CODE above 0xA, or no LAST. `lo` is the least position allowed. -/
def controlPositions (size : Nat) : Nat → List Nat → Option (List Nat)
  | _, [] => none
  | lo, x :: xs =>
    let pos := x / 2 ^ 61 % 8
    if pos < lo ∨ size ≤ pos ∨ x / 2 ^ 56 % 16 > 0xA then none
    else if x / 2 ^ 60 % 2 = 1 then some [pos]
    else (controlPositions size (pos + 1) xs).map fun r => pos :: r

/-- The blocks of a tile in the order of its words, each with its position in the tile; none on a decode error (R185). -/
def wordBlocks (bit : Bool) (ws : List Nat) : Option (List (Nat × Block)) :=
  if bit then some (numbered (ws.map dataBlock))
  else (controlPositions ws.length 0 ws).map fun ctl =>
    let free := (List.range ws.length).filter fun i => !(ctl.contains i)
    ctl.zip ((ws.take ctl.length).map controlBlock) ++ free.zip ((ws.drop ctl.length).map dataBlock)

/-- The blocks of a tile as the receiver delivers them: on a decode error, and where the tile bit is lost, all of them error blocks; a
block whose word is lost is an error block in its own slot (R185, R190). -/
def blocksOfTile (bitLost bit : Bool) (lost : List Bool) (ws : List Nat) : List Block :=
  match if bitLost then none else wordBlocks bit ws with
  | none => ws.map fun _ => Block.error
  | some l =>
    let put := (l.zip (lost ++ List.replicate (l.length - lost.length) false)).map fun x => (x.1.1, if x.2 then Block.error else x.1.2)
    (List.range ws.length).map fun i => ((put.find? fun c => c.1 == i).map Prod.snd).getD Block.error

/-- Cut a list into pieces of `n`, at most `k` of them. -/
def cut {α : Type} (n : Nat) : Nat → List α → List (List α)
  | 0, _ => []
  | k + 1, l => if l.isEmpty then [] else l.take n :: cut n k (l.drop n)

/-- The tiles of a group's 100 x Ng blocks (R182): eight blocks each, four in the last one where Ng is odd. -/
def tilesOf (bs : List Block) : List (Bool × List Nat) := (cut 8 bs.length bs).map tileOf

/-- A carrier's blocks in their order, from the blocks of each of its N slots: block k belongs to slot k mod N (R31). -/
def interleave (n : Nat) (slot : Nat → List Block) (dflt : Block) : List Block :=
  (List.range (100 * n)).map fun k => ((slot (k % n))[k / n]?).getD dflt

/-- The blocks of one slot of a carrier of N slots (R31). -/
def slotBlocks (n slot : Nat) (bs : List Block) : List Block := (List.range 100).filterMap fun j => bs[slot + n * j]?

end Sys2Proof
end

