-- ==== Sys2Proof/Machine/Lane.lean ====
section
/-!
DEFINITION. Serial coding: the lane blocks of an Umran port (R627 to R629) and the PCS and RS(544,514) FEC of a host port (R136), whose
IEEE 802.3 parts are PRESUMED (assumption 80).
-/
namespace Sys2Proof.Machine

/-! The self-synchronous scrambler x^58 + x^39 + 1. The register holds the last 58 bits sent, the newest in bit 0. -/

/-- One bit through the scrambler: the bit sent and the register. -/
def scramBit (r b : Nat) : Nat × Nat :=
  let o := (b + r / 2 ^ 38 + r / 2 ^ 57) % 2
  (o, (2 * r + o) % 2 ^ 58)

/-- One received bit through the descrambler: the bit recovered and the register. -/
def descramBit (r b : Nat) : Nat × Nat := ((b + r / 2 ^ 38 + r / 2 ^ 57) % 2, (2 * r + b) % 2 ^ 58)

/-- Bits in transmission order through a one-bit function with a register. -/
def runBits (f : Nat → Nat → Nat × Nat) : Nat → List Nat → List Nat × Nat
  | r, [] => ([], r)
  | r, b :: bs =>
    let x := f r b
    let rest := runBits f x.2 bs
    (x.1 :: rest.1, rest.2)

/-- The payload bits of a block in transmission order. -/
def payloadOf (b : Block) : List Nat := (List.range 64).map fun i => b.w.toNat / 2 ^ i % 2

/-- The payload that 64 bits in transmission order spell. -/
def payloadFrom (l : List Nat) : BitVec 64 := BitVec.ofNat 64 (l.foldr (fun b a => 2 * a + b % 2) 0)

/-- A block's payload through a scrambler or descrambler. -/
def throughBlock (f : Nat → Nat → Nat × Nat) (r : Nat) (b : Block) : Block × Nat :=
  let x := runBits f r (payloadOf b)
  ({ b with w := payloadFrom x.1 }, x.2)

/-! Umran lanes (R627 to R629). -/

/-- The comma of a lane: bytes 0x5A, LANE_ID, PORT, 0xC3, 0x3C, 0xA5, 0x96, 0x69 in this order (R629). -/
def comma (lane port : Nat) : Block :=
  { sync := 2
    w := BitVec.ofNat 64 (0x5A + lane % 256 * 2 ^ 8 + port % 256 * 2 ^ 16 + 0xC3 * 2 ^ 24 + 0x3C * 2 ^ 32 + 0xA5 * 2 ^ 40 + 0x96 * 2 ^ 48 +
      0x69 * 2 ^ 56) }

/-- Is a block a comma, of any lane and port? -/
def isComma (b : Block) : Bool := b.sync == 2 && b == comma (b.w.toNat / 2 ^ 8 % 256) (b.w.toNat / 2 ^ 16 % 256)

/-- A pause block: type 0x2D and seven zero bytes (R629). -/
def pauseBlock : Block := { sync := 2, w := 0x2D }

/-- An overhead word as a data block, its most significant bit first (DESIGN CHOICE, assumption 80: R628 gives no sync header). -/
def wordBlock (x : Nat) : Block := dataBlock x

/-- The word of an overhead block. -/
def blockWord (b : Block) : Nat := revBits 64 b.w.toNat

/-- The 4 096 port blocks of a frame (Table 18.1): commas, fourteen overhead words, four management words, then slot blocks with pauses
behind them. -/
def portBlocks (port : Nat) (words : List Nat) (mgmt : List Byte) (slots : List Block) : List Block :=
  let mg := (List.range 4).map fun k => (List.range 8).foldl (fun a i => a * 256 + ((mgmt[8 * k + i]?).getD 0).toNat) 0
  let data := slots.take 4074
  (List.range 4).map (fun l => comma l port) ++ (words.take 14 ++ mg).map wordBlock ++ data ++ List.replicate (4074 - data.length) pauseBlock

/-- The blocks of one lane of a frame: port block q travels on lane q mod 4 (R628). -/
def laneOf (lane : Nat) (bs : List Block) : List Block := (List.range 1024).filterMap fun j => bs[4 * j + lane]?

/-- A lane's blocks through its scrambler; a comma is not scrambled (R627, R629). -/
def scrambleLane : Nat → List Block → List Block × Nat
  | r, [] => ([], r)
  | r, b :: bs =>
    let x := if isComma b then (b, r) else throughBlock scramBit r b
    let rest := scrambleLane x.2 bs
    (x.1 :: rest.1, rest.2)

/-- A lane's received blocks through its descrambler; a comma is not descrambled. -/
def descrambleLane : Nat → List Block → List Block × Nat
  | r, [] => ([], r)
  | r, b :: bs =>
    let x := if isComma b then (b, r) else throughBlock descramBit r b
    let rest := descrambleLane x.2 bs
    (x.1 :: rest.1, rest.2)

/-- Is block `j` of a lane of a frame invalid (R632): a sync header 0b00 or 0b11, or a comma missing at the frame's begin or standing
elsewhere? -/
def laneInvalid (j : Nat) (b : Block) : Bool := (b.sync == 0 || b.sync == 3) || (isComma b != (j == 0))

/-- The places of the invalid blocks of a lane of a frame. -/
def invalidAt (bs : List Block) : List Nat := (((List.range bs.length).zip bs).filter fun x => laneInvalid x.1 x.2).map Prod.fst

/-- Do blocks begin at a comma with 64 consecutive valid ones, so that a lane that hunts locks (R632)? -/
def locksAt (bs : List Block) : Bool := decide (64 ≤ bs.length) && (invalidAt (bs.take 64)).isEmpty

/-- Do 8 of these places, in ascending order, lie within 64 consecutive blocks (R632)? -/
def eightIn64 (l : List Nat) : Bool := (l.zip (l.drop 7)).any fun x => decide (x.2 < x.1 + 64)

/-- The LANE_ID of a lane's comma. -/
def laneIdOf (bs : List Block) : Option Nat := match bs with | b :: _ => if isComma b then some (b.w.toNat / 2 ^ 8 % 256) else none | [] => none

/-- The port blocks of a frame, each with its place in its lane, from the four lanes and the LANE_ID of each (R628, R633). -/
def mergeLanes (lanes : List (Nat × List Block)) : List (Nat × Block) :=
  let byId := fun l => ((lanes.find? fun x => x.1 == l).map Prod.snd).getD []
  (List.range 4096).map fun q => (q / 4, ((byId (q % 4))[q / 4]?).getD { sync := 0, w := 0 })

/-- A lane with its two wires exchanged (R642). -/
def invertBlock (b : Block) : Block := { sync := ~~~b.sync, w := ~~~b.w }

/-- A lane's blocks, inverted where a bit of a mask says so. -/
def invertLane (mask i : Nat) (bs : List Block) : List Block := if mask / 2 ^ i % 2 = 1 then bs.map invertBlock else bs

/-! The PCS of a host port (R136; IEEE 802.3 PRESUMED). -/

/-- 256b/257b transcoding of four blocks: 1 and the four payloads where all are data; else 0, four bits that are 1 for data, and the
payloads without the second nibble of the first control block's type field. The list is in transmission order. -/
def transcode (bs : List Block) : List Nat :=
  match bs.findIdx? fun b => !b.isData with
  | none => 1 :: bs.flatMap payloadOf
  | some c =>
    let all := bs.flatMap payloadOf
    0 :: bs.map (fun b => if b.isData then 1 else 0) ++ all.take (64 * c + 4) ++ all.drop (64 * c + 8)

/-- The second nibble of a block type by its first one: the types of Table 5.3 differ in the first. -/
def typeNibble (first : Nat) : Nat := match blockTypes.find? fun t => t % 16 == first with | some t => t / 16 | none => 0

/-- The four blocks of 257 transcoded bits. -/
def untranscode (l : List Nat) : List Block :=
  let pieces := fun (p : List Nat) => (List.range 4).map fun i => payloadFrom ((p.drop (64 * i)).take 64)
  if l.take 1 = [1] then (pieces (l.drop 1)).map fun w => { sync := 1, w := w }
  else
    let flags := (l.drop 1).take 4
    let rest := l.drop 5
    match flags.findIdx? fun x => x == 0 with
    | none => List.replicate 4 Block.error
    | some c =>
      let first := ((rest.drop (64 * c)).take 4).foldr (fun b a => 2 * a + b) 0
      let nib := (List.range 4).map fun i => typeNibble first / 2 ^ i % 2
      let p := rest.take (64 * c + 4) ++ nib ++ rest.drop (64 * c + 4)
      ((pieces p).zip flags).map fun x => { sync := if x.2 = 1 then 1 else 2, w := x.1 }

/-! RS(544,514) over GF(2^10) with x^10 + x^3 + 1. -/

/-- Multiplication by α. -/
def rsDouble (x : Nat) : Nat := if 2 * x ≥ 1024 then (2 * x) ^^^ 0x409 else 2 * x

/-- Multiplication in the field. -/
def rsMul (a b : Nat) : Nat :=
  ((List.range 10).foldl (fun (acc : Nat × Nat) i => (if b / 2 ^ i % 2 = 1 then acc.1 ^^^ acc.2 else acc.1, rsDouble acc.2)) (0, a)).1

/-- α^i. -/
def rsPow : Nat → Nat
  | 0 => 1
  | i + 1 => rsDouble (rsPow i)

/-- Multiply a polynomial, lowest coefficient first, by x + r. -/
def polyStep (p : List Nat) (r : Nat) : List Nat :=
  (List.zip (0 :: p) (p.map (rsMul r) ++ [0])).map fun x => x.1 ^^^ x.2

/-- The generator polynomial, the product of x + α^i for i from 0 to 29, lowest coefficient first. -/
def rsGen : List Nat := (List.range 30).foldl (fun p i => polyStep p (rsPow i)) [1]

/-- The 30 parity symbols of a message, highest power first. -/
def rsParity (msg : List Nat) : List Nat :=
  let g := (rsGen.take 30).reverse
  msg.foldl
    (fun par m =>
      let f := m ^^^ par.headD 0
      (List.zip (par.drop 1 ++ [0]) g).map fun x => x.1 ^^^ rsMul f x.2)
    (List.replicate 30 0)

/-- A codeword: 514 message symbols and 30 parity symbols. -/
def rsCodeword (msg : List Nat) : List Nat := msg ++ rsParity msg

/-- The 30 syndromes of a received word, all zero for a codeword. -/
def rsSyndromes (word : List Nat) : List Nat := (List.range 30).map fun i => word.foldl (fun a x => rsMul a (rsPow i) ^^^ x) 0

/-- What a received word decodes to: a codeword that differs from it in at most 15 symbols, none where it is uncorrectable. `sent` is a
codeword that a corrector offers. -/
def rsAccepts (word sent : List Nat) : Bool :=
  (rsSyndromes sent).all (· == 0) && decide (((word.zip sent).filter fun x => x.1 != x.2).length ≤ 15)

/-- Symbols of 10 bits, in transmission order, the first bit least significant. -/
def symbolsOf (k : Nat) (l : List Nat) : List Nat :=
  (List.range k).map fun i => ((l.drop (10 * i)).take 10).foldr (fun b a => 2 * a + b) 0

/-- Codewords that a port interleaves symbol by symbol: 2, and 4 from 800GBASE-R on (PRESUMED). -/
def fecWays (phy : Nat) : Nat := if phy ≤ 2 then 2 else 4

/-! Alignment markers, lanes and PAM4 symbols of a host port. -/

/-- PCS lanes of a PHY type (PRESUMED). -/
def pcsLanes (phy : Nat) : Nat := if phy = 1 then 8 else if phy = 3 then 32 else 16

/-- FEC blocks from one marker group to the next (PRESUMED). -/
def markerEvery (phy : Nat) : Nat := if phy = 1 then 2048 else if phy ≤ 3 then 4096 else 8192

/-- Bits of a marker group: a 120-bit marker for each PCS lane with the padding that fills 257-bit groups. -/
def markerLen (phy : Nat) : Nat := 257 * (pcsLanes phy / 2)

/-- The marker group of a port: the markers of IEEE 802.3 by symbols of 10 bits, the padding, and the status field, in which the
local-degraded indication stands (R138). -/
def markerBits (phy : Nat) (degraded : Bool) : List Nat :=
  let n := pcsLanes phy
  let marks := (List.range 12).flatMap fun i => (List.range n).flatMap fun l =>
    (List.range 10).map fun j => Config.marker phy l / 2 ^ (10 * i + j) % 2
  marks ++ (List.range (markerLen phy - 120 * n - 3)).map (fun j => Config.markerPad / 2 ^ j % 2) ++ [0, if degraded then 1 else 0, 0]

/-- The PAM4 symbol of a pair of bits, Gray coded. -/
def grayOf (a b : Nat) : Nat := 2 * a + (a + b) % 2

/-- The pair of bits of a PAM4 symbol. -/
def grayBits (x : Nat) : List Nat := [x / 2 % 2, (x / 2 + x) % 2]

/-- The PAM4 symbols of bits in transmission order. -/
def pamOf : List Nat → List Nat
  | a :: b :: rest => grayOf a b :: pamOf rest
  | _ => []

/-- The 1/(1+D) mod 4 precoder of a lane (R130), from the last symbol sent. -/
def precode : Nat → List Nat → List Nat
  | _, [] => []
  | last, x :: xs => let y := (x + 4 - last % 4) % 4; y :: precode y xs

/-- What undoes the precoder, from the last symbol received. -/
def unprecode : Nat → List Nat → List Nat
  | _, [] => []
  | last, x :: xs => (x + last) % 4 :: unprecode x xs

/-- A lane whose polarity is inverted (R130). -/
def invertPam (on : Bool) (l : List Nat) : List Nat := if on then l.map fun x => 3 - x else l

/-- Every `n`-th of a list, from the k-th on. -/
def everyNth (n k : Nat) (l : List Nat) : List Nat := (List.range ((l.length - k + (n - 1)) / max 1 n)).filterMap fun i => l[n * i + k]?

/-- How the coder of a port is set: its PHY type and lanes, precoding, the inverted lanes and the local-degraded indication. -/
structure PcsCfg where
  phy      : Nat
  lanes    : Nat
  precode  : Bool
  inverted : Nat
  degraded : Bool := false
  deriving DecidableEq, Repr

/-- The transmit coder of a host port. -/
structure PcsTx where
  waiting : List Block := []        -- blocks of the transcoding group not yet whole
  scram   : Nat := 0                -- scrambler register
  bits    : List Nat := []          -- bits of the FEC block not yet whole
  fecs    : Nat := 0                -- FEC blocks since the last marker group
  words   : List (List Nat) := []   -- the codewords sent last, 544 symbols each
  lanes   : List (List Nat) := []   -- the PAM4 symbols that they made on each lane
  deriving DecidableEq, Repr

/-- The symbols of interleaved codewords on one lane: symbol j of the stream goes to lane j mod `n` (PRESUMED), least significant bit
first, through the lane's precoder and polarity. -/
def laneSymbols (c : PcsCfg) (stream : List Nat) (last : List Nat) (l : Nat) : List Nat :=
  let bits := (everyNth c.lanes l stream).flatMap fun x => (List.range 10).map fun i => x / 2 ^ i % 2
  let pam := pamOf bits
  let bad := c.inverted / 2 ^ l % 2 == 1
  invertPam bad (if c.precode then precode ((invertPam bad [last.getLastD 0]).headD 0) pam else pam)

/-- The interleaved symbols of codewords. -/
def interleaved (words : List (List Nat)) : List Nat := (List.range 544).flatMap fun i => words.filterMap fun w => w[i]?

/-- One block enters the coder: each fourth one completes a transcoded group, which is scrambled; a marker group, not scrambled, begins
every `markerEvery` FEC blocks; 514 symbols for each interleaved codeword complete an FEC block, which goes out on the lanes. -/
def PcsTx.put (p : PcsTx) (c : PcsCfg) (b : Block) : PcsTx :=
  let ways := fecWays c.phy
  let w := p.waiting ++ [b]
  if w.length < 4 then { p with waiting := w }
  else
    let x := runBits scramBit p.scram (transcode w)
    let bits := (if p.bits.isEmpty ∧ p.fecs = 0 then markerBits c.phy c.degraded else p.bits) ++ x.1
    if bits.length < 5140 * ways then { p with waiting := [], scram := x.2, bits := bits }
    else
      let syms := symbolsOf (514 * ways) bits
      let words := (List.range ways).map fun k => rsCodeword (everyNth ways k syms)
      let stream := interleaved words
      { waiting := [], scram := x.2, bits := bits.drop (5140 * ways), fecs := (p.fecs + 1) % markerEvery c.phy, words := words
        lanes := (List.range c.lanes).map fun l => laneSymbols c stream ((p.lanes[l]?).getD []) l }

/-- The receive decoder of a host port. -/
structure PcsRx where
  order : List Nat := []            -- the lane that each lane carries, as its markers say
  last  : List Nat := []            -- the last symbol received on each lane, for the precoder
  scram : Nat := 0                  -- descrambler register
  fecs  : Nat := 0                  -- FEC blocks since the last marker group
  far   : Bool := false             -- the local-degraded indication received
  deriving DecidableEq, Repr

/-- The bits of the symbols received on one lane. -/
def laneBits (c : PcsCfg) (last l : Nat) (pam : List Nat) : List Nat :=
  let up := invertPam (c.inverted / 2 ^ l % 2 == 1) pam
  (if c.precode then unprecode last up else up).flatMap grayBits

/-- One FEC block arrives: the PAM4 symbols of each lane, and the codewords that the corrector offers, none for an uncorrectable one. The
lanes are put in order, the codewords are taken where they lie within 15 symbols, and the blocks come out, each with whether it lies in an
uncorrectable codeword (R137): a 257-bit group lies in all the interleaved codewords. -/
def PcsRx.take (r : PcsRx) (c : PcsCfg) (pam : List (List Nat)) (sent : List (Option (List Nat))) : PcsRx × List (Block × Bool) :=
  let ways := fecWays c.phy
  let n := 544 * ways / max 1 c.lanes
  let byLane := (List.range c.lanes).map fun l =>
    symbolsOf n (match r.order.findIdx? fun x => x == l with | some i => laneBits c ((r.last[i]?).getD 0) i ((pam[i]?).getD []) | none => [])
  let stream := (List.range n).flatMap fun i => byLane.filterMap fun w => w[i]?
  let got := (List.range ways).map fun k =>
    let w := everyNth ways k stream
    match (sent[k]?).getD none with | some x => if rsAccepts w x then (x, false) else (w, true) | none => (w, true)
  let bad := got.any fun x => x.2
  let bits := ((List.range 514).flatMap fun i => got.filterMap fun x => x.1[i]?).flatMap fun x => (List.range 10).map fun i => x / 2 ^ i % 2
  let mark := if r.fecs = 0 then markerLen c.phy else 0
  let body := runBits descramBit r.scram (bits.drop mark)
  let blocks := (List.range (body.1.length / 257)).flatMap fun i => untranscode ((body.1.drop (257 * i)).take 257)
  ({ r with
      scram := body.2, fecs := (r.fecs + 1) % markerEvery c.phy
      last := (List.range c.lanes).map fun l =>
        ((invertPam (c.inverted / 2 ^ l % 2 == 1) [((pam[l]?).getD []).getLastD 0]).headD 0)
      far := if r.fecs = 0 && !bad then (bits[markerLen c.phy - 2]?).getD 0 == 1 else r.far },
   blocks.map fun b => (b, bad))

end Sys2Proof.Machine
end

