-- ==== Sys2Proof/Machine/StateHost.lean ====
section
/-!
DEFINITION. State of the host ports, the FlexE groups and the board tables (04_host_ports.md), and of the Umran link
(18_umran_link.md). Default field values are the values after reset.
-/
namespace Sys2Proof.Machine

/-- A board table entry (Table 4.8); the default values are those of R157. -/
structure LaneEq where
  pre3      : Int := 0
  pre2      : Int := 0
  pre1      : Int := -6
  main      : Int := 52
  post1     : Int := -6
  swing     : Nat := 80
  ctleStart : Nat := 12
  ctleMin   : Nat := 0
  ctleMax   : Nat := 31
  gainStart : Nat := 32
  ffeBound  : Nat := 32
  dfeMax    : Nat := 16
  fixed     : Bool := false
  deriving DecidableEq, Repr

/-- The equalisation of a running lane: transmit settings in use, and the receive values that adaptation moves. -/
structure LaneRun where
  tx     : LaneEq := {}
  live   : Bool := false              -- transmit settings move toward a table loaded with APPLY_LIVE (R158)
  ctle   : Nat := 12
  gain   : Nat := 32
  ffe    : Int := 0                   -- the adaptive FFE tap of largest magnitude
  dfe    : Int := 0
  ctleAt : Nat := 0                   -- monotone time of the last step of the peaking code
  adapted : Bool := false             -- initial adaptation is complete (Table 4.3)
  bound  : Tab Nat := []              -- monotone time since which a value stands at its bound: 1 peaking, 2 FFE, 3 DFE
  limits : List Nat := []             -- bounds reported by HOST_ADAPT_LIMIT and not left since (R159)
  deriving DecidableEq, Repr

/-- A host port (Table 4.2), by its lowest lane. -/
structure HostPort where
  phy      : Nat
  rate     : Nat
  plain    : Bool                     -- USE 1; a FlexE PHY otherwise
  flags    : Nat
  txInvert : Nat
  rxInvert : Nat
  degSet   : Nat
  degClear : Nat
  degWin   : Nat
  up       : Bool := false
  wasUp    : Bool := false            -- it has been up since its configuration
  ref      : Nat := 0                 -- monotone time of its configuration or loss
  timedOut : Bool := false            -- R135 reported since its configuration
  degraded : Bool := false            -- the local-degraded indication of the alignment markers it sends (R138)
  winCw    : Nat := 0                 -- codewords of the degrade window under way
  winSym   : Nat := 0                 -- symbols corrected in it
  step     : Nat := 0                 -- steps of Table 4.3 met: 1 transmit lanes, 2 clock recovery, 3 adaptation, 4 PCS lock, 5 up
  pcs      : PcsTx := {}              -- the transmit coder (R136)
  rxPcs    : PcsRx := {}              -- the receive decoder
  skews    : List Nat := []           -- skew of its lanes in 0.1 ns, as the deskew found it
  rxBytes  : Option (List Byte) := none   -- bytes of the Ethernet frame under way, as far as an ESMC PDU could reach (R394)
  deriving DecidableEq, Repr

/-- A FlexE client of a group: its handle and the first chamber in which it may carry, none while a MODE 1 switch is due. -/
structure FlexClient where
  client : Nat
  handle : Nat
  from_  : Option Nat
  deriving DecidableEq, Repr

/-- A calendar change under way (R147, R148), or the removal of the group, which reaches the data path at its swap (R33). -/
structure FlexChange where
  mode      : Nat                     -- 1 and 2 as MODE, 3 the removal
  cal       : List Nat
  phys      : List Nat := []          -- the PHYs that the swap gives the group, none where they stay
  switchCh  : Nat := 0                -- MODE 2
  loaded    : Bool := false           -- the standby calendar stands in the active bank
  requestAt : Nat := 0                -- MODE 1: monotone time of the request
  deriving DecidableEq, Repr

/-- A FlexE group (R142). Calendar B is active when `onB`. -/
structure FlexGroup where
  groupId : Nat
  phys    : List Nat
  up      : Bool := false
  downCause : Nat := 0
  calA    : List Nat := []
  calB    : List Nat := []
  onB     : Bool := false
  clients : List FlexClient := []
  change  : Option FlexChange := none
  farAck  : Bool := false             -- the far end's request is acknowledged: CA sent (R149)
  deriving DecidableEq, Repr

/-- A place on a carrier: a chamber, and k of the blocks that the carrier's slots take in it (R31). -/
structure Place where
  ch : Nat := 0
  k  : Nat := 0
  deriving DecidableEq, Repr

/-- The host side. -/
structure HostSide where
  ports    : Tab HostPort := []
  lanes    : Tab LaneRun := []
  table    : Tab LaneEq := []         -- host table, by 4 x lane + RATE
  tableTag : Nat := 0
  ulTable  : Tab LaneEq := []         -- Umran table
  ulTag    : Nat := 0
  load     : List Byte := []          -- bytes of a partial table (R156)
  groups   : Tab FlexGroup := []
  rxAt     : Tab Place := []          -- the next place of the blocks that a port or client receives, by carrier code
  txAt     : Tab Place := []          -- the next place of those that it sends
  deriving DecidableEq, Repr

/-- One physical lane of an Umran port: its LANE_ID and its skew in 0.1 ns while locked. -/
structure UlLane where
  locked : Bool := false
  id     : Nat := 0
  skew   : Nat := 0
  late   : List Nat := []             -- places of the invalid blocks of the last frame, in blocks from its begin
  deriving DecidableEq, Repr

/-- An Umran port. -/
structure UlPort where
  txInvert  : Nat := 0
  rxInvert  : Nat := 0
  check     : Bool := false
  expect    : Nat := 0
  up        : Bool := false
  wasUp     : Bool := false
  ref       : Nat := 0                -- monotone time of its configuration or loss
  timedOut  : Bool := false
  lanes     : List UlLane := [{}, {}, {}, {}]
  good      : Nat := 0                -- consecutive frames with a good OCRC
  bad       : Nat := 0                -- consecutive frames with a bad OCRC
  rdi       : Bool := false           -- RDI received
  farNode   : Nat := 0
  farPort   : Nat := 0
  farEpoch  : Option Nat := none
  mismatch  : Bool := false           -- ULINK_PARTNER_MISMATCH raised since the expected node ID was received
  rxSlot    : Nat := 0                -- the receiver's slot count
  txSlot    : Nat := 0                -- NEXT_SLOT of the next frame
  half      : Bool := false           -- MAP_HALF of the next frame
  seen      : Tab Nat := []           -- map entries received in the last two frames: TRAIL by slot
  marks     : List (Nat × Nat) := []  -- marked frames sent, newest first: chamber and departure in domain time, quarter-ns
  farMarks  : List (Nat × Nat) := []  -- the partner's marked frames, newest first: CHAMBER and arrival in domain time, quarter-ns
  exchanged : Bool := false           -- an exchange has been valid since the port came up
  theta     : Option Int := none
  frame     : List Nat := []          -- overhead of the last frame sent: header, TW0 to TW2, ten map words
  lanesOut  : List (List Block) := [] -- the lane blocks of the last frame sent, as they leave (R627)
  txScr     : List Nat := [0, 0, 0, 0]   -- scrambler registers, by LANE_ID
  rxScr     : List Nat := [0, 0, 0, 0]   -- descrambler registers, by physical lane
  stage     : Tab (List Block) := []  -- blocks that wait for their slot, by slot
  sentAt    : Option Nat := none      -- departure of the last frame in domain time
  owed      : Nat := 0                -- slot blocks that domain time has brought and no frame has carried (R631)
  mgmtQ     : List (List Byte) := []
  mgmtBuf   : List (Option Byte) := []
  deriving DecidableEq, Repr

/-- The Umran link. -/
structure Umran where
  ports    : Tab UlPort := []         -- configured ports
  declared : Bool := false            -- declared spread
  detected : Bool := false
  cleanS   : Nat := 0                 -- consecutive seconds in which neither condition held
  ppm      : Int := 0
  deriving DecidableEq, Repr

end Sys2Proof.Machine
end

