-- ==== Sys2Proof/Machine/StateJobs.lean ====
section
/-!
DEFINITION. Jobs (R452 to R456): the work of each command that returns JOB_STARTED, and the job records.
-/
namespace Sys2Proof.Machine

/-- What a sample capture records and where it goes (Table 7.8). -/
structure Capture where
  tap     : Nat
  sub     : Nat
  trigger : Nat
  count   : Nat
  pre     : Nat
  event   : Nat
  chamber : Nat
  dest    : Nat
  first   : Option (Nat × Nat) := none   -- chamber of the first instant and its offset in 0.25 ns, once triggered
  since   : Nat := 0                     -- domain time of its acceptance
  stop    : Option Int := none           -- TRIGGER 3: when the event came, from the beginning of the symbol grid
  got     : List (Int × List Byte) := [] -- the capture buffer of the engine (R282): instants, each with its time from that beginning
  samples : List Byte := []              -- the bytes to be copied (R283)
  done    : Nat := 0                     -- bytes copied to DEST
  deriving DecidableEq, Repr

/-- What a job still has to do. -/
inductive JobWork where
  | capture (engine : Nat) (c : Capture)                              -- R282
  | fill (mode unit addr len data done : Nat)                         -- R505 to R507; `data` is the pattern or the host address
  | sweep (units : List (Nat × Nat)) (done total : Nat)               -- R496
  | kek (action tenant : Nat) (blob : List Byte)                      -- R375 to R377
  | relay (sentAt msgTag node : Nat)                                  -- R419
  | fwStage (target hostAddr len got : Nat)                           -- R601, R602: from host memory, or a chunked item
  | fwWrite (target : Nat) (offset : Nat)                             -- R602
  | fwActivate (mode : Nat)                                           -- R603
  | calRun (engine : Nat) (left named : List Nat) (bad : Option Nat)   -- R346: converters still to run, those named, the first failure
  deriving DecidableEq, Repr

/-- How a job ended (Table 12.9). -/
structure JobEnd where
  outcome   : Nat
  cancelled : Bool
  result    : List Byte
  chamber   : Nat
  at_       : Nat            -- monotone time of the end
  order     : Nat            -- how many jobs had ended before it
  deriving DecidableEq, Repr

/-- A job record. -/
structure Job where
  serial   : Nat
  tenant   : Nat
  op       : Nat
  work     : JobWork
  progress : Nat := 0
  finish   : Option (Nat × List Byte) := none   -- its work is done: outcome code and result; JOB_COMPLETE is due
  cancel   : Bool := false                      -- a JOB_CANCEL waits for the end of the step
  ended    : Option JobEnd := none
  deriving DecidableEq, Repr

/-- All jobs. -/
structure Jobs where
  next   : Nat := 1            -- next serial number (R452)
  list   : List Job := []
  ended  : Nat := 0            -- jobs ended since the reset
  waits  : List (Nat × Request) := []   -- JOB_CANCEL requests waiting for the stop, by token
  lastTenant : Nat := 15       -- round-robin over tenants (R453)
  dmaOut : Option (Nat × List Byte) := none   -- the last bytes a job wrote to host memory, with their bus address
  deriving DecidableEq, Repr

/-- The token of a job (R452). -/
def Job.token (j : Job) : Nat := j.tenant * 2 ^ 28 + j.serial

end Sys2Proof.Machine
end

