-- ==== Sys2Proof/Machine/StateKeys.lean ====
section
/-!
DEFINITION. State of the cipher engine and the key store (10_cipher.md). Default field values are the values after a reset of FAB.
-/
namespace Sys2Proof.Machine

/-- The states of a key slot (Table 10.1). -/
inductive KeySt where
  | empty | loaded | prepared | bound | releasing
  deriving DecidableEq, Repr

/-- A key slot (R368 to R370). -/
structure KeySlot where
  st     : KeySt := .empty
  owner  : Nat := 0
  usage  : Nat := 1               -- 1 traffic key, 2 management key
  keyId  : Nat := 0
  kekGen : Nat := 0               -- generation of the KEK that wrapped it
  key    : List Byte := []        -- 32 bytes
  subkey : Nat := 0               -- GHASH subkey of a traffic key
  deriving DecidableEq, Repr

/-- A tenant's KEK (R374). -/
structure Kek where
  gen : Nat
  key : List Byte
  deriving DecidableEq, Repr

/-- An old slot that still serves a passage's earlier segments (R380, R381). -/
structure OldKey where
  slot     : Nat
  next     : Nat                  -- the slot that took over
  cc       : Nat
  decrypts : Bool
  checked  : Bool := false        -- the tag of frame chamber Cc - 1 was checked
  deriving DecidableEq, Repr

/-- A segment in the segment buffers (unit 0x0204): its blocks as the cipher puts them out, each with the block it was, none where it was
substituted. -/
structure Segment where
  ch   : Nat
  out  : List (Block × Option QBlock)
  tag  : Nat                      -- the tag computed
  bad  : Bool := false            -- the pair reported a mismatch that fails the tag (R365, R366)
  deriving DecidableEq, Repr

/-- What the cipher keeps for one encrypted passage. -/
structure CipPas where
  rebind : Option (Nat × Nat) := none      -- a scheduled rebind: its slot and Cc (R380)
  since  : Option Nat := none              -- chamber at which the last rebind took effect
  aged   : Bool := false                   -- CIPHER_KEY_AGE raised for this binding
  olds   : List OldKey := []
  segs   : List Segment := []              -- newest first
  sentCh : Option Nat := none              -- the chamber of the last segment that an encrypting device sealed (R350)
  deriving DecidableEq, Repr

/-- A compare pair (R357, R362): 0 serving, 1 spare, 2 self-test, 3 failed. -/
structure Pair where
  st    : Nat
  mism  : Ctr := 0
  deriving DecidableEq, Repr

/-- A logical lane: the pair that serves it, from which chamber on where it came back to it (R362), and the chamber of the last
compare mismatch (R361). -/
structure Lane where
  pair  : Option Nat
  start : Option Nat := none
  badCh : Option Nat := none
  deriving DecidableEq, Repr

/-- The cipher. -/
structure Cipher where
  slots    : Tab KeySlot := []
  keks     : Tab Kek := []                        -- by tenant
  mgmt     : Tab Nat := []                        -- management key slot, by tenant (R371)
  prepared : List ((Nat × Nat) × Nat) := []       -- (tenant, passage ID) and slot (R378)
  pas      : Tab CipPas := []
  pairs    : Tab Pair := []
  lanes    : Tab Lane := []
  waiting  : List Nat := []                       -- lanes that found no spare, oldest first
  unwrapFailures : Ctr := 0
  deriving DecidableEq, Repr

end Sys2Proof.Machine
end

