-- ==== Sys2Proof/Machine/StateLog.lean ====
section
/-!
DEFINITION. State of the event log, the performance-monitoring bins, the life record and the calendar (14_events.md).
-/
namespace Sys2Proof.Machine

/-- One 32-byte position of the event ring (Table 14.1). `life` is the payload, 14 bytes. -/
structure EvRec where
  time     : Nat            -- domain time of detection in quarter-nanoseconds
  island   : Nat
  severity : Nat
  cont     : Bool           -- SEVERITY bit 7
  code     : Nat
  source   : Nat
  reps     : Nat            -- REPEAT
  payload  : List Byte      -- 14 bytes
  deriving DecidableEq, Repr

/-- A performance-monitoring bin (R526, Table 14.6). -/
structure Bin where
  flags    : Nat := 0                    -- bit 0 OPEN, 1 PARTIAL, 2 STEPPED, 3 INVALID, 4 LEAP
  openCh   : Nat := 0
  closeCh  : Nat := 0
  seconds  : Nat := 0
  base     : List Ctr := []              -- values at open, one per counter of the group
  gauges   : Tab (Int × Int × Int × Nat) := []   -- per gauge: minimum, maximum, sum, samples
  entries  : List Ctr := []              -- closed bin: the stored entries
  deriving DecidableEq, Repr

/-- The bins of one counter group (R526). -/
structure BinSet where
  open15   : Bin := {}
  open24   : Bin := {}
  closed15 : List Bin := []              -- latest first, at most 32
  closed24 : List Bin := []              -- latest first, at most 7
  deriving DecidableEq, Repr

/-- The life record of Table 14.7. -/
structure Life where
  seq         : Nat := 0
  powerOnMin  : Nat := 0
  powerCycles : Nat := 0
  litMin      : Tab Nat := []
  laserMin    : Tab Nat := []
  thermCycles : Nat := 0
  tempMax     : Int := -32768
  aging       : Tab Int := []
  calRuns     : Tab Nat := []
  wrLife      : Nat := 0
  wrCal       : Nat := 0
  wrRepair    : Nat := 0
  wrOsc       : Nat := 0
  liveRep     : Nat := 0
  deferRep    : Nat := 0
  pagesRet    : Nat := 0
  sliceFail   : Nat := 0
  pairFail    : Nat := 0
  lastTai     : Nat := 0
  deriving DecidableEq, Repr

/-- The calendar record in MTP (R535). -/
structure Calendar where
  entries   : List (Nat × Int) := []     -- TAI second, TAI - UTC
  dayOffset : Int := 0                   -- minutes
  expiry    : Nat := 0
  isSet     : Bool := false              -- a table has been accepted since the device was made
  deriving DecidableEq, Repr

/-- State of the log. -/
structure Log where
  ring        : Tab EvRec := []          -- by position modulo 65 536
  evtWr       : Nat := 0                 -- EVT_WR, modulo 2^32
  evtRd       : Nat := 0                 -- EVT_RD, modulo 2^32
  raised      : Tab Nat := []            -- domain time at which an engine island last raised a code, by island x 65 536 + code (R282)
  spill       : List EvRec := []         -- unread spilled records, oldest first
  spillWr     : Nat := 0
  spillRd     : Nat := 0
  keepNewest  : Bool := true             -- FLAGS 0x03 after reset (R524)
  spillEn     : Bool := true
  floor       : Nat := 0
  written     : Ctr := 0                 -- RECORDS_WRITTEN
  coalesced   : Ctr := 0
  spilled     : Ctr := 0
  masked      : Ctr := 0
  overflows   : Ctr := 0
  drops       : Tab Ctr := []            -- DROPS_CLASS_c
  dropCount   : Nat := 0                 -- drops pending (R522)
  dropFirst   : Nat := 0                 -- chamber of the first pending drop
  dropLast    : Nat := 0
  dropMask    : Nat := 0                 -- classes of the pending drops
  dropSince   : Nat := 0                 -- monotone time of the first pending drop
  spillFull   : Bool := false            -- LOG_SPILL_FULL raised since the spill last had room (R521)
  bins        : Tab BinSet := []         -- key: unit x 65 536 + instance
  binsOn      : Bool := false            -- bins are kept since LPDDR6 became ready
  binCh15     : Nat := 0                 -- chambers at which the open bins opened
  binCh24     : Nat := 0
  binsSecond  : Nat := 0                 -- TAI second at which the bins were last evaluated
  gaugeSecond : Nat := 0                 -- TAI second of the last gauge sampling (R528)
  life        : Life := {}               -- the live life record, in LAMP retained memory
  lifeSlots   : Tab Life := []           -- valid slots 0 to 63 in MTP
  lifeNext    : Nat := 0                 -- slot of the next write
  lifeTenMin  : Nat := 0                 -- POWER_ON_MIN at the last write (R533)
  lifeQ       : Nat := 0                 -- quarter-nanoseconds of the minute of POWER_ON_MIN under way
  litQ        : Tab Nat := []            -- the same for LIT_MIN_n
  laserQ      : Tab Nat := []            -- the same for LASER_MIN_n
  tempMean    : Option Int := none       -- last 1 s mean of the hottest die sensor
  calendar    : Calendar := {}           -- kept across every reset and power loss (R536)
  stale       : Bool := false            -- LEAP_TABLE_STALE raised for this table (R537)
  thermPeak   : Option Int := none       -- last peak of the 1 s mean (R532)
  thermLow    : Option Int := none       -- lowest value since that peak, once 20.0 degC below it
  deriving DecidableEq, Repr

end Sys2Proof.Machine
end

