-- ==== Sys2Proof/Machine/StateMem.lean ====
section
/-!
DEFINITION. State of the memories, their ECC, the scrubbers and the repairs (13_memory.md). Default field values are the values
after reset.
-/
namespace Sys2Proof.Machine

/-- A set of block numbers as rising, disjoint, non-touching half-open intervals. -/
abbrev Spans := List (Nat × Nat)

/-- A memory instance of Table 13.1. For LPDDR6 the contents, the valid blocks and the poisoned words of both channels stand
under channel 0, addressed by device address; each channel has its own counters and bucket. -/
structure MemInst where
  data     : Memory := []
  valid    : Spans := []          -- block-valid bits (R479)
  poison   : List Nat := []       -- codes held uncorrectable (inverted check bits, R499)
  corrected : Ctr := 0
  uncorr   : Ctr := 0
  unwritten : Ctr := 0
  partials : Ctr := 0
  passes   : Ctr := 0
  hardSusp : Ctr := 0
  bucket   : Nat := 0
  leakAt   : Nat := 0             -- monotone time of the last leak (R489)
  recent   : List Nat := []       -- monotone times of recent corrections, newest first
  suspects : List Nat := []       -- HARD_SUSPECT locations not yet repaired
  lastEnd  : Nat := 0             -- LAST_PASS_END
  passTime : Nat := 0             -- PASS_TIME_S
  deriving DecidableEq, Repr

/-- A scrubber record (R493). -/
structure Track where
  key    : Nat                    -- memory instance
  addr   : Nat
  bit    : Nat
  count  : Nat := 1               -- consecutive passes
  seen   : Bool := true           -- corrected in the pass under way
  raised : Bool := false
  deriving DecidableEq, Repr

/-- A scrubber's walk: over the on-chip instances or over LPDDR6. -/
structure Walk where
  key     : Nat := 0              -- instance under the scrubber
  block   : Nat := 0              -- next block
  start   : Nat := 0              -- monotone time at which the pass began
  at_     : Nat := 0              -- monotone time of its last block
  late    : Bool := false         -- SCRUB_LATE raised in this pass
  tracks  : List Track := []      -- oldest first
  full    : Bool := false         -- SCRUB_TRACK_FULL raised until the store has room
  deriving DecidableEq, Repr

/-- A live row repair between its start and its switch (R499). -/
structure RowRepair where
  req    : Option Request         -- none for AUTO_REPAIR
  unit   : Nat
  offset : Nat
  since  : Nat                    -- chamber in which the copy began
  deriving DecidableEq, Repr

/-- A page retirement between its start and its switch (R502). -/
structure PageMove where
  req    : Request
  addr   : Nat
  spare  : Nat
  since  : Nat
  deriving DecidableEq, Repr

/-- All memories. -/
structure Mem where
  insts     : Tab MemInst := []       -- key: 2 x unit + instance
  ready     : Bool := false           -- LPDDR6 trained and its block-valid map clear (R483)
  capacity  : Nat := 0                -- C of R485
  onchipEn  : Bool := true
  lpEn      : Bool := true
  autoRep   : Bool := true
  passMin   : Nat := 240
  mibPerMin : Nat := 1024
  leakMs    : Nat := 1000
  level     : Nat := 64
  onchip    : Walk := {}
  lp        : Walk := {}
  gate      : Option (Nat × Nat) := none   -- SCRUB_GATE of a chamber: chamber, share in sixteenths (R491)
  fuseRows  : Tab Nat := []           -- spare rows used by production test, by bank key
  repairing : List RowRepair := []
  moving    : List PageMove := []
  remap     : Tab Nat := []           -- retired page address to spare index (R502)
  deriving DecidableEq, Repr

end Sys2Proof.Machine
end

