-- ==== Sys2Proof/Machine/StateSys.lean ====
section
/-!
DEFINITION. State of power, reset, boot and the guide pairs (00_scope.md, 15_power.md, 16_reset_boot.md, 17_faults.md).
Default field values are the values under a full reset.
-/
namespace Sys2Proof.Machine

/-- The states of an island (R540). -/
inductive IslSt where
  | active | parked | off | dripline
  deriving DecidableEq, Repr

/-- One island of Table 1.1. -/
structure Island where
  st      : IslSt := .active
  moving  : Option (IslSt × Nat) := none   -- a transition in progress: its target and the monotone time it began
  inReset : Bool := true                   -- held in reset (R25, R577)
  belay   : Bool := false                  -- pads latched (R555)
  activeAt : Nat := 0                      -- monotone time at which it last became ACTIVE
  sigs    : Tab Nat := []                  -- retention signatures (R549), by bank ID: unit x 256 + bank byte
  deriving DecidableEq, Repr

/-- The facts VARIANT reports (Table 0.4). -/
structure Variant where
  engineCount : Nat := 0
  engineMask  : Nat := 0
  cipher      : Bool := false
  bond64      : Bool := false      -- HOST_BOND: 64 lanes bonded; the package's own (assumption 6)
  safeMode    : Bool := false
  fuseValid   : Bool := false
  dieStep     : Nat := 0
  deriving DecidableEq, Repr

/-- A rail of the rail map (R568) with what PMBus last read of it (R572). -/
structure Rail where
  bus       : Nat := 0
  pmbus     : Nat := 0xFF
  page      : Nat := 0xFF
  avs       : Nat := 0xFF
  switchable : Bool := false
  softStart : Nat := 1
  on        : Bool := true
  setMv     : Nat := 0          -- voltage last written over AVSBus (R563, R566), 0 for none
  vout      : Nat := 0
  iout      : Nat := 0
  temp      : Int := 0
  status    : Nat := 0
  deriving DecidableEq, Repr

/-- Refusal record of POWER_ACCOUNT_READ (Table 15.7). -/
structure Refusal16 where
  chamber : Nat
  island  : Nat
  state   : Nat
  status  : Nat
  reason  : Nat
  refuser : Nat
  deriving DecidableEq, Repr

/-- An item latched while DORMANT or while an island enters or leaves PARKED or OFF (R551, R552). Sources are numbered as in
POWER_WAKE: 5 domain message, 6 PPS edge, 7 protection request, 8 thermal alarm. -/
structure Latched where
  source  : Nat
  time    : Nat
  arg     : Nat := 0            -- passage and leg, input or sensor
  message : List Byte := []     -- a domain message
  deriving DecidableEq, Repr

/-- Where the device stands between ACTIVE and DORMANT (R540, R551). -/
inductive Dormant where
  | no | entering | yes | exiting
  deriving DecidableEq, Repr

/-- Power control in LAMP. -/
structure Power where
  islands   : Tab Island := []
  dormant   : Dormant := .no
  dormantAt : Nat := 0                   -- monotone time of the entry or exit
  wakeMask  : Nat := 0
  gpioMask  : Nat := 0
  gpioLevel : Nat := 0
  timerMs   : Nat := 0
  wake      : Option (Nat × Nat × Nat) := none   -- first latched wake: source, GPIO number or 0xFF, domain time
  latch     : List Latched := []
  latchDrops : Nat := 0
  dropsNow  : Nat := 0                   -- items dropped since the entry (POWER_LATCH_FULL)
  rails     : Tab Rail := []             -- by rail code
  operation : List (Nat × Bool × Nat) := []   -- the OPERATION commands sent to rails, oldest first: code, on, monotone time (R569, R688)
  unconfirmed : List Nat := []           -- rails that did not confirm: their islands stay OFF (R569, R688)
  entries   : Tab Nat := []              -- 0 PARKED, 1 DRIPLINE, 2 OFF, 3 DORMANT
  refused   : Tab Nat := []
  aborted   : Tab Nat := []
  refusals  : List Refusal16 := []       -- newest first, at most 16
  lastPoll  : Nat := 0                   -- monotone time of the last telemetry poll
  perfWaits : List Request := []         -- PERF_LEVEL_SET requests whose change is not complete (R565)
  deriving DecidableEq, Repr

/-- The MTP repair map (R590): row entries (unit, row offset, mode), page entries (device address, spare), converter entries
(engine, converter, slice or cell). -/
structure RepairMap where
  rows  : List (Nat × Nat × Nat) := []
  pages : List (Nat × Nat) := []
  convs : List (Nat × Nat × Nat) := []
  deriving DecidableEq, Repr

/-- The records of MTP whose copies are written by rows (Table 16.5). -/
structure MtpRecords where
  powerUps  : Nat := 0
  oscOffset : Option (Int × Int) := none
  calendar  : Calendar := {}
  repair    : RepairMap := {}
  seq       : Nat := 0                        -- SEQ of the copy in force of the record written
  deriving DecidableEq, Repr

/-- A write of MTP under way (R590, R592): record 1 to 4 into a copy, or a slot of the life record (ID 0); one pulse a row from `from_`
on, and what stood in force before. -/
structure MtpWrite where
  id    : Nat
  copy  : Nat
  rows  : Nat
  from_ : Nat                                 -- monotone time of the first pulse
  old   : MtpRecords
  deriving DecidableEq, Repr

/-- MTP and flash, which outlive every reset. `seqs` holds SEQ of the copy in force of each record (R591). -/
structure Store where
  powerUps  : Nat := 0
  oscOffset : Option (Int × Int) := none      -- 0.001 ppb, 0.1 degC
  repair    : RepairMap := {}
  seqs      : Tab Nat := []
  copies    : Tab Nat := []                   -- the copy in force, by record ID
  invalid   : List (Nat × Nat) := []          -- copies that are not valid: record ID and copy (R591, R592)
  writing   : List MtpWrite := []             -- writes whose pulses have not all ended, oldest first
  flash     : Bool := true                    -- a flash is fitted
  quadRead  : Bool := true                    -- its SFDP table declares the 1-1-4 fast read (R594)
  preferred : Nat := 0                        -- boot descriptor: 0 slot A, 1 slot B
  slots     : Tab (List Byte) := []           -- images in slots A and B
  board     : List Byte := []                 -- board configuration
  deriving DecidableEq, Repr

/-- The image that runs (R596). -/
structure Running where
  fwVersion     : Reg := 0
  journalFormat : Nat := 0
  deriving DecidableEq, Repr

/-- Reset and boot. -/
structure Boot where
  asserted   : Bool := true                -- a device reset is asserted
  full       : Bool := true                -- it is a full reset: straps are sampled when it ends (R575)
  thermal    : Bool := false               -- held after a thermal trip (R579)
  stage      : Nat := 0                    -- BOOT_STAGE
  bootSrc    : Nat := 0                    -- STRAPS
  clkMode    : Nat := 0
  cause      : Nat := 1                    -- RST_CAUSE
  scope      : Nat := 0
  unit       : Nat := 0
  railCode   : Nat := 0xFF                 -- rail of a supply-monitor reset, for DEVICE_RESET
  endedAt    : Nat := 0                    -- monotone time at the end of the last device reset (UPTIME_S)
  loads      : Nat := 0
  failCause  : Nat := 0
  firstBad   : Nat := 0xFFFFFFFF
  loadFail   : Bool := false               -- three loads failed: FUSE_LOAD_FAIL
  spareRows  : Nat := 0
  rootKey    : Bool := false
  serial     : BitVec 64 := 0
  vtrim      : Tab Nat := []               -- fused part of V_TRIM in mV (R563)
  recovery   : Bool := false               -- the recovery service runs (R598)
  boardOk    : Bool := false               -- a board configuration is in force
  boardTag   : Nat := 0
  lp6Gib     : Nat := 0
  lp6Rate    : Nat := 0
  lp6Ranks   : Nat := 0
  wdtS       : Nat := 0
  slot       : Nat := 0                    -- 0 A, 1 B, 2 download
  running    : Running := {}
  stageBuf   : Option (Nat × List Byte) := none   -- chunks staged so far: TARGET, bytes (R601)
  stagedImg  : Option (List Byte) := none  -- staged item of TARGET 1
  stagedCfg  : Option (List Byte) := none
  imgOk      : Bool := false               -- the staged image passed R596
  cfgOk      : Bool := false
  resetDue   : Option Nat := none          -- RESET of device scope accepted at this monotone time (R585)
  fspi       : Option (Nat × Nat) := none  -- how the flash is read since the boot: data lines, MHz (R594)
  early      : List (Nat × Ev × Nat × Nat × List Byte) := []   -- events of the boot before the ring runs (R604)
  deriving DecidableEq, Repr

/-- The guide pairs (17_faults.md). -/
structure Guide where
  active    : Option Nat := none           -- DEVICE_STATE.ACTIVE_PAIR; none reads 3
  standby   : Bool := false                -- STANDBY_READY
  trapped   : Option (Nat × Nat) := none   -- the pair being repaired and the monotone time of its trap
  taking    : Option (Nat × Nat) := none   -- a takeover in progress: new pair, monotone time of the trap
  takeover  : Option Nat := none           -- monotone time of the last takeover (R581)
  failed    : List Nat := []               -- pairs out of service until the next device reset (R617)
  journal   : Nat := 0                     -- transactions journalled (R447)
  lastFault : Option (Nat × Nat × Nat) := none      -- last fault of classes 1 to 5: class, monotone time, chamber
  losFirst  : Option Nat := none           -- monotone time of the first loss of the class 1 group (R610)
  boundVoid : Nat := 0                     -- monotone time until which no interruption bound is stated (R619)
  broken    : Bool := false                -- IEEE 1149.1 access other than BYPASS and IDCODE since PORST_N (R609)
  deriving DecidableEq, Repr

/-- The instructions of the test access port (Table 20.11). -/
inductive TapInstr where
  | extest | idcode | sample | clamp | highz | extestPulse | extestTrain | bypass
  deriving DecidableEq, Repr

/-- The test access port: its instruction register, whose value after Test-Logic-Reset is IDCODE's, and whether an instruction has
taken the pins from functional drive since PORST_N (R692). -/
structure Tap where
  ir    : Nat := 0x01
  taken : Bool := false
  deriving DecidableEq, Repr

end Sys2Proof.Machine
end

