-- ==== Sys2Proof/Machine/StateTime.lean ====
section
/-!
DEFINITION. State of the references, the loop and the domain (11_timing.md). Default field values are the values after reset.
-/
namespace Sys2Proof.Machine

/-- A configured timing input (Tables 11.3, 11.4, 11.6). -/
structure TimeInput where
  priority  : Nat := 1
  qlMode    : Nat := 0
  ql        : Nat := 0
  timeUse   : Bool := false
  qualifyS  : Nat := 0              -- as sent; 0 is the default of 10 s
  freqHz    : Nat := 0
  compPs    : Int := 0
  periodLog : Nat := 0
  st        : Nat := 1              -- STATE of Table 11.6
  since     : Nat := 0              -- monotone time from which it has been present and clean
  qualAt    : Nat := 0              -- monotone time at which it became QUALIFIED
  rxQl      : Option Nat := none    -- last QL received (QL_MODE 1)
  rxQlAt    : Nat := 0
  qlFailed  : Bool := false
  rxSteps   : Nat := 0xFF           -- STEPS_REMOVED and SOURCE_NODE last received
  rxSource  : Nat := 0
  mean      : Int := 0              -- 1 s mean against the oscillator, 0.001 ppb
  means     : List Int := []        -- the 1 s means while it has been monitored, newest first, at most 100 (R401)
  disputed  : Option Nat := none    -- the input that outvoted it
  agreeAt   : Option Nat := none    -- monotone time since it agrees with that input
  driftWarn : Bool := false
  cause     : Nat := 0              -- last disqualifying cause
  cleanAt   : Option Nat := none    -- monotone time since both slopes lie below their soft limits
  theta     : Int := 0              -- last offset of a two-way exchange, quarter-nanoseconds
  delay     : Int := 0              -- d_AB of the last exchange
  deriving DecidableEq, Repr

/-- One clock output (Table 11.8). -/
structure ClkOut where
  hz      : Nat := 0
  squelch : Nat := 0
  from_   : Option Nat := none      -- monotone time of the whole second from which it runs; none while off or squelched (R421)
  deriving DecidableEq, Repr

/-- The elastic buffer and the exchanges of an engine or Umran port, by its input index (R392, R410). -/
structure Partner where
  off    : Int := 0                 -- offset of the partner's chamber boundaries in the buffer, 0.25 ns
  wideAt : Option Nat := none       -- monotone time since which it stands at ±30 ns
  warned : Bool := false            -- TIME_PARTNER_OFFSET raised since
  exAt   : Nat := 0                 -- monotone time of the last valid exchange, or of the start of its presence
  deriving DecidableEq, Repr

/-- References, loop and domain. -/
structure Timing where
  inputs    : Tab TimeInput := []
  present   : List Nat := []        -- inputs at which a signal is present, configured or not (R396)
  loopSt    : Nat := 0              -- LOOP_STATE
  selected  : Option Nat := none
  source    : Option Nat := none
  bwStep    : Nat := 0              -- k of R402
  dwellAt   : Nat := 0
  history   : List Int := []        -- newest first, at most 3 600 entries
  loopFreq  : Int := 0
  phasePs   : Int := 0
  trackAt   : Nat := 0              -- monotone time of the last offset write or of the start of TRACKING
  evalAt    : Nat := 0              -- monotone time of the last per-second evaluation
  locked1   : Bool := false         -- the first lock to a time source is behind (R390)
  stepWarn  : Bool := false         -- TIME_STEP_NEEDED raised
  wasSet    : Bool := false         -- domain time was set since power-up
  pairs     : List (Nat × Nat) := []   -- pairs in dispute
  armed     : Option (Nat × Nat) := none   -- TIME_SET at a PPS edge: time, earliest monotone time
  ppsAt     : Nat := 0
  ppsPhase  : Int := 0                -- the whole second that the last PPS_IN edge marks, less domain time there, in ps (R398)
  partners  : Tab Partner := []
  trackBw   : Nat := 100
  avgS      : Nat := 300
  guardS    : Nat := 2              -- as held; 0xFF is 0
  flags     : Nat := 7
  holdQl    : Nat := 0xB
  wtrS      : Nat := 0              -- as held; 0xFFFF is 0
  slew      : Nat := 100
  disputePpb : Nat := 1000
  offsetPpb : Nat := 12000
  d1Soft    : Nat := 10000
  d1Hard    : Nat := 50000
  d100Soft  : Nat := 50
  d100Hard  : Nat := 200
  cleanS    : Nat := 60
  clks      : Tab ClkOut := []
  ppsWidth  : Nat := 0
  ppsFrom   : Nat := 0               -- monotone time of the whole second from which PPS_OUT follows it (R420)
  joined    : Bool := false
  joining   : Option (Option (Nat × Nat)) := none   -- DOMAIN_JOIN at the next boundary: node and epoch, or leave
  joinCh    : Nat := 0                              -- chamber of its acceptance
  msgCount  : Nat := 0                              -- messages sent since power-up (Table 11.9, SEQ)
  inbox     : List (Nat × List Byte) := []          -- whole domain messages received, oldest first: input index, content
  statusAt  : Nat := 0                              -- monotone time of the last time-status round
  lastSeq   : List ((Nat × Nat × Nat) × Nat) := []  -- (source node, tenant, port) and the last accepted SEQ (R414)
  msgTx     : Ctr := 0
  msgRx     : Ctr := 0
  authFails : Ctr := 0
  replays   : Ctr := 0
  exchanges : Ctr := 0
  slips     : Ctr := 0
  deriving DecidableEq, Repr

end Sys2Proof.Machine
end

