-- ==== Sys2Proof/Machine/State.lean ====
section
/-!
DEFINITION. The state of the device: plain data, one field per subsystem. Default field values are the values after a full
reset; `State.reset` is the state right after PORST_N was asserted.
-/
namespace Sys2Proof.Machine

/-- Why the machine can stop. No rule of the specification stops the device, so no meaning answers a fault. -/
inductive Fault where
  /-- Raised by nothing: the block has no behaviour that the specification says stops it (safe). -/
  | none
  deriving DecidableEq, Repr

/-- Why a command has no meaning. -/
inductive Refusal where
  /-- A row of the table whose meaning is not written (safe: the model stops where the device goes on). -/
  | notModelled (mnemonic : String)
  deriving DecidableEq, Repr

/-- The state of the device. -/
structure State where
  now     : Nat := 0          -- domain time in quarter-nanoseconds, TAI (R28, R37)
  epoch   : Nat := 0          -- domain epoch, a TAI second (R28, R37)
  node    : Nat := 0          -- node ID (R37)
  generation : Nat := 0       -- generation of the active banks (R113)
  mono    : Nat := 0          -- quarter-nanoseconds since power-up, never stepped: the model's own clock (assumption 2)
  freeCtr : Nat := 0          -- the model's own: how many free values were taken (assumption 3)
  variant : Variant := {}
  com     : Com := {}
  jobs    : Jobs := {}
  mem     : Mem := {}
  engs    : Tab Engine := []   -- WE0 to WE7
  pas     : Tab Passage := []  -- by PASSAGE_ID
  tab     : Tables := {}
  cip     : Cipher := {}
  host    : HostSide := {}
  ul      : Umran := {}
  cnt     : Tab Ctr := []      -- counters not kept in a record of their own, by `ctrKey`
  tim     : Timing := {}
  log     : Log := {}
  hk      : Hk := {}
  power   : Power := {}
  boot    : Boot := {}
  store   : Store := {}
  guide   : Guide := {}
  tap     : Tap := {}
  pending : List Instr := []  -- the commands waiting, first in first out
  deriving DecidableEq, Repr

/-- The machine right after reset: PORST_N is asserted, nothing runs, memory lists nothing. -/
def State.reset : State := {}

end Sys2Proof.Machine
end

