-- ==== Sys2Proof/Machine/Operands.lean ====
section
/-!
DEFINITION. What commands and accesses are made of: status codes (Table 12.5), packet headers (R440 to R444), opcodes
(Table 12.7), and unit identifiers (R26).
-/
namespace Sys2Proof.Machine

/-- The status codes of Table 12.5 (R448). -/
inductive Status where
  | ok | jobStarted | jobDone | badFormat | badOpcode | badLength | badCheck | badParam | notOwner | notPermitted
  | busy | blockDark | notIdle | notReady | noCapacity | noResource | hwFault | uncorrectable
  deriving DecidableEq, Repr

/-- The code of a status (Table 12.5). -/
def Status.code : Status → Nat
  | .ok => 0x00 | .jobStarted => 0x01 | .jobDone => 0x02
  | .badFormat => 0x10 | .badOpcode => 0x11 | .badLength => 0x12 | .badCheck => 0x13 | .badParam => 0x14
  | .notOwner => 0x20 | .notPermitted => 0x21
  | .busy => 0x30 | .blockDark => 0x31 | .notIdle => 0x32 | .notReady => 0x33
  | .noCapacity => 0x40 | .noResource => 0x41
  | .hwFault => 0x50 | .uncorrectable => 0x51

/-- A response with one of these statuses is a short response (R444). -/
def Status.short : Status → Bool
  | .badFormat | .badOpcode | .badLength | .badCheck => true
  | _ => false

/-- The opcodes of Table 12.7. -/
def opcodes : List Nat :=
  [0x0101, 0x0102, 0x0103, 0x0104, 0x0105, 0x0106,
   0x0201, 0x0202, 0x0203, 0x0204, 0x0205, 0x0206, 0x0207, 0x0208, 0x0209] ++
  [0x0301, 0x0302, 0x0303, 0x0304, 0x0305, 0x0306, 0x0307,
   0x0401, 0x0402, 0x0403, 0x0404, 0x0405, 0x0501, 0x0502, 0x0503, 0x0504, 0x0505] ++
  [0x0601, 0x0602, 0x0603, 0x0604, 0x0605, 0x0701, 0x0702, 0x0703, 0x0704, 0x0705,
   0x0801, 0x0802, 0x0803, 0x0804, 0x0805, 0x0901, 0x0902, 0x0903] ++
  [0x0A01, 0x0A02, 0x0B01, 0x0B02, 0x0B03, 0x0D01, 0x0D02, 0x0D03, 0x0E01, 0x0E02]

/-- The opcodes the recovery service answers (R598). -/
def recoveryOps : List Nat := [0x0101, 0x0102, 0x0106, 0x0103, 0x0901, 0x0903, 0x0902]

/-- The CRC of a packet: CRC-32C over header and payload with bytes 12 to 15 taken as zero (R441). -/
def packetCrc (p : List Byte) : Nat := crc32c (p.take 12 ++ zeros 4 ++ p.drop 16)

/-- The bytes of a packet (Table 12.4). -/
def packet (op tenant : Nat) (tag : BitVec 32) (payload : List Byte) : List Byte :=
  let h := [0xC4, 0x01] ++ le 2 op ++ le 2 tenant ++ le 2 payload.length ++ le 4 tag.toNat
  h ++ le 4 (crc32c (h ++ zeros 4 ++ payload)) ++ payload

/-- The bytes of a response packet (R442). -/
def Rsp.bytes (r : Rsp) : List Byte := packet r.op r.tenant r.tag r.payload

/-- The header check of R443, in its order. `page` is the ring's page for a ring packet; `exact` says whether the transport
itself counts the bytes (SPI and I2C) or delivers a whole 4 096-byte entry (a ring). -/
def headerCheck (page : Option Nat) (exactLen : Bool) (p : List Byte) : Option Status :=
  let tenant := fld p 4 2
  let length := fld p 6 2
  if fld p 0 1 ≠ 0xC4 ∨ fld p 1 1 ≠ 0x01 ∨ tenant > 15 ∨ (page.isSome ∧ page ≠ some tenant) then some .badFormat
  else if length > 4080 ∨ p.length < 16 + length ∨ (exactLen ∧ p.length ≠ 16 + length) then some .badLength
  else if packetCrc (p.take (16 + length)) ≠ fld p 12 4 then some .badCheck
  else if !(opcodes.contains (fld p 2 2)) then some .badOpcode
  else none

/-- The payload of a packet whose header passed. -/
def packetPayload (p : List Byte) : List Byte := (p.drop 16).take (fld p 6 2)

/-- The island of a unit identifier (R26). -/
def unitIsland (u : Nat) : Nat := u / 256

/-- The index of a unit within its island (R26). -/
def unitIndex (u : Nat) : Nat := u % 256

/-- Does Table 1.2 list this unit identifier, or is it an island (0xFE) or a sequencer (0xFF)? -/
def unitListed (u : Nat) : Bool :=
  let i := unitIsland u
  let x := unitIndex u
  if i > 14 then false
  else if x = 0xFE ∨ x = 0xFF then true
  else if i = 0 then x ≤ 8
  else if i = 1 then x ≤ 6
  else if i = 2 then x ≤ 4 ∨ (0x10 ≤ x ∧ x ≤ 0x31)
  else if i ≤ 10 then x ≤ 7
  else if i = 11 then x ≤ 0x81
  else if i = 12 then x ≤ 2
  else if i = 13 then x ≤ 0x0B
  else x ≤ 3

/-- Island numbers of Table 1.1. -/
def islLamp : Nat := 0
def islCtrl : Nat := 1
def islFab : Nat := 2
def islHost : Nat := 11
def islMem : Nat := 12
def islTime : Nat := 13
def islUlink : Nat := 14

/-- The island of engine `n` (R22). -/
def islEng (n : Nat) : Nat := 3 + n

/-- The key store, the unit a missing cipher names (R15). -/
def unitKeyStore : Nat := 0x0203

end Sys2Proof.Machine

namespace Sys2Proof
open Sys2Proof.Machine

/-- One field of a request payload. -/
def Request.u (q : Request) (off n : Nat) : Nat := fld q.payload off n

/-- One signed field of a request payload. -/
def Request.i (q : Request) (off n : Nat) : Int := fldS q.payload off n

/-- A chamber field of a payload: bits [47:0], the upper two bytes reserved. -/
def Request.ch (q : Request) (off : Nat) : Nat := fld q.payload off 6

/-- The payload length. -/
def Request.len (q : Request) : Nat := q.payload.length

/-- Is a reserved field of a request zero (R20)? -/
def Request.rsv (q : Request) (off n : Nat) : Bool := zeroAt q.payload off n

end Sys2Proof
end

