-- ==== Sys2Proof/Machine/Ops.lean ====
section
/-!
DEFINITION. The named operations over the state: time, dark units, interrupts, the event log, responses, jobs and MTP writes.
-/
namespace Sys2Proof.Machine

/-! Time. -/

/-- Quarter-nanoseconds in a second. -/
def secQ : Nat := 4000000000

/-- Quarter-nanoseconds in a millisecond. -/
def msQ : Nat := 4000000

/-- Quarter-nanoseconds in a microsecond. -/
def usQ : Nat := 4000

/-- Quarter-nanoseconds in a chamber (R28). -/
def chamberQ : Nat := 5120

/-- Chamber numbers are counted modulo this (R29). -/
def chamberMod : Nat := 2 ^ 48

/-- The chamber of a domain time (R28, R29). -/
def chamberOf (epoch t : Nat) : Nat :=
  (((t : Int) - (epoch * secQ : Nat)) / (chamberQ : Int) % (chamberMod : Int)).toNat

/-- The current chamber. -/
def State.chamber (s : State) : Nat := chamberOf s.epoch s.now

/-- The current TAI second. -/
def State.sec (s : State) : Nat := s.now / secQ

/-- Is chamber `a` later than chamber `b` (R29)? -/
def chLater (a b : Nat) : Bool :=
  let d := (a + chamberMod - b % chamberMod) % chamberMod
  1 ≤ d && d < 2 ^ 47

/-- Is chamber `a` at or later than `b`? -/
def chReached (a b : Nat) : Bool := a == b || chLater a b

/-- Chamber `a` plus `n`. -/
def chAdd (a n : Nat) : Nat := (a + n) % chamberMod

/-- Chamber `a` less `n`. -/
def chSub (a n : Nat) : Nat := (a + chamberMod - n % chamberMod) % chamberMod

/-- How many chambers `a` lies ahead of `b`, modulo 2^48. -/
def chAhead (a b : Nat) : Nat := chSub a b

/-- The later of two chambers. -/
def chMax (a b : Nat) : Nat := if chLater a b then a else b

/-- Domain time of the next chamber boundary. -/
def State.nextBoundary (s : State) : Nat :=
  let off := ((s.now : Int) - (s.epoch * secQ : Nat)) % (chamberQ : Int)
  s.now + (chamberQ - off.toNat)

/-- Start of a chamber near the present in domain time, quarter-nanoseconds. -/
def State.chamberStart (s : State) (ch : Nat) : Int :=
  let d : Int := if chLater ch s.chamber then (chAhead ch s.chamber : Int) else -(chAhead s.chamber ch : Int)
  (s.nextBoundary : Int) - (chamberQ : Int) + d * (chamberQ : Int)

/-- Has the monotone time `t0 + d` come? -/
def State.since (s : State) (t0 d : Nat) : Bool := decide (t0 + d ≤ s.mono)

/-- Domain time as Table 11.1 lays it out: SECONDS 6 bytes, NANOSECONDS x 4 + QUARTER in 4 bytes, low part first. -/
def timeBytes (t : Nat) : List Byte := le 4 (t % secQ) ++ le 6 (t / secQ)

/-- One chamber of time passes. -/
def State.tick (s : State) : State := { s with now := s.now + chamberQ, mono := s.mono + chamberQ }

/-- Take a free value: a number the specification leaves open, and the state that has used it (assumption 3). -/
def State.free (s : State) : Nat × State := (Config.freeNat s.freeCtr, { s with freeCtr := s.freeCtr + 1 })

/-- Take `n` free bytes (assumption 3). -/
def State.freeBytes (s : State) (n : Nat) : List Byte × State := (le n s.free.1, s.free.2)

/-! Substate access. -/

/-- Registers of tenant page `n`. -/
def State.page (s : State) (n : Nat) : Page := tgetD s.com.pages n {}

/-- Change tenant page `n`. -/
def State.modPage (s : State) (n : Nat) (f : Page → Page) : State :=
  { s with com := { s.com with pages := tput s.com.pages n (f (s.page n)) } }

/-- One island. -/
def State.island (s : State) (i : Nat) : Island := tgetD s.power.islands i {}

/-- One engine. -/
def State.eng (s : State) (n : Nat) : Engine := tgetD s.engs n {}

/-- Change one engine. -/
def State.modEng (s : State) (n : Nat) (f : Engine → Engine) : State := { s with engs := tput s.engs n (f (s.eng n)) }

/-- Change one island. -/
def State.modIsland (s : State) (i : Nat) (f : Island → Island) : State :=
  { s with power := { s.power with islands := tput s.power.islands i (f (s.island i)) } }

/-- T0's fixed policy (R458, R460). -/
def policyT0 : Policy :=
  { enabled := true, engineUse := 0xFF, engineManage := 0xFF, umranUse := 0x0F, hostLanes := 2 ^ 128 - 1,
    flexeGroups := 2 ^ 64 - 1, slotQuota := 0xFFFF, keyQuota := 0xFFFF }

/-- The policy in force of a tenant (R460). -/
def State.policy (s : State) (t : Nat) : Policy := if t = 0 then policyT0 else tgetD s.com.policies t {}

/-- Does a tenant manage engine `n` (R449)? -/
def State.manages (s : State) (t n : Nat) : Bool :=
  t == 0 || ((s.policy t).enabled && bitAt (s.policy t).engineManage n)

/-- Does a guide pair serve commands (FW_RUNNING)? Once CTRL enters OFF with DORMANT, packets wait until its exit has completed (R24, R542,
R554). -/
def State.serving (s : State) : Bool :=
  s.guide.active.isSome && s.guide.taking.isNone && (s.boot.stage == 0xF || s.boot.stage == 0xE) && !s.boot.asserted &&
    s.power.dormant == .no

/-! Dark units (R11 to R16, R542). -/

/-- Is a unit of the cipher (R7)? -/
def isCipherUnit (u : Nat) : Bool :=
  unitIsland u == 2 && (unitIndex u == 3 || unitIndex u == 4 || (0x10 ≤ unitIndex u && unitIndex u ≤ 0x31))

/-- The engine a unit belongs to. -/
def unitEngine (u : Nat) : Option Nat :=
  if 3 ≤ unitIsland u ∧ unitIsland u ≤ 10 then some (unitIsland u - 3) else none

/-- Is a unit fused off according to a fuse load that passed? -/
def State.fusedOff (s : State) (u : Nat) : Bool :=
  s.variant.fuseValid &&
    (match unitEngine u with
     | some n => !(bitAt s.variant.engineMask n)
     | none => isCipherUnit u && !s.variant.cipher)

/-- The REASON for which a unit is dark, in the order of R14: absent reasons first. -/
def State.absent (s : State) (u : Nat) : Option Nat :=
  if unitIsland u = 11 ∧ unitIndex u < 0x80 ∧ 64 ≤ unitIndex u ∧ s.variant.bond64 then some 2
  else if s.fusedOff u then some 1
  else if (s.variant.safeMode || !s.variant.fuseValid) && ((unitEngine u).isSome || isCipherUnit u) then some 3
  else none

/-- The REASON for which a unit is dark (R14, R25, R542), or none for a lit unit (R24). -/
def State.dark (s : State) (u : Nat) : Option Nat :=
  match s.absent u with
  | some r => some r
  | none =>
    let i := s.island (unitIsland u)
    if s.boot.recovery && isCipherUnit u then some 4
    else if s.power.dormant = .entering ∧ unitIsland u ≠ islLamp then some 5
    else if i.st = .off then some 5
    else if i.inReset || i.st ≠ .active then some 4
    else match i.moving with
      | some (.off, _) => some 5
      | some _ => some 4
      | none => none

/-- Is an engine fitted (neither fused off nor absent in safe mode)? -/
def State.fitted (s : State) (n : Nat) : Bool := n < 8 && (s.absent (islEng n * 256 + 0xFE)).isNone

/-- The engines of the part, in ascending order. -/
def State.engines (s : State) : List Nat := (List.range 8).filter fun n => s.fitted n

/-- The bonded host lanes: 128 or 64 (R3). -/
def State.hostLanes (s : State) : Nat := if s.variant.bond64 then 64 else 128

/-! Interrupts (R471 to R473). -/

/-- Send, or hold pending, the MSI-X message of a vector (R471). The mask bit of an entry is set after reset. -/
def State.msi (s : State) (v : Nat) : State :=
  if (tgetD s.com.msix (4 * v + 3) 1).getLsbD 0 then
    { s with com := { s.com with pba := s.com.pba ||| BitVec.ofNat 64 (2 ^ v) } }
  else { s with com := { s.com with msiSent := tupd s.com.msiSent v 0 (· + 1) } }

/-- Set INT_STATUS bit `b` of page `n`; a new unmasked bit sends the page's message (R471). -/
def State.setInt (s : State) (n b : Nat) : State :=
  let p := s.page n
  let isNew := !(p.intStatus.getLsbD b) && !(p.intMask.getLsbD b)
  let s := s.modPage n fun p => { p with intStatus := p.intStatus ||| BitVec.ofNat 32 (2 ^ b) }
  if isNew then s.msi p.vector else s

/-- INT_N[k] is driven low (R473). -/
def State.intPinLow (s : State) (k : Nat) : Bool :=
  (List.range 16).any fun n =>
    let p := s.page n
    p.pinEn && p.pin == k && (p.intStatus &&& ~~~p.intMask) != 0

/-! The event log (14_events.md). -/

/-- LPDDR6 is ready: trained, block-valid map clear, MEM active (R483, R541). The memory chapter keeps the flag. -/
def State.lpReady (s : State) : Bool := s.mem.ready && (s.dark 0x0C00).isNone

/-- Positions of the ring that hold unread records (R520). -/
def Log.unread (l : Log) : Nat := (l.evtWr + 2 ^ 32 - l.evtRd) % 2 ^ 32

/-- Unread records of the spill (R521). -/
def spillCap : Nat := 8388608

/-- The record at count `n` of the ring. -/
def Log.recAt (l : Log) (n : Nat) : Option EvRec := tget l.ring (n % 65536)

/-- How many positions the oldest unread record takes: 2 for a pair (R514). -/
def Log.oldestSize (l : Log) : Nat :=
  match l.recAt (l.evtRd + 1) with
  | some r => if r.cont ∧ l.unread ≥ 2 then 2 else 1
  | none => 1

/-- The oldest unread record, one or two positions. -/
def Log.oldest (l : Log) : List EvRec :=
  (List.range l.oldestSize).filterMap fun i => l.recAt (l.evtRd + i)

/-- Count dropped records (R522): the counter of each class, and what the next LOG_OVERFLOW reports. -/
def Log.drop (l : Log) (rs : List EvRec) (ch mono : Nat) : Log :=
  rs.foldl
    (fun l r =>
      let c := r.code / 256
      { l with
        drops := tupd l.drops c 0 (· + 1)
        dropFirst := if l.dropCount = 0 then ch else l.dropFirst
        dropSince := if l.dropCount = 0 then mono else l.dropSince
        dropLast := ch
        dropMask := l.dropMask ||| 2 ^ c
        dropCount := l.dropCount + 1 })
    l

/-- Advance EVT_RD past the oldest unread record. -/
def Log.skip (l : Log) : Log := { l with evtRd := (l.evtRd + l.oldestSize) % 2 ^ 32 }

/-- Move the oldest unread record to the spill (R521). -/
def Log.toSpill (l : Log) : Log :=
  let rs := l.oldest
  { l.skip with
    spill := l.spill ++ rs
    spillWr := (l.spillWr + rs.length) % 2 ^ 32
    spilled := l.spilled + BitVec.ofNat 64 rs.length }

/-- Unread records at the front of the spill that go together and cover `n` records: the two of a pair are dropped as one (R514). -/
def spillFront (n : Nat) : List EvRec → Nat
  | [] => 0
  | r :: rest => if n = 0 ∧ !r.cont then 0 else 1 + spillFront (n - 1) rest

/-- Make room in the ring for `n` positions, or answer none where the new record is dropped. The flag says that LOG_SPILL_FULL
is due (R521). -/
def Log.room (l : Log) (ready : Bool) (n ch mono : Nat) : Nat → Log × Bool
  | 0 => (l, true)
  | fuel + 1 =>
    if l.unread + n ≤ 65536 then (l, true)
    else if l.spillEn && ready then
      if l.spill.length + l.oldestSize ≤ spillCap then Log.room l.toSpill ready n ch mono fuel
      else if l.keepNewest then
        let old := l.spill.take (spillFront (l.spill.length + l.oldestSize - spillCap) l.spill)
        let l := { l with spill := l.spill.drop old.length, spillRd := (l.spillRd + old.length) % 2 ^ 32, spillFull := true }
        Log.room ((l.drop old ch mono).toSpill) ready n ch mono fuel
      else ({ l with spillFull := true }, false)
    else if l.keepNewest then Log.room ((l.drop l.oldest ch mono).skip) ready n ch mono fuel
    else (l, false)

/-- Write the records of one occurrence at EVT_WR (R519). -/
def Log.append (l : Log) (rs : List EvRec) : Log :=
  rs.foldl
    (fun l r =>
      { l with ring := tput l.ring (l.evtWr % 65536) r, evtWr := (l.evtWr + 1) % 2 ^ 32, written := l.written + 1 })
    l

/-- The records of one occurrence: one, or a pair when its payload is longer than 14 bytes (R514). -/
def recordsOf (time island : Nat) (e : Ev) (source : Nat) (payload : List Byte) : List EvRec :=
  let r : EvRec :=
    { time := time, island := island, severity := e.severity, cont := false, code := e.code, source := source, reps := 0,
      payload := padTo 14 payload }
  if payload.length ≤ 14 then [r] else [r, { r with cont := true, payload := padTo 14 (payload.drop 14) }]

/-- Payloads that begin with the 6-byte chamber number: all but DARK_ACCESS's (Table 0.6). -/
def Ev.hasChamber (e : Ev) : Bool := e.code != 0x0101

/-- Does the record at position `k` take this occurrence as a repeat (R518)? -/
def Log.coalesces (l : Log) (k : Nat) (r : EvRec) (e : Ev) (rs : List EvRec) : Bool :=
  match rs with
  | [] => false
  | new :: rest =>
    let skip := if e.hasChamber then 6 else 0
    !r.cont && r.code == new.code && r.island == new.island && r.source == new.source &&
    r.payload.drop skip == new.payload.drop skip &&
    decide (r.reps < 0xFFFF) && decide (r.time ≤ new.time) && decide (new.time < r.time + msQ) &&
    (match rest with
     | [] => (match tget l.ring ((k + 1) % 65536) with | some c => !(c.cont && c.code == r.code && c.time == r.time) | none => true)
     | c2 :: _ => (match tget l.ring ((k + 1) % 65536) with | some c => c.cont && c.payload == c2.payload | none => false))

/-- Add one to REPEAT of the record at position `k`, and of the other half of a pair. -/
def Log.bump (l : Log) (k n : Nat) : Log :=
  { l with
    ring := (List.range n).foldl (fun t i => tmod t ((k + i) % 65536) fun r => { r with reps := r.reps + 1 }) l.ring
    coalesced := l.coalesced + BitVec.ofNat 64 1 }

/-- Put one occurrence into the log: mask, coalesce, write, spill or drop (R518 to R525). -/
def Log.put (l : Log) (ready : Bool) (ch mono : Nat) (e : Ev) (rs : List EvRec) : Log :=
  if e ≠ .logOverflow ∧ e.severity < bitsAt l.floor (2 * e.cls) 2 then { l with masked := l.masked + 1 }
  else
    match (if e = .logOverflow then none else l.ring.find? fun kr => l.coalesces kr.1 kr.2 e rs) with
    | some kr => l.bump kr.1 rs.length
    | none =>
      match l.room ready rs.length ch mono 4 with
      | (l, true) => l.append rs
      | (l, false) => l.drop rs ch mono

/-- Record an occurrence that was detected at domain time `t`, with its whole payload (R512, R518), and when an engine's island raised it, for
the captures that wait for it (R282). A written record sets
EVENT_WATERMARK while the fill is at or above EVT_THRESHOLD (Table 12.12); the first drop for a full spill raises LOG_SPILL_FULL
(R521). -/
def State.recordAt (s : State) (t island : Nat) (e : Ev) (source : Nat) (full : List Byte) : State :=
  let before := s.log
  let log := before.put s.lpReady s.chamber s.mono e (recordsOf t island e source full)
  let log :=
    if log.spillFull && !before.spillFull then
      log.put s.lpReady s.chamber s.mono .logSpillFull
        (recordsOf s.now islCtrl .logSpillFull 0xFFFF (le 6 s.chamber ++ le 1 (if log.keepNewest then 2 else 1)))
    else log
  let s := { s with log := { log with raised := if 3 ≤ island ∧ island ≤ 10 then tput log.raised (island * 65536 + e.code) t else log.raised } }
  if log.evtWr ≠ before.evtWr ∧ log.unread ≥ s.com.evtThreshold.toNat then s.setInt 0 3 else s

/-- Record an occurrence that was detected at domain time `t` (R512): its payload begins with the chamber number of `t`. -/
def State.raiseAt (s : State) (t island : Nat) (e : Ev) (source : Nat) (payload : List Byte) : State :=
  s.recordAt t island e source (if e.hasChamber then le 6 (chamberOf s.epoch t) ++ payload else payload)

/-- Record an occurrence detected now (R42). -/
def State.raise (s : State) (island : Nat) (e : Ev) (source : Nat) (payload : List Byte) : State :=
  s.raiseAt s.now island e source payload

/-- Record DARK_ACCESS (R14, R517): UNIT, REASON, KIND, WHERE, TENANT. The source instance is the unit (assumption 8). -/
def State.darkAccess (s : State) (unit reason kind loc tenant : Nat) : State :=
  s.raise islCtrl .darkAccess unit
    (le 2 unit ++ le 1 reason ++ le 1 kind ++ le 4 loc ++ le 2 tenant ++ zeros 4)

/-! Responses (R442 to R447). -/

/-- Should RSP_READY be set now (R472)? -/
def State.rspReadyNow (s : State) (p : Page) : Bool :=
  match p.rspCleared with
  | none => true
  | some t => s.since t (p.moderation * usQ) || decide (2 * p.unread.length ≥ 2 ^ p.rspqLog)

/-- Write a response into a page's response ring (R429, R472). -/
def State.ringRespond (s : State) (n : Nat) (r : Rsp) : State :=
  if s.com.d3hot then s.modPage n fun p => { p with held := p.held ++ [r] }
  else
    let s := s.modPage n fun p =>
      { p with unread := p.unread ++ [r], rspqTail := p.rspqTail + 1, outstanding := p.outstanding - 1, rspDue := true }
    if s.rspReadyNow (s.page n) then (s.modPage n fun p => { p with rspDue := false, rspCleared := none }).setInt n 0 else s

/-- A packet that waits and has not been executed (R446). -/
def Received.waits (r : Received) : Bool := !r.started && r.bad.isNone

/-- Answer the first received packet with this request that `sel` selects, each packet once (R442, R447), on the transport that carried it
(R425). A response to a command of a ring that was reset is discarded (R433). -/
def State.reply (s : State) (sel : Received → Bool) (op : Nat) (q : Request) (payload : List Byte) : State :=
  let r : Rsp := { op := op + 0x8000, tenant := q.tenant, tag := q.tag, payload := payload }
  let mine := fun (x : Received) => x.op == op && x.req == q && sel x
  let gone := s.com.received.any fun x => mine x && x.void
  let s := { s with com := { s.com with received := s.com.received.eraseP mine } }
  if gone then s
  else match q.via with
  | .ring n => s.ringRespond n r
  | .spi => { s with com := { s.com with spi := { s.com.spi with responses := s.com.spi.responses ++ [r] } } }
  | .i2c => { s with com := { s.com with i2c := { s.com.i2c with responses := s.com.i2c.responses ++ [r] } } }
  | .domain input node broadcast =>
    if broadcast then s else { s with com := { s.com with relayed := s.com.relayed ++ [(input, node, r)] } }

/-- Send the response of a command that executes now. -/
def State.respond (s : State) (op : Nat) (q : Request) (payload : List Byte) : State := s.reply Received.waits op q payload

/-- Send the response of a command that executed before and was to be answered later. -/
def State.respondLate (s : State) (op : Nat) (q : Request) (payload : List Byte) : State := s.reply (fun x => x.started) op q payload

/-- Keep a command received and unanswered (R36, R447). -/
def State.hold (s : State) (op : Nat) (q : Request) : State :=
  if s.com.received.any fun x => x.op == op && x.req == q then s
  else { s with com := { s.com with received := s.com.received ++ [{ op := op, req := q }] } }

/-- The table and passage commands that the guide pair serves in order of receipt (R115). -/
def tableOps : List Nat := [0x0301, 0x0302, 0x0304, 0x0305, 0x0307]

/-- Does a table or passage command wait for the copy of R94: a TABLE_WRITE that arrives during it, and every such command received
behind one that waits (R115)? -/
def State.behindCopy (s : State) (op : Nat) (q : Request) : Bool :=
  s.serving && s.tab.copying.isSome &&
    (op == 0x0304 || s.com.received.any fun r => r.waits && r.op == 0x0304 && !(r.op == op && r.req == q))

/-- Keep a command whose response comes later: it is journalled and is not executed again (R447). -/
def State.defer (s : State) (op : Nat) (q : Request) : State :=
  let mine := fun (x : Received) => x.op == op && x.req == q && x.waits
  let gone := s.com.received.any fun x => mine x && x.void
  { s with com := { s.com with received := s.com.received.eraseP mine ++ [{ op := op, req := q, started := true, void := gone }] } }

/-! Commands: the checks of a command, in its order, and its run. -/

/-- One check of a command. -/
inductive Check where
  | len (ok : Bool)                                  -- payload length (BAD_LENGTH)
  | lit (units : List Nat)                           -- units the command names (BLOCK_DARK, R15)
  | present (units : List Nat)                       -- as lit, where power states do not count (R545)
  | bad (cond : Bool) (st : Status) (reason : Nat)   -- refuse with this status and reason when it holds
  | badWith (cond : Bool) (st : Status) (reason : Nat) (tail : List Byte)   -- as bad, with the bytes from offset 2 on

/-- Why a command was refused. -/
structure Refuse where
  st     : Status
  reason : Nat := 0
  darkUnit : Option (Nat × Nat) := none              -- the dark unit named and its REASON
  tail   : List Byte := []                           -- response bytes from offset 2 on that the refusal fills
  deriving DecidableEq, Repr

/-- The first dark unit of a list. -/
def State.firstDark (s : State) : List Nat → Option (Nat × Nat)
  | [] => none
  | u :: us => match s.dark u with
    | some r => some (u, r)
    | none => s.firstDark us

/-- The first absent unit of a list. -/
def State.firstAbsent (s : State) : List Nat → Option (Nat × Nat)
  | [] => none
  | u :: us => match s.absent u with
    | some r => some (u, r)
    | none => s.firstAbsent us

/-- The first check that fails (R16, R443). -/
def State.judge (s : State) : List Check → Option Refuse
  | [] => none
  | .len ok :: cs => if ok then s.judge cs else some { st := .badLength }
  | .lit us :: cs => match s.firstDark us with
    | some d => some { st := .blockDark, darkUnit := some d }
    | none => s.judge cs
  | .present us :: cs => match s.firstAbsent us with
    | some d => some { st := .blockDark, darkUnit := some d }
    | none => s.judge cs
  | .bad c st r :: cs => if c then some { st := st, reason := r } else s.judge cs
  | .badWith c st r t :: cs => if c then some { st := st, reason := r, tail := t } else s.judge cs

/-- The response to a refused command: a short response, or the command's full layout with the fields the outcome does not fill
zero (R444). -/
def refusal (size : Nat) (r : Refuse) : List Byte :=
  if r.st.short then le 1 r.st.code ++ zeros 3 else padTo size (le 1 r.st.code ++ le 1 r.reason ++ r.tail)

/-- Give a refusal the bytes that every refusal of its command carries. -/
def Refuse.fill (r : Refuse) (tail : List Byte) : Refuse := if r.tail.isEmpty then { r with tail := tail } else r

/-- A transport's tenant rule: I2C serves T0 only, and so does the SPI target where it is set to (R437, R439). -/
def State.transportRule (s : State) (q : Request) : Check :=
  .bad (match q.via with | .i2c => q.tenant != 0 | .spi => s.com.spiT0Only && q.tenant != 0 | _ => false) .notPermitted 0

/-- What the transport and the recovery service require before the command's own checks: the length first (R16), then the
transport's tenant rule (R437, R439) and the recovery service's opcodes (R598). The commands of the cipher, class 0x04, place the
transport's rule themselves, behind their ranges (R386). -/
def State.gate (s : State) (op : Nat) (q : Request) : List Check :=
  (if op / 256 = 4 then [] else [s.transportRule q]) ++
  [.bad (s.boot.recovery && q.tenant != 0) .notPermitted 0,
   .bad (s.boot.recovery && !(recoveryOps.contains op)) .notReady 0]

/-- A refused command: the response, and DARK_ACCESS of KIND 3 for a dark unit (R15); nothing else (R445). -/
def State.refuse (s : State) (op : Nat) (q : Request) (size : Nat) (r : Refuse) : State :=
  let s := match r.darkUnit with
    | some (u, why) => s.darkAccess u why 3 op q.tenant
    | none => s
  s.respond op q (refusal size r)

/-- Execute a command: hold it while no guide pair serves (R36), refuse it with its first failing check, or run it. `size` is the
length of its full response layout. The run answers its state and the response, or none where the response comes later. -/
def State.serve (s : State) (op : Nat) (q : Request) (size : Nat) (lenOk : Bool) (checks : List Check)
    (run : State → State × Option (List Byte)) (tail : List Byte := []) : State :=
  if !s.serving then s.hold op q
  else match s.judge (.len lenOk :: s.gate op q ++ checks) with
    | some r => s.refuse op q size (r.fill tail)
    | none =>
      let (s', out) := run { s with guide := { s.guide with journal := s.guide.journal + 1 } }
      match out with
      | some p => s'.respond op q p
      | none => s'.defer op q

/-- Would a command reach the check after `checks`? -/
def State.reaches (s : State) (op : Nat) (q : Request) (lenOk : Bool) (checks : List Check) : Bool :=
  s.serving && (s.judge (.len lenOk :: s.gate op q ++ checks)).isNone

/-- STATUS OK, REASON 0 and two reserved bytes, the response of most commands without results. -/
def okay4 : List Byte := [0, 0, 0, 0]

/-- A tenant that is not enabled has no rights (R460). -/
def State.disabled (s : State) (q : Request) : Bool := !(s.policy q.tenant).enabled

/-- The rights step of a command that any enabled tenant may send. -/
def State.anyTenant (s : State) (q : Request) : Check := .bad (s.disabled q) .notPermitted 0

/-- The rights step of a command that only T0 may send. -/
def onlyT0 (q : Request) : Check := .bad (q.tenant != 0) .notPermitted 0

/-- The rights step of a command that T0 or the manager of engine `n` may send (R449). -/
def State.onlyManager (s : State) (q : Request) (n : Nat) : Check := .bad (!(s.manages q.tenant n)) .notPermitted 0

/-! Jobs (R452 to R456). -/

/-- The jobs that have not ended. -/
def State.runningJobs (s : State) : List Job := s.jobs.list.filter fun j => j.ended.isNone

/-- No further job can start for a tenant (R452). -/
def State.jobsFull (s : State) (tenant : Nat) : Bool :=
  decide (s.runningJobs.length ≥ 32) || decide ((s.runningJobs.filter fun j => j.tenant == tenant).length ≥ 8)

/-- Start a job and answer its token (R452). -/
def State.startJob (s : State) (tenant op : Nat) (work : JobWork) : State × Nat :=
  let j : Job := { serial := s.jobs.next, tenant := tenant, op := op, work := work }
  let next := if s.jobs.next + 1 < 2 ^ 28 then s.jobs.next + 1 else 1
  ({ s with jobs := { s.jobs with next := next, list := s.jobs.list ++ [j] } }, j.token)

/-- The response that starts a job: JOB_STARTED, REASON 0, 2 reserved bytes and the token. -/
def jobStarted (token : Nat) : List Byte := le 1 Status.jobStarted.code ++ zeros 3 ++ le 4 token

/-- The job of a token. -/
def State.job (s : State) (token : Nat) : Option Job := s.jobs.list.find? fun j => j.token == token

/-- Change the job of a token. -/
def State.modJob (s : State) (token : Nat) (f : Job → Job) : State :=
  { s with jobs := { s.jobs with list := s.jobs.list.map fun j => if j.token = token then f j else j } }

/-- A job's work is done with this outcome and result; JOB_COMPLETE ends it. -/
def State.finishJob (s : State) (token : Nat) (st : Status) (result : List Byte) : State :=
  s.modJob token fun j => { j with finish := some (st.code, result), progress := 100 }

/-- End a job (R454): JOB_END in the owner's INT_STATUS, the event, and the record that JOB_STATUS reads. A JOB_CANCEL that
waited for the stop is answered. -/
def State.endJob (s : State) (token outcome : Nat) (cancelled : Bool) (result : List Byte) : State :=
  match s.job token with
  | none => s
  | some j =>
    if j.ended.isSome then s
    else
      let e : JobEnd :=
        { outcome := outcome, cancelled := cancelled, result := result, chamber := s.chamber, at_ := s.mono, order := s.jobs.ended }
      let s := s.modJob token fun j => { j with ended := some e, finish := none, cancel := false }
      let s := { s with jobs := { s.jobs with ended := s.jobs.ended + 1 } }
      let s := s.setInt j.tenant 1
      let flags := bit cancelled + 2 * bit (decide (result.length > 4064))
      let s := s.raise islCtrl .jobComplete j.tenant (le 4 token ++ le 2 j.op ++ le 1 outcome ++ le 1 flags)
      let waiting := s.jobs.waits.filter fun w => w.1 == token
      let s := { s with jobs := { s.jobs with waits := s.jobs.waits.filter fun w => w.1 != token } }
      waiting.foldl (fun s w => s.respondLate 0x0104 w.2 okay4) s

/-- Change the live life record. -/
def State.modLife (s : State) (f : Life → Life) : State := { s with log := { s.log with life := f s.log.life } }

/-! MTP (R590 to R592). -/

/-- A row takes a pulse of 12 us and a verify of 3 us (R590), in quarter-nanoseconds. -/
def mtpPulse : Nat := 48000
def mtpRow : Nat := 60000

/-- The rows of 64 bytes that a record with a body of `len` bytes fills with its header (R590, R591). -/
def mtpRows (len : Nat) : Nat := (16 + len + 63) / 64

/-- The body of a copy of the repair map: three sections of fixed size (Table 16.5). -/
def repairBody : Nat := 12288

/-- When a write's last pulse begins and ends. -/
def MtpWrite.lastBegins (w : MtpWrite) : Nat := w.from_ + (w.rows - 1) * mtpRow
def MtpWrite.lastEnds (w : MtpWrite) : Nat := w.lastBegins + mtpPulse
def MtpWrite.ends (w : MtpWrite) : Nat := w.from_ + w.rows * mtpRow

/-- What MTP's records hold, with the SEQ of record `id`. -/
def State.mtpRecords (s : State) (id : Nat) : MtpRecords :=
  { powerUps := s.store.powerUps, oscOffset := s.store.oscOffset, calendar := s.log.calendar, repair := s.store.repair
    seq := tgetD s.store.seqs id 0 }

/-- A write begins once those before it have ended. -/
def State.mtpBegin (s : State) (id copy rows : Nat) : State :=
  let live := s.store.writing.filter fun w => decide (s.mono < w.ends)
  let w : MtpWrite :=
    { id := id, copy := copy, rows := rows, from_ := live.foldl (fun (t : Nat) (x : MtpWrite) => max t x.ends) s.mono, old := s.mtpRecords id }
  { s with store := { s.store with writing := live ++ [w] } }

/-- Write a record of `len` bytes to the other copy with SEQ one above the copy read (R591); the caller sets the content afterwards.
`ok` is false where the copy fails its verify twice: the older copy stays in force and MTP_WRITE_FAIL is raised. -/
def State.mtpWrite (s : State) (id len : Nat) (ok : Bool) : State :=
  let copy := 1 - tgetD s.store.copies id 1
  if ok then
    let s := s.mtpBegin id copy (mtpRows len)
    { s with store := { s.store with
      seqs := tupd s.store.seqs id 0 (· + 1), copies := tput s.store.copies id copy, invalid := s.store.invalid.filter fun x => x != (id, copy) } }
  else
    ({ s with store := { s.store with invalid := (s.store.invalid.filter fun x => x != (id, copy)) ++ [(id, copy)] } }).raise islLamp
      .mtpWriteFail id (le 1 copy)

/-- A write that is cut short leaves its copy invalid, and what stood before stays in force (R592, R533). -/
def State.mtpUndo (s : State) (w : MtpWrite) : State :=
  let begun := decide (w.from_ < s.mono)
  if w.id = 0 then (if begun then { s with log := { s.log with lifeSlots := tdel s.log.lifeSlots w.copy } } else s)
  else
    let st := s.store
    let st := { st with
      seqs := tput st.seqs w.id w.old.seq, copies := tput st.copies w.id (1 - w.copy)
      invalid := if begun then (st.invalid.filter fun x => x != (w.id, w.copy)) ++ [(w.id, w.copy)] else st.invalid }
    match w.id with
    | 1 => { s with store := { st with powerUps := w.old.powerUps } }
    | 2 => { s with store := { st with oscOffset := w.old.oscOffset } }
    | 3 => { s with store := st, log := { s.log with calendar := w.old.calendar } }
    | _ => { s with store := { st with repair := w.old.repair } }

/-- A reset is requested (R592): one requested during a pulse waits until the pulse ends, no further pulse begins, and a write with
pulses still to come is cut short. Where VPP_MTP itself fails (`noSupply`), so is one whose last pulse has not ended. -/
def State.mtpCut (s : State) (noSupply : Bool) : State :=
  let live := s.store.writing.filter fun w => decide (s.mono < w.ends)
  let cut := live.filter fun w => decide (s.mono < if noSupply then w.lastEnds else w.lastBegins)
  let wait := match live.head? with
    | some w => if (s.mono - w.from_) % mtpRow < mtpPulse ∧ w.from_ < s.mono ∧ !noSupply then mtpPulse - (s.mono - w.from_) % mtpRow else 0
    | none => 0
  let s := cut.reverse.foldl State.mtpUndo s
  { s with mono := s.mono + wait, store := { s.store with writing := [] } }

end Sys2Proof.Machine
end

