-- ==== Sys2Proof/Machine/Profile.lean ====
section
/-!
DEFINITION. Arithmetic of bit-loading profiles (R162 to R170, R708), of the choice of entropies (R221) and of burst windows
(R288, R301), in exact integers.
-/
namespace Sys2Proof.Machine

/-! Codes (Table 5.4). -/

/-- Codeword length n of a code. -/
def codeN : Nat → Nat
  | 1 => 34816 | 2 => 38912 | _ => 40960

/-- Information bits k of a code. -/
def codeK : Nat → Nat
  | 1 => 30720 | _ => 32768

/-- The rate of a code as a fraction in lowest terms. -/
def codeRate : Nat → Nat × Nat
  | 1 => (15, 17) | 2 => (16, 19) | _ => (4, 5)

/-- The decode latency F of a code in ns. -/
def codeF : Nat → Nat
  | 1 => 2300 | 2 => 2700 | _ => 3100

/-- The pre-FEC BER threshold of an engine's code in 10^-6; in compatibility mode that of CFEC (R199). -/
def EngCfg.threshold (c : EngCfg) : Nat :=
  if c.mode = 2 then 12200 else match c.code with | 1 => 20000 | 2 => 27000 | _ => 36000

/-- G of R221 in 0.1 dB. -/
def codeGap : Nat → Nat
  | 1 => 16 | 2 => 11 | _ => 6

/-- The decode latency of an engine. -/
def EngCfg.latency (c : EngCfg) : Nat := codeF c.code

/-- The symbol rate in units of 10^-5 GBd: SYMBOL_RATE, or the fixed rate of compatibility mode (R198, R240). -/
def EngCfg.rateE4 (c : EngCfg) : Nat := if c.mode = 2 then 5984375 else 10000 * c.symRate

/-- Carriers of an engine: the subcarriers, or the single carrier of compatibility mode (R198, R240). -/
def EngCfg.carriers (c : EngCfg) : Nat := if c.mode = 2 then 1 else c.subs

/-- Symbol blocks of all carriers together in chamber `k` of a symbol grid: 1 280 ns x B symbols a chamber, in blocks of 64 (R202). -/
def EngCfg.blocksIn (c : EngCfg) (k : Nat) : Nat := (k + 1) * c.rateE4 / 5000 - k * c.rateE4 / 5000

/-- The configuration that the engine has or that a scheduled commit brings. -/
def Engine.lastCfg (e : Engine) : EngCfg := match e.nextCfg with | some x => x.2 | none => e.cfg

/-! Frame and net payload (R162, R708). I_s = `h * c.bitNum / c.bitDen`. -/

/-- Numerator of the information bits per unit of H and chamber (R162). -/
def EngCfg.bitNum (c : EngCfg) : Nat := c.symRate * 63 * (codeRate c.code).1

/-- Denominator of the same. -/
def EngCfg.bitDen (c : EngCfg) : Nat := 4 * max c.subs 1 * (codeRate c.code).2

/-- The sum of a list of entropies. -/
def hSum (l : List Nat) : Nat := l.foldl (· + ·) 0

/-- Slots of a set of subcarriers of the given entropies: the net payload in steps of 5 Gb/s, at most 640 (R49, R708). -/
def EngCfg.slotsOf (c : EngCfg) (hs : List Nat) : Nat := min 640 (hSum hs * c.bitNum * 127 / (c.bitDen * 128 * 6400))

/-- The entropies of the subcarriers of a mask. -/
def maskH (prof : List Nat) (mask : Nat) : List Nat :=
  (indices prof.length fun i => bitAt mask i).map fun i => (prof[i]?).getD 0

/-- Ng of the group of a mask (R49). -/
def EngCfg.groupSlots (c : EngCfg) (prof : List Nat) (mask : Nat) : Nat := c.slotsOf (maskH prof mask)

/-- Net payload in Mb/s, rounded down (R708). -/
def EngCfg.netMbps (c : EngCfg) (hs : List Nat) : Nat := hSum hs * c.bitNum * 127 * 1000 / (c.bitDen * 128 * 1280)

/-- ⌊I⌋ of a profile. -/
def EngCfg.frameBits (c : EngCfg) (hs : List Nat) : Nat := hSum hs * c.bitNum / c.bitDen

/-- I(c), the information bits of the frame of a chamber (R163). -/
def EngCfg.frameBitsAt (c : EngCfg) (hs : List Nat) (ch : Nat) : Nat :=
  (ch + 1) * (hSum hs * c.bitNum) / c.bitDen - ch * (hSum hs * c.bitNum) / c.bitDen

/-- Q_s of a subcarrier (R168). -/
def EngCfg.mapSlots (c : EngCfg) (h : Nat) : Nat := 127 * h * c.bitNum / (819200 * c.bitDen) + 1

/-- M_s of a subcarrier (R168). -/
def EngCfg.mapWords (c : EngCfg) (h : Nat) : Nat := ceilDiv (ceilDiv (57 * c.mapSlots h) 2) 64

/-- A of R168. -/
def EngCfg.areaWords (c : EngCfg) (hs : List Nat) : Int :=
  ((c.frameBits hs / 8192 : Nat) : Int) - 8 - ((hs.map c.mapWords).foldl (· + ·) 0 : Nat)

/-- Is a profile valid (R169)? -/
def EngCfg.profOk (c : EngCfg) (hs : List Nat) : Bool := decide (2 ≤ c.areaWords hs)

/-- The tag capacity T of a profile (R168). -/
def EngCfg.tagCap (c : EngCfg) (hs : List Nat) : Nat := min 64 (64 * (c.areaWords hs - 2) / 144).toNat

/-- MG, the management words of a frame (R168). -/
def EngCfg.mgmtWords (c : EngCfg) (hs : List Nat) : Nat :=
  min 20 (c.areaWords hs - (ceilDiv (144 * c.tagCap hs) 64 : Nat)).toNat

/-- A uniform profile. -/
def EngCfg.uniform (c : EngCfg) (h : Nat) : List Nat := List.replicate c.subs h

/-- H_CD in ns, rounded up (R68): D_SPAN x B x 4e-6. -/
def EngCfg.hcd (c : EngCfg) : Nat := ceilDiv (c.dspan * c.rateE4 * 4) 100000000000

/-- R_RES in ps/nm (R256): 1 000 000 / R_sc^2, at most 20 000. -/
def EngCfg.rres (c : EngCfg) : Nat := min 20000 (10 ^ 16 * c.carriers * c.carriers / max 1 (c.rateE4 * c.rateE4))

/-! The choice of entropies (R221). -/

/-- ⌊2^(j/16) x 2^80⌋. No value of 2^H - 1 lies nearer than one part in a million to a power 10^(x/100), so this precision decides
every comparison of R221 exactly. -/
def root16 : List Nat :=
  [1208925819614629174706176, 1262449538323130218023826, 1318342954508437536241608, 1376710983641058041929645,
   1437663186196213140458842, 1501313973305766833766690, 1567782821515142544767354, 1637194497048340952027905,
   1709679290002018430137083, 1785373258908223164731650, 1864418486124848636132437, 1946963344533188474553451,
   2033162776043200832893773, 2123178582429254239259825, 2217179729042271983476826, 2315342661968361904731962]

/-- Does an entropy of `k` sixteenths satisfy R221 for an SNR and a margin in 0.1 dB? -/
def snrAllows (code margin : Nat) (snr : Int) (k : Nat) : Bool :=
  let x := snr - (codeGap code : Int) - margin
  let v := ((root16[k % 16]?).getD 0) * 2 ^ (k / 16) - 2 ^ 80
  if x ≥ 0 then decide (v ^ 100 ≤ 10 ^ x.toNat * 2 ^ 8000) else decide (v ^ 100 * 10 ^ (-x).toNat ≤ 2 ^ 8000)

/-- The largest entropy that R221 allows, in sixteenths, or none where no value satisfies it. -/
def bestH (code margin : Nat) (snr : Int) : Option Nat :=
  ((List.range 65).map fun i => 96 - i).find? fun k => snrAllows code margin snr k

/-- The entropies R221 gives for a window. -/
def EngCfg.chooseH (c : EngCfg) (snrs : List Int) : List Nat := snrs.map fun x => (bestH c.code c.margin x).getD 32

/-! Decibels in rationals (R270, R278). -/

/-- The symbol rate in GBd. -/
def EngCfg.baud (c : EngCfg) : Rat := (c.rateE4 : Rat) / 100000

/-- 10^(x/100), the ratio of x tenths of a decibel, to 60 decimal places. -/
def ratioOf (x : Int) : Rat :=
  let r := (x % 100).toNat
  let q := x / 100
  let num : Nat := 1023292992280754130966275174819877827341164057237981308599425 ^ r * 10 ^ q.toNat
  let den : Nat := 10 ^ (60 * r) * 10 ^ (-q).toNat
  (num : Rat) / (den : Rat)

/-- A ratio in tenths of a decibel, to the nearest one between two bounds (the rounding is a DESIGN CHOICE, assumption 84). -/
def tenthsOf (lo hi : Nat) (x : Rat) : Nat :=
  match ((List.range (hi - lo)).map fun i => hi - i).find? fun (n : Nat) => decide (ratioOf (2 * (n : Int) - 1) ≤ x * x) with
  | some n => n
  | none => lo

/-- SNR_s of a subcarrier in 0.1 dB, from the mean squared error of its pilots (R270), within the 0 to 35 dB of Table 7.6. -/
def snrOf (err : Rat) : Int := if err ≤ 0 then 350 else (tenthsOf 0 350 (1 / err) : Nat)

/-- The OSNR estimate in 0.1 dB from the SNRs of a window and SNR_B2B, at `baud` GBd, within the 10 to 45 dB of Table 7.6; 0xFFFF where the
engine's SNR is at or above SNR_B2B (R278). -/
def osnrOf (snrs : List Int) (b2b : Nat) (baud : Rat) : Nat :=
  let mean : Rat := (snrs.map fun x => ratioOf (-x)).foldl (· + ·) 0 / ((max 1 snrs.length : Nat) : Rat)
  let ase : Rat := mean - ratioOf (-(b2b : Int))
  if ase ≤ 0 then 0xFFFF else tenthsOf 100 450 (baud * 2 / 25 / ase)

/-! Windows and bursts (R288, R299, R301). -/

/-- N_w in symbols, where it is a whole number in range (R288). -/
def EngCfg.windowLen (c : EngCfg) : Option Nat :=
  if c.subs = 0 ∨ 16 * c.symRate % c.subs ≠ 0 then none
  else
    let n := 16 * c.symRate / c.subs
    if 1024 ≤ n ∧ n ≤ 6400 then some n else none

/-- Payload symbol blocks of a burst (R299). -/
def blockCount (nw : Nat) : Nat := (nw - 336) / 64

/-- Coded bits G of a burst at H = k/16 (R301). -/
def burstBits (nw k : Nat) : Nat := 8 * k * (63 * blockCount nw / 64)

/-- Codewords of a burst (R301). -/
def burstWords (code nw k : Nat) : Nat := ceilDiv (burstBits nw k) (codeN code)

/-- Information bits I_b of a burst (R301). -/
def burstInfo (code nw k : Nat) : Nat := burstBits nw k - burstWords code nw k * (codeN code - codeK code)

/-- Bits of parts 1 to 3 for m slots (R301). -/
def burstNeed (m : Nat) : Nat := ceilDiv (16 * m + ceilDiv (25 * m) 2) 64 * 64 + 256 + 6400 * m

/-- m_w, the slots of a window (R301). -/
def windowSlots (code nw k : Nat) : Nat :=
  match ((List.range 11).map fun i => 10 - i).find? fun m => burstNeed m ≤ burstInfo code nw k with
  | some m => m
  | none => 0

/-- LEAF_SLOTS of a set of windows at H_MIN (R295). -/
def EngCfg.leafSlots (c : EngCfg) (wins : List Nat) (periodLog hMin : Nat) : Nat :=
  match c.windowLen with
  | none => 0
  | some nw =>
    if periodLog ≠ 0 then 0
    else windowSlots c.code nw hMin * ((wins.map fun b => (indices 8 fun w => bitAt b w).length).foldl (· + ·) 0)

/-- The subcarriers of a window set, as a mask. -/
def winMask (wins : List Nat) : Nat := ofBits (wins.map fun b => b != 0)

end Sys2Proof.Machine
end

