-- ==== Sys2Proof/Machine/Words.lean ====
section
/-!
DEFINITION. Step words (R95 to R97): their fields, the carrier codes of Table 3.3, the words the firmware compiles for a passage,
the images of scheduled commits, and the counters by group.
-/
namespace Sys2Proof.Machine

/-! Counters. -/

/-- The key of counter `k` of a group: unit, instance, position in the group's table. -/
def ctrKey (unit inst k : Nat) : Nat := (unit * 65536 + inst) * 64 + k

/-- Add `n` to a counter. -/
def State.bump (s : State) (unit inst k n : Nat) : State :=
  { s with cnt := tupd s.cnt (ctrKey unit inst k) 0 (· + BitVec.ofNat 64 n) }

/-- A counter's value. -/
def State.ctr (s : State) (unit inst k : Nat) : Ctr := tgetD s.cnt (ctrKey unit inst k) 0

/-- A unit of engine `n`. -/
def engUnit (n x : Nat) : Nat := islEng n * 256 + x

/-! Step words (Table 3.2). -/

/-- A step word from its fields. -/
def stepWord (operand target action slot period offset raw passage : Nat) : StepWord :=
  BitVec.ofNat 128
    (operand * 2 ^ 64 + target * 2 ^ 48 + action * 2 ^ 40 + slot * 2 ^ 27 + period * 2 ^ 23 + offset * 2 ^ 13 + raw * 2 ^ 12 + passage)

/-- Bits `[lo + n - 1 : lo]` of a word. -/
def wbits (w : StepWord) (lo n : Nat) : Nat := w.toNat / 2 ^ lo % 2 ^ n

def wOperand (w : StepWord) : Nat := wbits w 64 64
def wTarget (w : StepWord) : Nat := wbits w 48 16
def wAction (w : StepWord) : Nat := wbits w 40 8
def wSlot (w : StepWord) : Nat := wbits w 27 13
def wPeriod (w : StepWord) : Nat := wbits w 23 4
def wOffset (w : StepWord) : Nat := wbits w 13 10
def wRaw (w : StepWord) : Bool := w.getLsbD 12
def wPassage (w : StepWord) : Nat := wbits w 0 12

/-- Bits `[lo + n - 1 : lo]` of the operand. -/
def wop (w : StepWord) (lo n : Nat) : Nat := wbits w (64 + lo) n

/-- A timed step (R92). -/
def wTimed (w : StepWord) : Bool := decide (wPeriod w ≤ 10)

/-- The SLOT of an action that takes none. -/
def noSlot : Nat := 0x1FFF

/-- A standing word compiled by the firmware for a passage. -/
def standing (operand target action slot passage : Nat) : StepWord := stepWord operand target action slot 0xF 0 0 passage

/-! Carriers (R96). -/

/-- The lowest bit set in a mask. -/
def lowestBit (mask : Nat) : Nat := ((List.range 16).find? fun i => bitAt mask i).getD 0

/-- Is a KIND 3 endpoint a leaf carrier: an ingress of a hub that names a leaf, or an egress of a leaf (R303)? -/
def State.leafCarrier (s : State) (e : Endpoint) (egress : Bool) : Option Nat :=
  let m := (s.eng e.index).mp
  if e.kind ≠ 3 then none
  else if m.role = 1 ∧ egress = false then some e.leaf
  else if m.role = 2 ∧ egress = true then some m.leafId
  else none

/-- The handle of a FlexE client is its client number; the code names it with its group through FLEXE_ENTRY (R96). -/
def State.carrierCode (s : State) (e : Endpoint) (egress : Bool) (handle : Nat) : Nat :=
  match e.kind with
  | 1 => 0x100 + e.index
  | 2 => 0x200 + handle
  | 3 =>
    match s.leafCarrier e egress with
    | some leaf => (8 + e.index) * 256 + leaf
    | none => 0x300 + 16 * e.index + lowestBit e.sub
  | _ => 0x400 + e.index

/-! Images (R94, R105, R117). -/

/-- The active bank of an island. -/
def State.bank (s : State) (isl : Nat) : Bank := tgetD s.tab.banks isl {}

/-- The words of an island: firmware region, then raw region. -/
def Bank.words (b : Bank) : List StepWord := b.fw.map FwWord.w ++ b.raw

/-- Words per bank (Table 3.1, R91). -/
def bankSize (isl : Nat) : Nat :=
  if isl = 0 then 256 else if isl = 1 ∨ isl = 12 then 4096 else if isl = 2 then 73728
  else if 3 ≤ isl ∧ isl ≤ 10 then 16384 else if isl = 11 then 32768 else 8192

/-- Timed steps per chamber (Table 3.1, R91). -/
def stepBudget (isl : Nat) : Nat :=
  if isl = 0 then 16 else if isl = 1 ∨ isl = 12 ∨ isl = 14 then 64 else if isl = 2 then 1024 else 256

/-- Apply one edit to a raw region (R105). -/
def rawEdit (raw : List StepWord) : RawOp → List StepWord
  | .write first ws => raw.take first ++ ws ++ raw.drop (first + ws.length)
  | .trunc n => raw.take n
  | .dropEngine n => raw.filter fun w => unitIsland (wTarget w) != islEng n

/-- Keep timed words behind the standing ones, in ascending order of OFFSET (R98). -/
def fwOrder (l : List FwWord) : List FwWord :=
  (l.filter fun x => !(wTimed x.w)) ++ sortBy (fun a b => decide (wOffset a.w ≤ wOffset b.w)) (l.filter fun x => wTimed x.w)

/-- Remove firmware words of an island. -/
def dropWords (banks : Tab Bank) (isl : Nat) (p : FwWord → Bool) : Tab Bank :=
  tmod banks isl fun b => { b with fw := b.fw.filter fun x => !(p x) }

/-- Add firmware words to an island. -/
def addWords (banks : Tab Bank) (isl : Nat) (ws : List FwWord) : Tab Bank :=
  if ws.isEmpty then banks else tupd banks isl {} fun b => { b with fw := fwOrder (b.fw ++ ws) }

/-- Remove the words that serve a passage from every island. -/
def dropPassage (banks : Tab Bank) (id : Nat) (p : FwWord → Bool) : Tab Bank :=
  tmapv banks fun _ b => { b with fw := b.fw.filter fun x => !(x.serves == some id && p x) }

/-- The words of one island that a passage's slots need: island and slot words of an endpoint (Tables 3.4, 3.13). -/
def State.slotWords (s : State) (id : Nat) (p : Passage) (e : Endpoint) (egress : Bool) (handle : Nat) : Nat × List StepWord :=
  let code := s.carrierCode e egress handle
  let dir := bit egress
  match e.kind with
  | 3 =>
    let leaf := match s.leafCarrier e egress with | some l => 2 ^ 31 + l * 2 ^ 24 | none => 0
    (islEng e.index,
     (List.range p.slots).map fun k =>
       standing (e.sub * 2 ^ 48 + p.trail * 2 ^ 32 + leaf) (engUnit e.index 3) (if egress then 0x20 else 0x21) (e.first + k) id)
  | 4 =>
    (islUlink,
     (List.range p.slots).map fun k => standing (dir * 2 ^ 63 + p.trail * 2 ^ 32) (0x0E00 + e.index) 0x38 (e.first + k) id)
  | _ =>
    (islHost, (List.range p.slots).map fun k => standing (code * 2 ^ 52 + dir * 2 ^ 51) 0x0B80 0x30 k id)

/-- Is the egress toward the line (Table 2.5)? -/
def Passage.towardLine (p : Passage) : Bool := p.eg.kind == 3 || p.eg.kind == 4

/-- The chambers a passage's blocks spend in the switch (R75). -/
def Passage.delay (p : Passage) : Nat := 2 + p.skew

/-- First slot of an endpoint's run: 0 on a port or client. -/
def Endpoint.run (e : Endpoint) : Nat := if e.kind = 3 ∨ e.kind = 4 then e.first else 0

/-- The switch words of one leg of a passage (Table 3.4). -/
def switchWords (id : Nat) (p : Passage) (inC inF outC outF leg : Nat) : List StepWord :=
  (List.range p.slots).map fun k =>
    standing
      (inC * 2 ^ 52 + (inF + k) * 2 ^ 42 + outC * 2 ^ 30 + (outF + k) * 2 ^ 20 + p.delay * 2 ^ 16 + leg * 2 ^ 15)
      0x0200 (if p.towardLine then 0x10 else 0x11) ((p.plane[k]?).getD 0) id

/-- The engine of the passage's KIND 3 endpoint that the cipher serves. -/
def Passage.cipherEngine (p : Passage) : Nat := if p.eg.kind = 3 then p.eg.index else p.ing.index

/-- DIR of a CIPHER step: 1 decrypts, when the engine is the ingress (R55). -/
def Passage.decrypts (p : Passage) : Bool := p.eg.kind != 3

/-- The CIPHER word of an encrypted passage. -/
def cipherWord (id : Nat) (p : Passage) : List StepWord :=
  if p.mode = 0 then []
  else
    [standing
      (p.key.getD 0 * 2 ^ 54 + bit p.decrypts * 2 ^ 53 + p.mode * 2 ^ 51 + p.slots * 2 ^ 41 + p.cipherEngine * 2 ^ 38 + p.lane * 2 ^ 33)
      0x0203 0x18 noSlot id]

/-- The words of a passage's working leg, island by island (Table 3.13). `h` gives the FlexE handles of ingress and egress. -/
def State.compile (s : State) (id : Nat) (p : Passage) (h : Nat × Nat) : List (Nat × List StepWord) :=
  let a := s.slotWords id p p.ing false h.1
  let b := s.slotWords id p p.eg true h.2
  let sw := switchWords id p (s.carrierCode p.ing false h.1) p.ing.run (s.carrierCode p.eg true h.2) p.eg.run 0
  [a, b,
   (islFab,
    sw ++ [standing (p.base * 2 ^ 48 + p.slots * p.delay * 2 ^ 32) 0x0201 0x13 noSlot id] ++ cipherWord id p)]

/-- The endpoint of a protect leg. -/
def ProtLeg.endpoint (l : ProtLeg) : Endpoint := { kind := 3, index := l.engine, sub := l.sub, leaf := 0xFFFF, first := l.first }

/-- Is the KIND 3 endpoint of a protected passage its ingress (the selecting side)? With KIND 3 at both ends the working leg is the ingress
(DESIGN CHOICE, assumption 82: R83 speaks of one KIND 3 endpoint). -/
def Passage.selects (p : Passage) : Bool := p.ing.kind == 3

/-- The SELECT word of a protected passage. -/
def State.selectWord (s : State) (id : Nat) (p : Passage) (l : ProtLeg) : StepWord :=
  let e := if p.selects then p.ing else p.eg
  standing
    (s.carrierCode e (!p.selects) 0 * 2 ^ 52 + s.carrierCode l.endpoint (!p.selects) 0 * 2 ^ 40 + l.wtr * 2 ^ 28 + p.force * 2 ^ 26 +
      p.skew * 2 ^ 22)
    0x0200 0x12 noSlot id

/-- The words a protect leg adds: its slot words, LEG 1 switch words and the SELECT word. -/
def State.compileLeg (s : State) (id : Nat) (p : Passage) (l : ProtLeg) (h : Nat × Nat) : List (Nat × List StepWord) :=
  let e := l.endpoint
  let a := s.slotWords id p e (!p.selects) 0
  let sw := if p.selects then
      switchWords id p (s.carrierCode e false 0) e.run (s.carrierCode p.eg true h.2) p.eg.run 1
    else switchWords id p (s.carrierCode p.ing false h.1) p.ing.run (s.carrierCode e true 0) e.run 1
  [a, (islFab, sw ++ [s.selectWord id p l])]

/-- Is a word part of a protect leg: a LEG 1 switch word, SELECT, or a slot word of the leg's engine? -/
def isLegWord (l : ProtLeg) (w : StepWord) : Bool :=
  wAction w == 0x12 || ((wAction w == 0x10 || wAction w == 0x11) && bitAt (wOperand w) 15) || unitIsland (wTarget w) == islEng l.engine

/-- Add words that serve a passage. -/
def addServing (banks : Tab Bank) (id : Nat) (l : List (Nat × List StepWord)) : Tab Bank :=
  l.foldl (fun b x => addWords b x.1 (x.2.map fun w => { w := w, serves := some id })) banks

/-- Add words that serve no passage. -/
def addPlain (banks : Tab Bank) (isl : Nat) (ws : List StepWord) : Tab Bank := addWords banks isl (ws.map fun w => { w := w })

/-- The TIMED window words of a leaf on an engine: HUB_WINDOW on a hub, LEAF_WINDOW on a leaf (R293). -/
def windowWords (n leaf : Nat) (hub : Bool) (wins : List Nat) (periodLog offset : Nat) : List StepWord :=
  (List.range 16).flatMap fun sc =>
    (indices 8 fun w => bitAt ((wins[sc]?).getD 0) w).map fun w =>
      stepWord (sc * 2 ^ 60 + leaf * 2 ^ 53) (engUnit n (if hub then 1 else 0)) (if hub then 0x25 else 0x26) w periodLog offset 0 0

/-- The action and leaf of a window word. -/
def isWindowWord (leaf : Nat) (w : StepWord) : Bool :=
  (wAction w == 0x25 || wAction w == 0x26) && wop w 53 7 == leaf

/-- LOADING words of one direction. -/
def loadingWords (n : Nat) (rx : Bool) (prof : List Nat) : List StepWord :=
  (List.range prof.length).map fun i =>
    standing (i * 2 ^ 60 + (prof[i]?).getD 0 * 2 ^ 53) (engUnit n (bit rx)) 0x22 noSlot 0

/-- The PULSE word of an engine. -/
def pulseWord (n roll : Nat) : StepWord := standing (roll * 2 ^ 56) (engUnit n 0) 0x24 noSlot 0

/-- The CARRIER word of an engine. -/
def carrierWord (n : Nat) (on : Bool) (ramp : Nat) : StepWord := standing (bit on * 2 ^ 63 + ramp * 2 ^ 56) (engUnit n 4) 0x27 noSlot 0

/-- Replace the firmware words of an engine that an action and a target name. -/
def replaceWords (banks : Tab Bank) (isl action target : Nat) (ws : List StepWord) : Tab Bank :=
  addPlain (dropWords banks isl fun x => wAction x.w == action && wTarget x.w == target) isl ws

/-! Placement of CIPHER steps (R358). -/

/-- The CIPHER steps of a bank in one direction in the order of R358. -/
def cipherSteps (b : Bank) (dec : Bool) : List StepWord :=
  let pick := fun (l : List StepWord) => l.filter fun w => wAction w == 0x18 && bitAt (wOperand w) 53 == dec
  sortBy (fun x y => decide (wop x 33 5 ≤ wop y 33 5))
    (sortBy (fun x y => decide (wPassage x ≤ wPassage y)) (pick (b.fw.map fun x => x.w)) ++ pick b.raw)

/-- The CIPHER steps of a bank with the first unit and the length of each on the line of its direction. -/
def cipherUnits (b : Bank) : List (StepWord × Nat × Nat) :=
  [false, true].flatMap fun dec =>
    ((cipherSteps b dec).foldl
      (fun (acc : List (StepWord × Nat × Nat) × Nat) w =>
        let at_ := max (320 * (wop w 33 5 % 16)) acc.2
        (acc.1 ++ [(w, at_, wop w 41 10)], at_ + wop w 41 10))
      ([], 0)).1

/-- The logical lanes that a CIPHER step spans. -/
def lanesOf (x : StepWord × Nat × Nat) : List Nat :=
  let first := x.2.1 / 320
  (List.range ((x.2.1 + x.2.2 - 1) / 320 + 1 - first)).map fun k => (if bitAt (wOperand x.1) 53 then 16 else 0) + first + k

end Sys2Proof.Machine
end

