-- ==== Sys2Proof/Machine/Conv.lean ====
section
/-!
DEFINITION. Converters and their calibration runs (09_converters.md): triggers, the end of a run, and what abandons one.
-/
namespace Sys2Proof.Machine

/-- Change the calibration state of an engine. -/
def State.modCal (s : State) (n : Nat) (f : Cal → Cal) : State := s.modEng n fun e => { e with cal := f e.cal }

/-- A converter of an engine. -/
def State.conv (s : State) (n c : Nat) : Conv := ((s.eng n).cal.convs[c]?).getD {}

/-- Change a converter. -/
def State.modConv (s : State) (n c : Nat) (f : Conv → Conv) : State := s.modCal n fun k => { k with convs := k.convs.modify c f }

/-- Positions of a converter: ADC slices, or unary DAC cells (R322, R324). -/
def positions (c : Nat) : Nat := if c < 4 then 64 else 31

/-- The unit of a converter's set. -/
def convUnit (n c : Nat) : Nat := engUnit n (if c < 4 then 5 else 4)

/-- Count in a calibration counter (Table 9.8): 0 CAL_RUNS, 1 CAL_STEPS, 2 HANDOVER_RETRIES, 3 CAL_NO_SIGNAL_STEPS,
4 SLICE_FAILURES. They follow the counters of the ADC and DAC groups, one of each per converter; the DAC group has no
CAL_NO_SIGNAL_STEPS. -/
def State.calCount (s : State) (n c k : Nat) : State :=
  if c < 4 then s.bump (convUnit n c) 0 (12 + 4 * k + c) 1
  else s.bump (convUnit n c) 0 (4 + 4 * (if k = 4 then 3 else k) + (c - 4)) 1

/-- Has boot calibration of an engine completed (R330)? -/
def State.calDone (s : State) (n : Nat) : Bool := (s.eng n).cal.bootDone

/-- Has a converter of an engine failed (R331)? -/
def State.calFailed (s : State) (n : Nat) : Bool := (s.eng n).cal.convs.any fun c => c.dead

/-- Has converter 0 of an engine a rover or a reserve (R558)? -/
def State.converter0Spare (s : State) (n : Nat) : Bool := (s.conv n 0).rover.isSome || (s.conv n 0).reserve.isSome

/-- Engine `n` must run boot calibration (R330). -/
def State.needBootCal (s : State) (n : Nat) : State := s.modCal n fun _ => {}

/-- Runs wait while the island is not ACTIVE or is on its way (R334). -/
def State.runsHeld (s : State) (n : Nat) : Bool := (s.dark (islEng n * 256 + 0xFE)).isSome

/-- Start a run of a converter, the rover going offline. -/
def State.startRun (s : State) (n c trigger : Nat) (job : Bool) : State :=
  let t := (s.eng n).cal.temp
  s.modConv n c fun v => match v.rover with
    | some r => { v with
      held := none, temp := t, since := s.mono
      run := some { trigger := trigger, temp := t, chamber := s.chamber, since := s.mono, job := job, off := r, stepAt := s.mono } }
    | none => v

/-- A trigger of a converter (R333, R334): dropped with CAL_SKIPPED where there is no rover, held while a run is in progress or the
island is not ACTIVE, merged into a trigger already held. -/
def State.calTrigger (s : State) (n c cause : Nat) (job : Bool) : State :=
  let v := s.conv n c
  if !(s.calDone n) then s
  else if v.rover.isNone && v.run.isNone then s.raise (islEng n) .calSkipped n (le 1 c ++ le 1 cause)
  else if v.run.isSome || s.runsHeld n then
    s.modConv n c fun v => { v with held := match v.held with | some h => some (h.1, h.2 || job) | none => some (cause, job) }
  else s.startRun n c cause job

/-- A CAL_RUN job hears that a run of one of its converters ended (R346), with the status of a failure. -/
def State.runEnded (s : State) (n c : Nat) (bad : Option Nat) : State :=
  { s with jobs := { s.jobs with list := s.jobs.list.map fun j => match j.work with
      | .calRun m left named b =>
        if m = n ∧ left.contains c ∧ j.ended.isNone ∧ j.finish.isNone then
          let left := left.filter (· != c)
          let b := match b with | some x => some x | none => bad
          { j with
            work := .calRun m left named b, progress := (named.length - left.length) * 100 / max 1 named.length
            finish := if left.isEmpty then some (b.getD Status.ok.code, []) else none }
        else j
      | _ => j } }

/-- The held trigger of a converter starts its run (R334). -/
def State.startHeld (s : State) (n c : Nat) : State :=
  match (s.conv n c).held with
  | some h =>
    if (s.conv n c).rover.isNone then
      let s := (s.modConv n c fun v => { v with held := none }).raise (islEng n) .calSkipped n (le 1 c ++ le 1 h.1)
      if h.2 then s.runEnded n c (some Status.hwFault.code) else s
    else if (s.conv n c).run.isSome || s.runsHeld n then s else s.startRun n c h.1 h.2
  | none => s

/-- A run is abandoned (R340): the offline element becomes the rover, the next run starts after the last position taken over. Causes
1 power state, 2 cancel, 3 CALRES. -/
def State.abandonRun (s : State) (n c cause : Nat) : State :=
  match (s.conv n c).run with
  | none => s
  | some r =>
    let s := s.modConv n c fun v => { v with run := none, rover := some r.off }
    let s := s.raise (islEng n) .calAborted n (le 1 c ++ le 1 cause ++ le 1 r.step)
    let s := if r.job then s.runEnded n c (match cause with | 1 => some Status.blockDark.code | 3 => some Status.hwFault.code | _ => none) else s
    s.startHeld n c

/-- Every run of an engine is to be abandoned when its current step finishes (R340, R546). -/
def State.stopCal (s : State) (n cause : Nat) : State :=
  s.modCal n fun k => { k with convs := k.convs.map fun v => { v with run := v.run.map fun r => { r with stop := some cause } } }

/-- Is a calibration run of an engine in progress? -/
def State.calRuns (s : State) (n : Nat) : Bool := (s.eng n).cal.convs.any fun v => v.run.isSome

/-- A return from PARKED or DRIPLINE triggers every converter (R332). -/
def State.wakeTriggers (s : State) (n : Nat) : State :=
  (List.range 8).foldl (fun (s : State) c => (s.startHeld n c).calTrigger n c 5 false) s

/-- The first RX_LOCK after boot calibration triggers the ADCs (R333). -/
def State.lockTrigger (s : State) (n : Nat) : State :=
  if (s.eng n).cal.locked || !(s.calDone n) then s
  else (List.range 4).foldl (fun (s : State) c => s.calTrigger n c 4 false) (s.modCal n fun k => { k with locked := true })

/-- Does a converter meet a temperature (1) or interval (2) trigger (R333)? -/
def State.meets (s : State) (n c cause : Nat) : Bool :=
  let v := s.conv n c
  if cause = 1 then bitAt v.flags 0 && decide (((s.eng n).cal.temp - v.temp).natAbs > v.delta)
  else bitAt v.flags 1 && s.since v.since (v.hours * 3600 * secQ)

end Sys2Proof.Machine
end

