-- ==== Sys2Proof/Machine/Flags.lean ====
section
/-!
DEFINITION. The status and flag words that registers show: VARIANT, STRAPS, RST_CAUSE, DEVICE_STATE, DOORBELL_SUMMARY, the words
of a tenant page, and the SPI status word.
-/
namespace Sys2Proof.Machine

/-- A 32-bit word from its value. -/
def reg (x : Nat) : Reg := BitVec.ofNat 32 x

/-- VARIANT (Table 0.4, R8). -/
def Variant.word (v : Variant) : Reg :=
  reg (v.engineCount + v.engineMask * 2 ^ 8 + bit v.cipher * 2 ^ 16 + bit v.bond64 * 2 ^ 17 + bit v.safeMode * 2 ^ 18 +
    bit v.fuseValid * 2 ^ 19 + v.dieStep * 2 ^ 24)

/-- STRAPS. -/
def Boot.straps (b : Boot) : Nat := b.bootSrc + b.clkMode * 4

/-- RST_CAUSE. -/
def Boot.causeWord (b : Boot) : Reg := reg (b.cause + b.scope * 2 ^ 8 + b.unit * 2 ^ 16)

/-- DEVICE_STATE. -/
def State.deviceState (s : State) : Reg :=
  reg ((s.guide.active.getD 3) + bit s.guide.standby * 4 + s.boot.stage * 16)

/-- DOORBELL_SUMMARY. -/
def State.doorbellSummary (s : State) : Reg :=
  reg (ofBits ((List.range 16).map fun n => (s.page n).rspqTail != (s.page n).rspqHead) +
    ofBits ((List.range 16).map fun n => ((s.page n).intStatus &&& ~~~(s.page n).intMask) != 0) * 2 ^ 16)

/-- PAGE_ID. -/
def State.pageId (s : State) (n : Nat) : Reg := reg (n + bit (s.policy n).enabled * 16)

/-- RING_CTRL: RESET reads 0. -/
def Page.ringCtrl (p : Page) : Reg := reg (bit p.enable + p.cmdqLog * 16 + p.rspqLog * 256)

/-- RING_STATUS. -/
def Page.ringStatus (p : Page) : Reg :=
  reg (bit (p.enable && !p.halted) + bit p.halted * 2 + p.cause * 16 + p.index * 256)

/-- INT_CONFIG. -/
def Page.intConfig (p : Page) : Reg := reg (p.vector + p.pin * 256 + bit p.pinEn * 1024 + p.moderation * 65536)

/-- A register of tenant page `n` (Table 12.13); reserved offsets read 0 (R463). -/
def State.pageReg (s : State) (n off : Nat) : Reg :=
  let p := s.page n
  match off with
  | 0x00 => s.pageId n
  | 0x04 => p.ringCtrl
  | 0x08 => p.ringStatus
  | 0x0C => p.intConfig
  | 0x10 => p.cmdqBaseLo
  | 0x14 => p.cmdqBaseHi
  | 0x18 => p.cmdqTail.setWidth 32
  | 0x1C => p.cmdqHead.setWidth 32
  | 0x20 => p.rspqBaseLo
  | 0x24 => p.rspqBaseHi
  | 0x28 => p.rspqTail.setWidth 32
  | 0x2C => p.rspqHead.setWidth 32
  | 0x30 => p.intStatus
  | 0x34 => p.intMask
  | 0x38 => p.ctrSelect
  | 0x3C => p.shadowHi
  | _ => 0

/-- FW_VERSION: of the running firmware; the recovery service is no image (assumption 5). -/
def State.fwVersion (s : State) : Reg := if s.boot.stage = 0xB ∨ s.boot.stage = 0xF then s.boot.running.fwVersion else 0

/-- A register of the global block (Table 12.12); reserved offsets read 0 (R463). CHAMBER_LO's latch is the read's own. -/
def State.globalReg (s : State) (off : Nat) : Reg :=
  match off with
  | 0x00 => 0xAF150100
  | 0x04 => s.variant.word
  | 0x08 => reg s.boot.straps
  | 0x0C => s.boot.causeWord
  | 0x10 => s.com.scratch0
  | 0x14 => s.com.scratch1
  | 0x18 => s.doorbellSummary
  | 0x1C => s.deviceState
  | 0x20 => reg (s.chamber % 2 ^ 32)
  | 0x24 => s.com.chamberHi
  | 0x28 => reg s.generation
  | 0x2C => reg s.node
  | 0x30 => s.fwVersion
  | 0x34 => reg s.log.evtWr
  | 0x38 => reg s.log.evtRd
  | 0x3C => s.com.evtThreshold
  | 0x9000 => s.com.pba.setWidth 32
  | 0x9004 => (s.com.pba >>> 32).setWidth 32
  | _ =>
    if 0x8000 ≤ off ∧ off < 0x8400 then
      let w := (off - 0x8000) / 4
      tgetD s.com.msix w (if w % 4 = 3 then 1 else 0)
    else 0

/-- CMD_SPACE of a packet target: no packet is held and fewer than four responses wait (R435). -/
def State.cmdSpace (s : State) (t : Target) (v : Via) : Bool :=
  decide (t.responses.length < 4) && !(s.com.received.any fun r => r.req.via == v)

/-- The status word of a packet target (Table 12.3). -/
def State.statusWord (s : State) (t : Target) (v : Via) : Nat :=
  bit (s.cmdSpace t v) + 2 * bit (!t.responses.isEmpty) + 4 * bit t.overrun + 8 * bit s.serving +
    16 * bit s.variant.safeMode + 32 * bit s.boot.loadFail + 256 * t.responses.length +
    65536 * (match t.responses with | r :: _ => 16 + r.payload.length | [] => 0)

end Sys2Proof.Machine
end

