-- ==== Sys2Proof/Machine/Aes.lean ====
section
/-!
DEFINITION. The algorithms the chapters name: AES-256 (FIPS 197), GCM (SP 800-38D, R353), CMAC (SP 800-38B, Table 11.9) and key
wrap (RFC 3394, R369). The standards are outside the specification (assumption 9). Blocks are 128-bit numbers, first byte most
significant.
-/
namespace Sys2Proof.Machine

/-! Bytes and blocks. -/

/-- The number a byte list spells, first byte most significant. -/
def unbe (l : List Byte) : Nat := l.foldl (fun a b => a * 256 + b.toNat) 0

/-- The `n` bytes of a number, most significant first. -/
def be (n x : Nat) : List Byte := (le n x).reverse

/-- Cut a list into pieces of `k` elements; `fuel` bounds their number. -/
def pieces {α : Type} (k : Nat) : Nat → List α → List (List α)
  | 0, _ => []
  | f + 1, l => if l.isEmpty then [] else l.take k :: pieces k f (l.drop k)

/-- The 128-bit blocks of a byte list; the last one is filled with zeros. -/
def blocks128 (l : List Byte) : List Nat := (pieces 16 (l.length + 1) l).map fun p => unbe (padTo 16 p)

/-! AES-256. A block, a round key and the state are 128-bit numbers; byte 0 is the most significant. -/

/-- The S-box of FIPS 197, 32 entries a row, the lowest entry in the low byte. -/
def sboxRows : List Nat :=
  [ 0xC072A49CAFA2D4ADF04759FA7DC982CA76ABD7FE2B670130C56F6BF27B777C63,
    0x75B227EBE28012079A059618C323C7041531D871F1E5A534CCF73F362693FDB7,
    0xCF584C4A39BECB6A5BB1FC20ED00D153842FE329B3D63B52A05A6E1B1A2C8309,
    0xD2F3FF1021DAB6BCF5389D928F40A351A89F3C507F02F94585334D43FBAAEFD0,
    0xDB0B5EDE14B8EE4688902A22DC4F816073195D643D7EA7C41744975FEC130CCD,
    0x08AE7A65EAF4566CA94ED58D6D37C8E779E4959162ACD3C25C2406490A3A32E0,
    0x9E1DC186B95735610EF6034866B53E708A8BBD4B1F74DDE8C6B4A61C2E2578BA,
    0x16BB54B00F2D99416842E6BF0D89A18CDF2855CEE9871E9B948ED9691198F8E1 ]

/-- The inverse S-box of FIPS 197, laid out as `sboxRows`. -/
def invSboxRows : List Nat :=
  [ 0xCBE9DEC444438E3487FF2F9B8239E37CFBD7F3819EA340BF38A53630D56A0952,
    0x25D18B6D49A25B76B224D92866A12E084EC3FA420B954CEE3D23C2A632947B54,
    0x849D8DA75746155EDAB9EDFD5048706C92B6655DCC5CA4D41698688664F6F872,
    0x6B8A130103BDAFC1020F3FCA8F1E2CD00645B3B80558E4F70AD3BC8C00ABD890,
    0x6EDF751CE837F9E28535ADE72274AC9673E6B4F0CECFF297EADC674F4111913A,
    0xF45ACD78FEC0DB9A2079D2C64B3E56FC1BBE18AA0E62B76F89C5291D711AF147,
    0xEF9CC9939F7AE52D0D4AB519A97F51605FEC8027591012B131C7078833A8DD1F,
    0x7D0C2155631469E126D677BA7E042B17619953833CBBEBC8B0F52AAE4D3BE0A0 ]

/-- One entry of an S-box. -/
def boxAt (rows : List Nat) (a : Nat) : Nat := ((rows[a / 32]?).getD 0) >>> (8 * (a % 32)) &&& 0xFF

/-- Byte `i` of a block. -/
def blockByte (x i : Nat) : Nat := x >>> (120 - 8 * i) &&& 0xFF

/-- A block from its bytes, byte `i` being `f i`. -/
def blockOf (f : Nat → Nat) : Nat := foldN (fun r i => r * 256 + f i) 0 (List.range 16)

/-- SubBytes and ShiftRows: byte `i` is the S-box entry of byte `i + 4 (i mod 4)` modulo 16. -/
def subShift (x : Nat) : Nat := blockOf fun i => boxAt sboxRows (blockByte x ((i + 4 * (i % 4)) % 16))

/-- The inverses of ShiftRows and SubBytes. -/
def invSubShift (x : Nat) : Nat := blockOf fun i => boxAt invSboxRows (blockByte x ((i + 12 * (i % 4)) % 16))

/-- A byte value in every byte of a block. -/
def everyByte (b : Nat) : Nat := b * 0x01010101010101010101010101010101

/-- Every byte of a block times x in GF(2^8) modulo x^8 + x^4 + x^3 + x + 1. -/
def xtime (x : Nat) : Nat := ((x &&& everyByte 0x7F) <<< 1) ^^^ (((x >>> 7) &&& everyByte 1) * 0x1B)

/-- Every column rotated by one byte: byte `i` of a column becomes byte `i + 1`. -/
def rotColumns (x : Nat) : Nat :=
  ((x &&& 0x00FFFFFF00FFFFFF00FFFFFF00FFFFFF) <<< 8) ||| ((x >>> 24) &&& 0x000000FF000000FF000000FF000000FF)

/-- MixColumns: 2 a + 3 b + c + d in every column. -/
def mixColumns (x : Nat) : Nat :=
  forced (rotColumns x) fun r1 => forced (rotColumns r1) fun r2 => xtime (x ^^^ r1) ^^^ r1 ^^^ r2 ^^^ rotColumns r2

/-- The inverse of MixColumns. -/
def invMixColumns (x : Nat) : Nat :=
  forced (rotColumns (rotColumns x)) fun r2 => forced (x ^^^ xtime (xtime (x ^^^ r2))) mixColumns

/-- SubWord on a 32-bit word. -/
def subWord (w : Nat) : Nat :=
  foldN (fun r i => r * 256 + boxAt sboxRows (w >>> (24 - 8 * i) &&& 0xFF)) 0 (List.range 4)

/-- RotWord on a 32-bit word. -/
def rotWord (w : Nat) : Nat := (w <<< 8 &&& 0xFFFFFFFF) ||| w >>> 24

/-- What is added to word `i - 8` of the key schedule, from word `i - 1`. -/
def scheduleStep (i w : Nat) : Nat :=
  if i % 8 = 0 then subWord (rotWord w) ^^^ (2 ^ (i / 8 - 1)) <<< 24
  else if i % 8 = 4 then subWord w
  else w

/-- The words of the key schedule after those in `ws` (newest first), for the word numbers given. -/
def scheduleWords : List Nat → List Nat → List Nat
  | [], ws => ws
  | i :: l, ws => forced (((ws[7]?).getD 0) ^^^ scheduleStep i ((ws[0]?).getD 0)) fun w => scheduleWords l (w :: ws)

/-- The round keys of a 32-byte key: 15 blocks. -/
def roundKeys (key : List Byte) : List Nat :=
  (pieces 4 15 (scheduleWords ((List.range 52).map (· + 8)) ((pieces 4 8 key).map unbe).reverse).reverse).map fun ws =>
    foldN (fun r w => r * 2 ^ 32 + w) 0 ws

/-- One AES-256 encryption under round keys. -/
def aesWith (rk : List Nat) (x : Nat) : Nat :=
  forced (foldN (fun y r => mixColumns (subShift y) ^^^ ((rk[r]?).getD 0)) (x ^^^ (rk[0]?).getD 0) ((List.range 13).map (· + 1)))
    fun y => subShift y ^^^ (rk[14]?).getD 0

/-- AES-256 encryption of a block. -/
def aes (key : List Byte) (x : Nat) : Nat := aesWith (roundKeys key) x

/-- One AES-256 decryption under round keys. -/
def aesInvWith (rk : List Nat) (x : Nat) : Nat :=
  foldN (fun y r => invMixColumns (invSubShift y ^^^ (rk[13 - r]?).getD 0)) (x ^^^ (rk[14]?).getD 0) (List.range 13) |>
    fun y => forced y fun z => invSubShift z ^^^ (rk[0]?).getD 0

/-- AES-256 decryption of a block. -/
def aesInv (key : List Byte) (x : Nat) : Nat := aesInvWith (roundKeys key) x

/-! CMAC. -/

/-- Doubling in GF(2^128) for CMAC. -/
def cmacDbl (x : Nat) : Nat := if x < 2 ^ 127 then x * 2 else (x * 2) % 2 ^ 128 ^^^ 0x87

/-- AES-CMAC with a 256-bit key: 16 bytes. -/
def cmac (key msg : List Byte) : List Byte :=
  let rk := roundKeys key
  let k1 := cmacDbl (aesWith rk 0)
  let k2 := cmacDbl k1
  let whole := decide (msg.length > 0) && msg.length % 16 == 0
  let bs := if whole then blocks128 msg else blocks128 (msg ++ [0x80])
  let last := (bs.getLast?.getD 0) ^^^ (if whole then k1 else k2)
  be 16 (aesWith rk (foldN (fun c b => aesWith rk (c ^^^ b)) 0 bs.dropLast ^^^ last))

/-! GCM. -/

/-- The product's sum `z` and shifted factor `v` over the bits left of `x`. -/
def gfMulFrom (x : Nat) : List Nat → Nat → Nat → Nat
  | [], z, _ => z
  | i :: l, z, v =>
    forced (if bitAt x (127 - i) then z ^^^ v else z) fun z' =>
      forced (if v % 2 = 1 then (v / 2) ^^^ (0xE1 * 2 ^ 120) else v / 2) fun v' => gfMulFrom x l z' v'

/-- Product in GF(2^128) in the bit order of GCM. -/
def gfMul (x y : Nat) : Nat := gfMulFrom x (List.range 128) 0 y

/-- GHASH of blocks under a subkey. -/
def ghash (h : Nat) (bs : List Nat) : Nat := foldN (fun a b => gfMul (a ^^^ b) h) 0 bs

/-- The key stream of GCM from a 96-bit IV, for `n` bytes. -/
def gcmStream (rk : List Nat) (iv n : Nat) : List Byte :=
  ((List.range (ceilDiv n 16)).flatMap fun i => be 16 (aesWith rk (iv * 2 ^ 32 + (i + 2) % 2 ^ 32))).take n

/-- Counter-mode text of GCM: its own inverse. -/
def gcmText (key : List Byte) (iv : Nat) (text : List Byte) : List Byte :=
  List.zipWith (· ^^^ ·) text (gcmStream (roundKeys key) iv text.length)

/-- The GHASH subkey of a key (R370). -/
def gcmSubkey (key : List Byte) : Nat := aes key 0

/-- The tag of GCM over additional data and ciphertext (R353). -/
def gcmTag (key : List Byte) (subkey iv : Nat) (aad ct : List Byte) : Nat :=
  aes key (iv * 2 ^ 32 + 1) ^^^
    ghash subkey (blocks128 aad ++ blocks128 ct ++ [aad.length * 8 * 2 ^ 64 + ct.length * 8])

/-! Key wrap. -/

/-- The initial value of RFC 3394. -/
def wrapIv : Nat := 0xA6A6A6A6A6A6A6A6

/-- The steps of key wrap over the semiblocks `rs`, with the running value `a`. -/
def wrapSteps (rk : List Nat) (n : Nat) : List Nat → Nat → List Nat → Nat × List Nat
  | [], a, rs => (a, rs)
  | k :: l, a, rs =>
    forced (aesWith rk (a * 2 ^ 64 + (rs[k % n]?).getD 0)) fun b =>
      forced (b / 2 ^ 64 ^^^ (k + 1)) fun a' => forced (b % 2 ^ 64) fun r => wrapSteps rk n l a' (rs.set (k % n) r)

/-- Wrap a key of semiblocks (RFC 3394). -/
def keyWrap (kek key : List Byte) : List Byte :=
  let rs := (pieces 8 key.length key).map unbe
  let r := wrapSteps (roundKeys kek) rs.length (List.range (6 * rs.length)) wrapIv rs
  be 8 r.1 ++ r.2.flatMap (be 8)

/-- The steps of key unwrap, the last step of the wrap first. -/
def unwrapSteps (rk : List Nat) (n : Nat) : List Nat → Nat → List Nat → Nat × List Nat
  | [], a, rs => (a, rs)
  | k :: l, a, rs =>
    forced (aesInvWith rk ((a ^^^ (k + 1)) * 2 ^ 64 + (rs[k % n]?).getD 0)) fun b =>
      forced (b / 2 ^ 64) fun a' => forced (b % 2 ^ 64) fun r => unwrapSteps rk n l a' (rs.set (k % n) r)

/-- Unwrap a key; none where the initial value is not recovered (R370). -/
def keyUnwrap (kek wrapped : List Byte) : Option (List Byte) :=
  let ws := (pieces 8 wrapped.length wrapped).map unbe
  let rs := ws.drop 1
  let r := unwrapSteps (roundKeys kek) rs.length (List.range (6 * rs.length)).reverse (ws.headD 0) rs
  if r.1 = wrapIv then some (r.2.flatMap (be 8)) else none

/-- KCV of a key: the first 4 bytes of the encryption of 0x5A5A...5A (R369). -/
def kcv (key : List Byte) : List Byte := (be 16 (aes key (0x5A5A5A5A5A5A5A5A * (2 ^ 64 + 1)))).take 4

end Sys2Proof.Machine
end

