-- ==== Sys2Proof/Machine/Keys.lean ====
section
/-!
DEFINITION. Key slots and bindings (R368 to R385) as the other chapters use them.
-/
namespace Sys2Proof.Machine

/-- Change the cipher's state. -/
def State.modCip (s : State) (f : Cipher → Cipher) : State := { s with cip := f s.cip }

/-- A key slot. -/
def State.keySlot (s : State) (k : Nat) : KeySlot := tgetD s.cip.slots k {}

/-- Change a key slot. -/
def State.modKey (s : State) (k : Nat) (f : KeySlot → KeySlot) : State := s.modCip fun c => { c with slots := tupd c.slots k {} f }

/-- A key slot enters a state. -/
def State.keyTo (s : State) (k : Nat) (st : KeySt) : State := s.modKey k fun x => { x with st := st }

/-- Zeroise a key slot: it becomes EMPTY (R372). -/
def State.keyEmpty (s : State) (k : Nat) : State :=
  s.modCip fun c => { c with slots := tdel c.slots k, mgmt := c.mgmt.filter fun e => e.2 != k }

/-- The cipher's record of a passage. -/
def State.cipPas (s : State) (id : Nat) : CipPas := tgetD s.cip.pas id {}

/-- Change the cipher's record of a passage. -/
def State.modCipPas (s : State) (id : Nat) (f : CipPas → CipPas) : State := s.modCip fun c => { c with pas := tupd c.pas id {} f }

/-- Does the part have a cipher? -/
def State.hasCipher (s : State) : Bool := (s.absent unitKeyStore).isNone

/-- A tenant's management key (R371). -/
def State.mgmtKey (s : State) (t : Nat) : Option (List Byte) := (tget s.cip.mgmt t).map fun k => (s.keySlot k).key

/-- The key slot of a prepared binding (R378). -/
def State.prepared (s : State) (tenant id : Nat) : Option Nat := (s.cip.prepared.find? fun e => e.1 == (tenant, id)).map Prod.snd

/-- The logical lane of a new encrypted passage: 0 or 16 (R358). -/
def pickLane (dec : Bool) : Nat := if dec then 16 else 0

/-- Does a key slot hold a traffic key of a tenant (R108, reason 14)? -/
def State.keyLoaded (s : State) (slot tenant : Nat) : Bool :=
  let k := s.keySlot slot
  k.st != .empty && k.owner == tenant && k.usage == 1

/-- A passage takes its prepared binding (R378). -/
def State.bindKey (s : State) (tenant id slot : Nat) : State :=
  let s := s.modCip fun c => { c with prepared := c.prepared.filter fun e => e.1 != (tenant, id), pas := tput c.pas id {} }
  let s := { s with
    cnt := s.cnt.filter fun e => e.1 / 64 != unitKeyStore * 65536 + id
    log := { s.log with bins := tdel s.log.bins (unitKeyStore * 65536 + id) } }
  s.keyTo slot .bound

/-- The key slot of a closing passage is RELEASING from Cs (R384). -/
def State.releaseKey (s : State) (id : Nat) : State :=
  match tget s.pas id with
  | some p => (match p.key with | some k => s.keyTo k .releasing | none => s)
  | none => s

/-- At FREE_CHAMBER the slot of a passage, those it still held and that of a scheduled rebind are LOADED (R384). -/
def State.freeKey (s : State) (id : Nat) : State :=
  match tget s.pas id with
  | some p =>
    match p.key with
    | some k =>
      let r := s.cipPas id
      let s : State := (k :: r.olds.map fun o => o.slot).foldl (fun (s : State) k => s.keyTo k .loaded) s
      let s := match r.rebind with | some x => s.keyTo x.1 .loaded | none => s
      s.modCip fun c => { c with pas := tdel c.pas id }
    | none => s
  | none => s

/-- The key slot with which a passage starts: that of a rebind due at or before its start chamber (R380). -/
def State.startKey (s : State) (id : Nat) (p : Passage) : Option Nat :=
  match (s.cipPas id).rebind with
  | some x => if p.st = 1 && chReached p.start x.2 then some x.1 else p.key
  | none => p.key

/-- A scheduled rebind takes effect at `cc`, or at the start chamber of a passage that starts later (R356, R380, R381). -/
def State.rebindKey (s : State) (id slot cc : Nat) : State :=
  match tget s.pas id with
  | none => s
  | some p =>
    if (s.cipPas id).rebind.isNone then s
    else
      let early := chReached p.start cc
      let old := p.key.getD 0
      let s := { s with pas := tmod s.pas id fun p => { p with key := some slot } }
      let s := s.modCipPas id fun r => { r with
        rebind := none, since := some (if early then p.start else cc), aged := false
        olds := if early then r.olds else r.olds ++ [{ slot := old, next := slot, cc := cc, decrypts := p.decrypts }] }
      s.keyTo old (if early then .loaded else .releasing)

/-- A scheduled rebind was aborted: its slot returns to LOADED (R382). -/
def State.rebindAborted (s : State) (id slot : Nat) : State :=
  if (s.cipPas id).rebind.isNone then s else (s.modCipPas id fun r => { r with rebind := none }).keyTo slot .loaded

/-- Move the Cc of a passage's scheduled rebind (R118). -/
def State.rebindAt (s : State) (id cc : Nat) : State := s.modCipPas id fun r => { r with rebind := r.rebind.map fun x => (x.1, cc) }

end Sys2Proof.Machine
end

