-- ==== Sys2Proof/Machine/MemMap.lean ====
section
/-!
DEFINITION. The memory instances of Table 13.1, their geometry and their block-valid bits (13_memory.md).
-/
namespace Sys2Proof.Machine

/-- The engine whose memory a unit is. -/
def memEngine (u : Nat) : Option Nat :=
  if u % 256 = 6 ∧ 3 ≤ u / 256 ∧ u / 256 ≤ 10 then some (u / 256 - 3) else none

/-- The on-chip memories in ascending unit identifier (R490). -/
def onchipUnits : List Nat :=
  [0x0001, 0x0100, 0x0101, 0x0106, 0x0201, 0x0202, 0x0204] ++ (List.range 8).map (fun n => islEng n * 256 + 6) ++ [0x0C02]

/-- Data capacity of an on-chip memory in bytes (Table 13.1). -/
def memSize (u : Nat) : Nat :=
  if (memEngine u).isSome then 5 * 2 ^ 20
  else match u with
    | 0x0001 => 2 ^ 18 | 0x0100 | 0x0101 => 3 * 2 ^ 20 | 0x0106 => 11 * 2 ^ 18 | 0x0201 => 2 ^ 25 | 0x0202 => 2 ^ 23
    | 0x0204 => 6 * 2 ^ 20 | 0x0C02 => 2 ^ 20 | _ => 0

/-- Is a memory line-coded (Table 13.1)? -/
def lineCoded (u : Nat) : Bool := (memEngine u).isSome || u == 0x0201 || u == 0x0204 || u == 0x0C00

/-- Is a unit and instance in Table 13.1 (R475)? -/
def memListed (u inst : Nat) : Bool := if u = 0x0C00 then inst < 2 else onchipUnits.contains u && inst == 0

/-- Block size in bytes. -/
def memBlock (u : Nat) : Nat := if u = 0x0C00 then 4096 else 256

/-- The table key of an instance. -/
def memKey (u inst : Nat) : Nat := 2 * u + inst

/-- The record that holds the contents of an instance: both LPDDR6 channels share one, addressed by device address. -/
def dataKey (u inst : Nat) : Nat := if u = 0x0C00 then 2 * u else 2 * u + inst

/-- The channel of a device address (R485). -/
def lpChannel (a : Nat) : Nat := a / 4096 % 2

/-! Sets of blocks. -/

/-- Add the blocks from `lo` up to `hi`. -/
def spanAdd : Spans → Nat → Nat → Spans
  | [], lo, hi => [(lo, hi)]
  | (a, b) :: t, lo, hi =>
    if hi < a then (lo, hi) :: (a, b) :: t else if b < lo then (a, b) :: spanAdd t lo hi else spanAdd t (min a lo) (max b hi)

/-- Add blocks, if there are any. -/
def spanPut (t : Spans) (lo hi : Nat) : Spans := if lo < hi then spanAdd t lo hi else t

/-- Is a block in the set? -/
def spanHas (t : Spans) (k : Nat) : Bool := t.any fun e => decide (e.1 ≤ k) && decide (k < e.2)

/-- The first block of the set at or after `k`. -/
def spanNext (t : Spans) (k : Nat) : Option Nat := (t.find? fun e => decide (k < e.2)).map fun e => max k e.1

/-! Instances. -/

/-- A memory instance. -/
def State.memInst (s : State) (key : Nat) : MemInst := tgetD s.mem.insts key {}

/-- The blocks of a memory that are valid: the block-valid map itself has no flags, and hardware initialises it whole (R483; DEDUCED,
assumption 89). -/
def State.validBlocks (s : State) (u : Nat) : Spans := if u = 0x0C02 then [(0, 4096)] else (s.memInst (2 * u)).valid

/-- Change a memory instance. -/
def State.modInst (s : State) (key : Nat) (f : MemInst → MemInst) : State :=
  { s with mem := { s.mem with insts := tupd s.mem.insts key {} f } }

/-- Change the memory state. -/
def State.modMem (s : State) (f : Mem → Mem) : State := { s with mem := f s.mem }

/-- Write bytes within one memory under R482: every block that they meet is valid afterwards, and one that was invalid is zero
outside them. The contents of an invalid block are not kept here, so they read as zero already. -/
def State.memWrite (s : State) (u inst addr : Nat) (bytes : List Byte) : State :=
  let b := memBlock u
  let lo := addr / b
  let hi := (addr + bytes.length + b - 1) / b
  let first := fun (m : MemInst) (k : Nat) =>
    bytes.length != 0 && lo ≤ k && k < hi && !(spanHas m.valid k) && !(decide (addr ≤ k * b) && decide ((k + 1) * b ≤ addr + bytes.length))
  let fills := fun (m : MemInst) => [lo, hi - 1].eraseDups.filter (first m)
  let key := fun (k : Nat) => if u = 0x0C00 then memKey u (lpChannel (k * b)) else memKey u inst
  let s := (fills (s.memInst (dataKey u inst))).foldl
    (fun (s : State) k => s.modInst (key k) fun m => { m with partials := m.partials + 1 }) s
  s.modInst (dataKey u inst) fun m => { m with
    data := Memory.writeL m.data addr bytes
    valid := if bytes.isEmpty then m.valid else spanPut m.valid lo hi
    poison := m.poison.filter fun a => !(decide (addr ≤ a) && decide (a < addr + bytes.length)) }

/-- Fill whole blocks with zeros and set them valid. -/
def MemInst.fillZero (m : MemInst) (b lo hi : Nat) : MemInst :=
  { m with
    data := m.data.filter fun c => !(decide (lo * b ≤ c.1) && decide (c.1 < hi * b))
    poison := m.poison.filter fun a => !(decide (lo * b ≤ a) && decide (a < hi * b))
    valid := spanPut m.valid lo hi }

/-- The firmware's fill of an island's memories (R508): Lamp retained memory only where its blocks are invalid, LPDDR6 in its fixed
regions, where it is ready. -/
def State.fillIsland (s : State) (i : Nat) : State :=
  let s := (onchipUnits.filter fun u => u / 256 == i && u != 0x0C02 && (s.absent u).isNone).foldl
    (fun (s : State) u => s.modInst (2 * u) fun m =>
      if u = 0x0001 then { m with valid := spanPut m.valid 0 (memSize u / 256) } else m.fillZero 256 0 (memSize u / 256)) s
  if i = islMem ∧ s.mem.ready then s.modInst (2 * 0x0C00) fun m => m.fillZero 4096 0 (2 ^ 30 / 4096) else s

/-- The CRC-32 over a memory's valid blocks: the signature of its bank (R549). Unlisted bytes read zero. -/
def State.bankCrc (s : State) (u : Nat) : Nat :=
  let m := s.memInst (2 * u)
  m.valid.foldl (fun c e => crcSpan m.data c (e.1 * memBlock u) (e.2 * memBlock u)) 0xFFFFFFFF ^^^ 0xFFFFFFFF

/-- A retention mismatch clears every block-valid bit of a bank (R550). -/
def State.invalidate (s : State) (u : Nat) : State := s.modInst (2 * u) fun m => { m with valid := [], data := [], poison := [] }

/-- The firmware fills the memories before it serves commands (R508); the on-chip scrubber's first pass begins. -/
def State.fillMemories (s : State) : State :=
  ((List.range 15).foldl (fun (s : State) i => s.fillIsland i) s).modMem fun m =>
    { m with onchip := { m.onchip with key := 0, block := 0, start := s.mono, at_ := s.mono, late := false } }

/-- The on-chip flag arrays and buckets of an island are cleared with it (R479, R489); Lamp retained memory keeps its flags. -/
def State.clearMemories (s : State) (i : Nat) : State :=
  if i = islMem then
    { s with mem := { s.mem with
      ready := false
      insts := s.mem.insts.map fun e =>
        if unitIsland (e.1 / 2) = i then (e.1, { e.2 with valid := [], data := [], poison := [], bucket := 0, recent := [] }) else e } }
  else
    { s with mem := { s.mem with
      insts := s.mem.insts.map fun e =>
        if unitIsland (e.1 / 2) = i ∧ e.1 / 2 ≠ 0x0001 then (e.1, { ({} : MemInst) with suspects := e.2.suspects }) else e } }

end Sys2Proof.Machine
end

