-- ==== Sys2Proof/Machine/Islands.lean ====
section
/-!
DEFINITION. What other chapters ask of the engines, the timing inputs, the host ports, the FlexE groups and the Umran ports.
-/
namespace Sys2Proof.Machine

/-- Is engine `n` enabled? -/
def State.enabled (s : State) (n : Nat) : Bool := (s.eng n).tx.enabled

/-- Has domain time been set since power-up (Table 14.7, LAST_TAI)? -/
def State.timeWasSet (s : State) : Bool := s.tim.wasSet

/-- Is a step of domain time held off (R390): a passage open or pending, a commit scheduled, a key slot BOUND or RELEASING? -/
def State.stepBlocked (s : State) : Bool :=
  !s.pas.isEmpty || !s.tab.commits.isEmpty || (tvals s.cip.slots).any fun k => k.st == .bound || k.st == .releasing

/-- The unit of a timing input (Tables 1.2, 11.3). -/
def inputUnit (i : Nat) : Option Nat :=
  if i ≤ 8 then some (0x0D00 + i)
  else if 16 ≤ i ∧ i ≤ 23 then some (islEng (i - 16) * 256 + 0xFE)
  else if 24 ≤ i ∧ i ≤ 27 then some (0x0E00 + (i - 24))
  else if 32 ≤ i ∧ i ≤ 39 then some (islEng (i - 32) * 256 + 0xFE)
  else if 64 ≤ i ∧ i ≤ 191 then some (0x0B00 + (i - 64))
  else none

/-- One input. -/
def State.input (s : State) (i : Nat) : TimeInput := tgetD s.tim.inputs i {}

/-- The whole second nearest to a domain time in ps, less that time. -/
def toSecond (ps : Int) : Int :=
  let r := ps % 1000000000000
  if 2 * r < 1000000000000 then -r else 1000000000000 - r

/-- Slots of a port type (Table 4.1, R32). -/
def phySlots (phy : Nat) : Nat := 20 * 2 ^ phy

/-- Lanes of a port type at a rate (Table 4.1): RATE 1 is 212.5 Gb/s, RATE 2 106.25 Gb/s. -/
def phyLanes (phy rate : Nat) : Nat := if rate = 1 then 2 ^ (phy - 1) else 2 ^ phy

/-- Is a PHY and RATE pair in Table 4.1? -/
def phyOk (phy rate : Nat) : Bool := 1 ≤ phy && ((rate == 1 && phy ≤ 4) || (rate == 2 && phy ≤ 3))

/-- The lanes of a port. -/
def HostPort.count (p : HostPort) : Nat := phyLanes p.phy p.rate

/-- How the transmit coder of a port is set (R130, R136, R138). -/
def HostPort.txCfg (p : HostPort) : PcsCfg :=
  { phy := p.phy, lanes := p.count, precode := p.flags % 2 == 1, inverted := p.txInvert, degraded := p.degraded }

/-- How its receive decoder is set. -/
def HostPort.rxCfg (p : HostPort) : PcsCfg :=
  { phy := p.phy, lanes := p.count, precode := p.flags / 2 % 2 == 1, inverted := p.rxInvert }

/-- A configured host port by its lowest lane. -/
def State.port (s : State) (lane : Nat) : Option HostPort := tget s.host.ports lane

/-- The port that holds a lane: its lowest lane and its record. -/
def State.portOf (s : State) (lane : Nat) : Option (Nat × HostPort) :=
  s.host.ports.find? fun e => decide (e.1 ≤ lane) && decide (lane < e.1 + e.2.count)

/-- Is a host lane the lowest lane of a configured port? -/
def State.portAt (s : State) (lane : Nat) : Bool := thas s.host.ports lane

/-- Is an engine in compatibility mode or in hub role (R393)? -/
def State.noTwoWay (s : State) (n : Nat) : Bool :=
  ((s.eng n).cfg.configured && (s.eng n).cfg.mode == 2) || (s.eng n).mp.role == 1

/-- Is the Umran link spread, by declaration or detection (R625)? -/
def State.spread (s : State) : Bool := s.ul.declared || s.ul.detected

/-- Slots and lane count of the configured host port whose lowest lane is given; the flag says plain Ethernet. -/
def State.hostPort (s : State) (lane : Nat) : Option (Nat × Nat × Bool) :=
  (s.port lane).map fun p => (phySlots p.phy, p.count, p.plain)

/-- A FlexE group. -/
def State.flexGroup (s : State) (g : Nat) : Option FlexGroup := tget s.host.groups g

/-- The active calendar of a group. -/
def FlexGroup.active (g : FlexGroup) : List Nat := if g.onB then g.calB else g.calA

/-- The configured calendar: the one a change brings, else the active one (R149). -/
def FlexGroup.configured (g : FlexGroup) : List Nat := match g.change with | some c => c.cal | none => g.active

/-- The record of a client of a group. -/
def FlexGroup.client (g : FlexGroup) (client : Nat) : Option FlexClient := g.clients.find? fun c => c.client == client

/-- Slots and handle of a FlexE client of the configured calendar. -/
def State.flexeClient (s : State) (group client : Nat) : Option (Nat × Nat) :=
  match s.flexGroup group with
  | none => none
  | some g => match g.client client with
    | none => none
    | some c =>
      let n := (g.configured.filter fun x => x == client).length
      if client = 0 || n = 0 then none else some (n, c.handle)

/-- Calendar slots a FLEXE_ENTRY may name: 8 PHYs of 8 instances of 20 slots (R142). -/
def mostCalendar : Nat := 1280

/-- Instances of one PHY of a type. -/
def phyInstances (phy : Nat) : Nat := 2 ^ phy

/-- Instances of a list of PHYs. -/
def State.instances (s : State) (phys : List Nat) : Nat :=
  match phys with
  | l :: _ => (match s.port l with | some p => phys.length * phyInstances p.phy | none => 0)
  | [] => 0

/-- Does a handle name a client of a group? -/
def State.clientHandle (s : State) (g handle : Nat) : Bool :=
  match s.flexGroup g with | some x => x.clients.any fun c => c.handle == handle | none => false

/-- The client number of a handle in a group. -/
def State.handleClient (s : State) (g handle : Nat) : Nat :=
  match s.flexGroup g with
  | some x => ((x.clients.find? fun c => c.handle == handle).map fun c => c.client).getD 0
  | none => 0

/-- The FLEXE_ENTRY words of one calendar of a group (Table 3.4): calendar B when `cal`. A calendar that a change loads has its new
entries. -/
def State.flexeWords (s : State) (group : Nat) (cal : Bool) : List StepWord :=
  match s.flexGroup group with
  | none => []
  | some g =>
    let cur := if cal then g.calB else g.calA
    let entries := match g.change with
      | some c => if c.mode = 3 then [] else if cal = !g.onB then c.cal else if c.phys.isEmpty then cur else []
      | none => cur
    ((List.range entries.length).zip entries).filterMap fun e =>
      match g.client e.2 with
      | some c => some (standing (group * 2 ^ 56 + c.handle * 2 ^ 48 + bit cal * 2 ^ 47) 0x0B81 0x31 e.1 0)
      | none => none

/-- An Umran port; unconfigured ports have the reset record. -/
def State.ulPort (s : State) (p : Nat) : UlPort := tgetD s.ul.ports p {}

/-- Is an Umran port configured by ACTION 1 (R48)? -/
def State.ulConfigured (s : State) (p : Nat) : Bool := thas s.ul.ports p

/-- Does the partner of an Umran port report another epoch (R637)? -/
def State.ulEpochBad (s : State) (p : Nat) : Bool := (s.ulPort p).farEpoch.getD s.epoch != s.epoch

/-- The fault of an Umran ingress: 1 loss, 3 epoch (R634, R637). -/
def State.ulFault (s : State) (p : Nat) : Option Nat :=
  if !(s.ulPort p).up then some 1 else if s.ulEpochBad p then some 3 else none

/-- The engine in compatibility mode whose ZR_PORT is a lane. -/
def State.zrUser (s : State) (lane : Nat) : Option Nat :=
  (List.range 8).find? fun n => (s.eng n).cfg.configured && (s.eng n).cfg.mode == 2 && (s.eng n).cfg.zrPort == lane

/-- What a calendar change does to a group at its swap (R148): the standby calendar is loaded, and a definition that names other PHYs
starts the group on them. -/
def FlexGroup.loaded (g : FlexGroup) (cal : Bool) (mono : Nat) : FlexGroup :=
  match g.change with
  | none => g
  | some c =>
    let g := if c.phys.isEmpty then g else { g with phys := c.phys, up := false, calA := [], calB := [], farAck := false }
    if cal = g.onB then g
    else
      let g := { g with change := some { c with phys := [], loaded := true, requestAt := mono } }
      if cal then { g with calB := c.cal } else { g with calA := c.cal }

/-- A loaded calendar reaches the active bank (R148): a MODE 1 request to the far end follows. A removed group is gone with its entries. -/
def State.flexeSwap (s : State) (group : Nat) (cal : Bool) : State :=
  let gone := match (s.flexGroup group).bind FlexGroup.change with | some c => c.mode == 3 | none => false
  { s with host := { s.host with
      groups := if gone then tdel s.host.groups group else tmod s.host.groups group fun g => g.loaded cal s.mono } }

/-- The places of a client in the active calendar of a group, as the FLEXE_ENTRY steps of the active bank give them (R33, R148). -/
def State.calendarSlots (s : State) (group client : Nat) : List Nat :=
  match s.flexGroup group with
  | none => []
  | some g => match g.client client with
    | none => []
    | some c =>
      sortBy (fun a b => decide (a ≤ b))
        (((s.bank islHost).words.filter fun w =>
          wAction w == 0x31 && wop w 56 8 == group && wop w 48 8 == c.handle && bitAt (wOperand w) 47 == g.onB).map wSlot)

/-- The profile under which the frame of a chamber is read: frames before the last change's Cc have the old one (R265). -/
def RxPath.profOf (r : RxPath) (ch : Nat) : List Nat := match r.switchCh with | some cc => if chLater cc ch then r.oldProf else r.prof | none => r.prof

end Sys2Proof.Machine
end

