-- ==== Sys2Proof/Machine/Commits.lean ====
section
/-!
DEFINITION. Scheduled commits (R105, R114, R117): their images, the chambers they may take, and joining them.
-/
namespace Sys2Proof.Machine

/-- The FlexE handles of a passage's endpoints, 0 where there is none. -/
def State.handles (s : State) (p : Passage) : Nat × Nat :=
  let h := fun (e : Endpoint) => if e.kind = 2 then ((s.flexeClient e.index e.sub).map Prod.snd).getD 0 else 0
  (h p.ing, h p.eg)

/-- What one firmware change does to the banks. -/
def State.applyChange (s : State) (b : Tab Bank) : FwChange → Tab Bank
  | .openP id => match tget s.pas id with
    | some p => addServing b id (s.compile id { p with key := s.startKey id p } (s.handles p))
    | none => b
  | .closeP id => dropPassage b id fun _ => true
  | .protSet id => match tget s.pas id with
    | some p => match p.leg with
      | some l => addServing b id (s.compileLeg id p l (s.handles p))
      | none => b
    | none => b
  | .protDel id => match tget s.pas id with
    | some p => match p.leg with
      | some l => dropPassage b id fun x => isLegWord l x.w
      | none => b
    | none => b
  | .force id f => match tget s.pas id with
    | some p => match p.leg with
      | some l =>
        addServing (dropPassage b id fun x => wAction x.w == 0x12) id [(islFab, [s.selectWord id { p with force := f } l])]
      | none => b
    | none => b
  | .revert _ => b
  | .enable n =>
    let c := (s.eng n).lastCfg
    let b := addPlain (dropWords b (islEng n) fun x => wAction x.w == 0x22) (islEng n)
      (loadingWords n false (c.uniform c.hStart) ++ loadingWords n true (c.uniform c.hStart))
    let b := replaceWords b (islEng n) 0x24 (engUnit n 0) [pulseWord n c.roll]
    replaceWords b (islEng n) 0x27 (engUnit n 4) [carrierWord n true c.rampMs]
  | .disable n =>
    let b := dropWords b (islEng n) fun x => wAction x.w == 0x22 || wAction x.w == 0x23 || wAction x.w == 0x24
    replaceWords b (islEng n) 0x27 (engUnit n 4) [carrierWord n false (s.eng n).lastCfg.rampMs]
  | .reconfig n c =>
    let b := addPlain (dropWords b (islEng n) fun x => wAction x.w == 0x22) (islEng n)
      (loadingWords n false (c.uniform c.hStart) ++ loadingWords n true (c.uniform c.hStart))
    replaceWords b (islEng n) 0x24 (engUnit n 0) [pulseWord n c.roll]
  | .loading n rx prof => replaceWords b (islEng n) 0x22 (engUnit n (bit rx)) (loadingWords n rx prof)
  | .pulse n roll => replaceWords b (islEng n) 0x24 (engUnit n 0) [pulseWord n roll]
  | .cdSet n set => replaceWords b (islEng n) 0x23 (engUnit n 1) [standing (set * 2 ^ 63) (engUnit n 1) 0x23 noSlot 0]
  | .carrier n on ramp => replaceWords b (islEng n) 0x27 (engUnit n 4) [carrierWord n on ramp]
  | .windows n leaf wins pl off _ _ =>
    addPlain (dropWords b (islEng n) fun x => isWindowWord leaf x.w) (islEng n)
      (windowWords n leaf ((s.eng n).mp.role == 1) wins pl off)
  | .flexe g cal =>
    addPlain
      (dropWords b islHost fun x => wAction x.w == 0x31 && wop x.w 56 8 == g && bitAt (wOperand x.w) 47 == cal)
      islHost (s.flexeWords g cal)
  | .rebind id slot => match tget s.pas id with
    | some p =>
      if !((tgetD b islFab {}).fw.any fun x => x.serves == some id && wAction x.w == 0x18) then b
      else addServing (dropPassage b id fun x => wAction x.w == 0x18) id [(islFab, cipherWord id { p with key := some slot })]
    | none => b
  | .timeWord code pl =>
    addPlain (dropWords b islTime fun x => wAction x.w == 0x40 && wop x.w 52 12 == code) islTime
      (match pl with | some k => [stepWord (code * 2 ^ 52) 0x0D0A 0x40 noSlot k 0 0 0] | none => [])

/-- Apply one raw edit to the banks. -/
def applyRaw (b : Tab Bank) (e : Nat × RawOp) : Tab Bank := tupd b e.1 {} fun k => { k with raw := rawEdit k.raw e.2 }

/-- The banks after a commit. -/
def State.applyCommit (s : State) (b : Tab Bank) (c : Commit) : Tab Bank :=
  c.changes.foldl s.applyChange (c.raw.foldl applyRaw b)

/-- The banks as they will stand at `cc` after every commit scheduled at or before it. -/
def State.imageAt (s : State) (cc : Nat) : Tab Bank :=
  (s.tab.commits.filter fun c => chReached cc c.cc).foldl s.applyCommit s.tab.banks

/-- The banks as they will stand at `cc` after every earlier scheduled commit. -/
def State.imageBefore (s : State) (cc : Nat) : Tab Bank :=
  (s.tab.commits.filter fun c => chLater cc c.cc).foldl s.applyCommit s.tab.banks

/-- The uncommitted raw edits of a chamber (R105). -/
def State.editsAt (s : State) (cc : Nat) : List (Nat × RawOp) :=
  match s.tab.edits.find? fun e => e.1 == cc with | some e => e.2 | none => []

/-- How far two chambers lie apart. -/
def chApart (a b : Nat) : Nat := min (chAhead a b) (chAhead b a)

/-- Does a commit at `cc` keep 64 chambers from every other one, sharing its chamber only among plain commits (R114)? -/
def State.spaced (s : State) (cc : Nat) (paired : Bool) : Bool :=
  s.tab.commits.all fun c => if c.cc = cc then !paired && c.paired.isNone else decide (chApart cc c.cc ≥ 64)

/-- The commit scheduled at a chamber. -/
def State.commitAt (s : State) (cc : Nat) : Option Commit := s.tab.commits.find? fun c => c.cc == cc

/-- Is a native line frame up on an engine, with the far end in the same epoch (Table 3.9, reason 4)? In hub or leaf role no
paired commit runs (R291). -/
def State.lineUp (s : State) (n : Nat) : Bool :=
  let e := s.eng n
  e.cfg.configured && e.cfg.mode == 1 && e.mp.role == 0 && e.rx.frame && e.rx.farEpoch == some s.epoch

/-- Why a commit at `cc` cannot be scheduled (Table 3.9): none when it can. -/
def State.commitBad (s : State) (cc : Nat) (paired : Option Nat) : Option (Status × Nat) :=
  if !(chLater cc s.chamber) then some (.notReady, 1)
  else if chAhead cc s.chamber < 80 then some (.notReady, 2)
  else if !(s.spaced cc paired.isSome) || (match paired with
      | some n => s.tab.commits.any fun c => match c.paired with | some p => p.engine == n | none => false
      | none => false) then some (.notReady, 3)
  else if (match paired with | some n => !(s.lineUp n) | none => false) then some (.notReady, 4)
  else if (s.commitAt cc).isNone && decide (s.tab.commits.length ≥ 64) then some (.noResource, 1)
  else none

/-- The earliest chamber at or after `floor` that R114 allows: it joins a plain commit or keeps its distance. With 64 commits
scheduled a plain request joins one of them (R462). -/
def State.earliestFrom (s : State) (floor : Nat) (paired : Bool) : Nat :=
  let lo := chAdd s.chamber 80
  let lo := if chLater floor lo then floor else lo
  let cands := (lo :: s.tab.commits.flatMap fun c => [c.cc, chAdd c.cc 64]).filter fun c => chReached c lo
  let full := decide (s.tab.commits.length ≥ 64)
  let good := cands.filter fun c => s.spaced c paired && (!full || paired || (s.commitAt c).isSome)
  match sortBy (fun a b => chReached b a) good with
  | c :: _ => c
  | [] => lo

/-- The earliest chamber that R114 allows. -/
def State.earliest (s : State) (paired : Bool) : Nat := s.earliestFrom s.chamber paired

/-- The lead a leaf needs (R297): 80 chambers and its advance, rounded up. -/
def Multi.lead (m : Multi) : Nat := 80 + ceilDiv m.advance.toNat 1280000

/-- Does a chamber lie too near for a commit that changes the LEAF_WINDOW or transmit LOADING steps of an engine in leaf role (R297)? -/
def State.leafLate (s : State) (n cc : Nat) : Bool :=
  (s.eng n).mp.role == 2 && chLater cc s.chamber && decide (chAhead cc s.chamber < (s.eng n).mp.lead)

/-- The earliest chamber at which a commit may change an engine's profile. -/
def State.earliestFor (s : State) (n : Nat) : Nat :=
  s.earliestFrom (if (s.eng n).mp.role = 2 then chAdd s.chamber (s.eng n).mp.lead else s.chamber) false

/-- Insert a commit in the order of Cc. -/
def insertCommit (c : Commit) (l : List Commit) : List Commit := insertBy (fun a b => chReached b.cc a.cc) c l

/-- Schedule changes at `cc`: they join the commit there, or a new one is armed (R114, R116). -/
def State.schedule (s : State) (cc : Nat) (paired : Option Paired) (raw : List (Nat × RawOp)) (changes : List FwChange) : State :=
  let t := s.tab
  let commits :=
    if (s.commitAt cc).isSome then
      t.commits.map fun c => if c.cc = cc then { c with raw := c.raw ++ raw, changes := c.changes ++ changes } else c
    else insertCommit { cc := cc, paired := paired, raw := raw, changes := changes } t.commits
  { s with tab := { t with commits := commits } }

/-- Remove a change from every scheduled commit. -/
def State.unschedule (s : State) (p : FwChange → Bool) : State :=
  { s with tab := { s.tab with commits := s.tab.commits.map fun c => { c with changes := c.changes.filter fun x => !(p x) } } }

/-- The generation that the swap at `cc` will carry (R113). -/
def State.generationAt (s : State) (cc : Nat) : Nat :=
  (s.generation + (s.tab.commits.filter fun c => chReached cc c.cc).length) % 2 ^ 32

/-- Does a scheduled commit change an island's image (R116)? -/
def State.armedChange (s : State) (isl : Nat) : Bool :=
  s.tab.commits.any fun c => tgetD (s.imageAt c.cc) isl {} != tgetD (s.imageBefore c.cc) isl {}

end Sys2Proof.Machine
end

