-- ==== Sys2Proof/Machine/Passages.lean ====
section
/-!
DEFINITION. Passages (02_passages.md): endpoints, admission, the latency bound, PASSAGE_OPEN, PASSAGE_CLOSE and PASSAGE_QUERY.
-/
namespace Sys2Proof.Machine

/-- The counters of a passage in the order of Table 2.9. -/
def Passage.counts (p : Passage) : List Ctr := [p.blocksIn, p.blocksOut, p.idleIns, p.idleDel, p.adaptDrops, p.subst]

/-- Keep the counters as they stood at the boundary of a chamber, before their first change in it (R79). -/
def Passage.keep (p : Passage) (ch : Nat) : Passage :=
  match p.snap with
  | some (c, _) => if c = ch then p else { p with snap := some (ch, p.counts) }
  | none => { p with snap := some (ch, p.counts) }

/-- The counters at the boundary of a chamber (R79). -/
def Passage.countsAt (p : Passage) (ch : Nat) : List Ctr :=
  match p.snap with
  | some (c, l) => if c = ch then l else p.counts
  | none => p.counts

/-- Change a passage. -/
def State.modPas (s : State) (id : Nat) (f : Passage → Passage) : State :=
  { s with pas := tmod s.pas id fun p => f (p.keep s.chamber) }

/-- Set PASSAGE_ALERT for the owner of a passage (INT_STATUS bit 5). -/
def State.alert (s : State) (id : Nat) : State :=
  match tget s.pas id with | some p => s.setInt p.owner 5 | none => s

/-! Endpoints (Table 2.1). -/

/-- The endpoint at an offset of a payload. -/
def endpointAt (q : Request) (o : Nat) : Endpoint :=
  { kind := q.u o 1, index := q.u (o + 1) 1, sub := q.u (o + 2) 2, leaf := q.u (o + 4) 2, first := q.u (o + 6) 2 }

/-- The 8 bytes of an endpoint. -/
def Endpoint.bytes (e : Endpoint) : List Byte := le 1 e.kind ++ le 1 e.index ++ le 2 e.sub ++ le 2 e.leaf ++ le 2 e.first

/-- Ranges that need no unit state (R61, step 2). -/
def Endpoint.rangeOk (e : Endpoint) : Bool :=
  match e.kind with
  | 1 => e.index < 128 && e.sub == 0 && e.leaf == 0 && e.first == 0
  | 2 => e.index < 64 && e.leaf == 0 && e.first == 0
  | 3 => e.index < 8 && (e.leaf < 128 || e.leaf == 0xFFFF)
  | 4 => e.index < 4 && e.sub == 0 && e.leaf == 0
  | _ => false

/-- The unit an endpoint names (R15, R26). -/
def Endpoint.unit (e : Endpoint) : Nat :=
  match e.kind with
  | 1 => 0x0B00 + e.index
  | 2 => 0x0B81
  | 3 => islEng e.index * 256 + 0xFE
  | _ => 0x0E00 + e.index

/-- Is an endpoint granted to a tenant (R61, step 4)? -/
def State.mayUse (s : State) (t : Nat) (e : Endpoint) : Bool :=
  let p := s.policy t
  match e.kind with
  | 1 =>
    let n := match s.hostPort e.index with | some x => x.2.1 | none => 1
    (List.range n).all fun k => bitAt p.hostLanes (e.index + k)
  | 2 => bitAt p.flexeGroups e.index
  | 3 => bitAt p.engineUse e.index
  | _ => bitAt p.umranUse e.index

/-- An endpoint that compatibility mode takes (R56, R198). -/
def State.inCompat (s : State) (e : Endpoint) : Bool :=
  (e.kind == 3 && (s.eng e.index).cfg.configured && (s.eng e.index).cfg.mode == 2) || (e.kind == 1 && (s.zrUser e.index).isSome)

/-! Carriers and their capacity. -/

/-- The legs of a passage, each with its direction: true is egress. -/
def Passage.legs (p : Passage) : List (Bool × Endpoint) :=
  [(false, p.ing), (true, p.eg)] ++ (match p.leg with | some l => [(!p.selects, l.endpoint)] | none => [])

/-- The legs of a passage that hold their slots in a chamber: a protect leg whose removal is scheduled holds them up to the chamber of its
removal + 2 + PROTECT_SKEW, and so does a removed one (R711). -/
def Passage.heldLegs (p : Passage) (ch : Nat) : List (Bool × Endpoint) :=
  (match p.legStop with | some cc => if chReached ch (chAdd cc p.delay) then [(false, p.ing), (true, p.eg)] else p.legs | none => p.legs) ++
    (match p.legHeld with
      | some (l, until_) => if chReached ch until_ then [] else [(!p.selects, l.endpoint)]
      | none => [])

/-- FREE_CHAMBER of a passage whose close is scheduled (R75). -/
def Passage.free (p : Passage) : Option Nat := p.stop.map fun cs => chAdd cs p.delay

/-- Are a passage's slots and buffer held in a chamber (R75)? -/
def Passage.holdsAt (p : Passage) (ch : Nat) : Bool := match p.free with | some f => !(chReached ch f) | none => true

/-- Do two endpoints of the same direction name the same carrier? -/
def State.sameCarrier (s : State) (a b : Endpoint) (egress : Bool) : Bool :=
  a.kind == b.kind && a.index == b.index &&
    (match a.kind with
     | 2 => a.sub == b.sub
     | 3 => s.leafCarrier a egress == s.leafCarrier b egress && ((s.leafCarrier a egress).isSome || a.sub == b.sub)
     | _ => true)

/-- The profiles of one direction of an engine: the committed one and those that scheduled commits bring (R65). -/
def State.profiles (s : State) (n : Nat) (rx : Bool) : List (EngCfg × List Nat) :=
  let e := s.eng n
  let cur := if rx then e.rx.prof else e.tx.prof
  (e.cfg, cur) :: (s.tab.commits.flatMap fun c => c.changes.filterMap fun ch => match ch with
    | .loading m r prof => if m = n ∧ r = rx then some (e.cfg, prof) else none
    | .reconfig m c => if m = n then some (c, c.uniform c.hStart) else none
    | _ => none)

/-- The smallest of a non-empty list of numbers. -/
def minOf : List Nat → Nat
  | [] => 0
  | [x] => x
  | x :: xs => min x (minOf xs)

/-- The leaf profile of a leaf carrier: a hub's profile or a leaf's own windows. -/
def State.leafProf (s : State) (n leaf : Nat) : LeafProf :=
  let m := (s.eng n).mp
  if m.role = 2 then m.own else tgetD m.profs leaf {}

/-- LEAF_SLOTS of a leaf carrier (R295): the smallest that the active windows and every scheduled change of them give. -/
def State.leafSize (s : State) (n leaf : Nat) : Nat :=
  let p := s.leafProf n leaf
  let c := (s.eng n).cfg
  (s.tab.commits.flatMap fun k => k.changes).foldl
    (fun m x => match x with
      | .windows a b wins pl _ hMin _ => if a = n ∧ b = leaf then min m (c.leafSlots wins pl hMin) else m
      | _ => m)
    (c.leafSlots p.windows p.periodLog p.hMin)

/-- The slot count of an endpoint's carrier (Table 1.4, R49, R303). -/
def State.carrierSlots (s : State) (e : Endpoint) (egress : Bool) : Nat :=
  match e.kind with
  | 1 => match s.hostPort e.index with | some x => x.1 | none => 0
  | 2 => match s.flexeClient e.index e.sub with | some x => x.1 | none => 0
  | 3 => match s.leafCarrier e egress with
    | some leaf => s.leafSize e.index leaf
    | none => minOf ((s.profiles e.index (!egress)).map fun x => x.1.groupSlots x.2 e.sub)
  | _ => 80

/-- The raw words of an island in the active bank and in every scheduled image (R102). -/
def State.rawWords (s : State) (isl : Nat) : List StepWord :=
  (s.bank isl).raw ++ s.tab.commits.flatMap fun c =>
    if c.raw.any fun e => e.1 == isl then (tgetD (s.imageAt c.cc) isl {}).raw else []

/-- The slots of a carrier that raw steps name (R102). -/
def State.rawSlots (s : State) (e : Endpoint) (egress : Bool) : List Nat :=
  match e.kind with
  | 3 =>
    ((s.rawWords (islEng e.index)).filter fun w =>
      wAction w == (if egress then 0x20 else 0x21) && (match s.leafCarrier e egress with
        | some leaf => bitAt (wOperand w) 31 && wop w 24 7 == leaf
        | none => !(bitAt (wOperand w) 31) && wop w 48 16 == e.sub)).map wSlot
  | 4 =>
    ((s.rawWords islUlink).filter fun w =>
      wAction w == 0x38 && wTarget w == 0x0E00 + e.index && bitAt (wOperand w) 63 == egress).map wSlot
  | _ =>
    let h := if e.kind = 2 then ((s.flexeClient e.index e.sub).map Prod.snd).getD 0 else 0
    ((s.rawWords islHost).filter fun w =>
      wAction w == 0x30 && wop w 52 12 == s.carrierCode e egress h && bitAt (wOperand w) 51 == egress).map wSlot

/-- The slots of a carrier that passages hold at a chamber. -/
def State.pasSlots (s : State) (e : Endpoint) (egress : Bool) (ch : Nat) : List Nat :=
  (tvals s.pas).flatMap fun p =>
    if p.holdsAt ch then
      (p.heldLegs ch).flatMap fun l =>
        if l.1 == egress && s.sameCarrier l.2 e egress then (List.range p.slots).map fun k => l.2.run + k else []
    else []

/-- The slots of a carrier taken at a chamber. -/
def State.takenSlots (s : State) (e : Endpoint) (egress : Bool) (ch : Nat) : List Nat :=
  s.pasSlots e egress ch ++ s.rawSlots e egress

/-- Place a run of `m` slots at a chamber: the run asked for, or the lowest free one (R48, R50). -/
def State.place (s : State) (e : Endpoint) (egress : Bool) (m ch : Nat) : Option Nat :=
  let taken := s.takenSlots e egress ch
  let free := fun f => (List.range m).all fun k => !(taken.contains (f + k))
  match e.kind with
  | 1 | 2 => if taken.isEmpty then some 0xFFFF else none
  | _ =>
    if e.first ≠ 0xFFFF then (if free e.first then some e.first else none)
    else (List.range (s.carrierSlots e egress + 1 - m)).find? free

/-- The plane positions that passages hold at a chamber. -/
def State.pasPlane (s : State) (line : Bool) (ch : Nat) : List Nat :=
  (tvals s.pas).flatMap fun p => if p.holdsAt ch && p.towardLine == line then p.plane else []

/-- The plane positions taken at a chamber (R64, R102). -/
def State.takenPlane (s : State) (line : Bool) (ch : Nat) : List Nat :=
  s.pasPlane line ch ++
    ((s.rawWords islFab).filter fun w => wAction w == (if line then 0x10 else 0x11)).map wSlot

/-- The lowest `m` free plane positions, or none. -/
def State.pickPlane (s : State) (line : Bool) (m ch : Nat) : Option (List Nat) :=
  let taken := s.takenPlane line ch
  let free := ((List.range 5120).filter fun k => !(taken.contains k)).take m
  if free.length = m then some free else none

/-- Slot-chambers of the passage buffer pool (Table 2.5). -/
def poolSize : Nat := 40672

/-- The buffer regions that passages hold at a chamber: base and length. -/
def State.pasBuffer (s : State) (ch : Nat) : List (Nat × Nat) :=
  (tvals s.pas).filterMap fun p => if p.holdsAt ch then some (p.base, p.slots * p.delay) else none

/-- The buffer regions taken at a chamber. -/
def State.takenBuffer (s : State) (ch : Nat) : List (Nat × Nat) :=
  s.pasBuffer ch ++
    ((s.rawWords islFab).filter fun w => wAction w == 0x13).map fun w => (wop w 48 16, wop w 32 16)

/-- Does a byte range of a memory meet the range of a running fill or copy (R507)? -/
def State.fillHolds (s : State) (unit lo hi : Nat) : Bool :=
  s.runningJobs.any fun j => match j.work with
    | .fill _ u addr len _ _ => u == unit && decide (addr < hi) && decide (lo < addr + len)
    | _ => false

/-- Bytes of one slot-chamber. -/
def slotChamberBytes : Nat := 825

/-- The lowest free region of a length (R710). -/
def pickRegion (taken : List (Nat × Nat)) (n : Nat) : Option Nat :=
  let l := sortBy (fun a b => decide (a.1 ≤ b.1)) taken
  let r := l.foldl (fun acc x => match acc with
    | (some b, at_) => (some b, at_)
    | (none, at_) => if at_ + n ≤ x.1 then (some at_, at_) else (none, max at_ (x.1 + x.2))) ((none, 0) : Option Nat × Nat)
  match r with
  | (some b, _) => some b
  | (none, at_) => if at_ + n ≤ poolSize then some at_ else none

/-- Slots of the cipher in one direction that passages hold. -/
def State.pasCipher (s : State) (dec : Bool) (ch : Nat) : Nat :=
  hSum ((tvals s.pas).map fun p => if p.holdsAt ch && p.mode != 0 && p.decrypts == dec then p.slots else 0)

/-- The slots that the raw CIPHER steps of one direction take of a bank. -/
def Bank.rawCipher (b : Bank) (dec : Bool) : Nat :=
  hSum ((b.raw.filter fun w => wAction w == 0x18 && bitAt (wOperand w) 53 == dec).map fun w => wop w 41 10)

/-- Slots of the cipher in one direction that are taken (Table 2.5, R102): those of raw steps count in the fullest of the active bank and
the scheduled images. -/
def State.cipherUsed (s : State) (dec : Bool) (ch : Nat) : Nat :=
  s.pasCipher dec ch +
    (s.tab.commits.map fun c => (tgetD (s.imageAt c.cc) islFab {}).rawCipher dec).foldl max ((s.bank islFab).rawCipher dec)

/-- Encrypted passages that touch an engine, protect legs included (Table 2.5). -/
def State.encOn (s : State) (n : Nat) : Nat :=
  ((tvals s.pas).filter fun p => p.mode != 0 && p.legs.any fun l => l.2.kind == 3 && l.2.index == n).length

/-- Encrypted passages and protect legs counted against one direction of an engine (R170). -/
def State.encDir (s : State) (n : Nat) (egress : Bool) : Nat :=
  ((tvals s.pas).filter fun p => p.mode != 0 && p.legs.any fun l => l.1 == egress && l.2.kind == 3 && l.2.index == n).length

/-- The tag capacity of one direction of an engine (R170). -/
def State.tagCap (s : State) (n : Nat) (egress : Bool) : Nat := minOf ((s.profiles n (!egress)).map fun x => x.1.tagCap x.2)

/-- The quota charge of a tenant (Table 2.5). -/
def State.slotCharge (s : State) (t : Nat) : Nat :=
  hSum ((tvals s.pas).map fun p =>
    if p.owner = t then
      p.slots * (if p.leg.isSome || (match p.legHeld with | some x => !(chReached s.chamber x.2) | none => false) then 2 else 1)
    else 0)

/-- SLOT_QUOTA: 0xFFFF is unlimited. -/
def State.overQuota (s : State) (t m : Nat) : Bool :=
  (s.policy t).slotQuota != 0xFFFF && decide (s.slotCharge t + m > (s.policy t).slotQuota)

/-! The latency bound (R67). -/

/-- F and H_CD of an engine (R67, R68), the larger ones where a configuration is scheduled. -/
def State.engTerms (s : State) (n : Nat) : Nat × Nat :=
  let e := s.eng n
  match e.nextCfg with
  | some x => (max e.cfg.latency x.2.latency, max e.cfg.hcd x.2.hcd)
  | none => (e.cfg.latency, e.cfg.hcd)

/-- T_IN of an ingress with these legs (R67, R239): F and H_CD are each the larger of their values over the legs. -/
def tinOf (legs : List (Nat × Nat)) : Nat := 900 + (legs.map Prod.fst).foldl max 0 + (legs.map Prod.snd).foldl max 0

/-- T_IN of an engine ingress without a protect leg. -/
def State.engTin (s : State) (n : Nat) : Nat := tinOf [s.engTerms n]

/-- The terms of Table 2.6. A protect leg, or a configuration of either leg's engine, that would raise T_IN later is refused (R67, R69). -/
def State.termsOf (s : State) (ing eg : Endpoint) (mode skew : Nat) : List Nat :=
  let edge := fun k => if k = 4 then 150 else 250
  let mp := (s.leafCarrier ing false).isSome || (s.leafCarrier eg true).isSome
  [if ing.kind = 3 then s.engTin ing.index else edge ing.kind, 2560, if mode = 1 then 1280 else 0, if mp then 1280 else 0,
   skew * 1280, if eg.kind = 3 then 410 else edge eg.kind]

/-- BOUND_NS. -/
def Passage.bound (p : Passage) : Nat := hSum p.terms

/-! PASSAGE_OPEN (R57 to R65). -/

/-- Step 5 for one endpoint: R48, R49, R50, R303. -/
def State.endpointBad (s : State) (e : Endpoint) (egress : Bool) (m : Nat) : Bool :=
  let run := decide (m > s.carrierSlots e egress) || (e.first != 0xFFFF && decide (e.first + m > s.carrierSlots e egress))
  match e.kind with
  | 1 => match s.hostPort e.index with | some x => !x.2.2 || x.1 != m | none => true
  | 2 => match s.flexeClient e.index e.sub with | some x => x.1 != m | none => true
  | 3 =>
    let g := s.eng e.index
    if e.sub = 0 then true
    else if !g.cfg.configured then false
    else
      let role := g.mp.role
      let form := if role = 1 ∧ !egress then e.leaf < 128 && e.sub == winMask (s.leafProf e.index e.leaf).windows
        else if role = 2 ∧ egress then e.leaf == 0xFFFF && e.sub == winMask g.mp.own.windows
        else e.leaf == 0xFFFF
      let overlap := (tvals s.pas).any fun p => p.legs.any fun l =>
        l.2.kind == 3 && l.2.index == e.index && (role == 0 || (l.1 == egress && s.leafCarrier l.2 egress == s.leafCarrier e egress)) &&
          (l.2.sub &&& e.sub) != 0 && l.2.sub != e.sub
      let prof := if egress then g.tx.prof else g.rx.prof
      !form || decide (e.sub ≥ 2 ^ g.cfg.subs) || overlap || (!prof.isEmpty && run)
  | _ => !(s.ulConfigured e.index) || run

/-- The readiness of an endpoint (R40, R62): the reason of NOT_READY. An engine must hear the far end report the device's own epoch; a hub
receives bursts and no frame, so nothing reports to it (R291). -/
def State.endpointNotReady (s : State) (e : Endpoint) : Option Nat :=
  let g := s.eng e.index
  if e.kind = 3 then
    if !g.tx.enabled || g.tx.prof.isEmpty || g.rx.prof.isEmpty then some 1
    else if g.mp.role ≠ 1 ∧ g.rx.farEpoch ≠ some s.epoch then some 2 else none
  else if e.kind = 4 ∧ s.ulEpochBad e.index then some 2
  else none

/-- The lower of two optional reasons. -/
def minReason (a b : Option Nat) : Option Nat :=
  match a, b with
  | some x, some y => some (min x y)
  | some x, none => some x
  | none, y => y

/-- Chambers in an hour (R59). -/
def hourChambers : Nat := 2812500000

/-- The PASSAGE_OPEN response (Table 2.3). -/
def openReply (st reason id inF egF start : Nat) (terms : List Nat) : List Byte :=
  le 1 st ++ le 1 reason ++ le 2 id ++ le 2 inF ++ le 2 egF ++ le 8 start ++ le 4 (hSum terms) ++ terms.flatMap (le 4)

/-- Words an image would hold in each island once a passage's words are added: is there room (R62, NO_RESOURCE reason 4)? -/
def State.bankRoom (s : State) (start : Nat) (add : List (Nat × List StepWord)) : Bool :=
  let imgs := s.imageAt start :: (s.tab.commits.filter fun c => chLater c.cc start).map fun c => s.imageAt c.cc
  imgs.all fun img => add.all fun x =>
    let b := tgetD img x.1 {}
    let n := hSum ((add.filter fun y => y.1 == x.1).map fun y => y.2.length)
    decide (b.fw.length + b.raw.length + n ≤ bankSize x.1)

/-- The client record of a KIND 2 endpoint. -/
def State.clientOf (s : State) (e : Endpoint) : Option FlexClient :=
  if e.kind = 2 then (match s.flexGroup e.index with | some g => g.client e.sub | none => none) else none

/-- The first chamber in which a KIND 2 endpoint may carry (R150), or the current one. -/
def State.clientFrom (s : State) (e : Endpoint) : Nat := match s.clientOf e with | some c => c.from_.getD s.chamber | none => s.chamber

/-- Does a KIND 2 endpoint wait for a MODE 1 switch (R150)? -/
def State.clientWaits (s : State) (e : Endpoint) : Bool := match s.clientOf e with | some c => c.from_.isNone | none => false

/-! Closing (R75 to R77). -/

/-- The chamber at which a close asked for `cs` acts (R76): never before the start chamber. -/
def Passage.closeAt (p : Passage) (cs : Nat) : Nat := if p.st = 1 then chMax p.start cs else cs

/-- Is a firmware change one of a passage's table lines? -/
def FwChange.isOf (id : Nat) : FwChange → Bool
  | .openP i | .closeP i | .protSet i | .protDel i | .force i _ | .revert i => i == id
  | _ => false

/-- Schedule the close of a passage at `cs` with a reason. What was scheduled for it at a later chamber falls away. -/
def State.scheduleClose (s : State) (id cs reason : Nat) : State :=
  let keep := fun (c : Commit) => if chLater c.cc cs then { c with changes := c.changes.filter fun x => !(x.isOf id) } else c
  let later := { s with tab := { s.tab with commits := s.tab.commits.map keep } }
  (later.modPas id fun p => { p with stop := some cs, reason := reason }).schedule cs none [] [.closeP id]

/-- Close a passage at a forced disable of chamber `cd` (R77): a close scheduled at or before it is kept, a later one is moved, and Cs = Cd
also where the passage would start later. -/
def State.forceClose (s : State) (id cd : Nat) : State :=
  match tget s.pas id with
  | none => s
  | some p =>
    match p.stop with
    | some old => if chReached cd old then s else s.scheduleClose id cd 2
    | none => s.scheduleClose id cd 2

/-- A forced disable that is scheduled on an engine closes the passages that are opened on it before Cd (R77). -/
def State.closeForForced (s : State) (id n : Nat) : State :=
  match (s.eng n).tx.disableAt with
  | some cd => if (s.eng n).tx.forced then s.forceClose id cd else s
  | none => s

/-- PASSAGE_OPEN (R57 to R65), with the checks of R61 in their order. -/
def State.cmdPassageOpen (s : State) (q : Request) : State :=
  let ing := endpointAt q 4
  let eg := endpointAt q 12
  let m := q.u 2 2
  let mode := q.u 20 1
  let skew := q.u 21 1
  let want := q.ch 28
  let ids := tkeys s.pas
  let id? := if q.u 0 2 = 0xFFFF then (List.range 4096).find? fun i => !(ids.contains i) else some (q.u 0 2)
  let floor := chMax (s.clientFrom ing) (s.clientFrom eg)
  let start := if want = 0 then s.earliestFrom floor false else want
  let inF := s.place ing false m start
  let egF := s.place eg true m start
  let line := eg.kind == 3 || eg.kind == 4
  let plane := s.pickPlane line m start
  let base := match pickRegion (s.takenBuffer start) (m * (2 + skew)) with
    | some b => if s.fillHolds 0x0201 (b * slotChamberBytes) ((b + m * (2 + skew)) * slotChamberBytes) then none else some b
    | none => none
  let dec := eg.kind != 3
  let engs := [ing, eg].filter fun e => e.kind == 3
  let terms := s.termsOf ing eg mode skew
  let maxNs := q.u 24 4
  let key := if q.u 0 2 = 0xFFFF then none else s.prepared q.tenant (q.u 0 2)
  let p : Passage :=
    { owner := q.tenant, slots := m, mode := mode, skew := skew, trail := q.u 22 2, start := start, terms := terms
      ing := { ing with first := inF.getD 0 }, eg := { eg with first := egF.getD 0 }
      plane := plane.getD [], base := base.getD 0, key := if mode = 0 then none else key
      lane := if mode = 0 then 0 else pickLane dec }
  let id := id?.getD 0
  let tagFull := mode != 0 &&
    ((eg.kind == 3 && decide (s.encDir eg.index true + 1 > s.tagCap eg.index true)) ||
     (ing.kind == 3 && decide (s.encDir ing.index false + 1 > s.tagCap ing.index false)))
  let beyond := maxNs != 0 && decide (hSum terms > maxNs)
  let resource := (if q.u 0 2 ≠ 0xFFFF ∧ ids.contains (q.u 0 2) then some 1 else none).or
    ((if id?.isNone then some 2 else none).or
    ((if mode != 0 && (engs.any fun e => decide (s.encOn e.index ≥ 64)) then some 3 else none).or
    (if !(s.bankRoom start (s.compile id p (s.handles p))) then some 4 else none)))
  let capacity := (if inF.isNone then some 1 else none).or ((if egF.isNone then some 2 else none).or
    ((if plane.isNone then some 3 else none).or ((if base.isNone then some 4 else none).or
    ((if (mode != 0 && decide (s.cipherUsed dec start + m > 5120)) || tagFull then some 5 else none).or
    ((if beyond then some 6 else none).or (if s.overQuota q.tenant m then some 7 else none))))))
  let notReady := minReason (minReason (s.endpointNotReady ing) (s.endpointNotReady eg))
    (if (s.commitBad start none).isSome || s.clientWaits ing || s.clientWaits eg || chLater floor start then some 3 else none)
  let bad2 := !(q.rsv 34 2) || !(decide (q.u 0 2 < 4096) || q.u 0 2 == 0xFFFF) || m < 1 || m > 640 || mode > 2 || skew > 10 ||
    (skew != 0 && ing.kind != 3) || !ing.rangeOk || !eg.rangeOk ||
    (want != 0 && chLater want s.chamber && decide (chAhead want s.chamber > hourChambers))
  let enc := [ing, eg].filter fun e => e.kind == 3
  let leafEnc := (s.leafCarrier ing false).isSome || (s.leafCarrier eg true).isSome
  let onMp := enc.any fun e => (s.eng e.index).mp.role != 0
  let bad5 := s.endpointBad ing false m || s.endpointBad eg true m || (mode != 0 && (enc.length != 1 || leafEnc)) ||
    (skew != 0 && onMp) || (mode != 0 && key.isNone)
  if s.behindCopy 0x0301 q then s.hold 0x0301 q else
  s.serve 0x0301 q 44 (q.len == 36)
      [.bad bad2 .badParam 0, .lit ([ing.unit, eg.unit] ++ if mode != 0 then [unitKeyStore] else []),
       .bad (s.disabled q || !(s.mayUse q.tenant ing) || !(s.mayUse q.tenant eg) || s.inCompat ing || s.inCompat eg) .notPermitted 0,
       .bad bad5 .badParam 0, .bad notReady.isSome .notReady (notReady.getD 0), .bad resource.isSome .noResource (resource.getD 0),
       .badWith capacity.isSome .noCapacity (capacity.getD 0)
         (if capacity = some 6 then zeros 14 ++ le 4 (hSum terms) ++ terms.flatMap (le 4) else [])]
      fun s =>
        let s := { s with pas := tput s.pas id p }
        let s := if mode = 0 then s else s.bindKey q.tenant id (p.key.getD 0)
        let s := engs.foldl (fun (s : State) e => s.closeForForced id e.index) (s.schedule start none [] [.openP id])
        (s, some (openReply 0 0 id p.ing.first p.eg.first start terms))

/-! PASSAGE_CLOSE (R73 to R76). -/

/-- The PASSAGE_CLOSE response (Table 2.8). -/
def closeReply (id cs free : Nat) : List Byte := le 1 0 ++ le 1 0 ++ le 2 id ++ le 8 cs ++ le 8 free

/-- PASSAGE_CLOSE. A pending passage closes at its start chamber where Cs would come before it, in the commit of its start. -/
def State.cmdPassageClose (s : State) (q : Request) : State :=
  let id := q.u 0 2
  let p? := tget s.pas id
  let want := q.ch 4
  let done := match p? with | some p => p.stop.isSome | none => false
  let asked := if want = 0 then s.earliest false else want
  let cs := match p? with | some p => p.closeAt asked | none => asked
  if s.behindCopy 0x0302 q then s.hold 0x0302 q else
  s.serve 0x0302 q 20 (q.len == 12)
    [.bad (!(q.rsv 2 2) || !(q.rsv 10 2) || decide (id > 4095) || p?.isNone) .badParam 0, s.anyTenant q,
     .bad (match p? with | some p => p.owner != q.tenant | none => false) .notOwner 0,
     .bad (!done && (s.commitBad cs none).isSome) .notReady 3]
    fun s =>
      match p? with
      | none => (s, none)
      | some p =>
        match p.stop with
        | some old => (s, some (closeReply id old (chAdd old p.delay)))
        | none => (s.scheduleClose id cs 1, some (closeReply id cs (chAdd cs p.delay)))

/-! PASSAGE_QUERY (R78, R79). -/

/-- FLAGS of PASSAGE_QUERY. -/
def Passage.flags (p : Passage) : Nat :=
  bit p.failing + 2 * bit p.tagFail + 4 * bit p.leg.isSome + 8 * bit p.onProt + 16 * bit p.unusable

/-- The PASSAGE_QUERY response (Table 2.9); all counters stand at one chamber boundary, that of the current chamber (R79). -/
def State.queryReply (s : State) (id : Nat) (p : Passage) : List Byte :=
  le 1 0 ++ le 1 p.st ++ le 2 id ++ le 2 p.slots ++ le 1 p.mode ++ le 1 p.skew ++ p.ing.bytes ++ p.eg.bytes ++ le 4 p.bound ++
    le 4 p.maxSeen ++ le 8 p.start ++ le 8 (p.stop.getD 0) ++ le 8 s.chamber ++ (p.countsAt s.chamber).flatMap (fun c => le 8 c.toNat) ++ le 1 p.flags ++ zeros 3

/-- PASSAGE_QUERY. -/
def State.cmdPassageQuery (s : State) (q : Request) : State :=
  let p? := tget s.pas (q.u 0 2)
  s.serve 0x0303 q 108 (q.len == 2)
    [.bad p?.isNone .badParam 0, s.anyTenant q, .bad (match p? with | some p => p.owner != q.tenant | none => false) .notOwner 0]
    fun s => match p? with | some p => (s, some (s.queryReply (q.u 0 2) p)) | none => (s, none)

end Sys2Proof.Machine
end

