-- ==== Sys2Proof/Machine/Tables.lean ====
section
/-!
DEFINITION. TABLE_WRITE, TABLE_COMMIT and TABLE_READ with the validation of Table 3.6 (03_cairn_tables.md).
-/
namespace Sys2Proof.Machine

/-- A row of Table 3.4 for one island: the unit indices allowed (none: any listed unit), the exclusive bound of SLOT (none: 0x1FFF),
timed, standing or either, and the operand bits in use. -/
structure ActRow where
  units : Option (List Nat)
  slots : Option Nat := none
  timed : Option Bool := some false
  mask  : Nat := 0

/-- Bits `[hi : lo]` of an operand as a mask. -/
def opMask (hi lo : Nat) : Nat := 2 ^ (hi + 1) - 2 ^ lo

/-- The row of Table 3.4 for an action on an island. `role` is the engine's role: a window step on another role is not listed
(R293). -/
def actRow (isl role action : Nat) : Option ActRow :=
  let eng := 3 ≤ isl && isl ≤ 10
  match action with
  | 0x00 => some { units := none, timed := none }
  | 0x01 => some { units := some [0xFF], timed := some true, mask := opMask 63 0 }
  | 0x10 | 0x11 => if isl = islFab then some { units := some [0], slots := some 5120, mask := opMask 63 15 } else none
  | 0x12 => if isl = islFab then some { units := some [0], mask := opMask 63 22 } else none
  | 0x13 => if isl = islFab then some { units := some [1], mask := opMask 63 32 } else none
  | 0x18 => if isl = islFab then some { units := some [3], mask := opMask 63 33 } else none
  | 0x20 | 0x21 => if eng then some { units := some [3], slots := some 1280, mask := opMask 63 24 } else none
  | 0x22 => if eng then some { units := some [0, 1], mask := opMask 63 53 } else none
  | 0x23 => if eng then some { units := some [1], mask := opMask 63 63 } else none
  | 0x24 => if eng then some { units := some [0], mask := opMask 63 56 } else none
  | 0x25 => if eng && role == 1 then some { units := some [1], slots := some 8, timed := some true, mask := opMask 63 53 } else none
  | 0x26 => if eng && role == 2 then some { units := some [0], slots := some 8, timed := some true, mask := opMask 63 53 } else none
  | 0x27 => if eng then some { units := some [4], mask := opMask 63 56 } else none
  | 0x30 => if isl = islHost then some { units := some [0x80], slots := some 320, mask := opMask 63 51 } else none
  | 0x31 => if isl = islHost then some { units := some [0x81], slots := some mostCalendar, mask := opMask 63 47 } else none
  | 0x38 => if isl = islUlink then some { units := some [0, 1, 2, 3], slots := some 80, mask := opMask 63 63 + opMask 47 32 } else none
  | 0x40 => if isl = 13 then some { units := some [0x0A], timed := some true, mask := opMask 63 52 } else none
  | 0x48 => if isl = islMem then some { units := some [1], timed := some true, mask := opMask 63 60 } else none
  | _ => none

/-- The engine of an island. -/
def islEngine (isl : Nat) : Nat := isl - 3

/-- The slot bound of a word's carrier (reason 4): a group's or leaf carrier's own slots where the profile is committed, those of the port
or client that a HOST_SLOT word names (R142), and the calendar of the group that a FLEXE_ENTRY word names. -/
def State.slotBound (s : State) (isl : Nat) (w : StepWord) (dflt : Nat) : Nat :=
  let n := islEngine isl
  if wAction w = 0x20 ∨ wAction w = 0x21 then
    let eg := wAction w == 0x20
    let e := s.eng n
    if bitAt (wOperand w) 31 then s.leafSize n (wop w 24 7)
    else
      let prof := if eg then e.tx.prof else e.rx.prof
      if prof.isEmpty then 640 else e.cfg.groupSlots prof (wop w 48 16)
  else if wAction w = 0x30 then
    let i := wop w 52 8
    if wop w 60 4 = 2 then
      match (List.range 64).find? fun g => s.clientHandle g i with
      | some g => ((s.flexeClient g (s.handleClient g i)).map Prod.fst).getD mostCalendar
      | none => mostCalendar
    else match s.hostPort i with | some x => x.1 | none => dflt
  else if wAction w = 0x31 then
    match s.flexGroup (wop w 56 8) with
    | some g => 20 * max (s.instances g.phys) (match g.change with | some c => s.instances c.phys | none => 0)
    | none => dflt
  else dflt

/-- Operand fields within their ranges (reason 5). Table 3.4 gives SLOTS of a CIPHER step no range: 1 to 640, as a passage has, are taken
(DESIGN CHOICE, assumption 85). -/
def State.operandOk (s : State) (isl : Nat) (w : StepWord) : Bool :=
  let c := (s.eng (islEngine isl)).cfg
  let m := (s.eng (islEngine isl)).mp
  let sub := wop w 60 4
  match wAction w with
  | 0x10 | 0x11 => 2 ≤ wop w 16 4 && wop w 16 4 ≤ 12
  | 0x12 => wop w 26 2 ≤ 2 && wop w 22 4 ≤ 10 && wop w 28 12 ≤ 3600
  | 0x13 => wop w 48 16 < poolSize
  | 0x18 => (wop w 51 2 == 1 || wop w 51 2 == 2) && 1 ≤ wop w 41 10 && wop w 41 10 ≤ 640 && decide (wop w 33 5 ≥ 16) == bitAt (wOperand w) 53
  | 0x20 | 0x21 => wop w 48 16 != 0 && (bitAt (wOperand w) 31 || wop w 24 7 == 0)
  | 0x22 => 32 ≤ wop w 53 7 && wop w 53 7 ≤ 96 && (!c.configured || sub < c.subs)
  | 0x24 => 10 ≤ wop w 56 8 && wop w 56 8 ≤ 200 && (!c.configured || wop w 56 8 ≤ c.rollMax)
  | 0x25 => sub < c.subs
  | 0x26 => sub < c.subs && wop w 53 7 == m.leafId
  | 0x27 => 1 ≤ wop w 56 7 && wop w 56 7 ≤ 100
  | 0x40 =>
    let k := wop w 60 4
    let i := wop w 52 8
    (k == 3 && i % 16 == 0 && i / 16 < 8) || (k == 4 && i < 4)
  | _ => true

/-- Reasons 1 to 6 of Table 3.6 for one word of an island. -/
def State.wordBad (s : State) (isl : Nat) (raw : Bool) (w : StepWord) : Option Nat :=
  match actRow isl (s.eng (islEngine isl)).mp.role (wAction w) with
  | none => some 1
  | some r =>
    let unitOk := match r.units with
      | none => unitListed (wTarget w)
      | some us => us.contains (unitIndex (wTarget w))
    if unitIsland (wTarget w) ≠ isl ∨ !unitOk then some 2
    else if (wOperand w &&& (2 ^ 64 - 1 - r.mask)) != 0 || (decide (wPeriod w > 10) && wPeriod w != 15) ||
        (if wTimed w then decide (wOffset w ≥ 2 ^ wPeriod w) else wOffset w != 0) ||
        (match r.timed with | some t => t != wTimed w | none => false) || wRaw w != raw then some 3
    else if (match r.slots with
        | none => wSlot w != noSlot
        | some n => decide (wSlot w ≥ s.slotBound isl w n)) then some 4
    else if !(s.operandOk isl w) then some 5
    else if wRaw w && wPassage w != 0 then some 6
    else none

/-! The checks of the whole image (reasons 7 to 15). -/

/-- What tells standing steps of one action, TARGET and SLOT apart (reason 8). Two switch steps of one position and LEG repeat each
other when they name the same two carriers; with others they feed one position twice, reason 9 (DEDUCED from 'for the same carrier',
assumption 82). -/
def wordKey (w : StepWord) : Nat × Nat × Nat × Nat :=
  let x := match wAction w with
    | 0x20 | 0x21 => wop w 48 16 * 256 + wop w 24 8
    | 0x30 => wop w 51 13
    | 0x31 => wop w 56 8 * 2 + wop w 47 1
    | 0x38 => wop w 63 1
    | 0x22 => wop w 60 4
    | 0x10 | 0x11 => (wop w 52 12 * 4096 + wop w 30 12) * 2 + wop w 15 1
    | 0x12 | 0x13 | 0x18 => w.toNat
    | _ => 0
  (wAction w, wTarget w, wSlot w, x)

/-- Do two window steps apply in a common chamber to the same subcarrier and window (R293)? -/
def windowsMeet (a b : StepWord) : Bool :=
  wAction a == wAction b && (wAction a == 0x25 || wAction a == 0x26) && wop a 60 4 == wop b 60 4 && wSlot a == wSlot b &&
    (let p := min (wPeriod a) (wPeriod b)
     wOffset a % 2 ^ p == wOffset b % 2 ^ p)

def isSwitch (w : StepWord) : Bool := wAction w == 0x10 || wAction w == 0x11

/-- IN_CARRIER and IN_SLOT, OUT_CARRIER and OUT_SLOT, LEG of a switch word. -/
def swIn (w : StepWord) : Nat × Nat := (wop w 52 12, wop w 42 10)
def swOut (w : StepWord) : Nat × Nat := (wop w 30 12, wop w 20 10)
def swLeg (w : StepWord) : Nat := wop w 15 1

/-- The carrier, slot and direction (true: egress) that a slot word of an island names. -/
def slotOf (isl : Nat) (w : StepWord) : Option (Nat × Nat × Bool) :=
  let n := islEngine isl
  let code := if bitAt (wOperand w) 31 then (8 + n) * 256 + wop w 24 7 else 0x300 + 16 * n + lowestBit (wop w 48 16)
  match wAction w with
  | 0x20 => some (code, wSlot w, true)
  | 0x21 => some (code, wSlot w, false)
  | 0x30 => some (wop w 52 12, wSlot w, bitAt (wOperand w) 51)
  | 0x38 => some (0x400 + unitIndex (wTarget w), wSlot w, bitAt (wOperand w) 63)
  | _ => none

/-- The carrier codes a word names. -/
def codesOf (isl : Nat) (w : StepWord) : List Nat :=
  if isSwitch w then [(swIn w).1, (swOut w).1]
  else if wAction w = 0x12 then [wop w 52 12, wop w 40 12]
  else if wAction w = 0x40 then [wop w 52 12]
  else match slotOf isl w with | some x => [x.1] | none => []

/-- The unit of a carrier that the package or the fuses may leave out: a host lane or an engine. -/
def codeUnit (code : Nat) : List Nat :=
  let k := code / 256
  let i := code % 256
  if k = 1 ∧ i < 128 then [0x0B00 + i]
  else if k = 3 ∧ i < 128 then [engUnit (i / 16) 0xFE]
  else if 8 ≤ k ∧ k ≤ 15 then [engUnit (k - 8) 0xFE]
  else []

/-- The units that a raw line is aimed at (R15): its TARGET, the carriers it names, and the ENGINE of a CIPHER step. -/
def wordUnits (isl : Nat) (w : StepWord) : List Nat :=
  [wTarget w] ++ (codesOf isl w).flatMap codeUnit ++ if isl == islFab && wAction w == 0x18 then [engUnit (wop w 38 3) 0xFE] else []

/-- Every slot word of an image. -/
def slotWordsOf (img : Tab Bank) : List (Nat × Nat × Bool) := img.flatMap fun b => b.2.words.filterMap (slotOf b.1)

/-- Does a carrier code name a carrier that exists in its current configuration (reason 15)? -/
def State.codeExists (s : State) (code : Nat) : Bool :=
  let k := code / 256
  let i := code % 256
  if k = 1 then (s.hostPort i).isSome
  else if k = 2 then (List.range 64).any fun g => s.clientHandle g i
  else if k = 3 then
    let c := (s.eng (i / 16)).cfg
    i < 128 && c.configured && i % 16 < c.subs
  else if k = 4 then i < 4 && s.ulConfigured i
  else if 8 ≤ k ∧ k ≤ 15 then
    let m := (s.eng (k - 8)).mp
    i < 128 && (m.role == 1 || (m.role == 2 && m.leafId == i))
  else false

/-- The endpoint a carrier code and mask name, for the slots passages hold (reason 12). -/
def State.codeEndpoint (s : State) (isl : Nat) (w : StepWord) : Endpoint × Bool :=
  let n := islEngine isl
  match wAction w with
  | 0x20 => ({ kind := 3, index := n, sub := wop w 48 16, leaf := 0xFFFF, first := 0 }, true)
  | 0x21 => ({ kind := 3, index := n, sub := wop w 48 16, leaf := if bitAt (wOperand w) 31 then wop w 24 7 else 0xFFFF, first := 0 }, false)
  | 0x38 => ({ kind := 4, index := unitIndex (wTarget w) }, bitAt (wOperand w) 63)
  | _ =>
    let code := wop w 52 12
    if code / 256 = 2 then
      let g := ((List.range 64).find? fun g => s.clientHandle g (code % 256)).getD 0
      ({ kind := 2, index := g, sub := s.handleClient g (code % 256) }, bitAt (wOperand w) 51)
    else ({ kind := 1, index := code % 256 }, bitAt (wOperand w) 51)

/-- Do two regions overlap? -/
def overlaps (a b : Nat × Nat) : Bool := decide (a.1 < b.1 + b.2) && decide (b.1 < a.1 + a.2)

/-- The tenant whose key a CIPHER word may name: the owner of its passage, T0 for a raw step (reason 14). -/
def State.wordTenant (s : State) (serves : Option Nat) : Nat :=
  match serves with | some id => (match tget s.pas id with | some p => p.owner | none => 0) | none => 0

/-- The lowest reason of Table 3.6 that a word of an image fails. `before` holds the words of the island ahead of it, `prev` those
of its own region. -/
def State.imageBad (s : State) (img : Tab Bank) (cc isl : Nat) (raw : Bool) (serves : Option Nat) (before prev : List StepWord)
    (w : StepWord) : Option Nat :=
  let past := isl == islFab && wAction w == 0x18 && (cipherUnits (tgetD img islFab {})).any fun x => x.1 == w && decide (x.2.1 + x.2.2 > 5120)
  match (match s.wordBad isl raw w with | some r => some (if past then min r 5 else r) | none => if past then some 5 else none) with
  | some r => some r
  | none =>
    let all := (tgetD img isl {}).words
    let fab := (tgetD img islFab {}).words
    let slotSteps := slotWordsOf img
    let rawSets := (tgetD img islFab {}).raw.filter isSwitch
    let timedAt := fun (ph : Nat) (l : List StepWord) => (l.filter fun x => wTimed x && ph % 2 ^ wPeriod x == wOffset x).length
    if wTimed w && (prev.any fun x => wTimed x && decide (wOffset x > wOffset w)) then some 7
    else if before.any fun x => (!(wTimed w) && !(wTimed x) && wAction w != 0 && wordKey x == wordKey w) || windowsMeet x w then some 8
    else if isSwitch w && (
        (before.any fun x => wAction x == wAction w && wSlot x == wSlot w && swLeg x == swLeg w) ||
        (before.any fun x => isSwitch x && swOut x == swOut w && !(wAction x == wAction w && wSlot x == wSlot w)) ||
        (swLeg w == 1 && !(all.any fun x => wAction x == wAction w && wSlot x == wSlot w && swLeg x == 0 &&
          wPassage x == wPassage w && wRaw x == wRaw w && (swIn x == swIn w || swOut x == swOut w)))) then some 9
    else if (isSwitch w && (!(slotSteps.contains ((swIn w).1, (swIn w).2, false)) || !(slotSteps.contains ((swOut w).1, (swOut w).2, true)))) ||
        (match slotOf isl w with
          | some (c, k, eg) => !(fab.any fun x => isSwitch x && (if eg then swOut x == (c, k) else swIn x == (c, k)))
          | none => false) then some 10
    else if wAction w == 0x13 && (
        decide (wop w 48 16 + wop w 32 16 > poolSize) ||
        (before.any fun x => wAction x == 0x13 && overlaps (wop x 48 16, wop x 32 16) (wop w 48 16, wop w 32 16)) ||
        !(if raw then rawSets.any fun x =>
            (rawSets.filter fun y => (swIn y).1 == (swIn x).1 && (swOut y).1 == (swOut x).1 && swLeg y == 0).length * wop x 16 4 == wop w 32 16
          else match serves with
            | some id => (match tget s.pas id with | some p => p.slots * p.delay == wop w 32 16 | none => false)
            | none => false)) then some 11
    else if raw && (
        (match slotOf isl w with
          | some (_, k, eg) => (s.pasSlots (s.codeEndpoint isl w).1 eg cc).contains k
          | none => false) ||
        (isSwitch w && (s.pasPlane (wAction w == 0x10) cc).contains (wSlot w)) ||
        (wAction w == 0x13 && ((s.pasBuffer cc).any fun r => overlaps r (wop w 48 16, wop w 32 16))) ||
        (wAction w == 0x18 && decide (s.pasCipher (bitAt (wOperand w) 53) cc +
          hSum (((before ++ [w]).filter fun x => wAction x == 0x18 && wRaw x && bitAt (wOperand x) 53 == bitAt (wOperand w) 53).map
            fun x => wop x 41 10) > 5120))) then some 12
    else if wTimed w && ((List.range (2 ^ (10 - wPeriod w))).any fun k =>
        decide (timedAt (wOffset w + k * 2 ^ wPeriod w) (before ++ [w]) > stepBudget isl)) then some 13
    else if wAction w == 0x18 && !(s.keyLoaded (wop w 54 10) (s.wordTenant serves)) then some 14
    else if (codesOf isl w).any fun c => !(s.codeExists c) then some 15
    else none

/-- The first failing word of one island's words. -/
def State.firstBadWord (s : State) (img : Tab Bank) (cc isl : Nat) : Option (Nat × Nat × Nat) :=
  let b := tgetD img isl {}
  let fw := b.fw.map FwWord.w
  let inFw := (List.range b.fw.length).findSome? fun i =>
    match b.fw[i]? with
    | some x => (s.imageBad img cc isl false x.serves (fw.take i) (fw.take i) x.w).map fun r => (r, 0, i)
    | none => none
  match inFw with
  | some x => some x
  | none => (List.range b.raw.length).findSome? fun i =>
    match b.raw[i]? with
    | some w => (s.imageBad img cc isl true none (fw ++ b.raw.take i) (b.raw.take i) w).map fun r => (r, 1, i)
    | none => none

/-- The first failure of an image in the order of R109: reason, island, region, index. -/
def State.validate (s : State) (img : Tab Bank) (cc : Nat) : Option (Nat × Nat × Nat × Nat) :=
  (List.range 15).findSome? fun isl => (s.firstBadWord img cc isl).map fun x => (x.1, isl, x.2.1, x.2.2)

/-! TABLE_WRITE (R104 to R107). -/

/-- The words of a payload. -/
def wordsAt (q : Request) (o n : Nat) : List StepWord := (List.range n).map fun k => BitVec.ofNat 128 (q.u (o + 16 * k) 16)

/-- FAILED_INDEX none. -/
def noIndex : Nat := 0xFFFFFFFF

/-- The raw region of an island in the image of a chamber, with the edits made so far (R105). -/
def State.rawImage (s : State) (cc isl : Nat) : List StepWord :=
  (tgetD ((s.editsAt cc).foldl applyRaw (s.imageBefore cc)) isl {}).raw

/-- Words held by raw edits of uncommitted chambers. -/
def State.heldEdits (s : State) : Nat :=
  hSum (s.tab.edits.map fun e => hSum (e.2.map fun x => match x.2 with | .write _ ws => ws.length | _ => 0))

/-- Record an edit for a chamber. -/
def State.addEdit (s : State) (cc : Nat) (e : Nat × RawOp) : State :=
  let es := s.editsAt cc ++ [e]
  { s with tab := { s.tab with edits := (s.tab.edits.filter fun x => x.1 != cc) ++ [(cc, es)] } }

/-- Drop every edit of an island and chamber. -/
def State.dropEdits (s : State) (cc isl : Nat) : State :=
  { s with tab := { s.tab with edits := s.tab.edits.map fun x => if x.1 = cc then (x.1, x.2.filter fun e => e.1 != isl) else x } }

/-- TABLE_WRITE; one that arrives during the copy of R94 waits for its end. A FIRST_INDEX beyond the region is refused of OP 2 as R105
says of OP 1, which is the model's choice (assumption 82). -/
def State.cmdTableWrite (s : State) (q : Request) : State :=
  let isl := q.u 0 1
  let op := q.u 1 1
  let n := q.u 2 2
  let first := q.u 4 4
  let cc := q.ch 8
  let ws := wordsAt q 16 n
  let region := s.rawImage cc isl
  let edit : RawOp := if op = 1 then .write first ws else .trunc first
  let after := rawEdit region edit
  let fwLen := (tgetD (s.imageAt cc) isl {}).fw.length
  let failed := (List.range n).findSome? fun i => match ws[i]? with
    | some w => (s.wordBad isl true w).map fun r => (r, first + i)
    | none => none
  if s.behindCopy 0x0304 q then s.hold 0x0304 q
  else
    s.serve 0x0304 q 8 (q.len == 16 + 16 * n)
      [.bad (decide (isl > 14) || op < 1 || op > 3 || n > 254 || (op != 1 && n != 0) || cc == 0 || !(q.rsv 14 2)) .badParam 0,
       .present [isl * 256 + 0xFE], .lit (ws.flatMap (wordUnits isl)), onlyT0 q,
       .bad (op != 3 && decide (first > region.length)) .badParam 0,
       .badWith (op == 1 && failed.isSome) .badParam ((failed.map Prod.fst).getD 0)
         (zeros 2 ++ le 4 ((failed.map Prod.snd).getD noIndex)),
       .bad (match s.commitAt cc with | some c => c.user | none => false) .notReady 0,
       .bad (op == 1 && decide (fwLen + after.length > bankSize isl)) .noResource 1,
       .bad (op == 1 && decide (s.heldEdits + n > 65536)) .noResource 2]
      (fun s =>
        let s := if op = 3 then s.dropEdits cc isl else s.addEdit cc (isl, edit)
        (s, some (okay4 ++ le 4 noIndex)))
      (zeros 2 ++ le 4 noIndex)

/-! TABLE_COMMIT (R108 to R116). -/

/-- The bytes of a TABLE_COMMIT response from FAILED_ISLAND on for a failure that is no word's. -/
def commitTail : List Byte := le 1 0xFF ++ le 1 0xFF ++ le 4 noIndex

/-- Islands whose image a commit at `cc` with these edits changes. -/
def State.changedIslands (s : State) (img : Tab Bank) : List Nat :=
  (List.range 15).filter fun i => tgetD img i {} != s.bank i

/-- Do the raw edits of a commit change the LEAF_WINDOW or transmit LOADING steps of an engine (R297)? -/
def State.leafEdit (s : State) (n : Nat) (img : Tab Bank) (cc : Nat) : Bool :=
  let of := fun (b : Tab Bank) => (tgetD b (islEng n) {}).words.filter fun w =>
    wAction w == 0x26 || (wAction w == 0x22 && wTarget w == engUnit n 0)
  of img != of (s.imageAt cc)

/-- TABLE_COMMIT. -/
def State.cmdTableCommit (s : State) (q : Request) : State :=
  let paired := bitAt (q.u 8 1) 0
  let n := q.u 9 1
  let badReq := q.u 8 1 > 1 || !(q.rsv 6 2) || !(q.rsv 12 4) || (paired && decide (n > 7)) || (!paired && !(q.rsv 9 3))
  let pn := if paired then some n else none
  let cc := if q.ch 0 = 0 then s.earliest paired else q.ch 0
  let edits := s.editsAt cc
  let img := edits.foldl applyRaw (s.imageAt cc)
  let failed := s.validate img cc

  let sched := match s.commitBad cc pn with
    | some x => some x
    | none => if (List.range 8).any fun k => s.leafEdit k img cc && s.leafLate k cc then some (.notReady, 2) else none
  if s.behindCopy 0x0305 q then s.hold 0x0305 q else
  s.serve 0x0305 q 20 (q.len == 16)
    [.bad badReq .badParam 0, .lit ((if paired then [islEng n * 256 + 0xFE] else []) ++ (s.changedIslands img).map fun i => i * 256 + 0xFE), onlyT0 q,
     .badWith failed.isSome .badParam ((failed.map fun x => x.1).getD 0)
       (match failed with | some x => le 1 x.2.1 ++ le 1 x.2.2.1 ++ le 4 x.2.2.2 | none => []),
     .bad (match sched with | some (.notReady, _) => true | _ => false) .notReady ((sched.map Prod.snd).getD 0),
     .bad sched.isSome .noResource ((sched.map Prod.snd).getD 0)]
    (fun s =>
      let p := if paired then some { engine := n, farNode := q.u 10 2, since := s.chamber : Paired } else none
      let s := s.schedule cc p edits []
      let s := { s with tab := { s.tab with
        commits := s.tab.commits.map fun c => if c.cc = cc then { c with user := true } else c
        edits := s.tab.edits.filter fun e => e.1 != cc } }
      (s, some (okay4.take 2 ++ commitTail ++ le 8 cc ++ le 4 (s.generationAt cc))))
    commitTail

/-! TABLE_READ (R100, R101). -/

/-- What a tenant other than T0 sees of a firmware word. -/
def State.maskWord (s : State) (t : Nat) (x : FwWord) : StepWord :=
  match x.serves with
  | some id => (match tget s.pas id with | some p => if p.owner = t then x.w else 0 | none => 0)
  | none => 0

/-- TABLE_READ. -/
def State.cmdTableRead (s : State) (q : Request) : State :=
  let isl := q.u 0 1
  let img := q.u 1 1 == 1
  let raw := q.u 2 1 == 1
  let cc := q.ch 8
  let first := q.u 4 4
  let b := if img then tgetD (s.imageAt cc) isl {} else s.bank isl
  let words := if raw then b.raw else b.fw.map fun x => if q.tenant = 0 then x.w else s.maskWord q.tenant x
  let out := (words.drop first).take (q.u 3 1)
  if s.serving && s.tab.copying.isSome && img then s.hold 0x0306 q
  else
    s.serve 0x0306 q 16 (q.len == 16)
      [.bad (decide (isl > 14) || q.u 1 1 > 1 || q.u 2 1 > 1 || q.u 3 1 < 1 || q.u 3 1 > 254 || !(q.rsv 14 2) || (!img && cc != 0)) .badParam 0,
       .present [isl * 256 + 0xFE], s.anyTenant q, .bad (raw && q.tenant != 0) .notPermitted 0,
       .bad ((img && (s.commitAt cc).isNone) || decide (first > words.length)) .badParam 0]
      fun s => (s, some
        (le 1 0 ++ le 1 0 ++ le 2 out.length ++ le 4 (if img then s.generationAt cc else s.generation) ++ le 4 words.length ++
          le 4 first ++ out.flatMap fun w => le 16 w.toNat))

/-- The copy of the new active bank into the image bank ends, and with it the image bank is that copy; the table and passage commands
that waited for it are served in order of receipt (R94, R101, R115). -/
def State.bankCopied (s : State) (run : State → Nat → Request → State) : State :=
  match s.tab.copying with
  | none => s
  | some _ =>
    let s := { s with tab := { s.tab with copying := none, image := s.tab.banks } }
    (s.com.received.filter fun r => r.waits && (tableOps.contains r.op || r.op == 0x0306)).foldl (fun (s : State) r => run s r.op r.req) s

end Sys2Proof.Machine
end

