-- ==== Sys2Proof/Machine/Timing.lean ====
section
/-!
DEFINITION. References, the loop and domain time (11_timing.md). Domain messages are in Domain.lean.
-/
namespace Sys2Proof.Machine

/-- Change the timing state. -/
def State.modTim (s : State) (f : Timing → Timing) : State := { s with tim := f s.tim }

/-- Change a configured input. -/
def State.modInput (s : State) (i : Nat) (f : TimeInput → TimeInput) : State :=
  s.modTim fun t => { t with inputs := tmod t.inputs i f }

/-- An input that gives the phase of domain time (Table 11.3). -/
def timeClass (i : Nat) : Bool := i == 8 || (24 ≤ i && i ≤ 27) || (32 ≤ i && i ≤ 39)

/-- A two-way input. -/
def twoWay (i : Nat) : Bool := (24 ≤ i && i ≤ 27) || (32 ≤ i && i ≤ 39)

/-- The rank of a quality level (Table 11.5); 5 and above is unusable. -/
def qlRank : Nat → Nat
  | 0x2 => 1 | 0x4 => 2 | 0x8 => 3 | 0xB => 4 | _ => 5

/-- Is a code one of Table 11.5? -/
def qlCode (c : Nat) : Bool := c == 2 || c == 4 || c == 8 || c == 0xB || c == 0xF

/-- The QL an input has now: none for QL-FAILED (R394). An input that has received none yet has QL-DNU until it does. -/
def TimeInput.qlNow (i : TimeInput) : Option Nat :=
  if i.qlMode = 0 then some i.ql else if i.qlFailed then none else some (i.rxQl.getD 0xF)

/-- Is the QL of an input usable? -/
def TimeInput.usable (i : TimeInput) : Bool := match i.qlNow with | some c => qlRank c ≤ 4 | none => false

/-- QUALIFY_S in force. -/
def TimeInput.qualify (i : TimeInput) : Nat := if i.qualifyS = 0 then 10 else i.qualifyS

/-- HOLDOVER_GUARD_S in force. -/
def Timing.guard (t : Timing) : Nat := if t.guardS = 0xFF then 0 else t.guardS

/-- WTR_S in force. -/
def Timing.wtr (t : Timing) : Nat := if t.wtrS = 0xFFFF then 0 else t.wtrS

/-- Is the loop on an input? -/
def State.loopLocked (s : State) : Bool := s.tim.loopSt == 2 || s.tim.loopSt == 3

/-- Is a clock output low: off, or its squelch condition holds (R421)? -/
def ClkOut.low (c : ClkOut) (loopSt : Nat) : Bool := c.hz == 0 || (c.squelch ≥ 1 && loopSt == 0) || (c.squelch == 2 && loopSt == 4)

/-- The monotone time of the next whole second of domain time. -/
def State.nextSecond (s : State) : Nat := s.mono + (secQ - s.now % secQ)

/-- The clock outputs after a change of the loop state or of their configuration: one whose condition has cleared runs from the next whole
second on (R421). -/
def State.syncClks (s : State) : State :=
  s.modTim fun t => { t with clks := tmapv t.clks fun _ c =>
    { c with from_ := if c.low t.loopSt then none else some (c.from_.getD s.nextSecond) } }

/-- Enter a loop state; a change sets TIME_STATE in T0's INT_STATUS. -/
def State.setLoop (s : State) (st : Nat) : State :=
  if s.tim.loopSt = st then s else ((s.modTim fun t => { t with loopSt := st }).syncClks).setInt 0 6

/-! Selection (R397, R398). -/

/-- The rank of an input for selection. -/
def TimeInput.rank (i : TimeInput) : Nat := match i.qlNow with | some c => qlRank c | none => 5

/-- Does `a` come before `b` in the order of R397: rank, PRIORITY, index? -/
def selBefore (a b : Nat × TimeInput) : Bool :=
  decide (a.2.rank < b.2.rank) ||
    (a.2.rank == b.2.rank && (decide (a.2.priority < b.2.priority) || (a.2.priority == b.2.priority && decide (a.1 < b.1))))

/-- The first of a list in the order of R397. -/
def selFirst (l : List (Nat × TimeInput)) : Option (Nat × TimeInput) :=
  l.foldl (fun best x => match best with
    | none => some x
    | some b => if selBefore x b then some x else some b) none

/-- The QUALIFIED inputs that can be selected: the undisputed ones, or, where there is none, the disputed ones. -/
def State.candidates (s : State) : List (Nat × TimeInput) :=
  let q := s.tim.inputs.filter fun x => x.2.st == 3 && x.2.usable
  let clean := q.filter fun x => x.2.disputed.isNone
  if clean.isEmpty then q else clean

/-- The input that should be selected (R397): the current one is kept unless it is no candidate, another has a better rank, or,
with REVERTIVE, another has a lower PRIORITY and has been QUALIFIED for WTR_S. -/
def State.bestInput (s : State) : Option Nat :=
  let c := s.candidates
  let best := (selFirst c).map Prod.fst
  match s.tim.selected with
  | none => best
  | some k =>
    match c.find? fun x => x.1 == k with
    | none => best
    | some cur =>
      let better := c.filter fun x =>
        decide (x.2.rank < cur.2.rank) ||
          (bitAt s.tim.flags 0 && x.2.rank == cur.2.rank && decide (x.2.priority < cur.2.priority) &&
            s.since x.2.qualAt (s.tim.wtr * secQ))
      match selFirst better with
      | some b => some b.1
      | none => some k

/-- The time source (R398). -/
def State.bestSource (s : State) (sel : Option Nat) : Option Nat :=
  match sel with
  | some k =>
    if (s.input k).timeUse then some k
    else (selFirst (s.tim.inputs.filter fun x => x.2.st == 3 && x.2.usable && x.2.timeUse)).map Prod.fst
  | none => (selFirst (s.tim.inputs.filter fun x => x.2.st == 3 && x.2.usable && x.2.timeUse)).map Prod.fst

/-- Raise REF_SELECTED: new input, old input (0xFF for none), role. -/
def State.selectedEvent (s : State) (new old : Option Nat) (role : Nat) : State :=
  s.raise islTime .refSelected 0xFFFF (le 1 (new.getD 0xFF) ++ le 1 (old.getD 0xFF) ++ le 1 role)

/-- The mean of the history that holdover runs on (R405). -/
def State.heldFrequency (s : State) : Option (Nat × Int) :=
  let h := s.tim.history.drop s.tim.guard
  if h.length ≥ 120 then
    let n := min s.tim.avgS h.length
    some (h.length, (h.take n).foldl (· + ·) 0 / (n : Int))
  else none

/-- The loop frequency of FREE_RUN: the oscillator's nominal one, corrected by the stored offset with USE_STORED_OFFSET (R405). -/
def State.freeFrequency (s : State) : Int :=
  match s.store.oscOffset with | some o => if bitAt s.tim.flags 1 then o.1 else 0 | none => 0

/-- No QUALIFIED input is left (R405): HOLDOVER on at least 120 s of history before the guard, FREE_RUN otherwise. -/
def State.holdOver (s : State) : State :=
  if s.tim.loopSt = 0 ∨ s.tim.loopSt = 4 then s
  else match s.heldFrequency with
    | some (n, f) =>
      let s := (s.setLoop 4).modTim fun t => { t with loopFreq := f }
      s.raise islTime .timeHoldover 0xFFFF (le 2 (satN 2 n) ++ leS 4 f)
    | none =>
      let stored := bitAt s.tim.flags 1 && s.store.oscOffset.isSome
      let s := (s.setLoop 0).modTim fun t => { t with loopFreq := s.freeFrequency }
      s.raise islTime .timeFreeRun 0xFFFF (le 1 (bit stored))

/-- Run the selection again (R397, R398, R402, R403, R405). -/
def State.reselect (s : State) : State :=
  let old := s.tim.selected
  let new := s.bestInput
  let s :=
    if new = old then s
    else
      let s := (s.modTim fun t => { t with selected := new }).selectedEvent new old 1
      match new with
      | none => s.holdOver
      | some _ =>
        if s.tim.loopSt = 0 ∨ s.tim.loopSt = 4 then
          (s.setLoop 1).modTim fun t => { t with bwStep := 0, dwellAt := s.mono }
        else if s.tim.loopSt = 1 then s.modTim fun t => { t with bwStep := 0, dwellAt := s.mono }
        else s
  let oldSrc := s.tim.source
  let src := s.bestSource s.tim.selected
  if src = oldSrc then s
  else
    (s.modTim fun t => { t with source := src, wasSet := t.wasSet || src.isSome }).selectedEvent src oldSrc 2

/-- An input leaves QUALIFIED or another state for `st` with a cause (R396); REF_DISQUALIFIED is raised when it was QUALIFIED.
Cause 0 leaves the last disqualifying cause (Table 11.12). -/
def State.leaveState (s : State) (i st cause : Nat) : State :=
  let was := (s.input i).st
  let s := s.modInput i fun x => { x with st := st, cause := if cause = 0 then x.cause else cause, since := s.mono, disputed := none, agreeAt := none, cleanAt := none }
  if was = 3 then s.raise islTime .refDisqualified i (le 1 cause) else s

/-- An input in any state goes to LOST (R396, R405). -/
def State.dropInput (s : State) (i : Nat) : State :=
  if !(thas s.tim.inputs i) || (s.input i).st == 1 then s
  else ((s.leaveState i 1 1).modInput i fun x => { x with means := [] }).reselect

/-- The signal of an input is lost, configured or not; in any state the input goes to LOST (R396, R405). -/
def State.inputLost (s : State) (i : Nat) : State :=
  (s.modTim fun t => { t with present := t.present.filter fun k => k != i }).dropInput i

/-- Does QL-DNU or QL-FAILED disqualify an input (R396, cause 4)? One that has received no QL yet is not disqualified for that. -/
def TimeInput.badQl (x : TimeInput) : Bool :=
  if x.qlMode = 0 then qlRank x.ql == 5 else x.qlFailed || (match x.rxQl with | some c => qlRank c == 5 | none => false)

/-- An input with an unusable quality level does not stay in QUALIFYING or QUALIFIED (R396). -/
def State.judgeQl (s : State) (i : Nat) : State :=
  let x := s.input i
  if thas s.tim.inputs i && (x.st == 2 || x.st == 3) && x.badQl then s.leaveState i 4 4 else s

/-- The elastic buffer of an engine or Umran port. -/
def State.partner (s : State) (i : Nat) : Partner := tgetD s.tim.partners i {}

/-- Change the elastic buffer of an engine or Umran port. -/
def State.modPartner (s : State) (i : Nat) (f : Partner → Partner) : State := s.modTim fun t => { t with partners := tput t.partners i (f (s.partner i)) }

/-- The signal of an input is present; a configured input enters QUALIFYING (R396). -/
def State.inputPresent (s : State) (i : Nat) : State :=
  let s := if twoWay i && !(s.tim.present.contains i) then s.modPartner i fun p => { p with exAt := s.mono } else s
  let s := s.modTim fun t => { t with present := if t.present.contains i then t.present else i :: t.present }
  if (s.input i).st = 1 ∧ thas s.tim.inputs i then (s.modInput i fun x => { x with st := 2, since := s.mono }).judgeQl i else s

/-- Does the carrier of an input deliver what the input needs: recovered clock, link lock, frame lock and light, a port that is up
(Table 11.3)? The reference pins themselves are the board's. -/
def State.carries (s : State) (i : Nat) : Bool :=
  if i ≤ 8 then true
  else if i ≤ 23 then (s.eng (i - 16)).rx.lock && !(s.eng (i - 16)).rx.los
  else if i ≤ 27 then (s.ulPort (i - 24)).up
  else if i ≤ 39 then (s.eng (i - 32)).rx.frame && !(s.eng (i - 32)).rx.los
  else match s.port (i - 64) with | some p => p.up | none => false

/-- REF_INPUT_PRESENT. -/
def State.refPresent (s : State) (i : Nat) : State := if s.carries i then s.inputPresent i else s

/-- Is an input to be declared lost (Table 11.3)? `quiet` is the time since the last edge of a reference pin, in 0.25 ns. -/
def State.lossSeen (s : State) (i quiet : Nat) : Bool :=
  if i ≤ 7 then decide (usQ ≤ quiet) && decide (3 * secQ ≤ quiet * (s.input i).freqHz) || ((s.input i).freqHz == 0 && decide (usQ ≤ quiet))
  else if i = 8 then decide (s.tim.ppsAt + secQ + 10 * usQ < s.mono)
  else !(s.carries i) || (twoWay i &&
    s.since (s.partner i).exAt (64 * 2 ^ (match tget s.tim.inputs i with | some x => x.periodLog | none => 4) * chamberQ))

/-- REF_INPUT_LOST. -/
def State.refLost (s : State) (i quiet : Nat) : State := if s.lossSeen i quiet then s.inputLost i else s

/-- A valid exchange on an engine or Umran port, whose two-way input is present with it (R392, R408). -/
def State.exchanged (s : State) (i : Nat) (theta delay : Int) : State :=
  let s := (s.modPartner i fun p => { p with exAt := s.mono }).modInput i fun x => { x with theta := theta, delay := delay }
  if s.carries i then s.inputPresent i else s

/-- An input becomes QUALIFIED (R396). -/
def State.qualified (s : State) (i : Nat) : State :=
  let s := s.modInput i fun x => { x with st := 3, qualAt := s.mono, cleanAt := none }
  let s := s.raise islTime .refQualified i (le 1 (((s.input i).qlNow).getD 0xFF))
  s.reselect

/-- After QUALIFY_S clean seconds an input is QUALIFIED (R396). -/
def State.refQualified (s : State) (i : Nat) : State :=
  let x := s.input i
  if x.st = 2 ∧ thas s.tim.inputs i ∧ x.usable ∧ s.since x.since (x.qualify * secQ) then s.qualified i else s

/-- With QL_MODE 1, 5 s without a QL make QL-FAILED, which disqualifies with cause 4 (R394, R396). -/
def State.qlTimeout (s : State) (i : Nat) : State :=
  let x := s.input i
  if !(thas s.tim.inputs i) || x.qlMode == 0 || x.qlFailed || !(s.since x.rxQlAt (5 * secQ)) then s
  else
    let s := s.modInput i fun x => { x with qlFailed := true }
    if x.st = 2 ∨ x.st = 3 then (s.leaveState i 4 4).reselect else s

/-- An input received a QL (R394): cause 4 comes or goes with it. -/
def State.receiveQl (s : State) (i ql : Nat) : State :=
  if !(thas s.tim.inputs i) || (s.input i).qlMode == 0 then s
  else
    let s := s.modInput i fun x => { x with rxQl := some ql, rxQlAt := s.mono, qlFailed := false }
    let x := s.input i
    if !x.usable then (if x.st = 2 ∨ x.st = 3 then (s.leaveState i 4 4).reselect else s)
    else if x.st = 4 ∧ x.cause = 4 then s.modInput i fun x => { x with st := 2, since := s.mono }
    else s.reselect

/-! The per-second evaluation (R390, R396, R399, R401, R404). -/

/-- The absolute value of an integer. -/
def absI (x : Int) : Nat := x.natAbs

/-- The slope of the least-squares straight line through equally spaced values, oldest first, `rate` of them in a second, rounded toward
zero. -/
def slopeOf (rate : Nat) (l : List Int) : Int :=
  let xs := (List.range l.length).map fun (k : Nat) => (2 * k : Int) - (l.length : Int) + 1
  let num := ((xs.zip l).map fun x => x.1 * x.2).foldl (· + ·) 0
  let den := (xs.map fun x => x * x).foldl (· + ·) 0
  (2 * (rate : Int) * num).tdiv den

/-- S1 of a measurement (R401). -/
def slope1 (m : Meas) : Int := slopeOf m.freqs.length m.freqs

/-- S100 of an input, once it has been monitored for 100 s: the fit over its 1 s means (R401). -/
def TimeInput.s100 (x : TimeInput) : Option Int := if x.means.length = 100 then some (slopeOf 1 x.means.reverse) else none

/-- Offset and drift of one input (R396, R401). -/
def State.evalInput (s : State) (m : Meas) : State :=
  if !(thas s.tim.inputs m.input) || (s.input m.input).st == 1 || m.freqs.isEmpty then s
  else
    let i := m.input
    let mean := m.freqs.foldl (· + ·) 0 / (m.freqs.length : Int)
    let s := s.modInput i fun x => { x with mean := mean, means := (mean :: x.means).take 100 }
    let t := s.tim
    let off := absI (mean - s.freeFrequency)
    let long := (s.input i).s100
    let s100 := (long.map absI).getD 0
    let soft1 := decide (absI (slope1 m) ≥ t.d1Soft)
    let soft100 := long.isSome && decide (s100 ≥ t.d100Soft)
    let hard := decide (absI (slope1 m) ≥ t.d1Hard) || (long.isSome && decide (s100 ≥ t.d100Hard))
    let x := s.input i
    let s :=
      if (x.st = 2 ∨ x.st = 3) ∧ (soft1 || soft100) = true ∧ x.driftWarn = false then
        (s.modInput i fun x => { x with driftWarn := true }).raise islTime .refDriftWarn i
          (le 1 (if soft1 then 1 else 100) ++ leS 4 (if soft1 then slope1 m else long.getD 0))
      else if !soft1 && !soft100 then s.modInput i fun x => { x with driftWarn := false }
      else s
    if (x.st = 2 ∨ x.st = 3) ∧ hard = true then s.leaveState i 4 3
    else if (x.st = 2 ∨ x.st = 3) ∧ off > t.offsetPpb * 1000 then s.leaveState i 4 2
    else if x.st = 4 ∧ x.cause = 2 ∧ off ≤ t.offsetPpb * 900 then (s.modInput i fun x => { x with st := 2, since := s.mono }).judgeQl i
    else if x.st = 4 ∧ x.cause = 3 then
      if soft1 || soft100 then s.modInput i fun x => { x with cleanAt := none }
      else match x.cleanAt with
        | none => s.modInput i fun x => { x with cleanAt := some s.mono }
        | some c =>
          if s.since c (t.cleanS * secQ) && x.usable && decide (off ≤ t.offsetPpb * 1000) then s.qualified i else s
    else s

/-- The pairs that are compared (R399): QUALIFIED, same QL and PRIORITY, lower index first. -/
def State.disputePairs (s : State) : List ((Nat × TimeInput) × (Nat × TimeInput)) :=
  let q := s.tim.inputs.filter fun x => x.2.st == 3
  q.flatMap fun a => (q.filter fun b => decide (a.1 < b.1) && a.2.qlNow == b.2.qlNow && a.2.priority == b.2.priority).map fun b => (a, b)

/-- One pair of the dispute test (R399). -/
def State.disputePair (s : State) (p : (Nat × TimeInput) × (Nat × TimeInput)) : State :=
  let lim : Nat := s.tim.disputePpb * 1000
  let (a, b) := p
  let known := s.tim.pairs.contains (a.1, b.1)
  if absI (a.2.mean - b.2.mean) ≤ lim then s.modTim fun t => { t with pairs := t.pairs.filter fun x => x != (a.1, b.1) }
  else
    let voters := s.tim.inputs.filter fun x => x.2.st == 3 && x.1 != a.1 && x.1 != b.1
    let va := (voters.filter fun v => decide (absI (v.2.mean - a.2.mean) ≤ lim)).length
    let vb := (voters.filter fun v => decide (absI (v.2.mean - b.2.mean) ≤ lim)).length
    let s := if va < vb then s.modInput a.1 fun x => { x with disputed := some b.1, agreeAt := none }
      else if vb < va then s.modInput b.1 fun x => { x with disputed := some a.1, agreeAt := none } else s
    if known then s
    else
      (s.modTim fun t => { t with pairs := t.pairs ++ [(a.1, b.1)] }).raise islTime .refDispute 0xFFFF
        (le 1 a.1 ++ le 1 b.1 ++ le 1 (if va < vb then a.1 else if vb < va then b.1 else 0xFF) ++ le 1 va ++ le 1 vb)

/-- A DISPUTED input is cleared after CLEAN_S within DISPUTE_PPB of the input that outvoted it (R399). -/
def State.disputeClear (s : State) (i : Nat) : State :=
  let x := s.input i
  match x.disputed with
  | none => s
  | some o =>
    if absI (x.mean - (s.input o).mean) ≤ s.tim.disputePpb * 1000 then
      match x.agreeAt with
      | none => s.modInput i fun x => { x with agreeAt := some s.mono }
      | some t =>
        if s.since t (s.tim.cleanS * secQ) then s.modInput i fun x => { x with disputed := none, agreeAt := none } else s
    else s.modInput i fun x => { x with agreeAt := none }

/-- Step domain time by `d` quarter-nanoseconds (R390): every open bin closes with STEPPED, and TIME_STEPPED is raised with the
chamber number of the new time. -/
def State.stepTime (s : State) (dest : Nat) (closeBins : Nat → State → State) : State :=
  let d : Int := ((dest : Int) - (s.now : Int)) / 4
  let s := { (closeBins dest s) with now := dest }
  let s := s.modTim fun t => { t with wasSet := true, stepWarn := false }
  s.raise islTime .timeStepped 0xFFFF (leS 8 d)

/-- The phase of the time source less that of domain time in ps: the last PPS_IN edge's, or the last exchange's (R398, R409). -/
def State.sourcePhase (s : State) : Int :=
  match s.tim.source with
  | none => 0
  | some 8 => s.tim.ppsPhase
  | some i => (s.input i).theta * 250

/-- Domain time has moved by `d` ps toward the time source; what is left is PHASE_PS. -/
def State.phaseMoved (s : State) (d : Int) : State :=
  let s := match s.tim.source with
    | none => s
    | some 8 => s.modTim fun t => { t with ppsPhase := t.ppsPhase - d }
    | some i => s.modInput i fun x => { x with theta := x.theta - d / 250 }
  s.modTim fun t => { t with phasePs := s.sourcePhase }

/-- Bring domain time to the time source's phase (R390): a step at the first lock where it is allowed, a slew otherwise. A step at the
first lock that is held off happens once nothing holds it off. -/
def State.followPhase (s : State) (closeBins : Nat → State → State) : State :=
  match s.tim.source with
  | none => s.modTim fun t => { t with phasePs := 0 }
  | some _ =>
    let phasePs := s.sourcePhase
    let big := decide (absI phasePs > 1000000)
    let first := !s.tim.locked1 && s.loopLocked
    if big && first && bitAt s.tim.flags 2 && !s.stepBlocked then
      let s := s.stepTime ((s.now : Int) + phasePs * 4 / 1000).toNat closeBins
      (s.modTim fun t => { t with locked1 := true }).phaseMoved phasePs
    else
      let s := if big && s.stepBlocked && !s.tim.stepWarn then
          (s.modTim fun t => { t with stepWarn := true }).raise islTime .timeStepNeeded 0xFFFF (leS 8 (phasePs / 1000))
        else if !big then s.modTim fun t => { t with stepWarn := false } else s
      let lim : Int := (s.tim.slew * 1000 : Nat)
      let d := max (-lim) (min lim phasePs)
      let s := { s with now := ((s.now : Int) + d * 4 / 1000).toNat }
      let held := big && bitAt s.tim.flags 2 && s.stepBlocked
      (s.modTim fun t => { t with locked1 := t.locked1 || (first && !held) }).phaseMoved d

/-- REF_SECOND_EVAL: each second the monitors' measurements and the loop frequency are taken in, and domain time follows the time
source. -/
def State.secondEval (s : State) (ms : List Meas) (loopFreq : Int) (closeBins : Nat → State → State) : State :=
  if !(s.since s.tim.evalAt secQ) then s
  else
    let s := s.modTim fun t => { t with evalAt := s.mono }
    let s := ms.foldl (fun s m => s.evalInput m) s
    let s := s.disputePairs.foldl (fun s p => s.disputePair p) s
    let s := (tkeys s.tim.inputs).foldl (fun s i => s.disputeClear i) s
    let s := s.reselect
    let s := if s.tim.loopSt = 1 ∨ s.loopLocked then s.modTim fun t => { t with loopFreq := loopFreq } else s
    let s := if s.tim.loopSt = 3 then s.modTim fun t => { t with history := (loopFreq :: t.history).take 3600 } else s
    s.followPhase closeBins

/-! The loop (R402, R405). -/

/-- Has the dwell of 2 / B_k seconds at step k ended, with B_k = 120 (B_T / 120)^(k/4) Hz: in exact arithmetic on the fourth
powers, B_T being TRACK_BW in mHz. -/
def dwellOver (k trackBw elapsed : Nat) : Bool :=
  decide (elapsed ^ 4 * 120 ^ (4 - k) * trackBw ^ k ≥ (2 * secQ) ^ 4 * 1000 ^ k)

/-- LOOP_NARROW_STEP (R402): LOCKED from the first narrowing step, TRACKING with TIME_LOCKED at B_T. -/
def State.loopNarrow (s : State) : State :=
  if !(s.tim.loopSt == 1 || s.tim.loopSt == 2) || !(dwellOver s.tim.bwStep s.tim.trackBw (s.mono - s.tim.dwellAt)) then s
  else
    let k := s.tim.bwStep + 1
    let s := s.modTim fun t => { t with bwStep := k, dwellAt := s.mono }
    if k < 4 then s.setLoop 2
    else
      let s := (s.setLoop 3).modTim fun t => { t with trackAt := s.mono }
      s.raise islTime .timeLocked 0xFFFF (le 1 (s.tim.selected.getD 0xFF))

/-- OSC_OFFSET_WRITE: after every 6 h of continuous TRACKING the mean of the history is written to MTP (R405). -/
def State.oscWrite (s : State) (temp : Int) (mtpOk : Bool) : State :=
  if s.tim.loopSt ≠ 3 ∨ s.tim.history.isEmpty ∨ !(s.since s.tim.trackAt (6 * 3600 * secQ)) then s
  else
    let h := s.tim.history
    let mean := h.foldl (· + ·) 0 / (h.length : Int)
    let s := s.modTim fun t => { t with trackAt := s.mono }
    let s := (s.modLife fun l => { l with wrOsc := l.wrOsc + 1 }).mtpWrite 2 16 mtpOk
    if mtpOk then { s with store := { s.store with oscOffset := some (mean, temp) } } else s

/-! TIME_SET (R391) and PPS_IN. -/

/-- TIME_SET (R391): at once, or armed for the first PPS edge at least 10 ms after the response. -/
def State.cmdTimeSet (s : State) (q : Request) (closeBins : Nat → State → State) : State :=
  let sub := q.u 0 4
  let sec := q.u 4 6
  let flags := q.u 10 1
  let atPps := bitAt flags 0
  let srcTwoWay := match s.tim.source with | some i => twoWay i | none => false
  s.serve 0x0504 q 4 (q.len == 16)
    [.bad (decide (sub ≥ secQ) || decide (flags > 1) || !(q.rsv 11 5)) .badParam 0, onlyT0 q, .bad srcTwoWay .notPermitted 0,
     .bad s.stepBlocked .notIdle 0, .bad (atPps && sub != 0) .badParam 0,
     .bad (atPps && !((s.input 8).st == 3 && thas s.tim.inputs 8)) .notReady 0]
    fun s =>
      let t := sec * secQ + sub
      if atPps then (s.modTim fun x => { x with armed := some (t, s.mono + 10 * msQ) }, some okay4)
      else (s.stepTime t closeBins, some okay4)

/-- A PPS_IN edge (R391, R398): less COMP_PS it marks a whole second. One that comes earlier than 1 s - 10 µs after the edge before it
means that PPS_IN is lost (Table 11.3). An armed TIME_SET takes effect, unless a step is held off (R390): the
edge less COMP_PS takes TIME (DEDUCED, assumption 82). -/
def State.ppsEdge (s : State) (closeBins : Nat → State → State) : State :=
  let comp := (s.input 8).compPs
  let early := s.tim.present.contains 8 && decide (0 < s.tim.ppsAt) && decide (s.mono + 10 * usQ < s.tim.ppsAt + secQ)
  let s := if early then s.inputLost 8 else s
  let s := s.modTim fun t => { t with ppsAt := s.mono, ppsPhase := toSecond ((s.now : Int) * 250 - comp) }
  match s.tim.armed with
  | some (t, earliest) =>
    if earliest ≤ s.mono ∧ !s.stepBlocked then
      ((s.modTim fun x => { x with armed := none }).stepTime (t + (comp / 250).toNat) closeBins).modTim fun x => { x with ppsPhase := 0 }
    else s
  | none => s

/-! REF_CONFIG, LOOP_CONFIG and REF_STATUS. -/

/-- COMP_PS in its range (Table 11.4). -/
def compOk (i : Nat) (c : Int) : Bool :=
  if i = 8 then decide (0 ≤ c) && decide (c ≤ 10000000000)
  else if twoWay i then decide (-10000000000 ≤ c) && decide (c ≤ 10000000000) else c == 0

/-- The fields of a REF_CONFIG ACTION 1 in range (Table 11.4). -/
def refFieldsOk (q : Request) : Bool :=
  let i := q.u 0 1
  1 ≤ q.u 2 1 && q.u 2 1 ≤ 254 && q.u 3 1 ≤ 1 && (if q.u 3 1 = 0 then qlCode (q.u 4 1) else q.u 4 1 == 0) && q.u 5 1 ≤ 1 &&
    q.u 6 2 ≤ 600 && (if i < 8 then 8000 ≤ q.u 8 4 && q.u 8 4 ≤ 800000000 else q.u 8 4 == 0) && compOk i (q.i 12 4) &&
    (if twoWay i then q.u 16 1 ≤ 10 else q.u 16 1 == 0)

/-- The fields that Table 11.4 reserves for the input are zero, whatever the ACTION (R20). -/
def refReservedOk (q : Request) : Bool :=
  let i := q.u 0 1
  q.u 5 1 ≤ 1 && (q.u 3 1 == 0 || q.u 4 1 == 0) && (i < 8 || q.u 8 4 == 0) && (i == 8 || twoWay i || q.u 12 4 == 0) &&
    (twoWay i || q.u 16 1 == 0) && q.rsv 17 3

/-- The state-dependent parameters of REF_CONFIG (R393, step 5). -/
def State.refStateBad (s : State) (q : Request) : Bool :=
  let i := q.u 0 1
  (64 ≤ i && !(s.portAt (i - 64))) || (q.u 3 1 == 1 && i ≤ 8) || (32 ≤ i && i ≤ 39 && s.noTwoWay (i - 32)) ||
    (bitAt (q.u 5 1) 0 && !(timeClass i))

/-- REF_CONFIG (R393), with its checks in their order. For ACTION 2 the configuration fields are not read, but those
reserved for the input must be zero (R20). -/
def State.cmdRefConfig (s : State) (q : Request) : State :=
  let i := q.u 0 1
  let act := q.u 1 1
  let conf := act == 1
  s.serve 0x0501 q 4 (q.len == 20)
    [.bad ((inputUnit i).isNone || !(act == 1 || act == 2) || !(refReservedOk q) || (conf && !(refFieldsOk q))) .badParam 0,
     .lit (match inputUnit i with | some u => [u] | none => []), onlyT0 q,
     .bad (conf && s.refStateBad q) .badParam 0, .bad (conf && 24 ≤ i && i ≤ 27 && s.spread) .notPermitted 0,
     .bad (conf && !(thas s.tim.inputs i) && s.tim.inputs.length ≥ 32) .noResource 0]
    fun s =>
      if !conf then
        let s := s.dropInput i
        let s := (s.modTim fun t => { t with inputs := tdel t.inputs i }).reselect
        (s, some (okay4))
      else
        let old := tget s.tim.inputs i
        let x := (old.getD { rxQlAt := s.mono, since := s.mono, st := if s.tim.present.contains i then 2 else 1 })
        let x' := { x with
          priority := q.u 2 1, qlMode := q.u 3 1, ql := q.u 4 1, timeUse := bitAt (q.u 5 1) 0, qualifyS := q.u 6 2
          freqHz := q.u 8 4, compPs := q.i 12 4, periodLog := q.u 16 1 }
        let again := old.isSome && (x.freqHz != x'.freqHz || x.qlMode != x'.qlMode) && x.st != 1
        let s := if again then s.leaveState i 2 0 else s
        let s := s.modTim fun t => { t with
          inputs := tput t.inputs i (if again then { x' with st := 2, since := s.mono, disputed := none } else x') }
        let s := s.judgeQl i
        let x := s.input i
        let s := if x.st = 4 ∧ x.cause = 4 ∧ x.usable then s.modInput i fun x => { x with st := 2, since := s.mono } else s
        let s := s.reselect
        (s, some (le 1 0 ++ le 1 0 ++ le 1 (s.input i).st ++ zeros 1))

/-- The output QL (R395). -/
def State.outQl (s : State) : Nat :=
  if s.loopLocked then (match s.tim.selected with | some i => (((s.input i).qlNow).getD 0xF) | none => s.tim.holdQl) else s.tim.holdQl

/-- STEPS_REMOVED of the device (Table 11.10). -/
def State.stepsRemoved (s : State) : Nat :=
  match s.tim.source with
  | none => 0xFF
  | some 8 => 0
  | some i => min 0xFF ((s.input i).rxSteps + 1)

/-- SOURCE_NODE of the device (Table 11.10). -/
def State.sourceNode (s : State) : Nat :=
  match s.tim.source with
  | none => 0
  | some 8 => s.node
  | some i => (s.input i).rxSource

/-- REF_STATUS's answer (Table 11.12). -/
def State.refReply (s : State) : List Byte :=
  let t := s.tim
  le 1 0 ++ le 1 t.loopSt ++ le 1 (t.selected.getD 0xFF) ++ le 1 (t.source.getD 0xFF) ++ le 1 s.outQl ++ le 1 s.stepsRemoved ++
    le 1 t.inputs.length ++ zeros 1 ++ le 4 t.history.length ++ leS 4 t.phasePs ++ leS 4 t.loopFreq ++ zeros 4 ++
    t.inputs.flatMap fun x =>
      le 1 x.1 ++ le 1 x.2.st ++ le 1 (x.2.qlNow.getD 0xFF) ++ le 1 x.2.priority ++
        le 1 (bit x.2.disputed.isSome + 2 * bit x.2.driftWarn + 4 * bit x.2.timeUse) ++ le 1 x.2.cause ++ zeros 2 ++
        leS 4 x.2.mean

/-- REF_STATUS (R422). -/
def State.cmdRefStatus (s : State) (q : Request) : State :=
  s.serve 0x0502 q 24 (q.len == 0) [s.anyTenant q] fun s => (s, some s.refReply)

/-- The configuration a LOOP_CONFIG payload gives: a field sent as 0 takes its default (Table 11.8). -/
def loopOf (q : Request) (t : Timing) : Timing :=
  let d := fun off n dflt => if q.u off n = 0 then dflt else q.u off n
  { t with
    trackBw := d 4 2 100, avgS := d 6 2 300, guardS := d 8 1 2, flags := d 9 1 7, holdQl := d 10 1 0xB, wtrS := q.u 12 2
    slew := d 14 2 100, disputePpb := d 16 4 1000, offsetPpb := d 20 4 12000, d1Soft := d 24 2 10000, d1Hard := d 26 2 50000
    d100Soft := d 28 2 50, d100Hard := d 30 2 200, cleanS := d 32 2 60
    clks := (List.range 4).map fun k =>
      (k, { hz := q.u (36 + 8 * k) 4, squelch := q.u (40 + 8 * k) 1, from_ := (tgetD t.clks k {}).from_ })
    ppsWidth := q.u 68 4 }

/-- A LOOP_CONFIG value outside its range (Table 11.8). -/
def loopBad (q : Request) (t : Timing) : Bool :=
  let c := loopOf q t
  c.trackBw > 10000 || c.avgS < 120 || c.avgS > 3600 || (c.guardS > 30 && c.guardS != 0xFF) || c.flags > 7 || !(qlCode c.holdQl) ||
    (c.wtrS > 3600 && c.wtrS != 0xFFFF) || c.slew > 1000 || c.disputePpb < 10 || c.disputePpb > 100000 || c.offsetPpb < 1000 ||
    c.offsetPpb > 100000 || c.d1Hard ≤ c.d1Soft || c.d100Hard ≤ c.d100Soft || c.cleanS < 10 || c.cleanS > 3600 ||
    (c.clks.any fun k => k.2.hz > 800000000 || k.2.squelch > 2) || c.ppsWidth > 500000 ||
    ((List.range 4).any fun k => !(q.rsv (41 + 8 * k) 3)) || !(q.rsv 11 1) || !(q.rsv 34 2)

/-- LOOP_CONFIG's answer: the configuration in force (R407). -/
def State.loopReply (s : State) : List Byte :=
  let t := s.tim
  le 1 0 ++ le 1 0 ++ le 1 t.loopSt ++ zeros 1 ++ le 2 t.trackBw ++ le 2 t.avgS ++ le 1 t.guardS ++ le 1 t.flags ++ le 1 t.holdQl ++
    zeros 1 ++ le 2 t.wtrS ++ le 2 t.slew ++ le 4 t.disputePpb ++ le 4 t.offsetPpb ++ le 2 t.d1Soft ++ le 2 t.d1Hard ++
    le 2 t.d100Soft ++ le 2 t.d100Hard ++ le 2 t.cleanS ++ zeros 2 ++
    (List.range 4).flatMap (fun k =>
      let c := tgetD t.clks k {}
      le 4 c.hz ++ le 1 c.squelch ++ zeros 3) ++ le 4 t.ppsWidth

/-- LOOP_CONFIG (R407). -/
def State.cmdLoopConfig (s : State) (q : Request) : State :=
  let act := q.u 0 1
  s.serve 0x0503 q 72 (q.len == 72)
    [.bad (!(act == 1 || act == 2) || !(q.rsv 1 3) || (act == 2 && !(q.rsv 4 68)) || (act == 1 && loopBad q s.tim)) .badParam 0,
     .bad (s.disabled q || (act == 1 && q.tenant != 0)) .notPermitted 0]
    fun s =>
      if act = 1 then
        let same := q.u 68 4 == s.tim.ppsWidth
        let s := (s.modTim fun t => { loopOf q t with ppsFrom := if same then t.ppsFrom else s.nextSecond }).syncClks.reselect
        (s, some s.loopReply)
      else (s, some s.loopReply)

/-- The level of PPS_OUT (R420): it rises at each whole second of domain time and stays high for PPS_WIDTH_US; another width shows from
the next whole second on. -/
def State.ppsOut (s : State) : Bool :=
  s.tim.ppsWidth != 0 && decide (s.tim.ppsFrom ≤ s.mono) && decide (s.now % secQ < s.tim.ppsWidth * usQ)

/-- Does CLKOUTk run: on, restarted at a whole second, and its squelch condition does not hold (R421)? It is low otherwise. -/
def State.clkOut (s : State) (k : Nat) : Bool :=
  match (tgetD s.tim.clks k {}).from_ with
  | some t => decide (t ≤ s.mono)
  | none => false

/-- The level of CLKOUTk: a rising edge falls on each whole second of domain time (R421). -/
def State.clkLevel (s : State) (k : Nat) : Bool :=
  s.clkOut k && decide (s.now % secQ * (tgetD s.tim.clks k {}).hz * 2 / secQ % 2 = 0)

/-- TIME_PARTNER_OFFSET: the elastic buffer of an engine or Umran port shows its partner's offset, in 0.25 ns; one that has stood at ±30 ns
for 1 s is reported, once until it falls below (R410). -/
def State.partnerOffset (s : State) (i : Nat) (off : Int) : State :=
  if !(twoWay i) then s
  else if absI off < 120 then s.modPartner i fun p => { p with off := off, wideAt := none, warned := false }
  else
    let p := s.partner i
    let wide := p.wideAt.getD s.mono
    let s := s.modPartner i fun p => { p with off := off, wideAt := some wide }
    if p.warned || !(s.since wide secQ) then s
    else (s.modPartner i fun p => { p with warned := true }).raise islTime .timePartnerOffset i (leS 4 off)

end Sys2Proof.Machine
end

