-- ==== Sys2Proof/Machine/Engine.lean ====
section
/-!
DEFINITION. The engine commands of class 0x02 (06_transmit.md, 07_receive.md): ENGINE_CONFIG, ENGINE_ENABLE, ENGINE_DISABLE,
BITLOAD_SET, BITLOAD_MEASURE, TX_RAMP and CAPTURE_SAMPLES.
-/
namespace Sys2Proof.Machine

/-- The engine island as a unit. -/
def engIsland (n : Nat) : Nat := islEng n * 256 + 0xFE

/-- Change the transmit path of an engine. -/
def State.modTx (s : State) (n : Nat) (f : TxPath → TxPath) : State := s.modEng n fun e => { e with tx := f e.tx }

/-- Change the receive path of an engine. -/
def State.modRx (s : State) (n : Nat) (f : RxPath → RxPath) : State := s.modEng n fun e => { e with rx := f e.rx }

/-- Change the multipoint state of an engine. -/
def State.modMp (s : State) (n : Nat) (f : Multi → Multi) : State := s.modEng n fun e => { e with mp := f e.mp }

/-- Does an open or pending passage or protect leg use an engine (R77)? -/
def State.passUses (s : State) (n : Nat) : Bool :=
  (tvals s.pas).any fun p => p.legs.any fun l => l.2.kind == 3 && l.2.index == n

/-- Does a raw step of the active bank or a scheduled image target an engine (R103)? -/
def State.rawUses (s : State) (n : Nat) : Bool := !(s.rawWords (islEng n)).isEmpty

/-- Would every run on an engine's groups in one direction still fit under a profile (R65)? -/
def State.runsFit (s : State) (n : Nat) (egress : Bool) (c : EngCfg) (prof : List Nat) : Bool :=
  (tvals s.pas).all fun p => p.legs.all fun l =>
    !(l.1 == egress && l.2.kind == 3 && l.2.index == n && (s.leafCarrier l.2 egress).isNone) ||
      decide (l.2.first + p.slots ≤ c.groupSlots prof l.2.sub)

/-- F and H_CD of the ingress legs of a passage on engines. -/
def Passage.ingressTerms (p : Passage) (at_ : Nat → Nat × Nat) : List (Nat × Nat) :=
  (p.legs.filter fun l => !l.1 && l.2.kind == 3).map fun l => at_ l.2.index

/-- Would the bound of every passage with an ingress leg on an engine hold under a configuration (R67, R69)? -/
def State.boundsHold (s : State) (n : Nat) (c : EngCfg) : Bool :=
  (tvals s.pas).all fun p =>
    !(p.legs.any fun l => !l.1 && l.2.kind == 3 && l.2.index == n) ||
      decide (tinOf (p.ingressTerms fun k => if k = n then (c.latency, c.hcd) else s.engTerms k) ≤ (p.terms[0]?).getD 0)

/-! ENGINE_CONFIG (R211 to R215). -/

/-- The configuration a payload gives (Table 6.2). -/
def cfgOf (q : Request) : EngCfg :=
  { configured := true, mode := q.u 1 1, code := q.u 2 1, subs := q.u 3 1, symRate := q.u 4 2, rollMax := q.u 6 1, roll := q.u 7 1
    dspan := q.u 8 4, hStart := q.u 12 1, margin := q.u 13 1, zrPort := q.u 14 1, txFlags := q.u 15 1
    fe := { swing := q.u 16 2, drive := q.u 18 1, emph := q.u 19 1, skew := (List.range 4).map fun k => q.i (20 + 2 * k) 2
            iqX := q.i 28 2, iqY := q.i 30 2, gain := (List.range 4).map fun k => q.i (32 + k) 1 }
    settleMs := q.u 36 2, rampMs := q.u 38 1, gpio := q.u 39 1 }

/-- Is an integer within ±b? -/
def within (x : Int) (b : Nat) : Bool := decide (x.natAbs ≤ b)

/-- Ranges and reserved fields of Table 6.2 (step 2). -/
def EngCfg.rangeOk (c : EngCfg) : Bool :=
  (if c.mode = 1 then 1 ≤ c.code && c.code ≤ 3 && 1 ≤ c.subs && c.subs ≤ 16 && 600 ≤ c.symRate && c.symRate ≤ 3200 && c.zrPort == 0
   else c.mode == 2 && c.code == 0 && c.subs == 0 && c.symRate == 0 && c.zrPort < 128) &&
  10 ≤ c.rollMax && c.rollMax ≤ 200 && 10 ≤ c.roll && c.roll ≤ c.rollMax && 32 ≤ c.hStart && c.hStart ≤ 96 && c.margin ≤ 60 &&
  c.txFlags < 32 && decide (300 ≤ c.fe.swing) && decide (c.fe.swing ≤ 900) && c.fe.swing % 10 == 0 && decide (16 ≤ c.fe.drive) &&
  decide (c.fe.drive ≤ 64) && decide (c.fe.emph ≤ 24) && (c.fe.skew.all fun x => within x 500) && within c.fe.iqX 1000 &&
  within c.fe.iqY 1000 && (c.fe.gain.all fun x => within x 40) && c.settleMs ≤ 1000 && 1 ≤ c.rampMs && c.rampMs ≤ 100 &&
  (c.gpio < 32 || c.gpio == 0xFF)

/-- The largest D_SPAN (Table 6.2). -/
def EngCfg.spanLimit (c : EngCfg) : Nat := if c.mode = 1 then 960000000 / max 1 c.symRate else 1604177

/-- The fields whose change resends H_START (R214, R215). -/
def EngCfg.core (c : EngCfg) : Nat × Nat × Nat × Nat × Nat := (c.mode, c.code, c.subs, c.symRate, c.rollMax)


/-- Is the carrier lit or ramping? -/
def TxPath.lit (t : TxPath) : Bool := t.car != .dark

/-- Does the pipeline run: the engine is enabled, or disabled with its carrier still on the way down (R217)? -/
def TxPath.runs (t : TxPath) : Bool := t.enabled || t.lit

/-- The condition that RDI reports (R171, R172, R191). -/
def Engine.rdiNow (e : Engine) : Bool := !e.rx.frame || e.rx.fecSf

/-- Step 5 of R213. -/
def State.cfgStateBad (s : State) (n : Nat) (c : EngCfg) : Bool :=
  let zrBad := c.mode == 2 &&
    ((match s.hostPort c.zrPort with | some x => x.1 != 80 || !x.2.2 | none => true) ||
     ((tvals s.pas).any fun p => p.legs.any fun l => l.2.kind == 1 && l.2.index == c.zrPort) ||
     (match s.zrUser c.zrPort with | some m => m != n | none => false))
  (c.mode == 1 && !(c.profOk (c.uniform 32))) || decide (c.dspan > c.spanLimit) || zrBad ||
    ((s.eng n).mp.role != 0 && (c.mode == 2 || c.windowLen.isNone))

/-- The NO_CAPACITY reason of step 6 of R213. -/
def State.cfgCapacity (s : State) (n : Nat) (c : EngCfg) (resend : Bool) : Option Nat :=
  let h := c.uniform c.hStart
  if resend && !(s.runsFit n true c h && s.runsFit n false c h) then some 1
  else if resend && (decide (c.tagCap h < s.encDir n true) || decide (c.tagCap h < s.encDir n false)) then some 5
  else if c.mode == 1 && !(s.boundsHold n c) then some 6
  else none

/-- Fields that change at once on an enabled engine, taken from `c`. -/
def EngCfg.live (old c : EngCfg) : EngCfg :=
  { old with
    configured := true, dspan := c.dspan, hStart := c.hStart, margin := c.margin, fe := c.fe, settleMs := c.settleMs
    rampMs := c.rampMs, txFlags := c.txFlags, gpio := c.gpio }

/-- Apply a configuration that passed its checks (R215). A disabled engine whose carrier is still on the way down keeps what it runs until
it stops. -/
def State.applyCfg (s : State) (n : Nat) (c : EngCfg) : State :=
  let e := s.eng n
  let old := e.lastCfg
  if !e.tx.enabled then
    if e.tx.lit then s.modEng n fun e => { e with nextCfg := some (s.chamber, c) } else s.modEng n fun e => { e with cfg := c, nextCfg := none }
  else
    let cc := s.earliestFor n
    let settle := decide (c.fe ≠ e.tx.fe)
    let s := s.modTx n fun t => { t with settling := settle }
    if c.core ≠ old.core then
      (s.modEng n fun e => { e with cfg := { (e.cfg.live c) with dspan := e.cfg.dspan }, nextCfg := some (cc, c) }).schedule cc none []
        [.reconfig n c]
    else
      let s := s.modEng n fun e =>
        { e with cfg := { (e.cfg.live c) with roll := if e.nextCfg.isSome then e.cfg.roll else c.roll }
                 nextCfg := e.nextCfg.map fun x => (x.1, { x.2.live c with roll := c.roll }) }
      if c.roll ≠ old.roll then s.schedule cc none [] [.pulse n c.roll] else s

/-- ENGINE_CONFIG. -/
def State.cmdEngineConfig (s : State) (q : Request) : State :=
  let n := q.u 0 1
  let c := cfgOf q
  let e := s.eng n
  let resend := e.tx.enabled && c.core != e.lastCfg.core
  let cap := s.cfgCapacity n c resend
  let busy := (resend && (s.passUses n || s.rawUses n)) ||
    (e.tx.lit && (c.txFlags != e.lastCfg.txFlags || c.gpio != e.lastCfg.gpio))
  s.serve 0x0201 q 8 (q.len == 40)
    [.bad (decide (n > 7) || !c.rangeOk) .badParam 0, .lit [engIsland n], s.onlyManager q n,
     .bad (s.cfgStateBad n c) .badParam 0, .bad cap.isSome .noCapacity (cap.getD 0), .bad busy .notIdle 0]
    fun s =>
      (s.applyCfg n c, some
        (okay4 ++ le 1 (if c.mode = 2 then 0 else c.tagCap (c.uniform 32)) ++ zeros 1 ++
          le 2 (if c.mode = 2 then 0 else c.slotsOf (c.uniform c.hStart))))

/-! ENGINE_ENABLE and ENGINE_DISABLE (R216, R217, R77, R103). -/

/-- The response of both commands. -/
def chamberReply (cc : Nat) : List Byte := okay4 ++ le 8 cc

/-- The carrier code of a whole engine (Table 3.3). -/
def engCode (n : Nat) : Nat := 0x300 + 16 * n

/-- PERIOD_LOG of an engine's TIME_WORD step: 4, or that of its configured input (R408). -/
def State.timePeriod (s : State) (input : Nat) : Nat :=
  match tget s.tim.inputs input with | some i => i.periodLog | none => 4

/-- The TIME_WORD change that goes with an engine's enable. -/
def State.timeWordFor (s : State) (n : Nat) : List FwChange :=
  if (s.eng n).cfg.mode = 1 ∧ (s.eng n).mp.role ≠ 1 then [.timeWord (engCode n) (some (s.timePeriod (32 + n)))] else []

/-- ENGINE_ENABLE: repeating the engine's state is OK with no effect. -/
def State.cmdEngineEnable (s : State) (q : Request) : State :=
  let n := q.u 0 1
  let t := (s.eng n).tx
  let again := t.enabled && t.disableAt.isNone || t.enableAt.isSome
  let cc := if q.ch 4 = 0 then s.earliestFor n else q.ch 4
  let first := !again
  s.serve 0x0202 q 12 (q.len == 12)
    [.bad (decide (n > 7) || !(q.rsv 1 3) || !(q.rsv 10 2)) .badParam 0, .lit [engIsland n], s.onlyManager q n,
     .bad t.disableAt.isSome .busy 0,
     .bad (first && ((s.island (islEng n)).belay || !(s.eng n).cfg.configured || !(s.calDone n))) .notReady 0,
     .bad (first && s.calFailed n) .hwFault 0,
     .bad (first && (s.leafLate n cc || match s.commitBad cc none with | some (.notReady, _) => true | _ => false)) .notReady 0,
     .bad (first && (s.commitBad cc none).isSome) .noResource 0]
    fun s =>
      if again then (s, some (chamberReply (t.enableAt.getD 0)))
      else
        let s := (s.modTx n fun t => { t with enableAt := some cc }).schedule cc none [] (.enable n :: s.timeWordFor n)
        (s, some (chamberReply cc))

/-- The removal of a passage's protect leg is scheduled at a chamber (R77, R711); a leg that would be set later is not set. -/
def State.scheduleLegEnd (s : State) (id cc : Nat) : State :=
  if (match tget s.pas id with | some p => (match p.legStop with | some old => chReached cc old | none => false) | none => true) then s else
  let keep := fun (c : Commit) =>
    if chLater c.cc cc then { c with changes := c.changes.filter fun x => !(x == .protSet id || x == .protDel id) } else c
  let s := { s with tab := { s.tab with commits := s.tab.commits.map keep } }
  (s.modPas id fun p => { p with legStop := some cc }).schedule cc none [] [.protDel id]

/-- A forced disable that is scheduled on an engine removes the protect legs that are set on it before Cd (R77). -/
def State.endForForced (s : State) (id n : Nat) : State :=
  match (s.eng n).tx.disableAt with
  | some cd => if (s.eng n).tx.forced then s.scheduleLegEnd id cd else s
  | none => s

/-- The passages that a forced disable closes: those with an endpoint, not merely a protect leg, on the engine. -/
def State.closedBy (s : State) (n : Nat) : List Nat :=
  (s.pas.filter fun kp => (kp.2.ing.kind == 3 && kp.2.ing.index == n) || (kp.2.eg.kind == 3 && kp.2.eg.index == n)).map Prod.fst

/-- The passages whose protect leg is on an engine. -/
def State.legsOn (s : State) (n : Nat) : List Nat :=
  (s.pas.filter fun kp => match kp.2.leg with | some l => l.engine == n | none => false).map Prod.fst

/-- The removal of an engine's raw steps holds for the images scheduled after the disable too (R103). -/
def State.dropLater (s : State) (cd : Nat) (raw : List (Nat × RawOp)) : State :=
  { s with tab := { s.tab with commits := s.tab.commits.map fun c => if chLater c.cc cd then { c with raw := c.raw ++ raw } else c } }

/-- ENGINE_DISABLE (R77, R103, R216). -/
def State.cmdEngineDisable (s : State) (q : Request) : State :=
  let n := q.u 0 1
  let force := bitAt (q.u 1 1) 0
  let t := (s.eng n).tx
  let again := !t.enabled && t.enableAt.isNone || t.disableAt.isSome
  let cc := if q.ch 4 = 0 then s.earliestFor n else q.ch 4
  let first := !again
  s.serve 0x0203 q 12 (q.len == 12)
    [.bad (decide (n > 7) || q.u 1 1 > 1 || !(q.rsv 2 2) || !(q.rsv 10 2)) .badParam 0, .lit [engIsland n], s.onlyManager q n,
     .bad t.enableAt.isSome .busy 0, .bad (first && !force && (s.passUses n || s.rawUses n)) .notIdle 0,
     .bad (first && (s.leafLate n cc || match s.commitBad cc none with | some (.notReady, _) => true | _ => false)) .notReady 0,
     .bad (first && (s.commitBad cc none).isSome) .noResource 0]
    fun s =>
      if again then (s, some (chamberReply (t.disableAt.getD 0)))
      else
        let raw := if s.rawUses n then [(islEng n, RawOp.dropEngine n)] else []
        let s := (s.closedBy n).foldl (fun s id => s.forceClose id cc) s
        let s := (s.legsOn n).foldl (fun s id => s.scheduleLegEnd id cc) s
        let s := (s.modTx n fun t => { t with disableAt := some cc, forced := force }).schedule cc none raw
          [.disable n, .timeWord (engCode n) none]
        let s := s.dropLater cc raw
        (s, some (chamberReply cc))

/-! BITLOAD_SET (R218 to R220, R291, R296, R297). -/

/-- The entropies of a payload. -/
def profileAt (q : Request) (o count : Nat) : List Nat := (List.range count).map fun k => q.u (o + k) 1

/-- The LOADING profile that a bank gives one direction of an engine; none where no step names it. -/
def Bank.profile (b : Bank) (n : Nat) (rx : Bool) (c : EngCfg) : List Nat :=
  let ws := b.words.filter fun w => wAction w == 0x22 && wTarget w == engUnit n (bit rx)
  if ws.isEmpty then []
  else (List.range c.subs).map fun i => match ws.find? fun w => wop w 60 4 == i with | some w => wop w 53 7 | none => c.hStart

/-- The windows and H_MIN that a leaf has at a chamber under the commits scheduled now. -/
def State.ownPlanned (s : State) (n cc : Nat) : LeafProf :=
  (s.tab.commits.filter fun c => chReached cc c.cc).foldl
    (fun p c => c.changes.foldl
      (fun (p : LeafProf) x => match x with
        | .windows m _ wins pl off hMin _ => if m = n then { p with windows := wins, periodLog := pl, offset := off, hMin := hMin } else p
        | _ => p) p)
    (s.eng n).mp.own

/-- On a leaf, does the transmit profile that holds at a chamber stay below H_MIN on a subcarrier that carries its windows there (R296)? -/
def State.lowAt (s : State) (n cc : Nat) : Bool :=
  let own := s.ownPlanned n cc
  let prof := (tgetD (s.imageAt cc) (islEng n) {}).profile n false (s.eng n).lastCfg
  (s.eng n).mp.role == 2 && (indices 16 fun i => ((own.windows[i]?).getD 0) != 0).any fun i => decide ((prof[i]?).getD 0 < own.hMin)

/-- Would a change at a chamber leave a leaf's profile below H_MIN, there or at a commit scheduled later (R296)? -/
def State.lowAfter (s : State) (n cc : Nat) (x : FwChange) : Bool :=
  let s := s.schedule cc none [] [x]
  s.tab.commits.any fun c => chReached c.cc cc && s.lowAt n c.cc

/-- The NO_CAPACITY reason of a profile that is to be set at a chamber (R65, R170, R296). -/
def State.profCapacity (s : State) (n : Nat) (rx : Bool) (prof : List Nat) (cc : Nat) : Option Nat :=
  let c := (s.eng n).cfg
  let low := !rx && s.lowAfter n cc (.loading n false prof)
  if !(s.runsFit n (!rx) c prof) || low then some 1
  else if decide (c.tagCap prof < s.encDir n (!rx)) then some 5
  else none

/-- BITLOAD_SET. In hub or leaf role it compiles into a plain commit (R291); a host's command ends first use (R275), and a
profile message that capacity refuses raises BITLOAD_HELD at this end (R274). -/
def State.cmdBitloadSet (s : State) (q : Request) : State :=
  let n := q.u 0 1
  let rx := q.u 1 1 == 1
  let e := s.eng n
  let c := e.cfg
  let count := q.u 2 1
  let prof := profileAt q 16 count
  let cc := q.ch 8
  let role := e.mp.role
  let badH := decide (count > 16) || !(prof.all fun h => 32 ≤ h && h ≤ 96) || !(q.rsv (16 + count) (16 - count))
  let bad5 := c.configured && (count != c.subs || cc == 0 || !(c.profOk prof))
  let cap := s.profCapacity n rx prof cc
  let leafLate := !rx && s.leafLate n cc
  let sched := if !c.configured then some (Status.notReady, 4)
    else match s.commitBad cc (if role = 0 then some n else none) with
      | some x => some x
      | none => if leafLate then some (.notReady, 2) else none
  let host := match q.via with | .domain .. => false | _ => true
  let checks : List Check :=
    [.bad (decide (n > 7) || q.u 1 1 > 1 || !(q.rsv 3 1) || !(q.rsv 6 2) || !(q.rsv 14 2) || badH) .badParam 0,
     .lit [engIsland n], s.onlyManager q n, .bad (role == 1 && rx) .notPermitted 0, .bad (!c.configured) .notReady 4, .bad bad5 .badParam 0]
  let held := !host && role == 0 && s.serving && (s.judge (.len (q.len == 32) :: s.gate 0x0204 q ++ checks)).isNone && cap.isSome
  let s := if held then s.raise (islEng n) .bitloadHeld n (le 2 (c.slotsOf prof)) else s
  s.serve 0x0204 q 16 (q.len == 32)
    (checks ++
      [.bad cap.isSome .noCapacity (cap.getD 0),
       .bad (match sched with | some (.notReady, _) => true | _ => false) .notReady ((sched.map Prod.snd).getD 0),
       .bad sched.isSome .noResource ((sched.map Prod.snd).getD 0)])
    fun s =>
      let p := if role = 0 then some { engine := n, farNode := q.u 4 2, since := s.chamber : Paired } else none
      let s := s.schedule cc p [] [.loading n rx prof]
      let s := if host && 1 ≤ e.rx.use && e.rx.use ≤ 4 then s.modRx n fun r => { r with use := 5, useCc := none } else s
      (s, some (okay4.take 2 ++ le 2 (c.slotsOf prof) ++ le 1 (c.tagCap prof) ++ zeros 3 ++ le 4 (c.netMbps prof) ++ zeros 4))

/-! BITLOAD_MEASURE (R278 to R280). -/

/-- Estimates of Table 7.6 by position; a value not yet valid reads as its sentinel. -/
def RxPath.est16 (r : RxPath) (k : Nat) : List Byte := match tget r.est k with | some x => leS 2 x | none => le 2 0x8000

/-- The 32-bit estimates. -/
def RxPath.est32 (r : RxPath) (k : Nat) : List Byte := match tget r.est k with | some x => leS 4 x | none => le 4 0x80000000


/-- The OSNR estimate of the latest valid window, for the SNR_B2B now in use (R278). -/
def RxPath.osnr (r : RxPath) (c : EngCfg) : Option Nat := r.window.map fun w => osnrOf w.2 r.b2b c.baud

/-- FLAGS of BITLOAD_MEASURE. -/
def RxPath.measFlags (r : RxPath) : Nat :=
  bit r.lock + 2 * bit r.window.isSome + 4 * bit r.mirrorX + 8 * bit r.mirrorY + 16 * bit r.outSpan

/-- The BITLOAD_MEASURE response (Table 7.7). -/
def State.measureReply (s : State) (n : Nat) : List Byte :=
  let e := s.eng n
  let r := e.rx
  let count := e.cfg.carriers
  let snr := match r.window with | some w => w.2.take count | none => []
  let snrs := (List.range 16).flatMap fun k =>
    if k < count then (match snr[k]? with | some x => leS 2 x | none => le 2 0x8000)
    else if e.cfg.mode = 2 then le 2 0 else le 2 0x8000
  let prop := if e.cfg.mode = 2 ∨ r.window.isNone then [] else e.cfg.chooseH snr
  le 1 0 ++ le 1 0 ++ le 1 r.use ++ le 1 r.measFlags ++ le 8 ((r.window.map Prod.fst).getD 0) ++ snrs ++
    padTo 16 (prop.flatMap (le 1)) ++ le 2 (if prop.isEmpty then 0 else e.cfg.slotsOf prop) ++ zeros 2 ++
    le 4 (if prop.isEmpty then 0 else e.cfg.netMbps prop) ++ r.est32 0 ++ r.est16 1 ++ r.est16 2 ++ r.est32 3 ++
    le 2 ((r.osnr e.cfg).getD 0x8000) ++ zeros 2 ++
    r.est32 5

/-- BITLOAD_MEASURE. -/
def State.cmdBitloadMeasure (s : State) (q : Request) : State :=
  let n := q.u 0 1
  let b := q.u 2 2
  s.serve 0x0205 q 88 (q.len == 8)
    [.bad (decide (n > 7) || !(q.rsv 1 1) || !(q.rsv 4 4) || !(b == 0 || (100 ≤ b && b ≤ 400))) .badParam 0, .lit [engIsland n],
     s.onlyManager q n, .bad (!(s.eng n).tx.enabled) .notReady 1]
    fun s =>
      let s := if b = 0 then s else s.modRx n fun r => { r with b2b := b }
      (s, some (s.measureReply n))

/-! The carrier (R228 to R233). -/

/-- Quarter-nanoseconds of a ramp behind at monotone time `t`. -/
def TxPath.rampBehind (x : TxPath) (t : Nat) : Nat := min (x.ramp * msQ) (x.carDone + (t - x.carAt))

/-- The part of a new ramp of `ms` milliseconds that lies behind when a ramp is reversed at the point of equal amplitude (R232):
at the fraction f of the old ramp the new one stands at 1 - f. -/
def TxPath.reversed (x : TxPath) (t ms : Nat) : Nat :=
  ms * msQ - x.rampBehind t * ms / max 1 x.ramp

/-- A carrier step that turns light on acts (R217, R230, R232). -/
def TxPath.carrierOn (x : TxPath) (t ms : Nat) : TxPath :=
  if !x.permit then { x with withheld := true }
  else
    let x := { x with withheld := false }
    match x.car with
    | .dark => { x with car := .laserOn, carAt := t, carDone := 0, ramp := ms }
    | .laserHold => { x with car := .driverOn, carAt := t, carDone := 0, ramp := ms }
    | .rampDown => { x with car := .rampUp, carAt := t, carDone := x.reversed t ms, ramp := ms }
    | _ => x

/-- A carrier step that turns light off acts; the flag says that the sequence was complete at once (R232). A carrier taken
down this way is not withheld: only ACTION 3 or a new enable lights it (DESIGN CHOICE, assumption 82). -/
def TxPath.carrierOff (x : TxPath) (t ms : Nat) : TxPath × Bool :=
  let x := { x with withheld := false }
  match x.car with
  | .full => ({ x with car := .rampDown, carAt := t, carDone := 0, ramp := ms }, false)
  | .rampUp => ({ x with car := .rampDown, carAt := t, carDone := x.reversed t ms, ramp := ms }, false)
  | .laserOn | .driverOn => ({ x with car := .dark, carAt := t, carDone := 0 }, true)
  | _ => (x, false)

/-- Is the carrier dark, withheld or on its way down? -/
def TxPath.down (x : TxPath) : Bool := x.car == .dark || x.car == .rampDown || x.car == .laserHold

/-- How long the sequence lasts that a carrier step starts at monotone time `t`, in quarter-nanoseconds. -/
def TxPath.duration (x : TxPath) (settle : Nat) (on : Bool) (t ms : Nat) : Nat :=
  if on then
    match x.car with
    | .rampDown => x.rampBehind t * ms / max 1 x.ramp
    | .laserHold => (1 + ms) * msQ
    | _ => (settle + 1 + ms) * msQ
  else
    match x.car with
    | .rampUp => x.rampBehind t * ms / max 1 x.ramp + msQ
    | .laserOn | .driverOn => 0
    | _ => (ms + 1) * msQ

/-- The next stage of a carrier sequence, where it begins by monotone time `t` (Table 6.5). With `hold` a carrier-up is pending, which
cancels the fall of LSR_ENn (R232). -/
def TxPath.nextStage (x : TxPath) (settle t : Nat) (hold : Bool) : TxPath :=
  let left := x.ramp * msQ - x.carDone
  match x.car with
  | .laserOn => if x.carAt + settle * msQ ≤ t then { x with car := .driverOn, carAt := x.carAt + settle * msQ } else x
  | .driverOn => if x.carAt + msQ ≤ t then { x with car := .rampUp, carAt := x.carAt + msQ, carDone := 0 } else x
  | .rampUp => if x.carAt + left ≤ t then { x with car := .full, carAt := x.carAt + left } else x
  | .rampDown => if x.carAt + left ≤ t then { x with car := .laserHold, carAt := x.carAt + left } else x
  | .laserHold => if x.carAt + msQ ≤ t && !hold then { x with car := .dark, carAt := x.carAt + msQ } else x
  | _ => x

/-- The carrier as it will stand at monotone time `t` with no further command: a sequence has at most four stages to go. -/
def TxPath.runTo (x : TxPath) (settle t : Nat) (hold : Bool) : TxPath :=
  (List.range 4).foldl (fun (x : TxPath) _ => x.nextStage settle t hold) x

/-- The carrier steps that the swap of a commit carries out on an engine, in order: on or off, and the ramp in ms. Those of its changes come
first, then the CARRIER steps that are new in its raw region. -/
def State.carrierSteps (s : State) (n : Nat) (c : Commit) : List (Bool × Nat) :=
  (c.changes.filterMap fun ch => match ch with
    | .carrier m on ms => if m = n then some (on, ms) else none
    | .enable m => if m = n then some (true, (s.eng n).lastCfg.rampMs) else none
    | .disable m => if m = n then some (false, (s.eng n).cfg.rampMs) else none
    | _ => none) ++
  (((tgetD (s.imageAt c.cc) (islEng n) {}).raw.filter fun w =>
    wAction w == 0x27 && !((tgetD (s.imageBefore c.cc) (islEng n) {}).raw.contains w) &&
      (!(bitAt (wOperand w) 63) || (s.eng n).tx.enabled || (s.eng n).tx.enableAt.isSome)).map fun w =>
        (bitAt (wOperand w) 63, wop w 56 7))

/-- Is a step that turns an engine's carrier on scheduled? -/
def State.upPending (s : State) (n : Nat) : Bool := s.tab.commits.any fun c => (s.carrierSteps n c).any Prod.fst

/-- The carrier of an engine as it will stand at the start of a chamber, with the carrier steps scheduled before it; `up` says that the step
at that chamber turns it on (R229, R232). -/
def State.txAt (s : State) (n cc : Nat) (up : Bool) : TxPath :=
  let settle := (s.eng n).cfg.settleMs
  let hold := up || s.upPending n
  let timeOf := fun c => s.mono + chAhead c s.chamber * chamberQ
  let act := fun (at_ : Nat) (x : TxPath) (st : Bool × Nat) =>
    let x := x.runTo settle at_ hold
    if st.1 then x.carrierOn at_ st.2 else (x.carrierOff at_ st.2).1
  let before := s.tab.commits.filter fun c => chLater cc c.cc
  let x := before.foldl (fun (x : TxPath) c => (s.carrierSteps n c).foldl (act (timeOf c.cc)) x) (s.eng n).tx
  x.runTo settle (timeOf cc) hold

/-- TX_RAMP's answer. -/
def rampReply (a b : Nat) : List Byte := okay4 ++ le 8 a ++ le 8 b

/-- TX_RAMP (R228 to R233). -/
def State.cmdTxRamp (s : State) (q : Request) : State :=
  let n := q.u 0 1
  let act := q.u 1 1
  let e := s.eng n
  let t := e.tx
  let ms := if q.u 2 1 = 0 then e.cfg.rampMs else q.u 2 1
  let cc := if q.ch 4 = 0 then s.earliest false else q.ch 4
  let starts := if act = 1 then t.enabled && t.withheld
    else if act = 3 then t.enabled && t.down else !t.down
  let inUse := (act == 2 || act == 4) && !(bitAt (q.u 3 1) 0) && !t.down && s.passUses n
  s.serve 0x0206 q 20 (q.len == 12)
    [.bad (decide (n > 7) || act < 1 || act > 4 || q.u 2 1 > 100 || q.u 3 1 > 1 || !(q.rsv 10 2)) .badParam 0, .lit [engIsland n],
     s.onlyManager q n, .bad ((act == 1 || act == 3) && (s.island (islEng n)).belay) .notReady 0,
     .bad (act == 3 && !t.permit) .notPermitted 0, .bad inUse .notIdle 0,
     .bad (starts && (match s.commitBad cc none with | some (.notReady, _) => true | _ => false)) .notReady 0,
     .bad (starts && (s.commitBad cc none).isSome) .noResource 0]
    fun s =>
      let s := s.modTx n fun t => { t with permit := if act = 1 then true else if act = 2 then false else t.permit }
      if starts then
        let on := act == 1 || act == 3
        let at_ := s.mono + chAhead cc s.chamber * chamberQ
        let fin := chAdd cc ((s.txAt n cc on).duration e.cfg.settleMs on at_ ms / chamberQ)
        (s.schedule cc none [] [.carrier n on ms], some (rampReply cc fin))
      else (s, some (rampReply 0 0))

/-! CAPTURE_SAMPLES (R281 to R284). -/

/-- The capture size K (R487). -/
def State.captureSize (s : State) : Nat := (s.mem.capacity - 2 ^ 30) / 16 / 67108864 * 67108864

/-- Does a range lie wholly within a tenant's capture area (R486, R487)? -/
def State.inCapture (s : State) (t addr len : Nat) : Bool :=
  let base := 0x40000000 + t * s.captureSize
  decide (base ≤ addr) && decide (addr + len ≤ base + s.captureSize)

/-- Can the islands WEn raise an event code (Table 14.2)? -/
def engineEvent (code : Nat) : Bool :=
  let c := code / 256
  let k := code % 256
  (c == 2 && (k == 3 || k == 4 || k == 5 || k == 10)) || (c == 3 && (2 ≤ k && k ≤ 6)) || (c == 5 && 1 ≤ k && k ≤ 8) ||
  (c == 6 && 1 ≤ k && k ≤ 5) || (c == 7 && 1 ≤ k && k ≤ 13) || (c == 8 && 1 ≤ k && k ≤ 7) || (c == 9 && 1 ≤ k && k ≤ 8) ||
  (c == 0x0B && k == 14) || (c == 0x0C && 1 ≤ k && k ≤ 7 && k != 5 && k != 6)

/-- The capture job of an engine, if one runs. -/
def State.captureOf (s : State) (n : Nat) : Option Job :=
  s.runningJobs.find? fun j => match j.work with | .capture m _ => m == n | _ => false

/-- CAPTURE_SAMPLES (R281). COUNT 0 is BAD_PARAM, and so is every SUBCARRIER of TAP 3 in compatibility mode (DESIGN CHOICE, assumption 82). -/
def State.cmdCaptureSamples (s : State) (q : Request) : State :=
  let n := q.u 0 1
  let tap := q.u 1 1
  let trig := q.u 3 1
  let count := q.u 4 4
  let size := if tap = 1 then 4 * count else 8 * count
  let dest := q.u 24 8
  let c := (s.eng n).cfg
  let cap := if tap = 1 then 262144 else 131072
  let bad := decide (n > 7) || tap < 1 || tap > 3 || (tap != 3 && q.u 2 1 != 0) || trig < 1 || trig > 3 || count == 0 ||
    count % 1024 != 0 || decide (count > cap) || (if trig = 3 then decide (q.u 8 4 > count) else q.u 8 4 != 0 || q.u 12 2 != 0) ||
    !(q.rsv 14 2) || !(q.rsv 22 2) || (trig != 2 && q.ch 16 != 0) || dest % 4096 != 0 || decide (dest ≥ s.mem.capacity)
  let bad5 := (tap == 3 && decide (q.u 2 1 ≥ c.subs)) || (trig == 3 && !(engineEvent (q.u 12 2))) ||
    (trig == 2 && !(chReached (q.ch 16) (chAdd s.chamber 2)))
  s.serve 0x0207 q 8 (q.len == 32)
    [.bad bad .badParam 0, .lit [engIsland n, 0x0C00], .bad (!(s.manages q.tenant n) || !(s.inCapture q.tenant dest size)) .notPermitted 0,
     .bad bad5 .badParam 0, .bad ((s.captureOf n).isSome || s.fillHolds 0x0C00 dest (dest + size)) .busy 0, .bad (!(s.eng n).tx.enabled) .notReady 1,
     .bad (s.jobsFull q.tenant) .noResource 0]
    fun s =>
      let x := s.startJob q.tenant 0x0207
        (.capture n { tap := tap, sub := q.u 2 1, trigger := trig, count := count, pre := q.u 8 4, event := q.u 12 2, chamber := q.ch 16, dest := dest, since := s.now })
      (x.1, some (jobStarted x.2))

end Sys2Proof.Machine
end

