-- ==== Sys2Proof/Machine/Guide.lean ====
section
/-!
DEFINITION. The guide pairs and the single-fault condition (17_faults.md).
-/
namespace Sys2Proof.Machine

/-- Declare a covered fault of classes 1 to 5 (R609, R610, R619): within 1 s of another, FAULT_OVERLAP is raised and no bound is
stated until 1 s after this one. A loss of light within 10 µs of the first of its group joins it. -/
def State.declareFault (s : State) (cls : Nat) (light : Bool) : State :=
  let joined := light && (match s.guide.losFirst with | some t => decide (s.mono < t + 10 * usQ) | none => false)
  if joined then s
  else
    let s' := { s with guide := { s.guide with
      lastFault := some (cls, s.mono, s.chamber)
      losFirst := if light then some s.mono else s.guide.losFirst } }
    match s.guide.lastFault with
    | some (first, t, ch) =>
      if s.mono < t + secQ then
        let s' := s'.raise islCtrl .faultOverlap 0xFFFF (le 1 first ++ le 1 cls ++ le 4 ((s.mono - t) / usQ) ++ le 6 ch)
        { s' with guide := { s'.guide with boundVoid := s.mono + secQ } }
      else s'
    | none => s'

/-- Does a trap of the active pair reset the device (R581, R616, R618)? -/
def State.trapResets (s : State) : Bool :=
  !s.guide.standby || (match s.guide.takeover with | some t => decide (s.mono < t + secQ) | none => false)

/-- The active pair traps and the standby takes over (R614, R616): cause 1 lockstep, 2 uncorrectable fetch, 3 uncorrectable
data. The case that resets the device is the caller's. -/
def State.activeTrap (s : State) (p cause : Nat) : State :=
  let s := { s with guide := { s.guide with
    active := some (1 - p), standby := false, trapped := some (p, s.mono), taking := some (1 - p, s.mono) } }
  let s := s.raise islCtrl .guideMismatch p (le 1 1 ++ le 1 cause)
  s.declareFault 2 false

/-- A fault in the standby pair halts it; it resets and reloads (R618). -/
def State.standbyTrap (s : State) (cause : Nat) : State :=
  match s.guide.active with
  | some p =>
    if !s.guide.standby then s
    else
      let s := { s with guide := { s.guide with standby := false, trapped := some (1 - p, s.mono) } }
      let s := s.raise islCtrl .guideMismatch (1 - p) (le 1 2 ++ le 1 cause)
      s.declareFault 3 false
  | none => s

/-- A trapped pair ends its self-test (R617): `failed` is the step at which it failed. -/
def State.standbyReady (s : State) (failed : Option Nat) : State :=
  match s.guide.trapped with
  | none => s
  | some (p, _) =>
    match failed with
    | some st =>
      let s := { s with guide := { s.guide with trapped := none, failed := s.guide.failed ++ [p] } }
      s.raise islCtrl .guidePairFailed p (le 1 st)
    | none =>
      let s := { s with guide := { s.guide with trapped := none, standby := true } }
      s.raise islCtrl .guideStandbyReady p (le 4 (satN 4 s.guide.journal))

/-- The new active pair has answered what was waiting and resumes fetching (R616). `answer` executes the commands received and
not yet executed (R615). -/
def State.takeOver (s : State) (answer : State → State) : State :=
  match s.guide.taking with
  | none => s
  | some (p, t) =>
    let afresh := (s.com.received.filter fun r => !r.started).length
    let journalled := (s.com.received.filter fun r => r.started).length
    let s := answer { s with guide := { s.guide with taking := none, takeover := some s.mono } }
    s.raise islCtrl .guideTakeover p
      (le 2 (satN 2 journalled) ++ le 2 (satN 2 afresh) ++ le 1 (satN 1 s.runningJobs.length) ++ le 4 (satN 4 ((s.mono - t) / usQ)))

end Sys2Proof.Machine
end

