-- ==== Sys2Proof/Machine/Signal.lean ====
section
/-!
DEFINITION. The signal state of passages: faults of legs (R51, R85), the beginning and the end of substitution (R54, R87), and the
selector of a protected passage (R81, R85).
-/
namespace Sys2Proof.Machine

/-- The fault of a leaf carrier at a hub (R310, R311): 1 loss, 2 TRAIL, 3 epoch. -/
def State.leafFault (s : State) (n leaf : Nat) (trailBad : Bool) : Option Nat :=
  let p := s.leafProf n leaf
  if p.down then some 1 else if trailBad then some 2 else if p.chBad then some 3 else none

/-- The fault of an engine's continuous receiver: loss of light, loss of frame or FEC signal failure (R85, R191, R249), a TRAIL
mismatch, another epoch. -/
def State.engineFault (s : State) (n : Nat) (trailBad : Bool) : Option Nat :=
  let r := (s.eng n).rx
  if r.los || !r.frame || r.fecSf then some 1
  else if trailBad then some 2
  else if r.farEpoch.getD s.epoch ≠ s.epoch then some 3 else none

/-- The fault that an ingress leg shows now: 1 loss, 2 TRAIL, 3 epoch, the lowest code first (Table 2.12). Host ports carry their local
fault as data, so they never fail. -/
def State.liveFault (s : State) (e : Endpoint) (l : LegSt) : Option Nat :=
  match e.kind with
  | 3 => match s.leafCarrier e false with
    | some leaf => s.leafFault e.index leaf l.trailBad
    | none => s.engineFault e.index l.trailBad
  | 4 => match s.ulFault e.index with
    | some 1 => some 1
    | x => if l.trailBad then some 2 else x
  | _ => none

/-- The fault of an ingress leg: the one it shows, and the last one until a whole clean chamber has followed it (R51, R87, R88). -/
def State.legFault (s : State) (e : Endpoint) (l : LegSt) : Option Nat := (s.liveFault e l).or (if l.dirty = 0 then none else some l.dirty)

/-- Is a passage protected on its ingress with the leg in the active bank, so that the selector has a choice? -/
def Passage.chooses (p : Passage) : Bool := p.selects && p.legLive && p.leg.isSome

/-- Does a passage decrypt what it admits? -/
def Passage.opens (p : Passage) : Bool := p.mode != 0 && p.decrypts

/-- The blocks that a passage has ready, oldest first: those of its selected leg, or the decrypted ones. -/
def Passage.ready (p : Passage) : List QBlock :=
  if p.opens then p.opened else if p.selects && p.legLive && p.onProt then p.queueP else p.queue

/-- The fault of one leg of a passage: the working leg, or the protect leg. -/
def State.faultOf (s : State) (p : Passage) (prot : Bool) : Option Nat :=
  if prot then (match p.leg with | some l => s.legFault l.endpoint p.prot | none => some 1) else s.legFault p.ing p.work

/-- The endpoint of the leg that the selector is on. -/
def Passage.activeLeg (p : Passage) : Endpoint :=
  match p.leg with | some l => if p.onProt then l.endpoint else p.ing | none => p.ing

/-- Does a force hold the selector on its leg (R85)? -/
def Passage.held (p : Passage) : Bool := p.force == (if p.onProt then 2 else 1)

/-- Can the selector move to the other leg: it has no fault, no force holds it, and the protect leg is usable (R84, R85)? -/
def State.canSwitch (s : State) (p : Passage) : Bool :=
  p.chooses && !p.held && (s.faultOf p (!p.onProt)).isNone && (p.onProt || !p.unusable)

/-- The island that raises the signal events of a leg. -/
def Endpoint.signalIsland (e : Endpoint) : Nat := if e.kind = 4 then islUlink else islEng e.index

/-- Note the faults that the legs of a passage show: a leg that carries slot entries stays failed until a whole clean chamber (R87), and a
revertive passage on its protect leg notes since when its working leg is clean (R85). -/
def State.noteLegs (s : State) (id : Nat) : State :=
  match tget s.pas id with
  | none => s
  | some p =>
    let note := fun (e : Endpoint) (l : LegSt) =>
      match s.liveFault e l with
      | some cause => if (s.leafCarrier e false).isNone then { l with dirty := cause, goodFrom := none } else l
      | none => l
    let prot := match p.leg with | some l => note l.endpoint p.prot | none => p.prot
    let clean := (s.legFault p.ing (note p.ing p.work)).isNone
    s.modPas id fun p => { p with
      work := note p.ing p.work, prot := prot
      cleanAt := if p.onProt && clean then some (p.cleanAt.getD s.mono) else none }

/-- The state of the leg that the selector is on. -/
def Passage.activeSt (p : Passage) : LegSt := if p.leg.isSome && p.onProt then p.prot else p.work

/-- The blocks that a leg delivered in a local chamber. -/
def LegSt.cameIn (l : LegSt) (ch : Nat) : Nat := if l.came = ch then l.count else 0

/-- The blocks substituted in a run that ends at chamber `ch`: the places of the passage's slots from the run's begin on that no block took
(R30, R87). They leave egress, counted in SUBSTITUTED, when their places do (R85; DEDUCED, assumption 85). -/
def Passage.runBlocks (p : Passage) (ch : Nat) : Nat := 100 * p.slots * chAhead ch p.failFrom.1 - p.failFrom.2

/-- Re-evaluate one passage: substitution begins with PASSAGE_SIGNAL_FAIL when the leg in use fails and no switch takes it
away, and ends with PASSAGE_SIGNAL_CLEAR at the first whole clean chamber; after Cs neither is raised (R75, R87). Both come from the island
of the leg that the selector is on (R89; DESIGN CHOICE, assumption 85). -/
def State.resignal1 (s : State) (id : Nat) : State :=
  match tget s.pas id with
  | none => s
  | some p =>
    if p.st ≠ 2 then s
    else
      let s := s.noteLegs id
      let p := (tget s.pas id).getD p
      let e := p.activeLeg
      match s.faultOf p p.onProt with
      | some cause =>
        if p.failing || s.canSwitch p then s
        else
          let s := s.modPas id fun p => { p with
            failing := true, lead := none, failFrom := (s.chamber, p.activeSt.cameIn s.chamber) }
          (s.raise e.signalIsland .passageSignalFail id (le 1 cause)).alert id
      | none =>
        if !p.failing then s
        else
          let s := s.modPas id fun p => { p with failing := false, gap := some s.chamber }
          s.raise e.signalIsland .passageSignalClear id (le 4 (satN 4 (p.runBlocks s.chamber)))

/-- Re-evaluate every passage. -/
def State.resignal (s : State) : State := (tkeys s.pas).foldl (fun s id => s.resignal1 id) s

/-- A class 1 fault is declared where a protected passage in ACTIVE has its active leg on the engine (R605, R610). -/
def State.classOne (s : State) (n : Nat) : State :=
  if (tvals s.pas).any fun p => p.st == 2 && p.chooses && p.activeLeg.index == n then s.declareFault 1 true else s

/-- What follows a loss on an engine: the fault is declared and the passages are re-evaluated. -/
def State.engineLoss (s : State) (n : Nat) : State := (s.classOne n).resignal

/-- The waiting blocks of the leg left and of the leg taken at a selection: the blocks of `early` chambers come from the leg left, all others
from the leg taken. Answers what waits on the leg taken and on the leg left. -/
def joinLegs (early : QBlock → Bool) (left taken : List QBlock) : List QBlock × List QBlock :=
  (left.filter early ++ taken.filter fun q => !(early q), left.filter fun q => !(early q))

/-- The selector takes the other leg at the boundary of a chamber, aligned by chamber number (R81, R85): blocks of chambers that the leading
leg delivered before stay those of the leg left. -/
def Passage.switchTo (p : Passage) (prot : Bool) (now : Nat) : Passage :=
  let early := fun (q : QBlock) => match p.lead with | some l => chLater (chSub now l) q.tag | none => true
  let j := fun (w pr : List QBlock) => if prot then ((joinLegs early w pr).2, (joinLegs early w pr).1) else joinLegs early pr w
  { p with
    onProt := prot, cleanAt := none
    queue := (j p.queue p.queueP).1, queueP := (j p.queue p.queueP).2, secret := (j p.secret p.secretP).1, secretP := (j p.secret p.secretP).2 }

/-- Move the selector (R85, R89): 1 to 3 the fault of the leg left, 4 force or clear, 5 removal, 6 revert, 7 forced disable. -/
def State.moveLeg (s : State) (id : Nat) (prot : Bool) (cause : Nat) : State :=
  let s := s.modPas id fun p => p.switchTo prot s.chamber
  (s.raise islFab .protectSwitch id (le 1 (bit prot) ++ le 1 cause)).alert id

/-- Does a force ask for the other leg, which can now be used? -/
def State.forceWaits (s : State) (p : Passage) : Bool :=
  p.force != 0 && !p.held && p.chooses && (s.faultOf p (!p.onProt)).isNone && (p.onProt || !p.unusable)

/-- PROTECT_SELECT: at a chamber boundary the selector leaves a failed leg for the other one (R85), or follows a force whose leg has
become usable. -/
def State.protectSelect (s : State) (id : Nat) : State :=
  match tget s.pas id with
  | none => s
  | some p =>
    if p.st ≠ 2 then s
    else match s.faultOf p p.onProt with
      | some cause => if s.canSwitch p then (s.moveLeg id (!p.onProt) cause).resignal1 id else s
      | none => if s.forceWaits p then (s.moveLeg id (!p.onProt) 4).resignal1 id else s

/-- Is a revert of a passage due: revertive, on the protect leg, not held there, and the working leg clean for WTR_S seconds (R85)? -/
def State.revertDue (s : State) (p : Passage) : Bool :=
  let wtr := match p.leg with | some l => l.wtr | none => 0
  p.st == 2 && p.chooses && p.onProt && !p.held && wtr != 0 && (s.faultOf p false).isNone &&
    (match p.cleanAt with | some t => s.since t (wtr * secQ) | none => false)

/-- PROTECT_REVERT: in revertive mode the device returns to the working leg once it has been clean for WTR_S seconds (R85), by a bank swap
at the earliest chamber (R81). -/
def State.protectRevert (s : State) (id : Nat) : State :=
  match tget s.pas id with
  | none => s
  | some p =>
    let pend := s.tab.commits.any fun c => c.changes.contains (.revert id)
    if s.revertDue p && !pend then s.schedule (s.earliest false) none [] [.revert id] else s

/-- The swap of a revert: the selector returns unless the working leg failed meanwhile. -/
def State.revertNow (s : State) (id : Nat) : State :=
  match tget s.pas id with
  | none => s
  | some p => if s.revertDue p then (s.moveLeg id false 6).resignal1 id else s

/-- The skew budget of a passage in ns (R84). -/
def Passage.skewBudget (p : Passage) : Nat := p.skew * 1280

/-- A skew measurement at the selecting device (R84). -/
def State.measureSkew (s : State) (id : Nat) (ns : Int) : State :=
  match tget s.pas id with
  | none => s
  | some p =>
    if !p.chooses then s
    else if ns.natAbs > p.skewBudget then
      let s := s.modPas id fun p => { p with skewNs := some ns, unusable := true }
      if p.unusable then s else s.raise islFab .protectSkewExceeded id (leS 4 ns)
    else
      let was := match p.skewNs with | some x => decide (x.natAbs > p.skewBudget) | none => true
      s.modPas id fun p => { p with skewNs := some ns, inBudget := if was then s.mono else p.inBudget }

/-- PROTECT_SKEW_CLEAR: the skew has stayed within budget for 10 s (R84). -/
def State.protectSkewClear (s : State) (id : Nat) : State :=
  match tget s.pas id with
  | none => s
  | some p =>
    let within := match p.skewNs with | some x => decide (x.natAbs ≤ p.skewBudget) | none => false
    if p.unusable && within && s.since p.inBudget (10 * secQ) then s.modPas id fun p => { p with unusable := false } else s

/-- Take in the entries of one leg (R51, R637). -/
def State.trail (s : State) (id : Nat) (prot : Bool) (seen : TrailSeen) : State :=
  match tget s.pas id with
  | none => s
  | some p =>
    let l := if prot then p.prot else p.work
    let e := match p.leg with | some x => if prot then x.endpoint else p.ing | none => p.ing
    let put := fun (s : State) (x : LegSt) => s.modPas id fun p => if prot then { p with prot := x } else { p with work := x }
    match seen with
    | .part => s
    | .all =>
      let x : LegSt := { l with trailBad := false, received := 0 }
      put s (if (s.liveFault e x).isSome then x else { x with dirty := 0 })
    | .other t =>
      let s' := put s { l with trailBad := true, received := t, dirty := 2, goodFrom := none }
      if l.trailBad || p.st ≠ 2 then s' else s'.raise e.signalIsland .passageTrailMismatch id (le 2 p.trail ++ le 2 t)

end Sys2Proof.Machine
end

