-- ==== Sys2Proof/Machine/Protect.lean ====
section
/-!
DEFINITION. PROTECT_GROUP_SET (R82 to R84, R711).
-/
namespace Sys2Proof.Machine

/-- The response (R82): the active leg, the flags and the skew. -/
def State.protReply (s : State) (id : Nat) : List Byte :=
  match tget s.pas id with
  | none => okay4 ++ zeros 4
  | some p =>
    let skew : Int := if !p.selects then 0 else match p.skewNs with | some x => x | none => -2147483648
    le 1 0 ++ le 1 0 ++ le 1 (bit p.onProt) ++ le 1 p.flags ++ leS 4 skew

/-- Step 5 of ACTION 1 (R83, R305, R711): what makes the protect leg a bad parameter. -/
def State.legBad (s : State) (p : Passage) (x : Endpoint) : Bool :=
  let w := if p.selects then p.ing else p.eg
  let g := s.eng x.index
  let overlap := (tvals s.pas).any fun y => y.legs.any fun l =>
    l.2.kind == 3 && l.2.index == x.index && (l.2.sub &&& x.sub) != 0 && l.2.sub != x.sub
  p.leg.isSome || !(p.ing.kind == 3 || p.eg.kind == 3) || (p.ing.kind == 3 && p.skew == 0) || x.index == w.index || x.sub != w.sub ||
    !(x.first == 0xFFFF || x.first == w.first) || (s.eng w.index).mp.role != 0 || g.mp.role != 0 ||
    (g.cfg.configured && decide (x.sub ≥ 2 ^ g.cfg.subs)) || overlap

/-- The protect leg that ACTION 1 gives a passage (R83). -/
def protLegOf (p : Passage) (q : Request) : ProtLeg :=
  let w := if p.selects then p.ing else p.eg
  { engine := q.u 5 1, sub := w.sub, first := w.first, wtr := q.u 12 2 }

/-- The chamber of a change to a passage: the earliest, and never before a pending passage's start. -/
def State.changeAt (s : State) (p : Passage) : Nat := s.earliestFrom (if p.st = 1 then chMax p.start s.chamber else s.chamber) false

/-- The NO_CAPACITY reason of ACTION 1 (R83, R170); a leg that would raise the passage's bound by R67 is refused with reason 6 (R69). -/
def State.legCapacity (s : State) (q : Request) (p : Passage) (l : ProtLeg) : Option Nat :=
  let egress := !p.selects
  let e := l.endpoint
  if decide (l.first + p.slots > s.carrierSlots e egress) || (s.place e egress p.slots (s.changeAt p)).isNone then
    some (if egress then 2 else 1)
  else if p.mode != 0 && decide (s.encDir l.engine egress + 1 > s.tagCap l.engine egress) then some 5
  else if p.selects && decide (tinOf [s.engTerms p.ing.index, s.engTerms l.engine] > (p.terms[0]?).getD 0) then some 6
  else if s.overQuota q.tenant p.slots then some 7 else none

/-- PROTECT_GROUP_SET, with the checks of R61 in their order. -/
def State.cmdProtectGroupSet (s : State) (q : Request) : State :=
  let id := q.u 0 2
  let act := q.u 2 1
  let set := act == 1
  let x := endpointAt q 4
  let p? := tget s.pas id
  let p := p?.getD { owner := 0, slots := 0, ing := {}, eg := {}, mode := 0, skew := 0, trail := 0, start := 0, terms := [], plane := [], base := 0 }
  let l := protLegOf p q
  let badSet := set && (x.kind != 3 || x.index > 7 || x.leaf != 0xFFFF || !(q.rsv 14 2) || q.u 12 2 > 3600)
  let cap := s.legCapacity q p l
  let ready := minReason (s.endpointNotReady x) none
  if s.behindCopy 0x0307 q then s.hold 0x0307 q else
  s.serve 0x0307 q 8 (q.len == 16)
    [.bad (p?.isNone || act < 1 || act > 5 || !(q.rsv 3 1) || badSet || (!set && !(q.rsv 4 12))) .badParam 0,
     .lit (if set then [x.unit] else []), s.anyTenant q, .bad (p.owner != q.tenant) .notOwner 0,
     .bad (set && (!(s.mayUse q.tenant x) || s.inCompat x)) .notPermitted 0,
     .bad (if set then s.legBad p x else p.leg.isNone) .badParam 0,
     .bad (set && ready.isSome) .notReady (ready.getD 0), .bad (p.stop.isSome || p.st == 3) .notReady 4,
     .bad (act == 4 && p.unusable) .notReady 0,
     .bad (set && p.mode != 0 && decide (s.encOn x.index ≥ 64)) .noResource 3,
     .bad (set && !(s.bankRoom (s.changeAt p) (s.compileLeg id p l (s.handles p)))) .noResource 4,
     .bad (set && cap.isSome) .noCapacity (cap.getD 0)]
    fun s =>
      let cc := s.changeAt p
      let s := match act with
        | 1 =>
          ((s.modPas id fun p => { p with leg := some l, prot := {}, skewNs := none, unusable := false }).schedule cc none []
            [.protSet id]).endForForced id l.engine
        | 2 => s.scheduleLegEnd id (s.earliest false)
        | 3 => s.schedule cc none [] [.force id 1]
        | 4 => s.schedule cc none [] [.force id 2]
        | _ => s.schedule cc none [] [.force id 0]
      (s, some (s.protReply id))

end Sys2Proof.Machine
end

