-- ==== Sys2Proof/Machine/Fabric.lean ====
section
/-!
DEFINITION. Blocks through the switch (R27, R30, R51 to R54, R70 to R72, R75, R77, R80, R81, R86): the flow that the active banks give
an ingress or egress slot (R33, R97), what waits in the passage buffers, and what leaves.
-/
namespace Sys2Proof.Machine
open Sys2Proof (Bits Block)

/-! The flow of a slot, from the active banks. -/

/-- The endpoint of the carrier that a slot belongs to. -/
def slotEndpoint (a : SlotAt) : Endpoint := { kind := a.kind, index := a.index, sub := a.sub, leaf := a.leaf, first := 0 }

/-- The carrier code of a slot. -/
def State.slotCode (s : State) (a : SlotAt) (egress : Bool) : Nat :=
  let e := slotEndpoint a
  s.carrierCode e egress (if a.kind = 2 then ((s.flexeClient a.index a.sub).map Prod.snd).getD 0 else 0)

/-- Does a slot step of the active bank name a slot: RX_SLOT or TX_SLOT, HOST_SLOT, UL_SLOT? A leaf carrier is named by its leaf ID, wherever
its windows lie (R303). -/
def State.slotStep (s : State) (a : SlotAt) (egress : Bool) : Bool :=
  match a.kind with
  | 3 => (s.bank (islEng a.index)).words.any fun w =>
    wAction w == (if egress then 0x20 else 0x21) && wSlot w == a.slot &&
      (match s.leafCarrier (slotEndpoint a) egress with
       | some leaf => bitAt (wOperand w) 31 && wop w 24 7 == leaf
       | none => wop w 48 16 == a.sub && !(bitAt (wOperand w) 31))
  | 4 => (s.bank islUlink).words.any fun w =>
    wAction w == 0x38 && wTarget w == 0x0E00 + a.index && wSlot w == a.slot && bitAt (wOperand w) 63 == egress
  | _ => (s.bank islHost).words.any fun w =>
    wAction w == 0x30 && wop w 52 12 == s.slotCode a egress && wSlot w == a.slot && bitAt (wOperand w) 51 == egress

/-- A switch step that serves a slot: the passage its word serves, none for a raw word. -/
structure Route where
  serves : Option Nat
  w      : StepWord
  deriving DecidableEq, Repr

/-- Is a word a switch step whose ingress or egress is a slot? -/
def State.switchAt (s : State) (a : SlotAt) (egress : Bool) (w : StepWord) : Bool :=
  isSwitch w && (if egress then swOut w else swIn w) == (s.slotCode a egress, a.slot)

/-- The raw switch steps of the active FAB bank at a slot: both legs where they share it (R108, reason 9). -/
def State.rawAt (s : State) (a : SlotAt) (egress : Bool) : List StepWord := (s.bank islFab).raw.filter (s.switchAt a egress)

/-- The switch step of the active FAB bank at a slot that a slot step names, firmware words first. -/
def State.route (s : State) (a : SlotAt) (egress : Bool) : Option Route :=
  if !(s.slotStep a egress) then none
  else match (s.bank islFab).fw.find? fun x => s.switchAt a egress x.w with
    | some x => some { serves := x.serves, w := x.w }
    | none => ((s.rawAt a egress).head?).map fun w => { serves := none, w := w }

/-! Places on the carriers of the host side (R30, R31). -/

/-- The slot count of the carrier that a slot belongs to. -/
def State.slotsAt (s : State) (a : SlotAt) (egress : Bool) : Nat := s.carrierSlots (slotEndpoint a) egress

/-- The place that the next block takes at chamber `now`, given the place after the last one: a carrier of N slots takes 100 x N blocks in a
chamber, and what comes faster takes places of the next one (R30, R31, R71). -/
def Place.from_ (x : Place) (n now : Nat) : Place :=
  if chLater now x.ch then { ch := now, k := 0 } else if x.k < 100 * n then x else { ch := chAdd x.ch 1, k := 0 }

/-- The place behind a place. -/
def Place.after (x : Place) : Place := { x with k := x.k + 1 }

/-- The place of the next block that a host port or client receives. -/
def State.rxPlace (s : State) (a : SlotAt) : Place := (tgetD s.host.rxAt (s.slotCode a false) {}).from_ (s.slotsAt a false) s.chamber

/-- That place is taken. -/
def State.rxTake (s : State) (a : SlotAt) : State :=
  { s with host := { s.host with rxAt := tput s.host.rxAt (s.slotCode a false) (s.rxPlace a).after } }

/-- The place of the next block that a host port or client sends in this chamber, none where its 100 x N are sent. -/
def State.txPlace (s : State) (a : SlotAt) : Option Place :=
  let x := (tgetD s.host.txAt (s.slotCode a true) {}).from_ (s.slotsAt a true) s.chamber
  if x.ch = s.chamber then some x else none

/-- That place is taken. -/
def State.txTake (s : State) (a : SlotAt) (x : Place) : State :=
  { s with host := { s.host with txAt := tput s.host.txAt (s.slotCode a true) x.after } }

/-- The slot of a block on a host port or client: block k belongs to slot k mod N (R31). -/
def State.slotOfPlace (s : State) (a : SlotAt) (egress : Bool) (x : Place) : SlotAt := { a with slot := x.k % max 1 (s.slotsAt a egress) }

/-- A draining passage whose leg holds a slot (R75). A block that arrives on two legs counts on each (DESIGN CHOICE, assumption 85). -/
def State.drainAt (s : State) (a : SlotAt) (egress : Bool) : Option (Nat × Bool) :=
  (s.pas.findSome? fun kp =>
    if kp.2.st ≠ 3 then none
    else ((kp.2.legs).find? fun l => l.1 == egress && s.sameCarrier l.2 (slotEndpoint a) egress &&
      decide (l.2.run ≤ a.slot) && decide (a.slot < l.2.run + kp.2.slots)).map fun l =>
        (kp.1, !(l.2 == (if egress then kp.2.eg else kp.2.ing))))

/-! Ports and clients at the edge (R137, R139, R151, R152). -/

/-- The lowest lane of the PHY that carries the k-th slot of a client: calendar entry i belongs to instance i div 20, and the instances run
through the PHYs in order (R142). -/
def State.phyOf (s : State) (group client k : Nat) : Option Nat :=
  match s.flexGroup group with
  | none => none
  | some g =>
    let per := s.instances g.phys / max 1 g.phys.length
    ((s.calendarSlots group client)[k]?).bind fun i => g.phys[i / 20 / max 1 per]?

/-- The host port that a slot's blocks cross: a plain port itself, or the PHY that carries a client's slot. -/
def State.portOfSlot (s : State) (a : SlotAt) : Option Nat :=
  if a.kind = 1 then (s.port a.index).map fun _ => a.index
  else if a.kind = 2 then s.phyOf a.index a.sub a.slot
  else none

/-- Does local fault take the place of what a host ingress receives: a plain port that is down, or a group that is down or has a member
PHY down (R139, R152)? -/
def State.ingressDown (s : State) (a : SlotAt) : Bool :=
  if a.kind = 1 then (match s.port a.index with | some p => !p.up | none => true)
  else if a.kind = 2 then (match s.flexGroup a.index with
    | some g => !g.up || g.phys.any fun l => (match s.port l with | some p => !p.up | none => true)
    | none => true)
  else false

/-- The host port counters of an arriving block (Table 4.9): RX_BLOCKS, RX_ERROR_BLOCKS (R137), RX_LF_INSERTED (R139, R140). The local fault
of a client counts at the PHY that carries its slot, whichever PHY is down (DESIGN CHOICE, assumption 86). -/
def State.portBlock (s : State) (a : SlotAt) (bad : Bool) : State :=
  match s.portOfSlot a with
  | none => s
  | some l =>
    let u := 0x0B00 + l
    if s.ingressDown a then s.bump u 0 23 1
    else if bad then (s.bump u 0 20 1).bump u 0 22 1
    else s.bump u 0 20 1

/-! ESMC PDUs (R394), laid out as ITU-T G.8264 has them (PRESUMED, assumption 77). -/

/-- The QL of an Ethernet frame that is an ESMC PDU with a good check sequence. -/
def esmcQl (f : List Byte) : Option Nat :=
  let at_ := fun (i n : Nat) => (f.drop i).take n
  if 64 ≤ f.length && at_ 0 6 == [0x01, 0x80, 0xC2, 0x00, 0x00, 0x02] && at_ 12 3 == [0x88, 0x09, 0x0A] && at_ 15 5 == [0x00, 0x19, 0xA7, 0x00, 0x01] &&
      fld f 20 1 / 16 == 1 && at_ 24 3 == [0x01, 0x00, 0x04] && crc32 (f.take (f.length - 4)) == fld f (f.length - 4) 4 then
    some (fld f 27 1 % 16)
  else none

/-- The frame under way after one more block, and the frame that the block ends; no PDU is longer than 256 bytes. -/
def frameStep (under : Option (List Byte)) (b : Block) : Option (List Byte) × Option (List Byte) :=
  let bytes := le 8 b.w.toNat
  if b.isStart then (some [], none)
  else match under with
    | none => (none, none)
    | some l =>
      if b.isTerminate then
        (none, some (l ++ (bytes.drop 1).take (([0x87, 0x99, 0xAA, 0xB4, 0xCC, 0xD2, 0xE1, 0xFF].findIdx? fun t => t == b.type).getD 0)))
      else if b.isData && decide (l.length < 256) then (some (l ++ bytes), none) else (none, none)

/-- A plain port that is up reads the ESMC PDUs of its received stream, which go on unchanged in its passage (R394). -/
def State.readEsmc (s : State) (lane : Nat) (b : Block) : State :=
  match s.port lane with
  | none => s
  | some p =>
    let x := frameStep p.rxBytes b
    let s := { s with host := { s.host with ports := tmod s.host.ports lane fun p => { p with rxBytes := x.1 } } }
    match x.2.bind esmcQl with
    | some ql => s.receiveQl (64 + lane) ql
    | none => s

/-! Ingress. -/

/-- UNASSIGNED_BLOCKS of a carrier (R52); fill blocks are not counted (R186). -/
def State.unassigned (s : State) (a : SlotAt) (b : Block) : State :=
  if b = Block.idle then s
  else if a.kind = 3 then s.bump (engUnit a.index 3) 0 4 1
  else if a.kind = 4 then s.bump (0x0E00 + a.index) 0 9 1
  else s

/-- The island that raises PASSAGE_ADAPT_SLIP. -/
def adaptIsland (kind : Nat) : Nat := if kind = 4 then islUlink else islHost

/-- The blocks that a passage's buffer holds (R710). -/
def Passage.capacity (p : Passage) : Nat := 100 * p.slots * p.delay

/-- Is a passage's ingress a leaf carrier, whose blocks the hub releases over the chamber that follows their decode (R306)? -/
def State.fromLeaf (s : State) (p : Passage) : Bool := (s.leafCarrier p.ing false).isSome

/-- Is a leg the one whose blocks count as accepted: the selected one of a protected ingress (R78)? -/
def Passage.countsLeg (p : Passage) (prot : Bool) : Bool := !(p.selects && p.legLive) || p.onProt == prot

/-- The blocks of a leg that wait: those still encrypted where the passage decrypts. -/
def Passage.waiting (p : Passage) (prot : Bool) : List QBlock :=
  match p.opens, prot with
  | true, true => p.secretP
  | true, false => p.secret
  | false, true => p.queueP
  | false, false => p.queue

/-- The blocks of a leg that wait become these. -/
def Passage.setWaiting (p : Passage) (prot : Bool) (l : List QBlock) : Passage :=
  match p.opens, prot with
  | true, true => { p with secretP := l }
  | true, false => { p with secret := l }
  | false, true => { p with queueP := l }
  | false, false => { p with queue := l }

/-- Put a block behind the others of a leg. Where the other leg has brought the same place, its arrival is the block's (R66). -/
def Passage.push (p : Passage) (prot : Bool) (q : QBlock) : Passage :=
  let at_ := match (p.waiting (!prot)).find? fun x => x.tag == q.tag && x.ix == q.ix with | some x => min x.at_ q.at_ | none => q.at_
  p.setWaiting prot (p.waiting prot ++ [{ q with at_ := at_ }])

/-- A leg brings blocks of chamber `tag` in chamber `ch`: the leg that brings them first leads (R84). -/
def Passage.leadBy (p : Passage) (ch tag : Nat) : Passage :=
  let lag := chSub ch tag
  { p with lead := match p.lead with | some l => some (if chLater l lag then lag else l) | none => some lag }

/-- Admit one block on a leg: it is the next of the leg's blocks of chamber `tag`, and counts in BLOCKS_IN where its leg is the selected
one. `place` is the place it takes, where that is not its number among those. -/
def Passage.takeIn (p : Passage) (prot : Bool) (b : Block) (ch tag : Nat) (place : Option Place) (at_ : Nat) : Passage :=
  let l := if prot then p.prot else p.work
  let ix := if l.tag = tag then l.count else 0
  let l := { l with tag := tag, count := ix + 1, came := ch }
  let p := (if prot then { p with prot := l } else { p with work := l }).leadBy ch tag
  let x := place.getD { ch := tag, k := ix }
  let p := p.push prot { b := b, ch := if place.isSome then x.ch else ch, tag := x.ch, ix := x.k, at_ := at_, first := ix == 0 }
  if p.countsLeg prot then { p with blocksIn := p.blocksIn + 1 } else p

/-- Does one block stand before another in the order of R31, by chamber and by its place in it? -/
def QBlock.before (a b : QBlock) : Bool := if a.tag = b.tag then decide (a.ix < b.ix) else chLater b.tag a.tag

/-- A block of a burst takes its place among the blocks of its chamber: the windows of a leaf carrier bring them in pieces (R304). -/
def Passage.place (p : Passage) (q : QBlock) : Passage :=
  { p with queue := p.queue.filter (fun x => x.before q) ++ [q] ++ p.queue.filter (fun x => !(x.before q)) }

/-- How many blocks of a chamber a leg has delivered. -/
def Passage.seenIn (p : Passage) (prot : Bool) (tag : Nat) : Nat :=
  let l := if prot then p.prot else p.work
  if l.tag = tag then l.count else 0

/-- An idle block that the device inserts behind one of an ingress (R71): on a port or client it takes the next place. -/
def State.insertIdle (s : State) (id : Nat) (a : SlotAt) (tag at_ : Nat) : State :=
  let x := s.rxPlace a
  let add := fun (q : Passage → QBlock) => s.modPas id fun p => { p with queue := p.queue ++ [q p], idleIns := p.idleIns + 1 }
  if a.kind = 4 then add fun p => { b := Block.idle, ch := s.chamber, tag := tag, ix := p.seenIn false tag, at_ := at_ }
  else (add fun _ => { b := Block.idle, ch := x.ch, tag := x.ch, ix := x.k, at_ := at_ }).rxTake a

/-- A block meets the passage of its slot. A leg that fails delivers nothing (R54, R85). At KIND 3 a slot carries 100 blocks in a chamber
(R30) and no rate is adapted (R72). Else the rate is adapted (R71): an idle block is deleted while the fill is at or above the upper
mark, an idle block is inserted after an idle or terminate block while it is at or below the lower one, and a block that finds the
buffer full is dropped with PASSAGE_ADAPT_SLIP (R72), unless it stands for a port that is down (R139). -/
def State.takeBlock (s : State) (id : Nat) (prot : Bool) (a : SlotAt) (down : Bool) (b : Block) (tag at_ : Nat) : State :=
  match tget s.pas id with
  | none => s
  | some p =>
    if p.st ≠ 2 || (s.faultOf p prot).isSome || p.slipCh == some s.chamber then s
    else if a.kind = 3 then
      if p.seenIn prot tag < 100 * p.slots then s.modPas id fun p => p.takeIn prot b s.chamber tag none at_ else s
    else
      let fill := p.queue.length
      let cap := p.capacity
      let put := fun (s : State) (b : Block) =>
        if a.kind = 4 then s.modPas id fun p => p.takeIn prot b s.chamber tag none at_
        else (s.modPas id fun p => p.takeIn prot b s.chamber tag (some (s.rxPlace a)) at_).rxTake a
      if a.kind = 4 ∧ p.seenIn prot tag ≥ 100 * p.slots then s
      else if fill ≥ cap then
        if down then s
        else (s.modPas id fun p => { p with adaptDrops := p.adaptDrops + 1 }).raise (adaptIsland a.kind) .passageAdaptSlip id (le 1 1)
      else if b = Block.idle ∧ fill ≥ min cap (Config.highMark cap) then s.modPas id fun p => { p with idleDel := p.idleDel + 1 }
      else
        let s := put s b
        if (b = Block.idle ∨ b.isTerminate) ∧ fill ≤ Config.lowMark cap ∧ fill + 1 < cap then s.insertIdle id a tag at_ else s

/-- The flow of a raw switch step. -/
def rawKey (w : StepWord) : Nat := w.toNat

/-- Change a raw flow. -/
def State.modRaw (s : State) (k : Nat) (f : RawFlow → RawFlow) : State :=
  { s with tab := { s.tab with raws := tput s.tab.raws k (f (tgetD s.tab.raws k {})) } }

/-- A raw flow takes a block: 100 in a chamber (R30). -/
def State.rawAdmit (s : State) (w : StepWord) (b : Block) (tag at_ : Nat) : State :=
  let f := tgetD s.tab.raws (rawKey w) {}
  let ix := if f.tag = tag then f.count else 0
  let q : QBlock := { b := b, ch := s.chamber, tag := tag, ix := ix, at_ := at_ }
  if ix ≥ 100 then s else s.modRaw (rawKey w) fun f => { f with queue := f.queue ++ [q], tag := tag, count := ix + 1 }

/-- A block meets the raw switch steps of its slot: each leg takes it where the legs bridge (R97). -/
def State.rawTake (s : State) (a : SlotAt) (b : Block) (tag at_ : Nat) : State :=
  (s.rawAt a false).foldl (fun (s : State) w => s.rawAdmit w b tag at_) s

/-- Blocks of a 400GBASE-R stream in a chamber. -/
def zrChunk : Nat := 8000

/-- The engine in compatibility mode whose 400ZR frame takes and gives the blocks of a host port (R200). -/
def State.zrOf (s : State) (a : SlotAt) : Option Nat := if a.kind = 1 then s.zrUser a.index else none

/-- A block enters the switch at its slot. Its flow is what the active banks say (R33): a passage admits it, a raw switch step carries it, a
draining passage discards and counts it (R75), and without any it is discarded and counted as unassigned (R52). -/
def State.enter (s : State) (a : SlotAt) (down : Bool) (b : Block) (tag at_ : Nat) : State :=
  let host := decide (a.kind ≤ 2)
  let x := s.rxPlace a
  match s.route a false with
  | some r => match r.serves with
    | some id => s.takeBlock id (swLeg r.w == 1) a down b tag at_
    | none => if host then (s.rawTake a b x.ch at_).rxTake a else s.rawTake a b tag at_
  | none =>
    let s := if host then s.rxTake a else s
    match s.drainAt a false with
    | some x => s.modPas x.1 fun p => { p with late := p.late + 1 }
    | none => s.unassigned a b

/-- A block arrives at an ingress slot: its port counts it, a port that is down brings local fault, and it enters the switch or, at the port
of an engine in compatibility mode, the 400ZR frame (R200). The device counts the blocks of a host port or client, and the slot follows
(R31). -/
def State.ingress (s : State) (a : SlotAt) (b : Block) (bad : Bool) (tag at_ : Nat) : State :=
  let a := if a.kind ≤ 2 then s.slotOfPlace a false (s.rxPlace a) else a
  let down := s.ingressDown a
  let s := s.portBlock a bad
  let b := if down then Block.localFault else if bad then Block.error else b
  let s := if a.kind = 1 ∧ !down then s.readEsmc a.index b else s
  match s.zrOf a with
  | some n => s.modTx n fun t => { t with zrBlocks := (t.zrBlocks ++ [b]).take (2 * zrChunk) }
  | none => s.enter a down b tag at_

/-- One slot's block of a row of a leaf's burst meets the passage of its slot (R304, R310); none for a block of a missed window, in whose
place the hub puts a local-fault ordered set (R54, R311). Row t of a chamber holds the t-th block of each slot (R31). -/
def State.burstBlock (s : State) (a : SlotAt) (b : Option Block) (tag row at_ : Nat) : State :=
  match (s.route a false).bind fun r => r.serves with
  | none => (match b with | some b => s.ingress a b false tag at_ | none => s)
  | some id => match tget s.pas id with
    | none => s
    | some p =>
      if p.st ≠ 2 || (s.faultOf p false).isSome || p.slipCh == some s.chamber then s
      else
        let q : QBlock :=
          { b := b.getD Block.localFault, ch := s.chamber, tag := tag, ix := row * p.slots + (a.slot - p.ing.first), at_ := at_, lf := b.isNone
            first := b.isSome && !(p.queue.any fun x => x.tag == tag && !x.lf) }
        s.modPas id fun p => { p.place q with blocksIn := p.blocksIn + bit b.isSome }

/-- BLOCK_INGRESS: one block arrives at the ingress point now, or one FEC block of a plain host port that is up, whose decoder delivers its
blocks (R136). The blocks of a line or link frame come with their frame. -/
def State.blockIngress (s : State) (a : SlotAt) (x : Arrival) : State :=
  match x with
  | .block b bad => s.ingress a b bad s.chamber s.now
  | .fec pam sent =>
    match if a.kind = 1 then s.port a.index else none with
    | none => s
    | some p =>
      if !p.up || !p.plain then s
      else
        let r := p.rxPcs.take p.rxCfg pam sent
        let s := { s with host := { s.host with ports := tmod s.host.ports a.index fun p => { p with rxPcs := r.1 } } }
        r.2.foldl (fun (s : State) b => s.ingress a b.1 b.2 s.chamber s.now) s

/-! Egress. -/

/-- The chamber from which the wait of a block counts: its admission, or on a selecting passage the chamber in which the leading leg brings
its chamber number (R66, R84). -/
def Passage.waitFrom (p : Passage) (q : QBlock) : Nat :=
  if p.selects && p.legLive then (match p.lead with | some l => chAdd q.tag l | none => q.ch) else q.ch

/-- May a block of a passage leave: it waits one chamber, PROTECT_SKEW chambers more, and one more that comes by bursts (R75, R84, R306;
DESIGN CHOICE, assumption 81)? -/
def State.mayLeave (s : State) (p : Passage) (q : QBlock) : Bool := chLater s.chamber (chAdd (p.waitFrom q) (p.skew + bit (s.fromLeaf p)))

/-- Is block `a` of the same place as, or before, block `b` of the other leg, by chamber number (R81)? -/
def notAfter (a b : QBlock) : Bool := if a.tag = b.tag then decide (a.ix ≤ b.ix) else chLater b.tag a.tag

/-- Take the oldest ready block out; the other leg's blocks of the same place and before it go with it. -/
def Passage.pop (p : Passage) : Passage :=
  match p.ready with
  | [] => p
  | q :: rest =>
    if p.opens then { p with opened := rest }
    else if p.selects && p.legLive && p.onProt then { p with queueP := rest, queue := p.queue.filter fun x => !(notAfter x q) }
    else { p with queue := rest, queueP := p.queueP.filter fun x => !(notAfter x q) }

/-- Does the ingress of a passage bring nothing now: the leg in use fails, or the chamber is one that an elastic slip costs (R54, R85, R87,
R410)? -/
def State.substitutes (s : State) (p : Passage) : Bool :=
  p.failing || (p.st == 2 && (s.faultOf p p.onProt).isSome) || p.slipCh == some s.chamber

/-- The chamber after which the first block that an ingress brings in chamber `ch` leaves. -/
def State.dueAfter (s : State) (p : Passage) (ch : Nat) : Nat := chAdd ch (p.skew + bit (p.mode == 1) + bit (s.fromLeaf p))

/-- Is the gap that a failure or a slip left still passing through the switch? -/
def State.inGap (s : State) (p : Passage) : Bool := match p.gap with | some ch => !(chLater s.chamber (s.dueAfter p ch)) | none => false

/-- What a passage sends when nothing is ready (R54, R72, R75): nothing of its own before its first block is due, local fault where the
ingress brought nothing, and else it has underflowed. -/
def State.dry (s : State) (p : Passage) (id : Nat) : State × Option (Block × Option QBlock) :=
  let lf := some (Block.localFault, none)
  if p.st = 3 then (s, lf)
  else if !(chLater s.chamber (s.dueAfter p p.start)) then (s, none)
  else if s.substitutes p || s.inGap p || p.ing.kind == 3 || s.ingressDown { kind := p.ing.kind, index := p.ing.index, sub := p.ing.sub } then (s, lf)
  else (s.raise (adaptIsland p.ing.kind) .passageAdaptSlip id (le 1 2), lf)

/-- What a passage has for its next egress slot, and the state without it: a block with what it was, or a local-fault ordered set
(R54, R72, R75, R77); nothing before its first block is due, when an ACTIVE passage sends what an unassigned slot sends (DESIGN CHOICE,
assumption 81). Blocks admitted before a failure leave on time, and those of the failed span are substituted when their places come (R85,
R86). -/
def State.supply (s : State) (id : Nat) : State × Option (Block × Option QBlock) :=
  match tget s.pas id with
  | none => (s, none)
  | some p =>
    match p.ready.head? with
    | some q =>
      if !(s.mayLeave p q) then s.dry p id
      else (s.modPas id fun p => { p.pop with endNext := false },
        some (if q.lf then (Block.localFault, none) else (if p.endNext then Block.error else q.b, some q)))
    | none => s.dry p id

/-- Is a block inside a packet after `b` left, given that it was before (R366)? -/
def insideAfter (b : Block) (was : Bool) : Bool :=
  if b.isStart then true else if b.isTerminate then false else was

/-- The latency of a block that leaves now, in ns between the pins: the transmit pipeline of an engine takes 410 ns (R66, R80, R201). -/
def State.latencyOf (s : State) (p : Passage) (q : QBlock) : Nat := (s.now - q.at_) / 4 + (if p.eg.kind = 3 then 410 else 0)

/-- Does a block leave egress interrupted: substituted, or replaced by an error control block (R606)? -/
def interrupted (x : Block × Option QBlock) : Bool :=
  match x.2 with
  | none => true
  | some q => x.1.isError && !q.b.isError

/-- An interruption of a passage runs from its first to its last interrupted block (R606); one that follows more than 1 s later is another,
since faults of one condition lie that far apart (R609). -/
def Passage.cutAt (p : Passage) (t : Nat) : Passage :=
  match p.cut with
  | some (a, b) => { p with cut := some (if b + secQ < t then t else a, t) }
  | none => { p with cut := some (t, t) }

/-- The length of a passage's latest interruption in ns (R606). -/
def Passage.cutNs (p : Passage) : Nat := match p.cut with | some (a, b) => (b - a) / 4 | none => 0

/-- Count what leaves egress (R78): a substituted set, or a block; the first block that a chamber admitted is the sample of R80. -/
def State.left (s : State) (id : Nat) (x : Block × Option QBlock) : State :=
  let s := if interrupted x then s.modPas id fun p => p.cutAt s.mono else s
  match tget s.pas id with
  | none => s
  | some p => match x.2 with
    | none => s.modPas id fun p => { p with subst := p.subst + 1, inPacket := insideAfter x.1 p.inPacket }
    | some q =>
      let ns := s.latencyOf p q
      let sample := q.first
      let s := s.modPas id fun p => { p with
        blocksOut := p.blocksOut + 1, maxSeen := if sample then max p.maxSeen ns else p.maxSeen, inPacket := insideAfter x.1 p.inPacket }
      if sample && decide (ns > p.bound) then (s.raise islFab .passageBoundExceeded id (le 4 ns)).alert id else s

/-- The next block of a passage for its egress: where it encrypts, one of those sealed for this chamber's frame (R350). -/
def State.nextOf (s : State) (id : Nat) : State × Option (Block × Option QBlock) :=
  match tget s.pas id with
  | none => (s, none)
  | some p =>
    if p.mode != 0 && !p.decrypts then
      match if (s.cipPas id).sentCh == some s.chamber then p.sealed else [] with
      | x :: rest => (s.modPas id fun p => { p with sealed := rest }, some x)
      | [] => (s, if chLater s.chamber (chAdd p.start (p.skew + 1)) || p.st == 3 then some (Block.localFault, none) else none)
    else s.supply id

/-- What one leg of a passage sends next. A bridging passage sends the same blocks on both legs: a block that left on one leg waits for
the other one's slot (R81). The block counts once, when it first leaves; `count` is false for one that is deleted instead (R151). -/
def State.legNext (s : State) (id : Nat) (prot count : Bool) : State × Option Block :=
  match tget s.pas id with
  | none => (s, none)
  | some p =>
    match if prot then p.bridgeP else p.bridgeW with
    | x :: rest => (s.modPas id fun p => if prot then { p with bridgeP := rest } else { p with bridgeW := rest }, some x.1)
    | [] =>
      match s.nextOf id with
      | (s, none) => (s, none)
      | (s, some x) =>
        let s := if count then s.left id x else s
        let bridged := p.leg.isSome && p.legLive && !p.selects
        let s := if bridged then s.modPas id fun p => if prot then { p with bridgeW := p.bridgeW ++ [x] } else { p with bridgeP := p.bridgeP ++ [x] }
          else s
        (s, some x.1)

/-- Where the line framer and an Umran port keep the blocks of a slot. -/
def stageKey (sub leaf slot : Nat) : Nat := if leaf < 128 then 0x10000 + leaf * 1024 + slot else lowestBit sub * 1024 + slot

/-- A block goes out in an egress slot: to the line framer or the link framer, which carry 100 in a chamber and slot (R30) and replace a
block with no place in Table 5.3 (R183, R630), or through the coder of a host port (R136), counted in TX_BLOCKS. -/
def State.sendOn (s : State) (a : SlotAt) (b : Block) : State :=
  let put := fun (t : Tab (List Block)) (k : Nat) =>
    let l := tgetD t k []
    if l.length < 100 then tput t k (l ++ [b.carried]) else t
  if a.kind = 3 then
    let leaf := match s.leafCarrier (slotEndpoint a) true with | some l => l | none => 0xFFFF
    let s := if b.replaced then s.bump (engUnit a.index 3) 0 3 1 else s
    s.modTx a.index fun t => { t with stage := put t.stage (stageKey a.sub leaf a.slot) }
  else if a.kind = 4 then
    let s := if b.replaced then s.bump (0x0E00 + a.index) 0 8 1 else s
    { s with ul := { s.ul with ports := tmod s.ul.ports a.index fun x => { x with stage := put x.stage a.slot } } }
  else match s.portOfSlot a with
    | none => s
    | some l =>
      { s.bump (0x0B00 + l) 0 21 1 with host := { s.host with ports := tmod s.host.ports l fun p => { p with pcs := p.pcs.put p.txCfg b } } }

/-- What a slot that belongs to no passage sends (R53): fill on an engine or an Umran port, local fault on a host port or client. -/
def fillOf (kind : Nat) : Block := if kind = 3 ∨ kind = 4 then Block.idle else Block.localFault

/-- The selector of a SELECT word: its WORK_CARRIER and PROT_CARRIER. -/
def selKey (w : StepWord) : Nat := wop w 40 24

/-- The fault of a carrier of a raw SELECT step: an engine's or an Umran port's (R85). -/
def State.codeFault (s : State) (code : Nat) : Option Nat :=
  if code / 256 = 3 then s.engineFault (code % 256 / 16) false else if code / 256 = 4 then s.ulFault (code % 256) else none

/-- The rule of a raw SELECT step at a chamber boundary (R81, R85, R97): a force holds its leg once that leg has no fault; else the selector
leaves a failed leg for a clean one, and returns to the working leg after it was clean for WTR_S seconds. -/
def State.rawRule (s : State) (w : StepWord) (x : RawSel) : RawSel :=
  let bad := fun (prot : Bool) => (s.codeFault (if prot then wop w 40 12 else wop w 52 12)).isSome
  let cleanAt := if x.onProt && !(bad false) then some (x.cleanAt.getD s.mono) else none
  let due := wop w 28 12 != 0 && (match cleanAt with | some t => s.since t (wop w 28 12 * secQ) | none => false)
  let want := if wop w 26 2 ≠ 0 then (let f := wop w 26 2 == 2; if bad f then x.onProt else f)
    else if bad x.onProt && !(bad (!x.onProt)) then !x.onProt else if due then false else x.onProt
  { onProt := want, cleanAt := if want then cleanAt else none }

/-- Every raw SELECT step of the active bank looks at its legs. -/
def State.rawSelect (s : State) : State :=
  ((s.bank islFab).raw.filter fun w => wAction w == 0x12).foldl
    (fun (s : State) w =>
      { s with tab := { s.tab with rawSel := tput s.tab.rawSel (selKey w) (s.rawRule w (tgetD s.tab.rawSel (selKey w) {})) } })
    s

/-- Which of the raw switch steps that feed one egress slot is taken: the only one, or the leg that the SELECT step of their carriers is on;
the working leg where no SELECT step names them. -/
def State.rawPick (s : State) (ws : List StepWord) : Option StepWord :=
  match (s.bank islFab).raw.find? fun x => wAction x == 0x12 && ws.any fun w => (swIn w).1 == wop x 52 12 with
  | some x => (ws.find? fun w => decide (swLeg w = bit (tgetD s.tab.rawSel (selKey x) {}).onProt)).or ws.head?
  | none => (ws.find? fun w => swLeg w == 0).or ws.head?

/-- A raw flow sends its oldest block whose DELAY - 1 chambers are over, or fill where it has none (R75, R97). What the other leg brought for
the same place or before goes with it (R81). -/
def State.rawNext (s : State) (w : StepWord) (others : List StepWord) (kind : Nat) : State × Block :=
  match (tgetD s.tab.raws (rawKey w) {}).queue with
  | q :: rest =>
    if chLater s.chamber (chAdd q.ch (wop w 16 4 - 2)) then
      (others.foldl
        (fun (s : State) v => if v = w then s else s.modRaw (rawKey v) fun f => { f with queue := f.queue.filter fun x => !(notAfter x q) })
        (s.modRaw (rawKey w) fun f => { f with queue := rest }), q.b)
    else (s, fillOf kind)
  | [] => (s, fillOf kind)

/-- A raw flow whose step a swap removed, still within its DELAY, with a block for an egress slot (R75). -/
def State.rawDrain (s : State) (a : SlotAt) : Option StepWord :=
  (s.tab.raws.find? fun kf =>
    (match kf.2.until_ with | some t => !(chReached s.chamber t) | none => false) && s.switchAt a true (BitVec.ofNat 128 kf.1) &&
      !kf.2.queue.isEmpty).map fun kf => BitVec.ofNat 128 kf.1

/-- The raw flows at the swap of chamber `cc`: a flow whose step is no longer active drains for its DELAY, and then is no more (R75). -/
def State.rawsAt (s : State) (cc : Nat) : Tab RawFlow :=
  (s.tab.raws.filter fun kf => match kf.2.until_ with | some t => !(chReached cc t) | none => true).map fun kf =>
    let w : StepWord := BitVec.ofNat 128 kf.1
    if (s.bank islFab).raw.contains w then (kf.1, { kf.2 with until_ := none })
    else (kf.1, { kf.2 with until_ := some (kf.2.until_.getD (chAdd cc (wop w 16 4))) })

/-- What goes out next in an egress slot. -/
def State.egressNext (s : State) (a : SlotAt) (count : Bool) : State × Block :=
  let leg := fun (id : Nat) (prot : Bool) => match s.legNext id prot count with
    | (s', some b) => (s', b)
    | (s', none) => (s', fillOf a.kind)
  match s.zrOf a with
  | some n => match (s.eng n).rx.zrOut with
    | b :: rest => (s.modRx n fun r => { r with zrOut := rest }, b)
    | [] => (s, Block.localFault)
  | none => match s.route a true with
  | some r => match r.serves with
    | some id => leg id (swLeg r.w == 1 && !(match tget s.pas id with | some p => p.selects | none => false))
    | none => match s.rawPick (s.rawAt a true) with
      | some w => s.rawNext w (s.rawAt a true) a.kind
      | none => (s, fillOf a.kind)
  | none => match s.drainAt a true with
    | some x => leg x.1 x.2
    | none => match s.rawDrain a with
      | some w => s.rawNext w [] a.kind
      | none => (s, fillOf a.kind)

/-- One egress slot goes out. At a KIND 2 egress without room in the client's calendar, an idle block is deleted and counted, and any other
block waits (R151, R141). -/
def State.slotOut (s : State) (a : SlotAt) (room : Bool) : State :=
  if a.kind = 2 && !room then
    match s.egressNext a false with
    | (s', b) =>
      if b = Block.idle then (match s.flexeClient a.index a.sub with | some (_, h) => s'.bump 0x0B81 (256 + h) 0 1 | none => s') else s
  else match s.egressNext a true with | (s', b) => s'.sendOn a b

/-- BLOCK_EGRESS: one egress slot goes out. A host port or client sends 100 x N blocks in a chamber, and block k is that of slot k mod N
(R30, R31). -/
def State.blockEgress (s : State) (a : SlotAt) (room : Bool) : State :=
  if a.kind ≤ 2 ∧ (s.zrOf a).isNone then
    match s.txPlace a with
    | none => s
    | some x =>
      let s := s.slotOut (s.slotOfPlace a true x) room
      if room || a.kind != 2 then s.txTake a x else s
  else s.slotOut a room

end Sys2Proof.Machine
end

