-- ==== Sys2Proof/Machine/Frame.lean ====
section
/-!
DEFINITION. The layout of the chamber frame (R165 to R168, R175, R177, R180, R182) as one string of bits: its overhead area, its map
regions, tags and management words, and the payload regions of its subcarriers.
-/
namespace Sys2Proof.Machine

/-- A subcarrier group as a frame carries it: its SUB mask, the TRAIL of each of its Ng slots, and its 100 x Ng blocks in the order of
R31. -/
structure GroupData where
  mask   : Nat
  trails : List Nat
  blocks : List Block
  deriving DecidableEq, Repr

/-- W(c), the words of the overhead area (R165). -/
def EngCfg.frameWords (c : EngCfg) (prof : List Nat) (ch : Nat) : Nat := c.frameBitsAt prof ch / 8192

/-- P(c), the bits of the payload area (R165). -/
def EngCfg.payloadBits (c : EngCfg) (prof : List Nat) (ch : Nat) : Nat := c.frameBitsAt prof ch - 64 * c.frameWords prof ch

/-- The first bit of the payload region of subcarrier s in a payload area of `p` bits (R166): the shares of the information bits are
those of the entropies. -/
def regionStart (prof : List Nat) (p s : Nat) : Nat := p * hSum (prof.take s) / max 1 (hSum prof)

/-- The payload regions of the subcarriers, each as its first bit and its length. -/
def payloadRegions (prof : List Nat) (p : Nat) : List (Nat × Nat) :=
  (List.range prof.length).map fun s => (regionStart prof p s, regionStart prof p (s + 1) - regionStart prof p s)

/-- The map regions of the subcarriers, each as its first bit in the frame and its length (R168, Table 5.1). -/
def EngCfg.mapRegions (c : EngCfg) (prof : List Nat) : List (Nat × Nat) :=
  (List.range prof.length).map fun s =>
    (64 * (8 + hSum ((prof.take s).map c.mapWords)), 64 * c.mapWords ((prof[s]?).getD 0))

/-- The first bit of the tag area. -/
def EngCfg.tagStart (c : EngCfg) (prof : List Nat) : Nat := 64 * (8 + hSum (prof.map c.mapWords))

/-- The words of the tag area. -/
def EngCfg.tagWords (c : EngCfg) (prof : List Nat) : Nat := ceilDiv (144 * c.tagCap prof) 64

/-- The first bit of the management words. -/
def EngCfg.mgmtStart (c : EngCfg) (prof : List Nat) : Nat := c.tagStart prof + 64 * c.tagWords prof

/-- The length of the area that a group's mask takes: the regions of its subcarriers. -/
def areaLen (regions : List (Nat × Nat)) (mask : Nat) : Nat :=
  hSum (((List.range regions.length).zip regions).map fun r => if bitAt mask r.1 then r.2.2 else 0)

/-- The place in the frame, or in the payload area, of bit `i` of the area of a group: its subcarriers' regions in ascending order. -/
def placeIn (mask : Nat) : Nat → List (Nat × Nat) → Nat → Option Nat
  | _, [], _ => none
  | s, r :: rs, i =>
    if bitAt mask s then (if i < r.2 then some (r.1 + i) else placeIn mask (s + 1) rs (i - r.2)) else placeIn mask (s + 1) rs i

/-- What subcarrier `s` carries of the groups' areas: its share of its group's bits, or zeros where it belongs to no group. -/
def shareOf (regions : List (Nat × Nat)) (areas : List (Nat × Bits)) (s len : Nat) : Bits :=
  match areas.find? fun a => bitAt a.1 s with
  | some (mask, b) => b.slice (areaLen (regions.take s) mask) len
  | none => { len := len }

/-- All regions in ascending order, each with what its subcarrier carries. -/
def spread (regions : List (Nat × Nat)) (areas : List (Nat × Bits)) : Bits :=
  ((List.range regions.length).zip regions).foldl (fun (acc : Bits) r => acc.append (shareOf regions areas r.1 r.2.2)) {}

/-- The area of a group, put together from its subcarriers' regions of a frame. -/
def gather (b : Bits) (base : Nat) (regions : List (Nat × Nat)) (mask : Nat) : Bits :=
  ((List.range regions.length).zip regions).foldl
    (fun (acc : Bits) r => if bitAt mask r.1 then acc.append (b.slice (base + r.2.1) r.2.2) else acc) {}

/-- Tile bits of a group of Ng slots. -/
def tileCount (ng : Nat) : Nat := ceilDiv (25 * ng) 2

/-- A group's map region: slot entries, tile bits, zero to the end (R175). -/
def groupMap (g : GroupData) (len : Nat) : Bits :=
  let tiles := tilesOf g.blocks
  ((Bits.ofFields 16 g.trails).append (Bits.ofFields 1 (tiles.map fun t => if t.1 then 1 else 0))).padTo len

/-- A group's payload area: its tiles from the first bit on, tile t at bit 512 x t, then zeros (R167, R182). -/
def groupPayload (g : GroupData) (len : Nat) : Bits := (Bits.ofFields 64 ((tilesOf g.blocks).flatMap fun t => t.2)).padTo len

/-- The frame of chamber `ch` (Table 5.1, R165 to R168): header, map regions, tag area, management, fill, payload. -/
def EngCfg.frameOf (c : EngCfg) (prof : List Nat) (ch : Nat) (header : List Nat) (groups : List GroupData) (tags : List Nat)
    (mgmt : List Byte) : Bits :=
  let maps := c.mapRegions prof
  let pay := payloadRegions prof (c.payloadBits prof ch)
  let head := (((Bits.ofFields 64 header).append (spread maps (groups.map fun g => (g.mask, groupMap g (areaLen maps g.mask))))).append
    ((Bits.ofFields 144 (padList 0 (c.tagCap prof) tags)).padTo (64 * c.tagWords prof))).append
    (Bits.ofFields 8 (padList 0 (8 * c.mgmtWords prof) (mgmt.map fun b => b.toNat)))
  (head.padTo (64 * c.frameWords prof ch)).append
    (spread pay (groups.map fun g => (g.mask, groupPayload g (areaLen pay g.mask))))
where
  /-- A list brought to a length, with an element to fill it. -/
  padList (d n : Nat) (l : List Nat) : List Nat := l.take n ++ List.replicate (n - l.length) d

/-! Reading a frame. -/

/-- Does a bit range of a frame meet a range that lies in uncorrectable codewords? -/
def lostIn (bad : List (Nat × Nat)) (lo n : Nat) : Bool := bad.any fun r => decide (r.1 < lo + n) && decide (lo < r.1 + r.2)

/-- Is any of `n` bits from bit `i` of a group's area lost? -/
def areaLost (bad : List (Nat × Nat)) (base mask : Nat) (regions : List (Nat × Nat)) (i n : Nat) : Bool :=
  (List.range n).any fun k => match placeIn mask 0 regions (i + k) with | some p => lostIn bad (base + p) 1 | none => false

/-- The eight header words of a frame, none where one of them is lost (R193). -/
def frameHeader (b : Bits) (bad : List (Nat × Nat)) : Option (List Nat) :=
  if lostIn bad 0 512 then none else some (b.fields 0 64 8)

/-- The slot entries of a group of Ng slots, none where an entry is lost (R176). -/
def EngCfg.entriesOf (c : EngCfg) (prof : List Nat) (b : Bits) (bad : List (Nat × Nat)) (mask ng : Nat) : List (Option Nat) :=
  let maps := c.mapRegions prof
  let area := gather b 0 maps mask
  (List.range ng).map fun j => if areaLost bad 0 mask maps (16 * j) 16 then none else some (area.field (16 * j) 16)

/-- The 100 x Ng blocks of a group, and how many of its tiles were decode errors (R185, R190). -/
def EngCfg.blocksOfGroup (c : EngCfg) (prof : List Nat) (ch : Nat) (b : Bits) (bad : List (Nat × Nat)) (mask ng : Nat) : List Block × Nat :=
  let maps := c.mapRegions prof
  let base := 64 * c.frameWords prof ch
  let pay := payloadRegions prof (c.payloadBits prof ch)
  let map_ := gather b 0 maps mask
  let area := gather b base pay mask
  let tiles := (List.range (tileCount ng)).map fun t =>
    let n := min 8 (100 * ng - 8 * t)
    let bitAt_ := 16 * ng + t
    let ws := area.fields (512 * t) 64 n
    let bitLost := areaLost bad 0 mask maps bitAt_ 1
    let bit_ := map_.field bitAt_ 1 == 1
    let lost := (List.range n).map fun k => areaLost bad base mask pay (512 * t + 64 * k) 64
    (blocksOfTile bitLost bit_ lost ws, !bitLost && (wordBlocks bit_ ws).isNone)
  (tiles.flatMap Prod.fst, (tiles.filter Prod.snd).length)

/-- The tag entry of a passage by subcarrier and SLOT_FIRST (R178): the tag, or why there is none. -/
inductive TagSeen where
  | entry (tag : Nat)
  | noEntry
  | uncorrectable
  deriving DecidableEq, Repr

/-- Find the tag entry of a passage: a VALID entry with its subcarrier and SLOT_FIRST, or none; an entry that is lost cannot be read, so
where no entry that was read matches and one is lost, the passage's is taken as the lost one (DESIGN CHOICE, assumption 79). -/
def EngCfg.tagIn (c : EngCfg) (prof : List Nat) (b : Bits) (bad : List (Nat × Nat)) (sub first : Nat) : TagSeen :=
  let at_ := fun i => c.tagStart prof + 144 * i
  let lost := fun i => lostIn bad (at_ i) 144
  match (List.range (c.tagCap prof)).find? fun i =>
      !(lost i) && b.field (at_ i) 4 == sub && b.field (at_ i + 4) 10 == first && b.field (at_ i + 14) 1 == 1 with
  | some i => .entry (b.field (at_ i + 16) 128)
  | none => if (List.range (c.tagCap prof)).any lost then .uncorrectable else .noEntry

/-- The management bytes of a frame, none where a byte is lost. -/
def EngCfg.mgmtIn (c : EngCfg) (prof : List Nat) (b : Bits) (bad : List (Nat × Nat)) : List (Option Byte) :=
  (List.range (8 * c.mgmtWords prof)).map fun i =>
    let at_ := c.mgmtStart prof + 8 * i
    if lostIn bad at_ 8 then none else some (BitVec.ofNat 8 (b.field at_ 8))

/-! The management stream (R180, R181). -/

/-- A framed management message (R180). -/
def mgmtFrame (content : List Byte) : List Byte :=
  [0xA5] ++ le 2 content.length ++ content ++ le 4 (crc32c (le 2 content.length ++ content))

/-- Send `k` management bytes: the queue that is left, the bytes sent, 0x00 where there is nothing to send, and how many messages
ended. -/
def sendMgmt (k : Nat) : List (List Byte) → List (List Byte) × List Byte × Nat
  | [] => ([], zeros k, 0)
  | m :: ms =>
    if m.length ≤ k then
      let r := sendMgmt (k - m.length) ms
      (r.1, m ++ r.2.1, r.2.2 + 1)
    else (m.drop k :: ms, m.take k, 0)

/-- One step of the hunt for a message (R181): a whole message with what follows it, a message lost with one of its bytes, or what is
left to search. -/
inductive Hunt where
  | more                                          -- nothing whole yet
  | skip                                          -- the first byte starts no message
  | lost (rest : List (Option Byte))              -- a message of which a byte was lost
  | found (content : List Byte) (rest : List (Option Byte))
  deriving DecidableEq, Repr

/-- The bytes of a stream, a lost one as 0. -/
def known (l : List (Option Byte)) : List Byte := l.map fun x => x.getD 0

/-- Look at the start of a byte stream for a message (R181). DESIGN CHOICE (assumption 86): a lost byte where a message would begin starts
none and is passed over uncounted; a message with a lost byte is passed over for its whole LENGTH and counted once; one whose LENGTH lost a
byte has no end that is known, and the hunt goes on behind LENGTH. -/
def huntAt (b : List (Option Byte)) : Hunt :=
  match b with
  | [] => .more
  | x :: rest =>
    if x ≠ some 0xA5 then .skip
    else if b.length < 3 then .more
    else if (rest.take 2).any fun y => y.isNone then .lost (b.drop 3)
    else
      let n := fld (known (b.take 3)) 1 2
      if n < 16 ∨ n > 4224 then .skip
      else if b.length < 7 + n then .more
      else if (b.take (7 + n)).any fun y => y.isNone then .lost (b.drop (7 + n))
      else
        let c := known ((b.drop 3).take n)
        if crc32c (le 2 n ++ c) = fld (known (b.take (7 + n))) (3 + n) 4 then .found c (b.drop (7 + n)) else .skip

/-- Hunt through a stream: the contents of whole messages, how many were lost, and the bytes that may begin another. -/
def hunt : Nat → List (Option Byte) → List (List Byte) × Nat × List (Option Byte)
  | 0, b => ([], 0, b)
  | k + 1, b => match huntAt b with
    | .more => ([], 0, b)
    | .skip => hunt k (b.drop 1)
    | .lost rest =>
      let r := hunt k rest
      (r.1, r.2.1 + 1, r.2.2)
    | .found c rest =>
      let r := hunt k rest
      (c :: r.1, r.2)

end Sys2Proof.Machine
end

