-- ==== Sys2Proof/Machine/Cipher.lean ====
section
/-!
DEFINITION. The cipher engine and the key store (10_cipher.md): the commands of class 0x04, segments, compare pairs and tags.
-/
namespace Sys2Proof.Machine

/-! KEY_LOAD_WRAPPED and KEY_RETIRE (R368 to R372, R385, R386). -/

/-- The key slots that are not EMPTY and a tenant's (R385). -/
def State.keyCharge (s : State) (t : Nat) : Nat := ((tvals s.cip.slots).filter fun k => k.st != .empty && k.owner == t).length

/-- The lowest EMPTY key slot. -/
def State.freeSlot (s : State) : Option Nat := (List.range 1024).find? fun k => (s.keySlot k).st == .empty

/-- Would a tenant exceed its key-slot quota once a load fills `slot` (R371)? -/
def State.overKeys (s : State) (t slot usage : Nat) : Bool :=
  let grows := bit ((s.keySlot slot).st == .empty)
  let drops := bit (usage == 2 && (match tget s.cip.mgmt t with | some k => k != slot | none => false))
  (s.policy t).keyQuota != 0xFFFF && decide (s.keyCharge t + grows > (s.policy t).keyQuota + drops)

/-- Is a key slot another tenant's (R385)? -/
def State.foreignKey (s : State) (t slot : Nat) : Bool := (s.keySlot slot).st != .empty && (s.keySlot slot).owner != t

/-- Put an unwrapped key into a slot (R370, R371). -/
def State.loadKey (s : State) (t slot usage keyId gen : Nat) (key : List Byte) : State :=
  let s := match tget s.cip.mgmt t with
    | some k => if usage = 2 ∧ k ≠ slot then s.keyEmpty k else s
    | none => s
  let s := s.modCip fun c => { c with
    mgmt := if usage = 2 then tput c.mgmt t slot else c.mgmt.filter fun e => e.2 != slot }
  s.modKey slot fun _ =>
    { st := .loaded, owner := t, usage := usage, keyId := keyId, kekGen := gen, key := key
      subkey := if usage = 1 then gcmSubkey key else 0 }

/-- A failed unwrap is counted and reported (R370). -/
def State.unwrapFail (s : State) (slot t keyId gen : Nat) : State :=
  (s.modCip fun c => { c with unwrapFailures := c.unwrapFailures + 1 }).raise islFab .keyUnwrapFail slot
    (le 1 t ++ le 4 keyId ++ le 4 gen)

/-- KEY_LOAD_WRAPPED. -/
def State.cmdKeyLoadWrapped (s : State) (q : Request) : State :=
  let want := q.u 0 2
  let usage := q.u 2 1
  let t := q.tenant
  let kek := tget s.cip.keks t
  let key := match kek with | some k => keyUnwrap k.key ((q.payload.drop 12).take 40) | none => none
  let free := s.freeSlot
  let slot := if want = 0xFFFF then free.getD 0 else want
  let named := want != 0xFFFF
  let first : List Check :=
    [.lit [unitKeyStore], .bad (!(want < 1024 || want == 0xFFFF) || usage < 1 || usage > 2 || !(q.rsv 3 1)) .badParam 0, s.transportRule q, s.anyTenant q,
     .bad (named && s.foreignKey t want) .notOwner 0,
     .bad (match kek with | some k => k.gen != q.u 8 4 | none => false) .badParam 2]
  let s := if s.reaches 0x0401 q (q.len == 52) first && kek.isSome && key.isNone then s.unwrapFail want t (q.u 4 4) (q.u 8 4) else s
  s.serve 0x0401 q 12 (q.len == 52)
    (first ++
      [.bad (kek.isSome && key.isNone) .badParam 1, .bad kek.isNone .notReady 2,
       .bad (named && (s.keySlot want).st != .empty && (s.keySlot want).st != .loaded) .notIdle 1,
       .bad (!named && free.isNone) .noResource 2, .bad (s.overKeys t slot usage) .noResource 1])
    fun s =>
      let k := key.getD []
      (s.loadKey t slot usage (q.u 4 4) (q.u 8 4) k, some (le 1 0 ++ le 1 0 ++ le 2 slot ++ kcv k ++ zeros 4))

/-- KEY_RETIRE. -/
def State.cmdKeyRetire (s : State) (q : Request) : State :=
  let k := q.u 0 2
  let st := (s.keySlot k).st
  s.serve 0x0402 q 4 (q.len == 4)
    [.lit [unitKeyStore], .bad (decide (k > 1023) || !(q.rsv 2 2)) .badParam 0, s.transportRule q, s.anyTenant q,
     .bad (s.foreignKey q.tenant k) .notOwner 0, .bad (st != .empty && st != .loaded) .notIdle 1]
    fun s => (s.keyEmpty k, some okay4)

/-! CIPHER_BIND and CIPHER_UNBIND (R378 to R384). -/

/-- Record a prepared binding; an earlier one of the same ID gives its slot back. -/
def State.prepare (s : State) (t id slot : Nat) : State :=
  let s := match s.prepared t id with
    | some old => s.keyTo old .loaded
    | none => s
  (s.modCip fun c => { c with prepared := (c.prepared.filter fun e => e.1 != (t, id)) ++ [((t, id), slot)] }).keyTo slot .prepared

/-- CIPHER_BIND. A rebind cannot be met at or after the passage's stop chamber. -/
def State.cmdCipherBind (s : State) (q : Request) : State :=
  let id := q.u 0 2
  let slot := q.u 2 2
  let paired := bitAt (q.u 4 1) 0
  let k := s.keySlot slot
  let p? := tget s.pas id
  let p := p?.getD { owner := 0, slots := 0, ing := {}, eg := {}, mode := 0, skew := 0, trail := 0, start := 0, terms := [], plane := [], base := 0 }
  let fresh := p?.isNone
  let pn := if paired then some p.cipherEngine else none
  let cc := if q.ch 8 = 0 then s.earliest paired else q.ch 8
  let bad := s.commitBad cc pn
  let late := match p.stop with | some cs => chReached cc cs | none => false
  let ready := if !s.tim.joined then some 1
    else if fresh then none
    else match bad with
      | some (.notReady, r) => some (if r = 4 then 4 else 3)
      | _ => if late then some 3 else none
  s.serve 0x0403 q 16 (q.len == 16)
    [.lit [unitKeyStore],
     .bad (decide (id > 4095) || decide (slot > 1023) || q.u 4 1 > 1 || !(q.rsv 5 1) || (!paired && !(q.rsv 6 2)) || !(q.rsv 14 2)) .badParam 0,
     s.transportRule q, s.anyTenant q, .bad (s.foreignKey q.tenant slot || (!fresh && p.owner != q.tenant)) .notOwner 0,
     .bad (k.st == .empty) .badParam 4, .bad (k.usage == 2 || (!fresh && p.mode == 0)) .badParam 3,
     .bad (fresh && (paired || q.ch 8 != 0)) .badParam 0, .bad ready.isSome .notReady (ready.getD 0), .bad (k.st != .loaded) .notIdle 1,
     .bad (!fresh && (s.cipPas id).rebind.isSome) .notIdle 2, .bad (!fresh && bad.isSome) .noResource 3]
    fun s =>
      if fresh then (s.prepare q.tenant id slot, some (le 1 0 ++ le 1 0 ++ le 1 1 ++ zeros 1 ++ le 2 0xFFFF ++ zeros 2 ++ le 8 0))
      else
        let pc := if paired then some { engine := p.cipherEngine, farNode := q.u 6 2, since := s.chamber : Paired } else none
        let s := (s.keyTo slot .bound).modCipPas id fun r => { r with rebind := some (slot, cc) }
        let s := s.schedule cc pc [] [.rebind id slot]
        (s, some (le 1 0 ++ le 1 0 ++ le 1 2 ++ zeros 1 ++ le 2 (p.key.getD 0) ++ zeros 2 ++ le 8 cc))

/-- CIPHER_UNBIND. The encrypted passage of an ID is reported before the binding that it used up. -/
def State.cmdCipherUnbind (s : State) (q : Request) : State :=
  let id := q.u 0 2
  let enc := match tget s.pas id with | some p => if p.mode = 0 then none else some p.owner | none => none
  let slot := s.prepared q.tenant id
  s.serve 0x0404 q 4 (q.len == 4)
    [.lit [unitKeyStore], .bad (decide (id > 4095) || !(q.rsv 2 2)) .badParam 0, s.transportRule q, s.anyTenant q,
     .bad (match enc with | some t => t != q.tenant | none => false) .notOwner 0, .bad enc.isSome .notIdle 2,
     .bad slot.isNone .badParam 3]
    fun s =>
      let s := s.modCip fun c => { c with prepared := c.prepared.filter fun e => e.1 != (q.tenant, id) }
      (s.keyTo (slot.getD 0) .loaded, some okay4)

/-! KEK_ROTATE (R374 to R377). -/

/-- The storage key of a tenant as bytes. -/
def storageBytes (t : Nat) : List Byte := be 32 (Config.storageKey t).toNat

/-- The blob of a KEK (R374). -/
def kekBlob (t : Nat) (k : Kek) : List Byte := [0xB1] ++ le 1 t ++ zeros 2 ++ le 4 k.gen ++ keyWrap (storageBytes t) k.key ++ zeros 16

/-- Open a blob for a tenant (R374, R377). -/
def openBlob (t : Nat) (b : List Byte) : Option Kek :=
  if fld b 0 1 ≠ 0xB1 ∨ fld b 1 1 ≠ t ∨ !(zeroAt b 2 2) ∨ !(zeroAt b 48 16) then none
  else (keyUnwrap (storageBytes t) ((b.drop 8).take 40)).map fun k => { gen := fld b 4 4, key := k }

/-- Install a KEK. -/
def State.setKek (s : State) (t : Nat) (k : Kek) : State := s.modCip fun c => { c with keks := tput c.keks t k }

/-- KEK_ROTATE. A new KEK is in force from acceptance; its job then ends the old one (R377). -/
def State.cmdKekRotate (s : State) (q : Request) : State :=
  let act := q.u 0 1
  let gen := q.u 4 4
  let m := q.payload.drop 8
  let t := q.tenant
  let kek := tget s.cip.keks t
  let used := match act with | 1 => 32 | 2 => 40 | 3 => 64 | _ => 0
  let unwrapped := match kek with | some k => keyUnwrap k.key (m.take 40) | none => none
  let blob := openBlob t m
  let overSpi := match q.via with | .spi => true | _ => false
  let first : List Check :=
    [.lit [unitKeyStore],
     .bad (act < 1 || act > 5 || !(q.rsv 1 3) || (act > 2 && gen != 0) || !(zeroAt m used (64 - used))) .badParam 0,
     s.transportRule q, .bad (act == 1 && !overSpi) .notPermitted 0, s.anyTenant q,
     .bad (act == 2 && (match kek with | some k => decide (gen ≤ k.gen) | none => false)) .badParam 0]
  let failed := act == 2 && kek.isSome && unwrapped.isNone
  let s := if s.reaches 0x0405 q (q.len == 72) first && failed then s.unwrapFail 0xFFFF t 0 ((kek.map fun k => k.gen).getD 0) else s
  s.serve 0x0405 q (if act = 4 then 72 else 8) (q.len == 72)
    (first ++
      [.bad (failed || (act == 3 && blob.isNone)) .badParam 1, .bad ((act == 2 || act == 4) && kek.isNone) .notReady 2,
       .bad (act == 1 && kek.isSome) .notIdle 3, .bad (act ≤ 2 && s.jobsFull t) .noResource 0])
    fun s =>
      match act with
      | 1 | 2 =>
        let k : Kek := { gen := gen, key := if act = 1 then m.take 32 else unwrapped.getD [] }
        let r := (s.setKek t k).startJob t 0x0405 (.kek act t (le 4 gen))
        (r.1, some (jobStarted r.2))
      | 3 => match blob with
        | some k => (s.setKek t k, some (okay4 ++ le 4 k.gen))
        | none => (s, none)
      | 4 => match kek with
        | some k => (s, some (okay4 ++ le 4 k.gen ++ kekBlob t k))
        | none => (s, none)
      | _ => (s.modCip fun c => { c with keks := tdel c.keks t }, some (okay4 ++ le 4 0))

/-- The end of a KEK job (R377). -/
def State.kekDone (s : State) (t : Nat) (gen : List Byte) : State := s.raise islFab .kekChanged 0xFFFF (le 1 t ++ gen)

/-! Compare pairs and lanes (R357, R361, R362). -/

/-- A compare pair: pairs 0 to 31 serve after reset, 32 and 33 are spares. -/
def State.pair (s : State) (k : Nat) : Pair := tgetD s.cip.pairs k { st := if k < 32 then 0 else 1 }

/-- A lane: lane L is served by pair L after reset. -/
def State.lane (s : State) (l : Nat) : Lane := tgetD s.cip.lanes l { pair := some l }

/-- Change a pair. -/
def State.modPair (s : State) (k : Nat) (f : Pair → Pair) : State := s.modCip fun c => { c with pairs := tput c.pairs k (f (s.pair k)) }

/-- Change a lane. -/
def State.modLane (s : State) (l : Nat) (f : Lane → Lane) : State := s.modCip fun c => { c with lanes := tput c.lanes l (f (s.lane l)) }

/-- Passage counters of the cipher (Table 10.6): SEGMENTS 0, TAG_FAILS 1, MISMATCH_CHAMBERS 2, ERROR_BLOCKS 3, PACKETS_ENDED 4. -/
def State.cipCount (s : State) (id k n : Nat) : State := s.bump unitKeyStore id k n

/-- Blocks from position `k` on become error control blocks. -/
def errorFrom (k : Nat) (bs : List (Block × Option QBlock)) : List (Block × Option QBlock) :=
  bs.take k ++ (bs.drop k).map fun x => (Block.error, x.2)

/-- The lanes that compute a passage's segments (R358). A raw CIPHER step names no carrier and no slot, so it has no blocks (assumption
81). -/
def State.segmentLanes (s : State) (id : Nat) : List Nat :=
  ((cipherUnits (s.bank islFab)).filter fun x => wPassage x.1 == id && !(wRaw x.1)).flatMap lanesOf

/-- A lane's segment of chamber `c` of another passage, computed before the mismatch: its blocks that have not left go as error control
blocks and it loses its tag entry (R363, R364); at the decrypting end it fails its tag, and in CIPHER_MODE 2 its blocks still in the
device go as error control blocks where a word differed (R365, R366). In CIPHER_MODE 1 it was not released, so it leaves SEGMENTS. -/
def State.withdraw (s : State) (id c : Nat) (inTag : Bool) : State :=
  match tget s.pas id with
  | none => s
  | some p =>
    if !p.decrypts then
      if !(p.segTags.any fun x => x.1 == c) then s
      else
        let s := s.modPas id fun p => { p with sealed := errorFrom 0 p.sealed, segTags := p.segTags.filter fun x => x.1 != c }
        let s := (s.cipCount id 2 1).cipCount id 3 p.sealed.length
        if p.mode = 1 then s.cipCount id 0 (2 ^ 64 - 1) else s
    else if !((s.cipPas id).segs.any fun g => g.ch == c && !g.bad) then s
    else
      let s := s.cipCount id 2 1
      if p.mode = 1 || inTag then s.modCipPas id fun r => { r with segs := r.segs.map fun g => if g.ch = c then { g with bad := true } else g }
      else
        let mine := fun (q : QBlock) => q.tag == c
        (s.modPas id fun p => { p with opened := p.opened.map fun q => if mine q then { q with b := Block.error } else q }).cipCount id 3
          (p.opened.filter mine).length

/-- A compare mismatch on a lane in the segment of chamber `c` (R361, R362): the lane's segments of `c` that were already computed are
withdrawn too. -/
def State.mismatch (s : State) (l c : Nat) (inTag : Bool) : State :=
  match (s.lane l).pair with
  | none => s
  | some k =>
    let s : State := ((tkeys s.pas).filter fun id => (s.segmentLanes id).contains l).foldl (fun (s : State) id => s.withdraw id c inTag) s
    let s := (s.modPair k fun p => { p with st := 2, mism := p.mism + 1 }).modLane l fun x => { x with badCh := some c }
    let s := (s.raise islFab .cipherCompareMismatch k (le 1 l ++ le 6 c ++ le 1 (if inTag then 2 else 1))).declareFault 4 false
    match (List.range 34).find? fun j => (s.pair j).st == 1 with
    | some j => (s.modPair j fun p => { p with st := 0 }).modLane l fun x => { x with pair := some j, start := none }
    | none =>
      let s := s.modLane l fun x => { x with pair := none }
      (s.modCip fun c => { c with waiting := c.waiting ++ [l] }).raise islFab .cipherNoSpare k (le 1 l)

/-- CIPHER_PAIR_SELFTEST_DONE: a retired pair passes, or fails at a step (R362). A lane that found no spare takes the pair at the
next chamber boundary. -/
def State.pairSelftestDone (s : State) (k : Nat) (failed : Option Nat) : State :=
  if (s.pair k).st ≠ 2 then s
  else match failed with
    | some step =>
      ((s.modLife fun l => { l with pairFail := l.pairFail + 1 }).modPair k fun p => { p with st := 3 }).raise
        islFab .cipherPairFailed k (le 1 step)
    | none =>
      let s := (s.modPair k fun p => { p with st := 1 }).raise islFab .cipherPairReturned k []
      match s.cip.waiting with
      | [] => s
      | l :: rest =>
        let s := (s.modPair k fun p => { p with st := 0 }).modLane l fun x => { x with pair := some k, start := some (chAdd s.chamber 1) }
        s.modCip fun c => { c with waiting := rest }

/-! Segments (R349 to R353, R360 to R364). -/

/-- The bytes of a block that the cipher conceals: the 8 of a data block, the 7 behind the type of a control block (R351). -/
def contentOf (b : Block) : List Byte := (le 8 b.w.toNat).drop (if b.isData then 0 else 1)

/-- A block with other bytes in the places of its content. -/
def withContent (b : Block) (l : List Byte) : Block :=
  { b with w := BitVec.ofNat 64 (if b.isData then fld l 0 8 else b.type + 256 * fld l 0 7) }

/-- The type byte of a block in the additional authenticated data (R351). -/
def typeByte (b : Block) : Byte := BitVec.ofNat 8 (if b.isData then 0 else b.type)

/-- Put a text back into the places of the blocks' contents. -/
def refill : List Block → List Byte → List Block
  | [], _ => []
  | b :: bs, t => withContent b (t.take (contentOf b).length) :: refill bs (t.drop (contentOf b).length)

/-- The endpoint whose engine carries a passage's segments: the selected leg at the decrypting device (R349). -/
def Passage.cipherLeg (p : Passage) : Endpoint := if p.decrypts then p.activeLeg else p.eg

/-- The IV of the segment for chamber `c` (R352), big-endian (R353). -/
def State.segmentIv (s : State) (p : Passage) (c : Nat) : Nat :=
  let node := if p.decrypts then (s.eng p.cipherLeg.index).rx.farNode else s.node
  c % chamberMod * 2 ^ 48 + node % 65536 * 2 ^ 32 + p.trail % 65536 * 2 ^ 16

/-- The additional authenticated data (R351), big-endian (R353). -/
def segmentAad (p : Passage) (bs : List Block) : List Byte :=
  let e := p.cipherLeg
  le 1 (lowestBit e.sub) ++ zeros 1 ++ be 2 e.first ++ be 2 p.slots ++ be 2 p.trail ++ bs.map typeByte

/-- The key slot of the segment for chamber `c`: an old one that still serves it, or the passage's (R380, R381). -/
def State.segmentKey (s : State) (id : Nat) (p : Passage) (c : Nat) : KeySlot :=
  match (s.cipPas id).olds.find? fun o => chLater o.cc c with
  | some o => s.keySlot o.slot
  | none => s.keySlot (p.key.getD 0)

/-- Encrypt or decrypt the blocks of a segment: what comes out, and the tag. -/
def State.segmentOf (s : State) (id : Nat) (p : Passage) (c : Nat) (bs : List (Block × Option QBlock)) : Segment :=
  let k := s.segmentKey id p c
  let iv := s.segmentIv p c
  let blocks := bs.map Prod.fst
  let text := blocks.flatMap contentOf
  let other := gcmText k.key iv text
  { ch := c, out := (refill blocks other).zip (bs.map Prod.snd)
    tag := gcmTag k.key k.subkey iv (segmentAad p blocks) (if p.decrypts then text else other) }

/-- Take `n` blocks out of the passage buffers for a segment; a block that is not there is a local-fault ordered set (R54). -/
def State.pull : Nat → State → Nat → List (Block × Option QBlock) × State
  | 0, s, _ => ([], s)
  | n + 1, s, id => match s.supply id with
    | (s, x) =>
      let r := State.pull n s id
      (x.getD (Block.localFault, none) :: r.1, r.2)

/-- Is the first block of an encrypting passage due: a passage that has not begun to send has no segment? -/
def State.segmentDue (s : State) (id : Nat) : Bool := (s.supply id).2.isSome

/-- The blocks of an encrypting passage's segment: 100 for each slot, a control block with no place in Table 5.3 replaced and counted
(R183, R350, R351). -/
def State.segmentIn (s : State) (id : Nat) (p : Passage) : List (Block × Option QBlock) × State :=
  let x := State.pull (100 * p.slots) s id
  let n := (x.1.filter fun b => b.1.replaced).length
  (x.1.map fun b => (b.1.carried, b.2), if n = 0 then x.2 else x.2.bump (engUnit p.eg.index 3) 0 3 n)

/-- The blocks of the frame of chamber `c` that wait on the selected leg of a decrypting passage; those of the other leg up to the same
chamber go with them (R349, R350). -/
def State.segmentFrom (s : State) (id c : Nat) (p : Passage) : List (Block × Option QBlock) × State :=
  let prot := p.selects && p.legLive && p.onProt
  let sel := if prot then p.secretP else p.secret
  let later := fun (q : QBlock) => chLater q.tag c
  ((sel.filter fun q => q.tag == c).map fun q => (q.b, some q),
   s.modPas id fun p => { p with secret := p.secret.filter later, secretP := p.secretP.filter later })

/-- Decrypted blocks are free to leave. -/
def State.deliver (s : State) (id : Nat) (g : Segment) : State :=
  s.modPas id fun p => { p with opened := p.opened ++ g.out.filterMap fun x => x.2.map fun q => { q with b := x.1 } }

/-- A segment leaves the compare pair: to the line framer, to the passage's egress, or into the segment buffers until its tag has been
checked (R363 to R366). -/
def State.passSegment (s : State) (id : Nat) (p : Passage) (g : Segment) : State :=
  if !p.decrypts then (s.modPas id fun p => { p with sealed := g.out }).modCipPas id fun r => { r with sentCh := some g.ch }
  else
    let s := s.modCipPas id fun r => { r with segs := (g :: r.segs).take 4 }
    if p.mode = 1 then s else s.deliver id g

/-- CIPHER_SEGMENT: the segment of an encrypted passage for chamber `c`, with a compare mismatch if its pair found one. `c` is the
current chamber at the encrypting device, which seals one segment in a chamber, and the CHAMBER of the frame at the decrypting one
(R350). A returned pair serves its lane from a boundary of this device's chambers on (R362). -/
def State.cipherSegment (s : State) (id c : Nat) (fault : Option SegFault) : State :=
  match tget s.pas id with
  | none => s
  | some p =>
    if p.mode = 0 || p.st = 1 || (s.dark unitKeyStore).isSome || (!p.decrypts && (c != s.chamber || (s.cipPas id).sentCh == some c || !(s.segmentDue id))) then s
    else
      let x := if p.decrypts then s.segmentFrom id c p else s.segmentIn id p
      if x.1.isEmpty then s
      else
        let lanes := s.segmentLanes id
        let s := match fault with
          | some f => if lanes.contains f.lane then x.2.mismatch f.lane c f.inTag else x.2
          | none => x.2
        let hit := lanes.any fun l => (s.lane l).badCh == some c
        let unserved := !hit && lanes.any fun l =>
          (s.lane l).pair.isNone || (match (s.lane l).start with | some k => chLater k s.chamber | none => false)
        let seg := s.segmentOf id p c x.1
        let n := seg.out.length
        let inTag := match fault with | some f => f.inTag | none => false
        let cut := match fault with | some f => if f.inTag then n else min f.released n | none => 0
        let s := if hit then s.cipCount id 2 1 else s
        if !hit && !unserved then
          let s := s.passSegment id p seg
          if !p.decrypts then (s.modPas id fun p => { p with segTags := ((c, seg.tag) :: p.segTags).take 4 }).cipCount id 0 1
          else if p.mode = 2 then s.cipCount id 0 1
          else s
        else
          -- at the encrypting end a mismatch or a lane without a pair costs the tag entry; mode 2 has released what came before
          let keep := if unserved || p.mode = 1 then 0 else cut
          let held := p.decrypts && p.mode = 1
          let s := s.passSegment id p { seg with out := if held then seg.out else errorFrom keep seg.out, bad := unserved || p.mode = 1 || inTag }
          let s := if held then s else s.cipCount id 3 (n - keep)
          if p.mode = 2 && hit then s.cipCount id 0 1 else s

/-! Tags (R365 to R367, R381). -/

/-- Why a segment fails its tag: 1 the tag differs, 2 no valid entry, 3 uncorrectable, 4 mismatch (Table 10.7). -/
def tagFault (seg : Segment) : TagSeen → Option Nat
  | .noEntry => some 2
  | .uncorrectable => some 3
  | .entry t => if seg.bad then some 4 else if t ≠ seg.tag then some 1 else none

/-- The tag entry of a passage for chamber `c`, as frame c + 1 of its engine brought it (R178); none while that frame is still to come.
Where the engine received a later frame and not that one, no entry matches (DESIGN CHOICE, assumption 79). -/
def State.tagOf (s : State) (p : Passage) (c : Nat) : Option TagSeen :=
  let e := p.cipherLeg
  let r := (s.eng e.index).rx
  if r.bitsCh = chAdd c 1 then
    some ((s.eng e.index).cfg.tagIn (r.profOf (chAdd c 1)) r.bits r.lostBits (lowestBit e.sub) e.first)
  else if chLater r.bitsCh (chAdd c 1) then some .noEntry else none

/-- CIPHER_TAG_CHECK: the tag of the segment for chamber `c` arrives at the decrypting device. -/
def State.cipherTagCheck (s : State) (id c : Nat) : State :=
  match tget s.pas id with
  | none => s
  | some p =>
    match (s.cipPas id).segs.find? fun g => g.ch == c, s.tagOf p c with
    | some seg, some seen =>
      if !p.decrypts then s
      else
        let s := s.modCipPas id fun r => { r with
          segs := r.segs.filter fun g => g.ch != c
          olds := r.olds.map fun o => if o.decrypts && chSub o.cc 1 == c then { o with checked := true } else o }
        match tagFault seg seen with
        | none =>
          let s := s.modPas id fun p => { p with tagFail := false }
          if p.mode = 1 then (s.deliver id seg).cipCount id 0 1 else s
        | some cause =>
          let s := s.modPas id fun p => { p with tagFail := true, endNext := p.endNext || (p.mode == 2 && p.inPacket) }
          let s := s.cipCount id 1 1
          let s :=
            if p.mode = 1 then (s.deliver id { seg with out := errorFrom 0 seg.out }).cipCount id 3 seg.out.length
            else if p.inPacket then s.cipCount id 4 1 else s
          s.raise islFab .cipherTagFail id (le 6 c ++ le 1 cause)
    | _, _ => s

/-! Keys over time (R356, R380, R381). -/

/-- KEY_SLOT_RELEASE: at the first boundary of Cc + 1 the old slot of an encrypting rebind is LOADED (R380). -/
def State.keySlotRelease (s : State) (id : Nat) : State :=
  let done := fun (o : OldKey) => !o.decrypts && chReached s.chamber (chAdd o.cc 1)
  let r := s.cipPas id
  let s : State := (r.olds.filter done).foldl (fun (s : State) o => s.keyTo o.slot .loaded) s
  if r.olds.any done then s.modCipPas id fun r => { r with olds := r.olds.filter fun o => !(done o) } else s

/-- CIPHER_REKEYED: at the decrypting device the old slot is LOADED after the last old tag or 4 096 chambers (R381). -/
def State.cipherRekeyed (s : State) (id : Nat) : State :=
  let done := fun (o : OldKey) => o.decrypts && (o.checked || chReached s.chamber (chAdd o.cc 4096))
  let r := s.cipPas id
  let s : State := (r.olds.filter done).foldl
    (fun (s : State) o => (s.keyTo o.slot .loaded).raise islFab .cipherRekeyed id (le 2 o.slot ++ le 2 o.next)) s
  if r.olds.any done then s.modCipPas id fun r => { r with olds := r.olds.filter fun o => !(done o) } else s

/-- CIPHER_KEY_AGE: a binding has been in effect for 2^46 chambers (R356). -/
def State.cipherKeyAge (s : State) (id : Nat) : State :=
  match tget s.pas id with
  | none => s
  | some p =>
    let r := s.cipPas id
    let k := p.key.getD 0
    if p.mode = 0 || p.st = 1 || r.aged || decide (chAhead s.chamber (r.since.getD p.start) < 2 ^ 46) then s
    else (s.modCipPas id fun r => { r with aged := true }).raise islFab .cipherKeyAge id (le 2 k ++ le 4 (s.keySlot k).keyId)

end Sys2Proof.Machine
end

