-- ==== Sys2Proof/Machine/HkFir.lean ====
section
/-!
DEFINITION. The decimation filter of R659: a sinc under a Kaiser window with beta 6, in fixed point with 24 decimals. The taps are
normalised to unit gain at DC by the division of the output.
-/
namespace Sys2Proof.Machine

/-- One, in fixed point. -/
def fx : Int := 10 ^ 24

/-- Pi in fixed point. -/
def fxPi : Int := 3141592653589793238462643

/-- Product of two fixed-point numbers. -/
def fxMul (a b : Int) : Int := a * b / fx

/-- The rest of the Taylor series of the sine: from term `t` of order `k`, `n` terms more; `x2` is the square of the angle. -/
def sinRest (x2 : Int) : Nat → Int → Nat → Int
  | 0, _, _ => 0
  | n + 1, t, k => t + sinRest x2 n (-(fxMul t x2) / (((k + 1) * (k + 2) : Nat) : Int)) (k + 2)

/-- Sine of an angle between 0 and pi / 2. -/
def fxSin (x : Int) : Int := sinRest (fxMul x x) 16 x 1

/-- Sine of `p` turns of `q`, `q` a multiple of 4. -/
def sinTurn (p q : Nat) : Int :=
  let p := p % q
  let neg := decide (2 * p > q)
  let p := if neg then q - p else p
  let p := if 4 * p > q then q / 2 - p else p
  let v := fxSin (2 * fxPi * (p : Int) / (q : Int))
  if neg then -v else v

/-- The power series of the modified Bessel function I0, whose argument squared is `4 * t`: term `u` of order `k`, `n` terms more. -/
def besselRest (t : Int) : Nat → Int → Nat → Int
  | 0, _, _ => 0
  | n + 1, u, k => u + besselRest t n (fxMul u t / (((k + 1) * (k + 1) : Nat) : Int)) (k + 1)

/-- The Kaiser window with beta 6 at `m` of a half length `h`, times I0(6). -/
def kaiser (m h : Nat) : Int := besselRest (9 * fx * (((h * h - m * m : Nat)) : Int) / ((h * h : Nat) : Int)) 40 fx 0

/-- The tap at distance `m` from the centre, for decimation `d` and SHAPE, times a constant. -/
def filterTap (d shape m : Nat) : Int :=
  let sinc := if m = 0 then fxPi * (shape : Int) / ((4 * d : Nat) : Int) else sinTurn (shape * m) (8 * d) / (m : Int)
  fxMul sinc (kaiser m (4 * d))

/-- The `8 * d + 1` taps. -/
def filterTaps (d shape : Nat) : List Int :=
  (List.range (8 * d + 1)).map fun k => filterTap d shape (if k ≤ 4 * d then 4 * d - k else k - 4 * d)

/-- A quotient that is not a whole number is rounded down, or up when `up`: no rule says which. The result keeps 16 bits. -/
def roundOpen (up : Bool) (a b : Int) : Nat := min 65535 (a / b + (if up && a % b != 0 then 1 else 0)).toNat

/-- The exact output of a filter over 12-bit codes, times 16, as numerator and denominator. -/
def filterSum (d shape : Nat) (codes : List Nat) : Int × Int :=
  let taps := filterTaps d shape
  (((taps.zip codes).map fun e => e.1 * ((16 * e.2 : Nat) : Int)).foldl (· + ·) 0, taps.foldl (· + ·) 0)

/-- The output of a filter. -/
def filterOut (up : Bool) (d shape : Nat) (codes : List Nat) : Nat :=
  let r := filterSum d shape codes
  roundOpen up r.1 r.2

end Sys2Proof.Machine
end

