-- ==== Sys2Proof/Machine/Life.lean ====
section
/-!
DEFINITION. The life record (R531 to R534).
-/
namespace Sys2Proof.Machine

/-- Clamp a signed value to 16 bits. -/
def clamp16 (x : Int) : Int := max (-32768) (min 32767 x)

/-- The 252 bytes of Table 14.7 before the CRC. -/
def Life.body (l : Life) : List Byte :=
  [0xA7, 0x01, 0, 0] ++ le 4 l.seq ++ le 4 (satN 4 l.powerOnMin) ++ le 4 (satN 4 l.powerCycles) ++
    (List.range 8).flatMap (fun n => le 4 (satN 4 (tgetD l.litMin n 0))) ++
    (List.range 8).flatMap (fun n => le 4 (satN 4 (tgetD l.laserMin n 0))) ++
    le 4 (satN 4 l.thermCycles) ++ leS 2 (clamp16 l.tempMax) ++ zeros 2 ++
    (List.range 15).flatMap (fun i => leS 2 (clamp16 (tgetD l.aging i 0))) ++ zeros 2 ++
    (List.range 8).flatMap (fun n => le 4 (satN 4 (tgetD l.calRuns n 0))) ++
    le 4 (satN 4 l.wrLife) ++ le 4 (satN 4 l.wrCal) ++ le 4 (satN 4 l.wrRepair) ++ le 4 (satN 4 l.wrOsc) ++
    le 2 (satN 2 l.liveRep) ++ le 2 (satN 2 l.deferRep) ++ le 2 (satN 2 l.pagesRet) ++ le 2 (satN 2 l.sliceFail) ++
    le 2 (satN 2 l.pairFail) ++ zeros 6 ++ le 8 l.lastTai ++ zeros 60

/-- A life-record slot: the body and its CRC (Table 14.7). -/
def Life.bytes (l : Life) : List Byte := l.body ++ le 4 (crc32c l.body)

/-- Write the live record into the next slot (R533); a slot that fails its verify raises LIFE_SLOT_FAIL and the record goes into
the following one, a second write. SECONDS is written once domain time has been set since power-up. -/
def State.lifeWrite (s : State) (ok : Bool) : State :=
  let s := s.modLife fun l => { l with wrLife := l.wrLife + (if ok then 1 else 2), lastTai := if s.timeWasSet then s.sec else 0 }
  let l := { s.log.life with seq := s.log.life.seq + 1 }
  let put := fun (s : State) (slot : Nat) =>
    let s := s.mtpBegin 0 slot 4
    { s with log := { s.log with
      life := l, lifeSlots := tput s.log.lifeSlots slot l, lifeNext := (slot + 1) % 64, lifeTenMin := l.powerOnMin } }
  if ok then put s s.log.lifeNext
  else
    let s := s.raise islLamp .lifeSlotFail 0xFFFF (le 1 s.log.lifeNext ++ le 4 l.seq)
    let s := { s with log := { s.log with lifeSlots := tdel s.log.lifeSlots s.log.lifeNext } }
    put s ((s.log.lifeNext + 1) % 64)

/-- After each 10 minutes of POWER_ON_MIN the record is written (R533). -/
def State.lifeRecordWrite (s : State) (ok : Bool) : State :=
  if s.log.life.powerOnMin ≥ s.log.lifeTenMin + 10 then s.lifeWrite ok else s

/-- The slot that holds the valid record of the highest SEQ. -/
def Log.bestSlot (l : Log) : Option (Nat × Life) :=
  l.lifeSlots.foldl (fun best kr => match best with
    | none => some kr
    | some b => if kr.2.seq > b.2.seq then some kr else some b) none

/-- At power-up the device takes the valid slot with the highest SEQ and writes next into the slot after it (R533). -/
def Log.lifeLoad (l : Log) : Log :=
  match l.bestSlot with
  | some (k, r) => { l with life := r, lifeNext := (k + 1) % 64, lifeTenMin := r.powerOnMin }
  | none => { l with life := {}, lifeNext := 0, lifeTenMin := 0 }

/-- LIFE_READ (R534): the bytes of a slot that holds no valid record are free (assumption 3). -/
def State.cmdLifeRead (s : State) (q : Request) : State :=
  let slot := q.u 0 1
  s.serve 0x0704 q 264 (q.len == 4)
    [.bad (!(decide (slot < 64) || slot == 0xFF) || !(q.rsv 1 3)) .badParam 0, s.anyTenant q]
    fun s =>
      if slot = 0xFF then
        (s, some (le 1 0 ++ le 1 0 ++ le 1 1 ++ le 1 s.log.lifeNext ++ zeros 4 ++
          { s.log.life with seq := s.log.life.seq + 1 }.bytes))
      else match tget s.log.lifeSlots slot with
        | some l => (s, some (le 1 0 ++ le 1 0 ++ le 1 1 ++ le 1 slot ++ zeros 4 ++ l.bytes))
        | none =>
          let (b, s) := s.freeBytes 256
          (s, some (le 1 0 ++ le 1 0 ++ le 1 0 ++ le 1 slot ++ zeros 4 ++ b))

/-- One 1 s mean of the hottest of the 12 die sensors: TEMP_MAX and the thermal cycles (R532). -/
def State.thermalMean (s : State) (t : Int) : State :=
  let s := s.modLife fun l => { l with tempMax := max l.tempMax t }
  let l := { s.log with tempMean := some t }
  let l := match l.thermPeak with
    | none => { l with thermPeak := some t, thermLow := none }
    | some p =>
      match l.thermLow with
      | none => if t > p then { l with thermPeak := some t }
                else if t ≤ p - 200 then { l with thermLow := some t } else l
      | some lo =>
        if t < lo then { l with thermLow := some t }
        else if t ≥ lo + 200 then
          { l with thermPeak := some t, thermLow := none, life := { l.life with thermCycles := l.life.thermCycles + 1 } }
        else l
  { s with log := l }

end Sys2Proof.Machine
end

