-- ==== Sys2Proof/Machine/HostPorts.lean ====
section
/-!
DEFINITION. Host ports, board tables and FlexE (04_host_ports.md).
-/
namespace Sys2Proof.Machine

/-- Change the host side. -/
def State.modHost (s : State) (f : HostSide → HostSide) : State := { s with host := f s.host }

/-- Change a configured port. -/
def State.modPort (s : State) (lane : Nat) (f : HostPort → HostPort) : State := s.modHost fun h => { h with ports := tmod h.ports lane f }

/-! Lanes and their equalisation (R157 to R159, R640, R641). Lanes 0 to 127 are host lanes, 128 + i is Umran lane i. -/

/-- The table entry of a lane at a rate, if there is one. -/
def State.tableEntry (s : State) (lane rate : Nat) : Option LaneEq :=
  if lane < 128 then tget s.host.table (4 * lane + rate) else tget s.host.ulTable (4 * (lane - 128) + 2)

/-- The values a lane uses: its entry, or the defaults of R157. An Umran lane never adapts (R641). -/
def State.laneEq (s : State) (lane rate : Nat) : LaneEq :=
  let e := (s.tableEntry lane rate).getD {}
  if lane < 128 then e else { e with fixed := true }

/-- A lane starts an acquisition from the table (R135, R158, R159). -/
def State.laneStart (s : State) (lane rate : Nat) : State :=
  let e := s.laneEq lane rate
  s.modHost fun h => { h with lanes := tput h.lanes lane { tx := e, ctle := e.ctleStart, gain := e.gainStart } }

/-- Lanes of a run that use defaults, as a mask. -/
def State.defaultMask (s : State) (first count rate : Nat) : Nat :=
  ofBits ((List.range count).map fun i => (s.tableEntry (first + i) rate).isNone)

/-- One step of a value stepTo a target. -/
def stepTo (x target : Int) : Int := if x < target then x + 1 else if target < x then x - 1 else x

/-- One step of a value into a range. -/
def intoRange (x lo hi : Int) : Int := if x < lo then x + 1 else if hi < x then x - 1 else x

/-- The rate of a running lane. -/
def State.laneRate (s : State) (lane : Nat) : Nat :=
  if lane < 128 then ((s.portOf lane).map fun x => x.2.rate).getD 2 else 2

/-- The background adaptation of a lane's receive values for one millisecond (R158, R159): the FFE and DFE taps move by at most one
sixty-fourth, the peaking code by at most one in 100 ms, toward what adaptation asks for and within the bounds; a value outside its bound
moves toward it by one. Initial adaptation of a port that is not up moves them at once. -/
def LaneRun.adapt (r : LaneRun) (e : LaneEq) (up : Bool) (mono : Nat) (ctle ffe dfe : Int) : LaneRun :=
  let goal := fun (x lo hi : Int) => max lo (min hi x)
  let step := fun (x want lo hi : Int) => if up then (if x < lo ∨ hi < x then intoRange x lo hi else stepTo x (goal want lo hi)) else goal want lo hi
  let outside := decide (r.ctle < e.ctleMin) || decide (e.ctleMax < r.ctle)
  let slow := up && !outside && decide (mono < r.ctleAt + 100 * msQ)
  let c := if slow then r.ctle else (step r.ctle ctle e.ctleMin e.ctleMax).toNat
  { r with
    ctle := c, ctleAt := if c = r.ctle then r.ctleAt else mono
    ffe := step r.ffe ffe (-(e.ffeBound : Int)) e.ffeBound, dfe := step r.dfe dfe (-(e.dfeMax : Int)) e.dfeMax }

/-- The values of a lane that stand at their bounds: 1 peaking, 2 FFE, 3 DFE. -/
def LaneRun.atBounds (r : LaneRun) (e : LaneEq) : List Nat :=
  (if r.ctle ≤ e.ctleMin ∨ e.ctleMax ≤ r.ctle then [1] else []) ++ (if e.ffeBound ≤ r.ffe.natAbs then [2] else []) ++
    (if e.dfeMax ≤ r.dfe.natAbs then [3] else [])

/-- Note since when values stand at their bounds; a value that left its bound may be reported again (R159). -/
def LaneRun.noteBounds (r : LaneRun) (e : LaneEq) (mono : Nat) : LaneRun :=
  let now := r.atBounds e
  { r with bound := now.map fun k => (k, (tget r.bound k).getD mono), limits := r.limits.filter fun k => now.contains k }

/-- One millisecond of the transmit settings of a lane toward a table that was loaded with APPLY_LIVE: each tap by one sixty-fourth, MAIN
so that R154 holds, SWING by 10 mV (R158). -/
def LaneEq.towards (t e : LaneEq) : LaneEq :=
  let a := stepTo t.pre3 e.pre3
  let b := stepTo t.pre2 e.pre2
  let c := stepTo t.pre1 e.pre1
  let d := stepTo t.post1 e.post1
  { t with
    pre3 := a, pre2 := b, pre1 := c, post1 := d, main := 64 - (a.natAbs + b.natAbs + c.natAbs + d.natAbs : Nat)
    swing := (stepTo t.swing e.swing).toNat }

/-- Is the port of a host lane up? -/
def State.laneUp (s : State) (lane : Nat) : Bool := match s.portOf lane with | some x => x.2.up | none => false

/-- A lane that adapts has its clock recovered; once all lanes of a port that is not up have adapted, the third step of Table 4.3 is met. -/
def State.adaptStep (s : State) (lane : Nat) : State :=
  match s.portOf lane with
  | none => s
  | some (first, p) =>
    let all := (List.range p.count).all fun k => match tget s.host.lanes (first + k) with | some r => r.adapted | none => false
    if p.up then s else s.modPort first fun p => { p with step := max p.step (if all then 3 else 2) }

/-- TX_TAP_STEP: one millisecond of a lane: live transmit settings move (R158), and receive values adapt toward `ctle`, `ffe` and `dfe`
unless the lane is fixed (R159, R641). -/
def State.txTapStep (s : State) (lane : Nat) (ctle ffe dfe : Int) : State :=
  match tget s.host.lanes lane with
  | none => s
  | some r =>
    let e := s.laneEq lane (s.laneRate lane)
    let r := if r.live then { r with tx := r.tx.towards e } else r
    let r := if e.fixed then r else (r.adapt e (s.laneUp lane) s.mono ctle ffe dfe).noteBounds e s.mono
    (s.modHost fun h => { h with lanes := tput h.lanes lane { r with adapted := true } }).adaptStep lane

/-- HOST_ADAPT_LIMIT: a receive value has stayed at its bound for 1 s (R159): 1 peaking, 2 FFE, 3 DFE. It is reported once until it
leaves the bound. -/
def State.hostAdaptLimit (s : State) (lane which : Nat) : State :=
  match tget s.host.lanes lane with
  | none => s
  | some r =>
    let long := match tget r.bound which with | some t => s.since t secQ | none => false
    if lane ≥ 128 || !long || r.limits.contains which then s
    else (s.modHost fun h => { h with lanes := tput h.lanes lane { r with limits := which :: r.limits } }).raise islHost .hostAdaptLimit lane
      (le 1 which)

/-! HOST_PORT_CONFIG (R129 to R133). -/

/-- The PHYs of a group, with those that a definition under way brings. -/
def FlexGroup.members (g : FlexGroup) : List Nat := g.phys ++ (match g.change with | some c => c.phys | none => [])

/-- Does a passage, a FlexE group or a HOST_SLOT step use a port (R132)? -/
def State.portUsed (s : State) (lane : Nat) : Bool :=
  ((tvals s.pas).any fun p => p.legs.any fun l => l.2.kind == 1 && l.2.index == lane) ||
  ((tvals s.host.groups).any fun g => g.members.contains lane) ||
  (((s.bank islHost).words ++ s.tab.commits.flatMap fun c => (tgetD (s.imageAt c.cc) islHost {}).words).any fun w =>
    wAction w == 0x30 && wop w 52 12 == 0x100 + lane)

/-- The state-dependent parameters of step 4 for ACTION 1 (R128, R131, R124). -/
def State.portBad (s : State) (lane phy rate : Nat) : Bool :=
  let n := phyLanes phy rate
  lane % n != 0 ||
  (s.host.ports.any fun e => e.1 != lane && decide (e.1 < lane + n) && decide (lane < e.1 + e.2.count)) ||
  (s.host.ports.any fun e => e.1 != lane && e.1 / 8 == lane / 8 && e.2.rate != rate)

/-- Remove a port: its lanes go to electrical idle. -/
def State.dropPort (s : State) (lane : Nat) : State :=
  match s.port lane with
  | none => s
  | some p => s.modHost fun h => { h with
      ports := tdel h.ports lane
      lanes := h.lanes.filter fun e => !(decide (lane ≤ e.1) && decide (e.1 < lane + p.count)) }

/-- HOST_PORT_CONFIG. -/
def State.cmdHostPortConfig (s : State) (q : Request) : State :=
  let lane := q.u 0 1
  let set := q.u 1 1 == 1
  let phy := q.u 2 1
  let rate := q.u 3 1
  let n := if set then (if phyOk phy rate then phyLanes phy rate else 1) else ((s.port lane).map fun p => p.count).getD 1
  let units := ((List.range n).map fun k => 0x0B00 + lane + k).filter fun u => u < 0x0B80
  let ranges := decide (lane > 127) || q.u 1 1 < 1 || q.u 1 1 > 2 ||
    q.u 5 1 > 7 || decide (q.u 6 1 ≥ 2 ^ n) || decide (q.u 7 1 ≥ 2 ^ n) ||
    (set && (!(phyOk phy rate) || q.u 4 1 < 1 || q.u 4 1 > 2 || q.u 8 4 < 1 || q.u 8 4 > 2 ^ 24 || decide (q.u 12 4 ≥ q.u 8 4) || q.u 16 4 < 8192 || q.u 16 4 > 2 ^ 24)) ||
    (!set && !(q.rsv 2 3))
  s.serve 0x0B01 q 4 (q.len == 20)
    [.lit units, onlyT0 q, .bad (set && (s.island islHost).belay) .notReady 0,
     .bad (ranges || (if set then s.portBad lane phy rate else (s.port lane).isNone)) .badParam 0,
     .bad ((s.port lane).isSome && s.portUsed lane) .notIdle 0]
    fun s =>
      let s := (s.dropPort lane).inputLost (64 + lane)
      if !set then (s, some okay4)
      else
        let p : HostPort :=
          { phy := phy, rate := rate, plain := q.u 4 1 == 1, flags := q.u 5 1, txInvert := q.u 6 1, rxInvert := q.u 7 1
            degSet := q.u 8 4, degClear := q.u 12 4, degWin := q.u 16 4, ref := s.mono }
        let s := s.modHost fun h => { h with ports := tput h.ports lane p }
        let s := (List.range n).foldl (fun s k => s.laneStart (lane + k) rate) s
        let mask := s.defaultMask lane n rate
        (if mask = 0 then s else s.raise islHost .hostTableDefault lane (le 1 mask), some okay4)

/-! Port acquisition and loss (R134, R135, R138, R139). -/

/-- Every lane of a port starts again from the table. -/
def State.portStart (s : State) (lane : Nat) : State :=
  match s.port lane with
  | some p => (List.range p.count).foldl (fun s k => s.laneStart (lane + k) p.rate) s
  | none => s

/-- The steps of Table 4.3 that a port has met while one with this cause is its first unmet one (R135, Table 4.10): signal and clock
recovery are the second step, markers, deskew and the error ratio the fourth. -/
def stepsMet (cause : Nat) : Nat := if cause ≤ 2 then 1 else 3

/-- Can the lanes of a port be put in order: their markers name each lane once, and the skew between them is at most 200 ns (R136)? -/
def HostPort.aligned (p : HostPort) (pcs : List (Nat × Nat)) : Bool :=
  pcs.length == p.count && ((List.range p.count).all fun l => (pcs.map Prod.fst).contains l) &&
    pcs.all fun a => pcs.all fun b => decide (a.2 ≤ b.2 + 2000)

/-- HOST_PORT_UP: a configured port whose lanes are in marker lock completes its acquisition once they are in order and deskewed; more skew
than 200 ns leaves deskew as its first unmet step (DESIGN CHOICE, assumption 86). -/
def State.hostPortUp (s : State) (lane : Nat) (pcs : List (Nat × Nat)) : State :=
  match s.port lane with
  | none => s
  | some p =>
    if p.up then s
    else if !(p.aligned pcs) then s.modPort lane fun p => { p with step := 3 }
    else
      let s := s.modPort lane fun p => { p with
        up := true, wasUp := true, step := 5, rxPcs := { order := pcs.map Prod.fst }, skews := pcs.map Prod.snd }
      (s.raise islHost .hostPortUp lane (le 4 (satN 4 ((s.mono - p.ref) / msQ)))).inputPresent (64 + lane)

/-- FLEXE_GROUP_DOWN: 1 PHY down, 2 overhead lock, 3 group number, 4 PHY map (R152), with the overhead CRC errors and the losses of
overhead lock that the instances met since, which count whether or not the group was up (R160). -/
def State.flexeGroupDown (s : State) (g cause crcErrors losses : Nat) : State :=
  match s.flexGroup g with
  | none => s
  | some x =>
    let s := (s.bump 0x0B81 g 0 crcErrors).bump 0x0B81 g 1 losses
    if !x.up then s
    else
      s.modHost (fun h => { h with groups := tmod h.groups g fun x => { x with up := false, downCause := cause } })
        |>.raise islHost .flexeGroupDown g (le 1 cause)

/-- A port that goes down takes its FlexE group down (R152). -/
def State.phyDown (s : State) (lane : Nat) : State :=
  match s.host.groups.find? fun e => e.2.phys.contains lane with
  | some e => s.flexeGroupDown e.1 1 0 0
  | none => s

/-- HOST_PORT_DOWN with its cause (Table 4.10); `bad` is the lane that lost signal or clock recovery, counted in its group. -/
def State.hostPortDown (s : State) (lane cause bad : Nat) : State :=
  match s.port lane with
  | none => s
  | some p =>
    let s := if cause ≤ 2 then s.bump (0x0B00 + bad) 1 (cause - 1) 1 else s
    if !p.up then s
    else
      let s := s.modPort lane fun p => { p with up := false, ref := s.mono, rxBytes := none, step := stepsMet cause, winCw := 0, winSym := 0 }
      let s := s.bump (0x0B00 + lane) 0 24 1
      ((((s.raise islHost .hostPortDown lane (le 1 cause)).portStart lane).inputLost (64 + lane)).phyDown lane)

/-- HOST_PORT_TIMEOUT: a port that is not up 1 s after its configuration is reported once, with the cause of its first unmet step; each
retry starts its lanes from the table again (R135). -/
def State.hostPortTimeout (s : State) (lane cause : Nat) : State :=
  match s.port lane with
  | none => s
  | some p =>
    if p.up || !(s.since p.ref secQ) then s
    else
      let s := (s.modPort lane fun p => { p with step := stepsMet cause }).portStart lane
      if p.timedOut || p.wasUp then s
      else (s.modPort lane fun p => { p with timedOut := true }).raise islHost .hostPortDown lane (le 1 cause)

/-- Count the codewords of a port: `hist` by how many symbols each had corrected, and the uncorrectable ones (Table 4.9). -/
def State.countFec (s : State) (u : Nat) (hist : List Nat) (uncorr : Nat) : State :=
  let h := (List.range 16).zip hist
  let s : State := h.foldl (fun (s : State) x => s.bump u 0 (4 + x.1) x.2) s
  (((s.bump u 0 0 (hSum hist + uncorr)).bump u 0 1 (hSum (hist.drop 1))).bump u 0 2 uncorr).bump u 0 3 (hSum (h.map fun x => x.1 * x.2))

/-- HOST_FEC_WINDOW_END: codewords that a port received, counted whether or not it is up; while it is they complete its degrade window once DEGRADE_WINDOW of them were received, and with FLAGS
bit 2 set degrade is declared or cleared (R138). -/
def State.hostFecWindow (s : State) (lane : Nat) (hist : List Nat) (uncorr : Nat) : State :=
  match s.port lane with
  | none => s
  | some p =>
    let s := s.countFec (0x0B00 + lane) hist uncorr
    if !p.up then s
    else
      let words := p.winCw + hSum hist + uncorr
      let symbols := p.winSym + hSum (((List.range 16).zip hist).map fun x => x.1 * x.2)
      if words < p.degWin then s.modPort lane fun p => { p with winCw := words, winSym := symbols }
      else
        let s := s.modPort lane fun p => { p with winCw := 0, winSym := 0 }
        if !(bitAt p.flags 2) then s
        else if !p.degraded && decide (symbols ≥ p.degSet) then
          (s.modPort lane fun p => { p with degraded := true }).raise islHost .hostFecDegrade lane (le 4 (satN 4 symbols))
        else if p.degraded && decide (symbols < p.degClear) then
          (s.modPort lane fun p => { p with degraded := false }).raise islHost .hostFecDegradeClear lane (le 4 (satN 4 symbols))
        else s

/-! HOST_TABLE_LOAD (R153 to R158, R640). -/

/-- The entry at an offset of a table (Table 4.8). -/
def entryAt (b : List Byte) (o : Nat) : LaneEq :=
  { pre3 := fldS b (o + 2) 1, pre2 := fldS b (o + 3) 1, pre1 := fldS b (o + 4) 1, main := fld b (o + 5) 1, post1 := fldS b (o + 6) 1
    swing := fld b (o + 7) 1, ctleStart := fld b (o + 8) 1, ctleMin := fld b (o + 9) 1, ctleMax := fld b (o + 10) 1
    gainStart := fld b (o + 11) 1, ffeBound := fld b (o + 12) 1, dfeMax := fld b (o + 13) 1, fixed := bitAt (fld b (o + 14) 1) 0 }

/-- The magnitudes of R154. -/
def LaneEq.sum (e : LaneEq) : Nat := e.pre3.natAbs + e.pre2.natAbs + e.pre1.natAbs + e.main.natAbs + e.post1.natAbs

/-- The reason for which entry `i` of a table fails (R156). -/
def entryBad (b : List Byte) (i : Nat) : Option Nat :=
  let o := 16 + 16 * i
  let umran := fld b 2 1 == 2
  let lane := fld b o 1
  let rate := fld b (o + 1) 1
  let e := entryAt b o
  if (if umran then decide (lane > 15) || rate != 2 else decide (lane > 127) || rate < 1 || rate > 2) ||
      (List.range i).any fun j => fld b (16 + 16 * j) 2 == fld b o 2 then some 3
  else if e.sum ≠ 64 ∨ e.main < 32 ∨ e.main > 64 then some 4
  else if e.swing < 40 ∨ e.swing > 120 then some 5
  else if e.ctleStart > 31 ∨ e.ctleMin > e.ctleStart ∨ e.ctleMax < e.ctleStart ∨ e.ctleMax > 31 ∨ e.gainStart > 63 ∨ e.ffeBound > 48 ∨
      e.dfeMax > 32 ∨ fld b (o + 14) 1 > 1 ∨ fld b (o + 15) 1 ≠ 0 then some 6
  else none

/-- The reason for which a whole table fails, with its entry. -/
def boardTableBad (b : List Byte) : Option (Nat × Nat) :=
  let n := fld b 4 2
  if fld b 0 1 ≠ 0xB7 ∨ fld b 1 1 ≠ 1 ∨ fld b 2 1 < 1 ∨ fld b 2 1 > 2 ∨ fld b 3 1 ≠ 0 ∨ n < 1 ∨ n > 256 ∨ fld b 6 2 ≠ 0 ∨
      b.length ≠ 16 + 16 * n then some (1, 0xFFFF)
  else if crc32c (b.take 12 ++ zeros 4 ++ b.drop 16) ≠ fld b 12 4 then some (2, 0xFFFF)
  else (List.range n).findSome? fun i => (entryBad b i).map fun r => (r, i)

/-- Install a table that passed (R156, R158). -/
def State.installTable (s : State) (b : List Byte) (live : Bool) : State :=
  let umran := fld b 2 1 == 2
  let t : Tab LaneEq := (List.range (fld b 4 2)).foldl
    (fun t i => let o := 16 + 16 * i; tput t (4 * fld b o 1 + fld b (o + 1) 1) (entryAt b o)) []
  let s := s.modHost fun h => { h with
    load := []
    table := if umran then h.table else t, tableTag := if umran then h.tableTag else fld b 8 4
    ulTable := if umran then t else h.ulTable, ulTag := if umran then fld b 8 4 else h.ulTag
    lanes := tmapv h.lanes fun l r => if decide (l < 128) != umran then { r with live := live } else r }
  s.raise islHost .hostTableLoaded 0xFFFF (le 4 (fld b 8 4) ++ le 2 (fld b 4 2))

/-- HOST_TABLE_LOAD. A refused table is discarded. A reserved FLAGS bit or a reserved byte of the request itself is BAD_PARAM with reason 0,
since R156 lists none for it (DESIGN CHOICE, assumption 82). -/
def State.cmdHostTableLoad (s : State) (q : Request) : State :=
  let off := q.u 0 4
  let n := q.u 4 2
  let last := bitAt (q.u 6 1) 0
  let chunk := q.payload.drop 8
  let whole := (if off = 0 then [] else s.host.load) ++ chunk
  let bad : Option (Nat × Nat) := if off ≠ 0 ∧ off ≠ s.host.load.length then some (7, 0xFFFF) else if last then boardTableBad whole else none
  let lenOk := q.len == 8 + n && 1 ≤ n && n ≤ 4072
  let first : List Check := [.bad (q.u 6 1 > 3 || !(q.rsv 7 1)) .badParam 0, onlyT0 q]
  let s := if s.reaches 0x0B02 q lenOk first && bad.isSome then s.modHost fun h => { h with load := [] } else s
  s.serve 0x0B02 q 6 lenOk
    (first ++ [.badWith bad.isSome .badParam ((bad.map Prod.fst).getD 0) (zeros 2 ++ le 2 ((bad.map Prod.snd).getD 0xFFFF))])
    (fun s =>
      (if last then s.installTable whole (bitAt (q.u 6 1) 1) else s.modHost fun h => { h with load := whole },
       some (okay4 ++ le 2 0xFFFF)))
    (zeros 2 ++ le 2 0xFFFF)

/-! FlexE (R142 to R152). -/

/-- Change a group. -/
def State.modGroup (s : State) (g : Nat) (f : FlexGroup → FlexGroup) : State := s.modHost fun h => { h with groups := tmod h.groups g f }

/-- The distinct clients of a calendar in the order of their first entries. -/
def calendarClients (cal : List Nat) : List Nat := (cal.foldl (fun acc c => if c = 0 ∨ acc.contains c then acc else c :: acc) []).reverse

/-- The entries of a client in a calendar. -/
def clientEntries (cal : List Nat) (c : Nat) : List Nat := indices cal.length fun i => cal[i]? == some c

/-- Is a client in use by an open or pending passage or a raw step (R146)? -/
def State.clientUsed (s : State) (g : Nat) (c : FlexClient) : Bool :=
  ((tvals s.pas).any fun p => p.legs.any fun l => l.2.kind == 2 && l.2.index == g && l.2.sub == c.client) ||
  ((s.rawWords islHost).any fun w =>
    (wAction w == 0x30 && wop w 52 12 == 0x200 + c.handle) || (wAction w == 0x31 && wop w 48 8 == c.handle))

/-- Are the PHYs of a list fit for a group (R142): configured with USE 2, of one type, not 1.6TBASE-R, in no other group? -/
def State.physOk (s : State) (g : Nat) (phys : List Nat) : Bool :=
  let ps := phys.map s.port
  let types := ps.map fun p => match p with | some x => if x.plain then 0 else x.phy | none => 0
  (types.all fun t => 1 ≤ t && t ≤ 3 && t == types.headD 0) && (phys.eraseDups.length == phys.length) &&
    !(s.host.groups.any fun e => e.1 != g && e.2.members.any fun l => phys.contains l)

/-- Handles in use on the device outside a group. -/
def State.handlesUsed (s : State) (gi : Nat) : List Nat :=
  (s.host.groups.filter fun e => e.1 != gi).flatMap fun e => e.2.clients.map fun c => c.handle

/-- The client records that a calendar gives group `gi`: those it has keep their handles, new ones take the lowest free ones (R145). A
client whose entries change may carry from `start` on. -/
def State.newClients (s : State) (gi : Nat) (g : FlexGroup) (cal : List Nat) (start : Option Nat) : List FlexClient :=
  (calendarClients cal).foldl
    (fun acc c =>
      let used := s.handlesUsed gi ++ (g.clients ++ acc).map fun x => x.handle
      let r := match g.client c with
        | some x => if clientEntries g.active c == clientEntries cal c then x else { x with from_ := start }
        | none => { client := c, handle := ((List.range 257).find? fun h => !(used.contains h)).getD 256, from_ := start }
      acc ++ [r])
    []

/-- The FLEXE_CALENDAR_SET response (R144). -/
def flexeReply (ch : Nat) (cal : List Nat) (cs : List FlexClient) : List Byte :=
  okay4 ++ le 8 ch ++ le 2 cs.length ++ zeros 2 ++
    cs.flatMap fun c => le 2 c.client ++ le 1 c.handle ++ zeros 1 ++ le 2 (clientEntries cal c.client).length

/-- FLEXE_CALENDAR_SET (R143 to R148). While a calendar change is under way the group is BUSY. -/
def State.cmdFlexeCalendarSet (s : State) (q : Request) : State :=
  let g := q.u 0 1
  let act := q.u 1 1
  let define := act == 1
  let mode := q.u 3 1
  let count := q.u 24 2
  let cal := (List.range count).map fun i => q.u (28 + 2 * i) 2
  let old? := s.flexGroup g
  let old := old?.getD { groupId := q.u 4 4, phys := [] }
  let phys := if define then (List.range (min 8 (q.u 2 1))).map fun i => q.u (8 + i) 1 else old.phys
  let padded := (List.range 8).all fun i => i < phys.length || q.u (8 + i) 1 == 0xFF
  let bad2 := decide (g > 63) || act < 1 || act > 3 || (act != 3 && (mode < 1 || mode > 2)) || !(q.rsv 26 2) || !(q.rsv 22 2) ||
    (if define then q.u 2 1 < 1 || q.u 2 1 > 8 || q.u 4 4 < 1 || q.u 4 4 > 0xFFFFE || !padded || phys.any fun l => decide (l > 127)
     else !(q.rsv 2 1)) || (cal.any fun c => c == 0xFFFF)
  let newPhys := define && old?.isSome && phys != old.phys
  let base := if define && old?.isNone then { groupId := q.u 4 4, phys := phys }
    else { old with groupId := if define then q.u 4 4 else old.groupId }
  let bad5 := (!define && old?.isNone) || (define && !(s.physOk g phys)) || count != (if act = 3 then 0 else 20 * s.instances phys) ||
    decide ((calendarClients cal).length > 64)
  let inUse := old.clients.any fun c => s.clientUsed g c
  let lead := s.earliest false
  let switchCh := if mode = 2 then (if q.ch 16 = 0 then lead else q.ch 16) else 0
  let late := act != 3 && mode == 2 && (!(chLater switchCh s.chamber) || decide (chAhead switchCh s.chamber < 80) || chLater lead switchCh)
  let moved := act != 3 && !newPhys && old.clients.any fun c => s.clientUsed g c && clientEntries old.active c.client != clientEntries cal c.client
  let start := if mode = 2 then some (chAdd switchCh 84) else none
  let clients := s.newClients g (if newPhys then { base with calA := [], calB := [] } else base) cal start
  s.serve 0x0B03 q 16 (q.len == 28 + 2 * count)
    [.bad bad2 .badParam 0, .lit ([0x0B81] ++ if define then phys.map fun l => 0x0B00 + l else []), onlyT0 q, .bad bad5 .badParam 0,
     .bad ((act == 3 || newPhys) && inUse) .notIdle 0, .bad old.change.isSome .busy 0, .bad late .notReady 3,
     .bad ((s.commitBad lead none).isSome) .notReady 3, .bad moved .noCapacity 1, .bad (clients.any fun c => c.handle == 256) .noResource 0]
    fun s =>
      let changes := if act = 2 then [FwChange.flexe g (!base.onB)] else [.flexe g false, .flexe g true]
      if act = 3 then
        ((s.modGroup g fun x => { x with change := some { mode := 3, cal := [] } }).schedule lead none [] changes, some (flexeReply 0 [] []))
      else
        let kept := base.clients.filter fun c => !(clients.any fun x => x.client == c.client)
        let x : FlexGroup := { base with clients := clients ++ kept, change := some { mode := mode, cal := cal, phys := if newPhys then phys else [], switchCh := switchCh } }
        let fresh := clients.filter fun c => (old.client c.client).isNone
        let s := { s.modHost (fun h => { h with groups := tput h.groups g x }) with
          cnt := fresh.foldl (fun t (c : FlexClient) => tdel t (ctrKey 0x0B81 (256 + c.handle) 0)) s.cnt }
        (s.schedule lead none [] changes, some (flexeReply (start.getD 0) cal clients))

/-- The clients of a group once its calendar is the new one: those it no longer names are gone, and those of a MODE 1 switch may
carry from `ch` on. -/
def switchedClients (cs : List FlexClient) (cal : List Nat) (ch : Nat) : List FlexClient :=
  (cs.filter fun c => cal.contains c.client).map fun c => if c.from_.isNone then { c with from_ := some ch } else c

/-- FLEXE_CAL_SWITCH: at an overhead frame boundary the FlexE unit switches calendars: under MODE 1 once the far end acknowledges,
under MODE 2 after the first boundary of SWITCH_CHAMBER (R147, R148). -/
def State.flexeCalSwitch (s : State) (g : Nat) : State :=
  match s.flexGroup g with
  | none => s
  | some x => match x.change with
    | none => s
    | some c =>
      if !c.loaded || (c.mode == 2 && !(chReached s.chamber c.switchCh)) then s
      else
        let ch := chAdd s.chamber 1
        let s := s.modGroup g fun x => { x with onB := !x.onB, change := none, clients := switchedClients x.clients c.cal ch, farAck := false }
        let s := s.bump 0x0B81 g 2 1
        if c.mode = 1 then s.raise islHost .flexeCalSwitch g (le 6 ch) else s

/-- FLEXE_CAL_TIMEOUT: a MODE 1 request had no acknowledgement for 1 s; the old calendar stays and no new client is created
(R147). -/
def State.flexeCalTimeout (s : State) (g : Nat) : State :=
  match s.flexGroup g with
  | none => s
  | some x => match x.change with
    | none => s
    | some c =>
      if c.mode ≠ 1 || !c.loaded || !(s.since c.requestAt secQ) then s
      else
        let s := s.modGroup g fun x => { x with change := none, clients := switchedClients x.clients x.active s.chamber }
        s.raise islHost .flexeCalTimeout g []

/-- FLEXE_CAL_REQUEST: the far end requests a calendar (R149). -/
def State.flexeCalRequest (s : State) (g : Nat) (cal : List Nat) : State :=
  match s.flexGroup g with
  | none => s
  | some x =>
    let own := x.configured
    match (List.range (max own.length cal.length)).find? fun i => own[i]? != cal[i]? with
    | none => s.modGroup g fun x => { x with farAck := true }
    | some i => (s.modGroup g fun x => { x with farAck := false }).raise islHost .flexeCalMismatch g (le 2 i)

/-- FLEXE_GROUP_UP: every instance has been in lock for one whole multiframe (R152). -/
def State.flexeGroupUp (s : State) (g : Nat) : State :=
  match s.flexGroup g with
  | none => s
  | some x =>
    if x.up || x.phys.any fun l => match s.port l with | some p => !p.up | none => true then s
    else (s.modGroup g fun x => { x with up := true }).raise islHost .flexeGroupUp g []

end Sys2Proof.Machine
end

