-- ==== Sys2Proof/Machine/Numeric.lean ====
section
/-!
DEFINITION. The functions of a real number that chapters 06 to 08 name: cosine, square root, level ratios and π. Their values are
irrational and the specification gives no word length, so each is computed in fixed point with 80 fractional bits and given to 60
(DESIGN CHOICE, assumption 78).
-/
namespace Sys2Proof.Machine

/-- One in the fixed point in which the functions are computed. -/
def fixOne : Int := 2 ^ 80

/-- A fixed-point number as a multiple of 2^-60, to the nearest one. -/
def ofFix (x : Int) : Rat := (((x + 2 ^ 19) / 2 ^ 20 : Int) : Rat) / ((2 ^ 60 : Nat) : Rat)

/-- π to 39 decimal places. -/
def piValue : Rat := (3141592653589793238462643383279502884197 : Rat) / (1000000000000000000000000000000000000000 : Rat)

/-- The power series whose next term is the one before it times `step k`: `n` terms from term `k` on, in fixed point. -/
def fixSeries (step : Nat → Int → Int) : Nat → Nat → Int → Int
  | 0, _, _ => 0
  | n + 1, k, t => t + fixSeries step n (k + 1) (step k t)

/-- The cosine of an angle in fixed point, at most a quarter turn. -/
def fixCos (x : Int) : Int :=
  fixSeries (fun k t => -(t * (x * x / fixOne) / fixOne) / (((2 * k + 1) * (2 * k + 2) : Nat) : Int)) 20 0 fixOne

/-- The cosine of an angle of 0 to 1/2 half-turns. -/
def cosQuarter (y : Rat) : Rat := if y = 1 / 2 then 0 else ofFix (fixCos (piValue * y * (fixOne : Rat)).floor)

/-- The cosine of an angle in half-turns. -/
def cosPi (x : Rat) : Rat :=
  let r := x - 2 * ((x / 2).floor : Rat)
  let y := if r ≤ 1 then r else 2 - r
  if y ≤ 1 / 2 then cosQuarter y else -(cosQuarter (1 - y))

/-- The largest number of `k` further bits below `r` whose square is at most `n`. -/
def rootBits (n : Nat) : Nat → Nat → Nat
  | 0, r => r
  | k + 1, r => rootBits n k (if (r + 2 ^ k) * (r + 2 ^ k) ≤ n then r + 2 ^ k else r)

/-- The integer part of a square root. -/
def natRoot (n : Nat) : Nat := rootBits n (n.log2 / 2 + 1) 0

/-- The square root of a number, 0 below 0. -/
def rootOf (x : Rat) : Rat := ((natRoot (x * ((2 ^ 120 : Nat) : Rat)).floor.toNat : Nat) : Rat) / ((2 ^ 60 : Nat) : Rat)

/-- 2 to a power from 0 to 1, by the exponential series of `f` ln 2. -/
def powFrac (f : Rat) : Rat :=
  let x := (f * (fixOne : Rat) * (693147180559945309417232121458176568 : Rat) / (1000000000000000000000000000000000000 : Rat)).floor
  ofFix (fixSeries (fun k t => t * x / fixOne / ((k + 1 : Nat) : Int)) 24 0 fixOne)

/-- The amplitude ratio of a level in dB: 10^(x/20). -/
def fromDb (x : Rat) : Rat :=
  let y := x * (3321928094887362347870319429489390176 : Rat) / (20000000000000000000000000000000000000 : Rat)
  let n := y.floor
  powFrac (y - (n : Rat)) * ((2 ^ n.toNat : Nat) : Rat) / ((2 ^ (-n).toNat : Nat) : Rat)

end Sys2Proof.Machine
end

