-- ==== Sys2Proof/Machine/TxDsp.lean ====
section
/-!
DEFINITION. The transmit signal path (06_transmit.md): codewords (R164), the distributor (R205), sphere shaping (R206 to R208), pilots
(R203), symbol blocks (R202), pulse shaping (R222, R223), synthesis (R204), front-end compensation (R224), drive (R226) and ramps
(R231, R234, R235). Numbers are exact rationals over the functions of Numeric
(assumption 78).
-/
namespace Sys2Proof.Machine

def Cx.add (a b : Cx) : Cx := ⟨a.re + b.re, a.im + b.im⟩
def Cx.mul (a b : Cx) : Cx := ⟨a.re * b.re - a.im * b.im, a.re * b.im + a.im * b.re⟩
def Cx.scale (x : Rat) (a : Cx) : Cx := ⟨x * a.re, x * a.im⟩
def Cx.conj (a : Cx) : Cx := ⟨a.re, -a.im⟩
def Cx.zero : Cx := ⟨0, 0⟩
def Cx.power (a : Cx) : Rat := a.re * a.re + a.im * a.im

/-- The unit vector at an angle in half-turns. -/
def Cx.turn (x : Rat) : Cx := ⟨cosPi x, cosPi (x - 1 / 2)⟩

/-- The sum of a list of samples. -/
def Cx.sum (l : List Cx) : Cx := l.foldl Cx.add Cx.zero

/-! Codewords (R164, R187). -/

/-- A codeword from its k information bits: the information bits, then the parity bits. `sent` of the information bits are sent: those
of a shortened codeword that fall after the boundary are zero and are not sent (R164). -/
def codeword (code : Nat) (info : Bits) (sent : Nat) : Bits :=
  (info.slice 0 sent).append
    { len := codeN code - codeK code, val := Config.parity code (info.padTo (codeK code)).val % 2 ^ (codeN code - codeK code) }

/-- Information bits enter the encoder; whole codewords leave it. -/
def encode (code : Nat) : Nat → Bits → Bits → Bits × Bits
  | 0, info, out => (info, out)
  | k + 1, info, out =>
    if info.len < codeK code then (info, out)
    else encode code k (info.drop (codeK code)) (out.append (codeword code info (codeK code)))

/-- The bits of a frame enter the encoder: the bits left for the next codeword, and the codewords that are whole. Codewords run on
across chamber boundaries. -/
def encodeFrame (code : Nat) (left frame : Bits) : Bits × Bits :=
  let b := left.append frame
  encode code (b.len / codeK code) b {}

/-- The last codeword of an old profile, shortened at the boundary; nothing where a codeword ends there (R164). -/
def shortened (code : Nat) (left : Bits) : Bits := if left.len = 0 then {} else codeword code left left.len

/-! The distributor (R205). -/

/-- The position of the smallest entry of a list, the lowest one on a tie. -/
def argMin (l : List Nat) : Nat :=
  ((List.range l.length).foldl (fun best i => if (l[i]?).getD 0 < (l[best]?).getD 0 then i else best) 0)

/-- The distributor serves the subcarrier whose next shaping frame has the earliest first data symbol, the lowest on a tie, with the
next 8 x k_s bits; all subcarriers run on one symbol grid, so data symbols are compared by their index. `next` holds the first data
symbol of each subcarrier's next shaping frame. -/
def deal (prof : List Nat) : Nat → List Nat → Bits → List ShapingFrame × List Nat × Bits
  | 0, next, b => ([], next, b)
  | n + 1, next, b =>
    let s := argMin next
    let k := (prof[s]?).getD 32
    if prof.isEmpty ∨ b.len < 8 * k then ([], next, b)
    else
      let f : ShapingFrame := { sub := s, first := (next[s]?).getD 0, x := b.slice 0 (4 * k), y := b.slice (4 * k) (4 * k) }
      let r := deal prof n (next.set s (f.first + 64)) (b.drop (8 * k))
      (f :: r.1, r.2)

/-- Fill frames of zero bits of one subcarrier from its next shaping frame up to data symbol `upTo` (R209). -/
def fillFrames (s k next upTo : Nat) : List ShapingFrame :=
  (List.range (ceilDiv (upTo - next) 64)).map fun i => { sub := s, first := next + 64 * i, x := { len := 4 * k }, y := { len := 4 * k } }

/-! Sphere shaping (R206 to R208). -/

/-- The amplitudes of an entropy of k sixteenths. -/
def alphabet (k : Nat) : List Nat := if k ≤ 32 then [1] else if k ≤ 64 then [1, 3] else [1, 3, 5, 7]

/-- The largest energy of 128 amplitudes. -/
def energyTop : Nat := 128 * 49

/-- How many sequences one amplitude longer have energy at most e, for e from 0, from the same counts of the shorter ones. -/
def sphereNext (alph row : List Nat) : List Nat :=
  (List.range (energyTop + 1)).map fun e => (alph.map fun a => if a * a ≤ e then (row[e - a * a]?).getD 0 else 0).foldl (· + ·) 0

/-- How many sequences of n amplitudes have energy at most e, for e from 0. -/
def sphereRow (alph : List Nat) : Nat → List Nat
  | 0 => List.replicate (energyTop + 1) 1
  | n + 1 => sphereNext alph (sphereRow alph n)

/-- How many sequences of n amplitudes have energy at most e. -/
def sphereCount (alph : List Nat) (n e : Nat) : Nat := ((sphereRow alph n)[e]?).getD 0

/-- E_max: the smallest energy with at least 2^(4k - 128) sequences. -/
def energyMax (k : Nat) : Nat :=
  ((sphereRow (alphabet k) 128).findIdx? fun x => decide (2 ^ (4 * k - 128) ≤ x)).getD energyTop

/-- The amplitude with which the sequence of index m begins, among those of n + 1 amplitudes with energy at most e, and the index of the
rest among the sequences that begin with it. -/
def sphereFirst (alph : List Nat) (n e : Nat) : List Nat → Nat → Nat × Nat
  | [], m => (1, m)
  | a :: as, m =>
    let c := if a * a ≤ e then sphereCount alph n (e - a * a) else 0
    if m < c then (a, m) else sphereFirst alph n e as (m - c)

/-- The sequence of index m in lexicographic order among those of n amplitudes with energy at most e. -/
def sphereSeq (alph : List Nat) : Nat → Nat → Nat → List Nat
  | 0, _, _ => []
  | n + 1, e, m =>
    let r := sphereFirst alph n e alph m
    r.1 :: sphereSeq alph n (e - r.1 * r.1) r.2

/-- A constellation point before scaling. -/
abbrev Point := Int × Int

/-- The 64 points of a half-frame of 4 x k bits (R206). -/
def shape (k : Nat) (b : Bits) : List Point :=
  let amps := sphereSeq (alphabet k) 128 (energyMax k) (b.field 128 (4 * k - 128))
  let val := fun i => (if b.field i 1 = 1 then -1 else 1) * (((amps[i]?).getD 1 : Nat) : Int)
  (List.range 64).map fun i => (val (2 * i), val (2 * i + 1))

/-- The mean power of the points of an entropy before scaling, over all sequences within E_max, weighted equally (R208). -/
def dataPower (k : Nat) : Rat :=
  let row := (sphereRow (alphabet k) 128).take (energyMax k + 1)
  let total := (row.getLast?).getD 1
  let exact := fun e => (row[e]?).getD 0 - (if e = 0 then 0 else (row[e - 1]?).getD 0)
  (((List.range row.length).foldl (fun a e => a + e * exact e) 0 : Nat) : Rat) / ((64 * total : Nat) : Rat)

/-- A data point scaled to mean power 1 (R208). -/
def scaled (k : Nat) (p : Point) : Cx := Cx.scale (1 / rootOf (dataPower k)) ⟨(p.1 : Rat), (p.2 : Rat)⟩

/-! Pilots and symbol blocks (R202, R203). -/

/-- One bit of the PRBS x^15 + x^14 + 1 and the register after it. -/
def prbs (r : Nat) : Nat × Nat :=
  let b := (r / 2 ^ 14 + r / 2 ^ 13) % 2
  (b, (2 * r + b) % 2 ^ 15)

/-- The next pilot point of a generator: two bits, the real sign first, 1 negative; and the register after them. -/
def pilot (r : Nat) : Cx × Nat :=
  let a := prbs r
  let b := prbs a.2
  let sign := fun (x : Nat) => if x = 1 then (-1 : Rat) else 1
  (Cx.scale (1 / rootOf 2) ⟨sign a.1, sign b.1⟩, b.2)

/-- Form up to `n` symbol blocks from the data points that wait on a subcarrier and polarisation: the blocks, the points left and the
pilot generator. -/
def symBlocks (sub pol : Nat) : Nat → List Cx → Nat → List SymBlock × List Cx × Nat
  | 0, q, r => ([], q, r)
  | n + 1, q, r =>
    if q.length < 63 then ([], q, r)
    else
      let p := pilot r
      let rest := symBlocks sub pol n (q.drop 63) p.2
      ({ sub := sub, pol := pol, symbols := p.1 :: q.take 63 } :: rest.1, rest.2)

/-- Symbols of each carrier before chamber `k` of a symbol grid: 1 280 ns x B / S a chamber. -/
def EngCfg.symbolsTo (c : EngCfg) (k : Nat) : Nat := k * c.rateE4 * 64 / (5000 * max c.carriers 1)

/-- The first symbol block, counted from the grid's beginning, that leaves the pins at or after the start of the n-th chamber of the
grid plus 410 ns: a block lasts 640 x S / (symbol rate in 0.1 GBd) ns (R209, R223, R265). -/
def EngCfg.switchBlock (c : EngCfg) (n : Nat) : Nat := ceilDiv (n * 2 * c.symRate) (max c.subs 1)

/-- TX_DELAY of a profile whose first symbol block has this number in the grid, in quarter-nanoseconds, rounded down: from the chamber's
start to its first data symbol, which follows the block's pilot (R171, R209). -/
def EngCfg.delayOf (c : EngCfg) (n block : Nat) : Nat :=
  1640 + (40 * max c.subs 1 * (64 * block + 1) / max c.symRate 1 - 5120 * n)

/-! Frequencies and pulse shaping (R204, R222, R223). -/

/-- The baseband frequency of subcarrier s in GHz (R204). -/
def EngCfg.freqOf (c : EngCfg) (s : Nat) : Rat :=
  ((s : Rat) - ((c.carriers : Rat) - 1) / 2) * (c.baud / (c.carriers : Rat) * (1 + (c.rollMax : Rat) / 1000))

/-- The DAC and ADC sample rate in GS/s (R204, R241). -/
def EngCfg.sampleRate (c : EngCfg) : Rat := 5 / 4 * c.baud

/-- Tap n of the 64-tap root-raised-cosine filter at two samples per symbol, for a roll-off in thousandths (R222): the textbook pulse
(PRESUMED, assumption 78), times π, about the centre 31.5. -/
def rrcTap (roll n : Nat) : Rat :=
  let b : Rat := (roll : Rat) / 1000
  let t : Rat := ((n : Rat) - 63 / 2) / 2
  let u := 4 * b * t
  if u * u = 1 then
    b / rootOf 2 * ((piValue + 2) * cosPi (1 / (4 * b) - 1 / 2) + (piValue - 2) * cosPi (1 / (4 * b)))
  else (cosPi (t * (1 - b) - 1 / 2) + u * cosPi (t * (1 + b))) / (t * (1 - u * u))

/-- The filter's taps. -/
def rrcTaps (roll : Nat) : List Rat := (List.range 64).map (rrcTap roll)

/-- Output sample m, at two samples per symbol, of a filter over a subcarrier's symbols. -/
def filtered (taps : List Rat) (symbols : List Cx) (m : Nat) : Cx :=
  Cx.sum ((List.range 64).map fun n =>
    if n ≤ m ∧ (m - n) % 2 = 0 then Cx.scale ((taps[n]?).getD 0) ((symbols[(m - n) / 2]?).getD Cx.zero) else Cx.zero)

/-- The weight of the new filter in block j after a roll-off change (R223). -/
def fadeWeight (j : Nat) : Rat := if j < 16 then ((j : Rat) + 1 / 2) / 16 else 1

/-- A sample of a subcarrier while its filter cross-fades from one roll-off to another, `block` symbol blocks after the first one
(R223). -/
def crossFaded (old new block : Nat) (symbols : List Cx) (m : Nat) : Cx :=
  let w := fadeWeight block
  (Cx.scale (1 - w) (filtered (rrcTaps old) symbols m)).add (Cx.scale w (filtered (rrcTaps new) symbols m))

/-- One polarisation at an instant in ns from the grid's beginning: every subcarrier's half-symbol-spaced signal, which begins with a
symbol of the grid, upsampled and moved to its frequency (R204). -/
def EngCfg.synth (c : EngCfg) (subs : List (Nat × List Cx)) (t : Rat) : Cx :=
  Cx.sum (((List.range subs.length).zip subs).map fun x =>
    let v := Config.upsample (x.2.2.map fun z => (z.re, z.im)) (2 * (t * c.baud / (c.carriers : Rat) - (x.2.1 : Rat)))
    (Cx.turn (2 * c.freqOf x.1 * t)).mul ⟨v.1, v.2⟩)

/-! Front-end compensation and drive (R224, R226). -/

/-- The boost of EMPH (in 0.5 dB) at a frequency in units of half the DAC rate, in dB: a raised cosine from 0 dB at 0.1 to EMPH at 1. -/
def emphDb (emph f : Rat) : Rat := if f < 1 / 10 then 0 else emph / 2 * ((1 - cosPi ((f - 1 / 10) / (9 / 10))) / 2)

/-- Tap n of a lane's 48-tap filter: the response of R224 sampled at 48 frequencies, with a delay of 23.5 samples plus the lane's SKEW
in 0.1 ps (DESIGN CHOICE, assumption 78: frequency sampling). -/
def frontTap (emph : Int) (skew : Rat) (n : Nat) : Rat :=
  ((List.range 48).map fun (k : Nat) =>
    let f : Rat := if k ≤ 24 then (k : Rat) / 24 else ((k : Rat) - 48) / 24
    let g := fromDb (emphDb (emph : Rat) (if f < 0 then -f else f))
    g * cosPi (f * ((n : Rat) - 47 / 2 - skew)) / 48).foldl (· + ·) 0

/-- SKEW of a lane in DAC samples. -/
def EngCfg.skewSamples (c : EngCfg) (skew : Int) : Rat := (skew : Rat) * c.sampleRate / 10000

/-- The four lane signals XI, XQ, YI, YQ at one instant from the two polarisations: the polarisation swap, the rotation of each Q lane
against its I lane (DESIGN CHOICE, assumption 78: the rotated axis takes its share of I), the lane gain and the polarity (R224). -/
def lanesAt (fe : FrontEnd) (flags : Nat) (x y : Cx) : List Rat :=
  let a := if bitAt flags 0 then y else x
  let b := if bitAt flags 0 then x else y
  let q := fun (z : Cx) (deg : Int) => z.im * cosPi ((deg : Rat) / 18000) + z.re * cosPi ((deg : Rat) / 18000 - 1 / 2)
  let raw := [a.re, q a fe.iqX, b.re, q b fe.iqY]
  ((List.range 4).zip raw).map fun l =>
    (if bitAt flags (l.1 + 1) then -1 else 1) * fromDb ((((fe.gain[l.1]?).getD 0 : Int) : Rat) / 20) * l.2

/-- An output sample of a lane's front-end filter from the 48 samples that end with it, the latest one last. -/
def EngCfg.laneOut (c : EngCfg) (fe : FrontEnd) (lane : Nat) (samples : List Rat) : Rat :=
  ((List.range 48).map fun k =>
    frontTap fe.emph (c.skewSamples ((fe.skew[lane]?).getD 0)) k * ((samples[47 - k]?).getD 0)).foldl (· + ·) 0

/-- Round to the nearest integer, halves upward. -/
def roundQ (x : Rat) : Int := (x + 1 / 2).floor

/-- The RMS of a lane's samples over a chamber. -/
def rmsOf (l : List Rat) : Rat := rootOf ((l.map fun x => x * x).foldl (· + ·) 0 / (max l.length 1 : Nat))

/-- The DAC codes of a chamber's samples of a lane: scaled to DRIVE_RMS and by the ramp's amplitude, saturated beyond +127 and -128
(R226, R231). -/
def dacCodes (drive : Int) (amp : Rat) (l : List Rat) : List Int :=
  l.map fun x => max (-128) (min 127 (roundQ (amp * (drive : Rat) * x / rmsOf l)))

/-- How many samples of a lane saturate in a chamber (R226). -/
def dacClips (drive : Int) (amp : Rat) (l : List Rat) : Nat :=
  (l.filter fun x => let v := roundQ (amp * (drive : Rat) * x / rmsOf l); decide (v > 127) || decide (v < -128)).length

/-- The output of a code in mV differential at a SWING: code ±127.5 is the full swing (R226). -/
def outputMv (swing code : Int) : Rat := (swing : Rat) * (code : Rat) / 255

/-! Ramps (R231, R234, R235). -/

/-- The amplitude scale of a ramp of duration T at time t (R231). -/
def rampScale (up : Bool) (t T : Nat) : Rat :=
  let c := cosPi ((t : Rat) / ((max T 1 : Nat) : Rat))
  if up then (1 - c) / 2 else (1 + c) / 2

/-- The amplitude scale of the carrier at a monotone time in quarter-nanoseconds. -/
def TxPath.amplitude (t : TxPath) (mono : Nat) : Rat :=
  let T := t.ramp * 4000000
  let at_ := min T (t.carDone + (mono - t.carAt))
  match t.car with
  | .rampUp => rampScale true at_ T
  | .full => 1
  | .rampDown => rampScale false at_ T
  | _ => 0

/-- The duty cycle of the driver gain-control output, in 1 024ths: 1 023 at full amplitude (R234). -/
def TxPath.gainDuty (t : TxPath) (mono : Nat) : Nat := (roundQ (1023 * t.amplitude mono)).toNat

/-- Is DRV_ENn high? -/
def CarSt.driver (c : CarSt) : Bool := match c with | .driverOn | .rampUp | .full | .rampDown => true | _ => false

/-- Is LSR_ENn high? -/
def CarSt.laser (c : CarSt) : Bool := match c with | .dark => false | _ => true

/-- The level of the GPIO that carries the gain-control output: PWM at 1 MHz with 10-bit resolution, low while DRV_ENn is low
(R234). -/
def TxPath.gainPin (t : TxPath) (mono : Nat) : Bool := t.car.driver && decide (mono % 4000 * 1024 < t.gainDuty mono * 4000)

/-- The scale of symbol i of a burst's ramp (R235). -/
def burstRamp (i : Nat) : Rat := (1 - cosPi (((i : Rat) + 1 / 2) / 32)) / 2

/-- The scale of symbol i of a burst with `len` symbols from the first ramp symbol to the last symbol before its guard, and a guard of
`guard` symbols: the ramp, full amplitude, the mirror image in the guard's first 32 symbols, then zero (R235). -/
def burstScale (len guard i : Nat) : Rat :=
  if i < 32 then burstRamp i
  else if i < len then 1
  else if i < len + min guard 32 then burstRamp (31 - (i - len))
  else 0

end Sys2Proof.Machine
end

