-- ==== Sys2Proof/Machine/RxDsp.lean ====
section
/-!
DEFINITION. The receive signal path (07_receive.md): the converters' samples (R242, R244), the CD equaliser (R252 to R255), timing recovery
and the subcarrier demultiplexer (R260), the polarisation equaliser (R258), carrier recovery (R262) and the demapper (R263). Numbers are exact rationals over the functions of Numeric (assumption 78).
-/
namespace Sys2Proof.Machine

/-! The converters' samples (R242, R244, R322, R342). -/

/-- What a lane reads of an input level in codes: an input beyond the range saturates, and under the clamp the lane reads full scale. -/
def adcCode (clamped : Bool) (x : Int) : Int := if clamped then (if x < 0 then -128 else 127) else max (-128) (min 127 x)

/-- Does it saturate? -/
def adcOver (clamped : Bool) (x : Int) : Bool := clamped || decide (x > 127) || decide (x < -128)

/-- Sample `no` of a lane, the i-th of its levels: position no mod 64 takes it, and where that position has no slice it reads the mean of its
two neighbours, rounded down (R322, R342). -/
def adcSample (clamped : Bool) (degraded : List Nat) (l : List Int) (no i : Nat) : Int :=
  let at_ := fun (j : Nat) => adcCode clamped ((l[j]?).getD 0)
  if degraded.contains (no % 64) then (at_ (i - 1) + at_ (i + 1)) / 2 else at_ i

/-- The windows of 1 024 samples that begin to hold a saturated one, from the numbers of the saturated samples in order (R242): how many,
and one more than the number of the last. -/
def newWindows (hit : Nat) (high : List Nat) : Nat × Nat :=
  high.foldl (fun a no => if a.2 = no / 1024 + 1 then a else (a.1 + 1, no / 1024 + 1)) (0, hit)

/-- The RMS of lane codes in 0.1 code. -/
def rmsTenths (l : List Int) : Nat := natRoot (100 * (l.map fun x => x.natAbs * x.natAbs).foldl (· + ·) 0 / max 1 l.length)

/-! The chromatic-dispersion equaliser (R252 to R255). -/

/-- The partitions of the filter: as many as the spread of D_SPAN needs, at most 600, and one where the span is 0. -/
def EngCfg.partitions (c : EngCfg) : Nat := max 1 (min 600 (ceilDiv (c.hcd * c.rateE4) 20480000))

/-- The equaliser's response at a frequency in GHz for a dispersion in ps/nm: the delay of a fibre changes by D x 8e-6 ns per GHz
(R68), and the response is its inverse over the band ±0.625 x B. A positive dispersion is taken to delay the higher frequencies more (DESIGN
CHOICE, assumption 87: the specification gives its size alone). -/
def EngCfg.cdResponse (c : EngCfg) (d : Int) (f : Rat) : Cx :=
  if f * f ≤ (5 / 8 * c.baud) * (5 / 8 * c.baud) then Cx.turn ((d : Rat) * f * f / 125000) else Cx.zero

/-- The discrete Fourier transform of n samples; the inverse one with `sign` -1, without its factor 1/n. -/
def dft (sign : Rat) (n : Nat) (l : List Cx) : List Cx :=
  (List.range n).map fun k => Cx.sum ((List.range n).map fun (i : Nat) =>
    (Cx.turn (-(sign * 2 * ((k * i % n : Nat) : Rat) / ((max n 1 : Nat) : Rat)))).mul ((l[i]?).getD Cx.zero))

/-- The frequency of bin k of n at the converter rate, in GHz. -/
def EngCfg.binFreq (c : EngCfg) (n k : Nat) : Rat :=
  (if 2 * k ≤ n then (k : Rat) else (k : Rat) - (n : Rat)) * c.sampleRate / ((max n 1 : Nat) : Rat)

/-- The equaliser's delay at the centre of the band: H_CD in samples, to the nearest one (R253). -/
def EngCfg.cdDelay (c : EngCfg) : Nat := min (512 * c.partitions - 1) ((c.hcd * c.rateE4 + 40000) / 80000)

/-- The impulse response of 512 taps for each partition, centred on H_CD. -/
def EngCfg.cdTaps (c : EngCfg) (d : Int) : List Cx :=
  let n := 512 * c.partitions
  let h := (dft (-1) n ((List.range n).map fun k => c.cdResponse d (c.binFreq n k))).map (Cx.scale (1 / (n : Rat)))
  h.drop (n - c.cdDelay) ++ h.take (n - c.cdDelay)

/-- One FFT block of samples: 1 024 samples of which 512 are new; block j ends with sample 512 (j + 1) - 1. -/
def fftBlock (samples : List Cx) (j : Nat) : List Cx :=
  (List.range 1024).map fun i => if 512 * (j + 1) + i < 1024 then Cx.zero else (samples[512 * (j + 1) + i - 1024]?).getD Cx.zero

/-- The 512 output samples of FFT block j of the uniformly partitioned overlap-save filter of a dispersion. -/
def EngCfg.cdBlock (c : EngCfg) (d : Int) (samples : List Cx) (j : Nat) : List Cx :=
  let taps := c.cdTaps d
  let part := fun p => dft 1 1024 (((taps.drop (512 * p)).take 512) ++ List.replicate 512 Cx.zero)
  let acc := (List.range c.partitions).map fun p =>
    if p ≤ j then ((part p).zip (dft 1 1024 (fftBlock samples (j - p)))).map fun x => x.1.mul x.2 else List.replicate 1024 Cx.zero
  let sum := (List.range 1024).map fun k => Cx.sum (acc.map fun l => (l[k]?).getD Cx.zero)
  ((dft (-1) 1024 sum).map (Cx.scale (1 / 1024))).drop 512

/-- The output of FFT block j, `after` blocks after a swap changed CD_SET from one dispersion to another: a cross-fade of 16 blocks
(R255). -/
def EngCfg.cdFaded (c : EngCfg) (old new : Int) (after j : Nat) (samples : List Cx) : List Cx :=
  let w := fadeWeight after
  ((c.cdBlock old samples j).zip (c.cdBlock new samples j)).map fun x => (Cx.scale (1 - w) x.1).add (Cx.scale w x.2)

/-- A signed byte. -/
def sbyte (b : Byte) : Int := b.toInt

/-- One lane of the ADC codes of consecutive instants, freed of its skew and gain (R250); `front` holds the corrections in force. -/
def EngCfg.laneSamples (c : EngCfg) (front : Tab Int) (codes : List Byte) (lane : Nat) : List Rat :=
  let raw := (List.range (codes.length / 4)).map fun i => ((sbyte ((codes[4 * i + lane]?).getD 0) : Int) : Rat)
  let skew := tgetD front (4 + lane) 0
  let gain := tgetD front (8 + lane) 0
  let moved := if skew = 0 then raw
    else (List.range raw.length).map fun i => Config.interpolate ((skew : Rat) / 10000 * c.sampleRate) raw i
  if gain = 0 then moved else moved.map fun x => fromDb ((gain : Rat) / 100) * x

/-- A Q lane freed of the quadrature error of its pair, in 0.1 degree (R250). -/
def squareUp (err : Int) (i q : List Rat) : List Rat :=
  if err = 0 then q
  else (i.zip q).map fun x => (x.2 - x.1 * cosPi (1 / 2 - (err : Rat) / 1800)) / cosPi ((err : Rat) / 1800)

/-- The two polarisations of the ADC codes of consecutive instants, XI, XQ, YI, YQ each, after the front-end correction; a mirrored lane
pair has its Q lane inverted (R250, R251). -/
def EngCfg.adcSamples (c : EngCfg) (front : Tab Int) (mirrorX mirrorY : Bool) (codes : List Byte) : List Cx × List Cx :=
  let l := c.laneSamples front codes
  let pair := fun (m : Bool) (k : Nat) =>
    ((l (2 * k)).zip (squareUp (tgetD front (12 + k) 0) (l (2 * k)) (l (2 * k + 1)))).map fun x => (⟨x.1, if m then -x.2 else x.2⟩ : Cx)
  (pair mirrorX 0, pair mirrorY 1)

/-- A value as a signed 16-bit field, saturated. -/
def sat16 (x : Rat) : List Byte := leS 2 (max (-32768) (min 32767 (roundQ x)))

/-- The output of one FFT block, `no` counted from the engine's enable and `j` from the beginning of `l`. With `fade` a swap changed CD_SET
from another dispersion: blocks whose first sample lies before that of the swap's chamber see the old set, the next 16 cross-fade, and later
ones see the new set alone (R255). -/
def EngCfg.cdOut (c : EngCfg) (d : Int) (fade : Option (Int × Nat)) (no j : Nat) (l : List Cx) : List Cx :=
  match fade with
  | none => c.cdBlock d l j
  | some (old, first) =>
    if 512 * no < first then c.cdBlock old l j
    else if no - ceilDiv first 512 < 16 then c.cdFaded old d (no - ceilDiv first 512) j l else c.cdBlock d l j

/-- New codes, from sample `first` on, join those that the equaliser needs. A gap in the samples, as after a loss of light, starts it
afresh. -/
def RxDsp.addCodes (d : RxDsp) (first : Nat) (new : List Byte) : RxDsp :=
  if d.codes ≠ [] ∧ d.codesAt + d.codes.length / 4 = first then { d with codes := d.codes ++ new }
  else
    let at_ := first / 512 * 512
    { d with codes := zeros (4 * (first - at_)) ++ new, codesAt := at_, flatX := [], flatY := [], flatAt := at_, phase := ((at_ + 64 : Nat) : Rat) }

/-- The equaliser's output grows by the FFT blocks that are whole; codes that no later block needs go. Answers the new output too. -/
def RxPath.cdStep (r : RxPath) (c : EngCfg) (dset : Int) (fade : Option (Int × Nat)) : RxPath × List Cx × List Cx :=
  let d := r.dsp
  let s := c.adcSamples r.front r.mirrorX r.mirrorY d.codes
  let base := d.codesAt / 512
  let next := (d.flatAt + d.flatX.length) / 512
  let last := (d.codesAt + d.codes.length / 4) / 512
  let run := fun (l : List Cx) => (List.range (last - next)).flatMap fun i => c.cdOut dset fade (next + i) (next + i - base) l
  let x := run s.1
  let y := run s.2
  let drop := last - c.partitions - base
  ({ r with dsp := { d with
      flatX := d.flatX ++ x, flatY := d.flatY ++ y, codes := d.codes.drop (2048 * drop), codesAt := d.codesAt + 512 * drop } }, x, y)

/-- TAP 2 of one instant (R283): one ADC code is 64 units. -/
def tapTwo (x y : Cx) : List Byte := sat16 (64 * x.re) ++ sat16 (64 * x.im) ++ sat16 (64 * y.re) ++ sat16 (64 * y.im)

/-! Timing recovery and the subcarrier demultiplexer (R238, R260). -/

/-- Lane samples from one half-symbol sample of the far end's grid to the next, at a relative clock. -/
def EngCfg.halfStep (c : EngCfg) (clock : Rat) : Rat := 5 / 8 * (c.carriers : Rat) / (1 + clock)

/-- A subcarrier's half-symbol sample at the grid's next instant: the samples about it, moved down by the subcarrier's frequency and the
carrier offset, through the band filter. -/
def EngCfg.demux (c : EngCfg) (d : RxDsp) (flat : List Cx) (sub : Nat) : Cx :=
  let first := d.phase.floor - 64
  let moved := (List.range 128).map fun (i : Nat) =>
    let m := first + i
    (Cx.turn (-(2 * (c.freqOf sub + d.freq) * (m : Rat) / c.sampleRate))).mul ((flat[(m - d.flatAt).toNat]?).getD Cx.zero)
  let v := Config.bandpass c.rollMax c.carriers (moved.map fun z => (z.re, z.im)) (d.phase - (d.phase.floor : Rat))
  ⟨v.1, v.2⟩

/-- Every subcarrier of both polarisations is resampled to the grid as far as the equaliser's output reaches, in at most `k` instants. -/
def EngCfg.resample (c : EngCfg) : Nat → RxDsp → RxDsp
  | 0, d => d
  | k + 1, d =>
    if ((d.flatAt + d.flatX.length : Nat) : Int) ≤ d.phase.floor + 64 then d
    else
      c.resample k { d with
        phase := d.phase + c.halfStep d.clock
        subs := ((List.range d.subs.length).zip d.subs).map fun u =>
          { u.2 with x := u.2.x ++ [c.demux d d.flatX u.1], y := u.2.y ++ [c.demux d d.flatY u.1] } }

/-- The largest relative clock that timing recovery holds: 200 ppm (R260). -/
def clockLimit : Rat := 1 / 5000

/-- A number within ±b. -/
def withinQ (b x : Rat) : Rat := if x < -b then -b else if b < x then b else x

/-- One batch of resampling: the output that no later sample needs goes, and timing recovery corrects its phase and clock from the first
subcarrier. -/
def EngCfg.recoverTiming (c : EngCfg) (d : RxDsp) : RxDsp :=
  let d := c.resample (2 * d.flatX.length) d
  let drop := (d.phase.floor - 64 - d.flatAt).toNat
  let h := Config.timingError (((d.subs.head?).map fun u => u.x.map fun z => (z.re, z.im)).getD [])
  { d with
    flatX := d.flatX.drop drop, flatY := d.flatY.drop drop, flatAt := d.flatAt + drop
    phase := d.phase + withinQ (1 / 2) h.1, clock := withinQ clockLimit (d.clock + h.2) }

/-! The polarisation equaliser (R258). -/

/-- A butterfly that passes each polarisation through, where acquisition begins (DESIGN CHOICE, assumption 78). -/
def Butterfly.start : Butterfly :=
  let unit := (List.range 33).map fun i => if i = 16 then ⟨1, 0⟩ else Cx.zero
  let none_ := List.replicate 33 Cx.zero
  { xx := unit, xy := none_, yx := none_, yy := unit }

/-- The receive stages at the begin of an engine's symbol grid. -/
def RxDsp.start (carriers : Nat) : RxDsp := { subs := List.replicate carriers { taps := Butterfly.start } }

/-- A filter over 33 half-symbol samples. -/
def firOut (taps samples : List Cx) : Cx := Cx.sum ((taps.zip samples).map fun x => x.1.mul x.2)

/-- One symbol in both polarisations. -/
def Butterfly.out (b : Butterfly) (x y : List Cx) : Cx × Cx :=
  ((firOut b.xx x).add (firOut b.xy y), (firOut b.yx x).add (firOut b.yy y))

/-- The taps moved against an error: each by the step size times the error times the conjugate sample. -/
def moveTaps (taps samples : List Cx) (e : Cx) : List Cx := (taps.zip samples).map fun x => x.1.add (Cx.scale Config.eqStep (e.mul x.2.conj))

/-- The data point of an entropy nearest to a symbol, in each part on its own. -/
def nearData (k : Nat) (z : Cx) : Cx :=
  let g := 1 / rootOf (dataPower k)
  let part := fun (v : Rat) =>
    let m := if v < 0 then -v else v
    let a := (alphabet k).foldl (fun (best : Rat) (a : Nat) =>
      let u := (a : Rat) * g
      if (u - m) * (u - m) < (best - m) * (best - m) then u else best) g
    if v < 0 then -a else a
  ⟨part z.re, part z.im⟩

/-- One adaptation of the butterfly against the errors of a symbol (R258; the update laws are the textbook ones, PRESUMED, assumption
78). -/
def Butterfly.moved (b : Butterfly) (x y : List Cx) (ex ey : Cx) : Butterfly :=
  { xx := moveTaps b.xx x ex, xy := moveTaps b.xy y ex, yx := moveTaps b.yx x ey, yy := moveTaps b.yy y ey }

/-- The blind error during acquisition, against power 1. -/
def blindError (z : Cx) : Cx := Cx.scale (1 - z.power) z

/-- A rotation at unit length. -/
def Cx.unit (z : Cx) : Cx := Cx.scale (1 / rootOf z.power) z

/-- The error of a symbol, rotated by `turn`, against the point that it stands for. -/
def aidedError (turn point z : Cx) : Cx := (turn.unit.mul point).add (Cx.scale (-1) z)

/-! Carrier recovery (R262). -/

/-- The rotation that a pilot shows against the one sent. -/
def pilotTurn (sent z : Cx) : Cx := z.mul sent.conj

/-- A symbol freed of the phase interpolated between the rotations of the pilots before and behind it, `i` symbols after the first one. -/
def derotate (before behind : Cx) (i : Nat) (z : Cx) : Cx :=
  z.mul ((Cx.scale (1 - (i : Rat) / 64) before).add (Cx.scale ((i : Rat) / 64) behind)).unit.conj

/-- The magnitude of a number. -/
def absQ (x : Rat) : Rat := if x < 0 then -x else x

/-- How many quarter turns lie nearest to the turn from one rotation to another: a phase slip where it is not 0. -/
def quartersOf (before behind : Cx) : Nat :=
  let d := behind.mul before.conj
  if absQ d.im ≤ absQ d.re then (if d.re < 0 then 2 else 0) else (if d.im < 0 then 3 else 1)

/-- The rotation behind as the data symbols before it are decoded: without the slip (R262). -/
def beforeSlip (before behind : Cx) : Cx := behind.mul (Cx.turn (-((quartersOf before behind : Nat) : Rat) / 2))

/-- The symbols of a block in one polarisation, its pilot first, freed of their phase: interpolated between the pilots on either side, then
refined blindly (R262). -/
def recoverPhase (k : Nat) (before behind : Cx) (l : List Cx) : List Cx :=
  let l := ((List.range l.length).zip l).map fun z => derotate before (beforeSlip before behind) z.1 z.2
  ((List.range l.length).zip l).map fun z => z.2.mul (Cx.turn (-(Config.blindPhase k z.1 (l.map fun v => (v.re, v.im)))))

/-- A pilot arrives: the block before it is whole, its data points reach the demapper, its pilot's error counts for the SNR (R270), and the
pilot drives the next tap update. Answers the block's symbols and the number of phase slips. -/
def SubRx.takePilot (u : SubRx) (k : Nat) (x y : List Cx) (z : Cx × Cx) : SubRx × List (Cx × Cx) × Nat :=
  let px := pilot u.regs.1
  let py := pilot u.regs.2
  let now : Cx × Cx := (pilotTurn px.1 z.1, pilotTurn py.1 z.2)
  let next := { u with
    regs := (px.2, py.2), sent := some (px.1, py.1), turns := now, block := [z]
    aided := some (x, y, aidedError now.1 px.1 z.1, aidedError now.2 py.1 z.2) }
  match u.sent with
  | none => (next, [], 0)
  | some old =>
    let bx := recoverPhase k u.turns.1 now.1 (u.block.map Prod.fst)
    let by_ := recoverPhase k u.turns.2 now.2 (u.block.map Prod.snd)
    let err := ((bx.headD Cx.zero).add (Cx.scale (-1) old.1)).power + ((by_.headD Cx.zero).add (Cx.scale (-1) old.2)).power
    ({ next with
        pointX := u.pointX ++ bx.drop 1, pointY := u.pointY ++ by_.drop 1
        errSum := u.errSum + err, errN := u.errN + 2, noise := (u.errSum + err) / ((u.errN + 2 : Nat) : Rat) },
     bx.zip by_, bit (quartersOf u.turns.1 now.1 != 0) + bit (quartersOf u.turns.2 now.2 != 0))

/-- A data symbol arrives; the first one of a block takes part in the block's tap update, decided to the nearest point (R258). -/
def SubRx.takeData (u : SubRx) (k : Nat) (x y : List Cx) (z : Cx × Cx) : SubRx :=
  let u := if u.sent.isSome then { u with block := u.block ++ [z] } else u
  match u.aided with
  | none => u
  | some a =>
    let err := fun (turn z : Cx) => aidedError turn (nearData k (z.mul turn.unit.conj)) z
    { u with aided := none, taps := (u.taps.moved a.1 a.2.1 a.2.2.1 a.2.2.2).moved x y (err u.turns.1 z.1) (err u.turns.2 z.2) }

/-- One symbol of a subcarrier through the polarisation equaliser and, in lock, carrier recovery. Before RX_LOCK the taps adapt blindly once
for every 64 symbols. -/
def SubRx.step (lock : Bool) (k : Nat) (u : SubRx) : SubRx × List (Cx × Cx) × Nat :=
  let x := u.x.take 33
  let y := u.y.take 33
  let z := u.taps.out x y
  let v := { u with x := u.x.drop 2, y := u.y.drop 2, place := (u.place + 1) % 64 }
  if !lock then ((if u.place = 0 then { v with taps := u.taps.moved x y (blindError z.1) (blindError z.2) } else v), [], 0)
  else if u.place = 0 then v.takePilot k x y z
  else (v.takeData k x y z, [], 0)

/-- All the symbols that a subcarrier's samples give, at most `n`: answers its blocks that became whole, and the phase slips. -/
def SubRx.run (lock : Bool) (k : Nat) : Nat → SubRx → SubRx × List (List (Cx × Cx)) × Nat
  | 0, u => (u, [], 0)
  | n + 1, u =>
    if u.x.length < 33 then (u, [], 0)
    else
      let a := u.step lock k
      let r := SubRx.run lock k n a.1
      (r.1, (if a.2.1.isEmpty then r.2.1 else a.2.1 :: r.2.1), a.2.2 + r.2.2)

/-- TAP 3 of one symbol (R283): unit power 4 096. -/
def tapThree (z : Cx × Cx) : List Byte := [z.1.re, z.1.im, z.2.re, z.2.im].flatMap fun v => sat16 (4096 * v)

/-! The demapper (R263) and the collector (R264). -/

/-- The smallest of a list of numbers, none where it is empty. -/
def minRat : List Rat → Option Rat
  | [] => none
  | x :: xs => match minRat xs with | some y => some (if x < y then x else y) | none => some x

/-- The 128 real values of a half-frame: real and imaginary parts in turn. -/
def partsOf (points : List Cx) : List Rat := points.flatMap fun z => [z.re, z.im]

/-- The squared distance of a value from an amplitude with a sign. -/
def distOf (g v : Rat) (a : Nat) (neg : Bool) : Rat :=
  let u := v - (if neg then -1 else 1) * g * (a : Rat)
  u * u

/-- The squared distance of a value from an amplitude with the better sign. -/
def distBest (g v : Rat) (a : Nat) : Rat := if distOf g v a true < distOf g v a false then distOf g v a true else distOf g v a false

/-- The smallest distance of a half-frame from the points that carry value `bit` in bit `j` of its 4 x k bits. -/
def bestWith (k : Nat) (vals : List Rat) (j bit : Nat) : Option Rat :=
  let g := 1 / rootOf (dataPower k)
  let n := 4 * k - 128
  let e := energyMax k
  let seqs := ((List.range (2 ^ n)).filter fun m => j < 128 || m / 2 ^ (n - 1 - (j - 128)) % 2 == bit).map (sphereSeq (alphabet k) 128 e)
  minRat (seqs.map fun amps => ((List.range 128).map fun i =>
    let v := (vals[i]?).getD 0
    let a := (amps[i]?).getD 1
    if i = j then distOf g v a (bit == 1) else distBest g v a).foldl (· + ·) 0)

/-- A log-likelihood ratio from the squared distances to the nearest points that carry 0 and 1, positive where 0 is likelier (DESIGN CHOICE,
assumption 78), as a 6-bit signed value. -/
def softOf (noise zero one : Rat) : Int :=
  let v := if noise ≤ 0 then 1 / ((2 ^ 60 : Nat) : Rat) else noise
  max (-32) (min 31 (roundQ ((one - zero) / v / Config.llrStep)))

/-- The max-log LLR of bit j of a half-frame. -/
def llrOf (k : Nat) (noise : Rat) (vals : List Rat) (j : Nat) : Int :=
  match bestWith k vals j 0, bestWith k vals j 1 with
  | some a, some b => softOf noise a b
  | _, _ => 0

/-- The soft values of a half-frame of an entropy (R263). -/
def softBits (k : Nat) (noise : Rat) (points : List Cx) : List Int := (List.range (4 * k)).map (llrOf k noise (partsOf points))

end Sys2Proof.Machine
end

