-- ==== Sys2Proof/Machine/RxChain.lean ====
section
/-!
DEFINITION. The receive stages as a chain (Table 7.1): each batch of the converters' input levels passes them all in order. The collector
(R264, R265), the estimates (R277) and what a sample capture records (R282, R283).
-/
namespace Sys2Proof.Machine

/-! The collector (R264, R265). -/

/-- The chamber boundary at which the receive profile changes, as a place of the decoded information stream, and the marker of the last
frame before it (R164, R265). -/
def RxPath.edge (r : RxPath) (c : EngCfg) : Option (Nat × Nat) :=
  match r.switchCh, r.expect with
  | some cc, some (ch, pos) =>
    if ch = cc then some (pos, pos - c.frameBitsAt r.oldProf (chSub ch 1))
    else if chSub cc 1 = ch then some (pos + c.frameBitsAt r.oldProf ch, pos) else none
  | _, _ => none

/-- Where the information bits of the next codeword end: k bits on, or at the boundary of a profile change, where the last codeword of the
old profile is shortened (R164). -/
def RxPath.codewordEnd (r : RxPath) (c : EngCfg) : Nat :=
  let whole := r.cwAt + codeK c.code
  match r.edge c with
  | some x => if r.cwAt < x.1 ∧ x.1 < whole then x.1 else whole
  | none => whole

/-- Coded bits of the next codeword: one shortened at a profile change carries only the bits that it has (R164). -/
def RxPath.codedBits (r : RxPath) (c : EngCfg) : Nat := codeN c.code - (codeK c.code - (r.codewordEnd c - r.cwAt))

/-- The coded bit of an information bit of the same profile, from the begin of the next codeword. -/
def RxPath.codedOf (r : RxPath) (c : EngCfg) (info : Nat) : Nat :=
  let k := codeK c.code
  let n := codeN c.code
  if r.cwAt ≤ info then r.dsp.codedAt + (info - r.cwAt) / k * n + (info - r.cwAt) % k
  else
    let q := ceilDiv (r.cwAt - info) k
    r.dsp.codedAt - q * n + (info + q * k - r.cwAt)

/-- The data symbol that carries a bit of a shaping frame (R206): that of its amplitude's sign, or the half-frame's first one for a bit of the
index. -/
def symbolOf (k first bit : Nat) : Nat := first + (if bit % (4 * k) < 128 then bit % (4 * k) / 2 else 0)

/-- The first data symbol of the new profile (R265): that of the first symbol block which left the sender at or after the first boundary of
Cc plus 410 ns. Blocks are counted from the one with the first symbol of the marker of frame Cc - 1, which left TX_DELAY, in
quarter-nanoseconds, after the start of Cc - 1. -/
def RxPath.locate (r : RxPath) (c : EngCfg) : Option Nat :=
  match r.edge c with
  | none => none
  | some x =>
    let bit := r.codedOf c x.2
    (r.dsp.placed.find? fun f => decide (f.1 ≤ bit) && decide (bit < f.1 + f.2.1)).map fun f =>
      let m := symbolOf (f.2.1 / 8) f.2.2 (bit - f.1)
      63 * (m / 63 + ceilDiv (6760 * c.symRate + 40 * c.subs * (m % 63 + 1) - r.farTxDelay * c.symRate) (2560 * max c.subs 1))

/-- Is a data symbol demapped at the old entropies (R265)? -/
def RxPath.beforeSwitch (r : RxPath) (m : Nat) : Bool :=
  r.switchCh.isSome && (match r.dsp.switchAt with | some x => decide (m < x) | none => r.expect.isSome)

/-- The collector takes the next shaping frame in the order of R205, demapped at the entropy that was in force and the current noise
variance; none where its points have not all come. -/
def RxPath.pull (r : RxPath) : Option RxPath :=
  let d := r.dsp
  let s := argMin (d.subs.map SubRx.next)
  match d.subs[s]? with
  | none => none
  | some u =>
    let px := (u.pointX.drop (u.next - u.pointAt)).take 64
    let py := (u.pointY.drop (u.next - u.pointAt)).take 64
    if px.length < 64 then none
    else
      let k := ((if r.beforeSwitch u.next then r.oldProf else r.prof)[s]?).getD 32
      let v := { u with
        next := u.next + 64, pointAt := u.next + 64
        pointX := u.pointX.drop (u.next + 64 - u.pointAt), pointY := u.pointY.drop (u.next + 64 - u.pointAt) }
      some { r with dsp := { d with
        subs := d.subs.set s v
        placed := ((d.softAt + d.soft.length, 8 * k, u.next) :: d.placed).take 65536
        soft := d.soft ++ softBits k u.noise px ++ softBits k u.noise py } }

/-- The collector takes shaping frames until it holds the soft values up to a coded bit, at most `n` of them. -/
def RxPath.pullTo (upTo : Nat) : Nat → RxPath → RxPath
  | 0, r => r
  | n + 1, r =>
    if upTo ≤ r.dsp.softAt + r.dsp.soft.length then r
    else match r.pull with
      | some r' => RxPath.pullTo upTo n r'
      | none => r

/-- After the last codeword of an old profile the rest of its shaping frame and the fill frames up to the new profile are discarded (R209,
R264); where a subcarrier's data ran beyond, the new profile begins with the next symbol block (assumption 87). Answers the number of fill
frames. -/
def RxDsp.dropFill (d : RxDsp) (x : Nat) : RxDsp × Nat :=
  ({ d with
      soft := [], softAt := d.codedAt
      subs := d.subs.map fun u => { u with next := max x (63 * ceilDiv u.next 63) } },
   hSum (d.subs.map fun u => ceilDiv (x - u.next) 64))

/-- The codeword of FEC_CODEWORD_DECODE leaves the collector, which takes what of it has not come yet. Answers the number of fill frames that
follow it. -/
def RxPath.takeCodeword (r : RxPath) (c : EngCfg) : RxPath × Nat :=
  let r := match r.dsp.switchAt with
    | some _ => r
    | none => { r with dsp := { r.dsp with switchAt := r.locate c } }
  let upTo := r.dsp.codedAt + r.codedBits c
  let last := (r.edge c).map Prod.fst == some (r.codewordEnd c)
  let r := RxPath.pullTo upTo (codeN c.code) r
  let d := r.dsp
  let r := { r with
    cwAt := r.codewordEnd c
    dsp := { d with codedAt := upTo, softAt := min upTo (d.softAt + d.soft.length), soft := d.soft.drop (upTo - d.softAt) } }
  match last, r.dsp.switchAt with
  | true, some x => let f := r.dsp.dropFill x; ({ r with dsp := f.1 }, f.2)
  | _, _ => (r, 0)

/-! Compatibility mode (R198, R240): the stages of a single carrier with 16QAM; the agreement's layout is opaque (assumption 80). -/

/-- A 16QAM amplitude of two bits, Gray coded (PRESUMED, assumption 80). -/
def qamLevel (x : Nat) : Int := match x with | 0 => -3 | 1 => -1 | 3 => 1 | _ => 3

/-- The 16QAM point of four bits, at mean power 1: two bits of the real part, then two of the imaginary part. -/
def qamPoint (x : Nat) : Cx := Cx.scale (1 / rootOf 10) ⟨(qamLevel (x / 4 % 4) : Rat), (qamLevel (x % 4) : Rat)⟩

/-- The two soft values of one part of a 16QAM point. -/
def qamSoft (noise v : Rat) : List Int :=
  let best := fun (j b : Nat) => (minRat (((List.range 4).filter fun x => x / 2 ^ j % 2 == b).map fun x =>
    (v - (qamLevel x : Rat) / rootOf 10) * (v - (qamLevel x : Rat) / rootOf 10))).getD 0
  [softOf noise (best 1 0) (best 1 1), softOf noise (best 0 0) (best 0 1)]

/-- The eight soft values of a symbol: four of X, then four of Y. -/
def qamBits (noise : Rat) (z : Cx × Cx) : List Int :=
  qamSoft noise z.1.re ++ qamSoft noise z.1.im ++ qamSoft noise z.2.re ++ qamSoft noise z.2.im

/-- One symbol of compatibility mode in lock: where the agreement puts a known symbol it shows the rotation and drives the taps; elsewhere
the symbol is demapped. -/
def SubRx.zrStep (u : SubRx) : SubRx × List Int :=
  let x := u.x.take 33
  let y := u.y.take 33
  let z := u.taps.out x y
  let v := { u with x := u.x.drop 2, y := u.y.drop 2, place := u.place + 1 }
  match Config.zrPilot u.place with
  | some p =>
    let px : Cx := ⟨p.1.1, p.1.2⟩
    let py : Cx := ⟨p.2.1, p.2.2⟩
    let err := ((z.1.mul u.turns.1.unit.conj).add (Cx.scale (-1) px)).power + ((z.2.mul u.turns.2.unit.conj).add (Cx.scale (-1) py)).power
    let turns := (pilotTurn px z.1, pilotTurn py z.2)
    ({ v with
        turns := turns, taps := u.taps.moved x y (aidedError turns.1 px z.1) (aidedError turns.2 py z.2)
        errSum := u.errSum + err, errN := u.errN + 2, noise := (u.errSum + err) / ((u.errN + 2 : Nat) : Rat) }, [])
  | none => (v, qamBits u.noise (z.1.mul u.turns.1.unit.conj, z.2.mul u.turns.2.unit.conj))

/-- All the symbols that the carrier's samples give, at most `n`. -/
def SubRx.zrRun : Nat → SubRx → SubRx × List Int
  | 0, u => (u, [])
  | n + 1, u =>
    if u.x.length < 33 then (u, [])
    else
      let a := u.zrStep
      let r := SubRx.zrRun n a.1
      (r.1, a.2 ++ r.2)

/-! Estimates (R277). -/

/-- The filters of the butterflies as plain numbers. -/
def tapsOf (l : List SubRx) : List (List (List (Rat × Rat))) :=
  l.map fun u => [u.taps.xx, u.taps.xy, u.taps.yx, u.taps.yy].map fun f => f.map fun z => (z.re, z.im)

/-- An average takes a value: where its time is over, it gives the mean, or the peak, and starts again. -/
def Avg.take (a : Avg) (mono period : Nat) (peak : Bool) (v : Rat) : Avg × Option Rat :=
  let b : Avg := { a with sum := a.sum + v, peak := if a.n = 0 ∨ a.peak < v then v else a.peak, n := a.n + 1 }
  if a.since + period ≤ mono then ({ since := mono }, some (if peak then b.peak else b.sum / (b.n : Rat))) else (b, none)

/-- A value of an estimate within its range, in the unit of Table 7.6. -/
def EngCfg.clampCd (c : EngCfg) (d : Int) : Int := max (-(c.dspan : Int)) (min (c.dspan : Int) d)

/-- An estimate within its range (Table 7.6). -/
def EngCfg.estRange (c : EngCfg) (k : Nat) (x : Int) : Int :=
  let within := fun (lo hi : Int) => max lo (min hi x)
  match k with
  | 0 => c.clampCd x
  | 1 => within 0 2000
  | 2 => within 0 100
  | 3 => within 0 10000
  | 5 => within (-5000) 5000
  | _ => within (-200000) 200000

/-- The averaging time of an estimate in quarter-nanoseconds (Table 7.6). -/
def estPeriod (k : Nat) : Nat := if k = 0 then 10 * msQ else if k = 5 then msQ else secQ

/-- D_set, the dispersion of the active set. -/
def RxPath.dSet (r : RxPath) : Int := if r.cdActive = 0 then r.cdSets.1 else r.cdSets.2

/-- A value of estimate `k` arrives. A new D_est (R256) is held, as it was found, against the thresholds of R256 and R257. -/
def RxPath.estimate (r : RxPath) (c : EngCfg) (mono k : Nat) (v : Rat) : RxPath :=
  let a := (tgetD r.dsp.avgs k { since := mono }).take mono (estPeriod k) (k == 3) v
  let r := { r with dsp := { r.dsp with avgs := tput r.dsp.avgs k a.1 } }
  match a.2 with
  | none => r
  | some x =>
    let r := { r with est := tput r.est k (c.estRange k (roundQ x)) }
    if k ≠ 0 then r
    else
      let d := roundQ x
      let far := decide (4 * (d - r.dSet).natAbs > c.rres)
      let near := decide (100 * d.natAbs ≤ 98 * c.dspan)
      { r with
        dEst := some d
        dsp := { r.dsp with
          cdFar := if far then some (r.dsp.cdFar.getD mono) else none, cdNear := if near then some (r.dsp.cdNear.getD mono) else none } }

/-- The estimates that a batch brings: from the taps before and after it, the carrier offset and the recovered clock. -/
def RxPath.estimates (r : RxPath) (c : EngCfg) (mono : Nat) (before : List (List (List (Rat × Rat)))) : RxPath :=
  let v := fun k => Config.tapEstimate k before (tapsOf r.dsp.subs)
  [(0, (r.dSet : Rat) + v 0), (1, v 1), (2, v 2), (3, v 3), (5, 1000 * r.dsp.freq), (6, 1000000000 * r.dsp.clock)].foldl
    (fun (r : RxPath) (x : Nat × Rat) => r.estimate c mono x.1 x.2) r

/-! Captures (R282, R283). -/

/-- The last `n` entries of a list. -/
def lastN {α : Type} (n : Nat) (l : List α) : List α := l.drop (l.length - n)

/-- How many instants a TRIGGER 3 capture records after its event. A TAP 3 capture ends with a whole symbol block, so that it begins with a
pilot (DESIGN CHOICE, assumption 87). -/
def Capture.further (c : Capture) : Nat := if c.tap = 3 then 64 * ceilDiv (c.count - c.pre) 64 else c.count - c.pre

/-- Instants of the tap reach the capture buffer: from the trigger on until COUNT are there, or for TRIGGER 3 as a ring until the event and the
instants that follow it. -/
def Capture.record (c : Capture) (start : Int) (event : Option Int) (new : List (Int × List Byte)) : Capture :=
  if c.trigger ≠ 3 then
    let new := if c.got.isEmpty then new.filter fun x => decide (start ≤ x.1) else new
    { c with got := (c.got ++ new).take c.count }
  else
    let c := { c with stop := c.stop.or event }
    match c.stop with
    | none => { c with got := lastN c.count (c.got ++ new) }
    | some t =>
      let after := fun (x : Int × List Byte) => decide (t ≤ x.1)
      let room := c.further - (c.got.filter after).length
      { c with got := lastN c.count (c.got ++ (new.filter fun x => !(after x)) ++ (new.filter after).take room) }

/-- Has the capture all that it records? -/
def Capture.full (c : Capture) : Bool :=
  if c.trigger ≠ 3 then c.got.length == c.count
  else match c.stop with
    | some t => decide (c.further ≤ (c.got.filter fun x => decide (t ≤ x.1)).length)
    | none => false

/-- A domain time counted from the beginning of an engine's symbol grid, with which its lane samples begin (R242). -/
def State.fromGrid (s : State) (n t : Nat) : Int := (t : Int) - s.chamberStart (s.eng n).tx.gridAt

/-- The event of a TRIGGER 3 capture, if its engine's island has raised it since the capture was accepted. -/
def State.tapEvent (s : State) (n : Nat) (c : Capture) : Option Int :=
  match tget s.log.raised (islEng n * 65536 + c.event) with
  | some t => if c.since ≤ t then some (s.fromGrid n t) else none
  | none => none

/-- Instants of a tap of an engine, each with its time from the beginning of the grid, reach its capture. -/
def State.feedTap (s : State) (n tap sub : Nat) (new : List (Int × List Byte)) : State :=
  match s.captureOf n with
  | none => s
  | some j => match j.work with
    | .capture m c =>
      if c.first.isNone && c.tap == tap && (tap != 3 || c.sub == sub) then
        let start : Int := if c.trigger = 2 then ((chAhead c.chamber (s.eng n).tx.gridAt * chamberQ : Nat) : Int) else s.fromGrid n c.since
        s.modJob j.token fun j => { j with work := .capture m (c.record start (s.tapEvent n c) new) }
      else s
    | _ => s

/-- The time of a lane sample from the beginning of the grid, in quarter-nanoseconds. -/
def EngCfg.sampleTime (c : EngCfg) (x : Rat) : Int := (4 * x / c.sampleRate).floor

/-- CAPTURE_TRIGGER: a capture that has all its instants is ready to be copied. Instants of a ring that were never recorded are free
(assumption 3). -/
def State.captureTrigger (s : State) (n : Nat) : State :=
  match s.captureOf n with
  | none => s
  | some j => match j.work with
    | .capture m c =>
      if c.first.isSome || !c.full then s
      else
        let size := (if c.tap = 1 then 4 else 8) * c.count
        let bytes := c.got.flatMap Prod.snd
        let x := if bytes.length < size then s.freeBytes (size - bytes.length) else ([], s)
        let t := (((c.got.head?).map Prod.fst).getD (c.stop.getD 0)).toNat
        x.2.modJob j.token fun j => { j with work := .capture m { c with
          first := some (chAdd (s.eng n).tx.gridAt (t / chamberQ), t % chamberQ), samples := x.1 ++ bytes } }
    | _ => s

/-! The chain. -/

/-- The ADCs take the levels of the four lanes at consecutive instants, in codes: saturation and its windows are counted by lane (R242). The
latest instant waits for its neighbour. Answers the number of the first sample and the codes. -/
def State.digitise (s : State) (n : Nat) (inputs : List (List Int)) : State × Nat × List Byte :=
  let r := (s.eng n).rx
  let d := r.dsp
  let all := d.adcHeld ++ inputs
  let skip := d.adcHeld.length - 1
  let count := all.length - 1 - skip
  let level := fun (k : Nat) => all.map fun v => (v[k]?).getD 0
  let clamp := fun (k : Nat) => (r.clamps[k]?).getD false
  let bare := fun (k : Nat) => (s.conv n k).degraded
  let codes := (List.range count).map fun i => (List.range 4).map fun k => adcSample (clamp k) (bare k) (level k) (d.adcNo + i) (skip + i)
  let high := (List.range 4).map fun k => ((List.range count).filter fun i =>
    !((bare k).contains ((d.adcNo + i) % 64)) && adcOver (clamp k) (((level k)[skip + i]?).getD 0)).map fun i => d.adcNo + i
  let wins := (List.range 4).map fun k => newWindows ((d.winHit[k]?).getD 0) ((high[k]?).getD [])
  let s : State := (List.range 4).foldl
    (fun (s : State) k => (s.bump (engUnit n 5) 0 k ((high[k]?).getD []).length).bump (engUnit n 5) 0 (4 + k) ((wins[k]?).getD (0, 0)).1) s
  let s := s.modRx n fun r => { r with
    rms := if count = 0 then r.rms else rmsTenths codes.flatten
    dsp := { r.dsp with
      adcNo := d.adcNo + count, adcHeld := all.drop (all.length - 2), winHit := wins.map Prod.snd
      ovrMs := (List.range 4).map fun k => (d.ovrMs[k]?).getD 0 + ((high[k]?).getD []).length } }
  (s, d.adcNo, codes.flatMap fun l => l.map fun x => BitVec.ofInt 8 x)

/-- The dispersion that a cross-fade leaves, and the number of the first lane sample of its swap's chamber (R255). -/
def Engine.cdFade (e : Engine) : Option (Int × Nat) :=
  e.rx.oldSet.map fun x => (x.1, ceilDiv (chAhead x.2 e.tx.gridAt * 16 * e.cfg.rateE4) 1000)

/-- The symbols of the native subcarriers: each goes through its equaliser and carrier recovery; blocks and slips are counted, and the tap of
the symbols is shown block by block, at the time of its pilot. -/
def State.symbolsIn (s : State) (n : Nat) : State :=
  let e := s.eng n
  let d := e.rx.dsp
  let runs := ((List.range d.subs.length).zip d.subs).map fun u => SubRx.run e.rx.lock ((e.rx.prof[u.1]?).getD 32) u.2.x.length u.2
  let blocks := hSum (runs.map fun x => x.2.1.length)
  let s := s.modRx n fun r => { r with dsp := { r.dsp with
    subs := runs.map Prod.fst
    freq := match d.subs.head?, runs.head? with
      | some u, some x => withinQ 5 (d.freq + Config.freqError (u.turns.1.re, u.turns.1.im) (x.1.turns.1.re, x.1.turns.1.im))
      | _, _ => d.freq } }
  let s := (s.bump (engUnit n 1) 0 0 blocks).bump (engUnit n 1) 0 4 (hSum (runs.map fun x => x.2.2))
  ((List.range runs.length).zip runs).foldl
    (fun (s : State) x =>
      let left := (x.2.1.x.length : Nat)
      let step := e.cfg.halfStep d.clock
      let count := x.2.2.1.length
      ((List.range count).zip x.2.2.1).foldl
        (fun (s : State) b =>
          let back : Rat := (left : Rat) - 16 + 128 * ((count - b.1 : Nat) : Rat)
          let t := e.cfg.sampleTime (d.phase - back * step)
          s.feedTap n 3 x.1 (b.2.map fun z => (t, tapThree z)))
        s)
    s

/-- The symbols of compatibility mode: their soft values wait for CFEC, and 64 symbols count as a symbol block. -/
def State.zrSymbolsIn (s : State) (n : Nat) : State :=
  let r := (s.eng n).rx
  if !r.lock then s.symbolsIn n
  else match r.dsp.subs with
    | [] => s
    | u :: _ =>
      let x := SubRx.zrRun u.x.length u
      let s := s.modRx n fun r => { r with dsp := { r.dsp with subs := [x.1], soft := r.dsp.soft ++ x.2 } }
      s.bump (engUnit n 1) 0 0 (x.1.place / 64 - u.place / 64)

/-- One batch passes the stages in order (R238, R240): the ADCs; without light the stages behind hold what they have (R249). A hub's
receiver takes over at the subcarrier demultiplexer. -/
def State.rxBatch (s : State) (n : Nat) (inputs : List (List Int)) : State :=
  let x := s.digitise n inputs
  let s := x.1
  let e := s.eng n
  let c := e.cfg
  let s := s.feedTap n 1 0 (((List.range (x.2.2.length / 4)).map fun (i : Nat) => (c.sampleTime ((x.2.1 + i : Nat) : Rat), (x.2.2.drop (4 * i)).take 4)))
  if e.rx.los then s
  else
    let at_ := e.rx.dsp.addCodes x.2.1 x.2.2
    let y := ({ e.rx with dsp := at_ } : RxPath).cdStep c e.rx.dSet e.cdFade
    let first := at_.flatAt + at_.flatX.length
    let s := s.modRx n fun _ => y.1
    let s := s.feedTap n 2 0 (((List.range y.2.1.length).zip (y.2.1.zip y.2.2)).map fun z =>
      (c.sampleTime ((first + z.1 : Nat) : Rat), tapTwo z.2.1 z.2.2))
    if e.mp.role = 1 ∨ (!e.rx.lock && e.rx.acq.isNone) then
      s.modRx n fun r => { r with dsp := { r.dsp with 
        flatX := [], flatY := [], flatAt := r.dsp.flatAt + r.dsp.flatX.length
        phase := ((r.dsp.flatAt + r.dsp.flatX.length + 64 : Nat) : Rat) } }
    else
      let before := tapsOf e.rx.dsp.subs
      let s := s.modRx n fun r => { r with dsp := c.recoverTiming r.dsp }
      let s := if c.mode = 2 then s.zrSymbolsIn n else s.symbolsIn n
      if e.rx.lock then s.modRx n fun r => r.estimates c s.mono before else s

end Sys2Proof.Machine
end

