-- ==== Sys2Proof/Machine/Swap.lean ====
section
/-!
DEFINITION. The commit phases (R117 to R123): COMMIT_STAGING, TIMED_STEP_ISSUE, PAIRED_COMMIT_DECIDE, TABLE_SWAP and what a swap
changes, and PASSAGE_FREE.
-/
namespace Sys2Proof.Machine

/-! The carrier at a swap (R217, R230 to R232). -/

/-- TX_RAMP_DONE: direction and ramp time, counted in TX_RAMPS_UP or TX_RAMPS_DOWN. -/
def State.rampDone (s : State) (n dir ms : Nat) : State :=
  (s.bump (engUnit n 0) 0 (if dir = 1 then 3 else 4) 1).raise (islEng n) .txRampDone n (le 1 dir ++ le 1 ms)

/-- A CARRIER step acts; on a disabled engine none turns light on (R228). -/
def State.carrierAct (s : State) (n : Nat) (on : Bool) (ms : Nat) : State :=
  if on then (if (s.eng n).tx.enabled then s.modTx n fun t => t.carrierOn s.mono ms else s)
  else
    let r := (s.eng n).tx.carrierOff s.mono ms
    let s := s.modTx n fun _ => r.1
    if r.2 then s.rampDone n 2 0 else s

/-! What the active bank sets (R93). -/

/-- The CD set that a bank names (R254). -/
def Bank.cdSet (b : Bank) : Nat := match b.words.find? fun w => wAction w == 0x23 with | some w => wop w 63 1 | none => 0

/-- The roll-off that a bank names. -/
def Bank.roll (b : Bank) : Option Nat := (b.words.find? fun w => wAction w == 0x24).map fun w => wop w 56 8

/-- The points of shaping frames join those that wait on their subcarriers and polarisations. -/
def queuePoints (prof : List Nat) (pts : Tab (List Cx)) (fs : List ShapingFrame) : Tab (List Cx) :=
  fs.foldl
    (fun pts f =>
      let k := (prof[f.sub]?).getD 32
      tupd (tupd pts (2 * f.sub) [] (· ++ (shape k f.x).map (scaled k))) (2 * f.sub + 1) [] (· ++ (shape k f.y).map (scaled k)))
    pts

/-- The end of an old profile (R164, R209): the last codeword is shortened, the shaping frame under way is completed with zeros, and each
subcarrier sends fill frames up to data symbol `upTo`, the first one of the switch block; data symbols from there on belong to the new
profile. A subcarrier whose data still runs beyond that block completes its shaping frame, and its new profile begins with the first symbol
block after it (DESIGN CHOICE, assumption 87: no bit of frame Cc - 1 is lost). Answers the path and the number of fill frames. -/
def TxPath.finish (t : TxPath) (code upTo : Nat) : TxPath × Nat :=
  let b := t.coded.append (shortened code t.info)
  let d := deal t.prof (b.len / 256 + 1) t.next b
  let s := argMin d.2.1
  let k := (t.prof[s]?).getD 32
  let tail := d.2.2.padTo (8 * k)
  let last := deal t.prof 1 d.2.1 (if d.2.2.len = 0 then {} else tail)
  let starts := (List.range t.prof.length).map fun i => max upTo (63 * ceilDiv ((last.2.1[i]?).getD 0) 63)
  let fills := ((List.range t.prof.length).map fun i =>
    fillFrames i ((t.prof[i]?).getD 32) ((last.2.1[i]?).getD 0) ((starts[i]?).getD 0))
  let pts := queuePoints t.prof t.points (d.1 ++ last.1 ++ fills.flatten)
  let ends := (List.range t.prof.length).map fun i => ((last.2.1[i]?).getD 0) + 64 * ((fills[i]?).getD []).length
  ({ t with
      info := {}, coded := {}, next := starts
      points := tmapv pts fun i l => l.take (l.length - (((ends[i / 2]?).getD 0) - (starts[i / 2]?).getD 0)) },
   fills.flatten.length)

/-- Chambers from the beginning of an engine's symbol grid to a chamber. -/
def State.gridCh (s : State) (n ch : Nat) : Nat := chAhead ch (s.eng n).tx.gridAt

/-- A change of one direction's profile, with the counters of R209 and R265. On transmit the old profile ends in fill frames up to the
first symbol block that leaves at or after the chamber's start plus 410 ns, and TX_DELAY is that of the new one. -/
def State.setProfile (s : State) (n : Nat) (rx : Bool) (prof : List Nat) : State :=
  let e := s.eng n
  let old := if rx then e.rx.prof else e.tx.prof
  if prof = old then s
  else
    let change := !old.isEmpty && !prof.isEmpty
    if rx then
      let s := s.modRx n fun r => { r with
        prof := prof, oldProf := r.prof, switchCh := if change then some s.chamber else none, dsp := { r.dsp with switchAt := none } }
      if change then s.bump (engUnit n 1) 0 6 1 else s
    else if !change then s.modTx n fun t => { t with prof := prof }
    else if e.mp.role = 2 then (s.modTx n fun t => { t with prof := prof }).bump (engUnit n 0) 0 2 1
    else
      let g := s.gridCh n s.chamber
      let block := e.cfg.switchBlock g
      let f := e.tx.finish e.cfg.code (63 * block)
      let first := f.1.next.foldl min (f.1.next.headD 0)
      let s := s.modTx n fun _ => { f.1 with prof := prof, txDelay := e.cfg.delayOf g (first / 63) % 2 ^ 20 }
      (s.bump (engUnit n 0) 0 2 1).bump (engUnit n 0) 0 1 f.2

/-- The active roll-off: that of the PULSE step, or what ENGINE_CONFIG gave where no step names it (R93, R222). A change on a running
engine begins the cross-fade of R223. -/
def State.setRoll (s : State) (n roll : Nat) : State :=
  let e := s.eng n
  if e.tx.roll = roll then s
  else if !e.tx.enabled ∨ e.tx.roll = 0 then s.modTx n fun t => { t with roll := roll }
  else s.modTx n fun t => { t with roll := roll, oldRoll := t.roll, fadeAt := some (e.cfg.switchBlock (s.gridCh n s.chamber)) }

/-- A swap that changes CD_SET names another set, to which the equaliser cross-fades (R255); while the receive path acquires, the current
values go with it (R254). -/
def State.setCd (s : State) (n set : Nat) : State :=
  s.modRx n fun r =>
    if r.cdActive = set then r
    else
      let cur := if r.cdActive = 0 then r.cdSets.1 else r.cdSets.2
      let sets := if r.acq.isSome then (if set = 0 then (cur, r.cdSets.2) else (r.cdSets.1, cur)) else r.cdSets
      { r with cdActive := set, cdSets := sets, oldSet := some (cur, s.chamber) }

/-- The settings of the new active bank reach an engine. One that is disabled and ramps its carrier down keeps what it sends and receives
with until its pipeline stops (R217). -/
def State.loadEngine (s : State) (n : Nat) (old : Bank) : State :=
  let b := s.bank (islEng n)
  let c := (s.eng n).cfg
  let s :=
    if !(s.eng n).tx.enabled && (s.eng n).tx.lit then s
    else
      let s := s.setProfile n false (b.profile n false c)
      let s := s.setProfile n true (b.profile n true c)
      let s := s.setCd n b.cdSet
      s.setRoll n (b.roll.getD (if c.configured then c.roll else 0))
  let raw := b.raw.filter fun w => wAction w == 0x27 && !(old.raw.contains w)
  raw.foldl (fun s w => s.carrierAct n (bitAt (wOperand w) 63) (wop w 56 7)) s

/-! What each change does at its swap. -/

/-- The engines that a commit disables. -/
def Commit.disables (c : Commit) (n : Nat) : Bool := c.changes.contains (.disable n)

/-- A passage starts (R63) or, where its close is due at the same chamber, drains at once (R76). -/
def State.startPassage (s : State) (id cc : Nat) : State :=
  match tget s.pas id with
  | none => s
  | some p =>
    if p.stop = some cc then s.modPas id fun p => { p with st := 3, start := cc }
    else
      let fresh := fun (l : LegSt) => { l with dirty := 0 }
      let s := s.modPas id fun p => { p with st := 2, start := cc, work := fresh p.work, prot := fresh p.prot }
      (s.raise islFab .passageActive id (le 2 p.slots ++ le 4 p.bound)).resignal1 id

/-- Blocks of a passage that wait inside the device for its egress. -/
def Passage.inside (p : Passage) : Nat :=
  p.ready.length + p.sealed.length + (if p.opens then (if p.onProt then p.secretP else p.secret).length else 0)

/-- What an egress engine that is disabled does to a passage: its blocks inside the device are discarded and counted (R75, R77). -/
def Passage.discard (p : Passage) : Passage :=
  { p with
    late := p.late + p.inside, queue := [], queueP := [], secret := [], secretP := [], opened := [], sealed := [], bridgeW := [], bridgeP := [] }

/-- What any other egress sends of it: local-fault ordered sets in place of the blocks inside the device (R77). -/
def Passage.spoil (p : Passage) : Passage :=
  let lf := fun (l : List QBlock) => l.map fun q => { q with lf := true }
  let sub := fun (l : List (Block × Option QBlock)) => l.map fun _ => (Block.localFault, none)
  { p with
    queue := lf p.queue, queueP := lf p.queueP, secret := lf p.secret, secretP := lf p.secretP, opened := lf p.opened
    sealed := sub p.sealed, bridgeW := sub p.bridgeW, bridgeP := sub p.bridgeP }

/-- A forced disable of an engine meets a passage with an endpoint on it (R77). -/
def Passage.cutBy (p : Passage) (n : Nat) : Passage :=
  if p.eg.kind = 3 ∧ p.eg.index = n then p.discard else if p.ing.kind = 3 ∧ p.ing.index = n then p.spoil else p

/-- A passage drains (R75). -/
def State.drainPassage (s : State) (id : Nat) (c : Commit) : State :=
  let gone := (List.range 8).filter c.disables
  (s.modPas id fun p => gone.foldl Passage.cutBy { p with st := 3 }).releaseKey id

/-- A protect leg is removed (R77, R711). -/
def State.removeLeg (s : State) (id cc : Nat) (c : Commit) : State :=
  match tget s.pas id with
  | none => s
  | some p =>
    match p.leg with
    | none => s
    | some l =>
      let s := if p.onProt then s.moveLeg id false (if c.disables l.engine then 7 else 5) else s
      let s := s.modPas id fun p => { p with
        leg := none, legLive := false, force := 0, prot := {}, skewNs := none, unusable := false
        queueP := [], secretP := [], bridgeP := [], legStop := none
        legHeld := some (l, chAdd cc p.delay) }
      s.resignal1 id

/-- A force or its clearing acts (R81, R85): the selector moves only to a leg that carries the passage (R611). -/
def State.forceLeg (s : State) (id f : Nat) : State :=
  let s := s.modPas id fun p => { p with force := f }
  match tget s.pas id with
  | none => s
  | some p =>
    if !p.chooses then s
    else if s.forceWaits p then (s.moveLeg id (f == 2) 4).resignal1 id
    else if f == 0 && (s.faultOf p p.onProt).isSome && s.canSwitch p then (s.moveLeg id (!p.onProt) 4).resignal1 id
    else s

/-- First use runs again, in the role and mode that have it (R198, R272, R276, R291). -/
def State.restartFirstUse (s : State) (n : Nat) : State :=
  let e := s.eng n
  let st := if e.cfg.mode = 2 ∨ e.mp.role ≠ 0 then 6 else 1
  s.modRx n fun r => { r with use := st, useFails := 0, useCc := none, useProf := [], useReply := none }

/-- Seeds of the pilot generators (R203). -/
def pilotSeeds (subs : Nat) : List Nat := (List.range subs).flatMap fun i => [0x7FFF ^^^ (2 * i), 0x7FFF ^^^ (2 * i + 1)]

/-- The symbol grid of an engine begins at a chamber: nothing is in the encoder, every subcarrier's first data symbol is the first one. -/
def TxPath.begin (t : TxPath) (c : EngCfg) (ch : Nat) : TxPath :=
  { t with
    gridAt := ch, next := List.replicate c.subs 0, info := {}, coded := {}, points := [], symbols := [], prev := [], prior := []
    formed := List.replicate c.carriers 0, sentCh := none, fadeAt := none, txDelay := c.delayOf 0 0 % 2 ^ 20 }

/-- ENGINE_ENABLE acts (R217, R247, R272). -/
def State.enableNow (s : State) (n : Nat) : State :=
  let s := s.modEng n fun e => { e with cfg := e.lastCfg, nextCfg := none }
  let c := (s.eng n).cfg
  let s := s.modTx n fun t =>
    { t.begin c s.chamber with prof := [], enabled := true, enableAt := none, fe := c.fe, settling := false, seeds := pilotSeeds c.subs, clipHigh := false, clipMs := [] }
  let s := s.modRx n fun r => { r with
    prof := [], oldProf := [], switchCh := none, duty := 512, inRange := false, acq := none, acqAt := s.mono, lock := false, frame := false, frozenAt := none
    tryAt := s.mono, ovr := false, ovrClean := 0, limits := [], window := none, winStart := none, dsp := RxDsp.start c.carriers }
  let s := s.restartFirstUse n
  if (s.eng n).tx.permit then s.carrierAct n true c.rampMs
  else (s.modTx n fun t => { t with withheld := true }).raise (islEng n) .txLightWithheld n []

/-- A capture whose copy has not begun ends with BLOCK_DARK when its engine stops (R284). -/
def State.endCapture (s : State) (n : Nat) : State :=
  match s.captureOf n with
  | some j => match j.work with
    | .capture _ c => if c.done = 0 && j.finish.isNone then s.finishJob j.token .blockDark [] else s
    | _ => s
  | none => s

/-- The receive path of a disabled engine: it holds what the configuration gave, what the monitor of light says, and a run of failures, which
only an RX_LOCK ends (R267). -/
def RxPath.stopped (r : RxPath) : RxPath :=
  { ({} : RxPath) with los := r.los, losMv := r.losMv, b2b := r.b2b, cdSets := r.cdSets, acqFailed := r.acqFailed }

/-- The pipeline of a disabled engine stops (R217, R284): its timing inputs are lost, and what was configured meanwhile stands. -/
def State.stopEngine (s : State) (n : Nat) : State :=
  let s := s.modEng n fun e => { e with cfg := e.lastCfg, nextCfg := none }
  let s := s.modTx n fun t => { t.begin {} 0 with
    prof := [], settling := false, rdi := false, mgmtQ := [], stage := [], zrBlocks := [] }
  let s := s.modRx n RxPath.stopped
  let s := s.modMp n fun m => { m with leafSt := 0, recv := [], offer := none, bursts := [] }
  ((s.endCapture n).inputLost (16 + n)).inputLost (32 + n)

/-- ENGINE_DISABLE acts (R77, R216, R217): blocks of the passages on the engine are discarded or replaced, the carrier goes down, and the
pipeline stops once it is dark. -/
def State.disableNow (s : State) (n : Nat) : State :=
  let ids := (s.pas.filter fun kp => kp.2.st == 3).map Prod.fst
  let s := ids.foldl (fun s id => s.modPas id fun p => p.cutBy n) s
  let s := s.carrierAct n false (s.eng n).cfg.rampMs
  let s := s.modTx n fun t => { t with enabled := false, disableAt := none, forced := false, withheld := false }
  let s := s.modRx n fun r => { r with use := 0 }
  if (s.eng n).tx.lit then s else s.stopEngine n

/-- A configuration that needed a swap takes effect (R215, R276): it has its own symbol grid; the pilot generators run on, and those of
subcarriers that are new begin. -/
def State.reconfigNow (s : State) (n cc : Nat) (c : EngCfg) : State :=
  let c := match (s.eng n).nextCfg with | some (k, x) => if k = cc then x else c | none => c
  let s := s.modEng n fun e => { e with cfg := c, nextCfg := none }
  let s := s.modTx n fun t => { t.begin c s.chamber with
    seeds := t.seeds ++ (pilotSeeds c.subs).drop t.seeds.length, prof := [], zrBlocks := [] }
  (s.modRx n fun r => { r with prof := [], dsp := RxDsp.start c.carriers }).restartFirstUse n

/-- Windows take effect: a hub's profile leaves DISABLED for RANGING, and returns to it with its last window (Table 8.6). -/
def State.windowsNow (s : State) (n leaf : Nat) (wins : List Nat) (pl off hMin node : Nat) : State :=
  let some := wins.any fun b => b != 0
  let upd := fun (p : LeafProf) => { p with
    windows := wins, periodLog := pl, offset := off, hMin := hMin, node := node
    st := if !some then 0 else if p.st = 0 then 1 else p.st
    down := p.down || !some || p.st == 0 }
  if (s.eng n).mp.role = 2 then s.modMp n fun m => { m with own := upd m.own, leafSt := if some then m.leafSt else 0 }
  else s.modMp n fun m => { m with profs := tupd m.profs leaf {} upd }

/-- The lowest SNR of a window with its subcarrier. -/
def lowestSnr (l : List Int) : Int × Nat :=
  ((List.range l.length).zip l).foldl (fun best x => if x.2 < best.1 then (x.2, x.1) else best) ((l[0]?).getD 0, 0)

/-- RX_SNR_MEASURED (Table 7.10). -/
def State.snrMeasured (s : State) (n : Nat) (snrs : List Int) (prof : List Nat) : State :=
  let lo := lowestSnr snrs
  s.raise (islEng n) .rxSnrMeasured n (leS 2 lo.1 ++ le 1 lo.2 ++ le 2 ((s.eng n).cfg.slotsOf prof))

/-- What one firmware change does at the first boundary of `cc`. -/
def State.changeNow (s : State) (c : Commit) (ch : FwChange) : State :=
  match ch with
  | .openP id => s.startPassage id c.cc
  | .closeP id => s.drainPassage id c
  | .protSet id => s.modPas id fun p => { p with legLive := p.leg.isSome }
  | .protDel id => s.removeLeg id c.cc c
  | .force id f => s.forceLeg id f
  | .revert id => s.revertNow id
  | .enable n => s.enableNow n
  | .disable n => s.disableNow n
  | .reconfig n cfg => s.reconfigNow n c.cc cfg
  | .loading n rx _ =>
    if rx && (s.eng n).rx.useCc == some c.cc then s.modRx n fun r => { r with use := 5, useCc := none } else s
  | .pulse _ _ => s
  | .cdSet _ _ => s
  | .carrier n on ramp => s.carrierAct n on ramp
  | .windows n leaf wins pl off hMin node => s.windowsNow n leaf wins pl off hMin node
  | .flexe g cal => s.flexeSwap g cal
  | .rebind id slot => s.rebindKey id slot c.cc
  | .timeWord _ _ => s

/-- The swap of the commit at the head of the schedule (R113, R117, R123, R34, R35). -/
def State.swapNow (s : State) (c : Commit) (rest : List Commit) : State :=
  let old := s.tab.banks
  let banks := s.applyCommit old c
  let s := { s with
    generation := (s.generation + 1) % 2 ^ 32
    tab := { s.tab with banks := banks, image := old, onB := !s.tab.onB, commits := rest, copying := some c.cc } }
  let s := s.raise islFab .tableSwap 0xFFFF (le 4 s.generation)
  let s := c.changes.foldl (fun s ch => s.changeNow c ch) s
  let s := (List.range 8).foldl (fun s n => s.loadEngine n (tgetD old (islEng n) {})) s
  let s := { s with tab := { s.tab with raws := s.rawsAt c.cc } }
  match c.paired with
  | some p => s.modTx p.engine fun t => { t with paired := some c.cc }
  | none => s

/-- Drop a paired commit (R120, R274, R382): cause 1 no far arm, 2 own staging failed. -/
def State.abortPaired (s : State) (c : Commit) (p : Paired) : State :=
  let s := { s with tab := { s.tab with commits := s.tab.commits.filter (fun x => x.cc != c.cc), image := s.tab.banks } }
  let s := s.raise (islEng p.engine) .tableCommitAborted (islEng p.engine) (le 6 c.cc ++ le 1 (if p.farArm then 2 else 1))
  let s : State := c.changes.foldl (fun (s : State) ch => match ch with | .rebind id slot => s.rebindAborted id slot | _ => s) s
  let r := (s.eng p.engine).rx
  if r.useCc = some c.cc then
    let s := s.modRx p.engine fun r => { r with
      use := if r.useFails + 1 ≥ 3 then 6 else if r.frame then 2 else 1, useFails := r.useFails + 1, useCc := none }
    if r.useFails + 1 ≥ 3 then s.raise (islEng p.engine) .bitloadHeld p.engine (le 2 ((s.eng p.engine).cfg.slotsOf r.useProf)) else s
  else s

/-- Will a commit swap as it stands: its standing steps are staged without an error and, where it is paired, the far end armed it (R117,
R118, R120)? -/
def Commit.swaps (c : Commit) : Bool := c.staged && !c.bad && (match c.paired with | some p => p.farArm | none => true)

/-- The firmware commits its changes of a refused commit again at the earliest chamber (R118): the image is rebuilt from the active bank,
raw edits are dropped, and the removal of an engine's raw steps is its own. -/
def State.recommit (s : State) (c : Commit) : State :=
  let s := { s with tab := { s.tab with commits := s.tab.commits.filter (fun x => x.cc != c.cc), image := s.tab.banks } }
  let own := c.raw.filter fun e => match e.2 with | .dropEngine _ => true | _ => false
  if c.changes.isEmpty && own.isEmpty then s
  else
    let cc := s.earliest false
    let s := s.schedule cc none own c.changes
    c.changes.foldl
      (fun (s : State) ch => match ch with
        | .openP id => s.modPas id fun p => { p with start := cc, stop := if p.stop = some c.cc then some cc else p.stop }
        | .closeP id => s.modPas id fun p => { p with stop := some cc }
        | .protDel id => s.modPas id fun p => { p with legStop := some cc }
        | .enable n => s.modTx n fun t => { t with enableAt := some cc }
        | .disable n => s.modTx n fun t => { t with disableAt := some cc }
        | .rebind id _ => s.rebindAt id cc
        | .reconfig n _ => s.modEng n fun e => { e with nextCfg := e.nextCfg.map fun x => (cc, x.2) }
        | _ => s)
      s

/-- TABLE_SWAP: at the first boundary of Cc every island swaps. A paired commit whose conditions failed is dropped; a plain one whose
standing steps never reached the shadow memories cannot swap, and is committed again as R118 says (DESIGN CHOICE, assumption 81). -/
def State.tableSwap (s : State) : State :=
  match s.tab.commits with
  | [] => s
  | c :: rest =>
    if !(chReached s.chamber c.cc) then s
    else match c.paired with
      | some p => if c.swaps then (s.swapNow c rest).resignal else s.abortPaired c p
      | none => if c.swaps then (s.swapNow c rest).resignal else s.recommit c

/-- PAIRED_COMMIT_DECIDE at the first boundary of Cc - 2 (R120). -/
def State.pairedDecide (s : State) : State :=
  match s.tab.commits.find? fun c => c.paired.isSome && chReached s.chamber (chSub c.cc 2) with
  | none => s
  | some c => match c.paired with
    | some p => if c.swaps then s else s.abortPaired c p
    | none => s

/-! Staging (R117, R118). -/

/-- COMMIT_STAGING between Cc - 48 and Cc - 3: the image bank holds the commit's edits and the standing steps are staged, or an uncorrectable error at an island, region and
index of the image refuses the swap (R118). -/
def State.commitStaging (s : State) (bad : Option (Nat × Nat × Nat)) : State :=
  match s.tab.commits.find? fun c => !c.staged && decide (3 ≤ chAhead c.cc s.chamber) && decide (chAhead c.cc s.chamber ≤ 48) with
  | none => s
  | some c =>
    let mark := fun (b : Bool) =>
      { s with tab := { s.tab with
        image := s.imageAt c.cc
        commits := s.tab.commits.map fun x => if x.cc = c.cc then { x with staged := true, bad := b } else x } }
    match bad with
    | none => mark false
    | some (isl, region, index) =>
      let s := (mark true).raise islFab .tableCommitRefused isl (le 1 isl ++ le 1 region ++ le 4 index)
      if c.paired.isSome then s else s.recommit c

/-! Timed steps (R92, R119, R123). -/

/-- Does a timed word apply in a chamber? -/
def applies (w : StepWord) (ch : Nat) : Bool := wTimed w && ch % 2 ^ wPeriod w == wOffset w

/-- The banks that are active in a chamber, as far as the schedule tells: from a commit's Cc on, its image (R117). -/
def State.banksIn (s : State) (ch : Nat) : Tab Bank :=
  (s.tab.commits.filter fun c => c.swaps && chReached ch c.cc).foldl s.applyCommit s.tab.banks

/-- The timed words of an island that apply in a chamber, less those skipped in it. -/
def State.timedWords (s : State) (isl ch : Nat) : List StepWord :=
  let skip := if s.tab.issued = some ch then s.tab.skipped else []
  (tgetD (s.banksIn ch) isl {}).words.filter fun w => applies w ch && !(skip.contains (isl, w))

/-- A word of a region of a bank: 0 firmware, 1 raw. -/
def Bank.wordAt (b : Bank) (region index : Nat) : Option StepWord :=
  if region = 0 then (b.fw[index]?).map fun x => x.w else b.raw[index]?

/-- TIMED_STEP_ISSUE: the timed steps of the next chamber are issued once, from the bank that is active in it; words with an
uncorrectable error are skipped in it, and the firmware commits a rebuilt image (R119). MARK steps are to raise TABLE_MARK at the
chamber's boundary, and a SCRUB_GATE step sets the share of the scrubbers. -/
def State.timedStepIssue (s : State) (errs : List (Nat × Nat × Nat)) : State :=
  let ch := chAdd s.chamber 1
  if s.tab.issued = some ch then s
  else
    let hit := errs.filterMap fun x => match (tgetD (s.banksIn ch) x.1 {}).wordAt x.2.1 x.2.2 with
      | some w => if applies w ch then some (x, w) else none
      | none => none
    let s := { s with tab := { s.tab with issued := some ch, skipped := hit.map fun x => (x.1.1, x.2) } }
    let s : State := hit.foldl (fun (s : State) x => s.raise x.1.1 .tableStepSkipped x.1.1 (le 1 x.1.2.1 ++ le 4 x.1.2.2)) s
    let s := if hit.isEmpty then s else s.schedule (s.earliest false) none [] []
    let marks := (List.range 15).flatMap fun i =>
      ((s.timedWords i ch).filter fun w => wAction w == 0x01).map fun w => (s.nextBoundary, i, wOperand w)
    let s := { s with tab := { s.tab with marks := s.tab.marks ++ marks } }
    match (s.timedWords islMem ch).find? fun w => wAction w == 0x48 with
    | some w => { s with mem := { s.mem with gate := some (ch, wop w 60 4) } }
    | none => s

/-- The MARK steps whose boundary has come raise TABLE_MARK (R123), in the order of time (R43). -/
def State.marksDue (s : State) : State :=
  let due := s.tab.marks.filter fun m => decide (m.1 ≤ s.now)
  if due.isEmpty then s
  else
    let s := { s with tab := { s.tab with marks := s.tab.marks.filter fun m => decide (s.now < m.1) } }
    due.foldl (fun (s : State) m => s.raiseAt m.1 m.2.1 .tableMark m.2.1 (le 8 m.2.2)) s

/-! PASSAGE_FREE (R75, R707, R711). -/

/-- At FREE_CHAMBER the passage's slots and buffer are free and PASSAGE_CLOSED is raised; a removed leg's slots are freed at the
chamber of R711. -/
def State.passageFree (s : State) (id : Nat) : State :=
  match tget s.pas id with
  | none => s
  | some p =>
    let done := p.st == 3 && (match p.free with | some f => chReached s.chamber f | none => false)
    if done then
      let s := s.raise islFab .passageClosed id (le 1 p.reason ++ le 4 (satN 4 p.late))
      let s := (s.freeKey id).unschedule fun c => match c with | .rebind i _ => i == id | _ => false
      { s with pas := tdel s.pas id }
    else match p.legHeld with
      | some (_, ch) => if chReached s.chamber ch then s.modPas id fun p => { p with legHeld := none } else s
      | none => s

end Sys2Proof.Machine
end

