-- ==== Sys2Proof/Machine/Receive.lean ====
section
/-!
DEFINITION. The engine's timed events at the analogue edge: the carrier sequence and drive (06_transmit.md), loss of light, gain
control, acquisition, dispersion and over-range (07_receive.md).
-/
namespace Sys2Proof.Machine

/-! Transmit: the carrier sequence (R230), front-end fields (R225), DAC saturation (R226). -/

/-- CARRIER_DRIVER_ON: LASER_SETTLE_MS after the laser enable. -/
def State.carrierDriverOn (s : State) (n : Nat) : State :=
  let e := s.eng n
  let d := e.cfg.settleMs * msQ
  if e.tx.car == .laserOn && s.since e.tx.carAt d then s.modTx n fun t => { t with car := .driverOn, carAt := t.carAt + d } else s

/-- CARRIER_RAMP_START: 1 ms after the driver enable. -/
def State.carrierRampStart (s : State) (n : Nat) : State :=
  let t := (s.eng n).tx
  if t.car == .driverOn && s.since t.carAt msQ then s.modTx n fun t => { t with car := .rampUp, carAt := t.carAt + msQ, carDone := 0 } else s

/-- CARRIER_RAMP_END: full amplitude with TX_RAMP_DONE, or zero amplitude with DRV_ENn low. -/
def State.carrierRampEnd (s : State) (n : Nat) : State :=
  let t := (s.eng n).tx
  if decide (t.carDone + (s.mono - t.carAt) < t.ramp * msQ) then s
  else match t.car with
    | .rampUp => (s.modTx n fun t => { t with car := .full, carAt := s.mono }).rampDone n 1 t.ramp
    | .rampDown => s.modTx n fun t => { t with car := .laserHold, carAt := t.carAt + (t.ramp * msQ - t.carDone) }
    | _ => s

/-- CARRIER_LASER_OFF: 1 ms after a down ramp LSR_ENn falls; the pipeline of a disabled engine stops (R217). A carrier-up that is scheduled
cancels the fall (R232; DESIGN CHOICE, assumption 87: whenever it was accepted, and the down sequence then raises no TX_RAMP_DONE). -/
def State.carrierLaserOff (s : State) (n : Nat) : State :=
  let t := (s.eng n).tx
  if t.car == .laserHold && s.since t.carAt msQ && !(s.upPending n) then
    let s := (s.modTx n fun t => { t with car := .dark, carAt := s.mono }).rampDone n 2 t.ramp
    if t.enabled then s else s.stopEngine n
  else s

/-- One step of at most `d` from `x` toward `y`. -/
def toward (d x y : Int) : Int := if x < y then min y (x + d) else max y (x - d)

/-- One microsecond of movement of every field (R225). -/
def FrontEnd.step (f t : FrontEnd) : FrontEnd :=
  { swing := toward 10 f.swing t.swing, drive := toward 1 f.drive t.drive, emph := toward 1 f.emph t.emph
    skew := (f.skew.zip t.skew).map fun p => toward 1 p.1 p.2
    iqX := toward 1 f.iqX t.iqX, iqY := toward 1 f.iqY t.iqY
    gain := (f.gain.zip t.gain).map fun p => toward 1 p.1 p.2 }

/-- TX_FRONTEND_STEP: TX_FRONTEND_SETTLED follows when every field has reached its value. -/
def State.frontendStep (s : State) (n : Nat) : State :=
  let e := s.eng n
  if !(e.tx.enabled && e.tx.settling) then s
  else
    let f := e.tx.fe.step e.cfg.fe
    if f = e.cfg.fe then
      (s.modTx n fun t => { t with fe := f, settling := false }).raise (islEng n) .txFrontendSettled n []
    else s.modTx n fun t => { t with fe := f }

/-- Converter samples of one lane in a millisecond (R204, R241): 1.25 x B GS/s. -/
def EngCfg.samplesPerMs (c : EngCfg) : Nat := 25 * c.rateE4 / 2

/-- A mask of the positions of a list that satisfy a test. -/
def maskOf (l : List Nat) (p : Nat → Bool) : Nat := ofBits (l.map p)

/-- DAC_CLIP_HIGH: a millisecond ends; the samples of the four lanes that saturated in it were counted as they were sent (R226). A clean
millisecond is one in which no lane exceeds the limit (DESIGN CHOICE, assumption 82). -/
def State.dacClip (s : State) (n : Nat) : State :=
  let e := s.eng n
  if !e.tx.runs then s
  else
    let l := e.tx.clipMs
    let s := s.modTx n fun t => { t with clipMs := [] }
    let beyond := fun x => decide (x * 10000 > e.cfg.samplesPerMs)
    let mask := maskOf l beyond
    if mask = 0 then s.modTx n fun t => { t with clipHigh := false }
    else if e.tx.clipHigh then s
    else (s.modTx n fun t => { t with clipHigh := true }).raise (islEng n) .dacClipHigh n (le 1 mask ++ le 4 (satN 4 (hSum (l.filter beyond))))

/-! Frame lock as the receive path loses it (R195). -/

/-- The receiver loses frame lock: RDI is set, the leaf stops sending, the management stream breaks off, and the passages
substitute or switch. A hub raises no LINE_FRAME_LOST (R291). -/
def State.frameLost (s : State) (n cause : Nat) : State :=
  let e := s.eng n
  if !e.rx.frame then s
  else
    let s := s.bump (engUnit n 3) 0 1 1
    let s := if e.rx.mgmtBuf.isEmpty then s else s.bump (engUnit n 3) 0 7 1
    let s := s.modRx n fun r => { r with
      frame := false, marker := none, expect := none, badRun := 0, winBad := true, mgmtBuf := [], farEpoch := none, epochBad := false
      pairRun := 0, stamps := [], fecWhole := false, profBad := false, theta := none
      use := if r.use = 2 ∨ r.use = 3 then 1 else r.use }
    let s := s.modTx n fun t => { t with rdi := true }
    let s := if e.mp.role = 2 then s.modMp n fun m => { m with leafSt := 0 } else s
    let s := if e.mp.role = 1 then s else s.raise (islEng n) .lineFrameLost n (le 1 cause)
    (s.inputLost (32 + n)).engineLoss n

/-! Loss of light (R248, R249). -/

/-- LINE_LOS: eight samples below the loss threshold. Light is lost for frame lock and for the recovered clock at once. -/
def State.lineLos (s : State) (n mv : Nat) : State :=
  let e := s.eng n
  if n > 7 || e.rx.los || decide (mv ≥ e.pwr.losSetMv) || (s.dark (engUnit n 7)).isSome then s
  else
    let s := s.modRx n fun r => { r with los := true, losMv := mv, frozenAt := some s.mono, acq := none }
    let s := (s.bump (engUnit n 7) 0 0 1).raise (islEng n) .lineLos n (le 2 mv)
    let s := s.inputLost (16 + n)
    if e.rx.frame then s.frameLost n 5 else s.engineLoss n

/-- LINE_LOS_CLEAR: one millisecond in which every sample lies above the clear threshold. -/
def State.lineLosClear (s : State) (n mv : Nat) : State :=
  let e := s.eng n
  if n > 7 || !e.rx.los || decide (mv ≤ e.pwr.losClearMv) || (s.dark (engUnit n 7)).isSome then s
  else
    let s := s.modRx n fun r => { r with
      los := false, losMv := mv, acqAt := s.mono, tryAt := s.mono, duty := if e.tx.runs then 512 else 0, inRange := false }
    (s.raise (islEng n) .lineLosClear n (le 2 mv)).resignal

/-- FROZEN_STATE_EXPIRY: the frozen state is kept for 1 s (R249). -/
def State.frozenExpiry (s : State) (n : Nat) : State :=
  match (s.eng n).rx.frozenAt with
  | some t => if s.since t secQ then s.modRx n fun r => { r with frozenAt := none } else s
  | none => s

/-- AGC_UPDATE: 10 µs of the receive path, with the input levels of the four lanes at its instants: they pass the receive stages, and gain
control moves the duty (R246, R247). `want` is the change that the loop asks for, which raises the duty below the target range and lowers it
above; the range is 28 codes within 1 dB, 25.0 to 31.4 codes. -/
def State.agcUpdate (s : State) (n : Nat) (inputs : List (List Int)) (want : Int) : State :=
  if !(s.eng n).tx.runs then s
  else
    let s := s.rxBatch n inputs
    let e := s.eng n
    if e.rx.los then s
    else
      let rms := e.rx.rms
      let hit := decide (250 ≤ rms) && decide (rms ≤ 314)
      let lim : Int := if e.rx.inRange || hit then 1 else 64
      let lo : Int := if rms < 250 then 0 else -lim
      let hi : Int := if rms > 314 then 0 else lim
      let d : Int := if e.rx.ovr then -1 else max lo (min hi want)
      s.modRx n fun r => { r with inRange := r.inRange || hit, duty := (max 0 (min 1023 ((r.duty : Int) + d))).toNat }

/-- The level of TIA_GCn at a domain time in quarter-nanoseconds (R246): PWM at 1 MHz whose duty is `duty` of 1 024. -/
def RxPath.tiaLevel (r : RxPath) (t : Nat) : Bool := decide (t % 4000 * 1024 < r.duty * 4000)

/-! Acquisition (R266 to R269). -/

/-- RX_ACQUISITION_START: cold, or warm while the frozen state is less than 1 s old. -/
def State.acqStart (s : State) (n : Nat) : State :=
  let e := s.eng n
  if !e.tx.runs || e.rx.los || e.rx.lock || e.rx.acq.isSome then s
  else
    let warm := match e.rx.frozenAt with | some t => !(s.since t secQ) | none => false
    let s := s.modRx n fun r => { r with
      acq := some (!warm)
      dsp := if warm then r.dsp else { r.dsp with subs := (RxDsp.start e.cfg.carriers).subs, clock := 0, freq := 0 } }
    s.bump (engUnit n 1) 0 (if warm then 2 else 1) 1

/-- Write the active coefficient set. -/
def RxPath.writeCd (r : RxPath) (d : Int) : RxPath :=
  { r with cdSets := if r.cdActive = 0 then (d, r.cdSets.2) else (r.cdSets.1, d) }

/-- How well symbols at pilot places correlate with the pilots that a generator sends from a register on (R251). -/
def pilotMatch : Nat → List Cx → Cx → Rat
  | _, [], acc => acc.power
  | reg, z :: zs, acc => let p := pilot reg; pilotMatch p.2 zs (acc.add (z.mul p.1.conj))

/-- Is a receive lane pair mirrored: do the pilots correlate better in that orientation, over all subcarriers (R251)? -/
def mirrored (probes : List PilotProbe) (pol : Nat) : Bool :=
  let sum := fun (f : PilotProbe → List Cx) =>
    ((probes.filter fun p => p.pol == pol).map fun p => pilotMatch p.reg (f p) Cx.zero).foldl (· + ·) 0
  decide (sum PilotProbe.straight < sum PilotProbe.mirrored)

/-- A subcarrier takes up what the acquisition found of its pilots. -/
def SubRx.lockOn (u : SubRx) (probes : List PilotProbe) (sub : Nat) : SubRx :=
  let of := fun (pol : Nat) => probes.find? fun p => p.sub == sub && p.pol == pol
  let x := of 0
  { u with
    place := (64 - ((x.map PilotProbe.ahead).getD 0) % 64) % 64
    regs := ((x.map PilotProbe.reg).getD 0, ((of 1).map PilotProbe.reg).getD 0)
    sent := none, aided := none, block := [], pointX := [], pointY := [], pointAt := 0, next := (x.map PilotProbe.begins).getD 0 }

/-- The receive stages at RX_LOCK: data symbols are counted from the next pilot on, and coded bits from the first shaping frame; `skip` of them
lie before the first codeword (DESIGN CHOICE, assumption 87: the specification does not say how the receiver finds the begin of shaping
frames and codewords). -/
def RxDsp.lockOn (d : RxDsp) (probes : List PilotProbe) (skip : Nat) : RxDsp :=
  { d with
    subs := ((List.range d.subs.length).zip d.subs).map fun u => u.2.lockOn probes u.1
    soft := [], softAt := 0, codedAt := skip, placed := [], switchAt := some 0, avgs := [], cdFar := none }

/-- RX_LOCK: carrier and timing lock (R251, R254, R261, R266). A cold acquisition found the dispersion `d`, which it searched within ±D_SPAN
(R257); a hub stays at 0. -/
def State.rxLock (s : State) (n : Nat) (probes : List PilotProbe) (d : Int) (skip : Nat) : State :=
  let e := s.eng n
  match e.rx.acq with
  | none => s
  | some cold =>
    if e.rx.los || (cold && e.mp.role != 1 && decide (e.cfg.dspan < d.natAbs)) then s
    else
      let s := s.modRx n fun r =>
        let r := if cold then r.writeCd (if e.mp.role = 1 then 0 else d) else r
        { r with
          lock := true, acq := none, acqFailed := false, mirrorX := mirrored probes 0, mirrorY := mirrored probes 1, frozenAt := none
          dsp := r.dsp.lockOn probes skip, cwAt := 0, cwBad := [], expect := none }
      let s := s.raise (islEng n) .rxLock n (le 1 (if cold then 1 else 2) ++ le 4 (satN 4 ((s.mono - e.rx.acqAt) / usQ)))
      (s.inputPresent (16 + n)).lockTrigger n

/-- The first step of Table 7.4 that was not met: 1 AGC, 2 CD, 3 frequency, 4 timing, 5 polarisation or pilots (R267). -/
def unmetStep (met : List Nat) : Nat := (([1, 2, 3, 4].find? fun k => !(met.contains k))).getD 5

/-- RX_ACQ_FAIL: no lock 50 ms after the reference; a new cold acquisition starts (R267). `met` are the steps that were met; the first is met
once the RMS has entered its range. The next 50 ms run from the failure, while the microseconds of RX_LOCK run on from the reference of R266
(DESIGN CHOICE, assumption 61). -/
def State.acqFail (s : State) (n : Nat) (met : List Nat) : State :=
  let e := s.eng n
  let cause := unmetStep ((met.filter fun k => k != 1) ++ (if e.rx.inRange then [1] else []))
  if e.rx.acq ≠ some true ∨ !(s.since e.rx.tryAt (50 * msQ)) then s
  else
    let s := s.modRx n fun r => { r with
      acqFailed := true, tryAt := s.mono, dsp := { r.dsp with subs := (RxDsp.start e.cfg.carriers).subs, clock := 0, freq := 0 } }
    let s := s.bump (engUnit n 1) 0 1 1
    if e.rx.acqFailed then s else s.raise (islEng n) .rxAcqFail n (le 1 cause)

/-- WARM_ACQUISITION_TIMEOUT: a cold acquisition starts after 1 ms (R269); the reference of R266 stays. -/
def State.warmTimeout (s : State) (n : Nat) : State :=
  let e := s.eng n
  if e.rx.acq ≠ some false ∨ !(s.since e.rx.tryAt msQ) then s
  else
    let s := s.modRx n fun r => { r with
      acq := some true, dsp := { r.dsp with subs := (RxDsp.start e.cfg.carriers).subs, clock := 0, freq := 0 } }
    s.bump (engUnit n 1) 0 1 1

/-- RX_LOCK_LOST: cause 1 after a loss of light, else 2 pilots or 3 timing (R261, R268). -/
def State.rxLockLost (s : State) (n cause : Nat) : State :=
  let e := s.eng n
  if !e.rx.lock then s
  else
    let c := if e.rx.los then 1 else cause
    let s := s.modRx n fun r => { r with lock := false, acq := none, tryAt := s.mono }
    let s := (s.bump (engUnit n 1) 0 3 1).raise (islEng n) .rxLockLost n (le 1 c)
    (s.inputLost (16 + n)).frameLost n (if c = 1 then 5 else 6)

/-! Dispersion (R254 to R257). -/

/-- Does the raw region hold a CD_SET step for an engine (R256)? -/
def State.rawCd (s : State) (n : Nat) : Bool := (s.rawWords (islEng n)).any fun w => wAction w == 0x23

/-- RX_CD_RECENTRED: |D_est - D_set| beyond R_RES / 4 for 100 ms loads the inactive set and commits it. -/
def State.cdRecentre (s : State) (n : Nat) : State :=
  let e := s.eng n
  let r := e.rx
  let pend := s.tab.commits.any fun c => c.changes.any fun x => match x with | .cdSet m _ => m == n | _ => false
  let due := match r.dsp.cdFar with | some t => s.since t (100 * msQ) | none => false
  match r.dEst with
  | none => s
  | some d =>
    if !r.lock || r.los || !due || e.mp.role == 1 || r.outSpan || pend || s.rawCd n || decide (d.natAbs > e.cfg.dspan) then s
    else
      let set := 1 - r.cdActive
      let cc := s.earliest false
      let s := s.modRx n fun r => { r with
        cdSets := if set = 0 then (d, r.cdSets.2) else (r.cdSets.1, d), dsp := { r.dsp with cdFar := none } }
      let s := (s.schedule cc none [] [.cdSet n set]).bump (engUnit n 1) 0 7 1
      s.raise (islEng n) .rxCdRecentred n (leS 4 d ++ le 6 cc)

/-- LINE_CD_OUT_OF_SPAN: |D_est| exceeds D_SPAN, and D_set is held at the limit of the same sign. A hub's D_set stays 0 (R307). -/
def State.cdOut (s : State) (n : Nat) : State :=
  let e := s.eng n
  match e.rx.dEst with
  | none => s
  | some d =>
    if !e.tx.runs || e.rx.los || e.rx.outSpan || e.mp.role == 1 || decide (d.natAbs ≤ e.cfg.dspan) then s
    else (s.modRx n fun r => { r.writeCd (e.cfg.clampCd d) with outSpan := true }).raise (islEng n) .lineCdOutOfSpan n (leS 4 d)

/-- LINE_CD_IN_SPAN: at or below 0.98 x D_SPAN for 1 s. -/
def State.cdIn (s : State) (n : Nat) : State :=
  let r := (s.eng n).rx
  match r.dEst, r.dsp.cdNear with
  | some d, some t =>
    if !r.outSpan || !(s.since t secQ) then s
    else (s.modRx n fun r => { r with outSpan := false }).raise (islEng n) .lineCdInSpan n (leS 4 d)
  | _, _ => s

/-! Over-range (R242, R244, R245), front-end limits (R250). -/

/-- LINE_ADC_OVR: a millisecond ends, with the saturated samples that its samples counted. The clear carries the mask of the lanes that
still saturate, which is 0 (R245). -/
def State.adcOvr (s : State) (n : Nat) : State :=
  let e := s.eng n
  if !e.tx.runs then s
  else
    let total := e.cfg.samplesPerMs
    let sats := e.rx.dsp.ovrMs
    let s := s.modRx n fun r => { r with dsp := { r.dsp with ovrMs := [0, 0, 0, 0] } }
    let mask := maskOf (sats.take 4) fun x => decide (x * 1000 > total)
    let clean := (sats.take 4).all fun x => decide (x * 100000 < total)
    if mask ≠ 0 then
      let s := s.modRx n fun r => { r with ovr := true, ovrClean := 0 }
      if e.rx.ovr then s else s.raise (islEng n) .lineAdcOvr n (le 1 mask)
    else if !e.rx.ovr then s
    else if !clean then s.modRx n fun r => { r with ovrClean := 0 }
    else if e.rx.ovrClean + 1 < 10 then s.modRx n fun r => { r with ovrClean := r.ovrClean + 1 }
    else (s.modRx n fun r => { r with ovr := false, ovrClean := 0 }).raise (islEng n) .lineAdcOvrClear n (le 1 0)

/-- ADC_CLAMP_ENGAGE on a lane (R244). -/
def State.clampOn (s : State) (n lane : Nat) : State :=
  let r := (s.eng n).rx
  if lane > 3 || (r.clamps[lane]?).getD false then s
  else (s.modRx n fun r => { r with clamps := r.clamps.set lane true }).bump (engUnit n 5) 0 (8 + lane) 1

/-- ADC_CLAMP_RELEASE on a lane (R244). -/
def State.clampOff (s : State) (n lane : Nat) : State := s.modRx n fun r => { r with clamps := r.clamps.set lane false }

/-- The limit of a front-end correction: 1 skew in 0.1 ps, 2 gain in 0.01 dB, 3 quadrature in 0.1 degree (R250). -/
def frontLimit : Nat → Int
  | 1 => 500 | 2 => 300 | _ => 100

/-- RX_FRONTEND_LIMIT: the front-end stage has adapted a correction of a lane, within its limit; one that has stood at its limit for 1 s
is reported once until it leaves the limit (R250). A quadrature correction has lane 0 for the X pair and lane 1 for the Y pair (DESIGN CHOICE,
assumption 87); other lanes have none. The corrections freeze with loss of light (R249). -/
def State.frontendLimit (s : State) (n what lane : Nat) (value : Int) (ms : Nat) : State :=
  let e := s.eng n
  if !e.tx.runs || e.rx.los || what < 1 || what > 3 || lane > 3 || (what == 3 && lane > 1) then s
  else
    let v := max (-(frontLimit what)) (min (frontLimit what) value)
    let s := s.modRx n fun r => { r with front := tput r.front (4 * what + lane) v }
    if absI v < frontLimit what then s.modRx n fun r => { r with limits := r.limits.filter fun x => x != (what, lane) }
    else if ms < 1000 ∨ (e.rx.limits.contains (what, lane)) = true then s
    else (s.modRx n fun r => { r with limits := r.limits ++ [(what, lane)] }).raise (islEng n) .rxFrontendLimit n (le 1 what ++ le 1 lane)

/-! SNR windows (R271 to R274). -/

/-- Chambers of an SNR window. -/
def snrWindow : Nat := 78125

/-- SNR_WINDOW_END: a window of 78 125 chambers ends with the mean squared error of each subcarrier's pilots (R270); a window with loss of light
or any chamber without frame lock is not used. The next one follows it at once. -/
def State.snrWindowEnd (s : State) (n : Nat) : State :=
  let r := (s.eng n).rx
  match r.winStart with
  | none => s
  | some w =>
    if !(chReached s.chamber (chAdd w snrWindow)) then s
    else
      let ok := !r.winBad && r.frame && !r.los
      s.modRx n fun r => { r with
        winStart := some (chAdd w snrWindow), winBad := !(r.frame && !r.los)
        window := if ok then some (chAdd w (snrWindow - 1), r.dsp.subs.map fun u => snrOf u.noise) else r.window
        dsp := { r.dsp with subs := r.dsp.subs.map fun u => { u with errSum := 0, errN := 0 } }
        use := if ok && r.use == 2 then 3 else r.use }

end Sys2Proof.Machine
end

