-- ==== Sys2Proof/Machine/TxOut.lean ====
section
/-!
DEFINITION. What stands at an engine's transmit pins (06_transmit.md): the four lanes' DAC codes of a chamber, and a leaf's symbols. Symbols
run on across chambers on one grid; the waveform of a chamber is whole once the frame after it was sent.
-/
namespace Sys2Proof.Machine

/-- What a leaf's subcarrier sends on a polarisation at a domain time in ps: a symbol of the burst under way, or zero (R235, R312). -/
def Engine.leafSymbol (e : Engine) (sub pol : Nat) (at_ : Int) : Cx :=
  let index := fun (b : SentBurst) => (at_ - b.departs) * e.cfg.symRate / ((10000 * max 1 e.cfg.subs : Nat) : Int)
  match e.mp.bursts.find? fun b => b.sub == sub && decide (b.departs ≤ at_) && decide (index b < b.symbols.1.length) with
  | none => Cx.zero
  | some b => ((if pol = 0 then b.symbols.1 else b.symbols.2)[(index b).toNat]?).getD Cx.zero

/-- The symbols of the last three frames of a subcarrier and polarisation, oldest first. -/
def TxPath.recent (t : TxPath) (sub pol : Nat) : List Cx :=
  ((t.prior ++ t.prev ++ t.symbols).filter fun b => b.sub == sub && b.pol == pol).flatMap SymBlock.symbols

/-- The number in the grid of the first of them. -/
def TxPath.recentFirst (t : TxPath) (sub : Nat) : Nat := (t.formed[sub]?).getD 0 - (t.recent sub 0).length

/-- One polarisation of a subcarrier at two samples per symbol, through the pulse-shaping filter and its cross-fade (R222, R223). -/
def TxPath.subSignal (t : TxPath) (sub pol : Nat) : List Cx :=
  let syms := t.recent sub pol
  (List.range (2 * syms.length)).map fun m =>
    match t.fadeAt with
    | some b =>
      let k := (t.recentFirst sub + m / 2) / 64
      if k < b then filtered (rrcTaps t.oldRoll) syms m else crossFaded t.oldRoll t.roll (k - b) syms m
    | none => filtered (rrcTaps t.roll) syms m

/-- Both polarisations at an instant in ns from the grid's beginning. -/
def Engine.waveform (e : Engine) (t : Rat) : Cx × Cx :=
  let pol := fun (p : Nat) => e.cfg.synth ((List.range e.cfg.carriers).map fun s => (e.tx.recentFirst s, e.tx.subSignal s p)) t
  (pol 0, pol 1)

/-- The samples of a lane over the chamber before that of the last frame, after its front-end filter (R224): 1.25 x B GS/s for 1 280 ns. -/
def Engine.laneWave (e : Engine) (lane : Nat) : List Rat :=
  let n := 16 * e.cfg.rateE4 / 1000
  let first : Rat := ((1280 * (chAhead (e.tx.sentCh.getD e.tx.gridAt) e.tx.gridAt - 1) : Nat) : Rat)
  let raw := (List.range (n + 47)).map fun (i : Nat) =>
    let w := e.waveform (first + ((i : Rat) - 47) / e.cfg.sampleRate)
    ((lanesAt e.tx.fe e.cfg.txFlags w.1 w.2)[lane]?).getD 0
  (List.range n).map fun (i : Nat) => e.cfg.laneOut e.tx.fe lane ((raw.drop i).take 48)

/-- The DAC codes of a lane over that chamber: driven to DRIVE_RMS, under the carrier's amplitude at a monotone time (R226, R231). With no
amplitude the outputs stand at zero differential. -/
def Engine.laneCodes (e : Engine) (mono lane : Nat) : List Int := dacCodes e.tx.fe.drive (e.tx.amplitude mono) (e.laneWave lane)

/-- How many of them saturate (R226). -/
def Engine.laneClips (e : Engine) (mono lane : Nat) : Nat := dacClips e.tx.fe.drive (e.tx.amplitude mono) (e.laneWave lane)

/-- The differential output of a lane in mV at one sample. -/
def Engine.laneMv (e : Engine) (mono lane i : Nat) : Rat := outputMv e.tx.fe.swing (((e.laneCodes mono lane)[i]?).getD 0)

end Sys2Proof.Machine
end

