-- ==== Sys2Proof/Machine/Line.lean ====
section
/-!
DEFINITION. The line frame (05_line_frame_fec.md): LINE_FRAME_SEND, LINE_FRAME_RECEIVE with the two-way exchange (R408) and
FEC_CODEWORD_DECODE.
-/
namespace Sys2Proof.Machine
open Sys2Proof (Bits Block)

/-! Checks over the frame (R171, R173). -/

/-- CRC-16 of R173. -/
def crc16 (l : List Byte) : Nat := crcMsb 16 0x1021 0xFFFF l

/-- PROFILE_TAG of a profile (R173). -/
def EngCfg.profileTag (c : EngCfg) (prof : List Nat) : Nat :=
  crc16 (le 1 c.code ++ le 2 c.symRate ++ le 1 c.subs ++ prof.flatMap (le 1))

/-- HCRC of eight header words: the CRC over their first 62 bytes. -/
def headerCrc (ws : List Nat) : Nat := crc16 ((ws.flatMap (be 8)).take 62)

/-- Bits `[lo + n - 1 : lo]` of header word `k`. -/
def hbits (ws : List Nat) (k lo n : Nat) : Nat := bitsAt ((ws[k]?).getD 0) lo n

/-- A domain time as the 80 bits of Table 11.1. -/
def stampBits (t : Nat) : Nat := t / secQ * 2 ^ 32 + t % secQ

/-- The domain time of 80 stamp bits. -/
def stampTime (x : Nat) : Nat := x / 2 ^ 32 * secQ + x % 2 ^ 32

/-! LINE_FRAME_SEND (R163 to R184). -/

/-- The paired commit that an engine arms in a chamber: from the chamber after acceptance to Cc - 3 (R120). -/
def State.armed (s : State) (n ch : Nat) : Option Nat :=
  (s.tab.commits.find? fun c => match c.paired with
    | some p => p.engine == n && chLater ch p.since && chReached (chSub c.cc 3) ch
    | none => false).map fun c => c.cc

/-- Does a TIME_WORD step for a carrier apply in a chamber (R408)? -/
def State.timeWordIn (s : State) (code ch : Nat) : Bool := (s.timedWords islTime ch).any fun w => wAction w == 0x40 && wop w 52 12 == code

/-- The marker that a time word of a chamber speaks of: the far end's most recent one that arrived before the chamber began (R171). Out of
frame lock there is none (R195). -/
def RxPath.stampBefore (r : RxPath) (start : Int) : Option (Nat × Nat) :=
  if r.frame then r.stamps.find? fun x => decide ((x.2 : Int) < start) else none

/-- What a frame says of the far end's marker: bits [15:0] of its CHAMBER, and RX_STAMP. Where no marker arrived yet the specification
states no value: they are free (assumption 3). -/
def State.timeWord (s : State) (n ch : Nat) : Nat × Nat :=
  match (s.eng n).rx.stampBefore (s.chamberStart ch) with
  | some x => (x.1 % 65536, stampBits x.2)
  | none => (s.free.1 % 65536, s.free.1 / 65536 % 2 ^ 80)

/-- Does the frame of a chamber use a free value? -/
def State.timeWordFree (s : State) (n ch : Nat) : Bool :=
  s.timeWordIn (engCode n) ch && ((s.eng n).rx.stampBefore (s.chamberStart ch)).isNone

/-- The header of an engine's frame of a chamber (Table 5.2). A hub sends RDI 0 and DEG 0 (R291). -/
def State.headerWords (s : State) (n ch : Nat) : List Nat :=
  let e := s.eng n
  let hub := e.mp.role == 1
  let rdi := !hub && e.rdiNow
  let deg := !hub && e.rx.fecDeg
  let arm := s.armed n ch
  let time := s.timeWordIn (engCode n) ch
  let x := if time then s.timeWord n ch else (0, 0)
  let ws := [0xC35A * 2 ^ 48 + ch,
    s.node * 2 ^ 48 + n * 2 ^ 45 + 2 ^ 41 + bit rdi * 2 ^ 40 + bit deg * 2 ^ 39 + e.cfg.profileTag e.tx.prof * 2 ^ 16,
    s.epoch % 2 ^ 48 * 2 ^ 16,
    (match arm with | some cc => 2 ^ 63 + cc | none => 0),
    (match e.tx.paired with | some cc => 2 ^ 63 + cc | none => 0),
    bit time * 2 ^ 63 + x.1 * 2 ^ 32 + x.2 / 2 ^ 48,
    x.2 % 2 ^ 48 * 2 ^ 16]
  let w7 := e.tx.txDelay % 2 ^ 20 * 2 ^ 44
  ws ++ [w7 + headerCrc (ws ++ [w7])]

/-- The legs of draining passages on the groups of one direction of an engine, whose slots carry on until FREE_CHAMBER (R75): the leg, its
passage's slot count and TRAIL. -/
def State.drainLegs (s : State) (n : Nat) (egress : Bool) : List (Endpoint × Nat × Nat) :=
  (tvals s.pas).flatMap fun p =>
    if p.st ≠ 3 then []
    else (p.legs.filter fun l => l.1 == egress && l.2.kind == 3 && l.2.index == n && (s.leafCarrier l.2 egress).isNone).map
      fun l => (l.2, p.slots, p.trail)

/-- The groups of one direction of an engine: the SUB masks of the TX_SLOT or RX_SLOT steps of its active bank (R175), and those of passages
that drain (R75). -/
def State.groupsOf (s : State) (n : Nat) (egress : Bool) : List Nat :=
  ((((s.bank (islEng n)).words.filter fun w => wAction w == (if egress then 0x20 else 0x21) && !(bitAt (wOperand w) 31)).map
    fun w => wop w 48 16) ++ (s.drainLegs n egress).map fun x => x.1.sub).eraseDups

/-- The TRAIL of each slot of a group: that of the TX_SLOT step which names it or of the passage that drains there, or 0 (R175). -/
def State.groupTrails (s : State) (n mask ng : Nat) : List Nat :=
  let ws := (s.bank (islEng n)).words.filter fun w => wAction w == 0x20 && !(bitAt (wOperand w) 31) && wop w 48 16 == mask
  let ds := (s.drainLegs n true).filter fun x => x.1.sub == mask
  (List.range ng).map fun j => match ws.find? fun w => wSlot w == j with
    | some w => wop w 32 16
    | none => match ds.find? fun x => decide (x.1.first ≤ j) && decide (j < x.1.first + x.2.1) with
      | some x => x.2.2
      | none => 0

/-- What an engine's frame carries of its groups: 100 x Ng blocks each, in the order of R31, with fill where a slot has nothing (R53). -/
def State.groupsOut (s : State) (n : Nat) : List GroupData :=
  let e := s.eng n
  (s.groupsOf n true).map fun mask =>
    let ng := e.cfg.groupSlots e.tx.prof mask
    { mask := mask, trails := s.groupTrails n mask ng
      blocks := interleave ng (fun j => tgetD e.tx.stage (stageKey mask 0xFFFF j) []) Block.idle }

/-- The tag entry of a passage on an egress leg for the segment of the chamber before (R177). -/
def tagEntry (p : Passage) (e : Endpoint) (ch : Nat) : Option (Nat × Nat × Nat) :=
  (p.segTags.find? fun x => x.1 == chSub ch 1).map fun x =>
    (lowestBit e.sub, e.first, lowestBit e.sub * 2 ^ 140 + e.first * 2 ^ 130 + 2 ^ 129 + x.2)

/-- The valid tag entries of an engine's frame, by subcarrier and SLOT_FIRST (R177). -/
def State.tagEntries (s : State) (n ch : Nat) : List Nat :=
  let es := (tvals s.pas).flatMap fun p =>
    if p.mode = 0 ∨ p.st = 1 then []
    else p.legs.filterMap fun l =>
      if l.1 && l.2.kind == 3 && l.2.index == n && (l.2 == p.eg || p.legLive) then tagEntry p l.2 ch else none
  (sortBy (fun a b => decide (a.1 * 1024 + a.2.1 ≤ b.1 * 1024 + b.2.1)) es).map fun x => x.2.2

/-- The symbols of a new chamber begin: those of the frames before it move on. -/
def TxPath.newFrame (t : TxPath) (ch : Nat) : TxPath := { t with sentCh := some ch, prior := t.prev, prev := t.symbols, symbols := [] }

/-- The whole symbol blocks of one subcarrier and polarisation leave with their pilots (R202, R203). -/
def TxPath.sendBlocks (t : TxPath) (i : Nat) : TxPath :=
  let q := tgetD t.points i []
  let r := symBlocks (i / 2) (i % 2) (q.length / 63) q ((t.seeds[i]?).getD 0)
  { t with
    symbols := t.symbols ++ r.1, points := tput t.points i r.2.1, seeds := t.seeds.set i r.2.2
    formed := if i % 2 = 0 then t.formed.modify (i / 2) (· + 64 * r.1.length) else t.formed }

/-- A frame goes through the transmit DSP: codewords that run on across chambers (R164), shaping frames (R205), points (R206 to R208) and
symbol blocks. -/
def TxPath.transmit (t : TxPath) (code : Nat) (frame : Bits) : TxPath :=
  let e := encodeFrame code t.info frame
  let b := t.coded.append e.2
  let d := deal t.prof (b.len / 256 + 1) t.next b
  let t := { t with frame := frame, info := e.1, coded := d.2.2, next := d.2.1, points := queuePoints t.prof t.points d.1 }
  (List.range (2 * t.prof.length)).foldl TxPath.sendBlocks t

/-! Compatibility mode (R198, R200). The agreement's layout is not in the specification (assumption 80). -/

/-- Bits of the 400ZR frame's overhead in the model. -/
def zrOverhead : Nat := 1280

/-- The 400ZR frame bits of a chamber (R200): the overhead left to the implementer, sent as zero, and the transcoded blocks of the host
port, with local fault where it has none (DESIGN CHOICE, assumption 80). -/
def zrBits (bs : List Block) : Bits :=
  let all := bs.take zrChunk ++ List.replicate (zrChunk - bs.length) Block.localFault
  ({ len := zrOverhead } : Bits).append (Bits.ofFields 1 ((cut 4 (zrChunk / 4) all).flatMap transcode))

/-- The blocks of a received 400ZR frame, its overhead ignored. -/
def zrRead (b : Bits) : List Block := (cut 257 ((b.len - zrOverhead) / 257) (b.fields zrOverhead 1 (b.len - zrOverhead))).flatMap untranscode

/-- Symbols of the 400ZR DSP frame from a place of the stream on: pilots and training symbols where the agreement puts them, and eight coded
bits each elsewhere, four for X and four for Y. Answers the symbols of X and Y and the bits left. -/
def zrSymbols : Nat → Nat → Bits → List Cx × List Cx × Bits
  | 0, _, b => ([], [], b)
  | n + 1, place, b =>
    let x := Config.zrPilot place
    let now : Cx × Cx := match x with
      | some p => (⟨p.1.1, p.1.2⟩, ⟨p.2.1, p.2.2⟩)
      | none => (qamPoint (b.field 0 4), qamPoint (b.field 4 4))
    let r := zrSymbols n (place + 1) (if x.isSome then b else b.drop 8)
    (now.1 :: r.1, now.2 :: r.2.1, r.2.2)

/-- The chamber's 400ZR frame through CFEC and DP-16QAM: `count` symbols. -/
def TxPath.zrTransmit (t : TxPath) (count : Nat) : TxPath :=
  let frame := zrBits t.zrBlocks
  let x := Config.cfec frame.len frame.val
  let r := zrSymbols count ((t.formed[0]?).getD 0) (t.coded.append { len := x.1, val := x.2 % 2 ^ x.1 })
  { t with
    frame := frame, zrBlocks := t.zrBlocks.drop zrChunk, coded := r.2.2, formed := t.formed.modify 0 (· + count)
    symbols := [{ sub := 0, pol := 0, symbols := r.1 }, { sub := 0, pol := 1, symbols := r.2.1 }] }

/-- What a leaf's subcarriers sent over the chamber that has passed, at the symbol instants of the grid (R235, R312). -/
def Engine.leafChamber (e : Engine) (k : Nat) (start : Int) : TxPath :=
  let first := e.cfg.symbolsTo (k - 1)
  let count := e.cfg.symbolsTo k - first
  { e.tx with
    formed := e.tx.formed.map (· + count)
    symbols := (List.range (2 * e.cfg.subs)).map fun i =>
      { sub := i / 2, pol := i % 2
        symbols := (List.range count).map fun (j : Nat) =>
          e.leafSymbol (i / 2) (i % 2) (start + ((j * e.cfg.subs * 100000000 / max 1 e.cfg.rateE4 : Nat) : Int)) } }

/-- The samples that saturate in the chamber whose waveform is whole are counted by lane, in DAC_CLIP and for the millisecond (R226). -/
def State.countClips (s : State) (n : Nat) : State :=
  let l := (List.range 4).map ((s.eng n).laneClips s.mono)
  let s : State := (List.range 4).foldl (fun (s : State) k => s.bump (engUnit n 4) 0 k ((l[k]?).getD 0)) s
  s.modTx n fun t => { t with clipMs := (List.range 4).map fun k => (t.clipMs[k]?).getD 0 + (l[k]?).getD 0 }

/-- Queue a management message on an engine. -/
def State.queueMgmt (s : State) (n : Nat) (content : List Byte) : State :=
  s.modTx n fun t => { t with mgmtQ := t.mgmtQ ++ [mgmtFrame content] }

/-- The chamber frame of an engine in native mode with its overhead area, tiles and symbols. -/
def State.nativeSend (s : State) (n : Nat) : State :=
  let e := s.eng n
  let c := e.cfg
  let ch := s.chamber
  let m := sendMgmt (8 * c.mgmtWords e.tx.prof) e.tx.mgmtQ
  let header := s.headerWords n ch
  let frame := c.frameOf e.tx.prof ch header (s.groupsOut n) (s.tagEntries n ch) m.2.1
  let s := if s.timeWordFree n ch then s.free.2 else s
  let s := s.modTx n fun t => { (t.newFrame ch).transmit c.code frame with
    header := header, mgmtQ := m.1, stage := t.stage.filter fun x => decide (0x10000 ≤ x.1)
    rdi := e.mp.role != 1 && e.rdiNow }
  s.bump (engUnit n 3) 0 5 m.2.2

/-- LINE_FRAME_SEND: what an engine sends for the current chamber, once: the frame of native mode; the 400ZR frame, into which compatibility
mode maps the blocks of its host port (R200); on a leaf no frame, but the symbols of its bursts. -/
def State.lineFrameSend (s : State) (n : Nat) : State :=
  let e := s.eng n
  let c := e.cfg
  let ch := s.chamber
  let k := chAhead ch e.tx.gridAt
  if !e.tx.runs || e.tx.sentCh == some ch then s
  else if c.mode = 2 then
    let s := s.modTx n fun t => (t.newFrame ch).zrTransmit (c.symbolsTo (k + 1) - c.symbolsTo k)
    (s.bump (engUnit n 0) 0 0 (c.blocksIn k)).countClips n
  else if c.mode != 1 || e.tx.prof.isEmpty then s
  else if e.mp.role == 2 then
    (s.modTx n fun t => ({ e with tx := t.newFrame ch } : Engine).leafChamber k (s.chamberStart ch * 250 - 1280000)).countClips n
  else ((s.nativeSend n).bump (engUnit n 0) 0 0 (c.blocksIn k)).countClips n

/-! LINE_FRAME_RECEIVE (R173 to R181, R191 to R195). -/

/-- The bit ranges of a frame that lie in uncorrectable codewords (R190). -/
def RxPath.lostRanges (r : RxPath) (pos len : Nat) : List (Nat × Nat) :=
  r.cwBad.filterMap fun x =>
    let lo := max x.1 pos
    let hi := min (x.1 + x.2) (pos + len)
    if lo < hi then some (lo - pos, hi - lo) else none

/-- Why a marker is bad: 1 marker, 2 HCRC, 3 chamber sequence, 4 uncorrectable (R193, Table 5.7). In lock the marker stands at the place
that I(c) gives, or it is none. -/
def State.markerBad (s : State) (n : Nat) (f : LineFrame) (bad : List (Nat × Nat)) : Option Nat :=
  let r := (s.eng n).rx
  if (s.eng n).cfg.mode = 2 then (if f.found then none else some 1)
  else if r.frame && (r.expect.map Prod.snd) != some f.pos then some 1
  else match frameHeader f.bits bad with
    | none => some 4
    | some ws =>
      if hbits ws 0 48 16 ≠ 0xC35A then some 1
      else if hbits ws 7 0 16 ≠ headerCrc ws then some 2
      else if r.frame && (r.expect.map Prod.fst) != some (hbits ws 0 0 48) then some 3 else none

/-- The far end's epoch (R40). -/
def State.takeEpoch (s : State) (n epoch : Nat) : State :=
  let r := (s.eng n).rx
  let bad := epoch != s.epoch
  let s := s.modRx n fun r => { r with farEpoch := some epoch, epochBad := bad }
  let s := if bad && (s.eng n).mp.role == 2 then s.modMp n fun m => { m with leafSt := 0 } else s
  if bad && !r.epochBad then s.raise (islEng n) .domainMismatch (islEng n * 256 + 0xFE) (le 6 epoch) else s

/-- An arm of the far end counts from the chamber after acceptance to the end of Cc - 3 (R120). -/
def State.takeArm (s : State) (n cc : Nat) : State :=
  let ch := s.chamber
  { s with tab := { s.tab with commits := s.tab.commits.map fun c => match c.paired with
      | some p =>
        if p.engine = n ∧ c.cc = cc ∧ chLater ch p.since ∧ chReached (chSub cc 3) ch then { c with paired := some { p with farArm := true } } else c
      | none => c } }

/-- The far end's latest paired Cc in the frame of a chamber against the engine's own, from the chamber after the later of them on (R121):
two chambers in a row that differ raise TABLE_PAIR_MISMATCH, at an engine that had no paired swap too (R122). -/
def State.takePaired (s : State) (n ch : Nat) (far : Option Nat) : State :=
  let e := s.eng n
  let own := e.tx.paired
  let last := match own, far with | some a, some b => some (chMax a b) | some a, none => some a | none, b => b
  let differs := own != far && (match last with | some cc => chLater ch cc | none => false)
  if !differs then s.modRx n fun r => { r with pairRun := 0 }
  else
    let s := s.modRx n fun r => { r with pairRun := r.pairRun + 1 }
    if e.rx.pairRun + 1 = 2 then s.raise (islEng n) .tablePairMismatch (islEng n) (le 6 (own.getD 0) ++ le 6 (far.getD 0)) else s

/-- RDI and PROFILE_TAG of the frame of a chamber (R174). -/
def State.takeTags (s : State) (n ch : Nat) (ws : List Nat) : State :=
  let e := s.eng n
  let rdi := hbits ws 1 40 1 == 1
  let own := e.cfg.profileTag (e.rx.profOf ch)
  let far := hbits ws 1 16 16
  let s := s.modRx n fun r => { r with
    farRdi := rdi, farDeg := hbits ws 1 39 1 == 1, farNode := hbits ws 1 48 16, farEngine := hbits ws 1 45 3
    farTxDelay := hbits ws 7 44 20, profBad := own != far }
  let s := if rdi != e.rx.farRdi then s.raise (islEng n) .lineRemoteDefect n (le 1 (bit rdi)) else s
  if own != far && !e.rx.profBad then s.raise (islEng n) .lineProfileMismatch n (le 2 own ++ le 2 far) else s

/-- The latest chamber at or before `ch` whose low 16 bits are `low`. -/
def latestWith (ch low : Nat) : Nat := chSub ch ((ch + 65536 - low) % 65536)

/-- θ and d_AB of R408 in quarter-nanoseconds from four times in quarter-nanoseconds and ASYM in ps. -/
def twoWayOf (t1 t2 t3 t4 asym : Int) : Int × Int :=
  (roundDiv (250 * ((t2 - t1) - (t4 - t3)) - asym) 500, roundDiv (250 * ((t2 - t1) + (t4 - t3)) + asym) 500)

/-- The time words of a frame (R313, R408, R411): a valid exchange gives θ and the delay to the far end; an ACTIVE leaf offers its
own measurement, with its own arrival stamp of the hub's marker for RX_STAMP (DESIGN CHOICE, assumption 82). -/
def State.takeTime (s : State) (n : Nat) (ws : List Nat) (arrival : Nat) : State :=
  let e := s.eng n
  let t3 : Int := (hbits ws 2 16 48 * secQ + hbits ws 0 0 48 * chamberQ + hbits ws 7 44 20 : Nat)
  let t4 : Int := (arrival : Int)
  if e.mp.role = 2 then
    let down := (t4 - t3) * 250
    let s := s.modMp n fun m => { m with mDown := down, offer := if m.leafSt = 2 then some ((down - m.advance) / 2, down + m.advance) else none }
    match (s.eng n).mp.offer with
    | some (err, trip) =>
      (s.exchanged (32 + n) (-(roundDiv err 250)) (roundDiv trip 500)).modRx n fun r =>
        { r with theta := some (-(roundDiv err 250)), delay := roundDiv trip 500 }
    | none => s
  else if hbits ws 5 63 1 = 0 then s
  else
    let t2 : Int := (stampTime (hbits ws 5 0 32 * 2 ^ 48 + hbits ws 6 16 48) : Nat)
    let t1 := s.chamberStart (latestWith s.chamber (hbits ws 5 32 16)) + (e.tx.txDelay : Int)
    let asym := match tget s.tim.inputs (32 + n) with | some x => x.compPs | none => 0
    let x := twoWayOf t1 t2 t3 t4 asym
    if decide (x.2 ≥ (2 ^ 15 * chamberQ : Nat)) then s
    else
      let s := (s.modRx n fun r => { r with theta := some x.1, delay := x.2 }).modTim fun t => { t with exchanges := t.exchanges + 1 }
      s.exchanged (32 + n) x.1 x.2

/-- What the slot entries of a frame say of one leg's run (R51, R176). -/
def trailSeen (entries : List (Option Nat)) (first m trail : Nat) : TrailSeen :=
  let got := (List.range m).map fun k => (entries[first + k]?).getD none
  match got.find? fun x => match x with | some t => t != trail | none => false with
  | some (some t) => .other t
  | _ => if got.all fun x => x.isSome then .all else .part

/-- The entries of a frame meet every leg whose ingress is a group of the engine. -/
def State.takeEntries (s : State) (n : Nat) (entries : Nat → List (Option Nat)) : State :=
  (tkeys s.pas).foldl
    (fun (s : State) id => match tget s.pas id with
      | none => s
      | some p =>
        let see := fun (s : State) (e : Endpoint) (prot : Bool) =>
          if p.st == 2 && e.kind == 3 && e.index == n then s.trail id prot (trailSeen (entries e.sub) e.first p.slots p.trail) else s
        let s := see s p.ing false
        match p.leg with
        | some l => if p.chooses then see s l.endpoint true else s
        | none => s)
    s

/-- Management bytes arrive (R181): whole messages are delivered in order; a message with a lost byte is discarded and counted. -/
def State.takeMgmt (s : State) (n : Nat) (bytes : List (Option Byte)) : State :=
  let b := (s.eng n).rx.mgmtBuf ++ bytes
  let r := hunt (b.length + 1) b
  let s := s.modRx n fun x => { x with mgmtBuf := r.2.2 }
  let s := (s.bump (engUnit n 3) 0 6 r.1.length).bump (engUnit n 3) 0 7 r.2.1
  s.modTim fun t => { t with inbox := t.inbox ++ r.1.map fun c => (32 + n, c) }

/-- The mean of a list of numbers, rounded down. -/
def meanNat (l : List Nat) : Nat := l.foldl (· + ·) 0 / max 1 l.length

/-- FEC degrade (R192, R199): the pre-FEC BER averaged over the last 8 192 chambers in frame lock, or over those there have been; chambers
out of frame lock contribute nothing (DESIGN CHOICE, assumption 86). -/
def State.takeBer (s : State) (n ber : Nat) : State :=
  let e := s.eng n
  let th := e.cfg.threshold
  let l := (ber :: e.rx.bers).take 8192
  let avg := meanNat l
  let s := s.modRx n fun r => { r with ber := avg, bers := l }
  if !e.rx.fecDeg && decide (100 * avg ≥ 70 * th) then
    (s.modRx n fun r => { r with fecDeg := true }).raise (islEng n) .lineFecDegrade n (le 4 avg)
  else if e.rx.fecDeg && decide (100 * avg < 50 * th) then
    (s.modRx n fun r => { r with fecDeg := false }).raise (islEng n) .lineFecDegradeClear n (le 4 avg)
  else s

/-- A whole chamber in frame lock without an uncorrectable codeword ends FEC signal failure (R191); the chamber in which the frame locks is
not one. LINE_FEC_SF_CLEAR carries every uncorrectable codeword since the run began (DESIGN CHOICE, assumption 82). -/
def State.takeFec (s : State) (n : Nat) : State :=
  let r := (s.eng n).rx
  let s := s.modRx n fun r => { r with fecBad := false, fecWhole := true }
  if r.fecSf && !r.fecBad && r.fecWhole then
    (s.modRx n fun r => { r with fecSf := false, fecRun := 0 }).raise (islEng n) .lineFecSfClear n (le 4 (satN 4 r.fecRun))
  else s

/-- Does a leaf have windows? -/
def LeafProf.any (p : LeafProf) : Bool := p.windows.any fun b => b != 0

/-- A leaf enters RANGING when it can send (R312, R313, R315): it takes the measured downstream delay, within 0 to 5 ms, as its advance. -/
def State.leafRange (s : State) (n : Nat) : State :=
  let e := s.eng n
  let ok := e.mp.role == 2 && e.mp.leafSt == 0 && e.rx.frame && e.rx.farEpoch == some s.epoch && e.tx.permit && e.mp.own.any
  if ok then s.modMp n fun m => { m with leafSt := 1, advance := max 0 (min 5000000000 m.mDown) } else s

/-- Frame lock on the second good marker (R194): RDI clears, and the first SNR window starts at the next boundary (R271); after a re-lock
the grid of windows is kept (DESIGN CHOICE, assumption 82). -/
def State.frameLocked (s : State) (n : Nat) : State :=
  let ch := s.chamber
  let s := s.modRx n fun r => { r with
    frame := true, badRun := 0, fecBad := false, use := if r.use = 1 then 2 else r.use
    winStart := match r.winStart with | some c => some c | none => some (chAdd ch 1) }
  let s := s.modTx n fun t => { t with rdi := (s.eng n).rx.fecSf }
  s.raise (islEng n) .lineFrameLock n []

/-- The skew of a protected passage, once both legs have stamped the marker of a chamber: protect-leg arrival minus working-leg arrival in
ns (R82, R84). -/
def State.takeSkews (s : State) (n ch : Nat) : State :=
  (tkeys s.pas).foldl
    (fun (s : State) id => match tget s.pas id with
      | none => s
      | some p => match p.leg with
        | none => s
        | some l =>
          let at_ := fun (m : Nat) => ((s.eng m).rx.stamps.find? fun x => x.1 == ch).map Prod.snd
          if !p.chooses || (p.ing.index != n && l.engine != n) then s
          else match at_ l.engine, at_ p.ing.index with
            | some b, some a => s.measureSkew id (((b : Int) - (a : Int)) / 4)
            | _, _ => s)
    s

/-- The blocks of a frame reach their slots (R31, R182 to R186, R190): in each group of the active bank block k belongs to slot k mod Ng. A
block arrived with its place in the frame. -/
def State.takeBlocks (s : State) (n ch : Nat) (f : LineFrame) (bad : List (Nat × Nat)) : State :=
  let c := (s.eng n).cfg
  let prof := (s.eng n).rx.profOf ch
  (s.groupsOf n false).foldl
    (fun (s : State) mask =>
      let ng := c.groupSlots prof mask
      let pay := payloadRegions prof (c.payloadBits prof ch)
      let r := c.blocksOfGroup prof ch f.bits bad mask ng
      let s := s.bump (engUnit n 3) 0 2 r.2
      ((List.range r.1.length).zip r.1).foldl
        (fun (s : State) x =>
          let place := 64 * c.frameWords prof ch + (placeIn mask 0 pay (64 * x.1)).getD 0
          s.ingress { kind := 3, index := n, sub := mask, slot := x.1 % max 1 ng } x.2 false ch (f.arrival + chamberQ * place / max 1 f.bits.len))
        s)
    s

/-- What a frame in lock brings besides its header: slot entries, management bytes, blocks, FEC state and the bits that tags are read from
(R176, R178, R181, R185, R191, R192). Chamber `ch` fixes its layout. -/
def State.takeFrame (s : State) (n ch : Nat) (f : LineFrame) (bad : List (Nat × Nat)) : State :=
  let c := (s.eng n).cfg
  let prof := (s.eng n).rx.profOf ch
  let s := (s.takeBer n f.ber).takeFec n
  if c.mode = 2 then
    (s.modRx n fun r => { r with zrOut := (r.zrOut ++ zrRead f.bits).take (2 * zrChunk) }).resignal
  else
    let s := s.modRx n fun r => { r with bits := f.bits, bitsCh := ch, lostBits := bad }
    let s := s.takeEntries n fun mask => c.entriesOf prof f.bits bad mask (c.groupSlots prof mask)
    let s := (s.takeMgmt n (c.mgmtIn prof f.bits bad)).resignal
    s.takeBlocks n ch f bad

/-- A good marker in lock: its header is used (R174). -/
def State.useHeader (s : State) (n : Nat) (ws : List Nat) (arrival : Nat) : State :=
  let ch := hbits ws 0 0 48
  let s := (s.takeEpoch n (hbits ws 2 16 48)).takeTags n ch ws
  let s := if hbits ws 3 63 1 = 1 then s.takeArm n (hbits ws 3 0 48) else s
  let s := s.takePaired n ch (if hbits ws 4 63 1 = 1 then some (hbits ws 4 0 48) else none)
  let s := s.takeTime n ws arrival
  let s := s.modRx n fun r => { r with stamps := ((ch, arrival) :: r.stamps).take 32 }
  s.takeSkews n ch

/-- A good marker: the next one is expected I(c) bits on (R163, R193), in lock or out of it (R194). -/
def State.goodMarker (s : State) (n : Nat) (f : LineFrame) (bad : List (Nat × Nat)) : State :=
  let e := s.eng n
  let ws := if e.cfg.mode = 2 then [] else (frameHeader f.bits bad).getD []
  let ch := if e.cfg.mode = 2 then s.chamber else hbits ws 0 0 48
  let second := if e.cfg.mode = 2 then e.rx.expect.isSome else (e.rx.expect.map Prod.snd) == some f.pos
  let s := s.modRx n fun r => { r with
    badRun := 0, marker := some ch, expect := some (chAdd ch 1, f.pos + e.cfg.frameBitsAt (r.profOf ch) ch) }
  if !e.rx.frame && !second then s
  else
    let s := if e.rx.frame then s else s.frameLocked n
    let s := if e.cfg.mode = 2 then s else s.useHeader n ws f.arrival
    (s.takeFrame n ch f bad).leafRange n

/-- A bad marker in lock: the first one leaves the frame where it is, and what correctable codewords carry is used; the second one in a row
loses the frame (R195). -/
def State.badMarker (s : State) (n cause : Nat) (f : LineFrame) (bad : List (Nat × Nat)) : State :=
  let e := s.eng n
  if e.rx.badRun + 1 ≥ 2 then s.frameLost n cause
  else match e.rx.expect with
    | none => s
    | some (ch, pos) =>
      let s := s.modRx n fun r => { r with
        badRun := 1, pairRun := 0, expect := some (chAdd ch 1, pos + e.cfg.frameBitsAt (r.profOf ch) ch) }
      s.takeFrame n ch f (if f.pos = pos then bad else [(0, f.bits.len)])

/-- LINE_FRAME_RECEIVE. Out of lock every place of the stream is searched: a bad marker there ends nothing, and a good one anywhere but at
the expected place is the first of two (R194). -/
def State.lineFrameReceive (s : State) (n : Nat) (f : LineFrame) : State :=
  let e := s.eng n
  if !e.tx.runs || e.rx.los || e.mp.role == 1 then s
  else
    if !e.rx.lock then s
    else
      let bad := e.rx.lostRanges f.pos f.bits.len
      let s := match s.markerBad n f bad with
        | some cause =>
          let s := s.bump (engUnit n 3) 0 0 1
          if e.rx.frame then s.badMarker n cause f bad
          else if (e.rx.expect.map Prod.snd) == some f.pos then s.modRx n fun r => { r with expect := none }
          else s
        | none => s.goodMarker n f bad
      s.modRx n fun r => { r with cwBad := r.cwBad.filter fun x => decide (f.pos + f.bits.len < x.1 + x.2) }

/-! FEC_CODEWORD_DECODE (R187 to R191). -/

/-- The most iterations of the decoder (Table 5.4); CFEC names none. -/
def EngCfg.maxIters (c : EngCfg) : Nat := if c.mode = 2 then 16 else match c.code with | 1 => 12 | 2 => 14 | _ => 16

/-- The next codeword leaves the collector (R263 to R265), and fill frames behind it are counted. In compatibility mode CFEC takes the soft
values that wait (assumption 80). -/
def State.collect (s : State) (n : Nat) : State :=
  let e := s.eng n
  if e.cfg.mode = 2 then s.modRx n fun r => { r with cwAt := r.cwAt + codeK e.cfg.code, dsp := { r.dsp with soft := [] } }
  else
    let x := e.rx.takeCodeword e.cfg
    (s.modRx n fun _ => x.1).bump (engUnit n 1) 0 5 x.2

/-- FEC_CODEWORD_DECODE: one codeword with the bits it corrected and the iterations it took. It is uncorrectable where a parity check
failed after the last iteration or engine memory returned an uncorrectable error (R189); its information bits are then lost (R190), and
eight such codewords in a row are FEC signal failure. A hub counts the codewords of bursts instead (R291, R319). -/
def State.fecDecode (s : State) (n : Nat) (failed : Bool) (corrected iters : Nat) : State :=
  let e := s.eng n
  if !e.tx.runs || !e.rx.lock || e.mp.role == 1 then s
  else
    let uncorr := failed || e.rx.memBad
    let s := (s.collect n).bump (engUnit n 2) 0 0 1
    let s := if 1 ≤ iters ∧ iters ≤ e.cfg.maxIters then s.bump (engUnit n 2) 0 (2 + iters) 1 else s
    let s := s.modRx n fun r => { r with
      memBad := false, cwBad := if uncorr then r.cwBad ++ [(e.rx.cwAt, r.cwAt - e.rx.cwAt)] else r.cwBad }
    if uncorr then
      let s := s.bump (engUnit n 2) 0 1 1
      let s := s.modRx n fun r => { r with fecBad := true, fecRun := r.fecRun + 1 }
      if e.rx.fecRun + 1 = 8 ∧ !e.rx.fecSf then
        let s := s.modRx n fun r => { r with fecSf := true }
        let s := s.modTx n fun t => { t with rdi := true }
        (s.raise (islEng n) .lineFecSf n (le 4 8)).engineLoss n
      else s
    else
      let s := s.bump (engUnit n 2) 0 2 corrected
      if e.rx.fecSf then s else s.modRx n fun r => { r with fecRun := 0 }

end Sys2Proof.Machine
end

