-- ==== Sys2Proof/Machine/Umran.lean ====
section
/-!
DEFINITION. The Umran link (18_umran_link.md): ULINK_CONFIG, ULINK_STATUS, lanes, frames and the reference clock; and the TIME_WORD
steps that the firmware keeps (R408).
-/
namespace Sys2Proof.Machine

/-- Change a configured Umran port. -/
def State.modUl (s : State) (p : Nat) (f : UlPort → UlPort) : State := { s with ul := { s.ul with ports := tmod s.ul.ports p f } }

/-- The carrier code of an Umran port (Table 3.3). -/
def ulCode (p : Nat) : Nat := 0x400 + p

/-! TIME_WORD steps (R408). -/

/-- PERIOD_LOG of the TIME_WORD step that a carrier should have, if any. -/
def State.wantedPeriod (s : State) (port : Bool) (k : Nat) : Option Nat :=
  if port then (if (s.ulPort k).up && !s.spread then some (s.timePeriod (24 + k)) else none)
  else
    let e := s.eng k
    if e.cfg.mode = 1 && e.mp.role != 1 && (e.tx.enabled || e.tx.enableAt.isSome) && e.tx.disableAt.isNone then some (s.timePeriod (32 + k))
    else none

/-- The banks once every scheduled commit has swapped. -/
def State.lastImage (s : State) : Tab Bank := s.tab.commits.foldl s.applyCommit s.tab.banks

/-- PERIOD_LOG of the TIME_WORD step of a carrier in an image. -/
def periodIn (img : Tab Bank) (code : Nat) : Option Nat :=
  ((tgetD img islTime {}).fw.find? fun x => wAction x.w == 0x40 && wop x.w 52 12 == code).map fun x => wPeriod x.w

/-- Commit the TIME_WORD steps that are missing or stale, at the earliest chamber. -/
def State.syncTimeWords (s : State) : State :=
  let want := ((List.range 8).map fun n => (engCode n, s.wantedPeriod false n)) ++ (List.range 4).map fun p => (ulCode p, s.wantedPeriod true p)
  let img := s.lastImage
  let changes := (want.filter fun x => periodIn img x.1 != x.2).map fun x => FwChange.timeWord x.1 x.2
  if changes.isEmpty then s else s.schedule (s.earliest false) none [] changes

/-! Spread (R625, R626). -/

/-- Spread keeps every Umran two-way input DISQUALIFIED with cause 5; without it the inputs of ports that are up qualify again. -/
def State.spreadInputs (s : State) : State :=
  (List.range 4).foldl
    (fun (s : State) p =>
      let i := 24 + p
      let x := s.input i
      if !(thas s.tim.inputs i) then s
      else if s.spread then (if x.st = 4 ∧ x.cause = 5 then s else s.leaveState i 4 5)
      else if x.st = 4 ∧ x.cause = 5 then s.modInput i fun x => { x with st := if (s.ulPort p).up then 2 else 1, since := s.mono }
      else s)
    s

/-- ULINK_REFCLK_MEASURE: the 1 s mean of UL_REFCLK in ppm and its movement within the second (R625, R624). -/
def State.refclkMeasure (s : State) (ppm : Int) (peak : Nat) : State :=
  let bad := decide (ppm < -1000) || decide (peak > 200)
  let was := s.ul.detected
  let clean := if bad then 0 else s.ul.cleanS + 1
  let det := bad || (was && decide (clean < 60))
  let s := { s with ul := { s.ul with ppm := ppm, cleanS := clean, detected := det } }
  let s := if det && !was then s.raise islUlink .ulinkSpreadDetected 0xFFFF (leS 2 ppm) else s
  if det = was then s else (s.spreadInputs.reselect).syncTimeWords

/-! Ports up and down (R633, R634). -/

/-- The lanes of a port are locked, deskewed within 79.5 ns and each LANE_ID appears once; otherwise the cause of Table 18.8. -/
def UlPort.laneFault (x : UlPort) : Option Nat :=
  if x.lanes.any fun l => !l.locked then some 1
  else if x.lanes.any fun l => decide (l.skew > 795) then some 2
  else if (List.range 4).any fun k => !(x.lanes.any fun l => l.id == k) then some 4 else none

/-- Bring a port up once its lanes and two consecutive frames are good. -/
def State.ulTryUp (s : State) (p : Nat) : State :=
  let x := s.ulPort p
  if !(s.ulConfigured p) || x.up || x.laneFault.isSome || x.good < 2 then s
  else
    let s := s.modUl p fun x => { x with up := true, wasUp := true, timedOut := false, bad := 0 }
    let s := s.raise islUlink .ulinkPortUp p (le 4 (satN 4 ((s.mono - x.ref) / usQ)))
    let s := if s.spread then s.spreadInputs else s.inputPresent (24 + p)
    s.syncTimeWords.resignal

/-- A port goes down. -/
def State.ulDown (s : State) (p cause : Nat) : State :=
  let x := s.ulPort p
  if !x.up then s
  else
    let s := s.modUl p fun x => { x with
      up := false, ref := s.mono, timedOut := false, good := 0, mgmtBuf := [], seen := [], exchanged := false, farEpoch := none }
    let s := if x.mgmtBuf.isEmpty then s else s.bump (0x0E00 + p) 0 12 1
    let s := (s.bump (0x0E00 + p) 0 7 1).raise islUlink .ulinkPortDown p (le 1 cause)
    ((s.inputLost (24 + p)).syncTimeWords).resignal

/-- A locked lane loses lock and hunts again (R632). -/
def State.ulLaneLost (s : State) (p i : Nat) : State :=
  let s := s.modUl p fun x => { x with lanes := x.lanes.set i {}, good := 0 }
  let s := (s.bump (0x0E00 + p) 0 6 1).raise islUlink .ulinkLaneLost p (le 1 (4 * p + i))
  s.ulDown p 1

/-- ULINK_LANE_LOCK: blocks reach physical lane `i` of a port from a candidate comma on, with the lane's skew in 0.1 ns (R632, R633). A lane
that hunts locks where 64 valid blocks begin there; a locked lane loses lock on 8 invalid blocks within 64. -/
def State.ulLaneLock (s : State) (p i : Nat) (blocks : List Block) (skew : Nat) : State :=
  let x := s.ulPort p
  let l := (x.lanes[i]?).getD {}
  let bs := invertLane x.rxInvert i blocks
  if !(s.ulConfigured p) || i > 3 then s
  else if l.locked && eightIn64 (invalidAt bs) then s.ulLaneLost p i
  else if !l.locked && !(locksAt bs) then s
  else
    let s := s.modUl p fun x => { x with lanes := x.lanes.set i { l with locked := true, id := (laneIdOf bs).getD l.id % 4, skew := skew } }
    match (s.ulPort p).laneFault with
    | some c => if x.up then s.ulDown p c else s
    | none => s.ulTryUp p

/-- ULINK_PORT_TIMEOUT: a port is not up 100 ms after its configuration or its loss (R634). -/
def State.ulTimeout (s : State) (p : Nat) : State :=
  let x := s.ulPort p
  if !(s.ulConfigured p) || x.up || x.timedOut || !(s.since x.ref (100 * msQ)) then s
  else (s.modUl p fun x => { x with timedOut := true }).raise islUlink .ulinkPortDown p (le 1 (x.laneFault.getD 3))

/-! Frames (R628 to R639). -/

/-- OCRC over the overhead blocks from the header to the map, without TW2 bits [15:0] (R636). -/
def ocrc (ws : List Nat) : Nat :=
  crc16 ((ws.take 3).flatMap (be 8) ++ (be 8 ((ws[3]?).getD 0)).take 6 ++ (ws.drop 4).flatMap (be 8))

/-- The TRAIL of a UL_SLOT step of a direction that names a slot of a port (R637). -/
def State.ulTrail (s : State) (p slot : Nat) (egress : Bool) : Nat :=
  match (s.bank islUlink).words.find? fun w =>
    wAction w == 0x38 && wTarget w == 0x0E00 + p && wSlot w == slot && bitAt (wOperand w) 63 == egress with
  | some w => wop w 32 16
  | none => 0

/-- Four 16-bit entries as a map block. -/
def mapBlock (l : List Nat) : Nat := l.foldl (fun a x => a * 65536 + x % 65536) 0

/-- Does a UL_SLOT step with DIR 1 name a slot of a port? -/
def State.ulAssigned (s : State) (p slot : Nat) : Bool := s.slotStep { kind := 4, index := p, slot := slot } true

/-- Slot blocks that 80 slots have by a domain time: 100 each in a chamber (R31). -/
def slotBlocksBy (t : Nat) : Nat := 8000 * t / chamberQ

/-- The slot blocks of a frame, at most `k`, from a slot on, in the order of R31: what a slot has staged, fill in a slot that no step
names (R53), and nothing from the first slot whose block the passage switch does not have ready (R631). With them the slot that comes next
and what stays staged. -/
def takeReady (assigned : Nat → Bool) : Nat → Nat → Tab (List Block) → List Block × Nat × Tab (List Block)
  | 0, slot, st => ([], slot, st)
  | k + 1, slot, st => match tgetD st slot [] with
    | b :: rest =>
      let r := takeReady assigned k ((slot + 1) % 80) (tput st slot rest)
      (b :: r.1, r.2)
    | [] =>
      if assigned slot then ([], slot, st)
      else
        let r := takeReady assigned k ((slot + 1) % 80) st
        (Block.idle :: r.1, r.2)

/-- The time fields of a marked frame of chamber `c` (Table 18.4): FAR_CHAMBER and RX_STAMP of the partner's latest marked frame that
arrived before `c` began. Where there is none the specification states no value: they are free (assumption 3). -/
def State.ulTimeWord (s : State) (p c : Nat) : (Nat × Nat) × State :=
  match (s.ulPort p).farMarks.find? fun m => decide ((m.2 : Int) < s.chamberStart c) with
  | some m => ((m.1 % 65536, stampBits m.2), s)
  | none => ((s.free.1 % 65536, s.free.1 / 65536 % 2 ^ 80), s.free.2)

/-- The fourteen overhead words of a port's next frame, whose first slot block belongs to slot `slot`, and whether it is marked (R636 to
R638). -/
def State.ulWords (s : State) (p depart slot : Nat) : List Nat × Bool × State :=
  let x := s.ulPort p
  let c := chamberOf s.epoch depart
  let mark := !s.spread && s.timeWordIn (ulCode p) c && !(x.marks.any fun m => m.1 == c)
  let far := if mark then s.ulTimeWord p c else ((0, 0), s)
  let delay := if mark then ((depart : Int) - s.chamberStart c).toNat % 65536 else 0
  let tw0 := bit mark * 2 ^ 63 + bit x.half * 2 ^ 62 + bit (!x.up) * 2 ^ 61 + p * 2 ^ 59 + slot * 2 ^ 52 + (if mark then c else 0)
  let st := far.1.2
  let map := (List.range 10).map fun k => mapBlock ((List.range 4).map fun j => s.ulTrail p ((if x.half then 40 else 0) + 4 * k + j) true)
  let ws := [s.node * 2 ^ 48 + s.epoch % 2 ^ 48, tw0, far.1.1 * 2 ^ 48 + st / 2 ^ 32, st % 2 ^ 32 * 2 ^ 32 + delay * 2 ^ 16] ++ map
  (ws.set 3 ((ws[3]?).getD 0 + ocrc ws), mark, far.2)

/-- The four lanes of a frame as they leave, by physical lane, and the scrambler registers behind them (R627 to R629). Physical lane i
carries LANE_ID i (DESIGN CHOICE, assumption 80). -/
def UlPort.lanesFor (x : UlPort) (bs : List Block) : List (List Block × Nat) :=
  (List.range 4).map fun l =>
    let r := scrambleLane ((x.txScr[l]?).getD 0) (laneOf l bs)
    (invertLane x.txInvert l r.1, r.2)

/-- ULINK_FRAME_SEND: a port sends a frame whose lane-0 comma leaves at domain time `depart` (R628 to R631, R638). It carries as many slot
blocks as domain time has brought since the frame before it, and pauses behind them. -/
def State.ulFrameSend (s : State) (p depart : Nat) : State :=
  let x := s.ulPort p
  if !(s.ulConfigured p) then s
  else
    let owed := min 8000 (x.owed + (match x.sentAt with | some t => slotBlocksBy depart - slotBlocksBy t | none => 0))
    let slots := takeReady (s.ulAssigned p) (min owed 4074) x.txSlot x.stage
    let n := slots.1.length
    let w := s.ulWords p depart x.txSlot
    let m := sendMgmt 32 x.mgmtQ
    let lanes := x.lanesFor (portBlocks p w.1 m.2.1 slots.1)
    let s := w.2.2.modUl p fun x => { x with
      frame := w.1, lanesOut := lanes.map Prod.fst, txScr := lanes.map Prod.snd, mgmtQ := m.1, half := !x.half
      txSlot := slots.2.1, stage := slots.2.2, sentAt := some depart, owed := owed - n
      marks := if w.2.1 then ((chamberOf s.epoch depart, depart) :: x.marks).take 8 else x.marks }
    ((s.bump (0x0E00 + p) 0 1 n).bump (0x0E00 + p) 0 2 (4074 - n)).bump (0x0E00 + p) 0 10 m.2.2

/-- The header of a good frame: node ID, epoch, RDI and PORT (R634, R637, R644). -/
def State.ulHeader (s : State) (p : Nat) (ws : List Nat) : State :=
  let x := s.ulPort p
  let node := hbits ws 0 48 16
  let rdi := hbits ws 1 61 1 == 1
  let wrong := x.check && node != x.expect
  let s := s.modUl p fun x => { x with
    farNode := node, farEpoch := some (hbits ws 0 0 48), rdi := rdi, farPort := hbits ws 1 59 2, mismatch := wrong }
  let s := if wrong && !x.mismatch then s.raise islUlink .ulinkPartnerMismatch p (le 2 x.expect ++ le 2 node) else s
  if rdi != x.rdi then s.raise islUlink .ulinkRemoteDefect p (le 1 (bit rdi)) else s

/-- The slot count of a good frame (R631). -/
def State.ulSlots (s : State) (p : Nat) (ws : List Nat) : State :=
  let next := hbits ws 1 52 7
  let s := if (s.ulPort p).rxSlot = next then s else s.bump (0x0E00 + p) 0 5 1
  s.modUl p fun x => { x with rxSlot := next % 80 }

/-- The entries seen of one leg's run: every map entry recurs within a chamber, so that a chamber is clean when the leg has shown nothing
but its TRAIL from before the chamber until after it (R51, R87, Table 18.2). -/
def State.ulLegSeen (s : State) (id : Nat) (y : Passage) (got : List (Option Nat)) (arrival : Nat) : State :=
  match got.find? fun t => match t with | some t => t != y.trail | none => false with
  | some (some t) => s.trail id false (.other t)
  | _ =>
    let since := y.work.goodFrom.getD arrival
    let s := s.modPas id fun y => { y with work := { y.work with goodFrom := some since } }
    let whole := chLater (chamberOf s.epoch arrival) (chAdd (chamberOf s.epoch since) 1)
    if whole && got.all fun t => t.isSome then s.trail id false .all else s

/-- The map entries of a good frame meet every passage whose ingress is the port (R51, R637). -/
def State.ulMap (s : State) (p : Nat) (ws : List Nat) (arrival : Nat) : State :=
  let base := if hbits ws 1 62 1 = 1 then 40 else 0
  let s := s.modUl p fun x => { x with
    seen := (List.range 40).foldl (fun t j => tput t (base + j) (hbits ws (4 + j / 4) (48 - 16 * (j % 4)) 16)) x.seen }
  let seen := (s.ulPort p).seen
  (tkeys s.pas).foldl
    (fun (s : State) id => match tget s.pas id with
      | none => s
      | some y =>
        if y.st != 2 || y.ing.kind != 4 || y.ing.index != p then s
        else s.ulLegSeen id y ((List.range y.slots).map fun k => tget seen (y.ing.first + k)) arrival)
    s

/-- A frame whose entries cannot be compared: no slot has carried its expected TRAIL in it (R636). -/
def State.ulNoMap (s : State) (p : Nat) : State :=
  (tkeys s.pas).foldl
    (fun (s : State) id => match tget s.pas id with
      | none => s
      | some y => if y.ing.kind = 4 ∧ y.ing.index = p then s.modPas id fun y => { y with work := { y.work with goodFrom := none } } else s)
    s

/-- The time words of a good frame (R411, R638). -/
def State.ulTime (s : State) (p : Nat) (ws : List Nat) (arrival : Nat) : State :=
  if hbits ws 1 63 1 = 0 || s.spread then s
  else
    let b := hbits ws 1 0 48
    let x := s.ulPort p
    let s := s.modUl p fun x => { x with farMarks := ((b, arrival) :: x.farMarks).take 2 }
    match x.marks.find? fun m => m.1 % 65536 == hbits ws 2 48 16 with
    | none => s
    | some m =>
      let t2 : Int := (stampTime (hbits ws 2 0 48 * 2 ^ 32 + hbits ws 3 32 32) : Nat)
      let t3 : Int := (hbits ws 0 0 48 * secQ + b * chamberQ + hbits ws 3 16 16 : Nat)
      let asym := match tget s.tim.inputs (24 + p) with | some i => i.compPs | none => 0
      let y := twoWayOf (m.2 : Int) t2 t3 (arrival : Int) asym
      if decide (y.2 ≥ (2 ^ 15 * chamberQ : Nat)) then s
      else
        let s := (s.modUl p fun x => { x with theta := some y.1, exchanged := true }).modTim fun t => { t with exchanges := t.exchanges + 1 }
        s.exchanged (24 + p) y.1 y.2

/-- Management bytes of a frame, none where they count as bytes of an uncorrectable codeword (R639). -/
def State.ulMgmt (s : State) (p : Nat) (bytes : List (Option Byte)) : State :=
  let b := (s.ulPort p).mgmtBuf ++ bytes
  let r := hunt (b.length + 1) b
  let s := s.modUl p fun x => { x with mgmtBuf := r.2.2 }
  let s := (s.bump (0x0E00 + p) 0 11 r.1.length).bump (0x0E00 + p) 0 12 r.2.1
  s.modTim fun t => { t with inbox := t.inbox ++ r.1.map fun c => (24 + p, c) }

/-- A frame whose OCRC fails (R633, R636, R639). -/
def State.ulBadFrame (s : State) (p : Nat) : State :=
  let bad := (s.ulPort p).bad + 1
  let s := (s.modUl p fun x => { x with good := 0, bad := bad, seen := [] }).ulNoMap p
  let s := (s.ulMgmt p (List.replicate 32 none)).bump (0x0E00 + p) 0 4 1
  if bad ≥ 2 then s.ulDown p 3 else s

/-- The lanes of a frame reach the receiver: each locked lane counts its invalid blocks, and one that has 8 of them within 64 blocks loses
lock (R632); commas name the lanes (R633); the descramblers run on. -/
def State.ulLanes (s : State) (p : Nat) (lanes : List (List Block)) : State :=
  (List.range 4).foldl
    (fun (s : State) i =>
      let x := s.ulPort p
      let l := (x.lanes[i]?).getD {}
      if !l.locked then s
      else
        let bs := invertLane x.rxInvert i ((lanes[i]?).getD [])
        let bad := invalidAt bs
        let scr := (descrambleLane ((x.rxScr[i]?).getD 0) bs).2
        let s := (s.bump (0x0E00 + p) 0 3 bad.length).modUl p fun x => { x with
          rxScr := x.rxScr.set i scr, lanes := x.lanes.set i { l with id := (laneIdOf bs).getD l.id % 4, late := bad } }
        if eightIn64 (l.late ++ bad.map fun k => k + 1024) then s.ulLaneLost p i else s)
    s

/-- The port blocks of a frame, descrambled, each with its place in its lane. -/
def UlPort.portFrame (x : UlPort) (lanes : List (List Block)) : List (Nat × Block) :=
  mergeLanes ((List.range 4).map fun i =>
    let bs := invertLane x.rxInvert i ((lanes[i]?).getD [])
    ((laneIdOf bs).getD ((x.lanes[i]?).getD {}).id, (descrambleLane ((x.rxScr[i]?).getD 0) bs).1))

/-- The slot blocks of a frame: what is no pause. An invalid block counts as one, and is delivered as an error block (R631, R635). -/
def slotBlocksOf (frame : List (Nat × Block)) : List (Nat × Block) :=
  ((List.range frame.length).zip frame).filterMap fun x =>
    if x.1 < 22 then none
    else if laneInvalid x.2.1 x.2.2 then some (x.1, Block.error)
    else if x.2.2 == pauseBlock then none else some (x.1, x.2.2)

/-- Slot blocks reach their slots, in the order of R31 from the receiver's count on. A port block lasts 66 / 106.25 ns on one of four
lanes (R627). -/
def State.ulDeliver (s : State) (p : Nat) (blocks : List (Nat × Block)) (arrival : Nat) : State :=
  let s := s.bump (0x0E00 + p) 0 0 blocks.length
  blocks.foldl
    (fun (s : State) x =>
      let slot := (s.ulPort p).rxSlot
      let s := s.modUl p fun y => { y with rxSlot := (slot + 1) % 80 }
      s.ingress { kind := 4, index := p, slot := slot } x.2 false s.chamber (arrival + x.1 * 264 / 425))
    s

/-- ULINK_FRAME_RECEIVE. -/
def State.ulFrameReceive (s : State) (p : Nat) (f : UlFrame) : State :=
  if !(s.ulConfigured p) then s
  else
    let frame := (s.ulPort p).portFrame f.lanes
    let s := s.ulLanes p f.lanes
    match (s.ulPort p).laneFault with
    | some c => s.ulDown p c
    | none =>
      let ws := ((frame.drop 4).take 14).map fun x => blockWord x.2
      let mgmt := ((frame.drop 18).take 4).flatMap fun x => be 8 (blockWord x.2)
      let blocks := slotBlocksOf frame
      if ocrc ws ≠ hbits ws 3 0 16 then (s.ulBadFrame p).ulDeliver p blocks f.arrival
      else
        let s := (s.modUl p fun x => { x with good := x.good + 1, bad := 0 }).ulTryUp p
        if !(s.ulPort p).up then ((s.ulSlots p ws).ulMgmt p (List.replicate 32 none)).ulDeliver p blocks f.arrival
        else
          let s := ((s.ulHeader p ws).ulMap p ws f.arrival).ulTime p ws f.arrival
          (((s.ulSlots p ws).ulMgmt p (mgmt.map some)).resignal).ulDeliver p blocks f.arrival

/-! ULINK_CONFIG and ULINK_STATUS (R642 to R645). -/

/-- STATE of Table 18.6. -/
def State.ulState (s : State) (p : Nat) : Nat :=
  let x := s.ulPort p
  if !(s.ulConfigured p) then 0 else if x.up then 2 else if x.wasUp || x.timedOut then 3 else 1

/-- Do a passage, a UL_SLOT step or a configured input name a port (R643)? -/
def State.ulUsed (s : State) (p : Nat) : Bool :=
  ((tvals s.pas).any fun y => y.legs.any fun l => l.2.kind == 4 && l.2.index == p) ||
  (((s.bank islUlink).words ++ s.tab.commits.flatMap fun c => (tgetD (s.imageAt c.cc) islUlink {}).words).any fun w =>
    wAction w == 0x38 && wTarget w == 0x0E00 + p) || thas s.tim.inputs (24 + p)

/-- ULINK_CONFIG. -/
def State.cmdUlinkConfig (s : State) (q : Request) : State :=
  let p := q.u 0 1
  let act := q.u 1 1
  let bad := act < 1 || act > 3 || (if act = 3 then p != 0xFF || q.u 4 1 > 1 else p > 3 || q.u 4 1 != 0) || !(q.rsv 8 4) ||
    (if act = 1 then q.u 2 1 > 15 || q.u 3 1 > 15 || q.u 5 1 > 1 else !(q.rsv 2 2) || !(q.rsv 5 3))
  s.serve 0x0A01 q 4 (q.len == 12)
    [.bad bad .badParam 0, .lit [if act = 3 then 0x0EFE else 0x0E00 + p], onlyT0 q, .bad (s.island islUlink).belay .notReady 0,
     .bad (if act = 3 then !s.ul.ports.isEmpty else s.ulUsed p) .notIdle 0]
    fun s =>
      match act with
      | 1 =>
        let x : UlPort := { txInvert := q.u 2 1, rxInvert := q.u 3 1, check := bitAt (q.u 5 1) 0, expect := q.u 6 2, ref := s.mono }
        let s := { s with ul := { s.ul with ports := tput s.ul.ports p x } }
        let s := (List.range 4).foldl (fun (s : State) k => s.laneStart (128 + 4 * p + k) 2) s
        let mask := s.defaultMask (128 + 4 * p) 4 2
        let s := if mask = 0 then s else s.raise islUlink .ulinkTableDefault p (le 1 mask)
        (s.syncTimeWords, some (le 1 0 ++ le 1 0 ++ le 1 1 ++ zeros 1))
      | 2 =>
        let s := { s with ul := { s.ul with ports := tdel s.ul.ports p } }
        let s := s.modHost fun h => { h with lanes := h.lanes.filter fun e => !(128 + 4 * p ≤ e.1 && e.1 < 132 + 4 * p) }
        (s.syncTimeWords, some okay4)
      | _ =>
        let s := { s with ul := { s.ul with declared := q.u 4 1 == 1 } }
        ((s.spreadInputs.reselect).syncTimeWords, some okay4)

/-- The slots of a port that passages and raw steps hold. -/
def State.ulSlotsUsed (s : State) (p : Nat) : Nat :=
  let e : Endpoint := { kind := 4, index := p, leaf := 0, first := 0 }
  (indices 80 fun k => (s.takenSlots e true s.chamber ++ s.takenSlots e false s.chamber).contains k).length

/-- One port's part of the ULINK_STATUS response (Table 18.6). -/
def State.ulStatus (s : State) (p : Nat) : List Byte :=
  let x := s.ulPort p
  le 1 (s.ulState p) ++ le 1 (ofBits (x.lanes.map fun l => l.locked)) ++
    le 1 (hSum ((List.range 4).map fun i => ((x.lanes[i]?).getD {}).id * 4 ^ i)) ++
    le 1 (bit x.rdi + 2 * bit (x.up && x.exchanged && !s.spread) + 4 * bit x.mismatch) ++ le 2 x.farNode ++ le 1 x.farPort ++ zeros 1 ++
    le 2 (x.lanes.foldl (fun m l => max m l.skew) 0) ++ le 2 (s.ulSlotsUsed p) ++ zeros 4

/-- ULINK_STATUS. -/
def State.cmdUlinkStatus (s : State) (q : Request) : State :=
  let table := (List.range 16).all fun i => (s.tableEntry (128 + i) 2).isSome
  s.serve 0x0A02 q 72 (q.len == 0) [.lit [0x0EFE], s.anyTenant q]
    fun s => (s, some
      (le 1 0 ++ le 1 (if s.ul.declared then 1 else if s.ul.detected then 2 else 0) ++ le 1 (bit table) ++ zeros 1 ++ leS 2 s.ul.ppm ++
        zeros 2 ++ (List.range 4).flatMap s.ulStatus))

end Sys2Proof.Machine
end

