-- ==== Sys2Proof/Machine/Idle.lean ====
section
/-!
DEFINITION. Idle conditions of islands and units (Tables 15.3, 16.4), the loss of an island's contents (R479, R529, R540), the replay
of latched items (R553) and what a wake from DORMANT finds (R406, R540, R554).
-/
namespace Sys2Proof.Machine

/-! Idle conditions (Table 15.3). -/

/-- The engine of an island. -/
def islandEngine (i : Nat) : Option Nat := if 3 ≤ i ∧ i ≤ 10 then some (i - 3) else none

/-- Reason 1: the engine, or any engine, is enabled. -/
def State.idleEnabled (s : State) (target : Nat) : Option Nat :=
  ((List.range 8).find? fun n => s.enabled n && (target == 0xFF || target == islEng n)).map engIsland

/-- Reason 2: the unit by which an open or pending passage, a protect leg or a raw step names the island; for the device, any passage. -/
def State.idleNamed (s : State) (target : Nat) : Option Nat :=
  let legs := (tvals s.pas).flatMap fun p => p.legs.map fun l => l.2.unit
  if target = 0xFF then legs.head?
  else match legs.find? fun u => unitIsland u == target with
    | some u => some u
    | none => (s.rawWords target).head?.map wTarget

/-- The units that a running job uses (R282, R496, R507, R346). -/
def JobWork.units : JobWork → List Nat
  | .capture n _ => [engIsland n, 0x0C00]
  | .fill _ u _ _ _ _ => if u = 0x0C00 then [u] else [u, 0x0C00]
  | .sweep us _ _ => us.map Prod.fst
  | .calRun n _ _ _ => [engIsland n]
  | .fwStage _ _ _ _ => [0x0C00]
  | _ => []

/-- Reason 3: a running job that uses the island; for the device, any running job. -/
def State.idleJob (s : State) (target : Nat) : Option Nat :=
  if target = 0xFF then s.runningJobs.head?.map fun j => (j.work.units.head?).getD 0xFFFF
  else (s.runningJobs.flatMap fun j => j.work.units).find? fun u => unitIsland u == target

/-- Reason 4: an armed commit that changes the island's image; for the device, any scheduled commit. The unit is the sequencer. -/
def State.idleCommit (s : State) (target : Nat) : Option Nat :=
  if target = 0xFF then (if s.tab.commits.isEmpty then none else some (((List.range 15).find? s.armedChange).getD islFab * 256 + 0xFF))
  else if s.armedChange target then some (target * 256 + 0xFF) else none

/-- Reason 5: a configured host port, FlexE group or Umran port. -/
def State.idlePort (s : State) (target : Nat) : Option Nat :=
  if target = islHost then
    match s.host.ports with
    | p :: _ => some (0x0B00 + p.1)
    | [] => if s.host.groups.isEmpty then none else some 0x0B81
  else if target = islUlink then s.ul.ports.head?.map fun p => 0x0E00 + p.1
  else none

/-- Reason 6: an enabled engine is a hub. -/
def State.idleHub (s : State) (target : Nat) : Option Nat :=
  if target = islMem then ((List.range 8).find? fun n => s.enabled n && (s.eng n).mp.role == 1).map engIsland else none

/-- The first condition of Table 15.3 that blocks an entry, with the first unit found blocking. -/
def State.idleReason (s : State) (target : Nat) : Option (Nat × Nat) :=
  ([(1, s.idleEnabled target), (2, s.idleNamed target), (3, s.idleJob target), (4, s.idleCommit target), (5, s.idlePort target),
    (6, s.idleHub target)].findSome? fun r => r.2.map fun u => (r.1, u))

/-! Unit resets (Table 16.4). -/

/-- The filter channels attached to a converter, now or by a setting still to come. -/
def State.hkFiltersOf (s : State) (c : Nat) : List Nat :=
  s.hk.filters.filterMap fun e =>
    if (e.2.cfg.any fun g => g.conv == c) || (e.2.pend.any fun p => p.2.any fun g => g.conv == c) then some e.1 else none

/-- Is the idle condition of a unit reset met? No transfer of an I2C controller is modelled. -/
def State.unitIdle (s : State) (u : Nat) : Bool :=
  if unitIsland u = islHost then (s.portOf (unitIndex u)).isNone
  else if unitIsland u = islUlink then !(s.ulConfigured (unitIndex u))
  else if u = 0x0002 then s.hk.conv0.seq.entries.isEmpty && s.hk.conv0.pend.isEmpty
  else if u = 0x0003 then s.hk.conv1.seq.entries.isEmpty && s.hk.conv1.pend.isEmpty
  else true

/-- Converter and filter state of a housekeeping converter is cleared; the system slots are HK-ADC1's. -/
def State.clearHk (s : State) (c : Nat) : State :=
  let hk := { s.hk with filters := s.hk.filters.filter fun e => !((s.hkFiltersOf c).contains e.1) }
  { s with hk := if c = 0 then { hk with conv0 := {} } else { hk with conv1 := {}, system := [], resetAt := s.mono } }

/-- The state of one unit is cleared. -/
def State.clearUnit (s : State) (u : Nat) : State :=
  if unitIsland u = islHost then { s with host := { s.host with lanes := tdel s.host.lanes (unitIndex u) } }
  else if unitIsland u = islUlink then { s with ul := { s.ul with ports := tdel s.ul.ports (unitIndex u) } }
  else if u = 0x0002 then s.clearHk 0
  else if u = 0x0003 then s.clearHk 1
  else s

/-! Island contents. -/

/-- The unit of a counter's key. -/
def keyUnit (k : Nat) : Nat := k / 64 / 65536

/-- The open bin of a group whose counters were cleared: it holds the differences from now on (R529). -/
def Bin.rebased (b : Bin) : Bin := { b with flags := b.flags ||| 2, base := b.base.map fun _ => 0 }

/-- Both open bins of such a group. -/
def BinSet.rebased (b : BinSet) : BinSet := { b with open15 := b.open15.rebased, open24 := b.open24.rebased }

/-- The counters of an island are cleared (R529). -/
def State.clearCounters (s : State) (i : Nat) : State :=
  { s with
    cnt := s.cnt.filter fun e => unitIsland (keyUnit e.1) != i
    log := { s.log with bins := tmapv s.log.bins (fun k b => if unitIsland (k / 65536) = i then b.rebased else b) } }

/-- The registers of an island return to their reset values; LAMP holds an engine's power settings, FAB the board tables. -/
def State.clearRegs (s : State) (i : Nat) : State :=
  match islandEngine i with
  | some n => { s with engs := tput s.engs n { ({} : Engine) with pwr := (s.eng n).pwr } }
  | none =>
    if i = islHost then { s with host := { s.host with ports := [], lanes := [], groups := [] } }
    else if i = islUlink then { s with ul := {} }
    else s

/-- The contents of an island are lost: registers, counters, memories and block-valid flags (R479, R540). What CTRL, FAB and TIME lose
in DORMANT stands at `coldWake`. -/
def State.clearIsland (s : State) (i : Nat) : State := ((s.clearRegs i).clearCounters i).clearMemories i

/-! Replay (R553). -/

/-- Replay one latched item: a domain message joins those received; a PPS edge counts with its latched time; the selectors look at
their legs again; an alarm raises its event. -/
def State.replay (s : State) (x : Latched) : State :=
  match x.source with
  | 5 => s.modTim fun t => { t with inbox := t.inbox ++ [(x.arg, x.message)] }
  | 6 => s.modTim fun t => { t with
      ppsAt := max t.ppsAt (s.mono - (s.now - x.time)), ppsPhase := toSecond ((x.time : Int) * 250 - (s.input 8).compPs) }
  | 7 => s.resignal
  | _ => s.raise islLamp .hkThermalAlarm x.arg x.message

/-! Wake from DORMANT. -/

/-- TIME continues from LAMP's count: the history is cleared, the loop starts in FREE_RUN and every configured input restarts in
QUALIFYING (R406). -/
def Timing.awake (t : Timing) (mono : Nat) : Timing :=
  { t with
    loopSt := 0, selected := none, source := none, bwStep := 0, history := [], pairs := [], armed := none
    inputs := tmapv t.inputs fun _ i => { i with st := 2, since := mono, disputed := none, agreeAt := none, cleanAt := none, means := [] }
    partners := [], clks := tmapv t.clks fun _ c => { c with from_ := if c.low 0 then none else c.from_ }
    present := t.present.filter fun i => i < 16 }

/-- What a wake from DORMANT finds (R540, R554): the islands but LAMP as after a reset, domain time and the configuration of TIME, the
packets that the SPI and I2C targets hold, and the facts that LAMP, the fuses, MTP and flash hold. The firmware serves again with the
memories filled. -/
def State.coldWake (s : State) : State :=
  let s : State := { s with
    generation := 0
    com := { ({} : Com) with
      scratch1 := s.com.scratch1, spi := s.com.spi, i2c := s.com.i2c, spiT0Only := s.com.spiT0Only, i2cOff := s.com.i2cOff
      received := s.com.received.filter fun r => r.req.via == Via.spi || r.req.via == Via.i2c }
    jobs := {}
    mem := { ({} : Mem) with
      insts := s.mem.insts, ready := s.boot.boardOk, capacity := s.mem.capacity, fuseRows := s.mem.fuseRows
      remap := s.store.repair.pages.foldl (fun t p => tput t p.1 p.2) [] }
    pas := []
    tab := { ({} : Tables) with
      banks := s.tab.banks.filter fun e => e.1 == islLamp, image := s.tab.image.filter fun e => e.1 == islLamp }
    cip := {}
    host := {}
    ul := {}
    cnt := s.cnt.filter fun e => unitIsland (keyUnit e.1) == islLamp
    tim := { s.tim.awake s.mono with loopFreq := s.freeFrequency }
    log := { ({} : Log) with
      life := s.log.life, lifeSlots := s.log.lifeSlots, lifeNext := s.log.lifeNext, lifeTenMin := s.log.lifeTenMin
      lifeQ := s.log.lifeQ, litQ := s.log.litQ, laserQ := s.log.laserQ, tempMean := s.log.tempMean
      calendar := s.log.calendar, stale := s.log.stale, thermPeak := s.log.thermPeak, thermLow := s.log.thermLow }
    boot := { s.boot with stage := 0xF, stageBuf := none, stagedImg := none, stagedCfg := none, imgOk := false, cfgOk := false }
    guide := { s.guide with
      active := some (if s.guide.failed.contains 0 then 1 else 0), standby := s.guide.failed.isEmpty, taking := none, trapped := none } }
  s.fillMemories

end Sys2Proof.Machine
end

