-- ==== Sys2Proof/Machine/Rails.lean ====
section
/-!
DEFINITION. Switching and steering of the rails (R548, R563, R566, R569, R688): which rails a state of an island or of the device switches,
in what order they return, and what a rail that does not confirm leaves off.
-/
namespace Sys2Proof.Machine

/-- The islands that a rail supplies (Table 20.8): an engine's two, VDD_FAB, VDD_HOSTD, VDDA_HOST, the LPDDR6 rails. -/
def railIslands (code : Nat) : List Nat :=
  if code ≤ 7 then [3 + code]
  else if code = 8 then [1, 2, 12, 13, 14]
  else if code = 9 then [11]
  else if code = 0x0A then [11, 14]
  else if 0x10 ≤ code ∧ code ≤ 0x17 then [code - 0x10 + 3]
  else if 0x20 ≤ code then [12]
  else []

/-- The rails that OFF switches off for an island (R569): the other islands have on-die switches alone. -/
def islandRails (i : Nat) : List Nat :=
  match islandEngine i with
  | some n => [n, 0x10 + n]
  | none => if i = islHost then [9] else []

/-- The rails of group B of Table 20.8. -/
def groupB (code : Nat) : Bool :=
  code ≤ 7 || code == 9 || (0x10 ≤ code && code ≤ 0x17) || (0x20 ≤ code && code ≤ 0x23)

/-- May the device turn a rail off: mapped and SWITCHABLE (R568)? -/
def State.switchable (s : State) (code : Nat) : Bool :=
  match tget s.power.rails code with | some r => r.switchable | none => false

/-- Does the device steer a rail's voltage, over AVSBus (R566, R569)? -/
def State.steered (s : State) (code : Nat) : Bool :=
  match tget s.power.rails code with | some r => bitAt r.bus 1 | none => false

/-- Is an island cut by on-die switches alone, so that it leaks more than Table 15.4 states (R569)? -/
def State.leaks (s : State) (i : Nat) : Bool := decide ((s.island i).st = .off) && (islandRails i).any fun c => !(s.switchable c)

/-- Send OPERATION to a rail at a monotone time; the last 64 commands are kept. A rail that is unmapped or not SWITCHABLE stays on. -/
def State.operate (s : State) (t : Nat) (on : Bool) (code : Nat) : State :=
  if !(s.switchable code) then s
  else
    let log := s.power.operation ++ [(code, on, t)]
    { s with power := { s.power with
      rails := tmod s.power.rails code fun r => { r with on := on }
      operation := log.drop (log.length - 64)
      unconfirmed := if on then s.power.unconfirmed.filter fun c => c != code else s.power.unconfirmed } }

/-- Is a rail off, and may the device turn it on? -/
def State.railDown (s : State) (code : Nat) : Bool :=
  s.switchable code && (match tget s.power.rails code with | some r => !r.on | none => false)

/-- The longest SOFT_START_MS of some rails, in quarter-nanoseconds. -/
def State.softStart (s : State) (codes : List Nat) : Nat :=
  (codes.foldl (fun (m : Nat) c => match tget s.power.rails c with | some r => max m r.softStart | none => m) 0) * msQ

/-- Turn rails on in steps (R569, R688): those of one step start together, and the next step starts once the longest soft start of the
step has passed. -/
def State.railsUp (s : State) (steps : List (List Nat)) : State :=
  (steps.foldl
    (fun (a : State × Nat) step =>
      let codes := step.filter a.1.railDown
      (codes.foldl (fun (s : State) c => s.operate a.2 true c) a.1, a.2 + a.1.softStart codes))
    (s, s.mono)).1

/-- Turn rails off. -/
def State.railsDown (s : State) (codes : List Nat) : State := codes.foldl (fun (s : State) c => s.operate s.mono false c) s

/-- Stage 0x6 of the boot: the LPDDR6 and DRAM rails and VDD_HOSTD, one at a time (R688). -/
def stage6Rails : List (List Nat) := [[0x20], [0x21], [0x22], [0x23], [9]]

/-- Stage 0xB: VDD_WEn of every engine that VARIANT shows, together, then their VDDA_CVn (R688). -/
def State.stageBRails (s : State) : List (List Nat) :=
  let ns := indices 8 fun n => bitAt s.variant.engineMask n
  [ns, ns.map fun n => 0x10 + n]

/-- The rails of group A that the device may turn off, one at a time in ascending rail code (R569). -/
def State.groupARails (s : State) : List (List Nat) :=
  (sortBy (fun a b => decide (a ≤ b)) ((tkeys s.power.rails).filter fun c => !(groupB c))).map fun c => [c]

/-- The order in which LAMP turns the rails back on at the exit from DORMANT (R569). -/
def State.exitRails (s : State) : List (List Nat) := s.groupARails ++ stage6Rails ++ s.stageBRails

/-- DORMANT switches off every switchable rail but VDDIO and VPP_MTP; the LAMP rails have no rail code (R569). -/
def State.dormantRails (s : State) : List Nat := (tkeys s.power.rails).filter fun c => c != 0x19 && c != 0x1A

/-- A rail that does not confirm (R569, R688): POWER_RAIL_FAULT, and the islands it supplies stay OFF. -/
def State.railUnconfirmed (s : State) (code status : Nat) : State :=
  let s := { s with power := { s.power with
    rails := tmod s.power.rails code fun r => { r with on := false }
    unconfirmed := (s.power.unconfirmed.filter fun c => c != code) ++ [code] } }
  s.raise islLamp .powerRailFault 0xFFFF (le 1 code ++ le 2 status)

/-- Does an island stay OFF for want of a rail? -/
def State.unpowered (s : State) (i : Nat) : Bool := s.power.unconfirmed.any fun c => (railIslands c).contains i

/-- Write a rail's voltage over AVSBus (R563, R566); a rail without AVSBus is not steered. -/
def State.steer (s : State) (code mv : Nat) : State :=
  if s.steered code then { s with power := { s.power with rails := tmod s.power.rails code fun r => { r with setMv := mv } } } else s

/-- The rail whose voltage falls to 0.55 V when an island is PARKED or in DRIPLINE (R546 step 6). -/
def steerRail (i : Nat) : List Nat := match islandEngine i with | some n => [n] | none => if i = islHost then [9] else []

end Sys2Proof.Machine
end

