-- ==== Sys2Proof/Machine/Power.lean ====
section
/-!
DEFINITION. Power states and performance levels (15_power.md): the commands of class 0x08 and the timed events of power.
-/
namespace Sys2Proof.Machine

/-- The number of an island state in payloads (Tables 15.2, 15.7). -/
def IslSt.code : IslSt → Nat
  | .active => 0 | .parked => 1 | .off => 2 | .dripline => 3

/-- The state a payload names. -/
def islStOf : Nat → IslSt
  | 1 => .parked | 2 => .off | 3 => .dripline | _ => .active

/-- The accounting column of a target state: 0 PARKED, 1 DRIPLINE, 2 OFF, 3 DORMANT (Table 15.7). -/
def accountOf (st : Nat) : Nat := if st = 1 then 0 else if st = 3 then 1 else if st = 2 then 2 else 3

/-- The island of a power payload as a source instance: an island number, or 0xFFFF for the device (R573). -/
def powerSource (target : Nat) : Nat := if target = 0xFF then 0xFFFF else target

/-- The states POWER_STATE_SET may place an island in (Table 15.1); TIME may not be named (R406). -/
def stateAllowed (target st : Nat) : Bool :=
  if target = 13 then false
  else if st = 0 ∨ st = 4 then true
  else if 3 ≤ target ∧ target ≤ 10 then true
  else if target = 11 ∨ target = 14 then st == 1 || st == 2
  else if target = 12 then st == 1
  else false

/-- POWER_STATE_SET's answer (R544). -/
def powerReply (st reason refuser : Nat) : List Byte := le 1 st ++ le 1 reason ++ zeros 2 ++ le 2 refuser ++ zeros 2

/-- Count and record a refusal, and raise POWER_ENTRY_REFUSED (R571, R573). -/
def State.refuseEntry (s : State) (target st reason refuser : Nat) : State :=
  let r : Refusal16 :=
    { chamber := s.chamber, island := target, state := st, status := Status.notIdle.code, reason := reason, refuser := refuser }
  let s := { s with power := { s.power with
    refused := tupd s.power.refused (accountOf st) 0 (· + 1), refusals := (r :: s.power.refusals).take 16 } }
  s.raise islLamp .powerEntryRefused (powerSource target) (le 1 target ++ le 1 st ++ le 1 reason ++ le 2 refuser)

/-- The retention signatures of an island's banks at entry into PARKED or DRIPLINE (R549): its memory instances by CRC-32 over
their valid blocks, its register file by a value no rule fixes (assumption 3). -/
def State.signatures (s : State) (i : Nat) : Tab Nat :=
  let mems := (tkeys s.mem.insts).filterMap fun k => if unitIsland (k / 2) = i ∧ k % 2 = 0 then some (k / 2) else none
  mems.foldl (fun t u => tput t (u * 256 + 1) (s.bankCrc u)) [((i * 256 + 0xFE) * 256, s.free.1 % 2 ^ 32)]

/-! Performance levels (R561 to R565). -/

/-- The nominal voltage of a level in mV (Table 15.6). -/
def levelMv : Nat → Nat
  | 0 => 550 | 1 => 620 | 2 => 700 | _ => 750

/-- The DSP and FEC clock of a level in MHz (Table 15.6). -/
def levelMhz : Nat → Nat
  | 0 => 750 | 1 => 1200 | 2 => 1600 | _ => 2000

/-- The level a symbol rate in 0.1 GBd requires (Table 15.6). -/
def rateLevel (b : Nat) : Nat := if b ≤ 1200 then 0 else if b ≤ 1920 then 1 else if b ≤ 2560 then 2 else 3

/-- The required level of an engine (R562): PL0 when disabled or in compatibility mode. -/
def State.requiredLevel (s : State) (n : Nat) : Nat :=
  let c := (s.eng n).cfg
  if (s.eng n).tx.enabled && c.mode != 2 then rateLevel c.symRate else 0

/-- The level that a configuration still to come requires of an enabled engine: it is raised before the chamber of the change (R564). -/
def State.comingLevel (s : State) (n : Nat) : Nat :=
  match (s.eng n).nextCfg with
  | some (_, c) => if (s.eng n).tx.enabled && c.mode != 2 then rateLevel c.symRate else 0
  | none => 0

/-- The level the engine should run at (R562, R564). -/
def State.targetLevel (s : State) (n : Nat) : Nat := max (max (s.requiredLevel n) (s.comingLevel n)) (s.eng n).pwr.floor

/-- The voltage supplied at a level, in mV (R563): nominal plus V_TRIM, at most 800. -/
def State.supplyMv (s : State) (n level : Nat) : Nat :=
  min 800 (levelMv level + tgetD s.boot.vtrim n 0 + (s.eng n).pwr.agingMv)

/-! Entry and exit. -/

/-- Begin the entry of an island into PARKED, OFF or DRIPLINE (R546, steps 1 to 5): the calibration runs stop with their current step, the
signatures are computed and the pads latched on belay. -/
def State.beginEntry (s : State) (i : Nat) (st : IslSt) : State :=
  let s := if 3 ≤ i ∧ i ≤ 10 then s.stopCal (i - 3) 1 else s
  let sigs := if st = .off then [] else s.signatures i
  let s := if st = .off then s else s.free.2
  s.modIsland i fun x => { x with moving := some (st, s.mono), belay := true, sigs := sigs }

/-- The voltage of an island's own rail in mV while it is ACTIVE: an engine's level, else 0.75 V (R561). -/
def State.activeMv (s : State) (i : Nat) : Nat := match islandEngine i with | some n => s.supplyMv n (s.eng n).pwr.level | none => 750

/-- Begin the exit of an island to ACTIVE: its rails are turned on, or raised from 0.55 V (R546, R569, R688). -/
def State.beginExit (s : State) (i : Nat) : State :=
  let s := s.railsUp ((islandRails i).map fun c => [c])
  let s := (steerRail i).foldl (fun (s : State) c => s.steer c (s.activeMv i)) s
  s.modIsland i fun x => { x with moving := some (.active, s.mono) }

/-- Begin the entry of the device into DORMANT (R546): every pad outside LAMP goes on belay, fetching stops, the life record is
due. -/
def State.beginDormant (s : State) (wm gm gl timer : Nat) : State :=
  let s := (List.range 14).foldl (fun s k => s.modIsland (k + 1) fun x => { x with belay := true, sigs := [] }) s
  let s := (List.range 8).foldl (fun (s : State) n => s.stopCal n 1) s
  { s with power := { s.power with
      dormant := .entering, dormantAt := s.mono, wakeMask := wm, gpioMask := gm, gpioLevel := gl, timerMs := timer, wake := none,
      latch := [], dropsNow := 0 } }

/-- Is any transition of the device or of an island in progress? -/
def State.moving (s : State) (target : Nat) : Bool :=
  if target = 0xFF then s.power.dormant != .no || (List.range 15).any fun i => (s.island i).moving.isSome
  else s.power.dormant != .no || (s.island target).moving.isSome

/-- POWER_STATE_SET (R543 to R546), with the checks of R545 in their order. -/
def State.cmdPowerStateSet (s : State) (q : Request) : State :=
  let target := q.u 0 1
  let st := q.u 1 1
  let badRange :=
    !((3 ≤ target && target ≤ 14) || target == 0xFF) || decide (st > 4) || ((st == 4) != (target == 0xFF)) ||
    !(q.rsv 3 1) || !(q.rsv 16 4) || (st != 4 && (!(q.rsv 2 1) || !(q.rsv 4 12)))
  let i := s.island target
  let holds := st != 4 && i.st.code == st
  s.serve 0x0801 q 8 (q.len == 20)
    [.bad badRange .badParam 0, .present (if target = 0xFF then [] else [target * 256 + 0xFE]),
     onlyT0 q, .bad (!(stateAllowed target st)) .notPermitted 0, .bad (s.moving target) .busy 0]
    (fun s =>
      if holds then (s, some (powerReply 0 0 0xFFFF))
      else if st = 0 then (s.beginExit target, some (powerReply 0 0 0xFFFF))
      else match s.idleReason target with
        | some (r, u) => (s.refuseEntry target st r u, some (powerReply Status.notIdle.code r u))
        | none =>
          if st = 4 then (s.beginDormant (q.u 2 1) (q.u 4 4) (q.u 8 4) (q.u 12 4), some (powerReply 0 0 0xFFFF))
          else (s.beginEntry target (islStOf st), some (powerReply 0 0 0xFFFF)))
      [0, 0, 0xFF, 0xFF, 0, 0]

/-- Raise POWER_STATE_CHANGED (R544). -/
def State.stateChanged (s : State) (target old new : Nat) : State :=
  s.raise islLamp .powerStateChanged (powerSource target) (le 1 target ++ le 1 old ++ le 1 new)

/-- One bank whose signature does not match at exit (R550). A memory bank becomes invalid. The firmware reloads a register bank from
its journal, so what commands set stands again; the counters and the converter trims are lost. -/
def State.retentionLost (s : State) (i bank : Nat) : State :=
  let s := s.raise islLamp .retentionLost i (le 2 (bank / 256) ++ le 1 bank)
  if bank % 256 = 1 then s.invalidate (bank / 256)
  else
    let s := s.clearCounters i
    if 3 ≤ i ∧ i ≤ 10 then s.needBootCal (i - 3) else s

/-- Replay the latched items in ascending order of their times, each with POWER_LATCHED (R553). -/
def State.replayAll (s : State) : State :=
  let items := sortBy (fun a b => decide (a.time ≤ b.time)) s.power.latch
  let s := { s with power := { s.power with latch := [] } }
  let s : State := items.foldl
    (fun (s : State) x => (s.replay x).raise islLamp .powerLatched 0xFFFF (le 1 x.source ++ timeBytes x.time)) s
  if s.power.dropsNow > 0 then
    ({ s with power := { s.power with dropsNow := 0 } }).raise islLamp .powerLatchFull 0xFFFF (le 2 (satN 2 s.power.dropsNow))
  else s

/-- The transition of one island completes (R544, R546, R550, R553). `corrupt` names the banks whose contents changed while
retained. -/
def State.islandDone (s : State) (i : Nat) (corrupt : List Nat) : State :=
  let isl := s.island i
  match isl.moving with
  | none => s
  | some (.active, _) =>
    let was := isl.st
    let s := s.modIsland i fun x => { x with st := .active, moving := none, inReset := false, sigs := [], activeAt := s.mono }
    let s := if 3 ≤ i ∧ i ≤ 10 then s.modRx (i - 3) fun r => { r with los := true, frozenAt := none } else s
    let lost := corrupt.filter fun b => thas isl.sigs b
    let s := lost.foldl (fun s b => s.retentionLost i b) s
    let s := if 3 ≤ i ∧ i ≤ 10 then
        (if was = .off then (s.fillIsland i).needBootCal (i - 3) else if lost.any fun b => b % 256 == 0 then s else s.wakeTriggers (i - 3))
      else s
    (s.replayAll).stateChanged i was.code 0
  | some (st, _) => if (match islandEngine i with | some n => s.calRuns n | none => false) then s else
    let was := isl.st
    let s := s.modIsland i fun x => { x with st := st, moving := none, inReset := (st == .off) }
    let s := if was = .off ∧ st ≠ .off then (s.railsUp ((islandRails i).map fun c => [c])).fillIsland i else s
    let s := if st = .off then (s.clearIsland i).railsDown (islandRails i) else (steerRail i).foldl (fun (s : State) c => s.steer c 550) s
    let s := if st = .dripline then s.modEng (i - 3) fun e => { e with pwr := { e.pwr with light := 0, opposite := 0 } } else s
    let s := { s with power := { s.power with entries := tupd s.power.entries (accountOf st.code) 0 (· + 1) } }
    s.stateChanged i was.code st.code

/-- The device's entry into DORMANT completes: the life record is written (R533), every island but LAMP is OFF (R540), and a
wake already latched starts the exit at once (R551). -/
def State.dormantEntered (s : State) (lifeWrite : State → State) : State :=
  if (List.range 8).any fun n => s.calRuns n then s else
  let s := lifeWrite s
  let s := (List.range 14).foldl
    (fun s k => (s.clearIsland (k + 1)).modIsland (k + 1) fun x => { x with st := .off, moving := none, inReset := true }) s
  let s := { s with
    guide := { s.guide with active := none, standby := false, taking := none, trapped := none }
    cip := {}
    power := { s.power with
      dormant := (if s.power.wake.isSome then .exiting else .yes), dormantAt := s.mono
      entries := tupd s.power.entries 3 0 (· + 1) } }
  let s := s.railsDown s.dormantRails
  s.stateChanged 0xFF 0 4

/-- The device's exit from DORMANT completes: the rails are back on in their order, every island but LAMP returns as from a reset but
those whose rail did not confirm (R569), the firmware serves again, and the latched items are replayed. The firmware itself releases the
pads of CTRL, MEM and TIME (R555). -/
def State.dormantLeft (s : State) : State :=
  let items := s.power.latch.length
  let first := s.power.wake
  let failed := s.power.unconfirmed
  let s := s.railsUp (s.exitRails.map fun (step : List Nat) => step.filter fun c => !(failed.contains c))
  let s := s.coldWake
  let s := (List.range 14).foldl
    (fun (s : State) k => if s.unpowered (k + 1) then s else s.modIsland (k + 1) fun x =>
      { x with st := .active, moving := none, inReset := false, activeAt := s.mono, belay := (k + 1 != 1 && k + 1 != 12 && k + 1 != 13) }) s
  let s := { s with power := { s.power with dormant := .no, wake := none } }
  let s := (List.range 8).foldl (fun (s : State) n => if s.fitted n && !(s.unpowered (islEng n)) then s.needBootCal n else s) s
  let s := s.stateChanged 0xFF 4 0
  let s := s.raise islLamp .powerWake 0xFFFF
    (le 1 (match first with | some w => w.1 | none => 0) ++ le 1 (match first with | some w => w.2.1 | none => 0xFF) ++
      le 1 (satN 1 items))
  s.replayAll

/-- The entry of the device into DORMANT is abandoned (R548), the pads staying on belay. During its exit, or the power-up of the boot,
a rail that does not confirm leaves its islands OFF and the rest goes on (R569, R688). -/
def State.abortDormant (s : State) (cause code status : Nat) : State :=
  let up := s.power.dormant == .exiting || (s.power.dormant == .no && 5 ≤ s.boot.stage && s.boot.stage < 0xE)
  let back : Option Dormant := match s.power.dormant with | .entering => some .no | .exiting => some .yes | _ => none
  if up && cause == 1 then s.railUnconfirmed code status
  else match back with
  | none => s
  | some d =>
    let s := { s with power := { s.power with dormant := d, aborted := tupd s.power.aborted 3 0 (· + 1) } }
    let s := if d = .no then (List.range 64).foldl (fun (s : State) k => s.startHeld (k / 8) (k % 8)) s else s
    let s := s.raise islLamp .powerEntryAborted 0xFFFF (le 1 0xFF ++ le 1 (if d = .no then 4 else 0) ++ le 1 cause)
    s.raise islLamp .powerRailFault 0xFFFF (le 1 code ++ le 2 status)

/-- POWER_ENTRY_ABORTED (R548): a regulator did not confirm in 10 ms (cause 1) or a signature met an uncorrectable error
(cause 2). The island returns to ACTIVE, by an exit where it was PARKED, in DRIPLINE or OFF; an exit that fails leaves it OFF. -/
def State.abortTransition (s : State) (target cause code status : Nat) : State :=
  let isl := s.island target
  if target = 0xFF then s.abortDormant cause code status
  else match isl.moving with
  | none => s
  | some (st, _) =>
    let leaves : IslSt := if st = IslSt.active then IslSt.off else IslSt.active
    let s := if leaves = .active ∧ isl.st ≠ .active then s.beginExit target
      else s.modIsland target fun x => { x with st := leaves, moving := none, inReset := decide (leaves = IslSt.off) }
    let s := if leaves = .off then (s.clearIsland target).railsDown (islandRails target)
      else if 3 ≤ target ∧ target ≤ 10 then (List.range 8).foldl (fun (s : State) c => s.startHeld (target - 3) c) s else s
    let s := { s with power := { s.power with
      aborted := tupd s.power.aborted (accountOf (if st = IslSt.active then isl.st.code else st.code)) 0 (· + 1) } }
    let s := s.raise islLamp .powerEntryAborted target (le 1 target ++ le 1 st.code ++ le 1 cause)
    if cause = 1 then s.raise islLamp .powerRailFault target (le 1 code ++ le 2 status)
    else s.raise target .memUncorrectable code (le 1 0 ++ le 8 status ++ le 1 6)

/-! Wake sources (R551, R552). -/

/-- Latch an item: 64 at most, 16 domain messages at most, the newest dropped when full (R552). -/
def State.latchItem (s : State) (x : Latched) : State :=
  let msgs := (s.power.latch.filter fun y => y.source == 5).length
  if s.power.latch.length ≥ 64 ∨ (x.source = 5 ∧ msgs ≥ 16) then
    { s with power := { s.power with latchDrops := s.power.latchDrops + 1, dropsNow := s.power.dropsNow + 1 } }
  else { s with power := { s.power with latch := s.power.latch ++ [x] } }

/-- Is a wake source enabled by WAKE_MASK (Table 15.2)? Sources are numbered as in POWER_WAKE. -/
def State.wakeEnabled (s : State) (source gpio : Nat) (level : Bool) : Bool :=
  bitAt s.power.wakeMask (source - 1) &&
    (if source = 1 then bitAt s.power.gpioMask gpio && (bitAt s.power.gpioLevel gpio == level)
     else if source = 2 then s.power.timerMs > 0 && s.since s.power.dormantAt (s.power.timerMs * msQ)
     else true)

/-- Latch a wake; while DORMANT it starts the exit, during entry it lets the entry complete first (R551). -/
def State.wakeNow (s : State) (source gpio : Nat) : State :=
  let w := match s.power.wake with
    | some w => some w
    | none => some (source, (if source = 1 then gpio else 0xFF), s.now)
  let d := if s.power.dormant = .yes then Dormant.exiting else s.power.dormant
  { s with power := { s.power with wake := w, dormant := d, dormantAt := if d = .exiting ∧ s.power.dormant = .yes then s.mono else s.power.dormantAt } }

/-- A wake source asserts (R551): 1 GPIO, 2 timer, 3 SPI, 4 I2C, 5 domain message, 6 PPS, 7 protection, 8 thermal. -/
def State.wakeSource (s : State) (source gpio : Nat) (level : Bool) (arg : Nat) (message : List Byte) : State :=
  let transit := s.power.dormant != .no || (List.range 15).any fun i => (s.island i).moving.isSome
  if !transit then s
  else
    let isMsg := decide (5 ≤ source)
    let s := if isMsg then s.latchItem { source := source, time := s.now, arg := arg, message := message } else s
    if s.power.dormant ≠ .no ∧ s.wakeEnabled source gpio level then s.wakeNow source gpio else s

/-! Belay (R555 to R557). -/

/-- BELAY_RELEASE (R556): for 0xFF, every island on belay that is ACTIVE is released, and one that is not ACTIVE refuses the
command. -/
def State.cmdBelayRelease (s : State) (q : Request) : State :=
  let isl := q.u 0 1
  let targets := if isl = 0xFF then (List.range 15).filter fun i => (s.island i).belay else [isl]
  let notActive := targets.any fun i => (s.island i).st != .active || (s.island i).moving.isSome
  s.serve 0x0804 q 4 (q.len == 4)
    [.bad (!((3 ≤ isl && isl ≤ 14) || isl == 0xFF) || !(q.rsv 1 3)) .badParam 0,
     .present (if isl = 0xFF then [] else [isl * 256 + 0xFE]), onlyT0 q, .bad notActive .notReady 0]
    fun s =>
      let held := targets.filter fun i => (s.island i).belay
      (held.foldl
        (fun s i => (s.modIsland i fun x => { x with belay := false }).raise islLamp .belayReleased i (le 1 i)) s,
       some okay4)

/-! Dripline (R558 to R560). -/

/-- Has converter 0 of an engine a spare slice for Dripline (R558)? The converter chapter keeps the spares. -/
def State.dripSpare (s : State) (n : Nat) : Bool := s.converter0Spare n

/-- The DRIPLINE_CONFIG answer (R560). -/
def State.dripReply (s : State) (n : Nat) : List Byte :=
  let p := (s.eng n).pwr
  le 1 0 ++ le 1 0 ++ le 1 (bit p.autoWake + 2 * bit p.useSlice + 4 * bit (!(s.dripSpare n))) ++ le 1 p.sliceRms ++
    le 2 p.periodMs ++ le 2 p.losSetMv ++ le 2 p.losClearMv ++ le 1 p.light ++ zeros 1 ++ le 2 p.losdetMv ++ zeros 2

/-- A field sent as 0 takes its default. -/
def orDefault (x d : Nat) : Nat := if x = 0 then d else x

/-- DRIPLINE_CONFIG (R560). -/
def State.cmdDriplineConfig (s : State) (q : Request) : State :=
  let n := q.u 0 1
  let act := q.u 1 1
  let flags := q.u 2 1
  let set := act == 1
  let rms := orDefault (q.u 3 1) 4
  let period := orDefault (q.u 4 2) 10
  let losSet := orDefault (q.u 6 2) 100
  let losClr := orDefault (q.u 8 2) 120
  let badSet := set && (!(flags == 0x80 || flags < 4) || rms > 64 || period > 1000 || losSet > 1799 || losClr > 1800 ||
    losClr < 2 || losClr ≤ losSet)
  s.serve 0x0803 q 16 (q.len == 16)
    [.bad (decide (n > 7) || !(act == 1 || act == 2) || !(q.rsv 10 6) || (!set && !(q.rsv 2 8)) || badSet) .badParam 0,
     .present [islEng n * 256 + 0xFE], onlyT0 q]
    fun s =>
      let f := if flags = 0 then 3 else if flags = 0x80 then 0 else flags
      let s := if set then s.modEng n fun e => { e with pwr := { e.pwr with
          autoWake := bitAt f 0, useSlice := bitAt f 1, sliceRms := rms, periodMs := period, losSetMv := losSet,
          losClearMv := losClr } }
        else s
      (s, some (s.dripReply n))

/-- Is the RMS of samples below a number of codes? -/
def rmsBelow (samples : List Int) (codes : Nat) : Bool :=
  decide ((samples.map fun x => (x * x).natAbs).sum < samples.length * codes ^ 2)

/-- One Dripline cycle (R558, R559): the samples of LOSDETn in mV, whose mean is rounded down, and those of the slice (40 and 4 096). -/
def State.driplineCycle (s : State) (n : Nat) (los : List Nat) (samples : List Int) : State :=
  let i := s.island (islEng n)
  let p := (s.eng n).pwr
  let losdet := los.sum / max 1 los.length
  if i.st ≠ .dripline ∨ i.moving.isSome ∨ !(s.since p.cycleAt (p.periodMs * msQ)) then s
  else
    let slice := p.useSlice && s.dripSpare n
    let gone := losdet < p.losSetMv || (slice && rmsBelow samples p.sliceRms)
    let here := losdet ≥ p.losClearMv && (!slice || !(rmsBelow samples p.sliceRms))
    let found := if gone then 1 else if here then 2 else 0
    let s := s.modEng n fun e => { e with pwr := { e.pwr with losdetMv := losdet, cycleAt := s.mono } }
    if found = 0 then s.modEng n fun e => { e with pwr := { e.pwr with opposite := 0 } }
    else if p.light = 0 then s.modEng n fun e => { e with pwr := { e.pwr with light := found, opposite := 0 } }
    else if found = p.light then s.modEng n fun e => { e with pwr := { e.pwr with opposite := 0 } }
    else if p.opposite + 1 < 2 then s.modEng n fun e => { e with pwr := { e.pwr with opposite := p.opposite + 1 } }
    else
      let s := s.modEng n fun e => { e with pwr := { e.pwr with light := found, opposite := 0 } }
      let s := s.raise islLamp .dripWake (islEng n) (le 1 n ++ le 1 found ++ le 2 losdet)
      if p.autoWake then s.beginExit (islEng n) else s

/-! PERF_LEVEL_SET (R565). -/

/-- The PERF_LEVEL_SET answer (R565). -/
def State.perfReply (s : State) (n : Nat) : List Byte :=
  let p := (s.eng n).pwr
  le 1 0 ++ le 1 0 ++ le 1 n ++ le 1 p.level ++ le 1 (s.requiredLevel n) ++ le 1 p.floor ++ le 2 (s.supplyMv n p.level) ++
    le 2 (levelMhz p.level) ++ zeros 2

/-- The engines a PERF_LEVEL_SET names: one, or every enabled engine for 0xFF. -/
def State.perfTargets (s : State) (n : Nat) : List Nat :=
  if n = 0xFF then (List.range 8).filter fun k => s.enabled k else [n]

/-- Is the level of an engine as R562 requires, or is the engine not ACTIVE? -/
def State.levelSettled (s : State) (n : Nat) : Bool :=
  (s.eng n).pwr.level == s.targetLevel n || (s.island (islEng n)).st != .active

/-- The answer of a PERF_LEVEL_SET whose changes are complete. -/
def State.perfDone (s : State) (n : Nat) : List Byte :=
  match s.perfTargets n with
  | [] => le 1 0 ++ le 1 0 ++ le 1 0xFF ++ zeros 9
  | k :: _ => s.perfReply k

/-- PERF_LEVEL_SET (R565): the response comes once the change has completed. -/
def State.cmdPerfLevelSet (s : State) (q : Request) : State :=
  let n := q.u 0 1
  let fl := q.u 1 1
  s.serve 0x0802 q 12 (q.len == 4)
    [.bad (!(n ≤ 7 || n == 0xFF) || decide (fl > 3) || !(q.rsv 2 2)) .badParam 0,
     .present (if n = 0xFF then [] else [islEng n * 256 + 0xFE]), onlyT0 q]
    fun s =>
      let ts := s.perfTargets n
      let s := ts.foldl (fun s k => s.modEng k fun e => { e with pwr := { e.pwr with floor := fl } }) s
      if ts.all fun k => s.levelSettled k then (s, some (s.perfDone n))
      else ({ s with power := { s.power with perfWaits := s.power.perfWaits ++ [q] } }, none)

/-- Answer the PERF_LEVEL_SET requests whose changes are complete, or whose engine `failed` kept its level. -/
def State.answerPerf (s : State) (failed : Option Nat) : State :=
  s.power.perfWaits.foldl
    (fun s q =>
      if (s.perfTargets (q.u 0 1)).all fun k => s.levelSettled k || failed == some k then
        ({ s with power := { s.power with perfWaits := s.power.perfWaits.filter fun x => decide (x ≠ q) } }).respondLate 0x0802 q
          (s.perfDone (q.u 0 1))
      else s)
    s

/-- The aging part of V_TRIM for an aging-monitor drift in 0.01 % (R563); it never falls. -/
def agingPart (drift : Int) (old : Nat) : Nat := max old (min 20 (5 * (drift / 50).toNat))

/-- Recompute the aging part of an engine's V_TRIM (R563). -/
def State.retrim (s : State) (n : Nat) (drift : Int) : State :=
  let s := { s with log := { s.log with life := { s.log.life with aging := tput s.log.life.aging (islEng n) drift } } }
  s.modEng n fun e => { e with pwr := { e.pwr with agingMv := agingPart drift e.pwr.agingMv, trimAt := s.mono } }

/-- A level change at a chamber boundary (R563, R564). Without the regulator's confirmation the level stays and POWER_RAIL_FAULT is
raised; a VDD_WEn without AVSBus is not steered, and only the clock follows the level (R569). -/
def State.perfLevelChange (s : State) (n : Nat) (confirmed : Bool) (status : Nat) (drift : Int) : State :=
  let old := (s.eng n).pwr.level
  let new := s.targetLevel n
  if n > 7 ∨ old = new ∨ (s.island (islEng n)).st ≠ .active then s
  else if s.steered n && !confirmed then
    (s.raise islLamp .powerRailFault (islEng n) (le 1 n ++ le 2 status)).answerPerf (some n)
  else
    let s := s.retrim n drift
    let s := (s.modEng n fun e => { e with pwr := { e.pwr with level := new } }).steer n (s.supplyMv n new)
    let s := s.raise islLamp .perfLevelChanged (islEng n) (le 1 n ++ le 1 old ++ le 1 new ++ le 2 (s.supplyMv n new))
    s.answerPerf none

/-- Every 24 h the aging part of V_TRIM is recomputed (R563). -/
def State.vTrimRecompute (s : State) (n : Nat) (drift : Int) : State :=
  if n ≤ 7 ∧ s.since (s.eng n).pwr.trimAt (86400 * secQ) then s.retrim n drift else s

/-! Regulators (R566 to R569). -/

/-- PM_ALERT_N falls: the alerting regulator's STATUS_WORD is read, reported and cleared (R567). -/
def State.pmAlert (s : State) (code status : Nat) : State :=
  if !(thas s.power.rails code) then s
  else
    let s := { s with power := { s.power with rails := tmod s.power.rails code fun r => { r with status := status % 256 } } }
    let s := s.raise islLamp .powerRailFault 0xFFFF (le 1 code ++ le 2 status)
    { s with power := { s.power with rails := tmod s.power.rails code fun r => { r with status := 0 } } }

/-- One telemetry reading of a rail: code, VOUT in mV, IOUT in 10 mA, temperature in degC, STATUS_WORD. -/
def Power.reading (p : Power) (x : Nat × Nat × Nat × Int × Nat) : Power :=
  { p with rails := tmod p.rails x.1 fun r =>
      { r with vout := x.2.1, iout := x.2.2.1, temp := x.2.2.2.1, status := x.2.2.2.2 % 256 } }

/-- Once per second telemetry is read from every mapped rail (R567). -/
def State.pmbusPoll (s : State) (xs : List (Nat × Nat × Nat × Int × Nat)) : State :=
  if s.since s.power.lastPoll secQ then
    { s with power := { xs.foldl Power.reading s.power with lastPoll := s.mono } }
  else s

/-! Accounting (R571, R572). -/

/-- ISLAND_STATE of Table 15.7. -/
def State.islandCode (s : State) (i : Nat) : Nat :=
  if (s.absent (i * 256 + 0xFE)).isSome then 0xFF
  else match (s.island i).moving with
    | some (.active, _) => 5
    | some _ => 4
    | none => (s.island i).st.code

/-- POWER_ACCOUNT_READ ACTION 1 (Table 15.7). -/
def State.accountReply (s : State) : List Byte :=
  le 1 0 ++ le 1 0 ++ le 1 s.power.refusals.length ++ zeros 1 ++ (List.range 15).flatMap (fun i => le 1 (s.islandCode i)) ++
    zeros 5 ++
    (List.range 4).flatMap (fun k =>
      le 4 (tgetD s.power.entries k 0) ++ le 4 (tgetD s.power.refused k 0) ++ le 4 (tgetD s.power.aborted k 0)) ++
    padTo 256 (s.power.refusals.flatMap fun r =>
      le 6 r.chamber ++ le 1 r.island ++ le 1 r.state ++ le 1 r.status ++ le 1 r.reason ++ le 2 r.refuser ++ zeros 4)

/-- POWER_ACCOUNT_READ ACTION 2 (R572). -/
def State.railsReply (s : State) : List Byte :=
  le 1 0 ++ le 1 0 ++ le 1 s.power.rails.length ++ zeros 1 ++ le 4 s.power.latchDrops ++
    s.power.rails.flatMap fun kr =>
      le 1 kr.1 ++ le 1 (bit kr.2.on) ++ le 2 kr.2.vout ++ le 2 kr.2.iout ++ leS 1 kr.2.temp ++ le 1 kr.2.status

/-- POWER_ACCOUNT_READ (R572). -/
def State.cmdPowerAccountRead (s : State) (q : Request) : State :=
  let act := q.u 0 1
  s.serve 0x0805 q (if act = 2 then 8 else 328) (q.len == 4)
    [.bad (!(act == 1 || act == 2) || !(q.rsv 1 3)) .badParam 0, s.anyTenant q]
    fun s => (s, some (if act = 1 then s.accountReply else s.railsReply))

end Sys2Proof.Machine
end

