-- ==== Sys2Proof/Machine/Hk.lean ====
section
/-!
DEFINITION. The housekeeping ADC (19_housekeeping_adc.md): HK_SEQUENCE_SET, HK_FILTER_SET, HK_READ, the frame of 64 slots and the
thermal limits.
-/
namespace Sys2Proof.Machine

/-! Channels and slots (R649 to R652). -/

/-- Does Table 19.1 list a channel? -/
def hkChannel (c : Nat) : Bool :=
  c ≤ 0x31 || (0x40 ≤ c && c ≤ 0x4A) || (0x50 ≤ c && c ≤ 0x5C) || (0x60 ≤ c && c ≤ 0x63) || (0x70 ≤ c && c ≤ 0x7B)

/-- The external pins of a channel. -/
def hkPins (c : Nat) : List Nat := if c < 0x20 then [c] else if c < 0x30 then [2 * (c - 0x20), 2 * (c - 0x20) + 1] else []

/-- Is a channel a pair? -/
def hkPair (c : Nat) : Bool := 0x20 ≤ c && c < 0x30

/-- The channels of the system slots, in order (R651). -/
def hkSystem : List Nat :=
  [0x30, 0x31] ++ (List.range 11).map (0x40 + ·) ++ (List.range 13).map (0x50 + ·) ++ (List.range 4).map (0x60 + ·) ++
    (List.range 12).map (0x70 + ·)

/-- The slot of an entry. -/
def hkSlot (c i : Nat) : Nat := if c = 0 then i else 42 + i

/-- The island of a die sensor. -/
def sensorIsland (k : Nat) : Nat := if k < 8 then 3 + k else match k with | 8 => islFab | 9 => islHost | 10 => islCtrl | _ => islLamp

/-- Is the island of a sensor ACTIVE? -/
def State.sensorLit (s : State) (k : Nat) : Bool := k == 11 || (s.dark (sensorIsland k * 256 + 0xFE)).isNone

/-- A converter. -/
def State.hkConv (s : State) (c : Nat) : HkConv := if c = 0 then s.hk.conv0 else s.hk.conv1

/-- Change a converter. -/
def State.modHk (s : State) (c : Nat) (f : HkConv → HkConv) : State :=
  if c = 0 then { s with hk := { s.hk with conv0 := f s.hk.conv0 } } else { s with hk := { s.hk with conv1 := f s.hk.conv1 } }

/-- A filter channel. -/
def State.hkFilter (s : State) (k : Nat) : HkFilter := tgetD s.hk.filters k {}

/-- Change a filter channel. -/
def State.modFilter (s : State) (k : Nat) (f : HkFilter → HkFilter) : State :=
  { s with hk := { s.hk with filters := tput s.hk.filters k (f (s.hkFilter k)) } }

/-- The sequence a converter will have once every accepted change is in force. -/
def HkConv.latest (v : HkConv) : HkSeq := match v.pend.getLast? with | some p => p.2 | none => v.seq

/-- The setting a filter channel will have. -/
def HkFilter.latest (f : HkFilter) : Option HkCfg := match f.pend.getLast? with | some p => p.2 | none => f.cfg

/-- Does a filter channel other than `but` take an entry? -/
def State.hkTaken (s : State) (c i but : Nat) : Bool :=
  s.hk.filters.any fun e => e.1 != but && match e.2.latest with | some g => g.conv == c && g.entry == i | none => false

/-- The first chamber of the first frame that begins at least two frames from now (R653). -/
def State.hkStart (s : State) : Nat :=
  let c := s.chamber + (if s.nextBoundary - s.now = chamberQ then 100 else 101)
  (c + 49) / 50 * 50 % chamberMod

/-! HK_SEQUENCE_SET (R665, R666). -/

/-- The entry that a request names. -/
def hkEntryOf (q : Request) (k : Nat) : HkEntry :=
  let o := 16 + 8 * k
  { channel := q.u o 1, openCheck := bitAt (q.u (o + 1) 1) 0, filtered := bitAt (q.u (o + 1) 1) 1, low := q.u (o + 4) 2, high := q.u (o + 6) 2 }

/-- An entry out of its ranges (Table 19.6). -/
def hkEntryBad (q : Request) (k : Nat) : Bool :=
  let o := 16 + 8 * k
  let e := hkEntryOf q k
  !(hkChannel e.channel) || q.u (o + 1) 1 > 3 || !(q.rsv (o + 2) 2) || (e.openCheck && e.channel ≥ 0x30) ||
    (e.low != 0xFFFF && e.high != 0xFFFF && decide (e.high < e.low))

/-- The bytes of an entry (Table 19.6). -/
def HkEntry.bytes (e : HkEntry) : List Byte :=
  le 1 e.channel ++ le 1 (bit e.openCheck + 2 * bit e.filtered) ++ zeros 2 ++ le 2 e.low ++ le 2 e.high

/-- The answer of ACTION 3: bytes 4 to 15 of the header and the entries in force. -/
def State.hkSeqReply (s : State) (c : Nat) : List Byte :=
  let q := (s.hkConv c).seq
  let l := s.hk.limits
  le 1 0 ++ le 1 0 ++ le 1 q.entries.length ++ zeros 1 ++ le 2 q.owPeriod ++ le 2 q.owThresh ++ leS 2 l.warn ++ leS 2 l.alarm ++
    leS 2 l.hyst ++ le 2 q.hyst ++ q.entries.flatMap HkEntry.bytes

/-- A thermal limit that is 0 or in its range. -/
def zeroOr (x lo hi : Nat) : Bool := x == 0 || (lo ≤ x && x ≤ hi)

/-- A thermal limit as a request changes it: 0 keeps the value. -/
def kept (x : Nat) (old : Int) : Int := if x = 0 then old else x

/-- The thermal limits a request would leave. -/
def State.hkLimits (s : State) (q : Request) : HkLimits :=
  let l := match s.hk.limPend.getLast? with | some p => p.2 | none => s.hk.limits
  { warn := kept (q.u 8 2) l.warn, alarm := kept (q.u 10 2) l.alarm, hyst := kept (q.u 12 2) l.hyst }

/-- HK_SEQUENCE_SET. -/
def State.cmdHkSequenceSet (s : State) (q : Request) : State :=
  let c := q.u 0 1
  let act := q.u 1 1
  let n := q.u 2 1
  let period := q.u 4 2
  let thresh := q.u 6 2
  let hyst := q.u 14 2
  let bad1 := n < 1 || n > (if c = 0 then 64 else 22) || q.u 3 1 > 1 || period < 1 || period > 4096 || thresh < 16 || thresh > 2048 ||
    hyst < 1 || hyst > 4096 || !(q.rsv 8 6) || (List.range n).any (hkEntryBad q)
  let bad4 := n != 0 || !(q.rsv 3 5) || !(q.rsv 14 2) || !(zeroOr (q.u 8 2) 500 1100) || !(zeroOr (q.u 10 2) 510 1100) ||
    !(zeroOr (q.u 12 2) 10 100)
  let bad := c > 1 || act < 1 || act > 4 || (act == 1 && bad1) || ((act == 2 || act == 3) && (n != 0 || !(q.rsv 3 13))) || (act == 4 && bad4)
  let seq : HkSeq := { left := q.u 3 1 == 1, owPeriod := period, owThresh := thresh, hyst := hyst, entries := (List.range n).map (hkEntryOf q) }
  let other := (s.hkConv (1 - c)).latest.entries.flatMap fun e => hkPins e.channel
  let clash := seq.entries.any fun e => (hkPins e.channel).any fun p => other.contains p
  let loose := (List.range n).any fun i => (hkEntryOf q i).filtered && !(s.hkTaken c i 32)
  let lim := s.hkLimits q
  let start := s.hkStart
  let reply := okay4 ++ zeros 4 ++ le 8 start
  s.serve 0x0D01 q 16 (q.len == 16 + 8 * n)
    [.bad bad .badParam 0, .lit [2 + c], onlyT0 q,
     .bad ((act == 1 && (clash || loose)) || (act == 4 && decide (lim.alarm ≤ lim.warn))) .badParam 0]
    fun s => match act with
      | 1 => (s.modHk c fun v => { v with pend := v.pend ++ [(start, seq)] }, some reply)
      | 2 => (s.modHk c fun v => { v with pend := v.pend ++ [(start, {})] }, some reply)
      | 3 => (s, some (s.hkSeqReply c))
      | _ => ({ s with hk := { s.hk with limPend := s.hk.limPend ++ [(start, lim)] } }, some reply)

/-! HK_FILTER_SET (R667). -/

/-- STATE of a filter channel. -/
def HkFilter.state (f : HkFilter) : Nat :=
  match f.cfg with
  | none => 0
  | some g => if f.fade.isSome then 3 else if f.lost || f.samples.length < (if g.decim = 0 then 1 else 8 * 2 ^ g.decim + 1) then 1 else 2

/-- The answer: the state of the channel now, and the group delay and output period of a setting. -/
def HkFilter.reply (f : HkFilter) (g : Option HkCfg) : List Byte :=
  okay4.take 2 ++ le 1 f.state ++ zeros 1 ++
    (match g with
     | some g => le 4 (if g.decim = 0 then 0 else 256 * 2 ^ g.decim) ++ le 4 (64 * 2 ^ g.decim)
     | none => zeros 8) ++ zeros 4

/-- HK_FILTER_SET. -/
def State.cmdHkFilterSet (s : State) (q : Request) : State :=
  let k := q.u 0 1
  let act := q.u 1 1
  let g : HkCfg := { conv := q.u 2 1, entry := q.u 3 1, decim := q.u 4 1, shape := q.u 5 1 }
  let bad := k > 31 || act < 1 || act > 3 || !(q.rsv 6 2) || (act != 1 && !(q.rsv 2 4)) ||
    (act == 1 && (g.conv > 1 || g.decim > 10 || g.shape < 1 || g.shape > 4))
  let start := s.hkStart
  s.serve 0x0D03 q 16 (q.len == 8)
    [.bad bad .badParam 0, .lit [2 + g.conv], onlyT0 q,
     .bad (act == 1 && decide (g.entry ≥ (s.hkConv g.conv).latest.entries.length)) .badParam 0,
     .bad (act == 1 && s.hkTaken g.conv g.entry k) .busy 0]
    fun s =>
      let f := s.hkFilter k
      match act with
      | 1 => (s.modFilter k fun f => { f with pend := f.pend ++ [(start, some g)] }, some (f.reply (some g)))
      | 2 => (s.modFilter k fun f => { f with pend := f.pend ++ [(start, none)] }, some (f.reply f.cfg))
      | _ => (s, some (f.reply f.cfg))

/-! HK_READ (R654, R668). -/

/-- CONVERTED: 0.1 mV, or 0.1 degC for a sensor, of a value of sixteenths of a code. -/
def hkConverted (channel : Nat) (v : Int) : Int :=
  if channel ≥ 0x70 then roundDiv (125 * v) 512 - 2732
  else if hkPair channel then roundDiv (125 * (v - 32768)) 256
  else if channel ≥ 0x40 then roundDiv (125 * v) 256
  else roundDiv (125 * v) 512

/-- One item of HK_READ: VALUE, the result and its sixteenths of a code. -/
def hkItem (channel value : Nat) (open_ : Bool) (r : HkRes) (v : Int) : List Byte :=
  if r.valid then
    le 4 (value + 2 ^ 16 * bit r.ovr + 2 ^ 17 * bit open_ + 2 ^ 18 + 2 ^ 24 * channel) ++ leS 4 (hkConverted channel v) ++
      (timeBytes r.stamp).take 8
  else le 4 (2 ^ 17 * bit open_ + 2 ^ 24 * channel) ++ le 4 0x80000000 ++ zeros 8

/-- A raw value as its ALIGN places it. -/
def HkSeq.aligned (q : HkSeq) (code : Nat) : Nat := if q.left then 16 * code else code

/-- The items of a source. -/
def State.hkItems (s : State) (source c : Nat) : List (List Byte) :=
  match source with
  | 1 =>
    let q := (s.hkConv c).seq
    q.entries.map fun e => hkItem e.channel (q.aligned e.res.code) e.open_ e.res (16 * e.res.code : Nat)
  | 2 => (List.range 32).map fun k =>
    let f := s.hkFilter k
    let e := match f.cfg with | some g => (s.hkConv g.conv).seq.entries[g.entry]? | none => none
    match e with
    | some e => hkItem e.channel f.out.code e.open_ f.out f.out.code
    | none => hkItem 0 0 false {} 0
  | _ => ((List.range 42).zip hkSystem).map fun e =>
    let r := tgetD s.hk.system e.1 {}
    hkItem e.2 r.code false r (16 * r.code : Nat)

/-- HK_READ. -/
def State.cmdHkRead (s : State) (q : Request) : State :=
  let src := q.u 0 1
  let c := q.u 1 1
  let first := q.u 2 1
  let n := q.u 3 1
  let items := s.hkItems src c
  s.serve 0x0D02 q 4 (q.len == 4)
    [.bad (src < 1 || src > 3 || (src == 1 && c > 1) || (src != 1 && c != 0) || n < 1 || n > 64) .badParam 0,
     .lit (match src with | 1 => [2 + c] | 3 => [3] | _ => []), s.anyTenant q, .bad (decide (first ≥ items.length)) .badParam 0]
    fun s =>
      let xs := (items.drop first).take n
      (s, some (le 1 0 ++ le 1 0 ++ le 1 xs.length ++ zeros 1 ++ xs.flatten))

/-! The frame (R650 to R662). -/

/-- A conversion: an input in codes, clamped with OVR beyond the range (R655). -/
def hkCode (x : Int) : Nat × Bool := ((max 0 (min 4095 x)).toNat, decide (x < 0) || decide (x > 4095))

/-- HK_FILTER_RESTART: causes 1 attach, 2 DECIM_LOG, 3 channel change, 4 validity return. -/
def State.filterRestart (s : State) (k c cause : Nat) : State :=
  (s.modFilter k fun f => { f with samples := [], lost := false, fade := none, out := { f.out with valid := false } }).raise islLamp
    .hkFilterRestart c (le 1 k ++ le 1 cause)

/-- A setting of a filter channel takes effect (R653, R660, R661). -/
def State.filterTo (s : State) (k : Nat) (g : Option HkCfg) : State :=
  match g, (s.hkFilter k).cfg with
  | none, _ => s.modFilter k fun f => { ({} : HkFilter) with pend := f.pend }
  | some g, old =>
    let s := s.modFilter k fun f => { f with cfg := some g }
    match old with
    | none => s.filterRestart k g.conv 1
    | some o =>
      if o.conv ≠ g.conv ∨ o.entry ≠ g.entry then s.filterRestart k g.conv 1
      else if o.decim ≠ g.decim then s.filterRestart k g.conv 2
      else if o.shape ≠ g.shape ∧ g.decim ≠ 0 then s.modFilter k fun f => { f with fade := some ((f.fade.map Prod.fst).getD o.shape, 0) }
      else s

/-- The changes of a filter channel whose frame has come: during a cross-fade they wait, and only the latest is kept (R661). -/
def State.filterDue (s : State) (k start : Nat) : State :=
  let f := s.hkFilter k
  let due := f.pend.filter fun p => chReached start p.1
  let rest := f.pend.filter fun p => !(chReached start p.1)
  match due.getLast? with
  | none => s
  | some l =>
    if f.fade.isSome then s.modFilter k fun f => { f with pend := l :: rest }
    else due.foldl (fun (s : State) p => s.filterTo k p.2) (s.modFilter k fun f => { f with pend := rest })

/-- A sequence takes effect (R653): entries keep their results where the channel stays; filters restart or are detached. -/
def State.sequenceTo (s : State) (c : Nat) (q : HkSeq) : State :=
  let old := (s.hkConv c).seq.entries
  let entries := ((List.range q.entries.length).zip q.entries).map fun e => match old[e.1]? with
    | some o => if o.channel = e.2.channel then { e.2 with res := o.res, open_ := o.open_, exceed := o.exceed, clean := o.clean } else e.2
    | none => e.2
  let s := s.modHk c fun v => { v with seq := { q with entries := entries } }
  (tkeys s.hk.filters).foldl
    (fun (s : State) k => match (s.hkFilter k).cfg with
      | some g =>
        if g.conv ≠ c then s
        else match q.entries[g.entry]?, old[g.entry]? with
          | none, _ => s.filterTo k none
          | some e, some o => if o.channel = e.channel then s else s.filterRestart k c 3
          | some _, none => s
      | none => s)
    s

/-- What takes effect at the start of a frame. -/
def State.frameStart (s : State) (start : Nat) : State :=
  let s := [0, 1].foldl
    (fun (s : State) c =>
      let due := (s.hkConv c).pend.filter fun p => chReached start p.1
      due.foldl (fun (s : State) p => s.sequenceTo c p.2) (s.modHk c fun v => { v with pend := v.pend.filter fun p => !(chReached start p.1) }))
    s
  let s := (tkeys s.hk.filters).foldl (fun (s : State) k => s.filterDue k start) s
  let due := s.hk.limPend.filter fun p => chReached start p.1
  { s with hk := { s.hk with
      limits := match due.getLast? with | some p => p.2 | none => s.hk.limits
      limPend := s.hk.limPend.filter fun p => !(chReached start p.1) } }

/-- Change an entry. -/
def State.modEntry (s : State) (c i : Nat) (f : HkEntry → HkEntry) : State :=
  s.modHk c fun v => { v with seq := { v.seq with entries := v.seq.entries.modify i f } }

/-- The counters of a converter (R669): 0 CONVERSIONS, 1 OVR_RESULTS, 2 OPEN_TESTS, 3 OPEN_INCONCLUSIVE, 4 LIMIT_CROSSINGS. -/
def State.hkCount (s : State) (c k n : Nat) : State := s.bump (2 + c) 0 k n

/-- A value is compared with the limits of its entry (R662). -/
def State.limitCheck (s : State) (c i value : Nat) : State :=
  let q := (s.hkConv c).seq
  match q.entries[i]? with
  | none => s
  | some e =>
    let high := e.high != 0xFFFF && decide (value > e.high)
    let low := e.low != 0xFFFF && decide (value < e.low)
    if high || low then
      if e.armed then
        ((s.modEntry c i fun e => { e with armed := false }).hkCount c 4 1).raise islLamp .hkLimit c
          (le 1 i ++ le 1 e.channel ++ le 1 (if high then 1 else 2) ++ le 2 value)
      else s
    else if (e.high == 0xFFFF || decide (value + q.hyst ≤ e.high)) && (e.low == 0xFFFF || decide (value ≥ e.low + q.hyst)) then
      s.modEntry c i fun e => { e with armed := true }
    else s

/-- The output of a filter channel at frame `f` (R659 to R661); the samples of its 8 x D + 1 taps have entered. -/
def State.filterEmit (s : State) (k : Nat) (f : HkFilter) (g : HkCfg) (stamp : Nat) : State × HkRes :=
  let d := 2 ^ g.decim
  let codes := f.samples.map Prod.fst
  let up := decide (s.free.1 % 2 = 1)
  let s := s.free.2
  let new := filterOut up d g.shape codes
  let r := match f.fade with
    | some (shape, j) =>
      let old := filterOut up d shape codes
      roundOpen up (((127 - 2 * j) * old + (2 * j + 1) * new : Nat) : Int) 128
    | none => new
  let fade := match f.fade with | some (shape, j) => if j ≥ 63 then none else some (shape, j + 1) | none => none
  let out : HkRes := { code := r, ovr := f.samples.any Prod.snd, valid := true, stamp := stamp }
  (s.modFilter k fun f => { f with fade := fade, out := out }, out)

/-- A filter channel takes the sample of its entry in frame `f`; the limits of a FILTERED entry follow its outputs. -/
def State.filterSample (s : State) (k f : Nat) (sample : Option (Nat × Bool)) (stamp : Nat) : State :=
  let x := s.hkFilter k
  match x.cfg, sample with
  | none, _ => s
  | some _, none => s.modFilter k fun x => { x with samples := [], lost := true, fade := none, out := { x.out with valid := false } }
  | some g, some v =>
    let s := if x.lost then s.filterRestart k g.conv 4 else s
    let d := 2 ^ g.decim
    let s := s.modFilter k fun x => { x with samples := (v :: x.samples).take (8 * d + 1) }
    let filtered := match (s.hkConv g.conv).seq.entries[g.entry]? with | some e => e.filtered | none => false
    let limit := fun (s : State) (r : HkRes) => if filtered then s.limitCheck g.conv g.entry r.code else s
    if g.decim = 0 then
      let r : HkRes := { code := 16 * v.1, ovr := v.2, valid := true, stamp := stamp }
      limit (s.modFilter k fun x => { x with out := r }) r
    else if f % d ≠ 0 then s
    else
      let x := s.hkFilter k
      if x.samples.length < 8 * d + 1 then s.modFilter k fun x => { x with out := { x.out with valid := false } }
      else
        let r := s.filterEmit k x g (stamp - 4 * d * 64 * usQ)
        limit r.1 r.2

/-- The filter channels of an entry take its sample. -/
def State.feed (s : State) (c i f : Nat) (sample : Option (Nat × Bool)) (stamp : Nat) : State :=
  (tkeys s.hk.filters).foldl
    (fun (s : State) k => match (s.hkFilter k).cfg with
      | some g => if g.conv = c ∧ g.entry = i then s.filterSample k f sample stamp else s
      | none => s)
    s

/-- An open-wire test (R657, R658). -/
def State.openTest (s : State) (c i : Nat) (e : HkEntry) (x : Nat × Bool) : State :=
  let s := s.hkCount c 2 1
  if e.res.valid && e.res.ovr then s.hkCount c 3 1
  else
    let far := e.res.valid && decide (((x.1 : Int) - (e.res.code : Int)).natAbs > (s.hkConv c).seq.owThresh)
    if far || x.1 == 0xFFF || (hkPair e.channel && x.1 == 0) then
      let s := s.modEntry c i fun e => { e with exceed := e.exceed + 1, clean := 0, open_ := e.open_ || decide (e.exceed + 1 ≥ 2) }
      if !e.open_ && decide (e.exceed + 1 ≥ 2) then s.raise islLamp .hkOpenWire c (le 1 i ++ le 1 e.channel) else s
    else
      let s := s.modEntry c i fun e => { e with clean := e.clean + 1, exceed := 0, open_ := e.open_ && decide (e.clean + 1 < 2) }
      if e.open_ && decide (e.clean + 1 ≥ 2) then s.raise islLamp .hkOpenWireClear c (le 1 i ++ le 1 e.channel) else s

/-- The slot of an entry in frame `f`: a test, or a sample. -/
def State.entrySlot (s : State) (c i f : Nat) (x : Int) (stamp : Nat) : State :=
  let q := (s.hkConv c).seq
  match q.entries[i]? with
  | none => s
  | some e =>
    let v := hkCode x
    if e.openCheck && f % max 1 q.owPeriod == 0 then
      let s := s.openTest c i e v
      if e.res.valid then s.feed c i f (some (e.res.code, e.res.ovr)) stamp else s
    else if e.channel ≥ 0x70 && !(s.sensorLit (e.channel - 0x70)) then
      (s.modEntry c i fun e => { e with res := { e.res with valid := false } }).feed c i f none stamp
    else
      let s := if v.2 then s.hkCount c 1 1 else s
      let s := s.modEntry c i fun e => { e with res := { code := v.1, ovr := v.2, valid := true, stamp := stamp } }
      let s := if e.filtered then s else s.limitCheck c i (q.aligned v.1)
      s.feed c i f (some v) stamp

/-- Add a code to the sum of a sensor. -/
def addCode (t : Tab (Nat × Nat)) (k code : Nat) : Tab (Nat × Nat) := tupd t k (0, 0) fun e => (e.1 + code, e.2 + 1)

/-- The mean of summed codes of a die sensor in 0.1 degC (R663, R668). -/
def sensorTenths (e : Nat × Nat) : Int := roundDiv ((125 * e.1 : Nat) : Int) (32 * e.2) - 2732

/-- A die sensor's conversion enters its means over 1 ms and 1 s (R333, R532, R663). -/
def State.sensorSample (s : State) (k code : Nat) : State :=
  { s with hk := { s.hk with msSum := addCode s.hk.msSum k code, sSum := addCode s.hk.sSum k code } }

/-- A system slot of HK-ADC1 (R651). -/
def State.systemSlot (s : State) (i channel : Nat) (x : Int) (stamp : Nat) : State :=
  let v := hkCode x
  let lit := channel < 0x70 || s.sensorLit (channel - 0x70)
  let s := if lit && v.2 then s.hkCount 1 1 1 else s
  let s := if lit && channel ≥ 0x70 then s.sensorSample (channel - 0x70) v.1 else s
  { s with hk := { s.hk with system := tput s.hk.system i { code := v.1, ovr := v.2, valid := lit, stamp := stamp } } }

/-- HK_FRAME: the frame under way, with the input of each slot of each converter in codes. -/
def State.hkFrame (s : State) (adc0 adc1 : List Int) : State :=
  let f := s.chamber / 50
  let t0 := s.chamberStart (50 * f)
  let stampOf := fun (slot : Nat) => (t0 + ((slot * usQ + 3 * usQ / 4 : Nat) : Int)).toNat
  let s := s.frameStart (50 * f)
  let s := if (s.dark 2).isSome then s else
    (List.range 64).foldl (fun (s : State) i => s.entrySlot 0 i f ((adc0[i]?).getD 0) (stampOf i)) (s.hkCount 0 0 64)
  if (s.dark 3).isSome then s
  else
    let s := ((List.range 42).zip hkSystem).foldl
      (fun (s : State) e => s.systemSlot e.1 e.2 ((adc1[e.1]?).getD 0) (stampOf e.1)) (s.hkCount 1 0 64)
    (List.range 22).foldl (fun (s : State) i => s.entrySlot 1 i f ((adc1[42 + i]?).getD 0) (stampOf (42 + i))) s

/-! Thermal limits (R663). -/

/-- Does a sensor take part? -/
def State.sensorJudged (s : State) (k : Nat) : Bool :=
  s.sensorLit k && s.since (s.island (sensorIsland k)).activeAt (10 * msQ) && s.since s.boot.endedAt (10 * msQ) &&
    s.since s.hk.resetAt (10 * msQ)

/-- The alarm of a sensor: while the device is DORMANT or on its way it is latched as a wake source (R551). -/
def State.thermalAlarm (s : State) (k : Nat) (t : Int) : State :=
  if s.power.dormant ≠ .no then s.wakeSource 8 0 false k (leS 2 t) else s.raise islLamp .hkThermalAlarm k (leS 2 t)

/-- One sensor's 1 ms mean. -/
def State.sensorMean (s : State) (k : Nat) (t : Int) : State :=
  if k > 11 || !(s.sensorJudged k) then s
  else
    let l := s.hk.limits
    let s := if !(s.hk.warned.contains k) && decide (t ≥ l.warn) then
        ({ s with hk := { s.hk with warned := s.hk.warned ++ [k] } }).raise islLamp .hkThermalWarn k (leS 2 t)
      else if s.hk.warned.contains k && decide (t ≤ l.warn - l.hyst) then
        ({ s with hk := { s.hk with warned := s.hk.warned.filter (· != k) } }).raise islLamp .hkThermalClear k (le 1 1 ++ leS 2 t)
      else s
    if !(s.hk.alarmed.contains k) && decide (t ≥ l.alarm) then
      ({ s with hk := { s.hk with alarmed := s.hk.alarmed ++ [k] } }).thermalAlarm k t
    else if s.hk.alarmed.contains k && decide (t ≤ l.alarm - l.hyst) then
      ({ s with hk := { s.hk with alarmed := s.hk.alarmed.filter (· != k) } }).raise islLamp .hkThermalClear k (le 1 2 ++ leS 2 t)
    else s

/-- HK_THERMAL_EVAL: the mean of each die sensor over the last 1 ms is judged (R663), and at each whole second its mean over 1 s becomes
the engine temperature of R333 and the highest the value of R532. -/
def State.thermalEval (s : State) : State :=
  let means := s.hk.msSum.map fun e => (e.1, sensorTenths e.2)
  let s := means.foldl (fun (s : State) m => s.sensorMean m.1 m.2) { s with hk := { s.hk with msSum := [] } }
  if !(s.since s.hk.sAt secQ) then s
  else
    let seconds := s.hk.sSum.map fun e => (e.1, sensorTenths e.2)
    let s := { s with hk := { s.hk with sSum := [], sAt := s.mono } }
    let s := seconds.foldl (fun (s : State) m => if m.1 < 8 then s.modCal m.1 fun c => { c with temp := m.2 } else s) s
    match seconds with
    | [] => s
    | m :: ms => s.thermalMean (ms.foldl (fun a x => max a x.2) m.2)

end Sys2Proof.Machine
end

