-- ==== Sys2Proof/Machine/Tap.lean ====
section
/-!
DEFINITION. The test access port (R690 to R692).
-/
namespace Sys2Proof.Machine

/-- The instruction a code selects: every code that Table 20.11 does not list acts as BYPASS. -/
def tapInstr : Nat → TapInstr
  | 0x00 => .extest | 0x01 => .idcode | 0x02 => .sample | 0x04 => .clamp | 0x05 => .highz | 0x09 => .extestPulse
  | 0x0A => .extestTrain | _ => .bypass

/-- The instructions that take the pins from the device's functional drive (R692). -/
def TapInstr.takes : TapInstr → Bool
  | .extest | .extestPulse | .extestTrain | .clamp | .highz => true
  | .idcode | .sample | .bypass => false

/-- Does an instruction keep the condition of R609? -/
def TapInstr.harmless : TapInstr → Bool
  | .idcode | .bypass => true
  | _ => false

/-- The instruction in force. -/
def State.tapNow (s : State) : TapInstr := tapInstr s.tap.ir

/-- The word that IDCODE shifts out (R690). -/
def State.idcodeWord (s : State) : Reg :=
  BitVec.ofNat 32 (s.variant.dieStep % 16 * 2 ^ 28 + 0xAF15 * 2 ^ 12 + Config.jedecCode.toNat * 2 + 1)

/-- TAP_INSTRUCTION_UPDATE: a code in the 8-bit instruction register takes effect. -/
def State.tapUpdate (s : State) (code : Nat) : State :=
  let i := tapInstr (code % 256)
  { s with
    tap := { ir := code % 256, taken := s.tap.taken || i.takes }
    guide := { s.guide with broken := s.guide.broken || !i.harmless } }

/-- LSR_ENn: high from the laser enable of a carrier to the end of its down sequence (R230); low under every instruction that takes
the pins (R691). -/
def State.lsrEn (s : State) (n : Nat) : Bool := (s.eng n).tx.car != .dark && !s.tapNow.takes

/-- DRV_ENn: high from the driver enable to the end of the down ramp (R230). -/
def State.drvEn (s : State) (n : Nat) : Bool :=
  (match (s.eng n).tx.car with | .driverOn | .rampUp | .full | .rampDown => true | _ => false) && !s.tapNow.takes

end Sys2Proof.Machine
end

