-- ==== Sys2Proof/Machine/Boot.lean ====
section
/-!
DEFINITION. Reset and boot (16_reset_boot.md): reset sources, what a reset keeps, the fuse load, the board configuration, image
authentication, the recovery service, RESET, FUSE_STATUS and FW_UPDATE.
-/
namespace Sys2Proof.Machine

/-! Reset (R574 to R581). -/

/-- The state under reset: everything cleared but MTP, flash, fuses, the package and the model's own clocks, and, for a reset
that is not full, the items of Table 16.3 (R575). The log's ring is empty and the live life record stays in Lamp memory. -/
def State.wiped (s : State) (full : Bool) : State :=
  let fresh : State := {}
  let life := { fresh.log with
    life := s.log.life, lifeSlots := s.log.lifeSlots, lifeNext := s.log.lifeNext, lifeTenMin := s.log.lifeTenMin,
    lifeQ := s.log.lifeQ, litQ := s.log.litQ, laserQ := s.log.laserQ,
    calendar := s.log.calendar, stale := s.log.stale }
  { fresh with
    mono := s.mono, freeCtr := s.freeCtr, store := s.store, pending := s.pending
    variant := s.variant
    log := if full then { life with lifeQ := 0, litQ := [], laserQ := [] }.lifeLoad else life
    com := if full then fresh.com
      else { fresh.com with scratch1 := s.com.scratch1, i2cOff := s.com.i2cOff, spiT0Only := s.com.spiT0Only }
    power := if full then fresh.power
      else { fresh.power with
        entries := s.power.entries, refused := s.power.refused, aborted := s.power.aborted, refusals := s.power.refusals
        latchDrops := s.power.latchDrops }
    boot := if full then fresh.boot else { fresh.boot with full := false, bootSrc := s.boot.bootSrc, clkMode := s.boot.clkMode }
    tim := if full then fresh.tim
      else { fresh.tim with lastSeq := s.tim.lastSeq, msgCount := s.tim.msgCount, wasSet := s.tim.wasSet }
    guide := { fresh.guide with broken := if full then !s.tapNow.harmless else s.guide.broken }
    tap := if full then { s.tap with taken := s.tapNow.takes } else s.tap
    mem := if full then fresh.mem
      else { fresh.mem with insts := match tget s.mem.insts 2 with
        | some m => [(2, { ({} : MemInst) with data := m.data, valid := m.valid, poison := m.poison })]
        | none => [] } }

/-- A device reset is asserted (R574, R575, R578): a second source while one is asserted extends it and replaces CAUSE only when
it is PORST_N. -/
def State.assertReset (s : State) (cause rail : Nat) : State :=
  let full := cause == 1
  if s.boot.asserted && !full then s
  else
    let thermal := cause == 4 || s.boot.thermal
    let wasFull := full || (s.boot.asserted && s.boot.full)
    let s := ((if s.boot.asserted then s else s.mtpCut (rail == 0x1A)).wiped full)
    { s with boot := { s.boot with
      asserted := true, full := wasFull, thermal := thermal && !full, cause := cause, scope := 0, unit := 0, railCode := rail } }

/-- PORST_N low, or a collapse of the LAMP rails (R575). -/
def State.porst (s : State) : State := s.assertReset 1 0xFF

/-- SYSRST_N low. -/
def State.sysrst (s : State) : State := s.assertReset 2 0xFF

/-- The operating range of a monitored rail in mV (Table 16.2): the rail code of R568. -/
def monitorRange (code : Nat) : Option (Nat × Nat) :=
  if code ≤ 7 then some (500, 850)
  else if code = 8 ∨ code = 9 then some (680, 850)
  else if code = 0x0A ∨ (0x10 ≤ code ∧ code ≤ 0x17) then some (920, 1100)
  else if code = 0x18 ∨ code = 0x19 then some (1650, 1980)
  else if code = 0x1A then some (2300, 2750)
  else none

/-- Is a rail monitored: an engine's only while the engine is ACTIVE, none while the device has switched it off. -/
def State.monitored (s : State) (code : Nat) : Bool :=
  (match tget s.power.rails code with | some r => r.on | none => true) &&
  (if code ≤ 7 then (s.island (islEng code)).st == .active && s.fitted code
   else if 0x10 ≤ code ∧ code ≤ 0x17 then (s.island (islEng (code - 0x10))).st == .active && s.fitted (code - 0x10)
   else true)

/-- A monitored rail stays out of its range for 2 µs (R574). -/
def State.supplyTrip (s : State) (code mv : Nat) : State :=
  match monitorRange code with
  | some (lo, hi) => if s.monitored code && (mv < lo || mv > hi) then s.assertReset 3 code else s
  | none => s

/-- A die sensor reads at or above 115 °C, in 0.1 °C (R574, R579). -/
def State.thermalTrip (s : State) (temp : Int) : State :=
  if temp ≥ 1150 then
    if s.boot.asserted then { s with boot := { s.boot with thermal := true } } else s.assertReset 4 0xFF
  else s

/-- Every die sensor has read at most 105 °C for `ms` milliseconds (R579). -/
def State.thermalRelease (s : State) (hottest : Int) (ms : Nat) : State :=
  if s.boot.thermal && hottest ≤ 1050 && ms ≥ 1000 then { s with boot := { s.boot with thermal := false } } else s

/-- No heartbeat of the active pair for `ms` milliseconds (R580). -/
def State.watchdog (s : State) (ms : Nat) : State :=
  if s.boot.wdtS > 0 ∧ ms ≥ s.boot.wdtS * 1000 ∧ !s.boot.asserted then s.assertReset 5 0xFF else s

/-- A lockstep mismatch in the active pair that no standby can take over (R581). -/
def State.doubleLockstep (s : State) : State :=
  if s.guide.active.isSome && s.trapResets then s.assertReset 6 0xFF else s

/-- The active pair traps: the standby takes over, or the trap resets the device (R581, R616). -/
def State.guideTrap (s : State) (cause : Nat) : State :=
  match s.guide.active with
  | none => s
  | some p => if s.trapResets then s.assertReset 6 0xFF else s.activeTrap p cause

/-- The writes of MTP under way have ended (the life record is written before the reset is asserted, R585). -/
def State.mtpEnded (s : State) : State := { s with store := { s.store with writing := [] } }

/-- The reset that a RESET of device scope asked for is asserted, after the life record was written (R585). -/
def State.resetDue (s : State) (lifeOk : Bool) : State :=
  if s.boot.resetDue.isSome then (s.lifeWrite lifeOk).mtpEnded.assertReset 7 0xFF else s

/-! The boot (R576, R577, R586 to R599). -/

/-- Raise a boot event, or keep it until the event ring runs, with the time at which it occurred (R604). -/
def State.bootEvent (s : State) (e : Ev) (island source : Nat) (payload : List Byte) : State :=
  if s.boot.stage ≥ 4 then s.raise island e source payload
  else { s with boot := { s.boot with early := s.boot.early ++ [(s.now, e, island, source, payload)] } }

/-- The ring runs: the early events are recorded. -/
def State.flushEarly (s : State) : State :=
  let xs := s.boot.early
  xs.foldl (fun s x => s.raiseAt x.1 x.2.2.1 x.2.1 x.2.2.2.1 x.2.2.2.2) { s with boot := { s.boot with early := [] } }

/-- Release islands from reset (R577). -/
def State.release (s : State) (is : List Nat) : State :=
  is.foldl (fun (s : State) i => s.modIsland i fun x => { x with inReset := false, activeAt := s.mono }) s

/-- Reset is released (R576, R577, stage 0x1): the straps are sampled after a full reset only, domain time counts from zero
(R37), and a release of PORST_N counts as a power-up (R590, Table 14.7). -/
def State.releaseReset (s : State) (bootSrc clkMode : Nat) : State :=
  if !s.boot.asserted || s.boot.thermal then s
  else
    let full := s.boot.full
    let s := { s with now := 0, boot := { s.boot with
      asserted := false, full := false, stage := 1, endedAt := s.mono
      bootSrc := if full then bootSrc % 4 else s.boot.bootSrc
      clkMode := if full then clkMode % 4 else s.boot.clkMode } }
    let s := s.release [0]
    let s : State := if full then
        let w := s.mtpWrite 1 16 true
        ({ w with store := { w.store with powerUps := w.store.powerUps + 1 } } : State).modLife fun l => { l with powerCycles := l.powerCycles + 1 }
      else s
    if s.boot.clkMode = 3 then s.bootEvent .strapReserved islLamp 0xFFFF (le 1 s.boot.straps) else s

/-- Raise DEVICE_RESET (Table 16.9). -/
def State.deviceReset (s : State) (slot : Nat) : State :=
  s.raise islLamp .deviceReset 0xFFFF
    (le 1 s.boot.cause ++ le 1 s.boot.railCode ++ le 1 s.boot.bootSrc ++ le 1 slot ++ le 1 s.boot.loads)

/-- Enter the recovery service (R598): the boot ROM serves on pair G0, with BOOT_STAGE 0xE. -/
def State.enterRecovery (s : State) : State :=
  let s := { s with
    boot := { s.boot with recovery := true, stage := 0xE, slot := 2 }
    guide := { s.guide with active := some 0, standby := false } }
  s.deviceReset 2

/-- The engines of a part: 8, 6 or 4 (R2). -/
def partEngines (n : Nat) : Nat := if 8 ≤ n then 8 else if 6 ≤ n then 6 else 4

/-- VARIANT as a load that passed leaves it: the enabled engines are WE0 upwards without gaps (R2), HOST_BOND is the bond sense (R6). -/
def variantOf (f : FuseRead) (safe : Bool) : Variant :=
  let n := partEngines f.engines
  { engineCount := n, engineMask := 2 ^ n - 1, cipher := f.cipher, bond64 := f.bond64, safeMode := safe, fuseValid := true
    dieStep := f.dieStep % 256 }

/-- A load that passed (R587): VARIANT, the trims and the spare-row map are loaded and the root key is delivered. -/
def State.fusePass (s : State) (f : FuseRead) : State :=
  { s with
    variant := variantOf f (s.boot.bootSrc == 3)
    mem := { s.mem with fuseRows := f.spareRows.foldl (fun t k => tupd t k 0 (· + 1)) [] }
    boot := { s.boot with
      rootKey := true, serial := BitVec.ofNat 64 f.serial, spareRows := f.spareRows.length
      vtrim := (List.range 8).map fun n => (n, min 30 ((f.vtrim[n]?).getD 0)) } }

/-- CTRL is released once the fuse load has ended, and the event ring runs (stage 0x4); safe mode goes on in the recovery
service. -/
def State.fuseDone (s : State) : State :=
  let s := { s with boot := { s.boot with stage := 4 } }
  let s := (s.release [1, 2, 12]).flushEarly
  if s.variant.safeMode then s.enterRecovery else s

/-- The index of the first word in which two reads differ. -/
def firstDiff : List Reg → List Reg → Nat → Nat
  | x :: xs, y :: ys, k => if x = y then firstDiff xs ys (k + 1) else k
  | _, _, k => k

/-- Does the CRC-32C of R441 over the array hold? It stands in the array's last word (DESIGN CHOICE, assumption 82). -/
def fuseCrcOk (ws : List Reg) : Bool :=
  crc32c (ws.dropLast.flatMap fun w => le 4 w.toNat) == ((ws.getLast?).getD 0).toNat

/-- The cause for which a load fails (R586, R589): 1 the reads differ, 2 the CRC. -/
def fuseFail (f : FuseRead) : Option Nat :=
  if f.first ≠ f.second then some 1 else if fuseCrcOk f.first then none else some 2

/-- One load of the fuse array (R586 to R588). -/
def State.fuseLoad (s : State) (f : FuseRead) : State :=
  if s.boot.asserted || !(s.boot.stage == 1 || s.boot.stage == 2) then s
  else
    let n := s.boot.loads + 1
    let s := { s with boot := { s.boot with stage := 2, loads := n } }
    match fuseFail f with
    | none => (s.fusePass f).fuseDone
    | some cause =>
      let s := { s with boot := { s.boot with
        failCause := cause, firstBad := if cause = 1 then firstDiff f.first f.second 0 else 0xFFFFFFFF } }
      if n < 3 then s.bootEvent .fuseLoadRetry islLamp 0xFFFF (le 1 n ++ le 1 cause)
      else
        { s with
          variant := { bond64 := f.bond64, safeMode := true }
          boot := { s.boot with loadFail := true } }.fuseDone

/-- The device capacity C for an installed capacity in GiB (R485), in bytes. -/
def lpCapacity (gib : Nat) : Nat := gib * 1024 * 8 / 9 / 64 * 64 * 1048576

/-- The rail codes of R568. -/
def railCode (c : Nat) : Bool := c ≤ 0x0A || (0x10 ≤ c && c ≤ 0x1A) || 0x20 ≤ c

/-- Check a board configuration (R595): 1 format, 2 CRC, 3 range, 4 duplicate rail. -/
def checkBoard (b : List Byte) : Option Nat :=
  let n := fld b 16 1
  let rails := (List.range n).map fun k => fld b (32 + 8 * k) 1
  let railOk := fun k =>
    let o := 32 + 8 * k
    railCode (fld b o 1) && fld b (o + 1) 1 < 4 && (fld b (o + 2) 1 < 128 || fld b (o + 2) 1 == 0xFF) && (fld b (o + 4) 1 ≤ 15 || fld b (o + 4) 1 == 0xFF) &&
    fld b (o + 5) 1 < 2 && 1 ≤ fld b (o + 6) 1 && fld b (o + 6) 1 ≤ 10 && zeroAt b (o + 7) 1
  if fld b 0 1 ≠ 0xB5 ∨ fld b 1 1 ≠ 1 ∨ fld b 2 2 ≠ 32 + 8 * n ∨ b.length < 32 + 8 * n then some 1
  else if crc32c (b.take 8 ++ zeros 4 ++ (b.take (32 + 8 * n)).drop 12) ≠ fld b 8 4 then some 2
  else if n > 32 ∨ !(fld b 12 1 == 1 || fld b 12 1 == 2) ∨ fld b 13 1 < 4 ∨ fld b 13 1 > 32 ∨ fld b 13 1 % 2 = 1 ∨
      fld b 14 1 < 1 ∨ fld b 14 1 > 4 ∨ fld b 15 1 > 60 ∨ !(zeroAt b 17 15) ∨ !((List.range n).all railOk) then some 3
  else if (List.range n).any fun k => (rails.take k).contains ((rails[k]?).getD 0) then some 4
  else none

/-- A rail map entry (R568); the rails of group B that are SWITCHABLE are off until the device turns them on (R688). -/
def railOf (b : List Byte) (o : Nat) : Nat × Rail :=
  (fld b o 1,
   { bus := fld b (o + 1) 1, pmbus := fld b (o + 2) 1, page := fld b (o + 3) 1, avs := fld b (o + 4) 1,
     switchable := bitAt (fld b (o + 5) 1) 0, softStart := fld b (o + 6) 1
     on := !(bitAt (fld b (o + 5) 1) 0 && groupB (fld b o 1)) })

/-- Apply a board configuration that passed R595. -/
def State.applyBoard (s : State) (b : List Byte) : State :=
  { s with
    boot := { s.boot with
      boardOk := true, boardTag := fld b 4 4, lp6Ranks := fld b 12 1, lp6Gib := fld b 13 1, lp6Rate := fld b 14 1,
      wdtS := fld b 15 1 }
    mem := { s.mem with capacity := lpCapacity (fld b 13 1) }
    power := { s.power with
      rails := (List.range (fld b 16 1)).foldl (fun t k => let e := railOf b (32 + 8 * k); tput t e.1 e.2) [] } }

/-- How the flash is read (R594), as lines of the data phase and MHz: the 1-1-4 fast read where its SFDP table declares it, else the
1-1-1 read. -/
def State.flashMode (s : State) : Option (Nat × Nat) :=
  if !s.store.flash || s.boot.bootSrc != 0 then none else if s.store.quadRead then some (4, 104) else some (1, 50)

/-- The board configuration is read (R595, stages 0x5 and 0x6). A download boot and a configuration that fails its checks go on
in the recovery service (R598). -/
def State.boardRead (s : State) : State :=
  if s.boot.asserted || s.boot.stage != 4 then s
  else
  let s := { s with boot := { s.boot with fspi := s.flashMode } }
  if s.boot.bootSrc = 1 ∨ s.boot.bootSrc = 2 then { s with boot := { s.boot with stage := 5 } }.enterRecovery
  else match checkBoard s.store.board with
    | some c =>
      ({ s with boot := { s.boot with stage := 5 } }.raise islCtrl .boardConfigFail 0xFFFF (le 1 c)).enterRecovery
    | none =>
      let s := s.applyBoard s.store.board
      { s with boot := { s.boot with stage := 6 } }.railsUp stage6Rails

/-- LPDDR6 becomes ready (R483, R502, R523): the block-valid map is clear, the spill and the bins are empty, and the remap table
is restored from the repair map. -/
def State.lpddrReady (s : State) : State :=
  let reset := fun (m : MemInst) => { m with valid := [], poison := [] }
  { s with
    mem := { s.mem with
      ready := true
      insts := tmod s.mem.insts (2 * 0x0C00) reset
      lp := { s.mem.lp with block := 0, start := s.mono, at_ := s.mono, late := false }
      remap := s.store.repair.pages.foldl (fun t p => tput t p.1 p.2) [] }
    log := { s.log with spill := [], spillWr := 0, spillRd := 0, spillFull := false, bins := [], binsOn := false }
    boot := { s.boot with stage := if s.boot.stage = 6 then 7 else s.boot.stage } }

/-- LPDDR6 training and the clearing of the map complete (R483). -/
def State.trainingDone (s : State) : State :=
  if s.boot.asserted || !s.boot.boardOk || s.mem.ready || !(s.boot.stage == 6 || s.boot.recovery || s.boot.stage == 0xF) then s
  else s.lpddrReady

/-- Check an image (R596): 1 format, 3 length, 2 signature. -/
def checkImage (b : List Byte) : Option Nat :=
  if fld b 0 1 ≠ 0xF1 ∨ fld b 1 1 ≠ 1 ∨ fld b 2 2 > 1 ∨ !(zeroAt b 14 2) ∨ !(zeroAt b 24 136) then some 1
  else if fld b 8 4 > 15 * 1048576 - 256 ∨ b.length ≠ 256 + fld b 8 4 then some 3
  else if !(Config.signatureOk b) then some 2
  else none

/-- What runs after an image was authenticated. -/
def runningOf (b : List Byte) : Running := { fwVersion := BitVec.ofNat 32 (fld b 4 4), journalFormat := fld b 12 2 }

/-- Raise FW_AUTH_FAIL for a slot (R597). -/
def State.authFail (s : State) (slot cause : Nat) : State := s.raise islCtrl .fwAuthFail slot (le 1 cause)

/-- The preferred image is authenticated, then the other slot, or the recovery service is entered (R597). -/
def State.authenticate (s : State) : State :=
  if s.boot.asserted || s.boot.stage != 7 then s
  else
    let run := fun (s : State) (slot : Nat) (b : List Byte) =>
      { s with boot := { s.boot with stage := 9, slot := slot, running := runningOf b } }
    let p := s.store.preferred
    let a := tgetD s.store.slots p []
    let b := tgetD s.store.slots (1 - p) []
    match checkImage a with
    | none => run s p a
    | some c =>
      let s := s.authFail p c
      match checkImage b with
      | none => run s (1 - p) b
      | some c => (s.authFail (1 - p) c).enterRecovery

/-- The firmware runs, the engine rails are turned on and the other islands are released (stages 0xA and 0xB of Table 16.8, R508, R688):
the memories are filled and boot calibration is due. The islands of a rail that did not confirm stay OFF. -/
def State.islandsUp (s : State) : State :=
  if s.boot.asserted || !(s.boot.stage == 9 || s.boot.stage == 0xA) then s
  else
    let failed := s.power.unconfirmed
    let s := { s with boot := { s.boot with stage := 0xB } }.railsUp (s.stageBRails.map fun (step : List Nat) => step.filter fun c => !(failed.contains c))
    let s := (s.release ((List.range 15).filter fun i => !(s.unpowered i))).fillMemories
    let s := ((List.range 15).filter s.unpowered).foldl
      (fun (s : State) i => (s.clearIsland i).modIsland i fun x => { x with st := .off, inReset := true }) s
    (List.range 8).foldl (fun (s : State) n => if s.fitted n && !(s.unpowered (islEng n)) then s.needBootCal n else s) s

/-- The firmware serves commands (stage 0xF, R599): the standby pair is loaded and DEVICE_RESET is raised. -/
def State.bootComplete (s : State) : State :=
  let s := s.islandsUp
  if s.boot.asserted || s.boot.stage != 0xB then s
  else
    { s with
      boot := { s.boot with stage := 0xF, recovery := false }
      guide := { s.guide with active := some 0, standby := s.guide.failed.isEmpty } }.deviceReset s.boot.slot

/-! RESET (R582 to R585). -/

/-- Is a unit a reset target of Table 16.4? -/
def State.resettable (s : State) (u : Nat) : Bool :=
  let i := unitIsland u
  if unitIndex u = 0xFE then (3 ≤ i && i ≤ 11) || i == 14
  else
    (i == 11 && unitIndex u < 0x80) || (i == 14 && unitIndex u ≤ 3) || u == 0x0002 || u == 0x0003 || u == 0x0104 || u == 0x0105 ||
    ((u == 0x0100 || u == 0x0101) && s.guide.active != some (u % 2))

/-- Why a reset target is not idle (R583): reason of Table 15.3, or 7 for a unit. -/
def State.resetBusy (s : State) (u : Nat) : Option Nat :=
  if unitIndex u = 0xFE then (s.idleReason (unitIsland u)).map Prod.fst
  else if s.unitIdle u then none else some 7

/-- The effect of an island or unit reset (Table 16.4, R584). -/
def State.resetTarget (s : State) (u : Nat) : State :=
  let i := unitIsland u
  let s := { s with boot := { s.boot with cause := 7, scope := if unitIndex u = 0xFE then 1 else 2, unit := u } }
  if unitIndex u = 0xFE then
    let s := (s.clearIsland i).fillIsland i
    let s := if 3 ≤ i ∧ i ≤ 10 then s.needBootCal (i - 3) else s
    s.raise islLamp .islandReset i (le 1 7)
  else
    let s := if u = 0x0100 ∨ u = 0x0101 then
        { s with guide := { s.guide with
          standby := false, trapped := if s.guide.failed.contains (u % 2) then none else some (u % 2, s.mono) } }
      else s.clearUnit u
    s.raise islLamp .unitReset u (le 1 7)

/-- RESET (R582 to R585), with the checks of R583 in their order. -/
def State.cmdReset (s : State) (q : Request) : State :=
  let scope := q.u 0 1
  let u := q.u 2 2
  let badUnit := if scope = 0 then u != 0
    else if scope = 1 then !(unitIndex u == 0xFE && unitIsland u ≤ 14)
    else !(unitListed u) || unitIndex u == 0xFE || unitIndex u == 0xFF
  let busy := if scope = 0 then none else s.resetBusy u
  s.serve 0x0901 q 4 (q.len == 8)
    [.bad (decide (scope > 2) || !(q.rsv 1 1) || !(q.rsv 4 4) || badUnit) .badParam 0,
     .lit (if scope = 0 then [] else [u]),
     .bad (q.tenant != 0 || (scope != 0 && !(s.resettable u))) .notPermitted 0,
     .bad busy.isSome .notIdle (busy.getD 0)]
    fun s =>
      if scope = 0 then ({ s with boot := { s.boot with resetDue := some s.mono } }, some okay4)
      else (s.resetTarget u, some okay4)

/-- FUSE_STATUS (R589). -/
def State.cmdFuseStatus (s : State) (q : Request) : State :=
  let v := s.variant
  s.serve 0x0903 q 24 (q.len == 0) [s.anyTenant q]
    fun s => (s, some
      (le 1 0 ++ le 1 (bit v.fuseValid) ++ le 1 s.boot.loads ++ le 1 s.boot.failCause ++ le 4 s.boot.firstBad ++
        le 2 s.boot.spareRows ++ le 2 (s.store.repair.rows.length + s.store.repair.pages.length + s.store.repair.convs.length) ++
        le 1 (bit s.boot.rootKey) ++ le 1 v.dieStep ++ zeros 2 ++ le 8 (if v.fuseValid then s.boot.serial.toNat else 0)))

/-! FW_UPDATE (R601 to R603). -/

/-- Is a FW_UPDATE job running? -/
def State.fwBusy (s : State) : Bool := s.runningJobs.any fun j => j.op == 0x0902

/-- The staged item of a target, once its staging job accepted it. -/
def State.staged (s : State) (target : Nat) : Option (List Byte) :=
  if target = 1 then (if s.boot.imgOk then s.boot.stagedImg else none) else (if s.boot.cfgOk then s.boot.stagedCfg else none)

/-- Can a staged image be activated live (R603)? -/
def State.liveOk (s : State) : Bool :=
  match s.staged 1 with
  | some b => bitAt (fld b 2 2) 0 && fld b 12 2 == s.boot.running.journalFormat && s.guide.standby
  | none => false

/-- The bytes of the item under staging, where a chunk continues it. -/
def State.stageBytes (s : State) (target : Nat) : List Byte :=
  match s.boot.stageBuf with | some (t, b) => if t = target then b else [] | none => []

/-- FW_UPDATE (R601 to R603). -/
def State.cmdFwUpdate (s : State) (q : Request) : State :=
  let act := q.u 0 1
  let target := q.u 1 1
  let mode := q.u 2 1
  let flags := q.u 3 1
  let off := q.u 4 4
  let len := q.u 16 4
  let last := bitAt flags 0
  let lenOk := if act = 2 then q.len == 24 + len else q.len == 24
  let rsvBad := !(q.rsv 20 4) || (act != 4 && mode != 0) || (act != 2 && flags != 0) || (act != 2 && off != 0) ||
    (act != 1 && !(q.rsv 8 8)) || ((act == 3 || act == 4) && len != 0)
  let badRange := act < 1 || act > 4 || target < 1 || target > 2 || flags > 1 || (act == 4 && (mode < 1 || mode > 2 || target != 1)) ||
    (act == 1 && (q.u 8 8 % 64 != 0 || len == 0)) || (act == 2 && (len < 1 || len > 4056))
  let starts := act != 2 || last
  let gap := act == 2 && off != 0 && off != (s.stageBytes target).length
  let notReady := (target == 1 && (act == 1 || act == 2) && !s.lpReady) ||
    (act == 3 && (!s.store.flash || (s.staged target).isNone)) ||
    (act == 4 && mode == 1 && !s.liveOk) || (act == 4 && mode == 2 && s.boot.recovery && (s.staged 1).isNone)
  s.serve 0x0902 q 8 lenOk
    [.bad (rsvBad || badRange) .badParam 0, onlyT0 q, .bad (act == 4 && mode == 2 && !s.boot.recovery) .notPermitted 0,
     .bad gap .badParam 4, .bad (starts && s.fwBusy) .busy 0, .bad notReady .notReady 0,
     .bad (starts && s.jobsFull q.tenant) .noResource 0]
    fun s =>
      if act = 2 then
        let bytes := (if off = 0 then [] else s.stageBytes target) ++ (q.payload.drop 24)
        let s := { s with boot := { s.boot with
          stageBuf := some (target, bytes)
          imgOk := if target = 1 then false else s.boot.imgOk
          cfgOk := if target = 2 then false else s.boot.cfgOk } }
        if last then
          let (s, t) := s.startJob q.tenant 0x0902 (.fwStage target 0 0 bytes.length)
          (s, some (jobStarted t))
        else (s, some (okay4 ++ le 4 bytes.length))
      else if act = 1 then
        let s := { s with boot := { s.boot with
          stageBuf := some (target, [])
          imgOk := if target = 1 then false else s.boot.imgOk
          cfgOk := if target = 2 then false else s.boot.cfgOk } }
        let (s, t) := s.startJob q.tenant 0x0902 (.fwStage target (q.u 8 8) len 0)
        (s, some (jobStarted t))
      else
        let (s, t) := s.startJob q.tenant 0x0902 (if act = 3 then .fwWrite target 0 else .fwActivate mode)
        (s, some (jobStarted t))

/-- A staging job checks its item (R602); in the recovery service a board configuration that passes is applied at once, with the rails
that LPDDR6 needs for its training (R598, R688). -/
def State.stageCheck (s : State) (token target : Nat) : State :=
  let b := s.stageBytes target
  let bad := if target = 1 then checkImage b else checkBoard b
  let reason := match bad with
    | none => 0
    | some c => if c = 2 then 2 else 1
  match bad with
  | some _ => s.finishJob token .badParam (le 1 reason)
  | none =>
    let s := if target = 1 then { s with boot := { s.boot with stagedImg := some b, imgOk := true, stageBuf := none } }
      else { s with boot := { s.boot with stagedCfg := some b, cfgOk := true, stageBuf := none } }
    let s := if target = 2 ∧ s.boot.recovery then (s.applyBoard b).railsUp (stage6Rails.filter fun c => c != [9]) else s
    s.finishJob token .ok []

/-- A step of a staging job from host memory: the bytes the DMA transfer brought. -/
def State.stageMore (s : State) (token target hostAddr len : Nat) (bytes : List Byte) : State :=
  let b := (s.stageBytes target ++ bytes).take len
  let s := { s with boot := { s.boot with stageBuf := some (target, b) } }
  if b.length ≥ len then s.stageCheck token target
  else s.modJob token fun j => { j with work := .fwStage target hostAddr len b.length, progress := b.length * 100 / len }

/-- The flash write of a staged item ends (R602): an image goes to the slot that is not preferred, which is preferred from then
on. -/
def State.flashWrite (s : State) (token target : Nat) (verified : Bool) : State :=
  match s.staged target with
  | none => s.finishJob token .notReady []
  | some b =>
    if !verified then s.finishJob token .hwFault []
    else
      let other := 1 - s.store.preferred
      let s := if target = 1 then { s with store := { s.store with slots := tput s.store.slots other b, preferred := other } }
        else { s with store := { s.store with board := b } }
      s.finishJob token .ok []

/-- The activation of a staged image (R603): live, as a guide-pair takeover at a chamber boundary, or from the recovery service
into the boot at stage 0xA. -/
def State.activate (s : State) (token mode : Nat) : State :=
  match s.staged 1 with
  | none => s.finishJob token .notReady []
  | some b =>
    let r := runningOf b
    if mode = 1 then
      match s.guide.active with
      | some p =>
        let s := { s with
          boot := { s.boot with running := r, slot := 2 }
          guide := { s.guide with
            active := some (1 - p), standby := false, trapped := some (p, s.mono), taking := some (1 - p, s.mono) } }
        (s.finishJob token .ok []).raise islCtrl .fwActivated 0xFFFF (le 4 r.fwVersion.toNat ++ le 1 1)
      | none => s
    else
      let s := s.finishJob token .ok []
      let s := s.raise islCtrl .fwActivated 0xFFFF (le 4 r.fwVersion.toNat ++ le 1 2)
      { s with boot := { s.boot with stage := 0xA, recovery := false, running := r, slot := 2 } }

end Sys2Proof.Machine
end

