-- ==== Sys2Proof/Machine/Ecc.lean ====
section
/-!
DEFINITION. The error-correcting codes of the memories (R476 to R478): SECDED codes of 8 data and 5 check bits and of 64 data and 8 check
bits. The rules name the codes by their sizes; the parity-check matrix is that of the extended Hamming code (PRESUMED, assumption 83).
-/
namespace Sys2Proof.Machine

/-- What a read finds in a code: nothing wrong, a corrected bit, or an uncorrectable code (R478). -/
inductive MemOut where
  | clean
  | corrected (bit : Nat)
  | uncorrectable
  deriving DecidableEq, Repr

/-- Check bits of a code of `k` data bits beside the overall parity bit. -/
def checkCount (k : Nat) : Nat := if k = 8 then 4 else 7

/-- The Hamming position of each bit of a code: data bits first, then the check bits, whose positions are the powers of two, then the
overall parity bit at 0. -/
def codePositions (k : Nat) : List Nat :=
  let r := checkCount k
  let powers := (List.range r).map fun i => 2 ^ i
  ((List.range (k + r)).map fun p => p + 1).filter (fun p => !(powers.contains p)) ++ powers ++ [0]

/-- The bits that are set in a code, by number. -/
def setBits (n w : Nat) : List Nat := (List.range n).filter fun i => w / 2 ^ i % 2 == 1

/-- The syndrome of a code: the exclusive or of the positions of its set bits. -/
def syndrome (k w : Nat) : Nat :=
  (setBits (k + checkCount k + 1) w).foldl (fun a i => a ^^^ ((codePositions k)[i]?).getD 0) 0

/-- The code of `k` data bits: the data, the check bits and the overall parity. -/
def codeOf (k data : Nat) : Nat :=
  let r := checkCount k
  let w := data % 2 ^ k + syndrome k (data % 2 ^ k) * 2 ^ k
  w + (setBits (k + r) w).length % 2 * 2 ^ (k + r)

/-- What a read of a stored code finds: any single bit in error is corrected, any two are detected, three or more may be miscorrected or
missed (R478). -/
def readCode (k w : Nat) : MemOut :=
  let s := syndrome k w
  let odd := (setBits (k + checkCount k + 1) w).length % 2 == 1
  if odd then (match (codePositions k).findIdx? fun p => p == s with | some b => .corrected b | none => .uncorrectable)
  else if s = 0 then .clean else .uncorrectable

/-- A code with some of its bits inverted. -/
def flipBits (w : Nat) (bits : List Nat) : Nat := bits.foldl (fun a b => a ^^^ 2 ^ b) w

/-- A code written to a spare with all its check bits inverted stays uncorrectable (R499). -/
def inverted (k w : Nat) : Nat := flipBits w ((List.range (checkCount k + 1)).map fun i => k + i)

end Sys2Proof.Machine
end

