-- ==== Sys2Proof/Machine/Transport.lean ====
section
/-!
DEFINITION. The transports (12_commands.md): mailbox rings, the SPI target and the I2C target. The BAR0 registers they reach are in
Bar0.lean.
-/
namespace Sys2Proof.Machine

/-! Packets as they arrive (R443, R444). -/

/-- The short response to a packet whose header failed. -/
def shortPayload (st : Status) : List Byte := le 1 st.code ++ zeros 3

/-- A packet arrives on a transport: one whose header fails gets a short response once a guide pair serves, one that passes
waits in order of receipt (R443, R444, R446). -/
def State.receive (s : State) (via : Via) (page : Option Nat) (exactLen : Bool) (p : List Byte) : State :=
  let q : Request :=
    { via := via, tenant := fld p 4 2, tag := BitVec.ofNat 32 (fld p 8 4), payload := packetPayload p }
  match headerCheck page exactLen p with
  | none => { s with com := { s.com with received := s.com.received ++ [{ op := fld p 2 2, req := q }] } }
  | some st =>
    if s.serving then s.respond (fld p 2 2 % 0x8000) q (shortPayload st)
    else { s with com := { s.com with
      received := s.com.received ++ [{ op := fld p 2 2 % 0x8000, req := q, bad := some st.code }] } }

/-- Answer the packets whose headers failed while no guide pair served. -/
def State.answerBad (s : State) : State :=
  s.com.received.foldl
    (fun s r => match r.bad with
      | some c => s.reply (fun x => x.bad.isSome) r.op r.req (le 1 c ++ zeros 3)
      | none => s) s

/-! Mailbox rings (R428 to R433). -/

/-- Halt the ring of page `n` (R432): HALTED with its cause and index, RING_HALTED in INT_STATUS, and the event. -/
def State.haltRing (s : State) (n cause index : Nat) : State :=
  let s := s.modPage n fun p => { p with halted := true, cause := cause, index := index % 65536 }
  (s.setInt n 2).raise islCtrl .ringHalted n (le 1 cause ++ le 2 index)

/-- The size of the command ring. -/
def Page.cmdqSize (p : Page) : Nat := 2 ^ p.cmdqLog

/-- The size of the response ring. -/
def Page.rspqSize (p : Page) : Nat := 2 ^ p.rspqLog

/-- Is PCIe out of reset, from stage 0x5 of the boot on, and in D0, so that rings are served (R427, R554, R588, R593)? -/
def State.pcieUp (s : State) : Bool :=
  !s.boot.asserted && s.boot.stage ≥ 5 && !s.boot.loadFail && !s.com.d3hot && s.power.dormant == .no

/-- CMDQ_TAIL is written (R429): a doorbell that makes the fill exceed the ring, once its size is set, halts the ring with cause 5. -/
def State.doorbell (s : State) (n : Nat) (v : BitVec 16) : State :=
  let s := s.modPage n fun p => { p with cmdqTail := v }
  let p := s.page n
  if 1 ≤ p.cmdqLog && p.cmdqLog ≤ 8 && !p.halted && decide ((p.cmdqTail - p.cmdqHead).toNat > p.cmdqSize) then s.haltRing n 5 p.cmdqHead.toNat else s

/-- Can page `n` have its next entry fetched: work waits and a response entry can be reserved (R429, R430)? -/
def State.canFetch (s : State) (n : Nat) : Bool :=
  let p := s.page n
  s.pcieUp && s.guide.taking.isNone && p.enable && !p.halted && p.cmdqHead != p.cmdqTail &&
    decide (p.unread.length + p.held.length + p.outstanding < p.rspqSize)

/-- Does the SPI or I2C target hold a packet that has not begun to execute? -/
def State.holdsPacket (s : State) (v : Via) : Bool := s.com.received.any fun r => r.req.via == v && !r.started

/-- Has a place of the rotation work: a tenant page, then the SPI target (16) and the I2C target (17) (R431)? -/
def State.hasTurn (s : State) (n : Nat) : Bool :=
  if n = 16 then s.holdsPacket .spi else if n = 17 then s.holdsPacket .i2c else s.canFetch n

/-- The place served next, in round-robin order after the last one (R431). -/
def State.nextPage (s : State) : Option Nat := ((List.range 18).map fun k => (s.com.lastServed + 1 + k) % 18).find? fun n => s.hasTurn n

/-- A response write that ended in an error completion: the newest response is lost and the ring halts with cause 2 (R432). -/
def State.responseLost (s : State) (n : Nat) : State :=
  let p := s.page n
  if p.unread.isEmpty then s
  else (s.modPage n fun p => { p with unread := p.unread.dropLast, rspqTail := p.rspqTail - 1 }).haltRing n 2 (p.rspqTail - 1).toNat

/-- The next entry of a page's ring is read, or its read fails and the ring halts (R429, R432). -/
def State.fetchFrom (s : State) (n : Nat) (io : RingIo) : State :=
  match io with
  | .writeError _ => s
  | .readError => s.haltRing n 1 (s.page n).cmdqHead.toNat
  | .poisoned =>
    let (op, s) := s.free
    let (tag, s) := s.free
    let q : Request := { via := .ring n, tenant := n, tag := BitVec.ofNat 32 tag, payload := [] }
    let s := s.modPage n fun p => { p with outstanding := p.outstanding + 1 }
    (s.respond (op % 0x8000) q (refusal 4 { st := .uncorrectable })).haltRing n 3 (s.page n).cmdqHead.toNat
  | .entry bytes =>
    let s := s.modPage n fun p => { p with cmdqHead := p.cmdqHead + 1, outstanding := p.outstanding + 1 }
    s.receive (.ring n) (some n) false (bytes.take 4096)

/-- RING_FETCH: one turn (R430 to R432). A turn of a packet target takes no entry: its packet was received at the end of its transfer
(R446). -/
def State.ringFetch (s : State) (io : RingIo) : State :=
  match io with
  | .writeError n => s.responseLost n
  | _ => match s.nextPage with
    | none => s
    | some n =>
      let s := { s with com := { s.com with lastServed := n } }
      if n ≥ 16 then s else s.fetchFrom n io

/-- RSPQ_HEAD is written: the responses before it are consumed (R429). -/
def State.rspqHead (s : State) (n : Nat) (v : BitVec 16) : State :=
  s.modPage n fun p =>
    { p with rspqHead := v, unread := p.unread.drop (p.unread.length - (p.rspqTail - v).toNat) }

/-- RING_CTRL.RESET (R433). Responses of commands already fetched are discarded. -/
def State.ringReset (s : State) (n : Nat) : State :=
  let mine := fun (x : Received) => x.req.via == Via.ring n
  let s := { s with com := { s.com with received := s.com.received.map fun x => if mine x then { x with void := true } else x } }
  s.modPage n fun p =>
    { p with
      enable := false, halted := false, cause := 0, index := 0, cmdqTail := 0, cmdqHead := 0, rspqTail := 0, rspqHead := 0
      unread := [], held := [], outstanding := 0 }

/-- A LOG field that a ring can run with (R428). -/
def logOk (k : Nat) : Bool := 1 ≤ k && k ≤ 8

/-- A write of RING_CTRL (R433, R466): RESET acts first; the LOG fields are discarded while ENABLE is 1; ENABLE with a bad LOG
field leaves ENABLE at 0 and halts the ring with cause 4. -/
def State.ringCtrl (s : State) (n : Nat) (v : Reg) : State :=
  let w := v.toNat
  if bitAt w 1 then s.ringReset n
  else
    let s := s.modPage n fun p =>
      if p.enable then p else { p with cmdqLog := bitsAt w 4 4, rspqLog := bitsAt w 8 4 }
    let p := s.page n
    if !(bitAt w 0) then s.modPage n fun p => { p with enable := false }
    else if p.enable then s
    else if logOk p.cmdqLog && logOk p.rspqLog then s.modPage n fun p => { p with enable := true }
    else s.haltRing n 4 p.cmdqHead.toNat

/-- PCIE_PERST_N asserts: the endpoint and every page's ring registers are reset, and nothing else (R427). -/
def State.perst (s : State) : State :=
  let s := (List.range 16).foldl
    (fun s n => (s.ringReset n).modPage n fun p =>
      { ({} : Page) with
        intStatus := p.intStatus, intMask := p.intMask, vector := p.vector, pin := p.pin, pinEn := p.pinEn
        moderation := p.moderation, ctrSelect := p.ctrSelect, shadowHi := p.shadowHi }) s
  { s with com := { s.com with msix := [], pba := 0, d3hot := false } }

/-- The endpoint moves between D0 and D3hot (R427): in D3hot no response is written; back in D0 the held ones are. -/
def State.d3hot (s : State) (on : Bool) : State :=
  let s := { s with com := { s.com with d3hot := on } }
  if on then s
  else
    (List.range 16).foldl
      (fun s n =>
        let rs := (s.page n).held
        let s := s.modPage n fun p => { p with held := [] }
        rs.foldl (fun s r => s.ringRespond n r) s) s

/-- A W1C write of INT_STATUS (R471, R472). -/
def State.intClear (s : State) (n : Nat) (v : Reg) : State :=
  let s := s.modPage n fun p =>
    { p with
      intStatus := p.intStatus &&& ~~~v
      rspCleared := if v.getLsbD 0 && p.intStatus.getLsbD 0 then some s.mono else p.rspCleared }
  let p := s.page n
  if (p.intStatus &&& ~~~p.intMask) != 0 then s.msi p.vector else s

/-- MODERATION_US after RSP_READY was cleared, the bit is set again if responses were written meanwhile (R472). -/
def State.rspModeration (s : State) (n : Nat) : State :=
  let p := s.page n
  match p.rspCleared with
  | none => s
  | some t =>
    if !(s.since t (p.moderation * usQ)) then s
    else
      let s := s.modPage n fun p => { p with rspCleared := none, rspDue := false }
      if p.rspDue then s.setInt n 0 else s

/-! SPI target and I2C target (R434 to R439). -/

/-- Change the SPI target. -/
def State.modSpi (s : State) (f : Target → Target) : State := { s with com := { s.com with spi := f s.com.spi } }

/-- Change the I2C target. -/
def State.modI2c (s : State) (f : Target → Target) : State := { s with com := { s.com with i2c := f s.com.i2c } }

/-- Does the SPI target answer (LAMP is out of reset)? -/
def State.targetsUp (s : State) : Bool := !s.boot.asserted && s.boot.stage ≥ 1

/-- PACKET_WRITE: taken at the rise of TSPI_CS_N where there is space, otherwise discarded with OVERRUN and SPI_OVERRUN (R435).
While DORMANT it is a wake source and the packet waits (R551, R554). -/
def State.packetWrite (s : State) (p : List Byte) : State :=
  if !s.targetsUp then s
  else
    let s := if s.power.dormant ≠ .no then s.wakeSource 3 0xFF true 0 [] else s
    if s.cmdSpace s.com.spi .spi then s.receive .spi none true p
    else
      let s := s.modSpi fun t => { t with overrun := true, discarded := t.discarded + 1 }
      s.raise islCtrl .spiOverrun 0xFFFF (le 2 (satN 2 s.com.spi.discarded))

/-- RESPONSE_READ: the oldest response and then 0x00; a transfer that ends early leaves it waiting (R435). -/
def Target.readResponse (t : Target) (whole : Bool) : Target :=
  match t.responses with
  | [] => { t with lastRead := [0] }
  | r :: rs => if whole then { t with lastRead := r.bytes ++ [0], responses := rs } else { t with lastRead := r.bytes.dropLast }

/-- RESPONSE_READ on the SPI target; while DORMANT it does not reply (R554). -/
def State.responseRead (s : State) (whole : Bool) : State :=
  if !s.targetsUp || s.power.dormant != .no then s else s.modSpi fun t => t.readResponse whole

/-- STATUS_READ: the status word, clearing OVERRUN (Table 12.3). -/
def State.statusRead (s : State) : State :=
  if !s.targetsUp then s
  else s.modSpi fun t => { t with lastRead := le 4 (s.statusWord s.com.spi .spi), overrun := false, discarded := 0 }

/-- An I2C write transfer delivers a packet at STOP (R438, R439); once I2C_TARGET_OFF is set the address is not acknowledged. -/
def State.i2cPacketWrite (s : State) (p : List Byte) : State :=
  if !s.targetsUp || s.com.i2cOff then s
  else
    let s := if s.power.dormant ≠ .no then s.wakeSource 4 0xFF true 0 [] else s
    if s.cmdSpace s.com.i2c .i2c then s.receive .i2c none true p
    else s.modI2c fun t => { t with overrun := true, discarded := t.discarded + 1 }

/-- An I2C read of the oldest response or of the status word (R438). -/
def State.i2cRead (s : State) (status whole : Bool) : State :=
  if !s.targetsUp || s.com.i2cOff then s
  else
    let s := if s.power.dormant ≠ .no then s.wakeSource 4 0xFF true 0 [] else s
    if status then s.modI2c fun t => { t with lastRead := le 4 (s.statusWord s.com.i2c .i2c), overrun := false, discarded := 0 }
    else if s.power.dormant ≠ .no then s
    else s.modI2c fun t => t.readResponse whole

end Sys2Proof.Machine
end

