-- ==== Sys2Proof/Machine/Memory.lean ====
section
/-!
DEFINITION. Memories, ECC, scrubbing and repair (13_memory.md).
-/
namespace Sys2Proof.Machine

/-! Corrections and uncorrectable codes (R481, R488, R489, R503). -/

/-- A correction (R488, R489): counted, and one more in the bucket, which overflows at BUCKET_LEVEL. -/
def State.correction (s : State) (u inst : Nat) : State :=
  let k := memKey u inst
  let span := s.mem.leakMs * s.mem.level * msQ
  let s := s.modInst k fun m => { m with
    corrected := m.corrected + 1, bucket := m.bucket + 1
    leakAt := if m.bucket = 0 then s.mono else m.leakAt
    recent := s.mono :: m.recent.filter fun t => decide (s.mono < t + span) }
  let m := s.memInst k
  if m.bucket < s.mem.level then s
  else
    let s := (s.setInt 0 4).modInst k fun m => { m with bucket := 0 }
    s.raise (unitIsland u) .eccBucketOverflow u (le 1 inst ++ le 4 m.recent.length)

/-- An uncorrectable code is counted and reported (R503). -/
def State.uncorrectable (s : State) (u inst addr reader : Nat) : State :=
  (s.modInst (memKey u inst) fun m => { m with uncorr := m.uncorr + 1 }).raise (unitIsland u) .memUncorrectable u
    (le 1 inst ++ le 8 addr ++ le 1 reader)

/-- Mark a closed bin INVALID. -/
def invalidBin (b : List Bin) (i : Nat) : List Bin := b.modify i fun x => { x with flags := x.flags ||| 8 }

/-- The effect of an uncorrectable code on what the read served (Table 13.5). -/
def State.uncorrEffect (s : State) (u addr : Nat) (use : MemUse) : State :=
  match u with
  | 0x0100 | 0x0101 =>
    if s.guide.active = some (u % 2) then s.guideTrap (if use = .fetch then 2 else 3)
    else if s.guide.active.isSome then s.standbyTrap (if use = .fetch then 2 else 3) else s
  | 0x0C02 => s.modInst (2 * 0x0C00) fun m => { m with valid := spanPut m.valid (8 * addr) (8 * addr + 8) }
  | _ =>
    match use with
    | .job t => match s.job t with
      | some j =>
        let done := match j.work with | .fill _ _ _ _ _ d => le 8 d | _ => []
        if j.ended.isNone then s.modJob t fun j => { j with finish := some (Status.uncorrectable.code, done) } else s
      | none => s
    | .record pos => match s.log.recAt pos with
      | some r => { s with log := { (s.log.drop [r] s.chamber s.mono) with ring := tdel s.log.ring (pos % 65536) } }
      | none => s
    | .bin g day i =>
      { s with log := { s.log with bins := tmod s.log.bins g fun b =>
          if day then { b with closed24 := invalidBin b.closed24 i } else { b with closed15 := invalidBin b.closed15 i } } }
    | .segment id ch => match tget s.pas id with
      | none => s
      | some p => if !p.decrypts then
        s.withdraw id ch false
      else
      { s with cip := { s.cip with pas := tmod s.cip.pas id fun c => { c with
          segs := c.segs.map fun g => if g.ch = ch then { g with bad := true } else g } } }
    | .codeword => match unitEngine u with
      | some n => s.modRx n fun r => { r with memBad := true }
      | none => s
    | .buffered id ks =>
      let spoil := fun (q : List QBlock) => (List.range q.length).zip q |>.map fun x => if ks.contains x.1 then { x.2 with b := Block.error } else x.2
      s.modPas id fun p => if p.selects && p.legLive && p.onProt then { p with queueP := spoil p.queueP } else { p with queue := spoil p.queue }
    | .ring n => s.haltRing n 3 (s.page n).cmdqHead.toNat
    | _ => s

/-- The data bits of the codes of a memory: bytes, or 64-bit words (R476, R477). -/
def codeWidth (u : Nat) : Nat := if lineCoded u then 64 else 8

/-- The code that a memory holds at an address, all its check bits inverted where a copy left it so (R499). -/
def State.storedCode (s : State) (u inst addr : Nat) : Nat :=
  let m := s.memInst (dataKey u inst)
  let k := codeWidth u
  let w := codeOf k (fld (Memory.readL m.data addr (k / 8)) 0 (k / 8))
  if m.poison.contains addr then inverted k w else w

/-- What a read finds in the code at an address, some of whose bits are in error (R478). -/
def State.codeRead (s : State) (u inst addr : Nat) (flips : List Nat) : MemOut := readCode (codeWidth u) (flipBits (s.storedCode u inst addr) flips)

/-- A read of part of an invalid block returns zeros and is counted and reported (R481). -/
def State.unwrittenRead (s : State) (u inst addr reader : Nat) : State :=
  (s.modInst (memKey u inst) fun m => { m with unwritten := m.unwritten + 1 }).raise (unitIsland u) .unwrittenRead u
    (le 1 inst ++ le 8 addr ++ le 1 reader)

/-- MEMORY_READ: a read of one code of a lit memory, with the bits of it that are in error (R481, R488, R503). -/
def State.memoryRead (s : State) (u inst addr reader : Nat) (flips : List Nat) (use : MemUse) : State :=
  let inst := if u = 0x0C00 then lpChannel addr else inst
  if !(memListed u inst) || (s.dark u).isSome then s
  else if !(spanHas (s.validBlocks u) (addr / memBlock u)) then s.unwrittenRead u inst addr reader
  else
    match s.codeRead u inst addr flips with
    | .clean => s
    | .corrected _ => s.correction u inst
    | .uncorrectable => (s.uncorrectable u inst addr reader).uncorrEffect u addr use

/-- UNCORRECTABLE_REGISTER_READ: a BAR0 read or an SPI REG_READ of a word with an uncorrectable code returns 0xECC0_ECC0 (R504). -/
def State.uncorrectableRead (s : State) (u inst addr : Nat) (spi : Bool) : State :=
  if !(memListed u inst) || (s.dark u).isSome then s
  else
    let s := s.uncorrectable u inst addr 4
    if spi then { s with com := { s.com with spi := { s.com.spi with lastRead := le 4 0xECC0ECC0 } } }
    else { s with com := { s.com with readData := le 4 0xECC0ECC0 } }

/-- ECC_BUCKET_LEAK: every LEAK_MS a bucket above zero loses one (R489). -/
def State.bucketLeak (s : State) : State :=
  s.modMem fun k => { k with insts := tmapv k.insts fun _ m =>
    if m.bucket > 0 ∧ s.since m.leakAt (s.mem.leakMs * msQ) = true then { m with bucket := m.bucket - 1, leakAt := s.mono } else m }

/-! Row repair (R497 to R500). -/

/-- The bank of an offset. -/
def bankKey (u off : Nat) : Nat := u * 1024 + off / 524288

/-- The row of an offset. -/
def rowOf (off : Nat) : Nat := off / 2048 * 2048

/-- Spare rows left in the bank of an offset: four, less those that production test and repairs took. -/
def State.sparesLeft (s : State) (u off : Nat) : Nat :=
  4 - tgetD s.mem.fuseRows (bankKey u off) 0 -
    (s.store.repair.rows.filter fun r => bankKey r.1 r.2.1 == bankKey u off).length

/-- A repair reached the MTP map, or failed to (R499, R500, R591). -/
def State.recordRow (s : State) (u row mode : Nat) (ok : Bool) : State :=
  let s := (s.modLife fun l => { l with wrRepair := l.wrRepair + 1 }).mtpWrite 4 repairBody ok
  if ok then
    ({ s with store := { s.store with repair := { s.store.repair with rows := s.store.repair.rows ++ [(u, row, mode)] } } }).modLife fun l =>
      if mode = 1 then { l with liveRep := l.liveRep + 1 } else { l with deferRep := l.deferRep + 1 }
  else s

/-- A row is repaired: its suspects are settled and MEM_REPAIRED is raised. -/
def State.repaired (s : State) (u row off mode : Nat) : State :=
  (s.modInst (2 * u) fun m => { m with suspects := m.suspects.filter fun a => rowOf a != row }).raise (unitIsland u) .memRepaired u
    (le 4 off ++ le 1 mode ++ le 1 (s.sparesLeft u off))

/-- MEM_REPAIR's answer. -/
def repairReply (st mode spares ch : Nat) : List Byte := le 1 st ++ le 1 0 ++ le 1 mode ++ zeros 1 ++ le 2 spares ++ zeros 2 ++ le 8 ch

/-- The checks of MEM_REPAIR after its range checks. -/
def State.repairChecks (s : State) (u off : Nat) : List Check :=
  [.bad (s.mem.repairing.any fun r => bankKey r.unit r.offset == bankKey u off) .busy 0, .bad (s.sparesLeft u off == 0) .noResource 1,
   .bad (decide (s.store.repair.rows.length ≥ 256)) .noResource 2]

/-- Start a repair: live in a line-coded memory, where the answer comes with the switch; deferred in a byte-coded one. -/
def State.startRepair (s : State) (req : Option Request) (u off : Nat) (ok : Bool) : State × Option (List Byte) :=
  let row := rowOf off
  if lineCoded u then
    (s.modMem fun m => { m with repairing := m.repairing ++ [{ req := req, unit := u, offset := off, since := s.chamber }] }, none)
  else
    let s := s.recordRow u row 2 ok
    if ok then (s.repaired u row off 2, some (repairReply 0 2 (s.sparesLeft u off) 0))
    else (s, some (repairReply Status.hwFault.code 0 0 0))

/-- MEM_REPAIR (R498). `ok` is the outcome of the MTP write of a deferred repair. -/
def State.cmdMemRepair (s : State) (q : Request) (ok : Bool) : State :=
  let u := q.u 0 2
  let off := q.u 4 4
  s.serve 0x0603 q 16 (q.len == 12)
    ([.bad (!(q.rsv 2 2) || !(q.rsv 8 4) || !(onchipUnits.contains u) || u == 0x0C02 || decide (off ≥ memSize u)) .badParam 0, .lit [u],
      onlyT0 q] ++ s.repairChecks u off)
    fun s => s.startRepair (some q) u off ok

/-- The firmware answers a HARD_SUSPECT itself (R494). -/
def State.autoRepair (s : State) (u off : Nat) (ok : Bool) : State :=
  if !s.mem.autoRep || u = 0x0C02 || (s.judge (s.repairChecks u off)).isSome then s else (s.startRepair none u off ok).1

/-- Keep codes uncorrectable on the spare that were so when they were copied: each is a read that is counted and reported (R499). -/
def State.copyBad (s : State) (u inst : Nat) (bad : List Nat) : State :=
  bad.foldl
    (fun (s : State) a =>
      (s.uncorrectable u (if u = 0x0C00 then lpChannel a else inst) a 2).modInst (dataKey u inst) fun m => { m with
        poison := if m.poison.contains a then m.poison else m.poison ++ [a] }) s

/-- MEM_REPAIR_SWITCH: at the boundary after the copy the decoder moves to the spare, and the map is written (R499). -/
def State.repairSwitch (s : State) (bad : List Nat) (ok : Bool) : State :=
  match s.mem.repairing.find? fun r => r.since != s.chamber with
  | none => s
  | some r =>
    let s := s.modMem fun m => { m with repairing := m.repairing.filter fun x => x != r }
    let row := rowOf r.offset
    let s := ((s.copyBad r.unit 0 (bad.filter fun a => rowOf a == row)).recordRow r.unit row 1 ok).repaired r.unit row r.offset 1
    let st := if ok then 0 else Status.hwFault.code
    match r.req with
    | some q => s.respondLate 0x0603 q (repairReply st 1 (s.sparesLeft r.unit r.offset) s.chamber)
    | none => s

/-! Page retirement (R501, R502). -/

/-- Spare pages in use: those that the map or the remap table names, and those being copied to. -/
def State.usedSpares (s : State) : List Nat := s.store.repair.pages.map Prod.snd ++ tvals s.mem.remap ++ s.mem.moving.map fun m => m.spare

/-- The lowest free spare page. -/
def State.freeSpare (s : State) : Option Nat :=
  let used := s.usedSpares
  (List.range 1024).find? fun k => !(used.contains k)

/-- How many spare pages are left. -/
def State.sparePages (s : State) : Nat :=
  let used := s.usedSpares
  (indices 1024 fun k => !(used.contains k)).length

/-- Does a page lie within the spare-page region (Table 13.3)? -/
def inSparePages (a : Nat) : Bool := decide (0x39000000 ≤ a) && decide (a < 0x39400000)

/-- PAGE_RETIRE. -/
def State.cmdPageRetire (s : State) (q : Request) : State :=
  let a := q.u 0 8
  s.serve 0x0604 q 16 (q.len == 12)
    [.bad (!(q.rsv 8 4) || a % 4096 != 0 || decide (a ≥ s.mem.capacity) || inSparePages a) .badParam 0, .lit [0x0C00], onlyT0 q,
     .bad (s.mem.moving.any fun m => m.addr == a) .busy 0, .bad (!s.lpReady) .notReady 0,
     .bad (s.freeSpare.isNone || decide (s.store.repair.pages.length ≥ 1024)) .noResource 0]
    fun s =>
      (s.modMem fun m => { m with moving := m.moving ++ [{ req := q, addr := a, spare := s.freeSpare.getD 0, since := s.chamber }] }, none)

/-- PAGE_RETIRE_SWITCH: at the boundary after the copy the page is remapped and the map is written (R502). An invalid page is not
copied. -/
def State.pageSwitch (s : State) (bad : List Nat) (ok : Bool) : State :=
  match s.mem.moving.find? fun r => r.since != s.chamber with
  | none => s
  | some r =>
    let valid := spanHas (s.memInst (2 * 0x0C00)).valid (r.addr / 4096)
    let s := if valid then s.copyBad 0x0C00 0 (bad.filter fun a => a / 4096 == r.addr / 4096) else s
    let poisoned := ((s.memInst (2 * 0x0C00)).poison.filter fun a => a / 4096 == r.addr / 4096).length
    let s := s.modMem fun m => { m with
      moving := m.moving.filter fun x => x != r, remap := tput m.remap r.addr r.spare
      insts := tmapv m.insts fun k i => if k / 2 = 0x0C00 then { i with suspects := i.suspects.filter fun a => a / 4096 != r.addr / 4096 } else i }
    let s := (s.modLife fun l => { l with wrRepair := l.wrRepair + 1 }).mtpWrite 4 repairBody ok
    let s := if ok then
        ({ s with store := { s.store with repair := { s.store.repair with pages := s.store.repair.pages ++ [(r.addr, r.spare)] } } }).modLife
          fun l => { l with pagesRet := l.pagesRet + 1 }
      else s
    let s := s.raise islMem .pageRetired 0x0C00 (le 8 r.addr ++ le 2 poisoned)
    s.respondLate 0x0604 r.req
      (le 1 (if ok then 0 else Status.hwFault.code) ++ zeros 3 ++ le 2 s.sparePages ++ le 2 poisoned ++ le 8 s.chamber)

/-! Scrubbing (R490 to R494). -/

/-- Drop the oldest record that was seen only once. -/
def dropOnce : List Track → Option (List Track)
  | [] => none
  | t :: ts => if t.count = 1 then some ts else (dropOnce ts).map fun r => t :: r

/-- Note a corrected location in a scrubber's store; the flags say that the store was full and that the location is now a
HARD_SUSPECT (R493). -/
def Walk.note (w : Walk) (cap key addr bit : Nat) : Walk × Bool × Bool :=
  let same := fun (t : Track) => t.key == key && t.addr == addr && t.bit == bit
  match w.tracks.find? same with
  | some t =>
    let n := if t.seen then t.count else t.count + 1
    let suspect := decide (n ≥ 3) && !t.raised
    ({ w with tracks := w.tracks.map fun x => if same x then { x with count := n, seen := true, raised := x.raised || suspect } else x }, false, suspect)
  | none =>
    let new : Track := { key := key, addr := addr, bit := bit }
    if w.tracks.length < cap then ({ w with tracks := w.tracks ++ [new], full := false }, false, false)
    else
      let first := !w.full
      match dropOnce w.tracks with
      | some ts => ({ w with tracks := ts ++ [new], full := true }, first, false)
      | none => ({ w with full := true }, first, false)

/-- The scrubber's walk of a memory. -/
def State.walkOf (s : State) (u : Nat) : Walk := if u = 0x0C00 then s.mem.lp else s.mem.onchip

/-- Change the scrubber's walk of a memory. -/
def State.setWalk (s : State) (u : Nat) (w : Walk) : State :=
  s.modMem fun m => if u = 0x0C00 then { m with lp := w } else { m with onchip := w }

/-- The scrubber corrected a code (R493, R494). -/
def State.scrubFixed (s : State) (u addr bit : Nat) (ok : Bool) : State :=
  let inst := if u = 0x0C00 then lpChannel addr else 0
  let s := s.correction u inst
  let r := (s.walkOf u).note (if u = 0x0C00 then 4096 else 1024) (memKey u inst) addr bit
  let s := s.setWalk u r.1
  let s := if r.2.1 then s.raise islMem .scrubTrackFull 0x0C01 (le 1 (if u = 0x0C00 then 2 else 1)) else s
  if r.2.2 then
    let s := s.modInst (memKey u inst) fun m => { m with hardSusp := m.hardSusp + 1, suspects := m.suspects ++ [addr] }
    let s := s.raise (unitIsland u) .hardSuspect u (le 1 inst ++ le 8 addr ++ le 1 bit)
    if u = 0x0C00 then s else s.autoRepair u addr ok
  else s

/-- The scrubber writes back the code that it corrected (R488, R490): where three or more bits were in error, the code as it was
miscorrected (R478). -/
def State.writeBack (s : State) (u addr : Nat) (flips : List Nat) (bit : Nat) : State :=
  let k := codeWidth u
  let w := flipBits (flipBits (s.storedCode u 0 addr) flips) [bit] % 2 ^ k
  if u = 0x0C02 || fld (Memory.readL (s.memInst (dataKey u 0)).data addr (k / 8)) 0 (k / 8) = w then s
  else s.modInst (dataKey u 0) fun m => { m with data := Memory.writeL m.data addr (le (k / 8) w), poison := m.poison.filter fun a => a != addr }

/-- Scrub one block with what was found in it. -/
def State.scrubBlock (s : State) (u block : Nat) (found : List Finding) (ok : Bool) : State :=
  (found.filter fun f => f.addr / memBlock u == block).foldl
    (fun (s : State) f => match s.codeRead u 0 f.addr f.flips with
      | .clean => s
      | .corrected b => (s.writeBack u f.addr f.flips b).scrubFixed u f.addr b ok
      | .uncorrectable => s.uncorrectable u (if u = 0x0C00 then lpChannel f.addr else 0) f.addr 5)
    s

/-- The next block to scrub of a memory at or after a block: valid, and in no row or page under copy (R490, R492). -/
def State.nextBlock (s : State) (u : Nat) : Nat → Nat → Option Nat
  | 0, _ => none
  | fuel + 1, k =>
    match spanNext (s.validBlocks u) k with
    | none => none
    | some b =>
      let copying := if u = 0x0C00 then s.mem.moving.any fun m => m.addr / 4096 == b
        else s.mem.repairing.any fun r => r.unit == u && rowOf r.offset == rowOf (b * 256)
      if copying then s.nextBlock u fuel (b + 1) else some b

/-- A pass over some memories ends: counters, and records not corrected in it are dropped (R493, Table 13.7). -/
def State.endPass (s : State) (lp : Bool) (units : List Nat) (start : Nat) : State :=
  let keys := if lp then [2 * 0x0C00, 2 * 0x0C00 + 1] else units.map (2 * ·)
  let s := keys.foldl (fun (s : State) k => s.modInst k fun m => { m with
    passes := m.passes + 1, lastEnd := s.chamber, passTime := (s.mono - start) / secQ }) s
  let u := if lp then 0x0C00 else 0
  let w := s.walkOf u
  let kept := (w.tracks.filter fun t => t.seen || !(keys.contains t.key)).map fun t => if keys.contains t.key then { t with seen := false } else t
  s.setWalk u { w with tracks := kept, full := w.full && decide (kept.length ≥ if lp then 4096 else 1024) }

/-- The lit memories of the on-chip scrubber from a unit on. -/
def State.litMems (s : State) (from_ : Nat) : List Nat := onchipUnits.filter fun u => decide (from_ ≤ u) && (s.dark u).isNone

/-- The time that the on-chip scrubber leaves between two blocks, so that a pass over the valid ones takes ONCHIP_PASS_MIN (R490). -/
def State.onchipPace (s : State) : Nat :=
  let blocks := ((s.litMems 0).map fun u => ((s.validBlocks u).map fun e => e.2 - e.1).sum).sum
  s.mem.passMin * 60 * secQ / max 1 blocks

/-- The time that the LPDDR6 scrubber leaves between two blocks at LPDDR6_MIB_PER_MIN (R491). -/
def State.lpPace (s : State) : Nat := 60 * secQ / (256 * max 1 s.mem.mibPerMin)

/-- Does a SCRUB_GATE step of share 0 hold the LPDDR6 scrubber in this chamber (R491)? -/
def State.gateShut (s : State) : Bool := match s.mem.gate with | some g => g.1 == s.chamber && g.2 == 0 | none => false

/-- SCRUB_STEP of the on-chip scrubber: the next valid block, or the end of the pass. -/
def State.scrubOnchip (s : State) (found : List Finding) (ok : Bool) : State :=
  let w := s.mem.onchip
  if !(s.since w.at_ s.onchipPace) then s else
  let next := (s.litMems w.key).findSome? fun u =>
    (s.nextBlock u 1025 (if u = w.key then w.block else 0)).map fun b => (u, b)
  match next with
  | some (u, b) => (s.scrubBlock u b found ok).modMem fun m => { m with onchip := { m.onchip with key := u, block := b + 1, at_ := s.mono } }
  | none =>
    (s.endPass false (s.litMems 0) w.start).modMem fun m => { m with onchip := { m.onchip with key := 0, block := 0, start := s.mono, at_ := s.mono, late := false } }

/-- Seconds that a nominal LPDDR6 pass takes. -/
def State.lpNominal (s : State) : Nat := s.mem.capacity / 2 ^ 20 * 60 / max 1 s.mem.mibPerMin

/-- SCRUB_STEP of the LPDDR6 scrubber (R491). -/
def State.scrubLp (s : State) (found : List Finding) : State :=
  if !s.lpReady then s
  else
    let w := s.mem.lp
    let secs := (s.mono - w.start) / secQ
    let s := if !w.late && decide (secs > 2 * s.lpNominal) then
        (s.modMem fun m => { m with lp := { m.lp with late := true } }).raise islMem .scrubLate 0x0C01 (le 4 secs)
      else s
    if s.gateShut || !(s.since w.at_ s.lpPace) then s
    else match s.nextBlock 0x0C00 1025 w.block with
    | some b => (s.scrubBlock 0x0C00 b found false).modMem fun m => { m with lp := { m.lp with block := b + 1, at_ := s.mono } }
    | none => (s.endPass true [] w.start).modMem fun m => { m with lp := { m.lp with block := 0, start := s.mono, at_ := s.mono, late := false } }

/-- SCRUB_STEP: `lp` names the scrubber, `ok` the outcome of an MTP write that AUTO_REPAIR makes. -/
def State.scrubStep (s : State) (lp : Bool) (found : List Finding) (ok : Bool) : State :=
  if lp then (if s.mem.lpEn then s.scrubLp found else s) else if s.mem.onchipEn then s.scrubOnchip found ok else s

/-- FLAGS as held. -/
def Mem.scrubFlags (m : Mem) : Nat := bit m.onchipEn + 2 * bit m.lpEn + 4 * bit m.autoRep

/-- SCRUB_CONFIG's answer to ACTIONS 1 and 2: bytes 1 to 12 of the configuration in force. -/
def Mem.scrubReply (m : Mem) : List Byte :=
  okay4 ++ le 1 m.scrubFlags ++ le 2 m.passMin ++ le 2 m.mibPerMin ++ le 2 m.leakMs ++ le 2 m.level ++ zeros 3

/-- The units a sweep scrubs. -/
def State.sweepUnits (s : State) (u : Nat) : List Nat :=
  if u = 0xFFFF then (s.litMems 0) ++ (if s.lpReady then [0x0C00] else []) else [u]

/-- SCRUB_CONFIG (R495, R496). -/
def State.cmdScrubConfig (s : State) (q : Request) : State :=
  let act := q.u 0 1
  let f := q.u 1 1
  let u := q.u 10 2
  let inR := fun (x lo hi : Nat) => x == 0 || (decide (lo ≤ x) && decide (x ≤ hi))
  let bad := act < 1 || act > 3 || !(q.rsv 12 4) ||
    (if act = 1 then !(f ≤ 7 || f == 0x80) || !(inR (q.u 2 2) 15 1440) || !(inR (q.u 4 2) 64 16384) || !(inR (q.u 6 2) 10 60000) || u != 0
     else if act = 2 then !(q.rsv 1 11) else (f > 7 && f != 0x80) || !(u == 0xFFFF || memListed u 0))
  let units := s.sweepUnits u
  let busy := s.runningJobs.any fun j => match j.work with | .sweep us _ _ => us.any fun x => units.contains x.1 | _ => false
  s.serve 0x0602 q (if act = 3 then 8 else 16) (q.len == 16)
    [.bad bad .badParam 0, .lit (if act = 3 ∧ u ≠ 0xFFFF then [u] else []), onlyT0 q, .bad (act == 3 && busy) .busy 0,
     .bad (act == 3 && u == 0x0C00 && !s.lpReady) .notReady 0, .bad (act == 3 && s.jobsFull q.tenant) .noResource 0]
    fun s =>
      match act with
      | 1 =>
        let f := if f = 0 then 7 else if f = 0x80 then 0 else f
        let s := s.modMem fun m => { m with
          onchipEn := bitAt f 0, lpEn := bitAt f 1, autoRep := bitAt f 2, passMin := orDefault (q.u 2 2) 240
          mibPerMin := orDefault (q.u 4 2) 1024, leakMs := orDefault (q.u 6 2) 1000, level := orDefault (q.u 8 2) 64 }
        (s, some s.mem.scrubReply)
      | 2 => (s, some s.mem.scrubReply)
      | _ =>
        let r := s.startJob q.tenant 0x0602 (.sweep (units.map fun x => (x, 0)) s.mono units.length)
        (r.1, some (jobStarted r.2))

/-- One step of a sweep: the next block of its first unit; a dark island ends it (R496). -/
def State.sweepStep (s : State) (j : Job) (units : List (Nat × Nat)) (start total : Nat) (io : JobIo) : State :=
  match units with
  | [] => s.finishJob j.token .ok []
  | (u, b) :: rest =>
    if (s.dark u).isSome then s.modJob j.token fun j => { j with finish := some (Status.blockDark.code, []) }
    else if u = 0x0C00 ∧ s.gateShut then s
    else match s.nextBlock u 1025 b with
      | some k => (s.scrubBlock u k io.findings io.ok).modJob j.token fun j => { j with work := .sweep ((u, k + 1) :: rest) start total }
      | none =>
        let s := s.endPass (u == 0x0C00) [u] start
        if rest.isEmpty then s.finishJob j.token .ok []
        else s.modJob j.token fun j => { j with work := .sweep rest start total, progress := (total - rest.length) * 100 / max 1 total }

/-! MEM_FILL (R505 to R507). -/

/-- Does a passage-buffer range meet a BUFFER step of the active bank or of a scheduled image? -/
def State.bufferUsed (s : State) (lo hi : Nat) : Bool :=
  let ws := (s.bank islFab).words ++ s.tab.commits.flatMap fun c => (tgetD (s.imageAt c.cc) islFab {}).words
  ws.any fun w => wAction w == 0x13 && decide (wop w 48 16 * slotChamberBytes < hi) &&
    decide (lo < (wop w 48 16 + wop w 32 16) * slotChamberBytes)

/-- Does an LPDDR6 range meet one that a capture job writes? -/
def State.captureHolds (s : State) (lo hi : Nat) : Bool :=
  s.runningJobs.any fun j => match j.work with
    | .capture _ c => decide (c.dest < hi) && decide (lo < c.dest + (if c.tap = 1 then 4 else 8) * c.count)
    | _ => false

/-- The NOT_IDLE conditions of step 6 of R506. -/
def State.fillBusy (s : State) (u lo hi : Nat) : Bool :=
  match memEngine u with
  | some n => (s.eng n).tx.enabled || (s.captureOf n).isSome
  | none => match u with
    | 0x0201 => s.bufferUsed lo hi
    | 0x0204 => (tvals s.pas).any fun p => p.mode != 0
    | 0x0C00 => s.captureHolds lo hi
    | _ => false

/-- MEM_FILL, with the checks of R506 in their order. -/
def State.cmdMemFill (s : State) (q : Request) : State :=
  let act := q.u 0 1
  let u := q.u 2 2
  let off := q.u 8 8
  let len := q.u 16 8
  let data := q.u 24 8
  let size := if u = 0x0C00 then s.mem.capacity else memSize u
  let unit := if act = 1 then memBlock u else 64
  let bad := act < 1 || act > 3 || !(q.rsv 1 1) || !(q.rsv 4 4) || len == 0 || !(memListed u 0) || (act != 1 && u != 0x0C00) ||
    off % unit != 0 || len % unit != 0 || (act != 1 && data % 64 != 0) || decide (off + len > size)
  let inArea := decide (0x40000000 ≤ off) && decide (off + len ≤ 0x40000000 + 16 * s.captureSize)
  let rights := q.tenant != 0 || u == 0x0202 || u == 0x0100 || u == 0x0101 || u == 0x0106 || u == 0x0C02 || u == 0x0001 || (u == 0x0C00 && !inArea)
  s.serve 0x0601 q 8 (q.len == 32)
    [.bad bad .badParam 0, .lit [u], .bad rights .notPermitted 0,
     .bad ((u == 0x0C00 && !s.lpReady) || (act != 1 && !s.pcieUp)) .notReady 0, .bad (s.fillBusy u off (off + len)) .notIdle 0,
     .bad (s.jobsFull q.tenant) .noResource 0]
    fun s =>
      let r := s.startJob q.tenant 0x0601 (.fill act u off len data 0)
      (r.1, some (jobStarted r.2))

/-- Bytes that one step of a fill or copy moves. -/
def fillChunk : Nat := 4096

/-- One step of a fill or copy. -/
def State.fillStep (s : State) (j : Job) (act u addr len data done : Nat) (io : JobIo) : State :=
  let n := min fillChunk (len - done)
  let at_ := addr + done
  if (s.dark u).isSome then s.modJob j.token fun j => { j with finish := some (Status.blockDark.code, le 8 done) }
  else if io.readBad.isSome then s.modJob j.token fun j => { j with finish := some (Status.uncorrectable.code, le 8 done) }
  else
    let s := match act with
      | 1 => s.memWrite u 0 at_ ((List.range (n / 8)).flatMap fun _ => le 8 data)
      | 2 =>
        let met := (List.range (ceilDiv (at_ % 4096 + n) 4096)).map fun k => at_ / 4096 + k
        let s := (met.filter fun b => !(spanHas (s.validBlocks u) b)).foldl
          (fun (s : State) b => s.unwrittenRead u (lpChannel (b * 4096)) (max at_ (b * 4096)) 3) s
        { s with jobs := { s.jobs with dmaOut := some (data + done, Memory.readL (s.memInst (dataKey u 0)).data at_ n) } }
      | _ => s.memWrite u 0 at_ (padTo n io.bytes)
    if done + n ≥ len then s.finishJob j.token .ok (le 8 len)
    else s.modJob j.token fun j => { j with work := .fill act u addr len data (done + n), progress := (done + n) * 100 / len }

/-! ECC_STATUS (R509). -/

/-- Spare rows left in a whole memory. -/
def State.sparesIn (s : State) (u : Nat) : Nat :=
  ((List.range (ceilDiv (memSize u) 524288)).map fun b => s.sparesLeft u (b * 524288)).foldl (· + ·) 0

/-- The ECC_STATUS response (Table 13.7). -/
def State.eccReply (s : State) (u inst : Nat) : List Byte :=
  let m := s.memInst (memKey u inst)
  let lp := u == 0x0C00
  le 1 0 ++ le 1 (if lp then 3 else if lineCoded u then 2 else 1) ++ le 2 m.bucket ++ le 2 (if lp then s.sparePages else s.sparesIn u) ++
    le 2 (if lp then s.store.repair.pages.length else (s.store.repair.rows.filter fun r => r.1 == u).length) ++ le 8 m.corrected.toNat ++
    le 8 m.uncorr.toNat ++ le 8 m.unwritten.toNat ++ le 8 m.passes.toNat ++ le 8 m.lastEnd ++ le 2 (satN 2 m.suspects.length) ++ zeros 2 ++
    le 4 m.passTime

/-- ECC_STATUS. -/
def State.cmdEccStatus (s : State) (q : Request) : State :=
  let u := q.u 0 2
  let i := q.u 2 2
  s.serve 0x0605 q 56 (q.len == 4) [.bad (!(memListed u i)) .badParam 0, .lit [u], s.anyTenant q] fun s => (s, some (s.eccReply u i))

end Sys2Proof.Machine
end

