-- ==== Sys2Proof/Machine/Groups.lean ====
section
/-!
DEFINITION. Counter groups: which there are, what each holds in its chapter's order, and which tenants read it (R467, R469).
-/
namespace Sys2Proof.Machine

/-- One counter or gauge of a group; a gauge is sign-extended, `valid` says whether it has a value, and `void` is its not-valid value
(R277, R467). -/
structure GCell where
  gauge : Bool := false
  val   : Ctr
  valid : Bool := true
  void  : Ctr := Config.voidGauge
  deriving DecidableEq, Repr

/-- A gauge with a value. -/
def gaugeOf (x : Int) : GCell := { gauge := true, val := BitVec.ofInt 64 x }

/-- A gauge of `bits` that may have no value: then it reads its not-valid value. -/
def gaugeOr (bits : Nat) (x : Option Int) : GCell :=
  let void := BitVec.ofInt 64 (-(2 ^ (bits - 1) : Nat))
  match x with
  | some x => { gaugeOf x with void := void }
  | none => { gauge := true, val := void, valid := false, void := void }

/-- Counters `k` to `k + n - 1` of a unit and instance. -/
def State.cells (s : State) (unit inst k n : Nat) : List GCell := (List.range n).map fun i => { val := s.ctr unit inst (k + i) }

/-- The receive group of an engine (Tables 7.9, 8.9). -/
def State.rxGroup (s : State) (n : Nat) : List GCell :=
  let e := s.eng n
  let snr := match e.rx.window with | some w => w.2 | none => []
  let est := fun (g : Nat × Nat) => gaugeOr g.2 (tget e.rx.est g.1)
  s.cells (engUnit n 1) 0 0 8 ++ ([(0, 32), (1, 16), (2, 16), (3, 32)].map est) ++
    [gaugeOr 16 ((e.rx.osnr e.cfg).map fun x => ((x : Nat) : Int))] ++ ([(5, 32), (6, 32)].map est) ++
    ((List.range 16).map fun k => gaugeOr 16 (if k < e.cfg.carriers then snr[k]? else none)) ++
    (if e.mp.role = 1 then s.cells (engUnit n 1) 0 40 8 else [])

/-- CAL_AGE_S of four converters from `c` (Table 9.8). -/
def State.calAges (s : State) (n c : Nat) : List GCell :=
  (List.range 4).map fun k => gaugeOf (((s.mono - (s.conv n (c + k)).lastAt) / secQ : Nat) : Int)

/-- A group of an engine, by the index of its unit (R236, R285, R347). -/
def State.engGroup (s : State) (n x : Nat) : Option (List GCell) :=
  let u := engUnit n x
  let e := s.eng n
  match x with
  | 0 => some (s.cells u 0 0 5)
  | 1 => some (s.rxGroup n)
  | 2 => some (s.cells u 0 0 19 ++ [gaugeOf e.rx.ber])
  | 3 => some (s.cells u 0 0 8)
  | 4 => some (s.cells u 0 0 20 ++ s.calAges n 4)
  | 5 => some (s.cells u 0 0 12 ++ [gaugeOf e.rx.duty, gaugeOf e.rx.rms] ++ s.cells u 0 12 20 ++ s.calAges n 0)
  | 7 => some (s.cells u 0 0 1 ++ [gaugeOf e.rx.losMv])
  | _ => none

/-- The group of a memory instance (R510). -/
def State.memGroup (s : State) (u i : Nat) : List GCell :=
  let m := s.memInst (memKey u i)
  ([m.corrected, m.uncorr, m.unwritten, m.partials, m.passes, m.hardSusp].map fun c => { val := c }) ++ [gaugeOf m.bucket]

/-- The counters of the log (R538). -/
def State.logGroup (s : State) : List GCell :=
  let l := s.log
  ([l.written, l.coalesced, l.spilled, l.masked, l.overflows] ++ (List.range 32).map fun c => tgetD l.drops c 0).map fun c => { val := c }

/-- The device group of the cipher (Table 10.6, R387). -/
def State.cipherGroup (s : State) : List GCell :=
  ((List.range 34).map fun k => { val := (s.pair k).mism }) ++ ((List.range 34).map fun k => gaugeOf (s.pair k).st) ++
    ((List.range 32).map fun l => gaugeOf (((s.lane l).pair.getD 0xFF : Nat) : Int)) ++ [{ val := s.cip.unwrapFailures }]

/-- The group of a FlexE group (Table 4.9): EGRESS_IDLE_DELETED of its clients in handle order (R160). -/
def State.flexeCells (s : State) (g : FlexGroup) (k : Nat) : List GCell :=
  let handles := sortBy (fun a b => decide (a ≤ b)) (g.clients.map fun c => c.handle)
  s.cells 0x0B81 k 0 3 ++ handles.map fun h => { val := s.ctr 0x0B81 (256 + h) 0 }

/-- INSTANCE 0xFFFF names the one group of a unit without instances; host lanes have a port group 0 and a lane group 1. -/
def State.normInst (s : State) (u i : Nat) : Nat :=
  if i = 0xFFFF ∧ u ≠ unitKeyStore then (if unitIsland u = 11 ∧ unitIndex u < 0x80 ∧ !(s.portAt (unitIndex u)) then 1 else 0) else i

/-- The cells of a group, none where there is none: `i` is an instance as `normInst` answers it. Groups of units that are dark or
absent are named too: what an access to them does is the dark units' matter (R11 to R15). -/
def State.group (s : State) (u i : Nat) : Option (List GCell) :=
  let isl := unitIsland u
  let x := unitIndex u
  if u = unitKeyStore then
    if i = 0xFFFF then some s.cipherGroup
    else match tget s.pas i with
      | some p => if p.mode = 0 then none else some (s.cells u i 0 5)
      | none => none
  else if u = 0x0106 then (if i = 0 then some (s.logGroup ++ s.memGroup u 0) else none)
  else if memListed u i then some (s.memGroup u i)
  else if 3 ≤ isl ∧ isl ≤ 10 then (if i = 0 then s.engGroup (isl - 3) x else none)
  else if isl = 11 ∧ x < 0x80 then
    if i = 0 then (if s.portAt x || (s.absent u).isSome then some (s.cells u 0 0 25) else none)
    else if i = 1 then some (s.cells u 1 0 2 ++ [gaugeOf (((Config.laneSnr s.mono x).toNat : Nat) : Int)])
    else none
  else if u = 0x0B81 then (s.flexGroup i).map fun g => s.flexeCells g i
  else if isl = 14 ∧ x ≤ 3 then
    if i = 0 then some (s.cells u 0 0 13 ++ [gaugeOf (((s.ulPort x).lanes.foldl (fun m l => max m l.skew) 0 : Nat) : Int)]) else none
  else if u = 0x0D0A then
    let t := s.tim
    if i = 0 then some ([t.msgTx, t.msgRx, t.authFails, t.replays, t.exchanges, t.slips].map fun c => { val := c }) else none
  else if u = 0x0002 ∨ u = 0x0003 then (if i = 0 then some (s.cells u 0 0 5) else none)
  else none

/-- May a tenant read a group? T0 reads every one; the holder of a port or client, the manager of an engine, the owner of an encrypted
passage and any tenant for the housekeeping ADC read theirs. -/
def State.mayRead (s : State) (t u i : Nat) : Bool :=
  let p := s.policy t
  let isl := unitIsland u
  let x := unitIndex u
  if t = 0 then true
  else p.enabled &&
    (if u = unitKeyStore then (match tget s.pas i with | some y => y.owner == t && i != 0xFFFF | none => false)
     else if (memListed u i) then false
     else if 3 ≤ isl ∧ isl ≤ 10 then s.manages t (isl - 3)
     else if isl = 11 ∧ x < 0x80 then
       (match (if i = 0 then some x else (s.portOf x).map Prod.fst) with
        | some first => s.mayUse t { kind := 1, index := first }
        | none => bitAt p.hostLanes x)
     else if u = 0x0B81 then bitAt p.flexeGroups i
     else if isl = 14 then bitAt p.umranUse x
     else u == 0x0002 || u == 0x0003)

/-- The groups there are: unit and instance. Groups of absent units are left out. -/
def State.groups (s : State) : List (Nat × Nat) :=
  let mems := (onchipUnits.map fun u => (u, 0)) ++ [(0x0C00, 0), (0x0C00, 1)]
  let engs := (List.range 8).flatMap fun n => [0, 1, 2, 3, 4, 5, 7].map fun x => (engUnit n x, 0)
  let ports := (tkeys s.host.ports).map fun l => (0x0B00 + l, 0)
  let lanes := (List.range s.hostLanes).map fun l => (0x0B00 + l, 1)
  let flexe := (tkeys s.host.groups).map fun g => (0x0B81, g)
  let cip := (unitKeyStore, 0xFFFF) :: (s.pas.filter fun e => e.2.mode != 0).map fun e => (unitKeyStore, e.1)
  ([(0x0002, 0), (0x0003, 0), (0x0D0A, 0)] ++ mems ++ cip ++ engs ++ ports ++ lanes ++ flexe ++ (List.range 4).map fun p => (0x0E00 + p, 0)).filter
    fun g => (s.absent g.1).isNone

end Sys2Proof.Machine
end

