-- ==== Sys2Proof/Machine/LogCmds.lean ====
section
/-!
DEFINITION. The event log's commands and rows, and the calendar (14_events.md).
-/
namespace Sys2Proof.Machine

/-- The order of events (R44, R45): by timestamp, then by island, then by ring position. -/
def EvRec.before (a b : EvRec) (posA posB : Nat) : Bool :=
  if a.time ≠ b.time then decide (a.time < b.time)
  else if a.island ≠ b.island then decide (a.island < b.island)
  else decide (posA < posB)

/-- The 32 bytes of an event record (Table 14.1). -/
def EvRec.bytes (r : EvRec) : List Byte :=
  timeBytes r.time ++ le 1 r.island ++ le 1 (r.severity + 128 * bit r.cont) ++ le 2 r.code ++ le 2 r.source ++ le 2 r.reps ++
    padTo 14 r.payload

/-- EVENT_RECORD_WRITE: an occurrence crosses to the event ring (R518). -/
def State.eventWrite (s : State) (e : Ev) (island source : Nat) (payload : List Byte) : State := s.raise island e source payload

/-- LOG_OVERFLOW: pending drops are reported once the ring has two free entries, or under KEEP_NEWEST one second after the first
pending drop (R522). -/
def State.logOverflow (s : State) : State :=
  let l := s.log
  if l.dropCount > 0 ∧ (l.unread + 2 ≤ 65536 ∨ (l.keepNewest ∧ s.since l.dropSince secQ)) then
    let body := le 6 l.dropFirst ++ le 6 l.dropLast ++ le 4 (satN 4 l.dropCount) ++ le 4 l.dropMask
    let s := { s with log := { l with dropCount := 0, dropMask := 0, overflows := l.overflows + 1 } }
    s.raise islCtrl .logOverflow 0xFFFF body
  else s

/-- A host write of EVT_RD (R520): discarded when it lies behind EVT_RD or beyond EVT_WR, modulo 2^32. -/
def State.evtRdWrite (s : State) (v : Reg) : State :=
  let ahead := (v.toNat + 2 ^ 32 - s.log.evtRd) % 2 ^ 32
  if ahead ≤ s.log.unread then { s with log := { s.log with evtRd := v.toNat } } else s

/-- EVENT_MASK's answer to ACTIONS 1 and 2 (R524). -/
def State.maskReply (s : State) : List Byte :=
  let l := s.log
  le 1 0 ++ le 1 0 ++ le 1 (bit l.keepNewest + 2 * bit l.spillEn) ++ zeros 1 ++ le 8 l.floor ++ le 4 l.spillWr ++ le 4 l.spillRd ++
    le 4 (satN 4 l.dropCount) ++ zeros 4

/-- Read `n` records of the spill, the oldest first (R524); the spill then has room again (R521). -/
def State.readSpill (s : State) (count : Nat) : State × List Byte :=
  let rs := s.log.spill.take count
  let l := { s.log with
    spill := s.log.spill.drop count, spillRd := (s.log.spillRd + rs.length) % 2 ^ 32
    spillFull := s.log.spillFull && rs.isEmpty }
  ({ s with log := l },
   le 1 0 ++ le 1 0 ++ le 1 rs.length ++ zeros 1 ++ le 4 l.spillWr ++ le 4 l.spillRd ++ zeros 4 ++ rs.flatMap EvRec.bytes)

/-- EVENT_MASK (R524). -/
def State.cmdEventMask (s : State) (q : Request) : State :=
  let act := q.u 0 1
  let flags := q.u 1 1
  let count := q.u 2 1
  let badSet := act == 1 && (flags > 3 || count != 0)
  let badRead := act == 2 && (flags != 0 || count != 0 || !(q.rsv 8 8))
  let badSpill := act == 3 && (flags != 0 || count < 1 || count > 127 || !(q.rsv 8 8))
  s.serve 0x0701 q (if act = 3 then 16 else 28) (q.len == 16)
    [.bad (act < 1 || act > 3 || !(q.rsv 3 5) || badSet || badRead || badSpill) .badParam 0, onlyT0 q,
     .bad (act == 3 && (!s.log.spillEn || !s.lpReady)) .notReady 0]
    fun s =>
      if act = 1 then
        let s := { s with log := { s.log with keepNewest := bitAt flags 0, spillEn := bitAt flags 1, floor := q.u 8 8 } }
        (s, some s.maskReply)
      else if act = 2 then (s, some s.maskReply)
      else
        let (s, r) := s.readSpill count
        (s, some r)

/-! Calendar (R535 to R537). -/

/-- OFFSET(t): TAI - UTC at a TAI second (R537). -/
def Calendar.offset (c : Calendar) (t : Nat) : Int :=
  c.entries.foldl (fun o e => if e.1 ≤ t then e.2 else o) 0

/-- L of R527 at a TAI second. -/
def Calendar.local (c : Calendar) (t : Nat) : Int := (t : Int) - c.offset t + 60 * c.dayOffset

/-- The LEAP_TABLE_SET answer (R535). -/
def Calendar.reply (c : Calendar) : List Byte :=
  le 1 0 ++ le 1 0 ++ le 1 c.entries.length ++ zeros 1 ++ leS 2 c.dayOffset ++ zeros 2 ++ le 8 c.expiry ++
    c.entries.flatMap fun e => le 6 e.1 ++ leS 2 e.2

/-- The calendar a LEAP_TABLE_SET payload gives. -/
def calendarOf (q : Request) : Calendar :=
  { entries := (List.range (q.u 1 1)).map fun k => (q.u (16 + 8 * k) 6, q.i (22 + 8 * k) 2)
    dayOffset := q.i 2 2
    expiry := q.u 8 6
    isSet := true }

/-- What R536 refuses: entries not strictly ascending, offsets that differ by anything other than one, a bad local offset. -/
def Calendar.bad (c : Calendar) : Bool :=
  (c.entries.zip (c.entries.drop 1)).any (fun p =>
    decide (p.2.1 ≤ p.1.1) || !(p.2.2 - p.1.2 == 1 || p.2.2 - p.1.2 == -1)) ||
  decide (c.dayOffset < -720) || decide (c.dayOffset > 840) || c.dayOffset % 15 != 0

/-- Close every open bin at a step of time or of the calendar (R529, R536). The bins chapter gives the closing. -/
def State.leapTableSet (s : State) (q : Request) (mtpOk : Bool) (closeBins : Nat → State → State) : State :=
  let act := q.u 0 1
  let c := calendarOf q
  let n := q.u 1 1
  let badRead := act == 2 && (n != 0 || !(q.rsv 2 14))
  let badSet := act == 1 && (n > 64 || !(q.rsv 4 4) || !(q.rsv 14 2) || c.bad)
  s.serve 0x0705 q (16 + 8 * n) (q.len == 16 + 8 * n)
    [.bad (!(act == 1 || act == 2) || badRead || badSet) .badParam 0, onlyT0 q]
    fun s =>
      if act = 2 then (s, some s.log.calendar.reply)
      else
        let s := (s.modLife fun l => { l with wrCal := l.wrCal + 1 }).mtpWrite 3 (15 + 8 * n) mtpOk
        if !mtpOk then (s, some (refusal (16 + 8 * n) { st := .hwFault }))
        else
          let s := closeBins s.now { s with log := { s.log with calendar := c, stale := false } }
          (s, some c.reply)

/-- LEAP_TABLE_STALE: SECONDS first exceeds EXPIRY (R537). -/
def State.leapStale (s : State) : State :=
  if !s.log.stale ∧ s.log.calendar.isSet ∧ s.sec > s.log.calendar.expiry then
    { s with log := { s.log with stale := true } }.raise islCtrl .leapTableStale 0xFFFF (le 6 s.log.calendar.expiry)
  else s

end Sys2Proof.Machine
end

