-- ==== Sys2Proof/Machine/Bins.lean ====
section
/-!
DEFINITION. Snapshots and performance-monitoring bins (R469, R470, R526 to R530).
-/
namespace Sys2Proof.Machine

/-! Bins. -/

/-- The key of a group's bins. -/
def binKey (g : Nat × Nat) : Nat := g.1 * 65536 + g.2

/-- The cells of the group of a key; a group that no longer exists has none. -/
def State.keyCells (s : State) (k : Nat) : List GCell := (s.group (k / 65536) (k % 65536)).getD []

/-- The values of cells. -/
def baseOf (cells : List GCell) : List Ctr := cells.map fun c => c.val

/-- Change the log. -/
def State.modLog (s : State) (f : Log → Log) : State := { s with log := f s.log }

/-- Bins open for every group when LPDDR6 has become ready (R526). -/
def State.startBins (s : State) : State :=
  let ch := s.chamber
  let bins := s.groups.foldl
    (fun (t : Tab BinSet) g =>
      let b : Bin := { openCh := ch, base := baseOf (s.keyCells (binKey g)) }
      tput t (binKey g) { open15 := b, open24 := b }) []
  s.modLog fun l => { l with bins := bins, binsOn := true, binCh15 := ch, binCh24 := ch, binsSecond := s.sec }

/-- Groups that came into existence get bins with PARTIAL set; the bins of groups that are gone are dropped. -/
def State.syncBins (s : State) : State :=
  let gs := s.groups.map binKey
  let kept := s.log.bins.filter fun e => gs.contains e.1
  let new (ch : Nat) : Bin := { flags := 2, openCh := ch }
  let bins := gs.foldl
    (fun (t : Tab BinSet) k => if thas t k then t else tput t k { open15 := new s.log.binCh15, open24 := new s.log.binCh24 }) kept
  s.modLog fun l => { l with bins := bins }

/-- The stored entries of a bin (R528): differences of counters, and minimum, maximum and mean of gauges. -/
def binEntries (b : Bin) (cells : List GCell) : List Ctr :=
  ((List.range cells.length).zip cells).flatMap fun e =>
    if e.2.gauge then
      match tget b.gauges e.1 with
      | some (lo, hi, sum, n) => [BitVec.ofInt 64 lo, BitVec.ofInt 64 hi, BitVec.ofInt 64 (sum.tdiv (n : Int))]
      | none => List.replicate 3 e.2.void
    else [e.2.val - ((b.base[e.1]?).getD 0)]

/-- Close one open bin. -/
def closeBin (b : Bin) (cells : List GCell) (flags ch : Nat) : Bin :=
  { b with flags := b.flags ||| flags, closeCh := ch, entries := binEntries b cells, base := [], gauges := [] }

/-- Close every open bin of a kind (1: 15 minutes, 2: 24 hours), with more flags; the next ones open at chamber `next`. PM_BIN_CLOSED
is raised once. -/
def State.closeKind (s : State) (kind flags next : Nat) : State :=
  let ch := s.chamber
  let common := s.log.bins.foldl
    (fun a e => a &&& ((if kind = 1 then e.2.open15 else e.2.open24).flags ||| flags)) (if s.log.bins.isEmpty then flags else 0xFF)
  let bins := tmapv s.log.bins fun k b =>
    let cells := s.keyCells k
    let fresh : Bin := { openCh := next, base := baseOf cells }
    if kind = 1 then { b with open15 := fresh, closed15 := (closeBin b.open15 cells flags ch :: b.closed15).take 32 }
    else { b with open24 := fresh, closed24 := (closeBin b.open24 cells flags ch :: b.closed24).take 7 }
  let s := s.modLog fun l => { l with
    bins := bins, binCh15 := if kind = 1 then next else l.binCh15, binCh24 := if kind = 1 then l.binCh24 else next }
  s.raise islCtrl .pmBinClosed 0xFFFF (le 1 kind ++ le 1 common ++ le 2 (satN 2 bins.length))

/-- A step of domain time to `to`, or a new calendar, closes every open bin with STEPPED set (R529, R536). -/
def State.closeBins (dest : Nat) (s : State) : State :=
  if !s.log.binsOn then s
  else
    let next := chamberOf s.epoch dest
    let s := ((s.syncBins).closeKind 1 4 next).closeKind 2 4 next
    s.modLog fun l => { l with binsSecond := dest / secQ }

/-- Set LEAP in the open bins. -/
def State.markLeap (s : State) : State :=
  let mark (b : Bin) : Bin := { b with flags := b.flags ||| 16 }
  s.modLog fun l => { l with bins := tmapv l.bins fun _ b => { b with open15 := mark b.open15, open24 := mark b.open24 } }

/-- PM_BIN_CLOSE (R527): at a new second the open bins whose boundary it is close. -/
def State.binClose (s : State) : State :=
  if !s.lpReady then s
  else if !s.log.binsOn then s.startBins
  else if s.sec = s.log.binsSecond then s
  else
    let c := s.log.calendar
    let l1 := c.local s.sec
    let l0 := c.local s.log.binsSecond
    let leap := c.offset s.sec - c.offset s.log.binsSecond
    let s := (s.syncBins).modLog fun l => { l with binsSecond := s.sec }
    let s := if leap = -1 then s.markLeap else s
    let s := if l1 / 900 > l0 / 900 then s.closeKind 1 0 s.chamber else s
    let s := if l1 / 86400 > l0 / 86400 then s.closeKind 2 0 s.chamber else s
    if leap = 1 then s.markLeap else s

/-- One sample of a gauge. -/
def sampleGauge (t : Tab (Int × Int × Int × Nat)) (k : Nat) (x : Int) : Tab (Int × Int × Int × Nat) :=
  match tget t k with
  | some (lo, hi, sum, n) => tput t k (min lo x, max hi x, sum + x, n + 1)
  | none => tput t k (x, x, x, 1)

/-- A whole second passes for a bin: its gauges are sampled and the second counts (R528). -/
def sampleBin (cells : List GCell) (b : Bin) : Bin :=
  { b with
    seconds := b.seconds + 1
    gauges := ((List.range cells.length).zip cells).foldl (fun t e => if e.2.gauge && e.2.valid then sampleGauge t e.1 e.2.val.toInt else t)
      b.gauges }

/-- PM_GAUGE_SAMPLE (R528): at each whole second, after the bins whose boundary it is have closed. -/
def State.gaugeSample (s : State) : State :=
  let s := s.binClose
  if !s.log.binsOn || !s.lpReady || s.sec == s.log.gaugeSecond then s
  else
    let s := s.syncBins
    s.modLog fun l => { l with
      gaugeSecond := s.sec
      bins := tmapv l.bins fun k b =>
        if (s.dark (k / 65536)).isSome then b
        else
          let cells := s.keyCells k
          { b with open15 := sampleBin cells b.open15, open24 := sampleBin cells b.open24 } }

/-! PM_BIN_READ (R530). -/

/-- The PM_BIN_READ response (Table 14.6); the entries of an INVALID bin read zero (R529). -/
def binReply (b : Bin) (kind : Nat) : List Byte :=
  le 1 0 ++ le 1 0 ++ le 1 b.flags ++ le 1 kind ++ le 2 b.entries.length ++ zeros 2 ++ le 8 b.openCh ++ le 8 b.closeCh ++ le 4 b.seconds ++
    zeros 4 ++ b.entries.flatMap fun x => le 8 (if bitAt b.flags 3 then 0 else x.toNat)

/-- The closed bins of a kind. -/
def BinSet.closed (b : BinSet) (kind : Nat) : List Bin := if kind = 1 then b.closed15 else b.closed24

/-- The open bin of a kind. -/
def BinSet.opened (b : BinSet) (kind : Nat) : Bin := if kind = 1 then b.open15 else b.open24

/-- Put off a freeze to the next chamber boundary. -/
def State.freezeLater (s : State) (q : Request) (u i slot : Nat) (bin : Option Nat) : State :=
  { s with com := { s.com with snapPending := s.com.snapPending ++
      [{ req := q, unit := u, inst := i, slot := slot, bin := bin, chamber := s.chamber }] } }

/-- PM_BIN_READ. -/
def State.cmdPmBinRead (s : State) (q : Request) : State :=
  let u := q.u 0 2
  let i := s.normInst u (q.u 2 2)
  let kind := q.u 4 1
  let k := q.u 5 1
  let set := tget s.log.bins (binKey (u, i))
  let bin := match set with | some b => (b.closed kind)[k - 1]? | none => none
  s.serve 0x0702 q 32 (q.len == 8)
    [.bad (kind < 1 || kind > 2 || k > (if kind = 1 then 32 else 7) || !(q.rsv 6 2) || (s.group u i).isNone) .badParam 0,
     .lit (if k = 0 then [u] else []), .bad (s.disabled q || !(s.mayRead q.tenant u i)) .notPermitted 0,
     .bad (!s.lpReady || (k != 0 && bin.isNone)) .notReady 0]
    fun s =>
      if k = 0 then (s.freezeLater q u i 0 (some kind), none)
      else match bin with
        | some b => (s, some (binReply b kind))
        | none => (s, none)

/-! COUNTER_SNAPSHOT (R469, R470). -/

/-- COUNTER_SNAPSHOT: the group is frozen at the first chamber boundary after receipt. -/
def State.cmdCounterSnapshot (s : State) (q : Request) : State :=
  let u := q.u 0 2
  let i := s.normInst u (q.u 2 2)
  let slot := q.u 4 1
  s.serve 0x0703 q 16 (q.len == 8)
    [.bad (slot > 15 || !(q.rsv 5 3) || (s.group u i).isNone) .badParam 0, .lit [u],
     .bad (s.disabled q || !(s.mayRead q.tenant u i)) .notPermitted 0]
    fun s => (s.freezeLater q u i slot none, none)

/-- Freeze one group into its slot, or the open bin, and answer. -/
def State.freezeOne (s : State) (p : SnapPending) : State :=
  match p.bin with
  | some kind =>
    let s := s.syncBins
    let cells := s.keyCells (binKey (p.unit, p.inst))
    let set := tgetD s.log.bins (binKey (p.unit, p.inst)) {}
    s.respondLate 0x0702 p.req (binReply (closeBin (set.opened kind) cells 1 s.chamber) kind)
  | none =>
    let key := 16 * p.req.tenant + p.slot
    let old := tgetD s.com.snapshots key {}
    let values := baseOf ((s.group p.unit p.inst).getD [])
    let seq := (old.seq + 2) % 2 ^ 32
    let snap : Snapshot := { unit := p.unit, inst := p.req.u 2 2, seq := seq, chamber := s.chamber, values := values }
    let s := { s with com := { s.com with snapshots := tput s.com.snapshots key snap } }
    s.respondLate 0x0703 p.req (okay4.take 2 ++ le 2 values.length ++ le 4 seq ++ le 8 s.chamber)

/-- SNAPSHOT_FREEZE: the requests received before this chamber are served. -/
def State.snapshotFreeze (s : State) : State :=
  let due := s.com.snapPending.filter fun p => p.chamber != s.chamber
  due.foldl State.freezeOne { s with com := { s.com with snapPending := s.com.snapPending.filter fun p => p.chamber == s.chamber } }

end Sys2Proof.Machine
end

