-- ==== Sys2Proof/Machine/Bar0.lean ====
section
/-!
DEFINITION. BAR0 (R463 to R470): reads and writes of registers over PCIe and over the SPI target, the event log window, the counter
views, and dark units (R11 to R14).
-/
namespace Sys2Proof.Machine

/-- Where a BAR0 offset falls (Table 12.11). -/
inductive Bar0Part where
  | global (off : Nat)
  | page (n off : Nat)
  | record (i off : Nat)
  | live (t off : Nat)
  | slot (t k off : Nat)
  | reserved
  deriving DecidableEq, Repr

/-- The part of BAR0 at an offset. -/
def bar0Part (a : Nat) : Bar0Part :=
  if a < 0x10000 then .global a
  else if a < 0x110000 then .page (a / 0x10000 - 1) (a % 0x10000)
  else if a < 0x200000 then .reserved
  else if a < 0x400000 then .record ((a - 0x200000) / 32) (a % 32)
  else if a < 0x800000 then
    let t := (a - 0x400000) / 0x40000
    let o := a % 0x40000
    if o < 0x1000 then .live t o
    else if o < 0x10000 ∨ 0x20000 ≤ o then .reserved
    else .slot t ((o - 0x10000) / 0x1000) (o % 0x1000)
  else .reserved

/-- The word at a byte offset of a structure. -/
def wordOf (bytes : List Byte) (off : Nat) : Reg := reg (fld bytes off 4)

/-- The bytes of a snapshot slot (Table 12.14). -/
def Snapshot.bytes (x : Snapshot) : List Byte :=
  le 2 x.unit ++ le 2 x.inst ++ le 2 x.values.length ++ zeros 2 ++ le 4 x.seq ++ zeros 4 ++ le 8 x.chamber ++ zeros 8 ++
    x.values.flatMap fun v => le 8 v.toNat

/-- The unit and instance that a view's CTR_SELECT names. -/
def State.selected (s : State) (t : Nat) : Nat × Nat :=
  let w := (s.page t).ctrSelect.toNat
  (w / 65536, s.normInst (w / 65536) (w % 65536))

/-- Is the group of a live window one that its tenant reads? -/
def State.liveGroup (s : State) (t : Nat) : Option (List GCell) :=
  let g := s.selected t
  if s.mayRead t g.1 g.2 then s.group g.1 g.2 else none

/-- The word that a read of a dark unit returns (R11). -/
def darkWord : Reg := 0xDA4CDA4C

/-- A read in a live window (R467, R468): a low word latches its high word into the view's CTR_SHADOW_HI. -/
def State.liveRead (s : State) (t off a : Nat) : State × Reg :=
  match s.liveGroup t with
  | none => (s, 0)
  | some cells =>
    let u := (s.selected t).1
    match s.dark u with
    | some why => (s.darkAccess u why 1 a t, darkWord)
    | none => match cells[off / 8]? with
      | none => (s, 0)
      | some c =>
        if off % 8 = 0 then (s.modPage t fun p => { p with shadowHi := (c.val >>> 32).setWidth 32 }, c.val.setWidth 32)
        else (s, (s.page t).shadowHi)

/-- A read of the word at an offset `a` that lies in a part of BAR0. -/
def State.partRead (s : State) (p : Bar0Part) (a : Nat) : State × Reg :=
  match p with
  | .global o =>
    (if o = 0x20 then { s with com := { s.com with chamberHi := reg (s.chamber / 2 ^ 32) } } else s, s.globalReg o)
  | .page n o => (s, s.pageReg n o)
  | .record i o => (s, match tget s.log.ring i with | some r => wordOf r.bytes o | none => 0)
  | .live t o => s.liveRead t o a
  | .slot t k o => (s, match tget s.com.snapshots (16 * t + k) with | some x => wordOf x.bytes o | none => 0)
  | .reserved => (s, 0)

/-- A read of the 32-bit word that holds a BAR0 offset: the state with what the read latches, and the word. -/
def State.bar0Read (s : State) (a : Nat) : State × Reg := s.partRead (bar0Part (a / 4 * 4)) (a / 4 * 4)

/-- Does PCIe reach BAR0? -/
def State.barUp (s : State) : Bool := s.pcieUp

/-- Reads of `n` words from the word at `a` on, in ascending address order: an aligned read of 8 bytes is two reads of 4 (R463). -/
def State.wordsRead : Nat → State → Nat → State × List Byte
  | 0, s, _ => (s, [])
  | n + 1, s, a =>
    let r := s.bar0Read a
    let x := State.wordsRead n r.1 (a + 4)
    (x.1, le 4 r.2.toNat ++ x.2)

/-- A read of `size` bytes over PCIe: those of the words that contain them (R463). The bytes returned stand in `readData`. -/
def State.pcieRead (s : State) (a size : Nat) : State :=
  if !s.barUp then s
  else
    let r := State.wordsRead ((a % 4 + size + 3) / 4) s (a / 4 * 4)
    { r.1 with com := { r.1.com with readData := (r.2.drop (a % 4)).take size } }

/-- An MSI-X table word is written: a message held pending goes out when its entry is unmasked (R471). -/
def State.msixWrite (s : State) (w : Nat) (v : Reg) : State :=
  let s := { s with com := { s.com with msix := tput s.com.msix w v } }
  let e := w / 4
  if w % 4 = 3 ∧ v.getLsbD 0 = false ∧ s.com.pba.getLsbD e = true then
    { s with com := { s.com with pba := s.com.pba &&& ~~~(BitVec.ofNat 64 (2 ^ e)), msiSent := tupd s.com.msiSent e 0 (· + 1) } }
  else s

/-- A write in the global block (Table 12.12); read-only and reserved registers discard it. -/
def State.globalWrite (s : State) (o : Nat) (v : Reg) : State :=
  match o with
  | 0x10 => { s with com := { s.com with scratch0 := v } }
  | 0x14 => { s with com := { s.com with scratch1 := v } }
  | 0x38 => s.evtRdWrite v
  | 0x3C => { s with com := { s.com with evtThreshold := v } }
  | _ => if 0x8000 ≤ o ∧ o < 0x8400 then s.msixWrite ((o - 0x8000) / 4) v else s

/-- INT_MASK is written: a bit that becomes pending and unmasked sends the page's message (R471). -/
def State.intMaskWrite (s : State) (n : Nat) (v : Reg) : State :=
  let p := s.page n
  let m := v &&& 0x7F
  let isNew := p.intStatus &&& ~~~m &&& p.intMask != 0
  let s := s.modPage n fun p => { p with intMask := m }
  if isNew then s.msi p.vector else s

/-- INT_CONFIG is written. -/
def intConfigOf (p : Page) (v : Reg) : Page :=
  let w := v.toNat
  { p with vector := bitsAt w 0 6, pin := bitsAt w 8 2, pinEn := bitAt w 10, moderation := min 1000 (bitsAt w 16 10) }

/-- A write in a tenant page (Table 12.13); the base registers discard writes while ENABLE is 1 (R433). -/
def State.pageWrite (s : State) (n o : Nat) (v : Reg) : State :=
  let base (f : Page → Page) : State := s.modPage n fun p => if p.enable then p else f p
  match o with
  | 0x04 => s.ringCtrl n v
  | 0x0C => s.modPage n fun p => intConfigOf p v
  | 0x10 => base fun p => { p with cmdqBaseLo := v &&& 0xFFFFF000 }
  | 0x14 => base fun p => { p with cmdqBaseHi := v }
  | 0x18 => s.doorbell n (v.setWidth 16)
  | 0x20 => base fun p => { p with rspqBaseLo := v &&& 0xFFFFF000 }
  | 0x24 => base fun p => { p with rspqBaseHi := v }
  | 0x2C => s.rspqHead n (v.setWidth 16)
  | 0x30 => s.intClear n v
  | 0x34 => s.intMaskWrite n v
  | 0x38 => s.modPage n fun p => { p with ctrSelect := v }
  | _ => s

/-- A 4-byte write at an aligned BAR0 offset. The counter views are read-only: a write aimed at a dark unit's group is recorded
(R12, R14). -/
def State.bar0Write (s : State) (a : Nat) (v : Reg) : State :=
  match bar0Part a with
  | .global o => s.globalWrite o v
  | .page n o => s.pageWrite n o v
  | .live t _ =>
    (match s.liveGroup t, s.dark (s.selected t).1 with
     | some _, some why => s.darkAccess (s.selected t).1 why 2 a t
     | _, _ => s)
  | _ => s

/-- REGISTER_WRITE: a write over PCIe of some size; only aligned writes of 4 bytes are taken (R463). -/
def State.registerWrite (s : State) (a size : Nat) (v : Reg) : State :=
  if !s.barUp || size != 4 || a % 4 != 0 then s else s.bar0Write a v

/-- Does the SPI target reach a BAR0 offset? While DORMANT only the global block replies (R554). -/
def State.spiReaches (s : State) (a : Nat) : Bool :=
  s.targetsUp && (s.power.dormant == .no || match bar0Part a with | .global _ => true | _ => false)

/-- REG_READ on the SPI target (R436). -/
def State.regRead (s : State) (a : Nat) : State :=
  if !(s.spiReaches a) then s
  else
    let r := s.bar0Read a
    r.1.modSpi fun t => { t with lastRead := le 4 r.2.toNat }

/-- REG_WRITE on the SPI target (R436). -/
def State.regWrite (s : State) (a : Nat) (v : Reg) : State :=
  if !(s.spiReaches a) || a % 4 != 0 then s else s.bar0Write a v

/-! The rows that name one register. -/

/-- A write of one register of a tenant page over PCIe. -/
def State.pageRow (s : State) (n o : Nat) (v : Reg) : State := if s.barUp && n ≤ 15 then s.pageWrite n o v else s

/-- CMDQ_TAIL_DOORBELL (R429). -/
def State.tailDoorbell (s : State) (n : Nat) (v : BitVec 16) : State := s.pageRow n 0x18 (v.setWidth 32)

/-- RSPQ_HEAD_WRITE (R429). -/
def State.headWrite (s : State) (n : Nat) (v : BitVec 16) : State := s.pageRow n 0x2C (v.setWidth 32)

/-- RING_ENABLE: RING_CTRL is written with ENABLE set and the LOG fields given (R466). -/
def State.ringEnable (s : State) (n cmdq rspq : Nat) : State :=
  s.pageRow n 0x04 (reg (1 + cmdq % 16 * 16 + rspq % 16 * 256))

/-- RING_RESET: RING_CTRL is written with RESET set (R433). -/
def State.ringResetRow (s : State) (n : Nat) : State := s.pageRow n 0x04 2

/-- INT_STATUS_CLEAR (R471). -/
def State.intStatusRow (s : State) (n : Nat) (v : Reg) : State := s.pageRow n 0x30 v

/-- EVT_RD_WRITE (R520). -/
def State.evtRdRow (s : State) (v : Reg) : State := if s.barUp then s.globalWrite 0x38 v else s

/-- CHAMBER_LO_READ (R465). -/
def State.chamberLoRead (s : State) : State := s.pcieRead 0x20 4

/-- COUNTER_LOW_WORD_READ of counter `j` in the view of tenant `t` (R468). -/
def State.counterLowRead (s : State) (t j : Nat) : State :=
  if t ≤ 15 && j < 512 then s.pcieRead (0x400000 + t * 0x40000 + 8 * j) 4 else s

end Sys2Proof.Machine
end

