-- ==== Sys2Proof/Machine/Convert.lean ====
section
/-!
DEFINITION. Line converters (09_converters.md): boot calibration, the steps of a run, the slice monitor, CAL_POLICY and CAL_RUN.
-/
namespace Sys2Proof.Machine

/-! CALRES (R328, R329). -/

/-- Is a CALRES value within the range that is accepted? -/
def calresOk (ohms : Nat) : Bool := 1900 ≤ ohms && ohms ≤ 2100

/-- CALRES_FAULT. -/
def State.calresFault (s : State) (ohms : Nat) : State := s.raise islLamp .calresFault 0xFFFF (le 2 ohms)

/-- Does the value pass the check at the start of a run? -/
def Cal.passes (k : Cal) (ohms : Nat) : Bool :=
  calresOk ohms && (match k.ohms with | some a => decide (200 * ((ohms : Int) - a).natAbs ≤ a) | none => true)

/-- The check at the start of a run (R329). -/
def State.checkRun (s : State) (n c ohms : Nat) : State :=
  if (s.eng n).cal.passes ohms then
    s.modConv n c fun v => { v with run := v.run.map fun r => { r with checked := true } }
  else ((s.modCal n fun k => { k with calres := 2 }).abandonRun n c 3).calresFault ohms

/-! Boot calibration (R330, R331). -/

/-- A converter after boot calibration: the elements that did not fail hold the positions, then the rover, then the reserve. Its trims are those
that were found; the skew of ADC slices is fused (R330). -/
def bootConv (n : Nat) (old : Conv) (c : Nat) (failed : List Nat) (found : BootTrims) (temp : Int) (ch mono : Nat) : Conv :=
  let p := positions c
  let good := (List.range (p + 2)).filter fun k => !(failed.contains k)
  { hold := good.take p, rover := good[p]?, reserve := good[p + 1]?, failed := failed, dead := decide (failed.length > 2)
    flags := old.flags, delta := old.delta, hours := old.hours, temp := temp, since := mono, lastTemp := temp, lastCh := ch, lastAt := mono
    trims := (List.range (p + 2)).map fun k => { ((found.trims[k]?).getD {}) with skew := if c < 4 then Config.fusedSkew n c k else 0 }
    binary := if c < 4 then [] else found.binary, timing := if c < 4 then 0 else found.timing }

/-- CAL_BOOT_DONE: the foreground calibration of an engine ends; `bad` lists the elements, beside those of the repair map, that could
not be trimmed, and `found` the trims of each converter. -/
def State.calBootDone (s : State) (n ohms : Nat) (temp : Int) (bad : List (Nat × Nat)) (found : List BootTrims) : State :=
  if n > 7 || s.calDone n || s.runsHeld n then s
  else
    let map := s.store.repair.convs.filterMap fun x => if x.1 = n then some (x.2.1, x.2.2) else none
    let failed := fun c => (indices (positions c + 2) fun k => map.contains (c, k) || bad.contains (c, k))
    let ok := calresOk ohms
    let s := s.modCal n fun k => { k with
      bootDone := true, temp := temp, calres := if ok then 0 else 1, ohms := if ok then some ohms else none
      convs := (List.range 8).map fun c => bootConv n ((k.convs[c]?).getD {}) c (failed c) ((found[c]?).getD {}) temp s.chamber s.mono }
    let s := if ok then s else s.calresFault ohms
    let s := (List.range 8).foldl
      (fun (s : State) c =>
        let f := (failed c).length
        if f > 2 then s.raise (islEng n) .convFailed n (le 1 c ++ le 1 f)
        else if f = 2 then s.raise (islEng n) .calNoSpare n (le 1 c) else s) s
    s.raise (islEng n) .calBootDone n ((List.range 8).flatMap fun c => le 1 (failed c).length)

/-! Failures (R341, R342). -/

/-- Report a failed element, count it and record it in the repair map. Roles: 1 in service, 2 offline, 3 rover, 4 reserve. -/
def State.elementFailed (s : State) (n c k role : Nat) (mtpOk : Bool) : State :=
  let s := s.modConv n c fun v => { v with
    failed := v.failed ++ [k], badWins := tdel v.badWins k, run := v.run.map fun r => { r with failed := true } }
  let s := ((s.raise (islEng n) .convSliceFailed n (le 1 c ++ le 1 k ++ le 1 role)).calCount n c 4).modLife fun l =>
    { l with sliceFail := l.sliceFail + 1, wrRepair := l.wrRepair + 1 }
  let s := s.mtpWrite 4 repairBody mtpOk
  if mtpOk && decide (s.store.repair.convs.length < 512) then
    { s with store := { s.store with repair := { s.store.repair with convs := s.store.repair.convs ++ [(n, c, k)] } } }
  else s

/-- A run ends because its converter lost its last spare: background runs stop (Table 9.5), and a trigger held during it is dropped (R334). -/
def State.runLost (s : State) (n c : Nat) : State :=
  match (s.conv n c).run with
  | none => s
  | some r =>
    let s := s.modConv n c fun v => { v with run := none }
    let s := if r.job then s.runEnded n c (some Status.hwFault.code) else s
    s.startHeld n c

/-- A failed slice in service is replaced (Table 9.5). -/
def State.serviceFail (s : State) (n c pos k : Nat) (mtpOk : Bool) : State :=
  let v := s.conv n c
  let put := fun (s : State) (x : Nat) => s.modConv n c fun v => { v with hold := v.hold.set pos x }
  let spare := match v.run with | some r => some r.off | none => v.rover
  match v.reserve with
  | some x =>
    let s := (put s x).modConv n c fun v => { v with reserve := none }
    (s.elementFailed n c k 1 mtpOk).declareFault 5 false
  | none => match spare with
    | some x =>
      let s := (put s x).modConv n c fun v => { v with rover := none }
      let s := ((s.elementFailed n c k 1 mtpOk).runLost n c).raise (islEng n) .calNoSpare n (le 1 c)
      s.declareFault 5 false
    | none =>
      let s := s.modConv n c fun v => { v with degraded := v.degraded ++ [pos] }
      (s.elementFailed n c k 1 mtpOk).raise (islEng n) .convDegraded n (le 1 c ++ le 1 pos)

/-- Does a slice's window fail (R341)? 3 dB is a power ratio of 10^0.3, compared exactly as a twentieth power. -/
def windowFails (w : SliceWindow) : Bool :=
  (w.equal && decide (w.laneRms ≥ 40)) || decide ((w.mean - w.laneMean).natAbs > 60) ||
    (decide (w.laneRms ≥ 40) && decide ((max w.rms w.laneRms) ^ 20 > 1000 * (min w.rms w.laneRms) ^ 20))

/-- A spare fails outside a step (Table 9.5): nothing leaves service and there is one spare fewer. What stays is the rover, as at boot (R331;
DESIGN CHOICE, assumption 88). -/
def State.spareFail (s : State) (n c k : Nat) (mtpOk : Bool) : State :=
  let v := s.conv n c
  let role := if v.rover = some k then 3 else 4
  let s := s.modConv n c fun v => if v.rover = some k then { v with rover := v.reserve, reserve := none } else { v with reserve := none }
  let s := s.elementFailed n c k role mtpOk
  if (s.conv n c).rover.isNone && (s.conv n c).run.isNone then s.raise (islEng n) .calNoSpare n (le 1 c) else s

/-- SLICE_WINDOW_EVAL: a window of a slice ends: of one in service, or of a spare outside a run. A window that is not judged neither ends nor
extends a run of failing ones (R341; DESIGN CHOICE, assumption 88). -/
def State.sliceWindow (s : State) (n c : Nat) (w : SliceWindow) (mtpOk : Bool) : State :=
  let v := s.conv n c
  let spare := v.run.isNone && (v.rover == some w.slice || v.reserve == some w.slice)
  let pos := v.hold.findIdx? (· == w.slice)
  if c > 3 || !(s.calDone n) || (pos.isNone && !spare) || (s.dark (convUnit n c)).isSome || w.clamped || decide (w.saturated > 100) ||
      (match pos with | some p => v.degraded.contains p | none => false) then s
  else if !(windowFails w) then s.modConv n c fun v => { v with badWins := tdel v.badWins w.slice }
  else if tgetD v.badWins w.slice 0 + 1 < 2 then s.modConv n c fun v => { v with badWins := tupd v.badWins w.slice 0 (· + 1) }
  else match pos with
    | some p => s.serviceFail n c p w.slice mtpOk
    | none => s.spareFail n c w.slice mtpOk

/-! Runs (R333 to R340). -/

/-- CAL_TRIGGER: a temperature (1) or interval (2) trigger is judged with the temperature now; the others start what is held. A run
that starts checks CALRES. -/
def State.calTriggerRow (s : State) (n c cause : Nat) (temp : Int) (ohms : Nat) : State :=
  if n > 7 || c > 7 || !(s.calDone n) then s
  else
    let s := s.modCal n fun k => { k with temp := temp }
    let s := if (cause = 1 ∨ cause = 2) ∧ s.meets n c cause = true then s.calTrigger n c cause false else s.startHeld n c
    match (s.conv n c).run with
    | some r => if r.step = 0 ∧ !r.checked then s.checkRun n c ohms else s
    | none => s

/-- How long a step of a converter lasts (R335, R338). -/
def stepQ (c : Nat) : Nat := if c < 4 then 200 * usQ else 100 * usQ

/-- Does one selection bring the offline element within Table 9.2? -/
def trimOk (c : Nat) (x : Nat × Nat) : Bool := if c < 4 then x.1 ≤ 20 && x.2 ≤ 20 else x.1 ≤ 50

/-- Does some selection bring the offline element within Table 9.2 (R323, R338)? -/
def stepTrimmed (io : StepIo) (c : Nat) : Bool := io.trims.any (trimOk c)

/-- Has the lane too little signal to refine against (R337)? -/
def stepNoSignal (io : StepIo) (c : Nat) : Bool := c < 4 && io.laneRms < 80

/-- The differences that verify judges: an instant in which a sample is saturated or a clamp engaged is left out (R336). -/
def stepDiffs (io : StepIo) : List Int :=
  (io.verify.filter fun x => !x.2.2 && decide (x.1 < 127) && decide (-128 < x.1) && decide (x.2.1 < 127) && decide (-128 < x.2.1)).map
    fun x => x.1 - x.2.1

/-- Verify (R336 to R338): a mean difference of at most 0.25 LSB and, with signal, an RMS difference of at most 0.5 LSB. A DAC cell must lie
within 0.02 LSB of the cell it will replace; a step that takes nothing over replaces none. Where every instant is left out there is no
difference, and the step is accepted (DESIGN CHOICE, assumption 88). -/
def verifyOk (io : StepIo) (c step : Nat) : Bool :=
  if c < 4 then
    let d := stepDiffs io
    let sum := d.foldl (· + ·) 0
    let sq := (d.map fun x => x * x).foldl (· + ·) 0
    decide (4 * sum.natAbs ≤ d.length) && (stepNoSignal io c || decide (4 * sq ≤ (d.length : Int)))
  else io.trims.any fun x => x.1 ≤ 50 && (positions c ≤ step || x.2 ≤ 20)

/-- A run completes. -/
def State.runDone (s : State) (n c : Nat) (r : Run) : State :=
  let s := s.modConv n c fun v => { v with run := none, lastTemp := r.temp, lastCh := r.chamber, lastAt := r.since }
  let s := (s.calCount n c 0).modLife fun l => { l with calRuns := tupd l.calRuns n 0 (· + 1) }
  let s := s.raise (islEng n) .calRunDone n (le 1 c ++ le 1 r.trigger ++ leS 2 r.temp)
  let s := if r.job then s.runEnded n c (if r.failed then some Status.hwFault.code else none) else s
  s.startHeld n c

/-- The offline element of a step failed: the reserve takes its place and the step restarts; without one the run ends with no spare
left (Table 9.5). -/
def State.offlineFail (s : State) (n c : Nat) (r : Run) (mtpOk : Bool) : State :=
  let s := s.elementFailed n c r.off 2 mtpOk
  match (s.conv n c).reserve with
  | some x => s.modConv n c fun v => { v with reserve := none, run := v.run.map fun r => { r with off := x, retried := false, stepAt := s.mono } }
  | none =>
    ((s.modConv n c fun v => { v with rover := none }).runLost n c).raise (islEng n) .calNoSpare n (le 1 c)

/-- The offline element's trims after its step: those that the calibration found, with the first selection that brings it within the figures
(R323); an ADC slice's skew is its previous one and its gain the one found, each refined where the lane has signal (R335, R337). -/
def Trim.afterStep (old : Trim) (io : StepIo) (c : Nat) : Trim :=
  if c < 4 then
    let fine := if stepNoSignal io c then (0, 0) else io.refine
    { io.found with
      select := (io.trims.findIdx? (trimOk c)).getD 0, gain := io.found.gain + fine.2, skew := old.skew + fine.1, current := old.current }
  else { old with current := io.found.current }

/-- The offline element keeps what its accepted step trimmed; a step that did not finish changes no trim (R340). -/
def State.trimStep (s : State) (n c k : Nat) (io : StepIo) : State :=
  s.modConv n c fun v => { v with trims := v.trims.modify k fun t => t.afterStep io c }

/-- An accepted step: positions are taken over one by one, then the new rover is calibrated, then the reserve. -/
def State.stepAccepted (s : State) (n c : Nat) (r : Run) : State :=
  let p := positions c
  let v := s.conv n c
  if r.step < p then
    let pos := v.next
    let old := (v.hold[pos]?).getD 0
    let s := s.modConv n c fun v => { v with
      hold := v.hold.set pos r.off, next := (pos + 1) % p
      run := some { r with off := old, step := r.step + 1, retried := false, stepAt := s.mono } }
    s.calCount n c 1
  else if r.step = p then
    let s := s.modConv n c fun v => { v with rover := some r.off, run := some { r with step := r.step + 1, retried := false, stepAt := s.mono } }
    if v.reserve.isNone then s.runDone n c r else s
  else s.runDone n c r

/-- A step that is not accepted: it repeats once in full; a second rejection, and an element that no selection trims, fail the element. -/
def State.stepRejected (s : State) (n c : Nat) (r : Run) (io : StepIo) : State :=
  if stepTrimmed io c && !r.retried then
    (s.modConv n c fun v => { v with run := some { r with retried := true, stepAt := s.mono } }).calCount n c 2
  else if r.step > positions c then
    match (s.conv n c).reserve with
    | some x => ((s.modConv n c fun v => { v with reserve := none }).elementFailed n c x 4 io.mtpOk).runDone n c { r with failed := true }
    | none => s.runDone n c r
  else s.offlineFail n c r io.mtpOk

/-- A run that is to be abandoned is, when its step has finished (R340): the repeat of a step belongs to it, but an entry into PARKED or
OFF waits for one step time at most. -/
def State.stopAfterStep (s : State) (n c : Nat) : State :=
  match (s.conv n c).run with
  | some r => match r.stop with
    | some cause => if r.retried && cause != 1 then s else s.abandonRun n c cause
    | none => s
  | none => s

/-- CAL_STEP_END: the step's time has passed (R335, R338). -/
def State.calStepEnd (s : State) (n c : Nat) (io : StepIo) : State :=
  match (s.conv n c).run with
  | none => s
  | some r =>
    if !(s.since r.stepAt (stepQ c)) then s
    else if !r.checked && !((s.eng n).cal.passes io.ohms) then s.checkRun n c io.ohms
    else
      let r := { r with checked := true }
      let s := s.modConv n c fun v => { v with run := some r }
      let s := if stepNoSignal io c then s.calCount n c 3 else s
      let k := if positions c < r.step then ((s.conv n c).reserve.getD r.off) else r.off
      (if stepTrimmed io c && verifyOk io c r.step then (s.trimStep n c k io).stepAccepted n c r
       else s.stepRejected n c r io).stopAfterStep n c

/-! CAL_POLICY and CAL_RUN (R343 to R346). -/

/-- STATE of Table 9.7. -/
def Conv.stateCode (v : Conv) : Nat :=
  if v.dead then 5 else if !v.degraded.isEmpty then 4
  else if v.run.isSome then 1 else if v.rover.isNone then 3 else if v.held.isSome then 2 else 0

/-- The CAL_POLICY response (Table 9.7). -/
def State.calReply (s : State) (n : Nat) : List Byte :=
  le 1 0 ++ le 1 0 ++ le 1 n ++ le 1 (s.eng n).cal.calres ++ zeros 4 ++
    (List.range 8).flatMap fun c =>
      let v := s.conv n c
      le 1 v.stateCode ++ le 1 (bit (v.rover.isSome || v.run.isSome) + bit v.reserve.isSome) ++ le 1 v.failed.length ++ le 1 v.flags ++
        le 2 v.delta ++ le 2 v.hours ++ leS 2 v.lastTemp ++ le 6 v.lastCh

/-- A new policy takes effect at once: a converter that meets a trigger now triggers. -/
def State.setPolicy (s : State) (n mask flags delta hours : Nat) : State :=
  (indices 8 fun c => bitAt mask c).foldl
    (fun (s : State) c =>
      let s := s.modConv n c fun v => { v with flags := flags, delta := delta, hours := hours }
      if s.meets n c 1 then s.calTrigger n c 1 false else if s.meets n c 2 then s.calTrigger n c 2 false else s)
    s

/-- CAL_POLICY. With ENGINE 0xFF it names no engine, and a dark one is not reported (DESIGN CHOICE, assumption 88). -/
def State.cmdCalPolicy (s : State) (q : Request) : State :=
  let n := q.u 0 1
  let act := q.u 1 1
  let all := n == 0xFF
  let bad := !(decide (n < 8) || all) || act < 1 || act > 2 || !(q.rsv 8 4) ||
    (if act = 1 then q.u 2 1 == 0 || q.u 3 1 > 3 || q.u 4 2 < 5 || q.u 4 2 > 100 || q.u 6 2 < 1 || q.u 6 2 > 168
     else all || !(q.rsv 2 6))
  let engs := if all then s.engines else [n]
  s.serve 0x0E01 q 136 (q.len == 12)
    [.bad bad .badParam 0, .lit (if all then [] else [engIsland n]),
     .bad (if all then q.tenant != 0 else !(s.manages q.tenant n)) .notPermitted 0,
     .bad (engs.any fun k => !(s.calDone k)) .notReady 0]
    fun s =>
      let s := if act = 1 then engs.foldl (fun (s : State) k => s.setPolicy k (q.u 2 1) (q.u 3 1) (q.u 4 2) (q.u 6 2)) s else s
      (s, some (s.calReply ((engs[0]?).getD 0)))

/-- CAL_RUN. -/
def State.cmdCalRun (s : State) (q : Request) : State :=
  let n := q.u 0 1
  let named := indices 8 fun c => bitAt (q.u 1 1) c
  let busy := s.runningJobs.any fun j => match j.work with
    | .calRun m _ all _ => m == n && j.finish.isNone && named.any fun c => all.contains c
    | _ => false
  s.serve 0x0E02 q 8 (q.len == 4)
    [.bad (decide (n > 7) || q.u 1 1 == 0 || !(q.rsv 2 2)) .badParam 0, .lit [engIsland n], s.onlyManager q n,
     .bad (!(s.calDone n)) .notReady 0,
     .bad (named.any fun c => (s.conv n c).rover.isNone && (s.conv n c).run.isNone) .noResource 0, .bad busy .busy 0,
     .bad (s.jobsFull q.tenant) .noResource 0]
    fun s =>
      let x := s.startJob q.tenant 0x0E02 (.calRun n named named none)
      (named.foldl (fun (s : State) c => s.calTrigger n c 3 true) x.1, some (jobStarted x.2))

/-- JOB_CANCEL of a CAL_RUN job (R340): the runs it caused stop at the end of their steps, its held triggers are dropped. -/
def State.cancelRuns (s : State) (n : Nat) (left : List Nat) : State :=
  left.foldl
    (fun (s : State) c => s.modConv n c fun v => { v with
      run := v.run.map fun r => if r.job then { r with stop := some 2 } else r
      held := match v.held with | some (t, true) => if t = 3 then none else some (t, false) | h => h })
    s

end Sys2Proof.Machine
end

