-- ==== Sys2Proof/Machine/Domain.lean ====
section
/-!
DEFINITION. Domain messages and joining a domain (11_timing.md): sending, DOMAIN_JOIN, time status and the elastic buffers.
Receiving is in Messages.lean.
-/
namespace Sys2Proof.Machine

/-! Sending (R412, R416). -/

/-- TAG of a message (Table 11.9): the CMAC under the tenant's management key, none where the part has a cipher and the tenant holds no
key; zero on a part without the cipher. -/
def State.msgAuth (s : State) (tenant : Nat) (body : List Byte) : Option (List Byte) :=
  if s.hasCipher then (s.mgmtKey tenant).map fun k => cmac k body else some (zeros 16)

/-- Hand a message to the engine or Umran port of an input. -/
def State.toCarrier (s : State) (input : Nat) (content : List Byte) : State :=
  if 32 ≤ input then s.queueMgmt (input - 32) content
  else s.modUl (input - 24) fun x => { x with mgmtQ := x.mgmtQ ++ [mgmtFrame content] }

/-- SEQ of the next message (Table 11.9). -/
def State.nextSeq (s : State) : Nat := s.store.powerUps % 2 ^ 24 * 2 ^ 40 + (s.tim.msgCount + 1) % 2 ^ 40

/-- Send a domain message on an engine or Umran port; nothing is sent without the tenant's management key. -/
def State.sendMessage (s : State) (input type : Nat) (broadcast : Bool) (dest tenant : Nat) (body : List Byte) : State :=
  let m := le 1 type ++ le 1 (bit broadcast + 2 * bit s.tim.joined) ++ le 2 s.node ++ le 2 dest ++ le 2 tenant ++ le 8 s.nextSeq ++ body
  match s.msgAuth tenant m with
  | none => s
  | some tag =>
    (s.toCarrier input (m ++ tag)).modTim fun t => { t with msgCount := t.msgCount + 1, msgTx := t.msgTx + 1 }

/-- Send the responses of commands that came in domain messages, as TYPE 2 messages to their senders (R415). -/
def State.sendRelayed (s : State) : State :=
  let due := s.com.relayed
  due.foldl (fun (s : State) x => s.sendMessage x.1 2 false x.2.1 x.2.2.tenant x.2.2.bytes)
    { s with com := { s.com with relayed := [] } }

/-- Can a message be sent under a tenant (R416)? -/
def State.canSign (s : State) (tenant : Nat) : Bool := !s.hasCipher || (s.mgmtKey tenant).isSome

/-- The tenant that holds an engine, or T0 (R210, R273). -/
def State.holder (s : State) (n : Nat) : Nat :=
  ((List.range 16).find? fun t => t != 0 && (s.policy t).enabled && bitAt (s.policy t).engineManage n).getD 0

/-! DOMAIN_JOIN (R417 to R419). -/

/-- Has the engine or port of an input a native line frame or a locked Umran link? A hub's frame is the one it sends. -/
def State.carrierUp (s : State) (input : Nat) : Bool :=
  if 32 ≤ input then
    let e := s.eng (input - 32)
    e.tx.enabled && e.cfg.mode == 1 && (e.mp.role == 1 || e.rx.frame)
  else (s.ulPort (input - 24)).up

/-- Is an input an engine's or an Umran port's? -/
def relayPort (i : Nat) : Bool := (24 ≤ i && i ≤ 27) || (32 ≤ i && i ≤ 39)

/-- DOMAIN_JOIN's answer to ACTIONS 1 and 2. -/
def joinReply (node epoch : Nat) : List Byte := okay4 ++ le 2 node ++ zeros 2 ++ le 8 epoch

/-- DOMAIN_JOIN. -/
def State.cmdDomainJoin (s : State) (q : Request) : State :=
  let act := q.u 0 1
  let epoch := q.u 4 6
  let port := q.u 10 1
  let packet := q.payload.drop 16
  let lenOk := decide (16 ≤ q.len) && (if act = 3 then decide (32 ≤ q.len) && decide (q.len ≤ 4080) else act > 2 || q.len == 16)
  let bad := act < 1 || act > 3 || !(q.rsv 11 5) || (if act = 3 then q.u 1 1 > 1 || !(relayPort port) else q.u 1 1 != 0 || port != 0) ||
    (act != 1 && epoch != 0) || (act == 2 && q.u 2 2 != 0)
  let units := if act = 3 then (match inputUnit port with | some u => [u] | none => []) else []
  s.serve 0x0505 q (if act = 3 then 8 else 16) lenOk
    [.bad bad .badParam 0, .lit units, .bad (if act = 3 then s.disabled q else q.tenant != 0) .notPermitted 0,
     .bad (act != 3 && s.stepBlocked) .notIdle 0, .bad (act == 1 && decide (s.sec < epoch)) .notReady 0,
     .bad (act == 3 && (!(s.carrierUp port) || !(s.canSign q.tenant))) .notReady 0,
     .bad (act == 3 && s.jobsFull q.tenant) .noResource 0]
    fun s =>
      match act with
      | 1 => (s.modTim fun t => { t with joining := some (some (q.u 2 2, epoch)), joinCh := s.chamber }, some (joinReply (q.u 2 2) epoch))
      | 2 => (s.modTim fun t => { t with joining := some none, joinCh := s.chamber }, some (joinReply 0 0))
      | _ =>
        let all := bitAt (q.u 1 1) 0
        let x := s.startJob q.tenant 0x0505 (.relay s.mono (fld packet 8 4) (q.u 2 2))
        let s := x.1.sendMessage port 1 all (q.u 2 2) q.tenant packet
        let s := if all then s.finishJob x.2 .ok [] else s
        (s, some (jobStarted x.2))

/-- DOMAIN_JOIN_APPLY at the chamber boundary after the command (R418). -/
def State.domainJoinApply (s : State) : State :=
  if s.chamber = s.tim.joinCh then s
  else match s.tim.joining with
    | none => s
    | some none => { s with node := 0, epoch := 0 }.modTim fun t => { t with joining := none, joined := false }
    | some (some (node, epoch)) =>
      let s := { s with node := node, epoch := epoch }.modTim fun t => { t with joining := none, joined := true }
      s.raise islTime .domainJoined 0xFFFF (le 2 node ++ le 6 epoch)

/-- RELAY_TIMEOUT: a relayed command without a response after 100 ms ends its job with NOT_READY (R419). -/
def State.relayTimeout (s : State) : State :=
  s.runningJobs.foldl
    (fun (s : State) j => match j.work with
      | .relay sentAt _ _ =>
        if j.finish.isNone && s.since sentAt (100 * msQ) then
          s.modJob j.token fun j => { j with finish := some (Status.notReady.code, []), progress := 100 }
        else s
      | _ => s)
    s

/-! Time status (R395, R413). -/

/-- The time-status body for one carrier (Table 11.10): QL-DNU toward the selected input and the time source. -/
def State.statusBody (s : State) (input : Nat) : List Byte :=
  let ql := if s.tim.selected == some input || s.tim.source == some input then 0xF else s.outQl
  le 1 ql ++ le 1 s.stepsRemoved ++ le 2 s.sourceNode ++ le 6 s.epoch ++ le 1 s.tim.loopSt ++ zeros 5

/-- The inputs of the native engines and the locked Umran ports. -/
def State.statusPorts (s : State) : List Nat :=
  ((List.range 8).filter fun n => (s.eng n).tx.enabled && (s.eng n).cfg.mode == 1).map (32 + ·) ++
    ((List.range 4).filter fun p => (s.ulPort p).up).map (24 + ·)

/-- TIME_STATUS_SEND: once per second (R413). -/
def State.timeStatusSend (s : State) : State :=
  if !(s.since s.tim.statusAt secQ) then s
  else
    s.statusPorts.foldl (fun (s : State) i => s.sendMessage i 3 true 0 0 (s.statusBody i))
      (s.modTim fun t => { t with statusAt := s.mono })

/-! Elastic buffers (R410). -/

/-- The carrier code of an input's engine or port. -/
def inputCode (i : Nat) : Nat := if 32 ≤ i then engCode (i - 32) else ulCode (i - 24)

/-- Does a passage take its blocks from an input's carrier? -/
def Passage.fedBy (p : Passage) (i : Nat) : Bool :=
  let e := p.activeLeg
  if 32 ≤ i then e.kind == 3 && e.index == i - 32 else e.kind == 4 && e.index == i - 24

/-- TIME_ELASTIC_SLIP: at a boundary an offset beyond ±40 ns re-centres the buffer; every passage with that ingress
substitutes the blocks of this chamber (R39). -/
def State.elasticSlip (s : State) (i : Nat) (theta : Int) : State :=
  if !(twoWay i) || absI theta ≤ 160 then s
  else
    let s := (s.modTim fun t => { t with slips := t.slips + 1 }).modPartner i fun p => { p with off := 0, wideAt := none, warned := false }
    let s := (tkeys s.pas).foldl
      (fun (s : State) id => s.modPas id fun p =>
        if p.st == 2 && p.fedBy i then { p with slipCh := some s.chamber, gap := some (chAdd s.chamber 1) } else p) s
    s.raise islTime .timeElasticSlip (inputCode i) (leS 4 theta)

end Sys2Proof.Machine
end

