-- ==== Sys2Proof/Machine/FirstUse.lean ====
section
/-!
DEFINITION. First use (07_receive.md, R272 to R276): the firmware chooses a profile from the latest window and commits it with the
far end.
-/
namespace Sys2Proof.Machine

/-- A first-use attempt failed (R274): MEASURING again, or HELD after the third failure in a row. -/
def State.firstUseFail (s : State) (n : Nat) : State :=
  let r := (s.eng n).rx
  let held := decide (r.useFails + 1 ≥ 3)
  let s := s.modRx n fun r => { r with
    use := if held then 6 else if r.frame then 2 else 1, useFails := r.useFails + 1, useCc := none, useReply := none }
  if held then s.raise (islEng n) .bitloadHeld n (le 2 ((s.eng n).cfg.slotsOf r.useProf)) else s

/-- First use ends without a commit because a direction refuses the profile (R65, R170, R274). -/
def State.firstUseHold (s : State) (n : Nat) (slots : Nat) : State :=
  (s.modRx n fun r => { r with use := 6, useCc := none, useReply := none }).raise (islEng n) .bitloadHeld n (le 2 slots)

/-- BITLOAD_LOW_SNR for every subcarrier for which no entropy satisfies R221. -/
def State.lowSnr (s : State) (n : Nat) (snrs : List Int) : State :=
  let c := (s.eng n).cfg
  ((List.range snrs.length).zip snrs).foldl
    (fun (s : State) x => if (bestH c.code c.margin x.2).isNone then s.raise (islEng n) .bitloadLowSnr n (le 1 x.1 ++ leS 2 x.2) else s) s

/-- The BITLOAD_SET packet to the far node (R273). Its HOST_TAG is the number of the message that carries it. -/
def State.farBitload (s : State) (n tenant cc : Nat) (prof : List Nat) : List Byte :=
  let e := s.eng n
  let body := le 1 e.rx.farEngine ++ le 1 0 ++ le 1 prof.length ++ zeros 1 ++ le 2 s.node ++ zeros 2 ++ le 8 cc ++
    padTo 16 (prof.flatMap (le 1))
  packet 0x0204 tenant (BitVec.ofNat 32 s.nextSeq) body

/-- Are both conditions of R273 met: the same epoch, and chamber boundaries within ±40 ns? -/
def State.farInDomain (s : State) (n : Nat) : Bool :=
  let r := (s.eng n).rx
  r.farEpoch == some s.epoch && (match r.theta with | some t => decide (absI t ≤ 160) | none => false)

/-- FIRST_USE_COMMIT (R273, R274). It waits while no management key authenticates the message. -/
def State.firstUseCommit (s : State) (n : Nat) : State :=
  let e := s.eng n
  let c := e.cfg
  let t := s.holder n
  match e.rx.window with
  | none => s
  | some w =>
    if e.rx.use != 3 || e.rx.useCc.isSome || !(s.farInDomain n) || !(s.canSign t) then s
    else
      let prof := c.chooseH w.2
      let s := s.lowSnr n w.2
      if prof = e.rx.prof then (s.modRx n fun r => { r with use := 5 }).snrMeasured n w.2 prof
      else if !(c.profOk prof) then s.firstUseHold n (c.slotsOf prof)
      else
        let hop := ceilDiv e.rx.delay.toNat chamberQ
        let cc := s.earliestFrom (chAdd s.chamber (max 160 (3 * hop + 80))) true
        let tag := s.nextSeq % 2 ^ 32
        let s := s.sendMessage (32 + n) 1 false e.rx.farNode t (s.farBitload n t cc prof)
        if (s.profCapacity n true prof cc).isSome then s.firstUseHold n (c.slotsOf prof)
        else if (s.commitBad cc (some n)).isSome then (s.modRx n fun r => { r with useProf := prof }).firstUseFail n
        else
          let s := s.schedule cc (some { engine := n, farNode := e.rx.farNode, since := s.chamber }) [] [.loading n true prof]
          s.modRx n fun r => { r with useCc := some cc, useProf := prof, useReply := some (tag, true) }

/-- The far end's answer to the first-use BITLOAD_SET: OK arms the commit, a refusal under R65 or R170 ends first use at once, any
other is a failure (R273, R274). -/
def State.firstUseReply (s : State) (n tag status : Nat) : State :=
  let r := (s.eng n).rx
  match r.useReply with
  | none => s
  | some x =>
    if x.1 ≠ tag then s
    else
      let s := s.modRx n fun r => { r with useReply := none }
      if r.useCc.isNone ∨ r.use = 0 ∨ r.use > 3 then s
      else if status = Status.ok.code then
        let s := s.modRx n fun r => { r with use := 4 }
        match r.window with
        | some w => s.snrMeasured n w.2 r.useProf
        | none => s
      else if status = Status.noCapacity.code then s.modRx n fun r => { r with use := 6, useCc := none }
      else s.firstUseFail n

end Sys2Proof.Machine
end

