-- ==== Sys2Proof/Machine/Messages.lean ====
section
/-!
DEFINITION. Received domain messages (11_timing.md, R414 to R416).
-/
namespace Sys2Proof.Machine

/-- DOMAIN_AUTH_FAIL (Table 11.13). -/
def State.msgAuthFail (s : State) (input src tenant cause : Nat) : State :=
  s.raise islTime .domainAuthFail input (le 2 src ++ le 2 tenant ++ le 1 cause)

/-- Why a message is discarded (R414): 1 tag, 2 replay, 3 no key. -/
def State.messageBad (s : State) (input : Nat) (m : List Byte) : Option Nat :=
  let tenant := fld m 6 2
  let n := m.length - 16
  let auth := if s.hasCipher then
      (match s.mgmtKey tenant with | none => some 3 | some k => if cmac k (m.take n) = m.drop n then none else some 1)
    else none
  match auth with
  | some c => some c
  | none => match s.tim.lastSeq.find? fun x => x.1 == (fld m 2 2, tenant, input) with
    | some x => if fld m 8 8 ≤ x.2 then some 2 else none
    | none => none

/-- A TYPE 1 message: its packet waits as a command of its tenant, unless its header names another (R415). -/
def State.takeCommand (s : State) (input src tenant : Nat) (broadcast : Bool) (body : List Byte) : State :=
  if fld body 4 2 ≠ tenant then s else s.receive (.domain input src broadcast) none true body

/-- A TYPE 2 message ends the relay whose command it answers, or answers the first-use BITLOAD_SET (R273, R419). -/
def State.takeResponse (s : State) (input src tenant : Nat) (body : List Byte) : State :=
  let tag := fld body 8 4
  match s.runningJobs.find? fun j => j.finish.isNone && j.tenant == tenant &&
      (match j.work with | .relay _ t node => t == tag && node == src | _ => false) with
  | some j => s.finishJob j.token .ok body
  | none => if 32 ≤ input && (s.eng (input - 32)).rx.farNode == src then s.firstUseReply (input - 32) tag (fld body 16 1) else s

/-- A TYPE 3 message gives its input a QL, STEPS_REMOVED and SOURCE_NODE; the recovered clock of an engine takes its QL too (R394,
R413). -/
def State.takeStatus (s : State) (input : Nat) (body : List Byte) : State :=
  let ql := fld body 0 1 % 16
  let s := (s.modInput input fun x => { x with rxSteps := fld body 1 1, rxSource := fld body 2 2 }).receiveQl input ql
  if 32 ≤ input then s.receiveQl (input - 16) ql else s

/-- DOMAIN_MESSAGE_RECEIVE: the oldest whole message. A content shorter than Table 11.9's fixed part is no message. -/
def State.domainReceive (s : State) : State :=
  match s.tim.inbox with
  | [] => s
  | (input, m) :: rest =>
    let s := s.modTim fun t => { t with inbox := rest }
    let broadcast := bitAt (fld m 1 1) 0
    let src := fld m 2 2
    let tenant := fld m 6 2
    if m.length < 32 ∨ (!broadcast && fld m 4 2 != s.node) = true then s
    else match s.messageBad input m with
      | some c =>
        let s := s.modTim fun t =>
          if c = 2 then { t with replays := t.replays + 1 } else { t with authFails := t.authFails + 1 }
        s.msgAuthFail input src tenant c
      | none =>
        let key := (src, tenant, input)
        let s := s.modTim fun t => { t with
          msgRx := t.msgRx + 1, lastSeq := (key, fld m 8 8) :: t.lastSeq.filter fun x => x.1 != key }
        let s := if s.tim.joined && bitAt (fld m 1 1) 1 && src == s.node then s.raise islTime .domainNodeClash input (le 2 src) else s
        let body := (m.drop 16).take (m.length - 32)
        match fld m 0 1 with
        | 1 => s.takeCommand input src tenant broadcast body
        | 2 => s.takeResponse input src tenant body
        | 3 => if tenant = 0 ∧ body.length = 16 then s.takeStatus input body else s
        | _ => s

end Sys2Proof.Machine
end

