-- ==== Sys2Proof/Machine/Bursts.lean ====
section
/-!
DEFINITION. The burst of a leaf (R299 to R304): its information bits, its codewords and its symbols.
-/
namespace Sys2Proof.Machine

/-- The sync word of a burst (R300). -/
def syncWord : Nat := 0x9E4B37A2C50F681D

/-- How many of the 64 combined decisions of a sync differ from the sync word (R308). -/
def syncErrors (decisions : Nat) : Nat := (indices 64 fun i => decisions.testBit i != syncWord.testBit i).length

/-- The information bits of a data burst of I_b bits (R301): TRAIL map and tile bits, padded to whole words, the management bytes, the
blocks in tiles, zeros. -/
def burstLayout (ib : Nat) (trails : List Nat) (mgmt : List Byte) (blocks : List Block) : Bits :=
  let tiles := tilesOf blocks
  let map := (Bits.ofFields 16 trails).append (Bits.ofFields 1 (tiles.map fun t => if t.1 then 1 else 0))
  (((map.padTo (ceilDiv map.len 64 * 64)).append (Bits.ofFields 8 (mgmt.map fun b => b.toNat))).append
    (Bits.ofFields 64 (tiles.flatMap fun t => t.2))).padTo ib

/-- Coded bits of codeword i of a burst (R301). -/
def burstWordBits (code nw k i : Nat) : Nat :=
  let g := burstBits nw k
  let c := burstWords code nw k
  g * (i + 1) / c - g * i / c

/-- The codewords of a burst one after another. A codeword is shortened by leading information bits, which are zero and are not sent
(R301). -/
def burstCoded (code nw k : Nat) (info : Bits) : Bits :=
  ((List.range (burstWords code nw k)).foldl
    (fun (acc : Bits × Nat) i =>
      let n := burstWordBits code nw k i - (codeN code - codeK code)
      let part := info.slice acc.2 n
      ((acc.1.append part).append { len := codeN code - codeK code, val := Config.parity code part.val % 2 ^ (codeN code - codeK code) },
       acc.2 + n))
    ({}, 0)).1

/-- BPSK symbols of a number's bits, the most significant of `n` first (R300). -/
def bpsk (n x : Nat) : List Cx := (List.range n).map fun i => ⟨if x.testBit (n - 1 - i) then -1 else 1, 0⟩

/-- Consecutive pilots of a generator, and its register behind them (R203). -/
def pilotRun : Nat → Nat → List Cx × Nat
  | 0, r => ([], r)
  | n + 1, r =>
    let p := pilot r
    let rest := pilotRun n p.2
    (p.1 :: rest.1, rest.2)

/-- The data symbols of a burst's payload on one polarisation (R300): its shaping frames at the subcarrier's entropy, then zeros. -/
def burstData (nw k pol : Nat) (coded : Bits) : List Cx :=
  let n := 63 * blockCount nw
  let pts := (List.range (n / 64)).flatMap fun j => (shape k (coded.slice (8 * k * j + 4 * k * pol) (4 * k))).map (scaled k)
  pts ++ List.replicate (n - pts.length) Cx.zero

/-- The symbols of a burst on one polarisation of a subcarrier, in order (Table 8.3, R235, R300): ramp, sync word, training, header and
payload, and a guard of `guard` symbols that carries the mirrored ramp. The generator starts anew at the first training symbol. A ranging
burst has no payload data. -/
def burstSymbols (sub pol header guard : Nat) (payload : Option (Nat × List Cx)) : List Cx :=
  let train := pilotRun 128 (Nat.xor 0x7FFF (2 * sub + pol))
  let body := match payload with
    | some (blocks, data) => (symBlocks sub pol blocks data train.2).1.flatMap SymBlock.symbols
    | none => []
  let one : Cx := ⟨1, 0⟩
  let all := List.replicate 32 one ++ bpsk 64 syncWord ++ train.1 ++ bpsk 48 header ++ body
  ((List.range (all.length + guard)).zip (all ++ List.replicate guard one)).map fun x => Cx.scale (burstScale all.length guard x.1) x.2

/-- The symbols of a ranging burst of 336 symbols (R313). -/
def rangingSymbols (sub pol header : Nat) : List Cx := burstSymbols sub pol header 64 none

/-- The symbols of a data burst (R299). -/
def dataSymbols (code nw k sub pol header : Nat) (info : Bits) : List Cx :=
  let blocks := blockCount nw
  burstSymbols sub pol header (nw - 272 - 64 * blocks) (some (blocks, burstData nw k pol (burstCoded code nw k info)))

/-! Reading a burst (R310). -/

/-- The information bits of a burst that lie in uncorrectable codewords. -/
def burstLost (code nw k : Nat) (bad : List Bool) : List (Nat × Nat) :=
  ((List.range bad.length).zip bad).filterMap fun x =>
    let len := fun i => burstWordBits code nw k i - (codeN code - codeK code)
    if x.2 then some (hSum ((List.range x.1).map len), len x.1) else none

/-- What the information bits of a burst with m slots hold: the TRAIL entries and management bytes, none where lost, the blocks, and how
many tiles were decode errors. -/
structure BurstData where
  trails : List (Option Nat)
  mgmt   : List (Option Byte)
  blocks : List Block
  badTiles : Nat
  deriving DecidableEq, Repr

/-- Read the information bits of a burst with m slots (R301, R176, R181, R185, R190). -/
def readBurst (b : Bits) (lost : List (Nat × Nat)) (m : Nat) : BurstData :=
  let mapBits := ceilDiv (16 * m + tileCount m) 64 * 64
  let base := mapBits + 256
  let tiles := (List.range (tileCount m)).map fun t =>
    let n := min 8 (100 * m - 8 * t)
    let ws := b.fields (base + 512 * t) 64 n
    let bitLost := lostIn lost (16 * m + t) 1
    let one := b.field (16 * m + t) 1 == 1
    let gone := (List.range n).map fun k => lostIn lost (base + 512 * t + 64 * k) 64
    (blocksOfTile bitLost one gone ws, !bitLost && (wordBlocks one ws).isNone)
  { trails := (List.range m).map fun j => if lostIn lost (16 * j) 16 then none else some (b.field (16 * j) 16)
    mgmt := (List.range 32).map fun i => if lostIn lost (mapBits + 8 * i) 8 then none else some (BitVec.ofNat 8 (b.field (mapBits + 8 * i) 8))
    blocks := tiles.flatMap Prod.fst
    badTiles := (tiles.filter Prod.snd).length }

end Sys2Proof.Machine
end

