-- ==== Sys2Proof/Machine/Multi.lean ====
section
/-!
DEFINITION. Multipoint operation (08_multipoint.md): MULTIPOINT_CONFIG, LEAF_PROFILE_SET, the hub's burst receiver and the leaf's
bursts.
-/
namespace Sys2Proof.Machine

/-- Change a leaf profile of a hub. -/
def State.modProf (s : State) (n leaf : Nat) (f : LeafProf → LeafProf) : State :=
  s.modMp n fun m => { m with profs := tupd m.profs leaf {} f }

/-- Raise a multipoint event (R320). -/
def State.raiseLeaf (s : State) (n leaf : Nat) (e : Ev) (body : List Byte) : State := s.raise (islEng n) e n (le 1 leaf ++ body)

/-- Add one to a hub burst counter (Table 8.9), which follows the receive group of Table 7.9. -/
def State.hubCount (s : State) (n k : Nat) : State := s.bump (engUnit n 1) 0 (40 + k) 1

/-! MULTIPOINT_CONFIG (R287 to R291). -/

/-- The advance that a leaf keeps: 0 to 5 ms (R312). -/
def clampAdvance (x : Int) : Int := max 0 (min 5000000000 x)

/-- ADVANCE_PS and STATE after the command. -/
def State.mpReply (s : State) (n : Nat) : List Byte :=
  let m := (s.eng n).mp
  okay4 ++ le 1 (if m.role = 2 then m.leafSt else 0) ++ zeros 3 ++ leS 8 (if m.role = 2 then m.advance else 0)

/-- Leaf timing (R313 to R315): TIMING 1 activates a leaf that ranges, TIMING 2 ranges it again from the measured delay; DELTA_PS is
then added to A. -/
def Multi.retime (m : Multi) (timing : Nat) (delta : Int) : Multi :=
  let m := if timing = 1 ∧ m.leafSt = 1 then { m with leafSt := 2 }
    else if timing = 2 ∧ m.leafSt ≠ 0 then { m with leafSt := 1, advance := m.mDown, offer := none } else m
  { m with advance := clampAdvance (m.advance + delta) }

/-- The thresholds SYNC_ERRORS, CAPTURE_MARGIN and LOSS_COUNT that hold in a window that begins at a domain time: ACTION 2 takes effect from
the next window (R290). -/
def Multi.limits (m : Multi) (t : Nat) : Nat × Nat × Nat := if t < m.limitsAt then m.oldLimits else (m.syncErr, m.capture, m.loss)

/-- The domain time at which the next window begins (R292): windows last 160 ns. -/
def State.nextWindow (s : State) : Nat :=
  let start := s.nextBoundary - chamberQ
  start + ((s.now - start) / 640 + 1) * 640

/-- An engine that becomes a hub has all its 128 profiles written DISABLED, 2 MiB of whole blocks in LPDDR6 (R289, R317). The layout of a
profile's bytes is not stated: a DISABLED one is zero (DESIGN CHOICE, assumption 88), and what the profiles hold stands in `Multi.profs`. -/
def State.clearProfiles (s : State) (n : Nat) : State :=
  let first := (0x38000000 + n * 2 ^ 21) / 4096
  s.modInst (dataKey 0x0C00 0) fun m => m.fillZero 4096 first (first + 512)

/-- MULTIPOINT_CONFIG. -/
def State.cmdMultipointConfig (s : State) (q : Request) : State :=
  let n := q.u 0 1
  let act := q.u 1 1
  let role := q.u 2 1
  let e := s.eng n
  let badAct := match act with
    | 1 => role > 2 || (if role = 2 then q.u 3 1 > 127 else !(q.rsv 3 3))
    | 2 => !(q.rsv 2 4) || q.u 6 1 > 15 || q.u 7 1 < 10 || q.u 7 1 > 200 || q.u 8 1 < 1 || q.u 8 1 > 64
    | 3 => !(q.rsv 2 4) || q.u 9 1 > 2 || !(within (q.i 12 4) 1000000)
    | _ => true
  s.serve 0x0208 q 16 (q.len == 16)
    [.bad (decide (n > 7) || badAct || !(q.rsv 10 2)) .badParam 0, .lit [engIsland n], s.onlyManager q n,
     .bad (act == 1 && role != 0 && (e.cfg.mode == 2 || e.cfg.windowLen.isNone)) .badParam 0,
     .bad (act == 1 && e.tx.enabled) .notIdle 0,
     .bad ((act == 2 && e.mp.role != 1) || (act == 3 && e.mp.role != 2)) .notReady 0,
     .bad (act == 1 && role == 1 && !s.lpReady) .noResource 0]
    fun s =>
      let s := match act with
        | 1 => s.modMp n fun m =>
          { role := role, leafId := if role = 2 then q.u 3 1 else 0, hubNode := if role = 2 then q.u 4 2 else 0
            syncErr := m.syncErr, capture := m.capture, loss := m.loss, oldLimits := m.oldLimits, limitsAt := m.limitsAt }
        | 2 => s.modMp n fun m => { m with
            oldLimits := m.limits s.now, limitsAt := s.nextWindow, syncErr := q.u 6 1, capture := q.u 7 1, loss := q.u 8 1 }
        | _ => s.modMp n fun m => m.retime (q.u 9 1) (q.i 12 4)
      let s := if act = 1 then s.syncTimeWords else s
      let s := if act = 1 ∧ role = 1 then (s.clearProfiles n).modRx n fun r => { r with cdSets := (0, 0), oldSet := none, dEst := none, outSpan := false } else s
      (s, some (s.mpReply n))

/-! LEAF_PROFILE_SET (R294 to R297, R317, R318). -/

/-- Do two window steps of a list apply in a common chamber to the same subcarrier and window (R293)? -/
def wordsMeet : List StepWord → Bool
  | [] => false
  | w :: ws => (ws.any fun x => windowsMeet w x) || wordsMeet ws

/-- Would a change at a chamber let two window steps of an engine meet, in the image there or in that of a commit scheduled later (R293)? -/
def State.windowsClash (s : State) (n cc : Nat) (x : FwChange) : Bool :=
  let s := s.schedule cc none [] [x]
  s.tab.commits.any fun c => chReached c.cc cc && wordsMeet (tgetD (s.imageAt c.cc) (islEng n) {}).words

/-- The slots that the passages of a leaf carrier reach. -/
def State.leafHeld (s : State) (n leaf : Nat) : Nat :=
  (tvals s.pas).foldl
    (fun m p => p.legs.foldl
      (fun m l => if l.2.kind == 3 && l.2.index == n && s.leafCarrier l.2 l.1 == some leaf then max m (l.2.first + p.slots) else m) m)
    0

/-- The read response (Table 8.7). -/
def State.profReply (s : State) (n leaf : Nat) : List Byte :=
  let m := (s.eng n).mp
  let p := s.leafProf n leaf
  let slots := (s.eng n).cfg.leafSlots p.windows p.periodLog p.hMin
  if m.role = 2 then
    okay4.take 2 ++ le 1 m.leafSt ++ le 1 m.leafH ++ le 2 slots ++ le 2 m.hubNode ++ le 8 m.leafCh ++ leS 8 m.advance ++ zeros 16 ++
      le 8 m.sent.toNat ++ zeros 16
  else
    let n16 := max 1 p.deltas.length
    okay4.take 2 ++ le 1 p.st ++ le 1 p.hLast ++ le 2 slots ++ le 2 p.node ++ le 8 p.lastCh ++
      leS 8 (roundDiv (p.deltas.foldl (· + ·) 0) (n16 : Int)) ++ le 2 p.snr ++ leS 2 p.power ++ leS 4 p.cd ++ leS 2 p.freq ++ zeros 6 ++
      le 8 p.ok.toNat ++ le 8 p.missed.toNat ++ le 8 p.uncorr.toNat

/-- Forget what bursts taught (R317). -/
def LeafProf.forget (p : LeafProf) : LeafProf :=
  { p with cd := 0, freq := 0, power := 0, snr := 0, phase := 0, taps := [], deltas := [] }

/-- LEAF_PROFILE_SET. On a leaf without a transmit profile the entropy of a subcarrier is taken as 0, so windows are refused with
NO_CAPACITY 1 (DESIGN CHOICE, assumption 82). -/
def State.cmdLeafProfileSet (s : State) (q : Request) : State :=
  let n := q.u 0 1
  let leaf := q.u 1 1
  let act := q.u 2 1
  let pl := q.u 3 1
  let off := q.u 4 2
  let cc := q.ch 8
  let wins := profileAt q 16 16
  let hMin := q.u 38 1
  let e := s.eng n
  let role := e.mp.role
  let change : FwChange := .windows n leaf wins pl off hMin (q.u 6 2)
  let bad := decide (n > 7) || leaf > 127 || act < 1 || act > 4 || !(q.rsv 14 2) || !(q.rsv 39 1) ||
    (act == 1 && (pl > 10 || decide (off ≥ 2 ^ pl) || cc == 0 || hMin < 32 || hMin > 96)) || (act != 1 && !(q.rsv 6 2)) ||
    (act == 2 && !(within (q.i 36 2) 5000))
  let bad5 := (role == 2 && (leaf != e.mp.leafId || (act == 1 && !(q.rsv 6 2)))) || (act == 2 && !(within (q.i 32 4) e.cfg.dspan)) ||
    (act == 1 && ((wins.drop e.cfg.subs).any (fun b => b != 0) || s.windowsClash n cc change))
  let slots := e.cfg.leafSlots wins pl hMin
  let low := s.lowAfter n cc change
  let sched := match s.commitBad cc none with
    | some x => some x
    | none => if s.leafLate n cc then some (.notReady, 2) else none
  let set := act == 1
  s.serve 0x0209 q (if act = 4 then 64 else 16) (q.len == 40)
    [.bad bad .badParam 0, .lit [engIsland n], s.onlyManager q n,
     .bad (role == 0 || ((act == 2 || act == 3) && role != 1)) .notReady 0, .bad bad5 .badParam 0,
     .bad (set && (decide (slots < s.leafHeld n leaf) || low)) .noCapacity 1,
     .bad (set && (match sched with | some (.notReady, _) => true | _ => false)) .notReady ((sched.map Prod.snd).getD 0),
     .bad (set && sched.isSome) .noResource ((sched.map Prod.snd).getD 0)]
    fun s =>
      let done := fun (s : State) (slots cc : Nat) => (s, some (okay4 ++ le 2 slots ++ zeros 2 ++ le 8 cc))
      match act with
      | 1 => done (s.schedule cc none [] [change]) slots cc
      | 2 => done (s.modProf n leaf fun p => { p with cd := q.i 32 4, freq := q.i 36 2 }) (s.leafSize n leaf) 0
      | 3 => done (s.modProf n leaf LeafProf.forget) (s.leafSize n leaf) 0
      | _ => (s, some (s.profReply n leaf))

/-! Bursts at the hub (R308 to R311). -/

/-- The leaf to which HUB_WINDOW gives a window (R293). -/
def State.windowLeaf (s : State) (n sub w ch : Nat) : Option Nat :=
  ((s.timedWords (islEng n) ch).find? fun x => wAction x == 0x25 && wop x 60 4 == sub && wSlot x == w).map fun x => wop x 53 7

/-- Change or end a reception. -/
def State.setRecv (s : State) (n sub : Nat) (r : Option Recept) : State :=
  s.modMp n fun m => { m with recv := match r with | some r => tput m.recv sub r | none => tdel m.recv sub }

/-- The domain time at which a window of a chamber begins at the hub's pins (R292). -/
def State.windowStart (s : State) (ch w : Nat) : Nat := (s.chamberStart ch + 640 * (w : Int)).toNat

/-- BURST_OVERLAP (R309). -/
def State.overlap (s : State) (n sub : Nat) (r : Recept) (power : Int) : State :=
  (s.hubCount n 5).raiseLeaf n ((s.windowLeaf n sub r.window r.chamber).getD 0xFF) .burstOverlap
    (le 1 r.window ++ le 1 sub ++ leS 2 (power - r.power))

/-- The chamber and the window in which a sync's burst began: its first symbol came 32 symbols before the sync, which reached the pins at a
domain time in ps (R292, R308). -/
def State.syncPlace (s : State) (n at_ : Nat) : Nat × Nat :=
  let c := (s.eng n).cfg
  let first := at_ - 320000 * c.subs / max 1 c.symRate
  let ch := chamberOf s.epoch (first / 250)
  (ch, (((first : Int) - s.chamberStart ch * 250) / 160000).toNat)

/-- Does a subcarrier hold a scheduled window in a chamber, so that the correlator examines it (R308)? -/
def State.examined (s : State) (n sub ch : Nat) : Bool :=
  (s.timedWords (islEng n) ch).any fun x => wAction x == 0x25 && wop x 60 4 == sub

/-- BURST_SYNC: 64 combined decisions at a place of a subcarrier, with their power in 0.1 dB; `at_` is the arrival of the first of them in
domain time, in ps. The correlator accepts at most SYNC_ERRORS of them wrong (R308, R309). A candidate that a TENTATIVE reception holds is
dropped when a stronger sync captures that reception (DESIGN CHOICE, assumption 82). -/
def State.burstSync (s : State) (n sub at_ decisions : Nat) (power : Int) : State :=
  let m := (s.eng n).mp
  let ch := (s.syncPlace n at_).1
  let w := (s.syncPlace n at_).2
  let lim := m.limits (s.windowStart ch w)
  if m.role != 1 || !(s.eng n).tx.runs || !(s.examined n sub ch) || decide (syncErrors decisions > lim.1) then s
  else if (s.windowLeaf n sub w ch).isNone then s.hubCount n 7
  else match tget m.recv sub with
    | none => s.setRecv n sub (some { window := w, chamber := ch, power := power })
    | some r =>
      if decide (power ≥ r.power + lim.2.1) then
        s.setRecv n sub (some { window := w, chamber := ch, power := power, captured := some (if r.confirmed then r.leaf else 0xFF, power - r.power) })
      else if r.confirmed then s.overlap n sub r power
      else
        let better := match r.cand with | some c => decide (power > c.2.2) | none => true
        if better then s.setRecv n sub (some { r with cand := some (ch, w, power) }) else s

/-- The header CRC (Table 8.4). -/
def burstCrc (h : Nat) : Nat := crc16 (be 4 (h / 65536 % 2 ^ 32))

/-- COLLISION_CAPTURED once the captured burst's header was checked (R309). -/
def State.captureEvent (s : State) (n sub : Nat) (r : Recept) : State :=
  match r.captured with
  | none => s
  | some (old, diff) =>
    (s.hubCount n 4).raiseLeaf n ((s.windowLeaf n sub r.window r.chamber).getD 0xFF) .collisionCaptured
      (le 1 r.window ++ le 1 sub ++ le 1 r.leaf ++ le 1 old ++ leS 2 diff)

/-- BURST_HEADER: the header of a TENTATIVE reception is in (R309). -/
def State.burstHeader (s : State) (n sub header : Nat) : State :=
  match tget (s.eng n).mp.recv sub with
  | none => s
  | some r =>
    if r.confirmed then s
    else if burstCrc header = header % 65536 then
      let s := match r.cand with | some c => s.overlap n sub r c.2.2 | none => s
      let r := { r with confirmed := true, leaf := bitsAt header 41 7, header := header, cand := none }
      (s.setRecv n sub (some r)).captureEvent n sub r
    else
      let s := (s.hubCount n 3).captureEvent n sub r
      s.setRecv n sub (r.cand.map fun c => { window := c.2.1, chamber := c.1, power := c.2.2 })

/-- Is |x| ps above `k` symbols (times `len`) of an engine? -/
def EngCfg.above (c : EngCfg) (x : Int) (k len : Nat) : Bool := decide (x.natAbs * c.symRate > k * len * 10000 * c.subs)

/-- Send a leaf MULTIPOINT_CONFIG ACTION 3 (R311, R314, R315). The leaf's engine number is a free value: no rule tells it to the hub
(assumption 3). -/
def State.sendTiming (s : State) (n leaf timing : Nat) (delta : Int) : State :=
  let t := s.holder n
  let node := (s.leafProf n leaf).node
  let x := s.free
  let s := x.2
  let body := le 1 (x.1 % 8) ++ le 1 3 ++ zeros 7 ++ le 1 timing ++ zeros 2 ++ leS 4 (max (-1000000) (min 1000000 delta))
  s.sendMessage (32 + n) 1 false node t (packet 0x0208 t (BitVec.ofNat 32 s.nextSeq) body)

/-- The state of a leaf that a confirmed burst on a subcarrier writes back (R314, R317); its dispersion is compensated within ±D_SPAN
(R307). -/
def State.learn (s : State) (n leaf sub : Nat) (r : Recept) (b : Burst) : State :=
  let c := (s.eng n).cfg
  s.modProf n leaf fun p => { p with
    deltas := (b.delta :: p.deltas).take 16, snr := b.snr, cd := c.clampCd b.cd, freq := b.freq, power := r.power
    phase := b.phase, taps := match b.taps with | some t => tput p.taps sub t | none => p.taps
    hLast := bitsAt r.header 23 7, lastCh := r.chamber }

/-- The hub corrects a leaf whose bursts stray, at most once in 16 chambers (R314). -/
def State.correct (s : State) (n leaf : Nat) (delta : Int) : State :=
  let c := (s.eng n).cfg
  let p := s.leafProf n leaf
  let mean := c.above (p.deltas.foldl (· + ·) 0) 2 p.deltas.length
  let quiet := match p.msgAt with | some a => decide (chAhead s.chamber a < 16) | none => false
  if (mean || c.above delta 8 1) && !quiet then
    (s.sendTiming n leaf 0 delta).modProf n leaf fun p => { p with msgAt := some s.chamber }
  else s

/-- A window of a chamber passed R310: mark it. -/
def State.windowGot (s : State) (n leaf ch idx : Nat) : State :=
  s.modProf n leaf fun p =>
    let p := if p.seenCh = ch then p else { p with seenCh := ch, got := [], lost := [], trails := [] }
    { p with got := if p.got.contains idx then p.got else p.got ++ [idx], missRun := 0 }

/-- Windows that HUB_WINDOW gives a leaf in a chamber. -/
def State.windowsIn (s : State) (n leaf ch : Nat) : Nat :=
  ((s.timedWords (islEng n) ch).filter fun x => wAction x == 0x25 && wop x 53 7 == leaf).length

/-- The number j of a window of a leaf (R304). -/
def LeafProf.rank (p : LeafProf) (sub w : Nat) : Nat :=
  (indices (8 * sub + w) fun i => bitAt ((p.windows[i / 8]?).getD 0) (i % 8)).length

/-- m_w of a leaf profile (R295, R301). -/
def EngCfg.perWindow (c : EngCfg) (hMin : Nat) : Nat := match c.windowLen with | some nw => windowSlots c.code nw hMin | none => 0

/-- The TRAIL entries received so far meet the passages of a leaf carrier (R51). -/
def State.leafTrails (s : State) (n leaf : Nat) : State :=
  let seen := (s.leafProf n leaf).trails
  (tkeys s.pas).foldl
    (fun (s : State) id => match tget s.pas id with
      | none => s
      | some p =>
        if p.st != 2 || p.ing.kind != 3 || p.ing.index != n || s.leafCarrier p.ing false != some leaf then s
        else
          let got := (List.range p.slots).map fun k => tget seen (p.ing.first + k)
          match got.find? fun t => match t with | some t => t != p.trail | none => false with
          | some (some t) => s.trail id false (.other t)
          | _ => if got.all fun t => t.isSome then s.trail id false .all else s)
    s

/-- A leaf's management bytes arrive (R302). -/
def State.leafMgmt (s : State) (n leaf : Nat) (bytes : List (Option Byte)) : State :=
  let m := (s.leafProf n leaf).mgmtBuf ++ bytes
  let x := hunt (m.length + 1) m
  let s := (s.modProf n leaf fun p => { p with mgmtBuf := x.2.2 }).bump (engUnit n 3) 0 6 x.1.length
  (s.bump (engUnit n 3) 0 7 x.2.1).modTim fun t => { t with inbox := t.inbox ++ x.1.map fun c => (32 + n, c) }

/-- The slot of a leaf carrier at which a window's slots begin, and how many it has (R304). -/
def EngCfg.windowRun (c : EngCfg) (p : LeafProf) (sub w : Nat) : Nat × Nat :=
  let m := if p.periodLog = 0 then c.perWindow p.hMin else 0
  (p.rank sub w * m, m)

/-- A slot of a leaf carrier at the hub. -/
def State.leafSlot (s : State) (n leaf slot : Nat) : SlotAt :=
  { kind := 3, index := n, sub := winMask (s.leafProf n leaf).windows, leaf := leaf, slot := slot }

/-- The blocks of a window's slots, row by row, or none for a window that was missed (R54, R304, R311). -/
def State.leafBlocks (s : State) (n leaf sub w ch : Nat) (blocks : Option (List Block)) : State :=
  let run := (s.eng n).cfg.windowRun (s.leafProf n leaf) sub w
  (List.range (100 * run.2)).foldl
    (fun (s : State) k =>
      s.burstBlock (s.leafSlot n leaf (run.1 + k % max 1 run.2)) (blocks.map fun l => (l[k]?).getD Block.error) ch (k / max 1 run.2)
        (s.windowStart ch w))
    s

/-- The FEC group counts a burst's codewords (R319). -/
def State.burstFec (s : State) (n leaf : Nat) (b : Burst) : State :=
  b.words.foldl
    (fun (s : State) x =>
      let s := s.bump (engUnit n 2) 0 0 1
      let s := if 1 ≤ x.2.2 ∧ x.2.2 ≤ 16 then s.bump (engUnit n 2) 0 (2 + x.2.2) 1 else s
      if x.1 then (s.bump (engUnit n 2) 0 1 1).modProf n leaf fun p => { p with uncorr := p.uncorr + 1 } else s.bump (engUnit n 2) 0 2 x.2.1)
    s

/-- A data burst of an ACTIVE leaf: its blocks and TRAIL entries enter the leaf carrier (R310). Substitution ends with the first chamber in
which every window was received (R87, R311). -/
def State.takeBurst (s : State) (n leaf sub : Nat) (r : Recept) (b : Burst) : State :=
  let c := (s.eng n).cfg
  let run := c.windowRun (s.leafProf n leaf) sub r.window
  let d := readBurst b.info (burstLost c.code (c.windowLen.getD 0) (bitsAt r.header 23 7) (b.words.map fun w => w.1)) run.2
  let s := ((s.hubCount n 0).burstFec n leaf b).leafMgmt n leaf d.mgmt
  let s := (s.bump (engUnit n 3) 0 2 d.badTiles).windowGot n leaf r.chamber (8 * sub + r.window)
  let s := s.modProf n leaf fun p => { p with
    ok := p.ok + 1, ranging := 0
    trails := ((List.range d.trails.length).zip d.trails).foldl (fun t x => match x.2 with | some v => tput t (run.1 + x.1) v | none => t) p.trails }
  let whole := decide ((s.leafProf n leaf).got.length ≥ s.windowsIn n leaf r.chamber)
  let s := if whole then s.modProf n leaf fun p => { p with down := false, chBad := false } else s
  ((s.leafTrails n leaf).resignal).leafBlocks n leaf sub r.window r.chamber (some d.blocks)

/-- A confirmed ranging burst of a leaf, in whichever window (R314, R315). -/
def State.rangeBurst (s : State) (n leaf : Nat) (b : Burst) : State :=
  let p := s.leafProf n leaf
  if p.st = 2 then (s.modProf n leaf fun p => { p with st := 1, ranging := 1, down := true }).resignal
  else
    let k := p.ranging + 1
    let s := s.modProf n leaf fun p => { p with ranging := k }
    if k ≥ 16 && !((s.eng n).cfg.above b.delta 4 1) then
      let s := s.modProf n leaf fun p => { p with st := 2, ranging := 0, got := [] }
      (s.raiseLeaf n leaf .leafRanged (leS 4 b.delta)).sendTiming n leaf 1 0
    else s

/-- BURST_DECODE: the payload of a confirmed burst is in (R310, R314, R315, R317). -/
def State.burstDecode (s : State) (n sub : Nat) (b : Burst) : State :=
  match tget (s.eng n).mp.recv sub with
  | none => s
  | some r =>
    if !r.confirmed then s
    else
      let s := s.setRecv n sub none
      let h := r.header
      let from_ := bitsAt h 41 7
      let ranging := bitAt h 21
      let st := (s.leafProf n from_).st
      let s := if ranging then s.hubCount n 1 else s
      let s := if st = 0 then s else (s.learn n from_ sub r b).correct n from_ b.delta
      let s := if st = 2 && (s.eng n).cfg.above b.delta 16 1 then s.raiseLeaf n from_ .leafOutOfTime (leS 4 b.delta) else s
      let s := if ranging && st != 0 then s.rangeBurst n from_ b else s
      match s.windowLeaf n sub r.window r.chamber with
      | none => s
      | some leaf =>
        if from_ ≠ leaf ∨ bitsAt h 38 3 ≠ r.window ∨ bitsAt h 30 4 ≠ sub then
          (s.hubCount n 6).raiseLeaf n leaf .burstLeafMismatch
            (le 1 r.window ++ le 1 sub ++ le 1 from_ ++ le 1 (bitsAt h 38 3) ++ le 1 (bitsAt h 30 4))
        else if bitsAt h 34 4 ≠ r.chamber % 16 then
          ((s.hubCount n 6).modProf n leaf fun p => { p with chBad := true }).resignal
        else if st = 0 then s
        else if ranging then s.windowGot n leaf r.chamber (8 * sub + r.window)
        else if bitsAt h 23 7 < (s.leafProf n leaf).hMin then
          (s.hubCount n 6).raiseLeaf n leaf .leafHLow (le 1 (bitsAt h 23 7) ++ le 1 (s.leafProf n leaf).hMin)
        else if st = 2 then s.takeBurst n leaf sub r b
        else s.modProf n leaf fun p => { p with ranging := 0 }

/-- WINDOW_MISSED: a window of a chamber in which no burst of its leaf passed R310; `profBad` says that its profile read met an
uncorrectable error (R311, R317). A leaf that ranges is not lost again. -/
def State.windowMissed (s : State) (n sub w ch : Nat) (profBad : Bool) : State :=
  match s.windowLeaf n sub w ch with
  | none => s
  | some leaf =>
    let p := s.leafProf n leaf
    let idx := 8 * sub + w
    let known := p.seenCh == ch && (p.got.contains idx || p.lost.contains idx)
    if (s.eng n).mp.role != 1 || p.st = 0 || known || !(chReached s.chamber ch) || chLater p.seenCh ch then s
    else
      let s := (s.hubCount n 2).leafBlocks n leaf sub w ch none
      let s := s.modProf n leaf fun p =>
        let p := if p.seenCh = ch then p else { p with seenCh := ch, got := [], lost := [], trails := [] }
        let p := if profBad then p.forget else p
        { p with lost := p.lost ++ [idx], missed := p.missed + 1, missRun := p.missRun + 1, ranging := if p.lastCh = ch then p.ranging else 0 }
      let p := s.leafProf n leaf
      if p.st = 2 ∧ p.missRun ≥ ((s.eng n).mp.limits (s.windowStart ch w)).2.2 then
        let s := s.raiseLeaf n leaf .leafLost (le 4 p.missRun)
        let s := (s.modProf n leaf fun p => { p with st := 1, ranging := 0, down := true }).resignal
        s.sendTiming n leaf 2 0
      else s

/-! Bursts of a leaf (R299 to R304, R312, R313). -/

/-- The windows of a subcarrier in which LEAF_WINDOW lets a leaf send in a chamber. -/
def State.leafWindows (s : State) (n sub ch : Nat) : List Nat :=
  (List.range 8).filter fun w => (s.timedWords (islEng n) ch).any fun x => wAction x == 0x26 && wop x 60 4 == sub && wSlot x == w

/-- Consecutive windows from the first of a list on. -/
def runLength : List Nat → Nat
  | a :: b :: l => if b = a + 1 then runLength (b :: l) + 1 else 1
  | [_] => 1
  | [] => 0

/-- The header of a burst (Table 8.4). -/
def burstHeaderOf (leaf w ch sub h : Nat) (rdi ranging : Bool) : Nat :=
  let x := leaf * 2 ^ 41 + w * 2 ^ 38 + ch % 16 * 2 ^ 34 + sub * 2 ^ 30 + h * 2 ^ 23 + bit rdi * 2 ^ 22 + bit ranging * 2 ^ 21
  x + burstCrc x

/-- The windows and H_MIN of a leaf in a chamber: its own, with what the commits scheduled up to it bring (R298). -/
def State.ownAt (s : State) (n ch : Nat) : LeafProf :=
  (s.tab.commits.filter fun c => c.swaps && chReached ch c.cc).foldl
    (fun p c => c.changes.foldl
      (fun (p : LeafProf) x => match x with
        | .windows m _ wins pl off hMin _ => if m = n then { p with windows := wins, periodLog := pl, offset := off, hMin := hMin } else p
        | _ => p) p)
    (s.eng n).mp.own

/-- The entropies that a leaf sends with in a chamber (R298). -/
def State.sentProfile (s : State) (n ch : Nat) : List Nat :=
  if s.tab.commits.any fun c => c.swaps && chReached ch c.cc then
    (tgetD (s.banksIn ch) (islEng n) {}).profile n false (s.eng n).cfg
  else (s.eng n).tx.prof

/-- The TRAIL of a slot of a leaf's own carrier in a chamber. -/
def State.leafTrail (s : State) (n leaf slot ch : Nat) : Nat :=
  match (tgetD (s.banksIn ch) (islEng n) {}).words.find? fun w =>
    wAction w == 0x20 && bitAt (wOperand w) 31 && wop w 24 7 == leaf && wSlot w == slot with
  | some w => wop w 32 16
  | none => 0

/-- The blocks of a leaf's window, in the order of R31, with fill where a slot has none (R53, R304). -/
def TxPath.windowBlocks (t : TxPath) (leaf first m : Nat) : List Block :=
  interleave m (fun j => tgetD t.stage (stageKey 0 leaf (first + j)) []) Block.idle


/-- The bursts of a leaf with one more. -/
def Multi.addBurst (m : Multi) (b : SentBurst) : List SentBurst := (b :: m.bursts).take 256

/-- A ranging burst, in the first of a run of windows: it starts half of what the run leaves behind its first symbol (R313). -/
def State.sendRanging (s : State) (n sub w ch : Nat) (run : Nat) (start : Int) : State :=
  let e := s.eng n
  let h := ((s.sentProfile n ch)[sub]?).getD 32
  let late := (run * (e.cfg.windowLen.getD 336) - 336) / 2 * 10000 * e.cfg.subs / max 1 e.cfg.symRate
  let header := burstHeaderOf e.mp.leafId w ch sub h e.rdiNow true
  s.modMp n fun m => { m with
    leafH := h, leafCh := ch, sent := m.sent + 1
    bursts := m.addBurst { sub := sub, window := w, chamber := ch, departs := start + (late : Int), header := header
                           symbols := (rangingSymbols sub 0 header, rangingSymbols sub 1 header) } }

/-- A data burst: map, management, blocks (R299 to R304). -/
def State.sendBurst (s : State) (n sub w ch : Nat) (start : Int) : State :=
  let e := s.eng n
  let c := e.cfg
  let nw := c.windowLen.getD 0
  let h := ((s.sentProfile n ch)[sub]?).getD 32
  let x := sendMgmt 32 e.tx.mgmtQ
  let run := c.windowRun (s.ownAt n ch) sub w
  let header := burstHeaderOf e.mp.leafId w ch sub h e.rdiNow false
  let info := burstLayout (burstInfo c.code nw h) ((List.range run.2).map fun k => s.leafTrail n e.mp.leafId (run.1 + k) ch) x.2.1
    (e.tx.windowBlocks e.mp.leafId run.1 run.2)
  let s := s.modMp n fun m => { m with
    leafH := h, leafCh := ch, sent := m.sent + 1
    bursts := m.addBurst { sub := sub, window := w, chamber := ch, departs := start, header := header, info := info
                           symbols := (dataSymbols c.code nw h sub 0 header info, dataSymbols c.code nw h sub 1 header info) } }
  let s := s.modTx n fun t => { t with
    mgmtQ := x.1, stage := (List.range run.2).foldl (fun st k => tdel st (stageKey 0 e.mp.leafId (run.1 + k))) t.stage }
  (s.bump (engUnit n 0) 0 0 (blockCount nw)).bump (engUnit n 3) 0 5 x.2.2

/-- LEAF_BURST_SEND: the burst of a leaf for a window of a chamber. -/
def State.leafBurstSend (s : State) (n sub w ch : Nat) : State :=
  let e := s.eng n
  let m := e.mp
  let wins := s.leafWindows n sub ch
  let may := m.role == 2 && e.tx.runs && m.leafSt != 0
  let can := e.rx.frame && e.rx.farEpoch == some s.epoch && e.tx.permit
  if !may || !(wins.contains w) then s
  else if !can then s.modMp n fun m => { m with leafSt := 0 }
  else
    let start := s.chamberStart ch * 250 + ((160000 * w : Nat) : Int) - m.advance
    if m.leafSt = 1 then (if wins.head? ≠ some w then s else s.sendRanging n sub w ch (runLength wins) start)
    else s.sendBurst n sub w ch start

end Sys2Proof.Machine
end

