-- ==== Sys2Proof/Machine/General.lean ====
section
/-!
DEFINITION. The commands of class 0x01 that read the device: GET_INFO, GET_VARIANT, JOB_STATUS and ECHO (00_scope.md,
12_commands.md).
-/
namespace Sys2Proof.Machine

/-- The GET_INFO response (Table 12.8). -/
def State.infoReply (s : State) (q : Request) : List Byte :=
  le 1 0 ++ le 1 (s.guide.active.getD 0) ++ le 1 (bit s.guide.standby) ++ le 1 q.tenant ++ le 4 s.fwVersion.toNat ++ le 2 s.node ++
    zeros 2 ++ le 4 s.generation ++ le 8 s.chamber ++ le 4 (satN 4 ((s.mono - s.boot.endedAt) / secQ)) ++
    le 1 s.runningJobs.length ++ zeros 3

/-- GET_INFO (R450). -/
def State.cmdGetInfo (s : State) (q : Request) : State :=
  s.serve 0x0101 q 32 (q.len == 0) [s.anyTenant q] fun s => (s, some (s.infoReply q))

/-- The part number (R5, Table 0.5): all zero while the fuses are not valid. -/
def Variant.partNumber (v : Variant) : List Byte :=
  if v.fuseValid then
    ascii "ZL32" ++ [BitVec.ofNat 8 (48 + v.engineCount / 10), BitVec.ofNat 8 (48 + v.engineCount % 10)] ++
      ascii (if v.cipher then "C" else "N") ++ ascii (if v.bond64 then "2" else "1")
  else zeros 8

/-- The GET_VARIANT response (Table 0.5). -/
def Variant.reply (v : Variant) : List Byte :=
  le 1 0 ++ le 1 v.engineCount ++ le 1 v.engineMask ++
    le 1 (bit v.cipher + 2 * bit v.bond64 + 4 * bit v.safeMode + 8 * bit v.fuseValid) ++ v.partNumber ++
    le 2 (if v.bond64 then 64 else 128) ++ le 2 (if v.cipher then 64 * v.engineCount else 0) ++ le 1 (if v.cipher then 32 else 0) ++
    le 1 v.dieStep ++ zeros 2

/-- GET_VARIANT (R9, R10). -/
def State.cmdGetVariant (s : State) (q : Request) : State :=
  s.serve 0x0102 q 20 (q.len == 0) [s.anyTenant q] fun s => (s, some s.variant.reply)

/-- ECHO (R451). -/
def State.cmdEcho (s : State) (q : Request) : State :=
  s.serve 0x0106 q (1 + q.len) (decide (q.len ≤ 4079)) [s.anyTenant q] fun s => (s, some (le 1 0 ++ q.payload))

/-- The JOB_STATUS response (Table 12.9). -/
def Job.reply (j : Job) : List Byte :=
  match j.ended with
  | none => le 1 Status.jobStarted.code ++ le 1 0 ++ le 1 0 ++ le 1 j.progress ++ le 2 j.op ++ le 2 0 ++ le 8 0
  | some e =>
    let r := e.result.take 4064
    le 1 Status.jobDone.code ++ le 1 e.outcome ++ le 1 (bit e.cancelled + 2 * bit (decide (e.result.length > 4064))) ++
      le 1 (if e.cancelled then j.progress else 100) ++
      le 2 j.op ++ le 2 r.length ++ le 8 e.chamber ++ r

/-- Is a token another tenant's (R455)? -/
def foreignToken (q : Request) : Bool := q.u 0 4 / 2 ^ 28 != q.tenant

/-- JOB_STATUS (R455). An unknown token is refused before its tenant bits are compared. -/
def State.cmdJobStatus (s : State) (q : Request) : State :=
  let j := s.job (q.u 0 4)
  s.serve 0x0103 q 16 (q.len == 4)
    [s.anyTenant q, .bad j.isNone .badParam 0, .bad (foreignToken q) .notOwner 0]
    fun s => match j with
      | some j => (s, some j.reply)
      | none => (s, none)

end Sys2Proof.Machine
end

