-- ==== Sys2Proof/Machine/Jobs.lean ====
section
/-!
DEFINITION. Jobs (R452 to R456): their steps, their end, JOB_CANCEL, and the copy of a capture (R282).
-/
namespace Sys2Proof.Machine

/-- A job whose hardware or host work is still to come waits, and uses no step (R453). -/
def Job.steps (j : Job) : Bool :=
  j.ended.isNone && j.finish.isNone && !j.cancel &&
    match j.work with
    | .capture _ c => c.first.isSome
    | .relay _ _ _ => false
    | .calRun _ _ _ _ => false
    | _ => true

/-- The job that the next step serves: round-robin over tenants (R453), the oldest job of the tenant first. -/
def State.nextJob (s : State) : Option Job :=
  (List.range 16).findSome? fun i => s.jobs.list.find? fun j => j.tenant == (s.jobs.lastTenant + 1 + i) % 16 && j.steps

/-- The size of a capture in bytes (R283). -/
def Capture.size (c : Capture) : Nat := (if c.tap = 1 then 4 else 8) * c.count

/-- The copy of a capture meets an uncorrectable code: what came before is written, the word itself with inverted check bits, and the job
ends with UNCORRECTABLE (R503). -/
def State.captureBad (s : State) (j : Job) (c : Capture) (k : Nat) : State :=
  let at_ := c.dest + c.done + k / 8 * 8
  let s := s.memWrite 0x0C00 0 (c.dest + c.done) ((c.samples.drop c.done).take (k / 8 * 8 + 8))
  let s := s.modInst (dataKey 0x0C00 0) fun m => { m with poison := if m.poison.contains at_ then m.poison else m.poison ++ [at_] }
  s.modJob j.token fun j => { j with finish := some (Status.uncorrectable.code, []) }

/-- One 4 KiB burst of the copy of a capture to LPDDR6 (R282); after the last, CAPTURE_DONE. -/
def State.captureStep (s : State) (j : Job) (n : Nat) (c : Capture) (io : JobIo) : State :=
  if (s.dark 0x0C00).isSome then s.modJob j.token fun j => { j with finish := some (Status.blockDark.code, []) }
  else if let some k := io.readBad then s.captureBad j c k
  else
    let s := s.memWrite 0x0C00 0 (c.dest + c.done) ((c.samples.drop c.done).take 4096)
    let done := c.done + 4096
    if done ≥ c.size then
      let first := c.first.getD (0, 0)
      (s.finishJob j.token .ok []).recordAt s.now (islEng n) .captureDone n (le 6 first.1 ++ le 4 first.2 ++ le 4 j.token)
    else s.modJob j.token fun j => { j with work := .capture n { c with done := done }, progress := done * 100 / max 1 c.size }

/-- One step of a job's work. -/
def State.runStep (s : State) (j : Job) (io : JobIo) : State :=
  match j.work with
  | .capture n c => s.captureStep j n c io
  | .fill act u addr len data done => s.fillStep j act u addr len data done io
  | .sweep us start total => s.sweepStep j us start total io
  | .kek _ t gen => (s.kekDone t gen).finishJob j.token .ok []
  | .fwStage target addr len _ => if len = 0 then s.stageCheck j.token target else s.stageMore j.token target addr len io.bytes
  | .fwWrite target _ => s.flashWrite j.token target io.ok
  | .fwActivate mode => s.activate j.token mode
  | .relay _ _ _ => s
  | .calRun _ _ _ _ => s

/-- JOB_STEP: the next job in turn runs one step (R453). -/
def State.jobStep (s : State) (io : JobIo) : State :=
  if !s.serving then s
  else match s.nextJob with
    | none => s
    | some j => { s with jobs := { s.jobs with lastTenant := j.tenant } }.runStep j io

/-- Does a hardware step of a cancelled job still run? The runs of a CAL_RUN finish their step (R340). -/
def State.hardwareRuns (s : State) (j : Job) : Bool :=
  match j.work with
  | .calRun n left _ _ => left.any fun c => match (s.conv n c).run with | some r => r.job | none => false
  | _ => false

/-- The result of a job that was cancelled: what it has done so far. -/
def Job.partResult (j : Job) : List Byte :=
  match j.work with
  | .fill _ _ _ _ _ done => le 8 done
  | _ => []

/-- JOB_COMPLETE: a job whose work is done, or that was cancelled and has stopped, ends (R454, R456). -/
def State.jobComplete (s : State) (token : Nat) : State :=
  match s.job token with
  | none => s
  | some j =>
    if j.ended.isSome then s
    else match j.finish with
      | some f => s.endJob token f.1 j.cancel f.2
      | none => if j.cancel && !(s.hardwareRuns j) then s.endJob token Status.ok.code true j.partResult else s

/-- A job starts to stop: it does no further step. -/
def State.cancelJob (s : State) (j : Job) : State :=
  let s := s.modJob j.token fun j => { j with cancel := true }
  match j.work with
  | .calRun n left _ _ => s.cancelRuns n left
  | _ => s

/-- JOB_CANCEL (R456): the response to the cancel of a running job follows the stop. -/
def State.cmdJobCancel (s : State) (q : Request) : State :=
  let j := s.job (q.u 0 4)
  s.serve 0x0104 q 4 (q.len == 4)
    [s.anyTenant q, .bad j.isNone .badParam 0, .bad (foreignToken q) .notOwner 0,
     .bad (match j with | some j => j.op == 0x0405 && j.ended.isNone | none => false) .notPermitted 0]
    fun s => match j with
      | some j =>
        if j.ended.isSome then (s, some okay4)
        else
          let s := s.cancelJob j
          ({ s with jobs := { s.jobs with waits := s.jobs.waits ++ [(j.token, q)] } }, none)
      | none => (s, none)

/-- JOB_RECORD_EXPIRY: records of jobs that ended 60 s ago, or before 64 later ones, are dropped (R454). -/
def State.jobExpiry (s : State) : State :=
  { s with jobs := { s.jobs with list := s.jobs.list.filter fun j => match j.ended with
      | some e => !(s.since e.at_ (60 * secQ)) && decide (s.jobs.ended < e.order + 65)
      | none => true } }

end Sys2Proof.Machine
end

