-- ==== Sys2Proof/Machine/Tenants.lean ====
section
/-!
DEFINITION. Tenants (R457 to R462): SET_TENANT_POLICY, the revocation of a tenant and its end.
-/
namespace Sys2Proof.Machine

/-- The policy that a request names (Table 12.10). -/
def policyOf (q : Request) : Policy :=
  { enabled := bitAt (q.u 2 1) 0, engineUse := q.u 4 1, engineManage := q.u 5 1, umranUse := q.u 6 1, hostLanes := q.u 8 16,
    flexeGroups := q.u 24 8, slotQuota := q.u 32 2, keyQuota := q.u 34 2 }

/-- Bytes 0 to 39 of the policy in force (R458). -/
def State.policyBytes (s : State) (t : Nat) : List Byte :=
  let p := s.policy t
  le 1 t ++ zeros 1 ++ le 1 (bit p.enabled) ++ le 1 (if t = 0 then bit s.com.i2cOff + 2 * bit s.com.spiT0Only else 0) ++
    le 1 p.engineUse ++ le 1 p.engineManage ++ le 1 p.umranUse ++ zeros 1 ++ le 16 p.hostLanes ++ le 8 p.flexeGroups ++
    le 2 p.slotQuota ++ le 2 p.keyQuota ++ zeros 4

/-- Set a tenant's policy. -/
def State.setPolicyOf (s : State) (t : Nat) (p : Policy) : State := { s with com := { s.com with policies := tput s.com.policies t p } }

/-- The passages of a tenant, by ID. -/
def State.passagesOf (s : State) (t : Nat) : List (Nat × Passage) := s.pas.filter fun e => e.2.owner == t

/-- The running jobs of a tenant. -/
def State.jobsOf (s : State) (t : Nat) : List Job := s.runningJobs.filter fun j => j.tenant == t

/-- Would a new policy of a tenant be refused (R461)? -/
def State.policyBusy (s : State) (t : Nat) (p : Policy) : Bool :=
  let s' := s.setPolicyOf t p
  let owns := !(s.passagesOf t).isEmpty || decide (s.keyCharge t > 0) || (s.cip.prepared.any fun b => b.1.1 == t) || !(s.jobsOf t).isEmpty
  let withdrawn := (s.passagesOf t).any fun e => e.2.legs.any fun l => s.mayUse t l.2 && !(s'.mayUse t l.2)
  ((s.policy t).enabled && !p.enabled && owns) || withdrawn || (p.slotQuota != 0xFFFF && decide (p.slotQuota < s.slotCharge t)) ||
    (p.keyQuota != 0xFFFF && decide (p.keyQuota < s.keyCharge t)) ||
    ((List.range 15).any fun k => k + 1 != t && (s.policy (k + 1)).engineManage &&& p.engineManage != 0)

/-- The key slots of a tenant are emptied, its KEK and management key zeroised. -/
def State.dropKeys (s : State) (t : Nat) : State :=
  let mine := (s.cip.slots.filter fun e => e.2.st != .empty && e.2.owner == t).map Prod.fst
  let s := mine.foldl (fun (s : State) k => s.keyEmpty k) s
  s.modCip fun c => { c with keks := tdel c.keks t, mgmt := tdel c.mgmt t }

/-- The keys of revoked tenants go at their FREE_CHAMBER, once every passage of theirs is free (R462). -/
def State.revokeCheck (s : State) : State :=
  let due := s.com.revoking.filter fun r => chReached s.chamber r.2 && (s.passagesOf r.1).isEmpty
  due.foldl (fun (s : State) r => s.dropKeys r.1)
    { s with com := { s.com with revoking := s.com.revoking.filter fun r => !(due.contains r) } }

/-- Close a tenant's passage as a revocation does. -/
def State.revokeClose (s : State) (e : Nat × Passage) : State :=
  if e.2.stop.isSome then s else s.scheduleClose e.1 (e.2.closeAt (s.earliest false)) 1

/-- Revoke a tenant (R462): the state, and FREE_CHAMBER. -/
def State.revoke (s : State) (t : Nat) : State × Nat :=
  let mine := s.passagesOf t
  let closes := (mine.filter fun e => e.2.stop.isNone).length
  let keys := s.keyCharge t
  let s := mine.foldl State.revokeClose s
  let free := (s.passagesOf t).foldl (fun a e => match e.2.free with | some f => chMax a f | none => a) s.chamber
  let bound := (s.cip.prepared.filter fun b => b.1.1 == t).map Prod.snd
  let s := s.modCip fun c => { c with prepared := c.prepared.filter fun b => b.1.1 != t }
  let s := bound.foldl (fun (s : State) k => s.keyTo k .loaded) s
  let s := (s.jobsOf t).foldl State.cancelJob s
  let s := s.setPolicyOf t {}
  let s := { s with com := { s.com with revoking := s.com.revoking ++ [(t, free)] } }
  let s := s.revokeCheck
  (s.raise islCtrl .tenantRevoked t (le 2 (satN 2 closes) ++ le 2 (satN 2 keys) ++ le 6 free), free)

/-- SET_TENANT_POLICY (R458 to R462). -/
def State.cmdSetTenantPolicy (s : State) (q : Request) : State :=
  let t := q.u 0 1
  let act := q.u 1 1
  let p := policyOf q
  let zero := !(q.rsv 2 38)
  let badSet := if t = 0 then q.u 3 1 > 3 || !(q.rsv 2 1) || !(q.rsv 4 36)
    else q.u 2 1 > 1 || q.u 3 1 != 0 || p.umranUse > 15 || !(q.rsv 7 1) || !(q.rsv 36 4) || (p.keyQuota > 1024 && p.keyQuota != 0xFFFF)
  let bad := t > 15 || act < 1 || act > 3 || (act != 1 && zero) || (act == 3 && t == 0) || (act == 1 && badSet)
  let mine := act == 2 && q.tenant == t
  s.serve 0x0105 q (if act = 3 then 12 else 44) (q.len == 40)
    [.bad bad .badParam 0, .bad (if mine then s.disabled q else q.tenant != 0) .notPermitted 0,
     .bad (act == 1 && t != 0 && s.policyBusy t p) .notIdle 0]
    fun s => match act with
      | 1 =>
        let s := if t = 0 then { s with com := { s.com with
            i2cOff := s.com.i2cOff || bitAt (q.u 3 1) 0, spiT0Only := s.com.spiT0Only || bitAt (q.u 3 1) 1 } }
          else s.setPolicyOf t p
        (s, some (okay4 ++ s.policyBytes t))
      | 2 => (s, some (okay4 ++ s.policyBytes t))
      | _ =>
        let r := s.revoke t
        (r.1, some (okay4 ++ le 8 r.2))

end Sys2Proof.Machine
end

