-- ==== Sys2Proof/Machine/Execute.lean ====
section
/-!
DEFINITION. Execution of the packets that the transports have received (R36, R446, R447), what a chamber of time does (assumption 2),
and how every meaning ends.
-/
namespace Sys2Proof.Machine

/-- A meaning ends with the next state, once the responses due as domain messages are sent (R415). -/
def State.done (s : State) : Host.Outcome State Fault Refusal := .next s.sendRelayed

/-- A transition completes: of the device, or of one island (R544). -/
def State.transitionDone (s : State) (target : Nat) (corrupt : List Nat) (lifeOk : Bool) : State :=
  if target = 0xFF then
    match s.power.dormant with
    | .entering => s.dormantEntered fun s => s.lifeWrite lifeOk
    | .exiting => s.dormantLeft
    | _ => s
  else s.islandDone target corrupt

/-- The outcome of an MTP write within a packet's execution: no row carries it, so it is a free value (assumption 3). -/
def State.freeOk (s : State) : Bool × State := (s.free.1 % 2 == 1, s.free.2)

/-- Execute one command by its opcode (Table 12.6). -/
def State.execute (s : State) (op : Nat) (q : Request) : State :=
  match op with
  | 0x0101 => s.cmdGetInfo q
  | 0x0102 => s.cmdGetVariant q
  | 0x0103 => s.cmdJobStatus q
  | 0x0104 => s.cmdJobCancel q
  | 0x0105 => s.cmdSetTenantPolicy q
  | 0x0106 => s.cmdEcho q
  | 0x0201 => s.cmdEngineConfig q
  | 0x0202 => s.cmdEngineEnable q
  | 0x0203 => s.cmdEngineDisable q
  | 0x0204 => s.cmdBitloadSet q
  | 0x0205 => s.cmdBitloadMeasure q
  | 0x0206 => s.cmdTxRamp q
  | 0x0207 => s.cmdCaptureSamples q
  | 0x0208 => s.cmdMultipointConfig q
  | 0x0209 => s.cmdLeafProfileSet q
  | 0x0301 => s.cmdPassageOpen q
  | 0x0302 => s.cmdPassageClose q
  | 0x0303 => s.cmdPassageQuery q
  | 0x0304 => s.cmdTableWrite q
  | 0x0305 => s.cmdTableCommit q
  | 0x0306 => s.cmdTableRead q
  | 0x0307 => s.cmdProtectGroupSet q
  | 0x0401 => s.cmdKeyLoadWrapped q
  | 0x0402 => s.cmdKeyRetire q
  | 0x0403 => s.cmdCipherBind q
  | 0x0404 => s.cmdCipherUnbind q
  | 0x0405 => s.cmdKekRotate q
  | 0x0501 => (s.cmdRefConfig q).syncTimeWords
  | 0x0502 => s.cmdRefStatus q
  | 0x0503 => s.cmdLoopConfig q
  | 0x0504 => s.cmdTimeSet q State.closeBins
  | 0x0505 => s.cmdDomainJoin q
  | 0x0601 => s.cmdMemFill q
  | 0x0602 => s.cmdScrubConfig q
  | 0x0603 => let (ok, s) := s.freeOk; s.cmdMemRepair q ok
  | 0x0604 => s.cmdPageRetire q
  | 0x0605 => s.cmdEccStatus q
  | 0x0701 => s.cmdEventMask q
  | 0x0702 => s.cmdPmBinRead q
  | 0x0703 => s.cmdCounterSnapshot q
  | 0x0704 => s.cmdLifeRead q
  | 0x0705 => let (ok, s) := s.freeOk; s.leapTableSet q ok State.closeBins
  | 0x0801 => s.cmdPowerStateSet q
  | 0x0802 => s.cmdPerfLevelSet q
  | 0x0803 => s.cmdDriplineConfig q
  | 0x0804 => s.cmdBelayRelease q
  | 0x0805 => s.cmdPowerAccountRead q
  | 0x0901 => s.cmdReset q
  | 0x0902 => s.cmdFwUpdate q
  | 0x0903 => s.cmdFuseStatus q
  | 0x0A01 => s.cmdUlinkConfig q
  | 0x0A02 => s.cmdUlinkStatus q
  | 0x0B01 => s.cmdHostPortConfig q
  | 0x0B02 => s.cmdHostTableLoad q
  | 0x0B03 => s.cmdFlexeCalendarSet q
  | 0x0D01 => s.cmdHkSequenceSet q
  | 0x0D03 => s.cmdHkFilterSet q
  | 0x0D02 => s.cmdHkRead q
  | 0x0E01 => s.cmdCalPolicy q
  | 0x0E02 => s.cmdCalRun q
  | _ => s

/-- Answer the packets whose headers failed, then execute in order of receipt every packet not yet executed (R447, R599). -/
def State.answerAll (s : State) : State :=
  let s := s.answerBad
  (s.com.received.filter Received.waits).foldl (fun (s : State) r => s.execute r.op r.req) s

/-- Execute the oldest packet that waits, while a guide pair serves (R36, R446). -/
def State.executeOldest (s : State) : State :=
  if !s.serving then s
  else match s.com.received.find? Received.waits with
    | some r => s.execute r.op r.req
    | none => s

/-! The passage of time (assumption 2). -/

/-- Add a chamber to a count of the life record that runs in minutes: the fraction under way and the minutes. -/
def minuteTick (q minutes : Nat) : Nat × Nat :=
  if q + chamberQ < 60 * secQ then (q + chamberQ, minutes) else (q + chamberQ - 60 * secQ, minutes + 1)

/-- The same for the engines of a list. -/
def engineTick (qs ms : Tab Nat) (ns : List Nat) : Tab Nat × Tab Nat :=
  ns.foldl (fun a n => let x := minuteTick (tgetD a.1 n 0) (tgetD a.2 n 0); (tput a.1 n x.1, tput a.2 n x.2)) (qs, ms)

/-- POWER_ON_MIN, LIT_MIN_n and LASER_MIN_n of the life record run (Table 14.7). -/
def State.lifeTick (s : State) : State :=
  if s.boot.asserted then s
  else
    let l := s.log
    let p := minuteTick l.lifeQ l.life.powerOnMin
    let lit := engineTick l.litQ l.life.litMin ((List.range 8).filter fun n => s.drvEn n)
    let las := engineTick l.laserQ l.life.laserMin ((List.range 8).filter fun n => s.lsrEn n)
    { s with log := { l with
        lifeQ := p.1, litQ := lit.1, laserQ := las.1
        life := { l.life with powerOnMin := p.2, litMin := lit.2, laserMin := las.2 } } }

/-- What the block does while no command waits: the oldest packet received executes, and one chamber passes; steps that its boundary
made act are recorded, and the selectors of raw steps look at their legs (R81). -/
def State.idle (s : State) : State := ((s.executeOldest.sendRelayed.lifeTick).tick).marksDue.rawSelect

end Sys2Proof.Machine
end

