-- ==== Sys2Proof/Machine/ExecCommands.lean ====
section
/-!
DEFINITION. The meanings of rows of the table. The sixty host commands of Table 12.6.
-/
namespace Sys2Proof.Machine

/-- GET_INFO (R450). -/
def execGetInfo (q : Request) (s : State) : Host.Outcome State Fault Refusal := (s.cmdGetInfo q).done

/-- GET_VARIANT (R10). -/
def execGetVariant (q : Request) (s : State) : Host.Outcome State Fault Refusal := (s.cmdGetVariant q).done

/-- JOB_STATUS (R455). -/
def execJobStatus (q : Request) (s : State) : Host.Outcome State Fault Refusal := (s.cmdJobStatus q).done

/-- JOB_CANCEL (R456). -/
def execJobCancel (q : Request) (s : State) : Host.Outcome State Fault Refusal := (s.cmdJobCancel q).done

/-- SET_TENANT_POLICY (R458 to R462). -/
def execSetTenantPolicy (q : Request) (s : State) : Host.Outcome State Fault Refusal := (s.cmdSetTenantPolicy q).done

/-- ECHO (R451). -/
def execEcho (q : Request) (s : State) : Host.Outcome State Fault Refusal := (s.cmdEcho q).done

/-- ENGINE_CONFIG (R211 to R215). -/
def execEngineConfig (q : Request) (s : State) : Host.Outcome State Fault Refusal := (s.cmdEngineConfig q).done

/-- ENGINE_ENABLE (R217). -/
def execEngineEnable (q : Request) (s : State) : Host.Outcome State Fault Refusal := (s.cmdEngineEnable q).done

/-- ENGINE_DISABLE (R77, R216). -/
def execEngineDisable (q : Request) (s : State) : Host.Outcome State Fault Refusal := (s.cmdEngineDisable q).done

/-- BITLOAD_SET (R220 to R223). -/
def execBitloadSet (q : Request) (s : State) : Host.Outcome State Fault Refusal := (s.cmdBitloadSet q).done

/-- BITLOAD_MEASURE (R279). -/
def execBitloadMeasure (q : Request) (s : State) : Host.Outcome State Fault Refusal := (s.cmdBitloadMeasure q).done

/-- TX_RAMP (R228, R229). -/
def execTxRamp (q : Request) (s : State) : Host.Outcome State Fault Refusal := (s.cmdTxRamp q).done

/-- CAPTURE_SAMPLES (R281 to R284). -/
def execCaptureSamples (q : Request) (s : State) : Host.Outcome State Fault Refusal := (s.cmdCaptureSamples q).done

/-- MULTIPOINT_CONFIG (R287 to R293). -/
def execMultipointConfig (q : Request) (s : State) : Host.Outcome State Fault Refusal := (s.cmdMultipointConfig q).done

/-- LEAF_PROFILE_SET (R294 to R298). -/
def execLeafProfileSet (q : Request) (s : State) : Host.Outcome State Fault Refusal := (s.cmdLeafProfileSet q).done

/-- PASSAGE_OPEN (R55 to R73). -/
def execPassageOpen (q : Request) (s : State) : Host.Outcome State Fault Refusal := (s.cmdPassageOpen q).done

/-- PASSAGE_CLOSE (R75). -/
def execPassageClose (q : Request) (s : State) : Host.Outcome State Fault Refusal := (s.cmdPassageClose q).done

/-- PASSAGE_QUERY (R78). -/
def execPassageQuery (q : Request) (s : State) : Host.Outcome State Fault Refusal := (s.cmdPassageQuery q).done

/-- TABLE_WRITE (R105 to R107). -/
def execTableWrite (q : Request) (s : State) : Host.Outcome State Fault Refusal := (s.cmdTableWrite q).done

/-- TABLE_COMMIT (R108 to R120). -/
def execTableCommit (q : Request) (s : State) : Host.Outcome State Fault Refusal := (s.cmdTableCommit q).done

/-- TABLE_READ (R100, R101). -/
def execTableRead (q : Request) (s : State) : Host.Outcome State Fault Refusal := (s.cmdTableRead q).done

/-- PROTECT_GROUP_SET (R82 to R89). -/
def execProtectGroupSet (q : Request) (s : State) : Host.Outcome State Fault Refusal := (s.cmdProtectGroupSet q).done

/-- KEY_LOAD_WRAPPED (R370). -/
def execKeyLoadWrapped (q : Request) (s : State) : Host.Outcome State Fault Refusal := (s.cmdKeyLoadWrapped q).done

/-- KEY_RETIRE (R372). -/
def execKeyRetire (q : Request) (s : State) : Host.Outcome State Fault Refusal := (s.cmdKeyRetire q).done

/-- CIPHER_BIND (R378 to R382). -/
def execCipherBind (q : Request) (s : State) : Host.Outcome State Fault Refusal := (s.cmdCipherBind q).done

/-- CIPHER_UNBIND (R383). -/
def execCipherUnbind (q : Request) (s : State) : Host.Outcome State Fault Refusal := (s.cmdCipherUnbind q).done

/-- KEK_ROTATE (R374 to R377). -/
def execKekRotate (q : Request) (s : State) : Host.Outcome State Fault Refusal := (s.cmdKekRotate q).done

/-- REF_CONFIG: R393, R408: the TIME_WORD steps follow the configured periods. -/
def execRefConfig (q : Request) (s : State) : Host.Outcome State Fault Refusal := (s.cmdRefConfig q).syncTimeWords.done

/-- REF_STATUS (R422). -/
def execRefStatus (q : Request) (s : State) : Host.Outcome State Fault Refusal := (s.cmdRefStatus q).done

/-- LOOP_CONFIG (R407). -/
def execLoopConfig (q : Request) (s : State) : Host.Outcome State Fault Refusal := (s.cmdLoopConfig q).done

/-- TIME_SET (R391, R529). -/
def execTimeSet (q : Request) (s : State) : Host.Outcome State Fault Refusal := (s.cmdTimeSet q State.closeBins).done

/-- DOMAIN_JOIN (R417 to R419). -/
def execDomainJoin (q : Request) (s : State) : Host.Outcome State Fault Refusal := (s.cmdDomainJoin q).done

/-- MEM_FILL (R505 to R507). -/
def execMemFill (q : Request) (s : State) : Host.Outcome State Fault Refusal := (s.cmdMemFill q).done

/-- SCRUB_CONFIG (R495, R496). -/
def execScrubConfig (q : Request) (s : State) : Host.Outcome State Fault Refusal := (s.cmdScrubConfig q).done

/-- MEM_REPAIR: R498 to R500; `ok` is the outcome of the MTP write of a deferred repair. -/
def execMemRepair (q : Request) (ok : Bool) (s : State) : Host.Outcome State Fault Refusal := (s.cmdMemRepair q ok).done

/-- PAGE_RETIRE (R502). -/
def execPageRetire (q : Request) (s : State) : Host.Outcome State Fault Refusal := (s.cmdPageRetire q).done

/-- ECC_STATUS (R509). -/
def execEccStatus (q : Request) (s : State) : Host.Outcome State Fault Refusal := (s.cmdEccStatus q).done

/-- EVENT_MASK (R524). -/
def execEventMask (q : Request) (s : State) : Host.Outcome State Fault Refusal := (s.cmdEventMask q).done

/-- PM_BIN_READ (R530). -/
def execPmBinRead (q : Request) (s : State) : Host.Outcome State Fault Refusal := (s.cmdPmBinRead q).done

/-- COUNTER_SNAPSHOT (R469). -/
def execCounterSnapshot (q : Request) (s : State) : Host.Outcome State Fault Refusal := (s.cmdCounterSnapshot q).done

/-- LIFE_READ (R534). -/
def execLifeRead (q : Request) (s : State) : Host.Outcome State Fault Refusal := (s.cmdLifeRead q).done

/-- LEAP_TABLE_SET: R535 to R537; `ok` is the outcome of the MTP write. -/
def execLeapTableSet (q : Request) (ok : Bool) (s : State) : Host.Outcome State Fault Refusal := (s.leapTableSet q ok State.closeBins).done

/-- POWER_STATE_SET (R541 to R546). -/
def execPowerStateSet (q : Request) (s : State) : Host.Outcome State Fault Refusal := (s.cmdPowerStateSet q).done

/-- PERF_LEVEL_SET (R565). -/
def execPerfLevelSet (q : Request) (s : State) : Host.Outcome State Fault Refusal := (s.cmdPerfLevelSet q).done

/-- DRIPLINE_CONFIG (R560). -/
def execDriplineConfig (q : Request) (s : State) : Host.Outcome State Fault Refusal := (s.cmdDriplineConfig q).done

/-- BELAY_RELEASE (R556). -/
def execBelayRelease (q : Request) (s : State) : Host.Outcome State Fault Refusal := (s.cmdBelayRelease q).done

/-- POWER_ACCOUNT_READ (R571, R572). -/
def execPowerAccountRead (q : Request) (s : State) : Host.Outcome State Fault Refusal := (s.cmdPowerAccountRead q).done

/-- RESET (R582 to R585). -/
def execReset (q : Request) (s : State) : Host.Outcome State Fault Refusal := (s.cmdReset q).done

/-- FW_UPDATE (R600 to R603). -/
def execFwUpdate (q : Request) (s : State) : Host.Outcome State Fault Refusal := (s.cmdFwUpdate q).done

/-- FUSE_STATUS (R589). -/
def execFuseStatus (q : Request) (s : State) : Host.Outcome State Fault Refusal := (s.cmdFuseStatus q).done

/-- ULINK_CONFIG (R643). -/
def execUlinkConfig (q : Request) (s : State) : Host.Outcome State Fault Refusal := (s.cmdUlinkConfig q).done

/-- ULINK_STATUS (R645). -/
def execUlinkStatus (q : Request) (s : State) : Host.Outcome State Fault Refusal := (s.cmdUlinkStatus q).done

/-- HOST_PORT_CONFIG (R131 to R133). -/
def execHostPortConfig (q : Request) (s : State) : Host.Outcome State Fault Refusal := (s.cmdHostPortConfig q).done

/-- HOST_TABLE_LOAD (R156 to R158). -/
def execHostTableLoad (q : Request) (s : State) : Host.Outcome State Fault Refusal := (s.cmdHostTableLoad q).done

/-- FLEXE_CALENDAR_SET (R142 to R151). -/
def execFlexeCalendarSet (q : Request) (s : State) : Host.Outcome State Fault Refusal := (s.cmdFlexeCalendarSet q).done

/-- HK_SEQUENCE_SET (R666). -/
def execHkSequenceSet (q : Request) (s : State) : Host.Outcome State Fault Refusal := (s.cmdHkSequenceSet q).done

/-- HK_FILTER_SET (R667). -/
def execHkFilterSet (q : Request) (s : State) : Host.Outcome State Fault Refusal := (s.cmdHkFilterSet q).done

/-- HK_READ (R668). -/
def execHkRead (q : Request) (s : State) : Host.Outcome State Fault Refusal := (s.cmdHkRead q).done

/-- CAL_POLICY (R344). -/
def execCalPolicy (q : Request) (s : State) : Host.Outcome State Fault Refusal := (s.cmdCalPolicy q).done

/-- CAL_RUN (R346). -/
def execCalRun (q : Request) (s : State) : Host.Outcome State Fault Refusal := (s.cmdCalRun q).done

end Sys2Proof.Machine
end

