-- ==== Sys2Proof/Machine/ExecKeys.lean ====
section
/-!
DEFINITION. The meanings of rows of the table. The cipher (10_cipher.md).
-/
namespace Sys2Proof.Machine

/-- CIPHER_SEGMENT (R349 to R366). -/
def execCipherSegment (id : Nat) (ch : Nat) (fault : Option SegFault) (s : State) : Host.Outcome State Fault Refusal :=
  (s.cipherSegment id ch fault).done

/-- CIPHER_PAIR_SELFTEST_DONE (R362). -/
def execCipherPairSelftestDone (k : Nat) (failed : Option Nat) (s : State) : Host.Outcome State Fault Refusal :=
  (s.pairSelftestDone k failed).done

/-- CIPHER_TAG_CHECK (R178, R365 to R367). -/
def execCipherTagCheck (id : Nat) (ch : Nat) (s : State) : Host.Outcome State Fault Refusal := (s.cipherTagCheck id ch).done

/-- KEY_SLOT_RELEASE (R380). -/
def execKeySlotRelease (id : Nat) (s : State) : Host.Outcome State Fault Refusal := (s.keySlotRelease id).done

/-- CIPHER_REKEYED (R381). -/
def execCipherRekeyed (id : Nat) (s : State) : Host.Outcome State Fault Refusal := (s.cipherRekeyed id).done

/-- CIPHER_KEY_AGE (R356). -/
def execCipherKeyAge (id : Nat) (s : State) : Host.Outcome State Fault Refusal := (s.cipherKeyAge id).done

end Sys2Proof.Machine
end

