-- ==== Sys2Proof/Machine/ExecLine.lean ====
section
/-!
DEFINITION. The meanings of rows of the table. Engines: the line frame, the transmit and the receive path (05 to 07).
-/
namespace Sys2Proof.Machine

/-- LINE_FRAME_SEND (R163 to R184, R200 to R208). -/
def execLineFrameSend (n : Nat) (s : State) : Host.Outcome State Fault Refusal := (s.lineFrameSend n).done

/-- LINE_FRAME_RECEIVE (R193 to R197). -/
def execLineFrameReceive (n : Nat) (f : LineFrame) (s : State) : Host.Outcome State Fault Refusal := (s.lineFrameReceive n f).done

/-- FEC_CODEWORD_DECODE (R187 to R191, R263 to R265). -/
def execFecCodewordDecode (n : Nat) (failed : Bool) (corrected : Nat) (iters : Nat) (s : State) : Host.Outcome State Fault Refusal :=
  (s.fecDecode n failed corrected iters).done

/-- LINE_LOS (R248). -/
def execLineLos (n : Nat) (mv : Nat) (s : State) : Host.Outcome State Fault Refusal := (s.lineLos n mv).done

/-- LINE_LOS_CLEAR (R248). -/
def execLineLosClear (n : Nat) (mv : Nat) (s : State) : Host.Outcome State Fault Refusal := (s.lineLosClear n mv).done

/-- FROZEN_STATE_EXPIRY (R249). -/
def execFrozenStateExpiry (n : Nat) (s : State) : Host.Outcome State Fault Refusal := (s.frozenExpiry n).done

/-- AGC_UPDATE (R238 to R263): `inputs` are the input levels of the four lanes over 10 µs. -/
def execAgcUpdate (n : Nat) (inputs : List (List Int)) (want : Int) (s : State) : Host.Outcome State Fault Refusal :=
  (s.agcUpdate n inputs want).done

/-- RX_ACQUISITION_START (R266). -/
def execRxAcquisitionStart (n : Nat) (s : State) : Host.Outcome State Fault Refusal := (s.acqStart n).done

/-- RX_LOCK: R251, R254, R266; `probes` are the pilots found, `d` the dispersion, `skip` the coded bits before the first codeword. -/
def execRxLock (n : Nat) (probes : List PilotProbe) (d : Int) (skip : Nat) (s : State) : Host.Outcome State Fault Refusal :=
  (s.rxLock n probes d skip).done

/-- RX_ACQ_FAIL: R267; `met` are the steps of Table 7.4 that were met. -/
def execRxAcqFail (n : Nat) (met : List Nat) (s : State) : Host.Outcome State Fault Refusal := (s.acqFail n met).done

/-- WARM_ACQUISITION_TIMEOUT (R269). -/
def execWarmAcquisitionTimeout (n : Nat) (s : State) : Host.Outcome State Fault Refusal := (s.warmTimeout n).done

/-- RX_LOCK_LOST (R261, R268). -/
def execRxLockLost (n : Nat) (cause : Nat) (s : State) : Host.Outcome State Fault Refusal := (s.rxLockLost n cause).done

/-- SNR_WINDOW_END (R270, R271, R277). -/
def execSnrWindowEnd (n : Nat) (s : State) : Host.Outcome State Fault Refusal := (s.snrWindowEnd n).done

/-- FIRST_USE_COMMIT (R273 to R276). -/
def execFirstUseCommit (n : Nat) (s : State) : Host.Outcome State Fault Refusal := (s.firstUseCommit n).done

/-- RX_CD_RECENTRED (R256). -/
def execRxCdRecentred (n : Nat) (s : State) : Host.Outcome State Fault Refusal := (s.cdRecentre n).done

/-- LINE_CD_OUT_OF_SPAN (R257). -/
def execLineCdOutOfSpan (n : Nat) (s : State) : Host.Outcome State Fault Refusal := (s.cdOut n).done

/-- LINE_CD_IN_SPAN (R257). -/
def execLineCdInSpan (n : Nat) (s : State) : Host.Outcome State Fault Refusal := (s.cdIn n).done

/-- LINE_ADC_OVR (R242, R245). -/
def execLineAdcOvr (n : Nat) (s : State) : Host.Outcome State Fault Refusal := (s.adcOvr n).done

/-- ADC_CLAMP_ENGAGE (R244). -/
def execAdcClampEngage (n : Nat) (lane : Nat) (s : State) : Host.Outcome State Fault Refusal := (s.clampOn n lane).done

/-- ADC_CLAMP_RELEASE (R244). -/
def execAdcClampRelease (n : Nat) (lane : Nat) (s : State) : Host.Outcome State Fault Refusal := (s.clampOff n lane).done

/-- RX_FRONTEND_LIMIT (R250). -/
def execRxFrontendLimit (n : Nat) (what : Nat) (lane : Nat) (value : Int) (ms : Nat) (s : State) : Host.Outcome State Fault Refusal :=
  (s.frontendLimit n what lane value ms).done

/-- TX_FRONTEND_STEP (R225). -/
def execTxFrontendStep (n : Nat) (s : State) : Host.Outcome State Fault Refusal := (s.frontendStep n).done

/-- DAC_CLIP_HIGH (R226). -/
def execDacClipHigh (n : Nat) (s : State) : Host.Outcome State Fault Refusal := (s.dacClip n).done

/-- CARRIER_DRIVER_ON (R230). -/
def execCarrierDriverOn (n : Nat) (s : State) : Host.Outcome State Fault Refusal := (s.carrierDriverOn n).done

/-- CARRIER_RAMP_START (R230). -/
def execCarrierRampStart (n : Nat) (s : State) : Host.Outcome State Fault Refusal := (s.carrierRampStart n).done

/-- CARRIER_RAMP_END (R230). -/
def execCarrierRampEnd (n : Nat) (s : State) : Host.Outcome State Fault Refusal := (s.carrierRampEnd n).done

/-- CARRIER_LASER_OFF (R230). -/
def execCarrierLaserOff (n : Nat) (s : State) : Host.Outcome State Fault Refusal := (s.carrierLaserOff n).done

/-- CAPTURE_TRIGGER (R282, R283). -/
def execCaptureTrigger (n : Nat) (s : State) : Host.Outcome State Fault Refusal := (s.captureTrigger n).done

end Sys2Proof.Machine
end

