-- ==== Sys2Proof/Machine/ExecLog.lean ====
section
/-!
DEFINITION. The meanings of rows of the table. The log, the bins, the life record and housekeeping (14_events.md, 19_housekeeping_adc.md).
-/
namespace Sys2Proof.Machine

/-- EVENT_RECORD_WRITE (R512 to R521). -/
def execEventRecordWrite (e : Ev) (island : Nat) (source : Nat) (payload : List Byte) (s : State) : Host.Outcome State Fault Refusal :=
  (s.eventWrite e island source payload).done

/-- LOG_OVERFLOW (R522). -/
def execLogOverflow (s : State) : Host.Outcome State Fault Refusal := s.logOverflow.done

/-- SNAPSHOT_FREEZE (R469, R530). -/
def execSnapshotFreeze (s : State) : Host.Outcome State Fault Refusal := s.snapshotFreeze.done

/-- PM_BIN_CLOSE (R527, R528). -/
def execPmBinClose (s : State) : Host.Outcome State Fault Refusal := s.binClose.done

/-- LIFE_RECORD_WRITE (R533). -/
def execLifeRecordWrite (ok : Bool) (s : State) : Host.Outcome State Fault Refusal := (s.lifeRecordWrite ok).done

/-- LEAP_TABLE_STALE (R537). -/
def execLeapTableStale (s : State) : Host.Outcome State Fault Refusal := s.leapStale.done

/-- HK_FRAME (R648 to R662). -/
def execHkFrame (adc0 : List Int) (adc1 : List Int) (s : State) : Host.Outcome State Fault Refusal := (s.hkFrame adc0 adc1).done

/-- HK_THERMAL_EVAL (R663, R532). -/
def execHkThermalEval (s : State) : Host.Outcome State Fault Refusal := s.thermalEval.done

/-- PM_GAUGE_SAMPLE (R528). -/
def execPmGaugeSample (s : State) : Host.Outcome State Fault Refusal := s.gaugeSample.done

end Sys2Proof.Machine
end

