-- ==== Sys2Proof/Machine/ExecMemory.lean ====
section
/-!
DEFINITION. The meanings of rows of the table. Memories (13_memory.md).
-/
namespace Sys2Proof.Machine

/-- SCRUB_STEP (R490 to R494). -/
def execScrubStep (lp : Bool) (found : List Finding) (ok : Bool) (s : State) : Host.Outcome State Fault Refusal :=
  (s.scrubStep lp found ok).done

/-- MEMORY_READ (R478, R481, R503). -/
def execMemoryRead (unit : Nat) (inst : Nat) (addr : Nat) (reader : Nat) (flips : List Nat) (use : MemUse) (s : State) : Host.Outcome State Fault Refusal :=
  (s.memoryRead unit inst addr reader flips use).done

/-- ECC_BUCKET_LEAK (R489). -/
def execEccBucketLeak (s : State) : Host.Outcome State Fault Refusal := s.bucketLeak.done

/-- MEM_REPAIR_SWITCH (R499). -/
def execMemRepairSwitch (bad : List Nat) (ok : Bool) (s : State) : Host.Outcome State Fault Refusal := (s.repairSwitch bad ok).done

/-- PAGE_RETIRE_SWITCH (R502). -/
def execPageRetireSwitch (bad : List Nat) (ok : Bool) (s : State) : Host.Outcome State Fault Refusal := (s.pageSwitch bad ok).done

end Sys2Proof.Machine
end

