-- ==== Sys2Proof/Machine/ExecMultipoint.lean ====
section
/-!
DEFINITION. The meanings of rows of the table. Bursts and converters (08_multipoint.md, 09_converters.md).
-/
namespace Sys2Proof.Machine

/-- BURST_SYNC (R308, R309). -/
def execBurstSync (n : Nat) (sub : Nat) (time : Nat) (decisions : Nat) (power : Int) (s : State) : Host.Outcome State Fault Refusal :=
  (s.burstSync n sub time decisions power).done

/-- BURST_HEADER (R309). -/
def execBurstHeader (n : Nat) (sub : Nat) (header : Nat) (s : State) : Host.Outcome State Fault Refusal := (s.burstHeader n sub header).done

/-- BURST_DECODE (R310, R314 to R316). -/
def execBurstDecode (n : Nat) (sub : Nat) (b : Burst) (s : State) : Host.Outcome State Fault Refusal := (s.burstDecode n sub b).done

/-- WINDOW_MISSED (R311). -/
def execWindowMissed (n : Nat) (sub : Nat) (w : Nat) (ch : Nat) (profBad : Bool) (s : State) : Host.Outcome State Fault Refusal :=
  (s.windowMissed n sub w ch profBad).done

/-- LEAF_BURST_SEND (R299 to R304, R312). -/
def execLeafBurstSend (n : Nat) (sub : Nat) (w : Nat) (ch : Nat) (s : State) : Host.Outcome State Fault Refusal :=
  (s.leafBurstSend n sub w ch).done

/-- CAL_BOOT_DONE: R329 to R331; in a boot the islands are up first (Table 16.8). -/
def execCalBootDone (n : Nat) (ohms : Nat) (temp : Int) (bad : List (Nat × Nat)) (found : List BootTrims) (s : State) : Host.Outcome State Fault Refusal :=
  (s.islandsUp.calBootDone n ohms temp bad found).done

/-- CAL_TRIGGER (R329, R333, R334). -/
def execCalTrigger (n : Nat) (c : Nat) (cause : Nat) (temp : Int) (ohms : Nat) (s : State) : Host.Outcome State Fault Refusal :=
  (s.calTriggerRow n c cause temp ohms).done

/-- CAL_STEP_END (R335 to R340). -/
def execCalStepEnd (n : Nat) (c : Nat) (io : StepIo) (s : State) : Host.Outcome State Fault Refusal := (s.calStepEnd n c io).done

/-- SLICE_WINDOW_EVAL (R341, R342). -/
def execSliceWindowEval (n : Nat) (c : Nat) (w : SliceWindow) (mtpOk : Bool) (s : State) : Host.Outcome State Fault Refusal :=
  (s.sliceWindow n c w mtpOk).done

end Sys2Proof.Machine
end

