-- ==== Sys2Proof/Machine/ExecPorts.lean ====
section
/-!
DEFINITION. The meanings of rows of the table. Blocks, host ports, FlexE, protection and the Umran link (02, 04, 18).
-/
namespace Sys2Proof.Machine

/-- BLOCK_INGRESS (R27, R30, R52, R70 to R72, R136, R137, R139). -/
def execBlockIngress (a : SlotAt) (x : Arrival) (s : State) : Host.Outcome State Fault Refusal := (s.blockIngress a x).done

/-- BLOCK_EGRESS (R53, R54, R70, R75, R80, R81, R151). -/
def execBlockEgress (a : SlotAt) (room : Bool) (s : State) : Host.Outcome State Fault Refusal := (s.blockEgress a room).done

/-- HOST_PORT_UP (R134, R136); `pcs` gives for each lane the lane number in its markers and its skew in 0.1 ns. -/
def execHostPortUp (lane : Nat) (pcs : List (Nat × Nat)) (s : State) : Host.Outcome State Fault Refusal := (s.hostPortUp lane pcs).done

/-- HOST_PORT_DOWN (R139). -/
def execHostPortDown (lane : Nat) (cause : Nat) (bad : Nat) (s : State) : Host.Outcome State Fault Refusal :=
  (s.hostPortDown lane cause bad).done

/-- HOST_PORT_TIMEOUT (R135). -/
def execHostPortTimeout (lane : Nat) (cause : Nat) (s : State) : Host.Outcome State Fault Refusal := (s.hostPortTimeout lane cause).done

/-- HOST_FEC_WINDOW_END (R137, R138). -/
def execHostFecWindowEnd (lane : Nat) (hist : List Nat) (uncorr : Nat) (s : State) : Host.Outcome State Fault Refusal :=
  (s.hostFecWindow lane hist uncorr).done

/-- HOST_ADAPT_LIMIT (R159). -/
def execHostAdaptLimit (lane : Nat) (which : Nat) (s : State) : Host.Outcome State Fault Refusal := (s.hostAdaptLimit lane which).done

/-- TX_TAP_STEP (R158, R159). -/
def execTxTapStep (lane : Nat) (ctle : Int) (ffe : Int) (dfe : Int) (s : State) : Host.Outcome State Fault Refusal :=
  (s.txTapStep lane ctle ffe dfe).done

/-- FLEXE_CAL_SWITCH (R148). -/
def execFlexeCalSwitch (g : Nat) (s : State) : Host.Outcome State Fault Refusal := (s.flexeCalSwitch g).done

/-- FLEXE_CAL_TIMEOUT (R147). -/
def execFlexeCalTimeout (g : Nat) (s : State) : Host.Outcome State Fault Refusal := (s.flexeCalTimeout g).done

/-- FLEXE_CAL_REQUEST (R149). -/
def execFlexeCalRequest (g : Nat) (cal : List Nat) (s : State) : Host.Outcome State Fault Refusal := (s.flexeCalRequest g cal).done

/-- FLEXE_GROUP_DOWN (R152, R160), with the overhead CRC errors and the losses of overhead lock met on the instances. -/
def execFlexeGroupDown (g : Nat) (cause : Nat) (crcErrors : Nat) (losses : Nat) (s : State) : Host.Outcome State Fault Refusal :=
  (s.flexeGroupDown g cause crcErrors losses).done

/-- FLEXE_GROUP_UP (R152). -/
def execFlexeGroupUp (g : Nat) (s : State) : Host.Outcome State Fault Refusal := (s.flexeGroupUp g).done

/-- PROTECT_SELECT (R85). -/
def execProtectSelect (id : Nat) (s : State) : Host.Outcome State Fault Refusal := (s.protectSelect id).done

/-- PROTECT_REVERT (R85). -/
def execProtectRevert (id : Nat) (s : State) : Host.Outcome State Fault Refusal := (s.protectRevert id).done

/-- PROTECT_SKEW_CLEAR (R84). -/
def execProtectSkewClear (id : Nat) (s : State) : Host.Outcome State Fault Refusal := (s.protectSkewClear id).done

/-- ULINK_LANE_LOCK: R632, R633; the blocks a lane receives from a candidate comma on, and its skew in 0.1 ns. -/
def execUlinkLaneLock (p : Nat) (lane : Nat) (blocks : List Block) (skew : Nat) (s : State) : Host.Outcome State Fault Refusal :=
  (s.ulLaneLock p lane blocks skew).done

/-- ULINK_FRAME_SEND (R626 to R631, R638). -/
def execUlinkFrameSend (p : Nat) (depart : Nat) (s : State) : Host.Outcome State Fault Refusal := (s.ulFrameSend p depart).done

/-- ULINK_FRAME_RECEIVE (R635 to R641). -/
def execUlinkFrameReceive (p : Nat) (f : UlFrame) (s : State) : Host.Outcome State Fault Refusal := (s.ulFrameReceive p f).done

/-- ULINK_PORT_TIMEOUT (R634). -/
def execUlinkPortTimeout (p : Nat) (s : State) : Host.Outcome State Fault Refusal := (s.ulTimeout p).done

/-- ULINK_REFCLK_MEASURE (R625). -/
def execUlinkRefclkMeasure (ppm : Int) (peak : Nat) (s : State) : Host.Outcome State Fault Refusal := (s.refclkMeasure ppm peak).done

end Sys2Proof.Machine
end

