-- ==== Sys2Proof/Machine/ExecPower.lean ====
section
/-!
DEFINITION. The meanings of rows of the table. Power and the guide pairs (15_power.md, 17_faults.md).
-/
namespace Sys2Proof.Machine

/-- POWER_TRANSITION_DONE (R544, R546, R550). -/
def execPowerTransitionDone (target : Nat) (corrupt : List Nat) (lifeOk : Bool) (s : State) : Host.Outcome State Fault Refusal :=
  (s.transitionDone target corrupt lifeOk).done

/-- POWER_ENTRY_ABORTED (R548). -/
def execPowerEntryAborted (target : Nat) (cause : Nat) (code : Nat) (status : Nat) (s : State) : Host.Outcome State Fault Refusal :=
  (s.abortTransition target cause code status).done

/-- WAKE_SOURCE (R551, R552). -/
def execWakeSource (source : Nat) (gpio : Nat) (level : Bool) (arg : Nat) (message : List Byte) (s : State) : Host.Outcome State Fault Refusal :=
  (s.wakeSource source gpio level arg message).done

/-- DRIPLINE_CYCLE (R558, R559). -/
def execDriplineCycle (n : Nat) (los : List Nat) (samples : List Int) (s : State) : Host.Outcome State Fault Refusal :=
  (s.driplineCycle n los samples).done

/-- PERF_LEVEL_CHANGE (R563, R564). -/
def execPerfLevelChange (n : Nat) (confirmed : Bool) (status : Nat) (drift : Int) (s : State) : Host.Outcome State Fault Refusal :=
  (s.perfLevelChange n confirmed status drift).done

/-- V_TRIM_RECOMPUTE (R563). -/
def execVTrimRecompute (n : Nat) (drift : Int) (s : State) : Host.Outcome State Fault Refusal := (s.vTrimRecompute n drift).done

/-- PM_ALERT (R567). -/
def execPmAlert (code : Nat) (status : Nat) (s : State) : Host.Outcome State Fault Refusal := (s.pmAlert code status).done

/-- PMBUS_TELEMETRY_POLL: R567; `xs` holds code, VOUT, IOUT, temperature and STATUS_WORD of each rail. -/
def execPmbusTelemetryPoll (xs : List (Nat × Nat × Nat × Int × Nat)) (s : State) : Host.Outcome State Fault Refusal := (s.pmbusPoll xs).done

/-- GUIDE_ACTIVE_TRAP (R614, R616, R618). -/
def execGuideActiveTrap (cause : Nat) (s : State) : Host.Outcome State Fault Refusal := (s.guideTrap cause).done

/-- GUIDE_TAKEOVER (R447, R616). -/
def execGuideTakeover (s : State) : Host.Outcome State Fault Refusal := (s.takeOver State.answerAll).done

/-- GUIDE_STANDBY_TRAP (R618). -/
def execGuideStandbyTrap (cause : Nat) (s : State) : Host.Outcome State Fault Refusal := (s.standbyTrap cause).done

/-- GUIDE_STANDBY_READY (R617). -/
def execGuideStandbyReady (failed : Option Nat) (s : State) : Host.Outcome State Fault Refusal := (s.standbyReady failed).done

end Sys2Proof.Machine
end

