-- ==== Sys2Proof/Machine/ExecReset.lean ====
section
/-!
DEFINITION. The meanings of rows of the table. Reset, boot and the test access port (16_reset_boot.md, 20_package_pins.md).
-/
namespace Sys2Proof.Machine

/-- PORST_N_ASSERT (R575). -/
def execPorstNAssert (s : State) : Host.Outcome State Fault Refusal := s.porst.done

/-- SYSRST_N_ASSERT (R574). -/
def execSysrstNAssert (s : State) : Host.Outcome State Fault Refusal := s.sysrst.done

/-- SUPPLY_MONITOR_TRIP (R574, Table 16.2). -/
def execSupplyMonitorTrip (code : Nat) (mv : Nat) (s : State) : Host.Outcome State Fault Refusal := (s.supplyTrip code mv).done

/-- THERMAL_TRIP (R574, R579). -/
def execThermalTrip (temp : Int) (s : State) : Host.Outcome State Fault Refusal := (s.thermalTrip temp).done

/-- THERMAL_TRIP_RELEASE (R579). -/
def execThermalTripRelease (hottest : Int) (ms : Nat) (s : State) : Host.Outcome State Fault Refusal := (s.thermalRelease hottest ms).done

/-- WATCHDOG_EXPIRY: R580; `ms` is how long no heartbeat came. -/
def execWatchdogExpiry (ms : Nat) (s : State) : Host.Outcome State Fault Refusal := (s.watchdog ms).done

/-- DOUBLE_LOCKSTEP_FAULT (R581). -/
def execDoubleLockstepFault (s : State) : Host.Outcome State Fault Refusal := s.doubleLockstep.done

/-- RESET_COMMAND_ASSERT (R585). -/
def execResetCommandAssert (lifeOk : Bool) (s : State) : Host.Outcome State Fault Refusal := (s.resetDue lifeOk).done

/-- RESET_RELEASE (R576, R577). -/
def execResetRelease (bootSrc : Nat) (clkMode : Nat) (s : State) : Host.Outcome State Fault Refusal := (s.releaseReset bootSrc clkMode).done

/-- FUSE_LOAD (R586 to R588). -/
def execFuseLoad (f : FuseRead) (s : State) : Host.Outcome State Fault Refusal := (s.fuseLoad f).done

/-- BOARD_CONFIG_READ (R595, R598). -/
def execBoardConfigRead (s : State) : Host.Outcome State Fault Refusal := s.boardRead.done

/-- LPDDR6_TRAINING_DONE (R483). -/
def execLpddr6TrainingDone (s : State) : Host.Outcome State Fault Refusal := s.trainingDone.done

/-- IMAGE_AUTHENTICATE (R596, R597). -/
def execImageAuthenticate (s : State) : Host.Outcome State Fault Refusal := s.authenticate.done

/-- BOOT_COMPLETE: R508, R599; packets with a bad header that came earlier are answered. -/
def execBootComplete (s : State) : Host.Outcome State Fault Refusal := (s.bootComplete.answerBad).done

/-- TAP_INSTRUCTION_UPDATE (R690 to R692). -/
def execTapInstructionUpdate (code : Nat) (s : State) : Host.Outcome State Fault Refusal := (s.tapUpdate code).done

end Sys2Proof.Machine
end

