-- ==== Sys2Proof/Machine/ExecTables.lean ====
section
/-!
DEFINITION. The meanings of rows of the table. Cairn tables and passages (02_passages.md, 03_cairn_tables.md).
-/
namespace Sys2Proof.Machine

/-- TABLE_SWAP (R117, R121). -/
def execTableSwap (s : State) : Host.Outcome State Fault Refusal := s.tableSwap.done

/-- PASSAGE_FREE (R75, R462). -/
def execPassageFree (id : Nat) (s : State) : Host.Outcome State Fault Refusal := (s.passageFree id).revokeCheck.done

/-- IMAGE_BANK_COPY (R94). -/
def execImageBankCopy (s : State) : Host.Outcome State Fault Refusal := (s.bankCopied State.execute).done

/-- COMMIT_STAGING: R118; `bad` names the island, region and index of an uncorrectable word. -/
def execCommitStaging (bad : Option (Nat × Nat × Nat)) (s : State) : Host.Outcome State Fault Refusal := (s.commitStaging bad).done

/-- TIMED_STEP_ISSUE: R92, R119; `errs` are words that could not be read. -/
def execTimedStepIssue (errs : List (Nat × Nat × Nat)) (s : State) : Host.Outcome State Fault Refusal := (s.timedStepIssue errs).done

/-- PAIRED_COMMIT_DECIDE (R120). -/
def execPairedCommitDecide (s : State) : Host.Outcome State Fault Refusal := s.pairedDecide.done

end Sys2Proof.Machine
end

