-- ==== Sys2Proof/Machine/ExecTiming.lean ====
section
/-!
DEFINITION. The meanings of rows of the table. References, the loop, domain time and the domain (11_timing.md).
-/
namespace Sys2Proof.Machine

/-- DOMAIN_MESSAGE_RECEIVE (R414, R415). -/
def execDomainMessageReceive (s : State) : Host.Outcome State Fault Refusal := s.domainReceive.done

/-- TIME_STATUS_SEND (R413). -/
def execTimeStatusSend (s : State) : Host.Outcome State Fault Refusal := s.timeStatusSend.done

/-- RELAY_TIMEOUT (R419). -/
def execRelayTimeout (s : State) : Host.Outcome State Fault Refusal := s.relayTimeout.done

/-- REF_INPUT_LOST (R392, R396, R405). -/
def execRefInputLost (input : Nat) (quiet : Nat) (s : State) : Host.Outcome State Fault Refusal := (s.refLost input quiet).done

/-- REF_INPUT_PRESENT (R396). -/
def execRefInputPresent (input : Nat) (s : State) : Host.Outcome State Fault Refusal := (s.refPresent input).done

/-- REF_QUALIFIED (R396, R397). -/
def execRefQualified (input : Nat) (s : State) : Host.Outcome State Fault Refusal := (s.refQualified input).done

/-- REF_SECOND_EVAL (R389, R390, R399 to R404). -/
def execRefSecondEval (ms : List Meas) (loopFreq : Int) (s : State) : Host.Outcome State Fault Refusal :=
  (s.secondEval ms loopFreq State.closeBins).done

/-- LOOP_NARROW_STEP (R402). -/
def execLoopNarrowStep (s : State) : Host.Outcome State Fault Refusal := s.loopNarrow.done

/-- OSC_OFFSET_WRITE (R405). -/
def execOscOffsetWrite (temp : Int) (mtpOk : Bool) (s : State) : Host.Outcome State Fault Refusal := (s.oscWrite temp mtpOk).done

/-- PPS_IN_EDGE (R391, R398). -/
def execPpsInEdge (s : State) : Host.Outcome State Fault Refusal := (s.ppsEdge State.closeBins).done

/-- QL_TIMEOUT (R394). -/
def execQlTimeout (input : Nat) (s : State) : Host.Outcome State Fault Refusal := (s.qlTimeout input).done

/-- TIME_PARTNER_OFFSET (R410). -/
def execTimePartnerOffset (input : Nat) (off : Int) (s : State) : Host.Outcome State Fault Refusal := (s.partnerOffset input off).done

/-- TIME_ELASTIC_SLIP (R410). -/
def execTimeElasticSlip (input : Nat) (theta : Int) (s : State) : Host.Outcome State Fault Refusal := (s.elasticSlip input theta).done

/-- DOMAIN_JOIN_APPLY (R418). -/
def execDomainJoinApply (s : State) : Host.Outcome State Fault Refusal := s.domainJoinApply.done

end Sys2Proof.Machine
end

