-- ==== Sys2Proof/Machine/ExecTransport.lean ====
section
/-!
DEFINITION. The meanings of rows of the table. The rings, the registers, the SPI and I2C targets and the jobs (12_commands.md).
-/
namespace Sys2Proof.Machine

/-- CMDQ_TAIL_DOORBELL (R429). -/
def execCmdqTailDoorbell (page : Nat) (v : BitVec 16) (s : State) : Host.Outcome State Fault Refusal := (s.tailDoorbell page v).done

/-- RING_FETCH (R430 to R432). -/
def execRingFetch (io : RingIo) (s : State) : Host.Outcome State Fault Refusal := (s.ringFetch io).done

/-- RSPQ_HEAD_WRITE (R429). -/
def execRspqHeadWrite (page : Nat) (v : BitVec 16) (s : State) : Host.Outcome State Fault Refusal := (s.headWrite page v).done

/-- RING_ENABLE (R428, R466). -/
def execRingEnable (page : Nat) (cmdqLog : Nat) (rspqLog : Nat) (s : State) : Host.Outcome State Fault Refusal :=
  (s.ringEnable page cmdqLog rspqLog).done

/-- RING_RESET (R433). -/
def execRingReset (page : Nat) (s : State) : Host.Outcome State Fault Refusal := (s.ringResetRow page).done

/-- INT_STATUS_CLEAR (R471). -/
def execIntStatusClear (page : Nat) (v : Reg) (s : State) : Host.Outcome State Fault Refusal := (s.intStatusRow page v).done

/-- RSP_READY_MODERATION (R472). -/
def execRspReadyModeration (page : Nat) (s : State) : Host.Outcome State Fault Refusal := (s.rspModeration page).done

/-- EVT_RD_WRITE (R520). -/
def execEvtRdWrite (v : Reg) (s : State) : Host.Outcome State Fault Refusal := (s.evtRdRow v).done

/-- CHAMBER_LO_READ (R465). -/
def execChamberLoRead (s : State) : Host.Outcome State Fault Refusal := s.chamberLoRead.done

/-- COUNTER_LOW_WORD_READ (R468). -/
def execCounterLowWordRead (page : Nat) (index : Nat) (s : State) : Host.Outcome State Fault Refusal := (s.counterLowRead page index).done

/-- BAR0_DARK_READ: R11 to R14, R463: a PCIe read of BAR0 of some size, dark or not. -/
def execBar0DarkRead (addr : Nat) (size : Nat) (s : State) : Host.Outcome State Fault Refusal := (s.pcieRead addr size).done

/-- REGISTER_WRITE (R463 to R467). -/
def execRegisterWrite (addr : Nat) (size : Nat) (v : Reg) (s : State) : Host.Outcome State Fault Refusal :=
  (s.registerWrite addr size v).done

/-- UNCORRECTABLE_REGISTER_READ (R504). -/
def execUncorrectableRegisterRead (unit : Nat) (inst : Nat) (addr : Nat) (spi : Bool) (s : State) : Host.Outcome State Fault Refusal :=
  (s.uncorrectableRead unit inst addr spi).done

/-- PACKET_WRITE (R435, R551). -/
def execPacketWrite (bytes : List Byte) (s : State) : Host.Outcome State Fault Refusal := (s.packetWrite bytes).done

/-- RESPONSE_READ: R435; `whole` says that the transfer read the response to its end. -/
def execResponseRead (whole : Bool) (s : State) : Host.Outcome State Fault Refusal := (s.responseRead whole).done

/-- STATUS_READ (R434). -/
def execStatusRead (s : State) : Host.Outcome State Fault Refusal := s.statusRead.done

/-- REG_READ (R436). -/
def execRegRead (addr : Nat) (s : State) : Host.Outcome State Fault Refusal := (s.regRead addr).done

/-- REG_WRITE (R436). -/
def execRegWrite (addr : Nat) (v : Reg) (s : State) : Host.Outcome State Fault Refusal := (s.regWrite addr v).done

/-- I2C_PACKET_WRITE (R438). -/
def execI2cPacketWrite (bytes : List Byte) (s : State) : Host.Outcome State Fault Refusal := (s.i2cPacketWrite bytes).done

/-- I2C_READ (R438). -/
def execI2cRead (status : Bool) (whole : Bool) (s : State) : Host.Outcome State Fault Refusal := (s.i2cRead status whole).done

/-- PCIE_PERST (R427). -/
def execPciePerst (s : State) : Host.Outcome State Fault Refusal := s.perst.done

/-- JOB_STEP (R453): between two steps at least one command executes, if one waits. -/
def execJobStep (io : JobIo) (s : State) : Host.Outcome State Fault Refusal := (s.executeOldest.jobStep io).done

/-- JOB_COMPLETE (R454). -/
def execJobComplete (token : Nat) (s : State) : Host.Outcome State Fault Refusal := (s.jobComplete token).done

/-- JOB_RECORD_EXPIRY (R454). -/
def execJobRecordExpiry (s : State) : Host.Outcome State Fault Refusal := s.jobExpiry.done

/-- PCIE_D3HOT_TRANSITION (R427). -/
def execPcieD3hotTransition (on : Bool) (s : State) : Host.Outcome State Fault Refusal := (s.d3hot on).done

end Sys2Proof.Machine
end

