-- ==== Sys2Proof/Machine/Dispatch.lean ====
section
/-!
DEFINITION. One arm per command: the meaning of its row.
-/
namespace Sys2Proof.Machine

def exec (i : Instr) (s : State) : Host.Outcome State Fault Refusal :=
  match i with
  | .getInfo q => Sys2Proof.Machine.execGetInfo q s
  | .getVariant q => Sys2Proof.Machine.execGetVariant q s
  | .jobStatus q => Sys2Proof.Machine.execJobStatus q s
  | .jobCancel q => Sys2Proof.Machine.execJobCancel q s
  | .setTenantPolicy q => Sys2Proof.Machine.execSetTenantPolicy q s
  | .echo q => Sys2Proof.Machine.execEcho q s
  | .engineConfig q => Sys2Proof.Machine.execEngineConfig q s
  | .engineEnable q => Sys2Proof.Machine.execEngineEnable q s
  | .engineDisable q => Sys2Proof.Machine.execEngineDisable q s
  | .bitloadSet q => Sys2Proof.Machine.execBitloadSet q s
  | .bitloadMeasure q => Sys2Proof.Machine.execBitloadMeasure q s
  | .txRamp q => Sys2Proof.Machine.execTxRamp q s
  | .captureSamples q => Sys2Proof.Machine.execCaptureSamples q s
  | .multipointConfig q => Sys2Proof.Machine.execMultipointConfig q s
  | .leafProfileSet q => Sys2Proof.Machine.execLeafProfileSet q s
  | .passageOpen q => Sys2Proof.Machine.execPassageOpen q s
  | .passageClose q => Sys2Proof.Machine.execPassageClose q s
  | .passageQuery q => Sys2Proof.Machine.execPassageQuery q s
  | .tableWrite q => Sys2Proof.Machine.execTableWrite q s
  | .tableCommit q => Sys2Proof.Machine.execTableCommit q s
  | .tableRead q => Sys2Proof.Machine.execTableRead q s
  | .protectGroupSet q => Sys2Proof.Machine.execProtectGroupSet q s
  | .keyLoadWrapped q => Sys2Proof.Machine.execKeyLoadWrapped q s
  | .keyRetire q => Sys2Proof.Machine.execKeyRetire q s
  | .cipherBind q => Sys2Proof.Machine.execCipherBind q s
  | .cipherUnbind q => Sys2Proof.Machine.execCipherUnbind q s
  | .kekRotate q => Sys2Proof.Machine.execKekRotate q s
  | .refConfig q => Sys2Proof.Machine.execRefConfig q s
  | .refStatus q => Sys2Proof.Machine.execRefStatus q s
  | .loopConfig q => Sys2Proof.Machine.execLoopConfig q s
  | .timeSet q => Sys2Proof.Machine.execTimeSet q s
  | .domainJoin q => Sys2Proof.Machine.execDomainJoin q s
  | .memFill q => Sys2Proof.Machine.execMemFill q s
  | .scrubConfig q => Sys2Proof.Machine.execScrubConfig q s
  | .memRepair q ok => Sys2Proof.Machine.execMemRepair q ok s
  | .pageRetire q => Sys2Proof.Machine.execPageRetire q s
  | .eccStatus q => Sys2Proof.Machine.execEccStatus q s
  | .eventMask q => Sys2Proof.Machine.execEventMask q s
  | .pmBinRead q => Sys2Proof.Machine.execPmBinRead q s
  | .counterSnapshot q => Sys2Proof.Machine.execCounterSnapshot q s
  | .lifeRead q => Sys2Proof.Machine.execLifeRead q s
  | .leapTableSet q ok => Sys2Proof.Machine.execLeapTableSet q ok s
  | .powerStateSet q => Sys2Proof.Machine.execPowerStateSet q s
  | .perfLevelSet q => Sys2Proof.Machine.execPerfLevelSet q s
  | .driplineConfig q => Sys2Proof.Machine.execDriplineConfig q s
  | .belayRelease q => Sys2Proof.Machine.execBelayRelease q s
  | .powerAccountRead q => Sys2Proof.Machine.execPowerAccountRead q s
  | .reset q => Sys2Proof.Machine.execReset q s
  | .fwUpdate q => Sys2Proof.Machine.execFwUpdate q s
  | .fuseStatus q => Sys2Proof.Machine.execFuseStatus q s
  | .ulinkConfig q => Sys2Proof.Machine.execUlinkConfig q s
  | .ulinkStatus q => Sys2Proof.Machine.execUlinkStatus q s
  | .hostPortConfig q => Sys2Proof.Machine.execHostPortConfig q s
  | .hostTableLoad q => Sys2Proof.Machine.execHostTableLoad q s
  | .flexeCalendarSet q => Sys2Proof.Machine.execFlexeCalendarSet q s
  | .hkSequenceSet q => Sys2Proof.Machine.execHkSequenceSet q s
  | .hkFilterSet q => Sys2Proof.Machine.execHkFilterSet q s
  | .hkRead q => Sys2Proof.Machine.execHkRead q s
  | .calPolicy q => Sys2Proof.Machine.execCalPolicy q s
  | .calRun q => Sys2Proof.Machine.execCalRun q s
  | .cmdqTailDoorbell page v => Sys2Proof.Machine.execCmdqTailDoorbell page v s
  | .ringFetch io => Sys2Proof.Machine.execRingFetch io s
  | .rspqHeadWrite page v => Sys2Proof.Machine.execRspqHeadWrite page v s
  | .ringEnable page cmdqLog rspqLog => Sys2Proof.Machine.execRingEnable page cmdqLog rspqLog s
  | .ringReset page => Sys2Proof.Machine.execRingReset page s
  | .intStatusClear page v => Sys2Proof.Machine.execIntStatusClear page v s
  | .rspReadyModeration page => Sys2Proof.Machine.execRspReadyModeration page s
  | .evtRdWrite v => Sys2Proof.Machine.execEvtRdWrite v s
  | .chamberLoRead => Sys2Proof.Machine.execChamberLoRead s
  | .counterLowWordRead page index => Sys2Proof.Machine.execCounterLowWordRead page index s
  | .bar0DarkRead addr size => Sys2Proof.Machine.execBar0DarkRead addr size s
  | .registerWrite addr size v => Sys2Proof.Machine.execRegisterWrite addr size v s
  | .uncorrectableRegisterRead unit inst addr spi => Sys2Proof.Machine.execUncorrectableRegisterRead unit inst addr spi s
  | .packetWrite bytes => Sys2Proof.Machine.execPacketWrite bytes s
  | .responseRead whole => Sys2Proof.Machine.execResponseRead whole s
  | .statusRead => Sys2Proof.Machine.execStatusRead s
  | .regRead addr => Sys2Proof.Machine.execRegRead addr s
  | .regWrite addr v => Sys2Proof.Machine.execRegWrite addr v s
  | .i2cPacketWrite bytes => Sys2Proof.Machine.execI2cPacketWrite bytes s
  | .i2cRead status whole => Sys2Proof.Machine.execI2cRead status whole s
  | .pciePerst => Sys2Proof.Machine.execPciePerst s
  | .jobStep io => Sys2Proof.Machine.execJobStep io s
  | .jobComplete token => Sys2Proof.Machine.execJobComplete token s
  | .jobRecordExpiry => Sys2Proof.Machine.execJobRecordExpiry s
  | .porstNAssert => Sys2Proof.Machine.execPorstNAssert s
  | .sysrstNAssert => Sys2Proof.Machine.execSysrstNAssert s
  | .supplyMonitorTrip code mv => Sys2Proof.Machine.execSupplyMonitorTrip code mv s
  | .thermalTrip temp => Sys2Proof.Machine.execThermalTrip temp s
  | .thermalTripRelease hottest ms => Sys2Proof.Machine.execThermalTripRelease hottest ms s
  | .watchdogExpiry ms => Sys2Proof.Machine.execWatchdogExpiry ms s
  | .doubleLockstepFault => Sys2Proof.Machine.execDoubleLockstepFault s
  | .resetCommandAssert lifeOk => Sys2Proof.Machine.execResetCommandAssert lifeOk s
  | .resetRelease bootSrc clkMode => Sys2Proof.Machine.execResetRelease bootSrc clkMode s
  | .fuseLoad f => Sys2Proof.Machine.execFuseLoad f s
  | .boardConfigRead => Sys2Proof.Machine.execBoardConfigRead s
  | .lpddr6TrainingDone => Sys2Proof.Machine.execLpddr6TrainingDone s
  | .imageAuthenticate => Sys2Proof.Machine.execImageAuthenticate s
  | .bootComplete => Sys2Proof.Machine.execBootComplete s
  | .tableSwap => Sys2Proof.Machine.execTableSwap s
  | .passageFree id => Sys2Proof.Machine.execPassageFree id s
  | .imageBankCopy => Sys2Proof.Machine.execImageBankCopy s
  | .commitStaging bad => Sys2Proof.Machine.execCommitStaging bad s
  | .timedStepIssue errs => Sys2Proof.Machine.execTimedStepIssue errs s
  | .pairedCommitDecide => Sys2Proof.Machine.execPairedCommitDecide s
  | .lineFrameSend n => Sys2Proof.Machine.execLineFrameSend n s
  | .lineFrameReceive n f => Sys2Proof.Machine.execLineFrameReceive n f s
  | .fecCodewordDecode n failed corrected iters => Sys2Proof.Machine.execFecCodewordDecode n failed corrected iters s
  | .domainMessageReceive => Sys2Proof.Machine.execDomainMessageReceive s
  | .timeStatusSend => Sys2Proof.Machine.execTimeStatusSend s
  | .relayTimeout => Sys2Proof.Machine.execRelayTimeout s
  | .lineLos n mv => Sys2Proof.Machine.execLineLos n mv s
  | .lineLosClear n mv => Sys2Proof.Machine.execLineLosClear n mv s
  | .frozenStateExpiry n => Sys2Proof.Machine.execFrozenStateExpiry n s
  | .agcUpdate n inputs want => Sys2Proof.Machine.execAgcUpdate n inputs want s
  | .rxAcquisitionStart n => Sys2Proof.Machine.execRxAcquisitionStart n s
  | .rxLock n probes d skip => Sys2Proof.Machine.execRxLock n probes d skip s
  | .rxAcqFail n met => Sys2Proof.Machine.execRxAcqFail n met s
  | .warmAcquisitionTimeout n => Sys2Proof.Machine.execWarmAcquisitionTimeout n s
  | .rxLockLost n cause => Sys2Proof.Machine.execRxLockLost n cause s
  | .snrWindowEnd n => Sys2Proof.Machine.execSnrWindowEnd n s
  | .firstUseCommit n => Sys2Proof.Machine.execFirstUseCommit n s
  | .rxCdRecentred n => Sys2Proof.Machine.execRxCdRecentred n s
  | .lineCdOutOfSpan n => Sys2Proof.Machine.execLineCdOutOfSpan n s
  | .lineCdInSpan n => Sys2Proof.Machine.execLineCdInSpan n s
  | .lineAdcOvr n => Sys2Proof.Machine.execLineAdcOvr n s
  | .adcClampEngage n lane => Sys2Proof.Machine.execAdcClampEngage n lane s
  | .adcClampRelease n lane => Sys2Proof.Machine.execAdcClampRelease n lane s
  | .rxFrontendLimit n what lane value ms => Sys2Proof.Machine.execRxFrontendLimit n what lane value ms s
  | .txFrontendStep n => Sys2Proof.Machine.execTxFrontendStep n s
  | .dacClipHigh n => Sys2Proof.Machine.execDacClipHigh n s
  | .carrierDriverOn n => Sys2Proof.Machine.execCarrierDriverOn n s
  | .carrierRampStart n => Sys2Proof.Machine.execCarrierRampStart n s
  | .carrierRampEnd n => Sys2Proof.Machine.execCarrierRampEnd n s
  | .carrierLaserOff n => Sys2Proof.Machine.execCarrierLaserOff n s
  | .blockIngress a x => Sys2Proof.Machine.execBlockIngress a x s
  | .blockEgress a room => Sys2Proof.Machine.execBlockEgress a room s
  | .hostPortUp lane pcs => Sys2Proof.Machine.execHostPortUp lane pcs s
  | .hostPortDown lane cause bad => Sys2Proof.Machine.execHostPortDown lane cause bad s
  | .hostPortTimeout lane cause => Sys2Proof.Machine.execHostPortTimeout lane cause s
  | .hostFecWindowEnd lane hist uncorr => Sys2Proof.Machine.execHostFecWindowEnd lane hist uncorr s
  | .hostAdaptLimit lane which => Sys2Proof.Machine.execHostAdaptLimit lane which s
  | .txTapStep lane ctle ffe dfe => Sys2Proof.Machine.execTxTapStep lane ctle ffe dfe s
  | .flexeCalSwitch g => Sys2Proof.Machine.execFlexeCalSwitch g s
  | .flexeCalTimeout g => Sys2Proof.Machine.execFlexeCalTimeout g s
  | .flexeCalRequest g cal => Sys2Proof.Machine.execFlexeCalRequest g cal s
  | .flexeGroupDown g cause crcErrors losses => Sys2Proof.Machine.execFlexeGroupDown g cause crcErrors losses s
  | .flexeGroupUp g => Sys2Proof.Machine.execFlexeGroupUp g s
  | .protectSelect id => Sys2Proof.Machine.execProtectSelect id s
  | .protectRevert id => Sys2Proof.Machine.execProtectRevert id s
  | .protectSkewClear id => Sys2Proof.Machine.execProtectSkewClear id s
  | .cipherSegment id ch fault => Sys2Proof.Machine.execCipherSegment id ch fault s
  | .cipherPairSelftestDone k failed => Sys2Proof.Machine.execCipherPairSelftestDone k failed s
  | .cipherTagCheck id ch => Sys2Proof.Machine.execCipherTagCheck id ch s
  | .keySlotRelease id => Sys2Proof.Machine.execKeySlotRelease id s
  | .cipherRekeyed id => Sys2Proof.Machine.execCipherRekeyed id s
  | .cipherKeyAge id => Sys2Proof.Machine.execCipherKeyAge id s
  | .refInputLost input quiet => Sys2Proof.Machine.execRefInputLost input quiet s
  | .refInputPresent input => Sys2Proof.Machine.execRefInputPresent input s
  | .refQualified input => Sys2Proof.Machine.execRefQualified input s
  | .refSecondEval ms loopFreq => Sys2Proof.Machine.execRefSecondEval ms loopFreq s
  | .loopNarrowStep => Sys2Proof.Machine.execLoopNarrowStep s
  | .oscOffsetWrite temp mtpOk => Sys2Proof.Machine.execOscOffsetWrite temp mtpOk s
  | .ppsInEdge => Sys2Proof.Machine.execPpsInEdge s
  | .qlTimeout input => Sys2Proof.Machine.execQlTimeout input s
  | .timePartnerOffset input off => Sys2Proof.Machine.execTimePartnerOffset input off s
  | .timeElasticSlip input theta => Sys2Proof.Machine.execTimeElasticSlip input theta s
  | .domainJoinApply => Sys2Proof.Machine.execDomainJoinApply s
  | .burstSync n sub time decisions power => Sys2Proof.Machine.execBurstSync n sub time decisions power s
  | .burstHeader n sub header => Sys2Proof.Machine.execBurstHeader n sub header s
  | .burstDecode n sub b => Sys2Proof.Machine.execBurstDecode n sub b s
  | .windowMissed n sub w ch profBad => Sys2Proof.Machine.execWindowMissed n sub w ch profBad s
  | .leafBurstSend n sub w ch => Sys2Proof.Machine.execLeafBurstSend n sub w ch s
  | .calBootDone n ohms temp bad found => Sys2Proof.Machine.execCalBootDone n ohms temp bad found s
  | .calTrigger n c cause temp ohms => Sys2Proof.Machine.execCalTrigger n c cause temp ohms s
  | .calStepEnd n c io => Sys2Proof.Machine.execCalStepEnd n c io s
  | .sliceWindowEval n c w mtpOk => Sys2Proof.Machine.execSliceWindowEval n c w mtpOk s
  | .scrubStep lp found ok => Sys2Proof.Machine.execScrubStep lp found ok s
  | .memoryRead unit inst addr reader flips use => Sys2Proof.Machine.execMemoryRead unit inst addr reader flips use s
  | .eccBucketLeak => Sys2Proof.Machine.execEccBucketLeak s
  | .memRepairSwitch bad ok => Sys2Proof.Machine.execMemRepairSwitch bad ok s
  | .pageRetireSwitch bad ok => Sys2Proof.Machine.execPageRetireSwitch bad ok s
  | .eventRecordWrite e island source payload => Sys2Proof.Machine.execEventRecordWrite e island source payload s
  | .logOverflow => Sys2Proof.Machine.execLogOverflow s
  | .snapshotFreeze => Sys2Proof.Machine.execSnapshotFreeze s
  | .pmBinClose => Sys2Proof.Machine.execPmBinClose s
  | .lifeRecordWrite ok => Sys2Proof.Machine.execLifeRecordWrite ok s
  | .leapTableStale => Sys2Proof.Machine.execLeapTableStale s
  | .powerTransitionDone target corrupt lifeOk => Sys2Proof.Machine.execPowerTransitionDone target corrupt lifeOk s
  | .powerEntryAborted target cause code status => Sys2Proof.Machine.execPowerEntryAborted target cause code status s
  | .wakeSource source gpio level arg message => Sys2Proof.Machine.execWakeSource source gpio level arg message s
  | .driplineCycle n los samples => Sys2Proof.Machine.execDriplineCycle n los samples s
  | .perfLevelChange n confirmed status drift => Sys2Proof.Machine.execPerfLevelChange n confirmed status drift s
  | .vTrimRecompute n drift => Sys2Proof.Machine.execVTrimRecompute n drift s
  | .pmAlert code status => Sys2Proof.Machine.execPmAlert code status s
  | .pmbusTelemetryPoll xs => Sys2Proof.Machine.execPmbusTelemetryPoll xs s
  | .guideActiveTrap cause => Sys2Proof.Machine.execGuideActiveTrap cause s
  | .guideTakeover => Sys2Proof.Machine.execGuideTakeover s
  | .guideStandbyTrap cause => Sys2Proof.Machine.execGuideStandbyTrap cause s
  | .guideStandbyReady failed => Sys2Proof.Machine.execGuideStandbyReady failed s
  | .ulinkLaneLock p lane blocks skew => Sys2Proof.Machine.execUlinkLaneLock p lane blocks skew s
  | .ulinkFrameSend p depart => Sys2Proof.Machine.execUlinkFrameSend p depart s
  | .ulinkFrameReceive p f => Sys2Proof.Machine.execUlinkFrameReceive p f s
  | .ulinkPortTimeout p => Sys2Proof.Machine.execUlinkPortTimeout p s
  | .ulinkRefclkMeasure ppm peak => Sys2Proof.Machine.execUlinkRefclkMeasure ppm peak s
  | .hkFrame adc0 adc1 => Sys2Proof.Machine.execHkFrame adc0 adc1 s
  | .hkThermalEval => Sys2Proof.Machine.execHkThermalEval s
  | .captureTrigger n => Sys2Proof.Machine.execCaptureTrigger n s
  | .pcieD3hotTransition on => Sys2Proof.Machine.execPcieD3hotTransition on s
  | .pmGaugeSample => Sys2Proof.Machine.execPmGaugeSample s
  | .tapInstructionUpdate code => Sys2Proof.Machine.execTapInstructionUpdate code s

end Sys2Proof.Machine
end

