-- ==== Sys2Proof/Machine/Package.lean ====
section
/-!
DEFINITION. The package (20_package_pins.md, R671 to R685): what stands at each ball, the rails and their limits, and how the ball map
depends on the part. A ball is named by its row and column, 1 to 96 (R672).
-/
namespace Sys2Proof.Machine

/-- The rails at the balls (Table 20.8). -/
inductive RailPin where
  | we (n : Nat) | cv (n : Nat) | cvh | fab | hostd | vddaHost | lamp | ioLamp | io | mtp | lpPhy | lpVddq
  deriving DecidableEq, Repr

/-- What a ball carries. `neg` is the _N leg of a pair; a lane of a line pair is 0 XI, 1 XQ, 2 YI, 3 YQ. `pin` is a signal of the corners or
the link block that stands once. `lp6` is an entry of the list of R679. -/
inductive Ball where
  | vss | dnc
  | rail (r : RailPin)
  | weTx (n lane : Nat) (neg : Bool) | weRx (n lane : Nat) (neg : Bool)
  | losdet (n : Nat) | lsrEn (n : Nat) | drvEn (n : Nat) | tiaGc (n : Nat)
  | hostTx (lane : Nat) (neg : Bool) | hostRx (lane : Nat) (neg : Bool)
  | ulTx (lane : Nat) (neg : Bool) | ulRx (lane : Nat) (neg : Bool)
  | pcieTx (lane : Nat) (neg : Bool) | pcieRx (lane : Nat) (neg : Bool)
  | refin (k : Nat) (neg : Bool) | clkout (k : Nat) (neg : Bool)
  | intN (k : Nat) | gpio (k : Nat) | hkIn (k : Nat)
  | lp6 (channel entry : Nat)
  | pin (name : String)
  deriving DecidableEq, Repr

/-! The mechanical figures of Table 20.1, in micrometres where they are lengths. -/

/-- Side of the body. -/
def bodyUm : Nat := 92500
/-- Balls on a side of the grid. -/
def gridBalls : Nat := 96
/-- Pitch of the grid. -/
def pitchUm : Nat := 900
/-- Nominal height from board to lid top. -/
def heightUm : Nat := 4600
/-- The largest static load on the lid in newtons. -/
def lidLoadN : Nat := 400

/-- The position of a ball from the centre of the body, in half pitches rightwards and downwards: the array is centred (Table 20.1). -/
def ballOffset (row col : Nat) : Int × Int := (2 * (col : Int) - 97, 2 * (row : Int) - 97)

/-! Regions (R673 to R680). -/

/-- Does a number lie in a range? -/
def inSpan (x lo hi : Nat) : Bool := lo ≤ x && x ≤ hi

/-- Entry `k` of a list of balls, VSS beyond its end (R674). -/
def listed (l : List Ball) (k : Nat) : Ball := (l[k]?).getD .vss

/-- Entry `k` of pairs _P, _N in ascending order. -/
def pairOf (f : Nat → Bool → Ball) (k : Nat) : Ball := f (k / 2) (k % 2 == 1)

/-- The block of a top engine and its power (R675): rows 1 to 24, columns 9 to 88. `up` is 0 for WE0 to WE3 and 4 for their mirror images. -/
def engineBall (up row col : Nat) : Ball :=
  let n := up + (col - 9) / 20
  let x := (col - 9) % 20
  let lane := x / 5
  let pair := x < 20 && (x % 5 == 1 || x % 5 == 2)
  if row = 2 ∧ pair then .weTx n lane (x % 5 == 2)
  else if row = 6 ∧ pair then .weRx n lane (x % 5 == 2)
  else if row = 8 then
    match x with
    | 1 => .losdet n | 6 => .lsrEn n | 11 => .drvEn n | 16 => .tiaGc n
    | _ => .vss
  else if inSpan row 9 12 ∧ x % 2 = 0 then .rail (.cv n)
  else if inSpan row 13 24 ∧ (row + col) % 2 = 0 then .rail (.we n)
  else .vss

/-- The left host edge (R676), rows 9 to 88, columns 1 to 8; `up` is 0 for lanes 0 to 63 and 64 for their mirror images. -/
def hostBall (up row col : Nat) : Ball :=
  let b := (row - 9) / 5
  let k := (row - 9) % 5
  let half := if k < 2 then 0 else 2
  let neg := k == 1 || k == 4
  if k = 2 then .vss
  else
    match col with
    | 1 => .hostTx (up + 4 * b + half) neg
    | 3 => .hostTx (up + 4 * b + half + 1) neg
    | 6 => .hostRx (up + 4 * b + half) neg
    | 8 => .hostRx (up + 4 * b + half + 1) neg
    | _ => .vss

/-- The left host power band (R676), rows 25 to 72, columns 9 to 16. -/
def hostPower (row col : Nat) : Ball :=
  if row % 2 = 0 ∨ col % 2 = 0 then .vss else if col = 9 then .rail .vddaHost else .rail .hostd

/-- Corner A, rows 2, 4, 6 and 8 (Table 20.4). -/
def cornerA : List Ball :=
  (["PORST_N", "SYSRST_N", "BOOT_SRC0", "BOOT_SRC1", "CLK_MODE0", "CLK_MODE1", "XO_IN", "XO_OUT"] ++
   ["TCK", "TMS", "TDI", "TDO", "TRST_N", "PPS_IN", "PPS_OUT", "I2CT_SCL"] ++
   ["I2CT_SDA", "TSPI_CS_N", "TSPI_SCK", "TSPI_MOSI", "TSPI_MISO", "PM_SCL", "PM_SDA", "PM_ALERT_N"] ++
   ["AVS_CLK", "AVS_MDATA", "AVS_SDATA", "TDIODE_P", "TDIODE_N", "CALRES_P", "CALRES_N"]).map .pin

/-- Corner C, rows 90, 92, 94 and 96 (Table 20.6). -/
def cornerC : List Ball :=
  (["FSPI_CS_N", "FSPI_SCK", "FSPI_IO0", "FSPI_IO1", "FSPI_IO2", "FSPI_IO3", "I2C0_SCL", "I2C0_SDA"] ++
   ["I2C1_SCL", "I2C1_SDA"]).map .pin ++ (List.range 22).map .gpio

/-- Corner B (Table 20.5): entry `k` of its even rows. -/
def cornerB (k : Nat) : Ball :=
  if k < 16 then pairOf .refin k else if k < 24 then pairOf .clkout (k - 16) else if k < 28 then .intN (k - 24) else .vss

/-- Entry `i` of the link block (R678). -/
def linkBall (i : Nat) : Ball :=
  if i < 32 then pairOf .ulTx i
  else if i < 64 then pairOf .ulRx (i - 32)
  else if i = 64 then .pin "UL_REFCLK_P" else if i = 65 then .pin "UL_REFCLK_N"
  else if i < 74 then pairOf .pcieTx (i - 66)
  else if i < 82 then pairOf .pcieRx (i - 74)
  else if i = 82 then .pin "PCIE_REFCLK_P" else if i = 83 then .pin "PCIE_REFCLK_N"
  else if i = 84 then .pin "PCIE_PERST_N"
  else if i < 95 then .gpio (22 + i - 85)
  else .vss

/-- An LPDDR6 block whose first row is `top` (R679). -/
def lpBall (channel top row col : Nat) : Ball :=
  let k := (row - top) / 2 * 16 + (col - 33) / 2
  if row % 2 = 0 ∧ col % 2 = 0 then
    if k < 51 + 2 * channel then .lp6 channel k else .vss
  else if row % 2 = 1 ∧ col % 2 = 1 then
    if k < 12 then .rail .lpPhy else if k < 24 then .rail .lpVddq else .vss
  else .vss

/-- The small rails at the odd positions of their block (R680). -/
def smallRails : List Ball :=
  List.replicate 8 (.rail .lamp) ++ List.replicate 4 (.rail .ioLamp) ++ List.replicate 16 (.rail .io) ++
    List.replicate 2 (.rail .mtp) ++ List.replicate 16 (.rail .cvh) ++ List.replicate 16 .dnc

/-- The place of a position among those of the even rows of a corner, counted row by row. -/
def cornerIndex (row col : Nat) : Nat := ((row - 1) % 8 / 2) * 8 + (col - 1) % 8

/-- The ball at a position (R673); none outside the grid. -/
def ballAt (row col : Nat) : Option Ball :=
  if !(inSpan row 1 96 && inSpan col 1 96) then none
  else if inSpan col 9 88 && row ≤ 24 then some (engineBall 0 row col)
  else if inSpan col 9 88 && row ≥ 73 then some (engineBall 4 (97 - row) col)
  else if inSpan row 9 88 && col ≤ 8 then some (hostBall 0 row col)
  else if inSpan row 9 88 && col ≥ 89 then some (hostBall 64 row (97 - col))
  else if row ≤ 8 ∨ row ≥ 89 then
    if row % 2 = 1 then some .vss
    else
      let k := cornerIndex row col
      some (if row ≤ 8 ∧ col ≤ 8 then listed cornerA k
        else if row ≤ 8 then cornerB k
        else if col ≤ 8 then listed cornerC k
        else .hkIn k)
  else if col ≤ 16 then some (hostPower row col)
  else if col ≥ 81 then some (hostPower row (97 - col))
  else if inSpan row 25 32 && inSpan col 33 64 then some (lpBall 0 25 row col)
  else if inSpan row 65 72 && inSpan col 33 64 then some (lpBall 1 65 row col)
  else if inSpan row 41 56 && inSpan col 25 48 then
    some (if row % 2 = 0 ∧ col % 2 = 0 then linkBall ((row - 42) / 2 * 12 + (col - 26) / 2) else .vss)
  else if inSpan row 57 64 && inSpan col 17 48 then
    some (if row % 2 = 1 ∧ col % 2 = 1 then listed smallRails ((row - 57) / 2 * 16 + (col - 17) / 2) else .vss)
  else if inSpan row 33 64 && inSpan col 49 80 then
    some (if row % 2 = 1 ∧ col % 2 = 1 then .rail .fab else .vss)
  else some .vss

/-- Is a ball bonded to the die on a part (R684): every ball but the pairs of lanes 64 to 127 where 64 lanes are bonded? -/
def bonded (v : Variant) : Ball → Bool
  | .hostTx l _ => l < 64 || !v.bond64
  | .hostRx l _ => l < 64 || !v.bond64
  | .dnc => false
  | _ => true

/-- The balls of a channel that carry data, clocks, commands and selects (R679); entries 51 and 52 of channel 1 are sense inputs. -/
def lpSense (channel entry : Nat) : Bool := channel == 1 && entry ≥ 51

/-! Rails (R681, R682). -/

/-- The limits of a rail at the balls (Table 20.8): its range in microvolts where the manual gives one, its largest current in milliamperes,
its balls and whether it is of group B. -/
structure RailSpec where
  range : Option (Nat × Nat)
  maxMa : Nat
  balls : Nat
  groupB : Bool
  deriving DecidableEq, Repr

/-- Table 20.8; `setMv` is the set-point of a VDD_WE (R563). The range of LP6_VDDQ is JESD209-6's. -/
def railSpec (setMv : Nat) : RailPin → RailSpec
  | .we _ => { range := some (setMv * 970, setMv * 1030), maxMa := 30000, balls := 120, groupB := true }
  | .cv _ => { range := some (970000, 1030000), maxMa := 9000, balls := 40, groupB := true }
  | .cvh => { range := some (1746000, 1854000), maxMa := 4000, balls := 16, groupB := false }
  | .fab => { range := some (727500, 772500), maxMa := 70000, balls := 256, groupB := false }
  | .hostd => { range := some (727500, 772500), maxMa := 50000, balls := 144, groupB := true }
  | .vddaHost => { range := some (970000, 1030000), maxMa := 15000, balls := 48, groupB := false }
  | .lamp => { range := some (727500, 772500), maxMa := 1000, balls := 8, groupB := false }
  | .ioLamp => { range := some (1710000, 1890000), maxMa := 200, balls := 4, groupB := false }
  | .io => { range := some (1710000, 1890000), maxMa := 500, balls := 16, groupB := false }
  | .mtp => { range := some (2375000, 2625000), maxMa := 20, balls := 2, groupB := false }
  | .lpPhy => { range := some (727500, 772500), maxMa := 4000, balls := 24, groupB := true }
  | .lpVddq => { range := none, maxMa := 2000, balls := 24, groupB := true }

/-- The rail of a rail code of R568; VDD_LAMP and VDDIO_LAMP have none. -/
def railOfCode (code : Nat) : Option RailPin :=
  if code ≤ 7 then some (.we code)
  else if 0x10 ≤ code ∧ code ≤ 0x17 then some (.cv (code - 0x10))
  else match code with
    | 8 => some .fab | 9 => some .hostd | 0x0A => some .vddaHost | 0x18 => some .cvh | 0x19 => some .io | 0x1A => some .mtp
    | 0x20 => some .lpPhy | 0x21 => some .lpVddq
    | _ => none

/-! The supply of a pin (Table 20.9). -/

/-- The pins of corner C, which VDDIO supplies. -/
def corner3 (name : String) : Bool := cornerC.contains (.pin name)

/-- The pin's own rail; none for VSS, rails, do-not-connect balls and the diode. -/
def Ball.supply : Ball → Option RailPin
  | .vss | .dnc | .rail _ => none
  | .weTx n _ _ | .weRx n _ _ => some (.cv n)
  | .losdet _ => some .cvh
  | .lsrEn _ | .drvEn _ | .hkIn _ => some .ioLamp
  | .tiaGc _ | .refin .. | .clkout .. | .intN _ | .gpio _ => some .io
  | .hostTx .. | .hostRx .. | .ulTx .. | .ulRx .. | .pcieTx .. | .pcieRx .. => some .vddaHost
  | .lp6 c k => some (if lpSense c k then .ioLamp else .lpVddq)
  | .pin name =>
    if name = "PCIE_PERST_N" ∨ corner3 name then some .io
    else if name = "XO_IN" ∨ name = "XO_OUT" then some .lamp
    else if name = "CALRES_P" ∨ name = "CALRES_N" then some .cvh
    else if name = "TDIODE_P" ∨ name = "TDIODE_N" then none
    else if name = "UL_REFCLK_P" ∨ name = "UL_REFCLK_N" ∨ name = "PCIE_REFCLK_P" ∨ name = "PCIE_REFCLK_N" then some .vddaHost
    else some .ioLamp

/-- Does a pin tolerate up to 1.98 V with its supply off (R687)? Every other pin tolerates 0.3 V. -/
def Ball.tolerant : Ball → Bool
  | .intN _ => true
  | .pin name => ["PORST_N", "SYSRST_N", "PCIE_PERST_N", "I2CT_SCL", "I2CT_SDA", "PM_SCL", "PM_SDA", "I2C0_SCL", "I2C0_SDA", "I2C1_SCL",
      "I2C1_SDA"].contains name
  | _ => false

/-! Boundary scan (R691). -/

/-- Does the chain cover a ball: every digital pin and the AC-coupled lanes? The pins of the test access port itself carry the chain
(assumption 82). -/
def Ball.scanned : Ball → Bool
  | .lsrEn _ | .drvEn _ | .tiaGc _ | .hostTx .. | .hostRx .. | .ulTx .. | .ulRx .. | .pcieTx .. | .pcieRx .. | .refin .. | .clkout ..
  | .intN _ | .gpio _ => true
  | .lp6 c k => !(lpSense c k)
  | .pin name => !(["TCK", "TMS", "TDI", "TDO", "TRST_N", "XO_IN", "XO_OUT", "CALRES_P", "CALRES_N", "TDIODE_P", "TDIODE_N"].contains name)
  | _ => false

/-- Is a ball's cell observe-only? -/
def Ball.observeOnly : Ball → Bool
  | .lsrEn _ | .drvEn _ => true
  | _ => false

end Sys2Proof.Machine
end

