-- ==== Sys2Proof/Machine/Ratings.lean ====
section
/-!
DEFINITION. Power and electrical figures (Tables 0.2, 1.5, 1.6, 7.3, 9.2, 15.4, 15.6 and 21_electrical.md): what the device draws, the limits its
rails, pins and temperatures keep, and how large its load steps are. Powers are in milliwatts, currents in milliamperes, voltages in
millivolts.
-/
namespace Sys2Proof.Machine

/-! Typical power (R5, R41, R561, R570). -/

/-- An engine at its largest symbol rate and PL3: converters, DSP and FEC (Table 1.6). -/
def engineMw : Nat := 8000 + 10000 + 3500

/-- Host SerDes of a part (Table 0.2). -/
def serdesMw (v : Variant) : Nat := if v.bond64 then 18000 else 36000

/-- Switch and fabric of a part. -/
def switchMw (v : Variant) : Nat := if v.bond64 then 6000 else 8000

/-- The cipher of a part: 12 W with eight engines, 9 W with six, 6 W with four. -/
def cipherMw (v : Variant) : Nat := if v.cipher then 1500 * v.engineCount else 0

/-- Control, SRAM and LPDDR6 PHY; timing, housekeeping and I/O. -/
def restMw : Nat := 9000 + 3000

/-- Typical full-load power of a part (Table 0.2, R4, R5). -/
def partMw (v : Variant) : Nat := engineMw * v.engineCount + serdesMw v + switchMw v + cipherMw v + restMw

/-- The figure of Table 0.2, in whole watts. -/
def partWatts (v : Variant) : Nat := partMw v / 1000

/-- Line and host capacity of a part in Gb/s (Table 0.2). -/
def lineGbps (v : Variant) : Nat := 3200 * v.engineCount
def hostGbps (v : Variant) : Nat := if v.bond64 then 12800 else 25600

/-- Typical power of an engine at a level and a symbol rate in 10^-5 GBd (R561): converters 8 W x B / 320, DSP and FEC 13.5 W x (clock / 2.0 GHz)
x (V / 0.75 V)^2. -/
def levelMwOf (level rate : Nat) : Rat :=
  8000 * (rate : Rat) / 32000000 +
    13500 * ((levelMhz level : Rat) / 2000) * ((levelMv level : Rat) / 750) * ((levelMv level : Rat) / 750)

/-- Typical power of an engine in a state (Tables 15.4, 15.6); that of DRIPLINE is given at PERIOD_MS 10 only. -/
def State.engineMwNow (s : State) (n : Nat) : Option Rat :=
  match (s.island (islEng n)).st with
  | .active => some (levelMwOf (s.eng n).pwr.level (if (s.eng n).tx.enabled then (s.eng n).cfg.rateE4 else 0))
  | .parked => some 250
  | .dripline => if (s.eng n).pwr.periodMs = 10 then some 300 else none
  | .off => some 0

/-- Typical power of HOST, ULINK and MEM when they are not ACTIVE (Table 15.4). -/
def idleIslandMw (i : Nat) : IslSt → Option Nat
  | .parked => if i = 11 then some 1500 else if i = 14 then some 50 else if i = 12 then some 100 else none
  | .off => if i = 11 then some 50 else if i = 14 then some 20 else none
  | _ => none

/-- Typical power of the device in DORMANT, beside the board rails left on. -/
def dormantMw : Nat := 400

/-- What each active Umran port adds (R41). -/
def umranPortMw : Nat := 600

/-! Transition times (R547, Table 15.4) in microseconds: entry, and exit to ACTIVE. -/

/-- The times of an island into a state and back. -/
def transitionUs (i : Nat) (st : IslSt) : Option (Nat × Nat) :=
  let engine := 3 ≤ i ∧ i ≤ 10
  match st with
  | .parked => if engine then some (600, 400) else if i = 11 then some (500, 500) else if i = 14 then some (200, 200)
      else if i = 12 then some (500, 2000) else none
  | .dripline => if engine then some (600, 400) else none
  | .off => if engine then some (1000, 40000) else if i = 11 then some (1000, 10000) else if i = 14 then some (200, 2000) else none
  | .active => none

/-! Maximum power and rail currents (R698, R699). -/

/-- Maximum power of a part in watts (Table 21.3). -/
def maxWatts (v : Variant) : Nat :=
  (match v.engineCount, v.cipher with
   | 8, true => 250 | 6, true => 202 | 4, true => 154
   | 8, false => 238 | 6, false => 193 | 4, false => 148
   | _, _ => 0) - (if v.bond64 then 21 else 0)

/-- Typical current of a rail at full load on a part (Table 21.4): the rails of absent engines carry none, and with 64 lanes bonded
VDD_HOSTD and VDDA_HOST take half and VDD_FAB 2 W less; without a cipher VDD_FAB carries its 12 W less. LP6_VDDQ follows the VDDQ
level. -/
def typicalMa (v : Variant) : RailPin → Option Nat
  | .we n => some (if bitAt v.engineMask n then 18000 else 0)
  | .cv n => some (if bitAt v.engineMask n then 7250 else 0)
  | .cvh => some (750 * v.engineCount * 1000 / 1800)
  | .fab => some ((12000 + 8000 + 7000 + 1300 - (12000 - cipherMw v) - (if v.bond64 then 2000 else 0)) * 1000 / 750)
  | .hostd => some (if v.bond64 then 16000 else 32000)
  | .vddaHost => some (if v.bond64 then 6250 else 12500)
  | .lamp => some 400
  | .ioLamp => some 110
  | .io => some 390
  | .mtp => some 20
  | .lpPhy => some 2000
  | .lpVddq => none

/-- The device limits its own load steps (R700): a rail's largest current change in milliamperes, and the nanoseconds over which it is
spread at least. -/
def loadStep : RailPin → Option (Nat × Nat)
  | .we _ => some (4000, 1000)
  | .fab => some (6000, 1280)
  | .hostd => some (2000, 0)
  | _ => none

/-! Absolute limits and operating conditions (R695, R696, R701). -/

/-- The largest voltage of a rail (Table 21.1); the smallest is -300. LP6_VDDQ is JESD209-6's. -/
def absMaxMv : RailPin → Option Nat
  | .we _ | .fab | .hostd | .lamp | .lpPhy => some 900
  | .cv _ | .vddaHost => some 1200
  | .cvh | .io | .ioLamp => some 2100
  | .mtp => some 2900
  | .lpVddq => none

/-- The largest voltage of a digital pin: its supply plus 0.3 V, at most 2.10 V, or what R687 gives with the supply off. -/
def pinMaxMv (b : Ball) (supplyMv : Option Nat) : Nat :=
  match supplyMv with
  | some mv => min (mv + 300) 2100
  | none => if b.tolerant then 1980 else 300

/-- Is a rail within its operating range (R681)? -/
def railInRange (setMv : Nat) (r : RailPin) (uv : Nat) : Bool :=
  match (railSpec setMv r).range with
  | some (lo, hi) => lo ≤ uv && uv ≤ hi
  | none => true

/-- Are the conditions of Table 21.2 met: case temperature and junction temperature in 0.1 degC? -/
def temperatureOk (caseT junction : Int) : Bool := 0 ≤ caseT && caseT ≤ 700 && 0 ≤ junction && junction ≤ 1100

/-- The junction temperature of every rule: the highest of the 12 die sensors (R696), in 0.1 degC. -/
def junctionOf (sensors : List Int) : Option Int :=
  match sensors with
  | [] => none
  | t :: ts => some (ts.foldl max t)

/-- The rise of the hottest sensor over the lid in 0.01 degC for a power in watts (Table 21.5): typical and at most. -/
def lidRise (watts : Nat) : Nat × Nat := (8 * watts, 11 * watts)

/-- The thermal trip, its tolerance, and the release, in 0.1 degC (Table 21.6). -/
def tripTenths : Int := 1150
def tripTolerance : Int := 30
def releaseTenths : Int := 1050

/-- Is the oscillator within its accuracy, in 0.001 ppb (R697)? -/
def oscillatorOk (off : Int) : Bool := off.natAbs ≤ 10000000

/-! The line converters and the receiver (R259, R325 to R327, R706). -/

/-- Do the figures of Table 9.2 hold at a sample rate in 0.01 GS/s: from 75 to 400? -/
def converterRateOk (rate : Nat) : Bool := 7500 ≤ rate && rate ≤ 40000

/-- The sample rate of an engine in 0.01 GS/s: 1.25 times its symbol rate. -/
def EngCfg.rate100 (c : EngCfg) : Nat := c.rateE4 / 800

/-- I_REF in microamperes across a resistor in ohms at CALRES (R326): the bandgap gives 0.6 mA across 2.000 kilo-ohms. -/
def iRefOf (ohms : Nat) : Nat := 1200000 / max 1 ohms

/-- Is the resistor one that the board may fit, in 0.1 ohm: 2.000 kilo-ohms within 0.05 % (R327)? -/
def resistorOk (tenths : Nat) : Bool := 19990 ≤ tenths && tenths ≤ 20010

/-- What the light brings beside noise, as Table 7.3 counts it: instantaneous DGD in 0.01 ps, residual dispersion in ps/nm, PDL in 0.1 dB, SOP
rotation in krad/s, combined linewidth in kHz, carrier offset in MHz and its change in MHz/ms, and symbol clock offset in ppm. -/
structure Impairment where
  dgd       : Nat
  residual  : Nat
  pdl       : Nat
  sop       : Nat
  linewidth : Nat
  offset    : Int
  drift     : Int
  clock     : Int
  deriving DecidableEq, Repr

/-- The largest DGD, in 0.01 ps: 6 subcarrier symbol periods or 200 ps. -/
def EngCfg.dgdMax (c : EngCfg) : Nat := min 20000 (60000000000 * c.carriers / max 1 c.rateE4)

/-- Does the receiver tolerate an impairment, with at most 0.5 dB of SNR lost to each (R259)? -/
def EngCfg.tolerates (c : EngCfg) (x : Impairment) : Bool :=
  x.dgd ≤ c.dgdMax && x.residual ≤ c.rres && x.pdl ≤ 60 && x.sop ≤ 5000 && x.linewidth ≤ 300 && x.offset.natAbs ≤ 5000 &&
    x.drift.natAbs ≤ 50 && x.clock.natAbs ≤ 200

/-! Digital pins (R702). -/

/-- What a digital input of a supply reads at a voltage: nothing is stated between the thresholds. -/
def inputLevel (supplyMv mv : Nat) : Option Bool :=
  if 100 * mv ≥ 65 * supplyMv then some true else if 100 * mv ≤ 35 * supplyMv then some false else none

/-- The voltage of an output under its load: at least for high, at most for low. -/
def outputMvOf (supplyMv : Nat) (high : Bool) : Nat := if high then supplyMv - 450 else 450

/-! Interfaces (R703 to R705). -/

/-- The fastest clock of an interface in kHz (Table 21.8). -/
inductive DigitalIf where
  | tspi | fspi4 | fspi1 | i2c | pmbus | avs | jtag | gpio
  deriving DecidableEq, Repr

def DigitalIf.maxKhz : DigitalIf → Nat
  | .tspi => 50000 | .fspi4 => 104000 | .fspi1 => 50000 | .i2c => 1000 | .pmbus => 400 | .avs => 10000 | .jtag => 25000 | .gpio => 25000

/-- May a frequency in hertz stand at REFINk (R704)? -/
def refinOk (hz : Nat) : Bool := 8000 ≤ hz && hz ≤ 800000000

/-- Is a PPS_IN pulse long enough, in nanoseconds (R703)? -/
def ppsPulseOk (ns : Nat) : Bool := ns ≥ 100

end Sys2Proof.Machine
end

