-- ==== Sys2Proof/Machine/Covered.lean ====
section
/-!
DEFINITION. The single-fault promise (17_faults.md): the classes and their worst cases (R605, R608), the conditions under which the promise
holds (R609), and what is compared before and after a recovery (R612, R613).
-/
namespace Sys2Proof.Machine

/-! The worst cases (R605, R608), in tenths of a nanosecond. -/

/-- A codeword lasts n / R_CH: `n` bits at a coded channel rate in Mb/s. -/
def codewordTenths (n rate : Nat) : Nat := (n * 10000 + rate / 2) / rate

/-- The slowest native configuration: 60 GBd, H 2.00 and ZFEC-S25, 236.25 Gb/s; and the receive pipeline at H_CD 384 ns. -/
def slowCodeword : Nat := codewordTenths 40960 236250
def slowPipeline : Nat := 12840

/-- Loss of light: 3 000 ns to declare, and the next boundary. -/
def lightWorst : Nat := 30000 + 12800

/-- FEC signal failure: eight codewords, the pipeline, the FEC, 50 ns to declare, and the next boundary. -/
def fecWorst (codeword pipeline : Nat) : Nat := 8 * codeword + pipeline + 31000 + 500 + 12800

/-- Loss of frame: two bad markers, one codeword, the pipeline, the FEC, and the next boundary. -/
def frameWorst (codeword pipeline : Nat) : Nat := 25600 + codeword + pipeline + 31000 + 12800

/-- Failure of an ADC slice: three windows, 30 ns to declare, 100 ns to replace and the last affected codeword, at 75 or 400 GS/s. -/
def sliceWorst (gsps codeword : Nat) : Nat := 3 * (2 ^ 18 * 10000 / gsps) / 1000 + 300 + 1000 + codeword

/-- The worst-case interruption of a passage by a covered fault in ns (Table 17.1); for class 1 whether light was lost, for class 5 whether
the converter runs at 400 GS/s. Classes 2, 3, 6 and 7 cost no block. -/
def worstNs (cls : Nat) (light fast : Bool) : Nat :=
  match cls with
  | 1 => if light then 4280 else 8400
  | 4 => 1280
  | 5 => if fast then 2300 else 10800
  | _ => 0

/-! The conditions (R609). -/

/-- What the board keeps, as far as R609 asks: each rail's voltage in microvolts, and the case temperature in 0.1 degC. -/
structure BoardNow where
  rails : List (RailPin × Nat)
  caseT : Int
  deriving DecidableEq, Repr

/-- Is the case temperature within 0 to 70 degC, and every rail in range? A VDD_WE is judged by the set-point in force. -/
def State.boardOk (s : State) (b : BoardNow) : Bool :=
  0 ≤ b.caseT && b.caseT ≤ 700 &&
    b.rails.all fun r => railInRange (match r.1 with | .we n => s.supplyMv n (s.eng n).pwr.level | _ => 0) r.1 r.2

/-- Single fault: no fault of classes 1 to 5 was declared within the last second (R609, R619). -/
def State.single (s : State) : Bool :=
  decide (s.guide.boundVoid ≤ s.mono) && (match s.guide.lastFault with | some (_, t, _) => s.since t secQ | none => true)

/-- Protection, for class 1: the passage has a live protect leg that carries it without fault and is usable, no force holds the selector,
and its engines are in neither hub nor leaf role. -/
def State.protected (s : State) (p : Passage) : Bool :=
  p.chooses && s.canSwitch p && p.force == 0 &&
    [p.ing, p.eg].all fun e => e.kind != 3 || (s.eng e.index).mp.role == 0

/-- Does R86 cover a passage: no ingress leg on an engine whose dispersion is out of span (R257)? -/
def State.inSpan (s : State) (p : Passage) : Bool := p.legs.all fun l => l.1 || l.2.kind != 3 || !((s.eng l.2.index).rx.outSpan)

/-- Is a fault of a class covered for a passage, so that R607 and R612 hold? -/
def State.covered (s : State) (p : Passage) (cls : Nat) (b : BoardNow) : Bool :=
  s.boardOk b && !s.guide.broken && s.inSpan p &&
    (cls == 6 || cls == 7 || (s.single && (cls != 1 || s.protected p)))

/-- The bound on an interruption that the device states now: none while the conditions it watches fail (R609, R619). -/
def State.statedNs (s : State) (cls : Nat) (light fast : Bool) : Option Nat :=
  if s.guide.broken || decide (s.mono < s.guide.boundVoid) then none else some (worstNs cls light fast)

/-! What is compared (R612, R613). -/

/-- A passage without the counters, the flags that report a condition and the contents inside an interruption. -/
def Passage.compared (p : Passage) : Passage :=
  { p with
    maxSeen := 0, blocksIn := 0, blocksOut := 0, idleIns := 0, idleDel := 0, adaptDrops := 0, subst := 0, late := 0
    failing := false, failFrom := (0, 0), gap := none, lead := none, tagFail := false, unusable := false, cut := none, snap := none
    work := {}, prot := {}, skewNs := none, inBudget := 0, cleanAt := none, slipCh := none
    queue := [], queueP := [], secret := [], secretP := [], opened := [], sealed := [], bridgeW := [], bridgeP := [] }

/-- An engine's configuration, role, profile and schedule. -/
def Engine.compared (e : Engine) : Engine :=
  { cfg := e.cfg
    tx := { enabled := e.tx.enabled, prof := e.tx.prof, roll := e.tx.roll }
    mp := { role := e.mp.role, leafId := e.mp.leafId, hubNode := e.mp.hubNode, syncErr := e.mp.syncErr, capture := e.mp.capture
            loss := e.mp.loss, own := e.mp.own, profs := e.mp.profs } }

/-- The timing configuration and the selected inputs. -/
def Timing.compared (t : Timing) : Timing :=
  { inputs := t.inputs.map fun e => (e.1, { priority := e.2.priority, qlMode := e.2.qlMode, ql := e.2.ql, timeUse := e.2.timeUse
                                            qualifyS := e.2.qualifyS, freqHz := e.2.freqHz, compPs := e.2.compPs, periodLog := e.2.periodLog })
    selected := t.selected, source := t.source, trackBw := t.trackBw, avgS := t.avgS, guardS := t.guardS, flags := t.flags
    holdQl := t.holdQl, wtrS := t.wtrS, slew := t.slew, disputePpb := t.disputePpb, offsetPpb := t.offsetPpb, d1Soft := t.d1Soft
    d1Hard := t.d1Hard, d100Soft := t.d100Soft, d100Hard := t.d100Hard, cleanS := t.cleanS, ppsWidth := t.ppsWidth
    clks := t.clks.map fun e => (e.1, { e.2 with from_ := none }) }

/-- The traffic-visible and configuration-visible state (R612): passages; banks, commits and generation; profiles, roles and schedules of every
engine; key slots, KEKs and policies; the timing configuration and the selected inputs; everything else at its reset value (R613). -/
def State.visible (s : State) : State :=
  { ({} : State) with
    epoch := s.epoch, node := s.node, generation := s.generation
    variant := s.variant
    pas := s.pas.map fun e => (e.1, e.2.compared)
    tab := s.tab
    engs := s.engs.map fun e => (e.1, e.2.compared)
    cip := { ({} : Cipher) with slots := s.cip.slots, keks := s.cip.keks, mgmt := s.cip.mgmt, prepared := s.cip.prepared }
    com := { ({} : Com) with policies := s.com.policies }
    host := { ({} : HostSide) with
      ports := s.host.ports.map fun e => (e.1, { e.2 with up := false, wasUp := false, ref := 0, timedOut := false, degraded := false
                                                          winCw := 0, winSym := 0, step := 0, pcs := {}, rxBytes := none })
      table := s.host.table, tableTag := s.host.tableTag, ulTable := s.host.ulTable, ulTag := s.host.ulTag }
    tim := s.tim.compared }

end Sys2Proof.Machine
end

