-- ==== Sys2Proof/Machine/Pins.lean ====
section
/-!
DEFINITION. What the device does at each of its pins (R17, R593, R686): the state from reset until the event of Table 16.6, the function
after it, and the state with the supply off.
-/
namespace Sys2Proof.Machine

/-- What the device does at a pin (Table 20.9). `driven` is its interface's own signalling. -/
inductive PinState where
  | low | high
  | driven
  | hiZ | pullUp | pullDown
  | released                      -- open drain, not pulled low
  | idle                          -- electrical idle
  | common                        -- common mode, zero differential
  | terminated | unterminated | noTermination
  | running                       -- the oscillator
  | stopped                       -- a clock pair that stands still
  | notDriven
  | unbonded
  | none                          -- no connection to the device's circuits
  deriving DecidableEq, Repr

/-- The GPIO pins that carry gain-control outputs and their levels (R234). -/
def State.gainPins (s : State) : List (Nat × Bool) :=
  (List.range 8).filterMap fun n =>
    let e := s.eng n
    if e.cfg.gpio < 32 then some (e.cfg.gpio, e.tx.gainPin s.mono) else none

/-- A level at a pin. -/
def PinState.level (b : Bool) : PinState := if b then .high else .low

/-- The rail code of a rail; VDD_LAMP and VDDIO_LAMP have none. -/
def RailPin.code : RailPin → Option Nat
  | .we n => some n | .cv n => some (0x10 + n) | .fab => some 8 | .hostd => some 9 | .vddaHost => some 0x0A | .cvh => some 0x18
  | .io => some 0x19 | .mtp => some 0x1A | .lpPhy => some 0x20 | .lpVddq => some 0x21
  | .lamp | .ioLamp => Option.none

/-- Is a rail on: not switched off by the device (R569)? -/
def State.railOn (s : State) (r : RailPin) : Bool :=
  match r.code with
  | some c => (match tget s.power.rails c with | some x => x.on | Option.none => true)
  | Option.none => true

/-- Does a unit's island drive its own pads: lit, and not on belay (R25, R555)? -/
def State.drives (s : State) (u : Nat) : Bool := (s.dark u).isNone && !(s.island (unitIsland u)).belay

/-- A pin with its supply off (Table 20.9). -/
def Ball.unsupplied : Ball → PinState
  | .weRx .. | .hostRx .. | .ulRx .. | .pcieRx .. => .unterminated
  | .losdet _ | .refin .. | .hkIn _ => .hiZ
  | .lsrEn _ | .drvEn _ => .low
  | .intN _ => .released
  | .lp6 c k => if lpSense c k then .hiZ else .notDriven
  | .pin name =>
    if ["I2CT_SCL", "I2CT_SDA", "PM_SCL", "PM_SDA", "I2C0_SCL", "I2C0_SDA", "I2C1_SCL", "I2C1_SDA"].contains name then .released
    else if ["PPS_IN", "CALRES_P", "CALRES_N", "UL_REFCLK_P", "UL_REFCLK_N", "PCIE_REFCLK_P", "PCIE_REFCLK_N"].contains name then .hiZ
    else .notDriven
  | _ => .notDriven

/-- The host lane transmits and receives: it is bonded, in a configured port, and its island drives (R134, R593, R127). -/
def State.laneLive (s : State) (lane : Nat) : Bool := s.drives (0x0B00 + lane) && (s.portOf lane).isSome

/-- An Umran lane's port is configured and its island drives (R593, R643). -/
def State.ulLaneLive (s : State) (lane : Nat) : Bool := s.drives (0x0E00 + lane / 4) && s.ulConfigured (lane / 4)

/-- Is the PCIe endpoint released: from stage 0x5 of the boot on, unless its trims were not loaded (R588, R593)? -/
def State.pcieReleased (s : State) : Bool :=
  !s.boot.asserted && s.boot.stage ≥ 5 && !s.boot.loadFail && s.power.dormant != .yes

/-- Has the boot reached a stage (Table 16.8)? -/
def State.atStage (s : State) (k : Nat) : Bool := !s.boot.asserted && s.boot.stage ≥ k

/-- The pins of the corners and the link block that stand once (Tables 16.6, 20.9). -/
def State.namedPin (s : State) (name : String) : PinState :=
  match name with
  | "PPS_OUT" => .level (s.drives 0x0DFE && s.ppsOut)
  | "XO_IN" => .running
  | "XO_OUT" => if s.boot.asserted && s.boot.cause == 1 then .low else .running
  | "TDIODE_P" | "TDIODE_N" => .none
  | "PORST_N" | "BOOT_SRC0" | "BOOT_SRC1" | "CLK_MODE0" | "CLK_MODE1" | "TSPI_SCK" | "TSPI_MOSI" | "PCIE_PERST_N" | "TCK" | "TRST_N" =>
    .pullDown
  | "SYSRST_N" | "TSPI_CS_N" | "TMS" | "TDI" => .pullUp
  | "I2CT_SCL" | "I2CT_SDA" | "I2C0_SCL" | "I2C0_SDA" | "I2C1_SCL" | "I2C1_SDA" => .released
  | "PM_SCL" | "PM_SDA" => if s.atStage 6 then .driven else .released
  | "AVS_CLK" => if s.atStage 6 then .driven else .low
  | "AVS_MDATA" => if s.atStage 6 then .driven else .high
  | "FSPI_CS_N" => if s.atStage 8 then .driven else .high
  | "FSPI_SCK" => if s.atStage 8 then .driven else .low
  | "FSPI_IO0" | "FSPI_IO1" | "FSPI_IO2" | "FSPI_IO3" => if s.atStage 8 then .driven else .pullUp
  | _ => .hiZ

/-- What the device drives at a pin whose supply is on and that no scan instruction has taken. -/
def State.functional (s : State) (b : Ball) : PinState :=
  match b with
  | .vss | .dnc | .rail _ => .none
  | .weTx n _ _ =>
    if s.drives (islEng n * 256 + 0xFE) && decide ((s.eng n).tx.amplitude s.mono ≠ 0) then .driven else .common
  | .weRx .. => .terminated
  | .losdet _ | .hkIn _ | .refin .. => .hiZ
  | .lsrEn n => .level (s.lsrEn n)
  | .drvEn n => .level (s.drvEn n)
  | .tiaGc n => .level (s.drives (islEng n * 256 + 0xFE) && (s.eng n).tx.runs && (s.eng n).rx.tiaLevel s.now)
  | .hostTx l _ => if s.laneLive l then .driven else .idle
  | .hostRx l _ => if s.laneLive l then .terminated else .unterminated
  | .ulTx l _ => if s.ulLaneLive l then .driven else .idle
  | .ulRx l _ => if s.ulLaneLive l then .terminated else .unterminated
  | .pcieTx .. => if s.pcieReleased then .driven else .idle
  | .pcieRx .. => if s.pcieReleased then .terminated else .noTermination
  | .clkout k neg => .level ((s.drives 0x0DFE && s.clkLevel k) != neg)
  | .intN k => if s.drives 0x01FE && s.intPinLow k then .low else .released
  | .gpio k => match (s.gainPins.find? fun e => e.1 == k) with | some e => .level e.2 | Option.none => .pullDown
  | .lp6 c k =>
    if lpSense c k then .hiZ else if s.mem.ready then .driven
    else if k = 32 ∨ k = 33 then .stopped else if 34 ≤ k then .low else .notDriven
  | .pin name => s.namedPin name

/-- What stands at a pin (R593, R686): nothing on a ball that the part does not bond; the scan's own value, not the function's, while an
instruction has taken the pins, with the two enables low (R691, R692). -/
def State.pin (s : State) (b : Ball) : PinState :=
  if !(bonded s.variant b) then .unbonded
  else if (match b.supply with | some r => !(s.railOn r) | Option.none => false) then b.unsupplied
  else if s.tapNow.takes && b.scanned then
    if b.observeOnly then .low else if s.tapNow == .highz then .hiZ else .driven
  else s.functional b

end Sys2Proof.Machine
end

