-- ==== Sys2Proof/Safety.lean ====
section
/-!
DEFINITION. What counts as a safe state and a safe run, and the vocabulary of the statements: when the device takes a command, and what it
means that a command was answered.
-/
namespace Sys2Proof.Machine

/-- No response waits to leave as a domain message: every step sends the responses it makes (R415). -/
abbrev State.settled (s : State) : Prop := s.com.relayed = []

/-- Every memory instance holds its bytes in canonical form: addresses strictly rising, no zero byte listed (R481). -/
abbrev State.memOk (s : State) : Prop := ∀ e ∈ s.mem.insts, Memory.wf e.2.data

/-- A safe state: nothing waits to leave, and memory is canonical. -/
abbrev State.safe (s : State) : Prop := s.settled ∧ s.memOk

/-- `t` is reached from `s` by steps, each of which answered a next state; between steps the outside world may append commands to the
queue. A run in which a step faults or refuses is not safe. -/
inductive SafeRun : State → State → Prop
  | refl (s : State) : SafeRun s s
  | step {s t u : State} : SafeRun s t → step t = .next u → SafeRun s u
  | send {s t : State} (c : Instr) : SafeRun s t → SafeRun s { t with pending := t.pending ++ [c] }

/-- The device takes a command for its own checks: a guide pair serves (R36), the transport carries that tenant (R437, R439), and the
recovery service answers the opcode (R598). -/
abbrev State.takes (s : State) (op : Nat) (q : Request) : Prop :=
  s.serving = true ∧ (q.via = .i2c → q.tenant = 0) ∧ (q.via = .spi → s.com.spiT0Only = true → q.tenant = 0) ∧
  (s.boot.recovery = true → q.tenant = 0 ∧ op ∈ recoveryOps)

/-- A command that was taken and passed its checks is journalled (R447). -/
def State.accepted (s : State) : State := { s with guide := { s.guide with journal := s.guide.journal + 1 } }

/-- The state after a command was answered: the response is sent on the transport that carried it (R425), as a domain message where it came
in one (R415). -/
def State.answer (s : State) (op : Nat) (q : Request) (payload : List Byte) : State := (s.respond op q payload).sendRelayed

/-- The tenant of a request is enabled (R460). -/
abbrev State.tenantOn (s : State) (q : Request) : Prop := (s.policy q.tenant).enabled = true

/-- A change of the firmware's stands in a commit scheduled at a chamber (R105, R114). -/
abbrev State.hasScheduled (s : State) (cc : Nat) (x : FwChange) : Prop := ∃ c ∈ s.tab.commits, c.cc = cc ∧ x ∈ c.changes

end Sys2Proof.Machine
end

