-- ==== Sys2Proof/Certificates/Slice0/Obligations.lean ====
section
/-!
DEFINITION. The statements about this model: what each command does when it completes, what it leaves alone, and the rules of the whole
machine. `answer` is the state with the response sent, `accepted` the state with the command journalled (Safety.lean).
-/
open Sys2Proof Sys2Proof.Machine

/-- The commands that read the device complete for every enabled tenant with the right payload length: GET_INFO, GET_VARIANT and JOB_STATUS
(of a running and of an ended job) answer with the bytes of Tables 12.8, 0.5 and 12.9, taken from the state, and the only other change is
that the command was journalled. -/
def Obligations.GeneralReadsComplete : Prop :=
  (∀ (s : State) (q : Request),
    s.takes 0x0101 q → s.tenantOn q → q.len = 0 →
      exec (.getInfo q) s = .next (s.accepted.answer 0x0101 q
        (le 1 0 ++ le 1 (s.guide.active.getD 0) ++ le 1 (bit s.guide.standby) ++ le 1 q.tenant ++ le 4 s.fwVersion.toNat ++
        le 2 s.node ++ zeros 2 ++ le 4 s.generation ++ le 8 s.chamber ++ le 4 (satN 4 ((s.mono - s.boot.endedAt) / secQ)) ++
        le 1 s.runningJobs.length ++ zeros 3))) ∧
  (∀ (s : State) (q : Request),
    s.takes 0x0102 q → s.tenantOn q → q.len = 0 →
      exec (.getVariant q) s = .next (s.accepted.answer 0x0102 q
        (le 1 0 ++ le 1 s.variant.engineCount ++ le 1 s.variant.engineMask ++
        le 1 (bit s.variant.cipher + 2 * bit s.variant.bond64 + 4 * bit s.variant.safeMode + 8 * bit s.variant.fuseValid) ++
        s.variant.partNumber ++ le 2 (if s.variant.bond64 then 64 else 128) ++
        le 2 (if s.variant.cipher then 64 * s.variant.engineCount else 0) ++ le 1 (if s.variant.cipher then 32 else 0) ++
        le 1 s.variant.dieStep ++ zeros 2))) ∧
  (∀ (s : State) (q : Request) (j : Job),
    s.takes 0x0103 q → s.tenantOn q → q.len = 4 → s.job (q.u 0 4) = some j → q.u 0 4 / 2 ^ 28 = q.tenant → j.ended = none →
      exec (.jobStatus q) s = .next (s.accepted.answer 0x0103 q
        (le 1 0x01 ++ le 1 0 ++ le 1 0 ++ le 1 j.progress ++ le 2 j.op ++ le 2 0 ++ le 8 0))) ∧
  (∀ (s : State) (q : Request) (j : Job) (e : JobEnd),
    s.takes 0x0103 q → s.tenantOn q → q.len = 4 → s.job (q.u 0 4) = some j → q.u 0 4 / 2 ^ 28 = q.tenant → j.ended = some e →
      exec (.jobStatus q) s = .next (s.accepted.answer 0x0103 q
        (le 1 0x02 ++ le 1 e.outcome ++ le 1 (bit e.cancelled + 2 * bit (decide (e.result.length > 4064))) ++
        le 1 (if e.cancelled then j.progress else 100) ++ le 2 j.op ++ le 2 (e.result.take 4064).length ++ le 8 e.chamber ++
        e.result.take 4064)))

/-- ECHO from any enabled tenant with a payload of at most 4 079 bytes answers with STATUS OK followed by the request payload, unchanged, on
every transport, and the only other change is that the command was journalled. With 4 080 bytes it answers the short response BAD_LENGTH
and nothing else changes. -/
def Obligations.EchoReturnsItsPayload : Prop :=
  (∀ (s : State) (q : Request),
    s.takes 0x0106 q → s.tenantOn q → q.len ≤ 4079 →
      exec (.echo q) s = .next (s.accepted.answer 0x0106 q (0 :: q.payload))) ∧
  (∀ (s : State) (q : Request),
    s.takes 0x0106 q → q.len = 4080 →
      exec (.echo q) s = .next (s.answer 0x0106 q [0x12, 0, 0, 0]))

/-- JOB_CANCEL of an ended job answers OK at once; of a running job (other than KEK_ROTATE) it marks the job, whose answer waits for the stop,
and leaves memory, log and ring pages alone. JOB_COMPLETE ends a job whose work is done with its outcome and result and answers the
waiting cancels. JOB_RECORD_EXPIRY drops exactly the records of jobs that ended 60 s ago or before 64 later ones. -/
def Obligations.JobsComplete : Prop :=
  (∀ (s : State) (q : Request) (j : Job),
    s.takes 0x0104 q → s.tenantOn q → q.len = 4 → s.job (q.u 0 4) = some j → q.u 0 4 / 2 ^ 28 = q.tenant → j.ended.isSome = true →
      exec (.jobCancel q) s = .next (s.accepted.answer 0x0104 q [0, 0, 0, 0])) ∧
  (∀ (s : State) (q : Request) (j : Job),
    s.takes 0x0104 q → s.tenantOn q → q.len = 4 → s.job (q.u 0 4) = some j → q.u 0 4 / 2 ^ 28 = q.tenant → j.ended = none →
    j.op ≠ 0x0405 →
      ∃ t, exec (.jobCancel q) s = .next t ∧ t.job (q.u 0 4) = some { j with cancel := true } ∧
        (q.u 0 4, q) ∈ t.jobs.waits ∧ t.jobs.ended = s.jobs.ended ∧ t.log = s.log ∧ t.mem = s.mem ∧ t.com.pages = s.com.pages) ∧
  (∀ (s : State) (token : Nat) (j : Job) (f : Nat × List Byte),
    s.job token = some j → j.ended = none → j.finish = some f →
      ∃ t, exec (.jobComplete token) s = .next t ∧
        (t.job token).bind Job.ended = some (JobEnd.mk f.1 j.cancel f.2 s.chamber s.mono s.jobs.ended) ∧
        t.jobs.ended = s.jobs.ended + 1 ∧ (∀ w ∈ t.jobs.waits, w.1 ≠ token) ∧ t.mem = s.mem) ∧
  (∀ (s : State),
    s.settled →
      ∃ t, exec .jobRecordExpiry s = .next t ∧ { t with jobs := s.jobs } = s ∧
        ∀ j, j ∈ t.jobs.list ↔ j ∈ s.jobs.list ∧
        ∀ e, j.ended = some e → s.mono < e.at_ + 60 * secQ ∧ s.jobs.ended < e.order + 65)

/-- SET_TENANT_POLICY from T0: ACTION 1 puts a tenant's policy in force, answers with it and changes nothing but the policies; ACTION 2, from
T0 or from an enabled tenant about itself, answers with the policy and changes nothing; ACTION 3 leaves the revoked tenant with the policy
of a tenant that is not enabled and every other policy as it was. -/
def Obligations.TenantPolicyComplete : Prop :=
  (∀ (s : State) (q : Request),
    s.takes 0x0105 q → q.tenant = 0 → q.len = 40 → 1 ≤ q.u 0 1 → q.u 0 1 ≤ 15 → q.u 1 1 = 1 → q.u 2 1 ≤ 1 → q.u 3 1 = 0 → q.u 6 1 ≤ 15 →
    q.rsv 7 1 = true → q.rsv 36 4 = true → (q.u 34 2 ≤ 1024 ∨ q.u 34 2 = 0xFFFF) → s.policyBusy (q.u 0 1) (policyOf q) = false →
      ∃ (u : State) (p : List Byte), exec (.setTenantPolicy q) s = .next (u.answer 0x0105 q p) ∧ u.policy (q.u 0 1) = policyOf q ∧
        (∀ k, k ≠ q.u 0 1 → u.policy k = s.policy k) ∧ { u with com := s.com } = s.accepted ∧
        p = [0, 0, 0, 0] ++ u.policyBytes (q.u 0 1)) ∧
  (∀ (s : State) (q : Request),
    s.takes 0x0105 q → s.tenantOn q → (q.tenant = 0 ∨ q.tenant = q.u 0 1) → q.len = 40 → q.u 0 1 ≤ 15 → q.u 1 1 = 2 → q.rsv 2 38 = true →
      exec (.setTenantPolicy q) s = .next (s.accepted.answer 0x0105 q ([0, 0, 0, 0] ++ s.policyBytes (q.u 0 1)))) ∧
  (∀ (s : State) (q : Request),
    s.takes 0x0105 q → q.tenant = 0 → q.len = 40 → 1 ≤ q.u 0 1 → q.u 0 1 ≤ 15 → q.u 1 1 = 3 → q.rsv 2 38 = true →
      ∃ (u : State) (free : Nat), exec (.setTenantPolicy q) s = .next (u.answer 0x0105 q ([0, 0, 0, 0] ++ le 8 free)) ∧
        u.policy (q.u 0 1) = {} ∧ (∀ k, k ≠ q.u 0 1 → u.policy k = s.policy k))

/-- ENGINE_CONFIG that passes its checks completes. On an engine that is not enabled its configuration becomes the payload's at once and
nothing else changes. On an enabled engine where MODE, CODE, SUBCARRIERS, SYMBOL_RATE, ROLLOFF_MAX and the roll-off keep their values, the
other fields change at once. Where one of the first five changes, the change is scheduled at the earliest chamber and the configuration in
force keeps those fields. -/
def Obligations.EngineConfigComplete : Prop :=
  (∀ (s : State) (q : Request) (n : Nat),
    s.takes 0x0201 q → q.len = 40 → q.u 0 1 = n → n ≤ 7 → (cfgOf q).rangeOk = true → s.dark (engIsland n) = none →
    s.manages q.tenant n = true → s.cfgStateBad n (cfgOf q) = false → ((cfgOf q).mode = 1 → s.boundsHold n (cfgOf q) = true) →
    (s.eng n).tx.enabled = false →
      ∃ (u : State) (p : List Byte), exec (.engineConfig q) s = .next (u.answer 0x0201 q p) ∧
        u.eng n = { s.eng n with cfg := cfgOf q, nextCfg := none } ∧ (∀ k, k ≠ n → u.eng k = s.eng k) ∧ { u with engs := s.engs } =
          s.accepted) ∧
  (∀ (s : State) (q : Request) (n : Nat),
    s.takes 0x0201 q → q.len = 40 → q.u 0 1 = n → n ≤ 7 → (cfgOf q).rangeOk = true → s.dark (engIsland n) = none →
    s.manages q.tenant n = true → s.cfgStateBad n (cfgOf q) = false → ((cfgOf q).mode = 1 → s.boundsHold n (cfgOf q) = true) →
    (s.eng n).tx.enabled = true → (cfgOf q).core = (s.eng n).lastCfg.core → (cfgOf q).roll = (s.eng n).lastCfg.roll →
    ((s.eng n).tx.lit = false ∨ ((cfgOf q).txFlags = (s.eng n).lastCfg.txFlags ∧ (cfgOf q).gpio = (s.eng n).lastCfg.gpio)) →
      ∃ (u : State) (p : List Byte), exec (.engineConfig q) s = .next (u.answer 0x0201 q p) ∧
        (u.eng n).cfg.dspan = (cfgOf q).dspan ∧ (u.eng n).cfg.hStart = (cfgOf q).hStart ∧ (u.eng n).cfg.margin = (cfgOf q).margin ∧
        (u.eng n).cfg.fe = (cfgOf q).fe ∧ (u.eng n).cfg.rampMs = (cfgOf q).rampMs ∧ (u.eng n).cfg.core = (s.eng n).cfg.core ∧
        (∀ k, k ≠ n → u.eng k = s.eng k) ∧ { u with engs := s.engs } = s.accepted) ∧
  (∀ (s : State) (q : Request) (n : Nat),
    s.takes 0x0201 q → q.len = 40 → q.u 0 1 = n → n ≤ 7 → (cfgOf q).rangeOk = true → s.dark (engIsland n) = none →
    s.manages q.tenant n = true → s.cfgStateBad n (cfgOf q) = false → ((cfgOf q).mode = 1 → s.boundsHold n (cfgOf q) = true) →
    (s.eng n).tx.enabled = true → (cfgOf q).core ≠ (s.eng n).lastCfg.core → s.cfgCapacity n (cfgOf q) true = none → s.passUses n = false →
    s.rawUses n = false →
    ((s.eng n).tx.lit = false ∨ ((cfgOf q).txFlags = (s.eng n).lastCfg.txFlags ∧ (cfgOf q).gpio = (s.eng n).lastCfg.gpio)) →
      ∃ (u : State) (p : List Byte), exec (.engineConfig q) s = .next (u.answer 0x0201 q p) ∧
        u.hasScheduled (s.earliest false) (.reconfig n (cfgOf q)) ∧ (u.eng n).nextCfg = some (s.earliest false, cfgOf q) ∧
        (u.eng n).cfg.core = (s.eng n).cfg.core ∧ (∀ k, k ≠ n → u.eng k = s.eng k))

/-- ENGINE_ENABLE and ENGINE_DISABLE that pass their checks complete. Where the engine has or will have the state asked for, the answer is OK
with that chamber and nothing changes. Else the change is scheduled at START_CHAMBER, or at the earliest chamber for 0, the engine notes
the chamber and the answer carries it; an enable changes no other engine and nothing but the engines and the commits. A disable needs
FORCE where passages or raw steps use the engine. -/
def Obligations.EngineEnableDisableComplete : Prop :=
  (∀ (s : State) (q : Request) (n : Nat),
    s.takes 0x0202 q → q.len = 12 → q.u 0 1 = n → n ≤ 7 → q.rsv 1 3 = true → q.rsv 10 2 = true → s.dark (engIsland n) = none →
    s.manages q.tenant n = true → (s.eng n).tx.disableAt = none → ((s.eng n).tx.enabled = true ∨ (s.eng n).tx.enableAt.isSome = true) →
      exec (.engineEnable q) s = .next (s.accepted.answer 0x0202 q ([0, 0, 0, 0] ++ le 8 ((s.eng n).tx.enableAt.getD 0)))) ∧
  (∀ (s : State) (q : Request) (n cc : Nat),
    s.takes 0x0202 q → q.len = 12 → q.u 0 1 = n → n ≤ 7 → q.rsv 1 3 = true → q.rsv 10 2 = true → s.dark (engIsland n) = none →
    s.manages q.tenant n = true → (s.eng n).tx.disableAt = none → (s.eng n).tx.enabled = false → (s.eng n).tx.enableAt = none →
    (s.island (islEng n)).belay = false → (s.eng n).cfg.configured = true → s.calDone n = true → s.calFailed n = false →
    cc = (if q.ch 4 = 0 then s.earliest false else q.ch 4) → s.commitBad cc none = none →
      ∃ u : State, exec (.engineEnable q) s = .next (u.answer 0x0202 q ([0, 0, 0, 0] ++ le 8 cc)) ∧ u.hasScheduled cc (.enable n) ∧
        u.eng n = { s.eng n with tx := { (s.eng n).tx with enableAt := some cc } } ∧ (∀ k, k ≠ n → u.eng k = s.eng k) ∧
        { u with engs := s.engs, tab := s.tab } = s.accepted) ∧
  (∀ (s : State) (q : Request) (n : Nat),
    s.takes 0x0203 q → q.len = 12 → q.u 0 1 = n → n ≤ 7 → q.rsv 2 2 = true → q.rsv 10 2 = true → s.dark (engIsland n) = none →
    s.manages q.tenant n = true → q.u 1 1 ≤ 1 → (s.eng n).tx.enableAt = none →
    ((s.eng n).tx.enabled = false ∨ (s.eng n).tx.disableAt.isSome = true) →
      exec (.engineDisable q) s = .next (s.accepted.answer 0x0203 q ([0, 0, 0, 0] ++ le 8 ((s.eng n).tx.disableAt.getD 0)))) ∧
  (∀ (s : State) (q : Request) (n cc : Nat),
    s.takes 0x0203 q → q.len = 12 → q.u 0 1 = n → n ≤ 7 → q.rsv 2 2 = true → q.rsv 10 2 = true → s.dark (engIsland n) = none →
    s.manages q.tenant n = true → q.u 1 1 ≤ 1 → (s.eng n).tx.enableAt = none → (s.eng n).tx.enabled = true →
    (s.eng n).tx.disableAt = none → (q.u 1 1 = 1 ∨ (s.passUses n = false ∧ s.rawUses n = false)) →
    cc = (if q.ch 4 = 0 then s.earliest false else q.ch 4) → s.commitBad cc none = none →
      ∃ u : State, exec (.engineDisable q) s = .next (u.answer 0x0203 q ([0, 0, 0, 0] ++ le 8 cc)) ∧ u.hasScheduled cc (.disable n) ∧
        (u.eng n).tx.disableAt = some cc)

/-- BITLOAD_SET on a point-to-point engine schedules the profile at Cc and answers with its slots, tag capacity and rate. BITLOAD_MEASURE
answers the measurement; a back-to-back value from 100 to 400 is stored and nothing else changes. TX_RAMP sets the permission of light by
ACTION 1 and 2 and schedules the carrier step of ACTION 3 on a dark engine and of ACTION 4 on a lit one. CAPTURE_SAMPLES with TRIGGER 1
starts a job of the asking tenant with the destination and count given. -/
def Obligations.EngineSignalCommandsComplete : Prop :=
  (∀ (s : State) (q : Request) (n : Nat) (prof : List Nat),
    s.takes 0x0204 q → q.len = 32 → q.u 0 1 = n → n ≤ 7 → q.u 1 1 ≤ 1 → q.rsv 3 1 = true → q.rsv 6 2 = true → q.rsv 14 2 = true →
    s.dark (engIsland n) = none → s.manages q.tenant n = true → (s.eng n).mp.role = 0 → (s.eng n).cfg.configured = true →
    (s.eng n).cfg.mode = 1 → q.u 2 1 = (s.eng n).cfg.subs → prof = profileAt q 16 (q.u 2 1) → q.ch 8 ≠ 0 → (∀ h ∈ prof, 32 ≤ h ∧ h ≤ 96) →
    q.rsv (16 + q.u 2 1) (16 - q.u 2 1) = true → (s.eng n).cfg.profOk prof = true → s.profCapacity n (q.u 1 1 == 1) prof (q.ch 8) = none →
    s.commitBad (q.ch 8) (some n) = none →
      ∃ (u : State) (p : List Byte), exec (.bitloadSet q) s = .next (u.answer 0x0204 q p) ∧
        u.hasScheduled (q.ch 8) (.loading n (q.u 1 1 == 1) prof) ∧ p = [0, 0] ++ le 2 ((s.eng n).cfg.slotsOf prof) ++
        le 1 ((s.eng n).cfg.tagCap prof) ++ zeros 3 ++ le 4 ((s.eng n).cfg.netMbps prof) ++ zeros 4) ∧
  (∀ (s : State) (q : Request) (n : Nat),
    s.takes 0x0205 q → q.len = 8 → q.u 0 1 = n → n ≤ 7 → q.rsv 1 1 = true → q.rsv 4 4 = true → s.dark (engIsland n) = none →
    s.manages q.tenant n = true → (s.eng n).tx.enabled = true → q.u 2 2 = 0 →
      exec (.bitloadMeasure q) s = .next (s.accepted.answer 0x0205 q (s.measureReply n))) ∧
  (∀ (s : State) (q : Request) (n : Nat),
    s.takes 0x0205 q → q.len = 8 → q.u 0 1 = n → n ≤ 7 → q.rsv 1 1 = true → q.rsv 4 4 = true → s.dark (engIsland n) = none →
    s.manages q.tenant n = true → (s.eng n).tx.enabled = true → 100 ≤ q.u 2 2 → q.u 2 2 ≤ 400 →
      ∃ (u : State) (p : List Byte), exec (.bitloadMeasure q) s = .next (u.answer 0x0205 q p) ∧
        u.eng n = { s.eng n with rx := { (s.eng n).rx with b2b := q.u 2 2 } } ∧ (∀ k, k ≠ n → u.eng k = s.eng k) ∧
          { u with engs := s.engs } = s.accepted) ∧
  (∀ (s : State) (q : Request) (n cc : Nat),
    s.takes 0x0206 q → q.len = 12 → q.u 0 1 = n → n ≤ 7 → 1 ≤ q.u 1 1 → q.u 1 1 ≤ 4 → q.u 2 1 ≤ 100 → q.u 3 1 ≤ 1 → q.rsv 10 2 = true →
    s.dark (engIsland n) = none → s.manages q.tenant n = true → ((q.u 1 1 = 1 ∨ q.u 1 1 = 3) → (s.island (islEng n)).belay = false) →
    (q.u 1 1 = 3 → (s.eng n).tx.permit = true) →
    ((q.u 1 1 = 2 ∨ q.u 1 1 = 4) → q.u 3 1 = 1 ∨ (s.eng n).tx.down = true ∨ s.passUses n = false) →
    cc = (if q.ch 4 = 0 then s.earliest false else q.ch 4) → s.commitBad cc none = none →
      ∃ (u : State) (p : List Byte), exec (.txRamp q) s = .next (u.answer 0x0206 q p) ∧
        u.eng n =
          { s.eng n with tx := { (s.eng n).tx with permit := if q.u 1 1 = 1 then true else if q.u 1 1 = 2 then false else (s.eng n).tx.permit } }
          ∧
        { u with engs := s.engs, tab := s.tab } = s.accepted ∧
        (q.u 1 1 = 3 ∧ (s.eng n).tx.enabled = true ∧ (s.eng n).tx.down = true → ∃ ms, u.hasScheduled cc (.carrier n true ms)) ∧
        (q.u 1 1 = 4 ∧ (s.eng n).tx.down = false → ∃ ms, u.hasScheduled cc (.carrier n false ms))) ∧
  (∀ (s : State) (q : Request) (n size : Nat),
    s.takes 0x0207 q → q.len = 32 → q.u 0 1 = n → n ≤ 7 → 1 ≤ q.u 1 1 → q.u 1 1 ≤ 3 → (q.u 1 1 ≠ 3 → q.u 2 1 = 0) →
    (q.u 1 1 = 3 → q.u 2 1 < (s.eng n).cfg.subs) → q.u 3 1 = 1 → 0 < q.u 4 4 → q.u 4 4 % 1024 = 0 →
    q.u 4 4 ≤ (if q.u 1 1 = 1 then 262144 else 131072) → q.u 8 4 = 0 → q.u 12 2 = 0 → q.rsv 14 2 = true → q.rsv 22 2 = true →
    q.ch 16 = 0 → q.u 24 8 % 4096 = 0 → q.u 24 8 < s.mem.capacity → s.dark (engIsland n) = none → s.dark 0x0C00 = none →
    s.manages q.tenant n = true → size = (if q.u 1 1 = 1 then 4 * q.u 4 4 else 8 * q.u 4 4) →
    s.inCapture q.tenant (q.u 24 8) size = true → s.captureOf n = none → s.fillHolds 0x0C00 (q.u 24 8) (q.u 24 8 + size) = false →
    (s.eng n).tx.enabled = true → s.jobsFull q.tenant = false →
      ∃ (u : State) (j : Job) (c : Capture), exec (.captureSamples q) s = .next (u.answer 0x0207 q (jobStarted j.token)) ∧
        u.jobs.list = s.jobs.list ++ [j] ∧ j.work = .capture n c ∧ c.dest = q.u 24 8 ∧ c.count = q.u 4 4 ∧ c.tap = q.u 1 1 ∧
        j.tenant = q.tenant ∧ j.ended = none ∧ { u with jobs := s.jobs } = s.accepted)

/-- The passage that a PASSAGE_OPEN asks for, with what was placed for it. -/
def openedPassage (s : State) (q : Request) (start inF egF : Nat) (plane : List Nat) (base : Nat) : Passage :=
  { owner := q.tenant, slots := q.u 2 2, mode := q.u 20 1, skew := q.u 21 1, trail := q.u 22 2, start := start
    terms := s.termsOf (endpointAt q 4) (endpointAt q 12) (q.u 20 1) (q.u 21 1)
    ing := { endpointAt q 4 with first := inF }, eg := { endpointAt q 12 with first := egF }, plane := plane, base := base
    key := if q.u 20 1 = 0 then none else if q.u 0 2 = 0xFFFF then none else s.prepared q.tenant (q.u 0 2)
    lane := if q.u 20 1 = 0 then 0 else pickLane ((endpointAt q 12).kind != 3) }
/-- The ranges of a PASSAGE_OPEN payload (R61, step 2). -/
def openRanges (s : State) (q : Request) : Bool :=
  q.rsv 34 2 && (decide (q.u 0 2 < 4096) || q.u 0 2 == 0xFFFF) && decide (1 ≤ q.u 2 2) && decide (q.u 2 2 ≤ 640) && decide (q.u 20 1 ≤ 2) &&
    decide (q.u 21 1 ≤ 10) && (q.u 21 1 == 0 || (endpointAt q 4).kind == 3) && (endpointAt q 4).rangeOk && (endpointAt q 12).rangeOk &&
    (q.ch 28 == 0 || !(chLater (q.ch 28) s.chamber) || decide (chAhead (q.ch 28) s.chamber ≤ hourChambers))
/-- The encrypted form of a PASSAGE_OPEN is in order: one engine endpoint, no leaf carrier, a prepared key slot (R55, R61 step 5). -/
def openCipherOk (s : State) (q : Request) : Bool :=
  q.u 20 1 == 0 ||
    (([endpointAt q 4, endpointAt q 12].filter fun e => e.kind == 3).length == 1 &&
      (s.leafCarrier (endpointAt q 4) false).isNone && (s.leafCarrier (endpointAt q 12) true).isNone &&
      q.u 0 2 != 0xFFFF && (s.prepared q.tenant (q.u 0 2)).isSome)

/-- PASSAGE_OPEN that passes the checks of R61 completes: the passage becomes pending under its ID with the slots, plane positions and buffer
that were placed, every other passage stays as it was, its start is scheduled, and the answer carries the ID, the slots granted, the start
chamber and the terms of the bound. Engines, memories, ports and the event log do not change. -/
def Obligations.PassageOpenComplete : Prop :=
  ∀ (s : State) (q : Request) (ing eg : Endpoint) (id start inF egF base : Nat) (plane : List Nat),
    s.takes 0x0301 q → s.behindCopy 0x0301 q = false → q.len = 36 → openRanges s q = true → ing = endpointAt q 4 → eg = endpointAt q 12 →
    s.firstDark ([ing.unit, eg.unit] ++ if q.u 20 1 != 0 then [unitKeyStore] else []) = none → s.tenantOn q →
    s.mayUse q.tenant ing = true → s.mayUse q.tenant eg = true → s.inCompat ing = false → s.inCompat eg = false →
    s.endpointBad ing false (q.u 2 2) = false → s.endpointBad eg true (q.u 2 2) = false → openCipherOk s q = true →
    (q.u 21 1 = 0 ∨ ∀ e ∈ [ing, eg], e.kind = 3 → (s.eng e.index).mp.role = 0) → s.endpointNotReady ing = none →
    s.endpointNotReady eg = none → s.clientWaits ing = false → s.clientWaits eg = false →
    start = (if q.ch 28 = 0 then s.earliestFrom (chMax (s.clientFrom ing) (s.clientFrom eg)) false else q.ch 28) →
    chLater (chMax (s.clientFrom ing) (s.clientFrom eg)) start = false → s.commitBad start none = none →
    (if q.u 0 2 = 0xFFFF then (List.range 4096).find? fun i => !((tkeys s.pas).contains i) else some (q.u 0 2)) = some id →
    (tkeys s.pas).contains id = false → (q.u 20 1 = 0 ∨ ∀ e ∈ [ing, eg], e.kind = 3 → s.encOn e.index < 64) →
    s.place ing false (q.u 2 2) start = some inF → s.place eg true (q.u 2 2) start = some egF →
    s.pickPlane (eg.kind == 3 || eg.kind == 4) (q.u 2 2) start = some plane →
    pickRegion (s.takenBuffer start) (q.u 2 2 * (2 + q.u 21 1)) = some base →
    s.fillHolds 0x0201 (base * slotChamberBytes) ((base + q.u 2 2 * (2 + q.u 21 1)) * slotChamberBytes) = false →
    (q.u 20 1 = 0 ∨ (s.cipherUsed (eg.kind != 3) start + q.u 2 2 ≤ 5120 ∧ (eg.kind = 3 → s.encDir eg.index true + 1 ≤ s.tagCap eg.index true) ∧ (ing.kind = 3 → s.encDir ing.index false + 1 ≤ s.tagCap ing.index false))) →
    (q.u 24 4 = 0 ∨ (openedPassage s q start inF egF plane base).bound ≤ q.u 24 4) → s.overQuota q.tenant (q.u 2 2) = false →
    s.bankRoom start (s.compile id (openedPassage s q start inF egF plane base) (s.handles (openedPassage s q start inF egF plane base))) = true →
      ∃ (u : State) (p : Passage), p = openedPassage s q start inF egF plane base ∧
        exec (.passageOpen q) s = .next (u.answer 0x0301 q (openReply 0 0 id inF egF start p.terms)) ∧
        tget u.pas id = some p ∧ (∀ k, k ≠ id → tget u.pas k = tget s.pas k) ∧ u.hasScheduled start (.openP id) ∧
        u.engs = s.engs ∧ u.mem = s.mem ∧ u.host = s.host ∧ u.com = s.com

/-- PASSAGE_CLOSE of an open or pending passage by its owner schedules the close at Cs (never before the start chamber of a pending passage),
answers with Cs and FREE_CHAMBER and changes no other passage (a passage that changes keeps the counts it had at the chamber's boundary);
where a close is scheduled already the answer names it and nothing changes. PASSAGE_QUERY answers with the payload of Table 2.9, with the
counters as they stood at the boundary of the chamber, and changes nothing. -/
def Obligations.PassageCommandsComplete : Prop :=
  (∀ (s : State) (q : Request) (p : Passage) (id cs : Nat),
    s.takes 0x0302 q → s.behindCopy 0x0302 q = false → q.len = 12 → q.rsv 2 2 = true → q.rsv 10 2 = true → q.u 0 2 = id → id ≤ 4095 →
    tget s.pas id = some p → s.tenantOn q → p.owner = q.tenant → p.stop = none →
    cs = p.closeAt (if q.ch 4 = 0 then s.earliest false else q.ch 4) → s.commitBad cs none = none →
      ∃ u : State, exec (.passageClose q) s = .next (u.answer 0x0302 q ([0, 0] ++ le 2 id ++ le 8 cs ++ le 8 (chAdd cs p.delay))) ∧
        tget u.pas id = some { p.keep s.chamber with stop := some cs, reason := 1 } ∧ (∀ k, k ≠ id → tget u.pas k = tget s.pas k) ∧
        u.hasScheduled cs (.closeP id) ∧ { u with pas := s.pas, tab := s.tab } = s.accepted) ∧
  (∀ (s : State) (q : Request) (p : Passage) (id cs : Nat),
    s.takes 0x0302 q → s.behindCopy 0x0302 q = false → q.len = 12 → q.rsv 2 2 = true → q.rsv 10 2 = true → q.u 0 2 = id → id ≤ 4095 →
    tget s.pas id = some p → s.tenantOn q → p.owner = q.tenant → p.stop = some cs →
      exec (.passageClose q) s = .next (s.accepted.answer 0x0302 q ([0, 0] ++ le 2 id ++ le 8 cs ++ le 8 (chAdd cs p.delay)))) ∧
  (∀ (s : State) (q : Request) (p : Passage),
    s.takes 0x0303 q → q.len = 2 → tget s.pas (q.u 0 2) = some p → s.tenantOn q → p.owner = q.tenant →
      exec (.passageQuery q) s = .next (s.accepted.answer 0x0303 q
        (le 1 0 ++ le 1 p.st ++ le 2 (q.u 0 2) ++ le 2 p.slots ++ le 1 p.mode ++ le 1 p.skew ++ p.ing.bytes ++ p.eg.bytes ++ le 4 p.bound
          ++
        le 4 p.maxSeen ++ le 8 p.start ++ le 8 (p.stop.getD 0) ++ le 8 s.chamber ++ (p.countsAt s.chamber).flatMap (fun c => le 8 c.toNat)
          ++
        le 1 p.flags ++ zeros 3)))

/-- PROTECT_GROUP_SET that passes its checks completes: ACTION 1 gives the passage its protect leg and schedules it, ACTION 2 schedules the
removal at the earliest chamber, ACTIONS 3 to 5 schedule the force to the working leg, to the protect leg and its clearing. ACTIONS 1 and
3 to 5 take the chamber of a change to the passage, which is never before the start of a pending one. -/
def Obligations.ProtectGroupSetComplete : Prop :=
  (∀ (s : State) (q : Request) (p : Passage) (x : Endpoint) (id : Nat),
    s.takes 0x0307 q → s.behindCopy 0x0307 q = false → q.len = 16 → q.u 0 2 = id → tget s.pas id = some p → q.u 2 1 = 1 →
    q.rsv 3 1 = true → x = endpointAt q 4 → x.kind = 3 → x.index ≤ 7 → x.leaf = 0xFFFF → q.rsv 14 2 = true → q.u 12 2 ≤ 3600 →
    s.dark x.unit = none → s.tenantOn q → p.owner = q.tenant → s.mayUse q.tenant x = true → s.inCompat x = false → s.legBad p x = false →
    s.endpointNotReady x = none → p.stop = none → p.st ≠ 3 → (p.mode = 0 ∨ s.encOn x.index < 64) →
    s.bankRoom (s.changeAt p) (s.compileLeg id p (protLegOf p q) (s.handles p)) = true → s.legCapacity q p (protLegOf p q) = none →
      ∃ (u : State) (r : List Byte), exec (.protectGroupSet q) s = .next (u.answer 0x0307 q r) ∧
        u.hasScheduled (s.changeAt p) (.protSet id) ∧ (tget u.pas id).bind Passage.leg = some (protLegOf p q) ∧
        (∀ k, k ≠ id → tget u.pas k = tget s.pas k) ∧ { u with pas := s.pas, tab := s.tab } = s.accepted) ∧
  (∀ (s : State) (q : Request) (p : Passage) (id : Nat) (x : FwChange),
    s.takes 0x0307 q → s.behindCopy 0x0307 q = false → q.len = 16 → q.u 0 2 = id → tget s.pas id = some p → 2 ≤ q.u 2 1 → q.u 2 1 ≤ 5 →
    q.rsv 3 1 = true → q.rsv 4 12 = true → s.tenantOn q → p.owner = q.tenant → p.leg.isSome = true → p.stop = none → p.st ≠ 3 →
    (q.u 2 1 = 4 → p.unusable = false) →
    x = (if q.u 2 1 = 2 then .protDel id else .force id (if q.u 2 1 = 3 then 1 else if q.u 2 1 = 4 then 2 else 0)) →
      ∃ (u : State) (r : List Byte), exec (.protectGroupSet q) s = .next (u.answer 0x0307 q r) ∧
        u.hasScheduled (if q.u 2 1 = 2 then s.earliest false else s.changeAt p) x ∧ { u with tab := s.tab } = s.accepted)

/-- TABLE_WRITE of valid words adds the edit to those of its chamber, OP 3 drops the island's edits of the chamber, and nothing but the edits
changes. TABLE_COMMIT of a valid image arms a commit at Cc that carries the edits made for Cc and answers with Cc and the generation.
TABLE_READ of an active bank answers with the words, masked for another tenant's passages, and changes nothing. -/
def Obligations.TableCommandsComplete : Prop :=
  (∀ (s : State) (q : Request) (isl n first cc : Nat),
    s.takes 0x0304 q → s.behindCopy 0x0304 q = false → q.u 0 1 = isl → q.u 2 2 = n → q.u 4 4 = first → q.ch 8 = cc → q.len = 16 + 16 * n →
    isl ≤ 14 → 1 ≤ q.u 1 1 → q.u 1 1 ≤ 3 → n ≤ 254 → (q.u 1 1 = 1 ∨ n = 0) → cc ≠ 0 → q.rsv 14 2 = true →
    s.firstAbsent ([isl * 256 + 0xFE] ++ (wordsAt q 16 n).map wTarget) = none → q.tenant = 0 →
    (q.u 1 1 = 3 ∨ first ≤ (s.rawImage cc isl).length) → ((wordsAt q 16 n).all fun w => (s.wordBad isl true w).isNone) = true →
    (∀ c ∈ s.tab.commits, c.cc = cc → c.user = false) →
    (q.u 1 1 = 1 → (tgetD (s.imageAt cc) isl {}).fw.length + (rawEdit (s.rawImage cc isl) (.write first (wordsAt q 16 n))).length ≤ bankSize isl) →
    (q.u 1 1 = 1 → s.heldEdits + n ≤ 65536) →
      ∃ u : State, exec (.tableWrite q) s = .next (u.answer 0x0304 q ([0, 0, 0, 0] ++ le 4 0xFFFFFFFF)) ∧
        (q.u 1 1 = 1 → (isl, RawOp.write first (wordsAt q 16 n)) ∈ u.editsAt cc) ∧ (q.u 1 1 = 2 → (isl, RawOp.trunc first) ∈ u.editsAt cc)
          ∧
        (q.u 1 1 = 3 → ∀ e ∈ u.editsAt cc, e.1 ≠ isl) ∧ { u with tab := { u.tab with edits := s.tab.edits } } = s.accepted) ∧
  (∀ (s : State) (q : Request) (cc : Nat) (pn : Option Nat),
    s.takes 0x0305 q → s.behindCopy 0x0305 q = false → q.len = 16 → q.u 8 1 ≤ 1 → q.rsv 6 2 = true → q.rsv 12 4 = true →
    (q.u 8 1 = 1 → q.u 9 1 ≤ 7) → (q.u 8 1 = 0 → q.rsv 9 3 = true) → pn = (if q.u 8 1 = 1 then some (q.u 9 1) else none) →
    cc = (if q.ch 0 = 0 then s.earliest pn.isSome else q.ch 0) → (q.u 8 1 = 1 → s.dark (islEng (q.u 9 1) * 256 + 0xFE) = none) →
    (∀ i ∈ s.changedIslands ((s.editsAt cc).foldl applyRaw (s.imageAt cc)), (s.island i).st ≠ .parked ∧ (s.island i).st ≠ .off) →
    q.tenant = 0 → s.validate ((s.editsAt cc).foldl applyRaw (s.imageAt cc)) cc = none → s.commitBad cc pn = none →
      ∃ (u : State) (g : Nat) (c : Commit), exec (.tableCommit q) s = .next (u.answer 0x0305 q ([0, 0, 0xFF, 0xFF] ++ le 4 0xFFFFFFFF ++
        le 8 cc ++ le 4 g)) ∧
        g = u.generationAt cc ∧ c ∈ u.tab.commits ∧ c.cc = cc ∧ c.user = true ∧ (∀ e ∈ s.editsAt cc, e ∈ c.raw) ∧ u.editsAt cc = [] ∧
        { u with tab := s.tab } = s.accepted) ∧
  (∀ (s : State) (q : Request) (words : List StepWord),
    s.takes 0x0306 q → q.len = 16 → q.u 0 1 ≤ 14 → q.u 1 1 = 0 → q.u 2 1 ≤ 1 → 1 ≤ q.u 3 1 → q.u 3 1 ≤ 254 → q.rsv 14 2 = true →
    q.ch 8 = 0 → s.absent (q.u 0 1 * 256 + 0xFE) = none → s.tenantOn q → (q.u 2 1 = 1 → q.tenant = 0) →
    words = (if q.u 2 1 = 1 then (s.bank (q.u 0 1)).raw else (s.bank (q.u 0 1)).fw.map fun x => if q.tenant = 0 then x.w else s.maskWord q.tenant x) →
    q.u 4 4 ≤ words.length →
      exec (.tableRead q) s = .next (s.accepted.answer 0x0306 q
        (le 1 0 ++ le 1 0 ++ le 2 ((words.drop (q.u 4 4)).take (q.u 3 1)).length ++ le 4 s.generation ++ le 4 words.length ++ le 4 (q.u 4
          4) ++
        ((words.drop (q.u 4 4)).take (q.u 3 1)).flatMap fun w => le 16 w.toNat)))

/-- MULTIPOINT_CONFIG ACTION 1 on an engine that is not enabled gives it its role, leaf ID and hub node and keeps the thresholds, and the 2
MiB of its leaf profiles read as zero where it becomes a hub (that a DISABLED profile is zero is the model's choice, assumption 88);
ACTION 2 on a hub sets the three thresholds from the next window on and changes nothing else. LEAF_PROFILE_SET ACTION 1 schedules the
windows at Cc, ACTION 2 on a hub sets the leaf's dispersion and frequency, ACTION 3 on a hub forgets what bursts taught, ACTION 4 answers
the profile and changes nothing. -/
def Obligations.MultipointCommandsComplete : Prop :=
  (∀ (s : State) (q : Request) (n : Nat),
    s.takes 0x0208 q → q.len = 16 → q.u 0 1 = n → n ≤ 7 → q.u 1 1 = 1 → q.u 2 1 ≤ 2 → (q.u 2 1 = 2 → q.u 3 1 ≤ 127) →
    (q.u 2 1 ≠ 2 → q.rsv 3 3 = true) → q.rsv 10 2 = true → s.dark (engIsland n) = none → s.manages q.tenant n = true →
    (q.u 2 1 = 0 ∨ ((s.eng n).cfg.mode ≠ 2 ∧ (s.eng n).cfg.windowLen.isSome = true)) → (s.eng n).tx.enabled = false →
    (q.u 2 1 = 1 → s.lpReady = true) →
      ∃ (u : State) (p : List Byte), exec (.multipointConfig q) s = .next (u.answer 0x0208 q p) ∧
        (u.eng n).mp.role = q.u 2 1 ∧ (u.eng n).mp.leafId = (if q.u 2 1 = 2 then q.u 3 1 else 0) ∧
        (u.eng n).mp.hubNode = (if q.u 2 1 = 2 then q.u 4 2 else 0) ∧ (u.eng n).mp.syncErr = (s.eng n).mp.syncErr ∧
        (u.eng n).mp.capture = (s.eng n).mp.capture ∧ (u.eng n).mp.loss = (s.eng n).mp.loss ∧ (u.eng n).tx = (s.eng n).tx ∧
        (q.u 2 1 ≠ 1 → (u.eng n).rx = (s.eng n).rx ∧ u.mem = s.mem) ∧
        (∀ key addr, key ≠ dataKey 0x0C00 0 ∨ addr < 0x38000000 + n * 2 ^ 21 ∨ 0x38000000 + (n + 1) * 2 ^ 21 ≤ addr →
        (u.memInst key).data.read addr = (s.memInst key).data.read addr) ∧
        (q.u 2 1 = 1 → ∀ addr, 0x38000000 + n * 2 ^ 21 ≤ addr → addr < 0x38000000 + (n + 1) * 2 ^ 21 → (u.memInst (dataKey 0x0C00
          0)).data.read addr = 0) ∧
        (∀ k, k ≠ n → u.eng k = s.eng k) ∧ { u with engs := s.engs, tab := s.tab, mem := s.mem } = s.accepted) ∧
  (∀ (s : State) (q : Request) (n : Nat),
    s.takes 0x0208 q → q.len = 16 → q.u 0 1 = n → n ≤ 7 → q.u 1 1 = 2 → q.rsv 2 4 = true → q.u 6 1 ≤ 15 → 10 ≤ q.u 7 1 → q.u 7 1 ≤ 200 →
    1 ≤ q.u 8 1 → q.u 8 1 ≤ 64 → q.rsv 10 2 = true → s.dark (engIsland n) = none → s.manages q.tenant n = true → (s.eng n).mp.role = 1 →
      ∃ (u : State) (p : List Byte), exec (.multipointConfig q) s = .next (u.answer 0x0208 q p) ∧
        (u.eng n).mp = { (s.eng n).mp with
        oldLimits := (s.eng n).mp.limits s.now, limitsAt := s.nextWindow, syncErr := q.u 6 1, capture := q.u 7 1, loss := q.u 8 1 } ∧
        (∀ k, k ≠ n → u.eng k = s.eng k) ∧ { u with engs := s.engs } = s.accepted) ∧
  (∀ (s : State) (q : Request) (n leaf cc : Nat) (wins : List Nat),
    s.takes 0x0209 q → q.len = 40 → q.u 0 1 = n → q.u 1 1 = leaf → n ≤ 7 → leaf ≤ 127 → q.u 2 1 = 1 → q.u 3 1 ≤ 10 →
    q.u 4 2 < 2 ^ q.u 3 1 → q.ch 8 = cc → cc ≠ 0 → 32 ≤ q.u 38 1 → q.u 38 1 ≤ 96 → q.rsv 14 2 = true → q.rsv 39 1 = true →
    s.dark (engIsland n) = none → s.manages q.tenant n = true → (s.eng n).mp.role = 1 → wins = profileAt q 16 16 →
    ((wins.drop (s.eng n).cfg.subs).all fun b => b == 0) = true →
    s.windowsClash n cc (.windows n leaf wins (q.u 3 1) (q.u 4 2) (q.u 38 1) (q.u 6 2)) = false →
    s.lowAfter n cc (.windows n leaf wins (q.u 3 1) (q.u 4 2) (q.u 38 1) (q.u 6 2)) = false →
    s.leafHeld n leaf ≤ (s.eng n).cfg.leafSlots wins (q.u 3 1) (q.u 38 1) → s.commitBad cc none = none →
      ∃ (u : State) (p : List Byte), exec (.leafProfileSet q) s = .next (u.answer 0x0209 q p) ∧
        u.hasScheduled cc (.windows n leaf wins (q.u 3 1) (q.u 4 2) (q.u 38 1) (q.u 6 2)) ∧ { u with tab := s.tab } = s.accepted) ∧
  (∀ (s : State) (q : Request) (n leaf : Nat),
    s.takes 0x0209 q → q.len = 40 → q.u 0 1 = n → q.u 1 1 = leaf → n ≤ 7 → leaf ≤ 127 → 2 ≤ q.u 2 1 → q.u 2 1 ≤ 3 → q.rsv 6 2 = true →
    (q.u 2 1 = 2 → (q.i 36 2).natAbs ≤ 5000 ∧ (q.i 32 4).natAbs ≤ (s.eng n).cfg.dspan) → q.rsv 14 2 = true → q.rsv 39 1 = true →
    s.dark (engIsland n) = none → s.manages q.tenant n = true → (s.eng n).mp.role = 1 →
      ∃ (u : State) (p : List Byte), exec (.leafProfileSet q) s = .next (u.answer 0x0209 q p) ∧
        u.leafProf n leaf = (if q.u 2 1 = 2 then { s.leafProf n leaf with cd := q.i 32 4, freq := q.i 36 2 } else (s.leafProf n
          leaf).forget) ∧
        (∀ k, k ≠ leaf → u.leafProf n k = s.leafProf n k) ∧ (∀ k, k ≠ n → u.eng k = s.eng k) ∧ { u with engs := s.engs } = s.accepted) ∧
  (∀ (s : State) (q : Request) (n leaf : Nat),
    s.takes 0x0209 q → q.len = 40 → q.u 0 1 = n → q.u 1 1 = leaf → n ≤ 7 → leaf ≤ 127 → q.u 2 1 = 4 → q.rsv 6 2 = true →
    q.rsv 14 2 = true → q.rsv 39 1 = true → s.dark (engIsland n) = none → s.manages q.tenant n = true →
    ((s.eng n).mp.role = 1 ∨ ((s.eng n).mp.role = 2 ∧ leaf = (s.eng n).mp.leafId)) →
      exec (.leafProfileSet q) s = .next (s.accepted.answer 0x0209 q (s.profReply n leaf)))

/-- KEY_LOAD_WRAPPED under the tenant's KEK of the generation named puts the unwrapped key into the slot asked for, or into the lowest empty
one, LOADED and owned by the tenant, and answers with the slot and the key check value. KEY_RETIRE empties an empty or loaded slot of the
tenant. CIPHER_BIND of an ID with no passage records the prepared binding and makes the slot PREPARED; on an encrypted passage it binds
the slot and schedules the rebind. CIPHER_UNBIND drops the prepared binding and its slot is LOADED again. -/
def Obligations.KeyCommandsComplete : Prop :=
  (∀ (s : State) (q : Request) (k : Kek) (key : List Byte) (slot : Nat),
    s.takes 0x0401 q → q.len = 52 → s.dark unitKeyStore = none →
    (if q.u 0 2 = 0xFFFF then s.freeSlot else if q.u 0 2 < 1024 then some (q.u 0 2) else none) = some slot → (q.u 2 1 = 1 ∨ q.u 2 1 = 2) →
    q.rsv 3 1 = true → s.tenantOn q → (q.u 0 2 ≠ 0xFFFF → s.foreignKey q.tenant slot = false) → tget s.cip.keks q.tenant = some k →
    k.gen = q.u 8 4 → keyUnwrap k.key ((q.payload.drop 12).take 40) = some key →
    (q.u 0 2 ≠ 0xFFFF → (s.keySlot slot).st = .empty ∨ (s.keySlot slot).st = .loaded) → s.overKeys q.tenant slot (q.u 2 1) = false →
      ∃ u : State, exec (.keyLoadWrapped q) s = .next (u.answer 0x0401 q ([0, 0] ++ le 2 slot ++ kcv key ++ zeros 4)) ∧
        (u.keySlot slot).st = .loaded ∧ (u.keySlot slot).owner = q.tenant ∧ (u.keySlot slot).usage = q.u 2 1 ∧ (u.keySlot slot).key = key
          ∧
        (u.keySlot slot).keyId = q.u 4 4 ∧ (u.keySlot slot).kekGen = k.gen ∧ u.cip.keks = s.cip.keks ∧ { u with cip := s.cip } =
          s.accepted) ∧
  (∀ (s : State) (q : Request),
    s.takes 0x0402 q → q.len = 4 → s.dark unitKeyStore = none → q.u 0 2 ≤ 1023 → q.rsv 2 2 = true → s.tenantOn q →
    s.foreignKey q.tenant (q.u 0 2) = false → ((s.keySlot (q.u 0 2)).st = .empty ∨ (s.keySlot (q.u 0 2)).st = .loaded) →
      ∃ u : State, exec (.keyRetire q) s = .next (u.answer 0x0402 q [0, 0, 0, 0]) ∧ (u.keySlot (q.u 0 2)).st = .empty ∧
        (u.keySlot (q.u 0 2)).key = [] ∧ (∀ j, j ≠ q.u 0 2 → u.keySlot j = s.keySlot j) ∧ { u with cip := s.cip } = s.accepted) ∧
  (∀ (s : State) (q : Request) (id slot : Nat),
    s.takes 0x0403 q → q.len = 16 → s.dark unitKeyStore = none → q.u 0 2 = id → q.u 2 2 = slot → id ≤ 4095 → slot ≤ 1023 →
    q.rsv 4 12 = true → s.tenantOn q → tget s.pas id = none → (s.keySlot slot).st = .loaded → (s.keySlot slot).owner = q.tenant →
    (s.keySlot slot).usage = 1 → s.tim.joined = true →
      ∃ u : State, exec (.cipherBind q) s = .next (u.answer 0x0403 q ([0, 0, 1, 0] ++ le 2 0xFFFF ++ zeros 10)) ∧
        ((q.tenant, id), slot) ∈ u.cip.prepared ∧ (u.keySlot slot).st = .prepared ∧ (u.keySlot slot).key = (s.keySlot slot).key ∧
        { u with cip := s.cip } = s.accepted) ∧
  (∀ (s : State) (q : Request) (id slot cc : Nat) (p : Passage) (pn : Option Nat),
    s.takes 0x0403 q → q.len = 16 → s.dark unitKeyStore = none → q.u 0 2 = id → q.u 2 2 = slot → id ≤ 4095 → slot ≤ 1023 → q.u 4 1 ≤ 1 →
    q.rsv 5 1 = true → (q.u 4 1 = 0 → q.rsv 6 2 = true) → q.rsv 14 2 = true → s.tenantOn q → tget s.pas id = some p → p.owner = q.tenant →
    p.mode ≠ 0 → (s.keySlot slot).st = .loaded → (s.keySlot slot).owner = q.tenant → (s.keySlot slot).usage = 1 → s.tim.joined = true →
    pn = (if q.u 4 1 = 1 then some p.cipherEngine else none) → cc = (if q.ch 8 = 0 then s.earliest pn.isSome else q.ch 8) →
    s.commitBad cc pn = none → (∀ cs, p.stop = some cs → chReached cc cs = false) → (s.cipPas id).rebind = none →
      ∃ u : State, exec (.cipherBind q) s = .next (u.answer 0x0403 q ([0, 0, 2, 0] ++ le 2 (p.key.getD 0) ++ zeros 2 ++ le 8 cc)) ∧
        u.hasScheduled cc (.rebind id slot) ∧ (u.keySlot slot).st = .bound ∧ (u.cipPas id).rebind = some (slot, cc) ∧
        { u with cip := s.cip, tab := s.tab } = s.accepted) ∧
  (∀ (s : State) (q : Request) (slot : Nat),
    s.takes 0x0404 q → q.len = 4 → s.dark unitKeyStore = none → q.u 0 2 ≤ 4095 → q.rsv 2 2 = true → s.tenantOn q →
    (∀ p, tget s.pas (q.u 0 2) = some p → p.mode = 0) → s.prepared q.tenant (q.u 0 2) = some slot →
      ∃ u : State, exec (.cipherUnbind q) s = .next (u.answer 0x0404 q [0, 0, 0, 0]) ∧ u.prepared q.tenant (q.u 0 2) = none ∧
        (u.keySlot slot).st = .loaded ∧ { u with cip := s.cip } = s.accepted)

/-- KEK_ROTATE: ACTION 1 over SPI with no KEK in force installs the payload's key and starts a job; ACTION 2 installs the key that the KEK in
force unwraps and starts a job; ACTION 3 installs the KEK of a blob that opens, and answers BAD_PARAM with reason 1 where none opens,
changing nothing; ACTION 4 answers with the blob and changes nothing; ACTION 5 erases the tenant's KEK. No other tenant's KEK changes. -/
def Obligations.KekRotateComplete : Prop :=
  (∀ (s : State) (q : Request),
    s.takes 0x0405 q → q.len = 72 → s.dark unitKeyStore = none → q.u 0 1 = 1 → q.rsv 1 3 = true → zeroAt (q.payload.drop 8) 32 32 = true →
    q.via = .spi → s.tenantOn q → tget s.cip.keks q.tenant = none → s.jobsFull q.tenant = false →
      ∃ (u : State) (token : Nat), exec (.kekRotate q) s = .next (u.answer 0x0405 q (jobStarted token)) ∧
        tget u.cip.keks q.tenant = some { gen := q.u 4 4, key := (q.payload.drop 8).take 32 } ∧
        (∀ k, k ≠ q.tenant → tget u.cip.keks k = tget s.cip.keks k) ∧ u.jobs.list.length = s.jobs.list.length + 1 ∧ u.cip.slots =
          s.cip.slots) ∧
  (∀ (s : State) (q : Request) (k : Kek) (key : List Byte),
    s.takes 0x0405 q → q.len = 72 → s.dark unitKeyStore = none → q.u 0 1 = 2 → q.rsv 1 3 = true → zeroAt (q.payload.drop 8) 40 24 = true →
    s.tenantOn q → tget s.cip.keks q.tenant = some k → k.gen < q.u 4 4 → keyUnwrap k.key ((q.payload.drop 8).take 40) = some key →
    s.jobsFull q.tenant = false →
      ∃ (u : State) (token : Nat), exec (.kekRotate q) s = .next (u.answer 0x0405 q (jobStarted token)) ∧
        tget u.cip.keks q.tenant = some { gen := q.u 4 4, key := key } ∧
        (∀ j, j ≠ q.tenant → tget u.cip.keks j = tget s.cip.keks j) ∧ u.jobs.list.length = s.jobs.list.length + 1 ∧ u.cip.slots =
          s.cip.slots) ∧
  (∀ (s : State) (q : Request) (k? : Option Kek),
    s.takes 0x0405 q → q.len = 72 → s.dark unitKeyStore = none → q.u 0 1 = 3 → q.rsv 1 7 = true → s.tenantOn q →
    k? = openBlob q.tenant (q.payload.drop 8) →
      ∃ u : State, exec (.kekRotate q) s = .next (u.answer 0x0405 q ((k?.map fun k => [0, 0, 0, 0] ++ le 4 k.gen).getD ([0x14, 1] ++ zeros
        6))) ∧
        tget u.cip.keks q.tenant = k?.or (tget s.cip.keks q.tenant) ∧ (∀ k, k ≠ q.tenant → tget u.cip.keks k = tget s.cip.keks k) ∧
        u.cip.slots = s.cip.slots ∧ (k? = none → u = s) ∧ (k? ≠ none → { u with cip := s.cip } = s.accepted)) ∧
  (∀ (s : State) (q : Request) (k : Kek),
    s.takes 0x0405 q → q.len = 72 → s.dark unitKeyStore = none → q.u 0 1 = 4 → q.rsv 1 7 = true → zeroAt (q.payload.drop 8) 0 64 = true →
    s.tenantOn q → tget s.cip.keks q.tenant = some k →
      exec (.kekRotate q) s = .next (s.accepted.answer 0x0405 q ([0, 0, 0, 0] ++ le 4 k.gen ++ kekBlob q.tenant k))) ∧
  (∀ (s : State) (q : Request),
    s.takes 0x0405 q → q.len = 72 → s.dark unitKeyStore = none → q.u 0 1 = 5 → q.rsv 1 7 = true → zeroAt (q.payload.drop 8) 0 64 = true →
    s.tenantOn q →
      ∃ u : State, exec (.kekRotate q) s = .next (u.answer 0x0405 q (zeros 8)) ∧ tget u.cip.keks q.tenant = none ∧
        (∀ k, k ≠ q.tenant → tget u.cip.keks k = tget s.cip.keks k) ∧ u.cip.slots = s.cip.slots ∧ { u with cip := s.cip } = s.accepted)

/-- Only page `n` of the tenant pages differs between two states, and nothing outside the command interface does. -/
abbrev onlyPage (s t : State) (n : Nat) : Prop :=
  (∀ k, k ≠ n → t.page k = s.page k) ∧ { t with com := s.com } = s ∧ { t.com with pages := s.com.pages } = s.com

/-- A doorbell over PCIe writes CMDQ_TAIL; where the fill then exceeds the ring it halts the ring with cause 5 and RING_HALTED. A fetch of an
entry whose header passes advances CMDQ_HEAD, reserves a response entry and leaves the packet waiting; a failed read halts the ring with
cause 1 and leaves CMDQ_HEAD. RSPQ_HEAD consumes the responses before it. ENABLE with LOG fields of 1 to 8 runs the ring with those sizes,
and with another LOG field leaves it stopped and halted with cause 4. RESET stops the ring, clears its indices and its halt, and discards
the responses of fetched commands. -/
def Obligations.RingRowsComplete : Prop :=
  (∀ (s : State) (n : Nat) (v : BitVec 16),
    s.settled → s.barUp = true → n ≤ 15 →
    ¬((s.page n).enable = true ∧ (s.page n).halted = false ∧ 2 ^ (s.page n).cmdqLog < (v - (s.page n).cmdqHead).toNat) →
      ∃ t : State, exec (.cmdqTailDoorbell n v) s = .next t ∧ t.page n = { s.page n with cmdqTail := v } ∧ onlyPage s t n) ∧
  (∀ (s : State) (n : Nat) (v : BitVec 16),
    s.settled → s.barUp = true → n ≤ 15 → (s.page n).enable = true → (s.page n).halted = false →
    2 ^ (s.page n).cmdqLog < (v - (s.page n).cmdqHead).toNat →
      ∃ t : State, exec (.cmdqTailDoorbell n v) s = .next t ∧ (t.page n).halted = true ∧ (t.page n).cause = 5 ∧ (t.page n).cmdqTail = v ∧
        (t.page n).cmdqHead = (s.page n).cmdqHead ∧ (t.page n).intStatus.getLsbD 2 = true ∧ (∀ k, k ≠ n → (t.page k).halted = (s.page
          k).halted)) ∧
  (∀ (s : State) (n : Nat) (bytes : List Byte),
    s.settled → s.nextPage = some n → headerCheck (some n) false (bytes.take 4096) = none →
      ∃ t : State, exec (.ringFetch (.entry bytes)) s = .next t ∧
        t.page n = { s.page n with cmdqHead := (s.page n).cmdqHead + 1, outstanding := (s.page n).outstanding + 1 } ∧
        t.com.received = s.com.received ++ [Received.mk (fld bytes 2 2) (Request.mk (.ring n) n (BitVec.ofNat 32 (fld bytes 8 4))
          ((bytes.drop 16).take (fld bytes 6 2))) false none false] ∧
        t.com.lastServed = n ∧ (∀ k, k ≠ n → t.page k = s.page k) ∧ { t with com := s.com } = s) ∧
  (∀ (s : State) (n : Nat),
    s.settled → s.nextPage = some n →
      ∃ t : State, exec (.ringFetch .readError) s = .next t ∧ (t.page n).halted = true ∧ (t.page n).cause = 1 ∧
        (t.page n).index = (s.page n).cmdqHead.toNat ∧ (t.page n).cmdqHead = (s.page n).cmdqHead ∧ (t.page n).intStatus.getLsbD 2 = true ∧
        t.com.received = s.com.received ∧ (∀ k, k ≠ n → (t.page k).halted = (s.page k).halted)) ∧
  (∀ (s : State) (n : Nat) (v : BitVec 16),
    s.settled → s.barUp = true → n ≤ 15 →
      ∃ t : State, exec (.rspqHeadWrite n v) s = .next t ∧ (t.page n).rspqHead = v ∧
        (t.page n).unread = (s.page n).unread.drop ((s.page n).unread.length - ((s.page n).rspqTail - v).toNat) ∧
        { t.page n with rspqHead := (s.page n).rspqHead, unread := (s.page n).unread } = s.page n ∧ onlyPage s t n) ∧
  (∀ (s : State) (n c r : Nat),
    s.settled → s.barUp = true → n ≤ 15 → (s.page n).enable = false → 1 ≤ c → c ≤ 8 → 1 ≤ r → r ≤ 8 →
      ∃ t : State, exec (.ringEnable n c r) s = .next t ∧ t.page n = { s.page n with enable := true, cmdqLog := c, rspqLog := r } ∧
        onlyPage s t n) ∧
  (∀ (s : State) (n c r : Nat),
    s.settled → s.barUp = true → n ≤ 15 → (s.page n).enable = false → c ≤ 15 → r ≤ 15 → (c = 0 ∨ 8 < c ∨ r = 0 ∨ 8 < r) →
      ∃ t : State, exec (.ringEnable n c r) s = .next t ∧ (t.page n).enable = false ∧ (t.page n).halted = true ∧ (t.page n).cause = 4) ∧
  (∀ (s : State) (n : Nat),
    s.settled → s.barUp = true → n ≤ 15 →
      ∃ t : State, exec (.ringReset n) s = .next t ∧ (t.page n).enable = false ∧ (t.page n).halted = false ∧ (t.page n).cause = 0 ∧
        (t.page n).cmdqTail = 0 ∧ (t.page n).cmdqHead = 0 ∧ (t.page n).rspqTail = 0 ∧ (t.page n).rspqHead = 0 ∧ (t.page n).unread = [] ∧
        (t.page n).intStatus = (s.page n).intStatus ∧ (t.page n).outstanding = 0 ∧
        t.com.received = s.com.received.map (fun x => if x.req.via = Via.ring n then { x with void := true } else x) ∧
        onlyPage s { t with com := { t.com with received := s.com.received } } n)

/-- INT_STATUS_CLEAR clears the bits written as 1 and no other. After MODERATION_US, RSP_READY is set again where a response was written
meanwhile. EVT_RD takes a count from its own value up to EVT_WR and discards any other. A read of CHAMBER_LO returns the low word of the
chamber and latches the high word. A read of a counter's low word returns it and latches the high word of the view; of a dark unit's group
it returns 0xDA4CDA4C. A read of a global register, or of a part of one, returns it. A write of 4 bytes at an aligned offset is taken
(SCRATCH0), one of another size or at another offset changes nothing. A read of a register with an uncorrectable code returns 0xECC0ECC0. -/
def Obligations.InterruptAndRegisterRowsComplete : Prop :=
  (∀ (s : State) (n : Nat) (v : Reg),
    s.settled → s.barUp = true → n ≤ 15 →
      ∃ t : State, exec (.intStatusClear n v) s = .next t ∧ (t.page n).intStatus = (s.page n).intStatus &&& ~~~v ∧
        (t.page n).intMask = (s.page n).intMask ∧ (∀ k, k ≠ n → t.page k = s.page k) ∧ { t with com := s.com } = s) ∧
  (∀ (s : State) (n t0 : Nat),
    s.settled → (s.page n).rspCleared = some t0 → t0 + (s.page n).moderation * usQ ≤ s.mono → (s.page n).rspDue = true →
      ∃ t : State, exec (.rspReadyModeration n) s = .next t ∧ (t.page n).intStatus.getLsbD 0 = true ∧ (t.page n).rspDue = false ∧
        (t.page n).rspCleared = none ∧ (∀ k, k ≠ n → t.page k = s.page k)) ∧
  (∀ (s : State) (n t0 : Nat),
    s.settled → (s.page n).rspCleared = some t0 → s.mono < t0 + (s.page n).moderation * usQ →
      exec (.rspReadyModeration n) s = .next s) ∧
  (∀ (s : State) (v : Reg),
    s.settled → s.barUp = true →
      exec (.evtRdWrite v) s = .next (if (v.toNat + 2 ^ 32 - s.log.evtRd) % 2 ^ 32 ≤ s.log.unread then
        { s with log := { s.log with evtRd := v.toNat } } else s)) ∧
  (∀ (s : State),
    s.settled → s.barUp = true →
      exec .chamberLoRead s = .next
        { s with com := { s.com with chamberHi := reg (s.chamber / 2 ^ 32), readData := le 4 (s.chamber % 2 ^ 32) } }) ∧
  (∀ (s : State) (n j u i : Nat) (cells : List GCell) (c : GCell),
    s.settled → s.barUp = true → n ≤ 15 → j < 512 → s.selected n = (u, i) → s.liveGroup n = some cells → s.dark u = none →
    cells[j]? = some c →
      ∃ t : State, exec (.counterLowWordRead n j) s = .next t ∧ t.com.readData = le 4 (c.val.toNat % 2 ^ 32) ∧
        t.page n = { s.page n with shadowHi := (c.val >>> 32).setWidth 32 } ∧ (∀ k, k ≠ n → t.page k = s.page k) ∧ { t with com := s.com }
          = s) ∧
  (∀ (s : State) (n j why : Nat),
    s.settled → s.barUp = true → n ≤ 15 → j < 512 → (s.liveGroup n).isSome = true → s.dark (s.selected n).1 = some why →
      ∃ t : State, exec (.counterLowWordRead n j) s = .next t ∧ t.com.readData = [0x4C, 0xDA, 0x4C, 0xDA]) ∧
  (∀ (s : State) (a size o : Nat),
    s.settled → s.barUp = true → bar0Part (a / 4 * 4) = .global o → o ≠ 0x20 → 1 ≤ size → a % 4 + size ≤ 4 →
      exec (.bar0DarkRead a size) s = .next
        { s with com := { s.com with readData := ((le 4 (s.globalReg o).toNat).drop (a % 4)).take size } }) ∧
  (∀ (s : State) (v : Reg),
    s.settled → s.barUp = true →
      exec (.registerWrite 0x10 4 v) s = .next { s with com := { s.com with scratch0 := v } }) ∧
  (∀ (s : State) (a size : Nat) (v : Reg),
    s.settled → (size ≠ 4 ∨ a % 4 ≠ 0) →
      exec (.registerWrite a size v) s = .next s) ∧
  (∀ (s : State) (u inst a : Nat),
    s.settled → memListed u inst = true → s.dark u = none →
      ∃ t : State, exec (.uncorrectableRegisterRead u inst a false) s = .next t ∧ t.com.readData = [0xC0, 0xEC, 0xC0, 0xEC]) ∧
  (∀ (s : State) (u inst a : Nat),
    s.settled → memListed u inst = true → s.dark u = none →
      ∃ t : State, exec (.uncorrectableRegisterRead u inst a true) s = .next t ∧ t.com.spi.lastRead = [0xC0, 0xEC, 0xC0, 0xEC])

/-- Where a live window's CTR_SELECT names the group of a dark unit, a BAR0 read of any word of the window, or of a part of one, over PCIe
completes and returns that word of 0xDA4CDA4C. (The model reaches units through BAR0 only in the counter views.) -/
def Obligations.DarkReadReturnsTheDarkWord : Prop :=
  ∀ (s : State) (a size n o why : Nat),
    s.settled → s.barUp = true → bar0Part (a / 4 * 4) = .live n o → (s.liveGroup n).isSome = true → s.dark (s.selected n).1 = some why →
    1 ≤ size → a % 4 + size ≤ 4 →
      ∃ t : State, exec (.bar0DarkRead a size) s = .next t ∧ t.com.readData = (([0x4C, 0xDA, 0x4C, 0xDA] : List Byte).drop (a % 4)).take
        size

/-- Where a live window's CTR_SELECT names the group of a dark unit, a BAR0 write of the window over PCIe changes nothing but the event log
(DARK_ACCESS) and page 0's interrupt state (the watermark). -/
def Obligations.DarkWriteIsDiscarded : Prop :=
  ∀ (s : State) (a n o why : Nat) (v : Reg),
    s.settled → s.barUp = true → a % 4 = 0 → bar0Part a = .live n o → (s.liveGroup n).isSome = true → s.dark (s.selected n).1 = some why →
      ∃ t : State, exec (.registerWrite a 4 v) s = .next t ∧ { t with com := s.com, log := s.log } = s ∧ (∀ k, k ≠ 0 → t.page k = s.page
        k) ∧
        { t.page 0 with intStatus := (s.page 0).intStatus } = s.page 0 ∧
          { t.com with pages := s.com.pages, pba := s.com.pba, msiSent := s.com.msiSent } = s.com

/-- On the SPI target and on the I2C target a packet whose header passes is received where the target has space; where it has none it is
discarded with OVERRUN. A whole read returns the oldest response followed by 0x00 and removes it; a read that ends early leaves it. A
status read returns the status word and clears OVERRUN. REG_READ and REG_WRITE act on BAR0 (here SCRATCH0). -/
def Obligations.TargetRowsComplete : Prop :=
  (∀ (s : State) (b : List Byte),
    s.settled → s.targetsUp = true → s.power.dormant = .no → s.cmdSpace s.com.spi .spi = true → headerCheck none true b = none →
      exec (.packetWrite b) s = .next { s with com := { s.com with received := s.com.received ++
        [Received.mk (fld b 2 2) (Request.mk .spi (fld b 4 2) (BitVec.ofNat 32 (fld b 8 4)) (packetPayload b)) false none false] } }) ∧
  (∀ (s : State) (b : List Byte),
    s.settled → s.targetsUp = true → s.power.dormant = .no → s.cmdSpace s.com.spi .spi = false →
      ∃ t : State, exec (.packetWrite b) s = .next t ∧ t.com.spi.overrun = true ∧ t.com.spi.discarded = s.com.spi.discarded + 1 ∧
        t.com.spi.responses = s.com.spi.responses ∧ t.com.received = s.com.received) ∧
  (∀ (s : State) (b : List Byte),
    s.settled → s.targetsUp = true → s.com.i2cOff = false → s.power.dormant = .no → s.cmdSpace s.com.i2c .i2c = true →
    headerCheck none true b = none →
      exec (.i2cPacketWrite b) s = .next { s with com := { s.com with received := s.com.received ++
        [Received.mk (fld b 2 2) (Request.mk .i2c (fld b 4 2) (BitVec.ofNat 32 (fld b 8 4)) (packetPayload b)) false none false] } }) ∧
  (∀ (s : State) (r : Rsp) (rs : List Rsp),
    s.settled → s.targetsUp = true → s.power.dormant = .no → s.com.spi.responses = r :: rs →
      exec (.responseRead true) s = .next (s.modSpi fun t => { t with lastRead := r.bytes ++ [0], responses := rs })) ∧
  (∀ (s : State) (r : Rsp) (rs : List Rsp),
    s.settled → s.targetsUp = true → s.power.dormant = .no → s.com.spi.responses = r :: rs →
      exec (.responseRead false) s = .next (s.modSpi fun t => { t with lastRead := r.bytes.dropLast })) ∧
  (∀ (s : State),
    s.settled → s.targetsUp = true →
      exec .statusRead s = .next (s.modSpi fun t =>
        { t with lastRead := le 4 (s.statusWord s.com.spi .spi), overrun := false, discarded := 0 })) ∧
  (∀ (s : State) (r : Rsp) (rs : List Rsp),
    s.settled → s.targetsUp = true → s.com.i2cOff = false → s.power.dormant = .no → s.com.i2c.responses = r :: rs →
      exec (.i2cRead false true) s = .next (s.modI2c fun t => { t with lastRead := r.bytes ++ [0], responses := rs })) ∧
  (∀ (s : State) (r : Rsp) (rs : List Rsp),
    s.settled → s.targetsUp = true → s.com.i2cOff = false → s.power.dormant = .no → s.com.i2c.responses = r :: rs →
      exec (.i2cRead false false) s = .next (s.modI2c fun t => { t with lastRead := r.bytes.dropLast })) ∧
  (∀ (s : State) (b : List Byte),
    s.settled → s.targetsUp = true → s.com.i2cOff = false → s.power.dormant = .no → s.cmdSpace s.com.i2c .i2c = false →
      ∃ t : State, exec (.i2cPacketWrite b) s = .next t ∧ t.com.i2c.overrun = true ∧ t.com.i2c.discarded = s.com.i2c.discarded + 1 ∧
        t.com.i2c.responses = s.com.i2c.responses ∧ t.com.received = s.com.received) ∧
  (∀ (s : State),
    s.settled → s.targetsUp = true → s.com.i2cOff = false → s.power.dormant = .no →
      exec (.i2cRead true true) s = .next (s.modI2c fun t =>
        { t with lastRead := le 4 (s.statusWord s.com.i2c .i2c), overrun := false, discarded := 0 })) ∧
  (∀ (s : State) (o : Nat),
    s.settled → s.targetsUp = true → o < 0x10000 → o % 4 = 0 → o ≠ 0x20 →
      exec (.regRead o) s = .next (s.modSpi fun t => { t with lastRead := le 4 (s.globalReg o).toNat })) ∧
  (∀ (s : State) (v : Reg),
    s.settled → s.targetsUp = true →
      exec (.regWrite 0x10 v) s = .next { s with com := { s.com with scratch0 := v } })

/-- PCIE_PERST_N stops every page's ring and clears its indices, and leaves the interrupt status, the jobs, the SPI and I2C targets and
everything outside the command interface as they were. Entering D3hot sets the power state and nothing else; the return to D0 leaves no
page with held responses. A job step serves the next job in turn: the staged image of a firmware write goes to the slot that was not
preferred, which becomes the preferred one, and a fill of a pattern writes 4 096 bytes and advances; where no job is due it changes
nothing. (No packet waits here: one that does is executed before the step.) -/
def Obligations.EndpointAndJobRowsComplete : Prop :=
  (∀ (s : State),
    s.settled →
      ∃ t : State, exec .pciePerst s = .next t ∧ (∀ n, n ≤ 15 → (t.page n).enable = false ∧ (t.page n).cmdqHead = 0 ∧
        (t.page n).cmdqTail = 0 ∧ (t.page n).rspqHead = 0 ∧ (t.page n).rspqTail = 0 ∧ (t.page n).unread = [] ∧
        (t.page n).intStatus = (s.page n).intStatus) ∧ t.com.d3hot = false ∧ t.com.spi = s.com.spi ∧ t.com.i2c = s.com.i2c ∧
        { t with com := s.com } = s) ∧
  (∀ (s : State),
    s.settled →
      exec (.pcieD3hotTransition true) s = .next { s with com := { s.com with d3hot := true } }) ∧
  (∀ (s : State),
    s.settled →
      ∃ t : State, exec (.pcieD3hotTransition false) s = .next t ∧ t.com.d3hot = false ∧ (∀ n, n ≤ 15 → (t.page n).held = []) ∧
        { t with com := s.com } = s) ∧
  (∀ (s : State) (io : JobIo),
    s.settled → s.com.received.find? Received.waits = none → s.nextJob = none →
      exec (.jobStep io) s = .next s) ∧
  (∀ (s : State) (j : Job) (io : JobIo) (off : Nat) (img : List Byte),
    s.settled → s.serving = true → s.com.received.find? Received.waits = none → s.nextJob = some j → j.work = .fwWrite 1 off →
    s.staged 1 = some img → io.ok = true →
      ∃ t : State, exec (.jobStep io) s = .next t ∧ t.jobs.lastTenant = j.tenant ∧ tget t.store.slots (1 - s.store.preferred) = some img ∧
        t.store.preferred = 1 - s.store.preferred ∧ (∀ k ∈ t.jobs.list, k.token = j.token → k.finish = some (0, []) ∧ k.progress = 100) ∧
        t.mem = s.mem ∧ t.engs = s.engs ∧ t.pas = s.pas ∧ t.log = s.log) ∧
  (∀ (s : State) (j : Job) (io : JobIo) (u addr len data done : Nat),
    s.settled → s.serving = true → s.com.received.find? Received.waits = none → s.nextJob = some j →
    j.work = .fill 1 u addr len data done → s.dark u = none → io.readBad = none → done + 4096 < len →
      ∃ t : State, exec (.jobStep io) s = .next t ∧
        t.mem = (s.memWrite u 0 (addr + done) ((List.range 512).flatMap fun _ => le 8 data)).mem ∧
        (∀ k ∈ t.jobs.list, k.token = j.token → k.work = .fill 1 u addr len data (done + 4096) ∧ k.progress = (done + 4096) * 100 / len) ∧
        t.engs = s.engs ∧ t.pas = s.pas ∧ t.tab = s.tab)

/-- REF_CONFIG ACTION 1 of a new reference or PPS input with a given level holds its configuration, LOST where its signal is absent and
QUALIFYING where it is present with a level that can be used, and DISQUALIFIED with cause 4 where it is present with QL-DNU; ACTION 2
removes the input; no other input changes. REF_STATUS answers with its layout and changes nothing. LOOP_CONFIG ACTION 1 puts the loop
configuration in force, ACTION 2 reads it. TIME_SET sets domain time at once, or arms the time for the PPS edge. DOMAIN_JOIN ACTION 1 and
2 wait for the next chamber boundary; ACTION 3 starts a relay job. -/
def Obligations.TimingCommandsComplete : Prop :=
  (∀ (s : State) (q : Request) (i : Nat),
    s.settled → s.takes 0x0501 q → q.len = 20 → q.u 0 1 = i → i ≤ 8 → q.u 1 1 = 1 → q.rsv 17 3 = true → refFieldsOk q = true →
    (q.u 4 1 ≠ 0xF ∨ s.tim.present.contains i = false) → s.dark (0x0D00 + i) = none → q.tenant = 0 → q.u 3 1 = 0 →
    q.u 5 1 = (if i = 8 then 1 else 0) → tget s.tim.inputs i = none → s.tim.inputs.length < 32 →
      ∃ t : State, exec (.refConfig q) s = .next t ∧ tget t.tim.inputs i = some { ({} : TimeInput) with
        priority := q.u 2 1, qlMode := 0, ql := q.u 4 1, timeUse := i == 8, qualifyS := q.u 6 2, freqHz := q.u 8 4, compPs := q.i 12 4,
          rxQlAt := s.mono, since := s.mono, st := if s.tim.present.contains i then 2 else 1 } ∧
        (∀ k, k ≠ i → tget t.tim.inputs k = tget s.tim.inputs k) ∧ t.engs = s.engs ∧ t.pas = s.pas ∧ t.mem = s.mem) ∧
  (∀ (s : State) (q : Request) (i : Nat),
    s.settled → s.takes 0x0501 q → q.len = 20 → q.u 0 1 = i → i ≤ 8 → q.u 1 1 = 1 → q.rsv 17 3 = true → refFieldsOk q = true →
    q.u 4 1 = 0xF → s.tim.present.contains i = true → s.dark (0x0D00 + i) = none → q.tenant = 0 → q.u 3 1 = 0 →
    q.u 5 1 = (if i = 8 then 1 else 0) → tget s.tim.inputs i = none → s.tim.inputs.length < 32 →
      ∃ t : State, exec (.refConfig q) s = .next t ∧ (t.input i).st = 4 ∧ (t.input i).cause = 4 ∧
        (∀ k, k ≠ i → tget t.tim.inputs k = tget s.tim.inputs k) ∧ t.engs = s.engs ∧ t.pas = s.pas ∧ t.mem = s.mem) ∧
  (∀ (s : State) (q : Request) (i u : Nat),
    s.settled → s.takes 0x0501 q → q.len = 20 → q.u 0 1 = i → q.u 1 1 = 2 → q.rsv 17 3 = true → inputUnit i = some u → s.dark u = none →
    q.tenant = 0 → s.tim.inputs.wf →
      ∃ t : State, exec (.refConfig q) s = .next t ∧ tget t.tim.inputs i = none ∧ (∀ k, k ≠ i → tget t.tim.inputs k = tget s.tim.inputs k)
        ∧
        t.tim.selected ≠ some i ∧ t.engs = s.engs ∧ t.pas = s.pas ∧ t.mem = s.mem) ∧
  (∀ (s : State) (q : Request),
    s.takes 0x0502 q → s.tenantOn q → q.len = 0 →
      exec (.refStatus q) s = .next (s.accepted.answer 0x0502 q s.refReply)) ∧
  (∀ (s : State) (q : Request),
    s.takes 0x0503 q → q.tenant = 0 → q.len = 72 → q.u 0 1 = 1 → q.rsv 1 3 = true → loopBad q s.tim = false →
      ∃ (u : State) (p : List Byte), exec (.loopConfig q) s = .next (u.answer 0x0503 q p) ∧ p = u.loopReply ∧
        u.tim.trackBw = (if q.u 4 2 = 0 then 100 else q.u 4 2) ∧ u.tim.avgS = (if q.u 6 2 = 0 then 300 else q.u 6 2) ∧
        u.tim.slew = (if q.u 14 2 = 0 then 100 else q.u 14 2) ∧ u.tim.wtrS = q.u 12 2 ∧ u.tim.inputs = s.tim.inputs ∧
        u.tim.clks.map (fun c => (c.1, c.2.hz, c.2.squelch)) = [(0, q.u 36 4, q.u 40 1), (1, q.u 44 4, q.u 48 1), (2, q.u 52 4, q.u 56 1),
          (3, q.u 60 4, q.u 64 1)] ∧
        u.tim.ppsWidth = q.u 68 4 ∧ u.engs = s.engs ∧ u.pas = s.pas) ∧
  (∀ (s : State) (q : Request),
    s.takes 0x0503 q → s.tenantOn q → q.len = 72 → q.u 0 1 = 2 → q.rsv 1 3 = true → q.rsv 4 68 = true →
      exec (.loopConfig q) s = .next (s.accepted.answer 0x0503 q s.loopReply)) ∧
  (∀ (s : State) (q : Request),
    s.takes 0x0504 q → q.tenant = 0 → q.len = 16 → q.u 0 4 < secQ → q.u 10 1 = 0 → q.rsv 11 5 = true →
    (∀ i, s.tim.source = some i → twoWay i = false) → s.stepBlocked = false →
      ∃ u : State, exec (.timeSet q) s = .next (u.answer 0x0504 q [0, 0, 0, 0]) ∧ u.now = q.u 4 6 * secQ + q.u 0 4 ∧
        u.tim = { s.tim with wasSet := true, stepWarn := false } ∧ u.mono = s.mono ∧ u.engs = s.engs ∧ u.pas = s.pas ∧ u.mem = s.mem) ∧
  (∀ (s : State) (q : Request) (x : TimeInput),
    s.takes 0x0504 q → q.tenant = 0 → q.len = 16 → q.u 0 4 = 0 → q.u 10 1 = 1 → q.rsv 11 5 = true →
    (∀ i, s.tim.source = some i → twoWay i = false) → s.stepBlocked = false → tget s.tim.inputs 8 = some x → x.st = 3 →
      exec (.timeSet q) s = .next ((s.accepted.modTim fun t => { t with armed := some (q.u 4 6 * secQ, s.mono + 10 * msQ) }).answer 0x0504
        q [0, 0, 0, 0])) ∧
  (∀ (s : State) (q : Request),
    s.takes 0x0505 q → q.tenant = 0 → q.len = 16 → (q.u 0 1 = 1 ∨ q.u 0 1 = 2) → q.u 1 1 = 0 → q.u 10 1 = 0 → q.rsv 11 5 = true →
    s.stepBlocked = false → (q.u 0 1 = 2 → q.u 2 2 = 0 ∧ q.u 4 6 = 0) → (q.u 0 1 = 1 → q.u 4 6 ≤ s.sec) →
      exec (.domainJoin q) s = .next ((s.accepted.modTim fun t =>
        { t with joining := some (if q.u 0 1 = 1 then some (q.u 2 2, q.u 4 6) else none), joinCh := s.chamber }).answer 0x0505 q
        ([0, 0, 0, 0] ++ le 2 (q.u 2 2) ++ zeros 2 ++ le 8 (q.u 4 6)))) ∧
  (∀ (s : State) (q : Request) (port u : Nat),
    s.takes 0x0505 q → s.tenantOn q → 32 ≤ q.len → q.len ≤ 4080 → q.u 0 1 = 3 → q.u 1 1 ≤ 1 → q.u 4 6 = 0 → q.u 10 1 = port →
    relayPort port = true → q.rsv 11 5 = true → inputUnit port = some u → s.dark u = none → s.carrierUp port = true →
    s.canSign q.tenant = true → s.jobsFull q.tenant = false →
      ∃ (u : State) (token : Nat), exec (.domainJoin q) s = .next (u.answer 0x0505 q (jobStarted token)) ∧
        u.jobs.list.length = s.jobs.list.length + 1 ∧ u.tim.msgCount = s.tim.msgCount + 1 ∧ u.pas = s.pas ∧ u.mem = s.mem)

/-- A configured input that is to be declared lost is LOST and no longer present, and one that is not stays as it was. One whose signal comes
enters QUALIFYING, or is DISQUALIFIED with cause 4 where its quality level is unusable. After QUALIFY_S an input with a usable level is
QUALIFIED. A QUALIFIED input with QL_MODE 1 is disqualified with cause 4 by five seconds without a QL. None of these changes another
input. A partner's offset below 30 ns is held and nothing more; one of 30 ns or more is timed from then on, and recorded once when it has
stood for 1 s. A PPS edge with no time armed marks the second nearest to it, less COMP_PS; with a time armed and due the edge less COMP_PS
takes that time (the model's reading, assumption 82). -/
def Obligations.ReferenceRowsComplete : Prop :=
  (∀ (s : State) (i quiet : Nat),
    s.settled → thas s.tim.inputs i = true → s.lossSeen i quiet = true →
      ∃ t : State, exec (.refInputLost i quiet) s = .next t ∧ (t.input i).st = 1 ∧ t.tim.present.contains i = false ∧
        (∀ k, k ≠ i → t.input k = s.input k) ∧ t.engs = s.engs ∧ t.pas = s.pas ∧ t.mem = s.mem) ∧
  (∀ (s : State) (i quiet : Nat),
    s.settled → s.lossSeen i quiet = false →
      exec (.refInputLost i quiet) s = .next s) ∧
  (∀ (s : State) (i : Nat),
    s.settled → thas s.tim.inputs i = true → (s.input i).st = 1 → s.carries i = true →
      ∃ t : State, exec (.refInputPresent i) s = .next t ∧
        ((s.input i).badQl = false → t.input i = { s.input i with st := 2, since := s.mono }) ∧
        ((s.input i).badQl = true → (t.input i).st = 4 ∧ (t.input i).cause = 4) ∧
        t.tim.present.contains i = true ∧ (∀ k, k ≠ i → t.input k = s.input k) ∧ { t with tim := s.tim } = s) ∧
  (∀ (s : State) (i : Nat),
    s.settled → thas s.tim.inputs i = true → (s.input i).st = 2 → (s.input i).usable = true →
    (s.input i).since + (s.input i).qualify * secQ ≤ s.mono →
      ∃ t : State, exec (.refQualified i) s = .next t ∧ t.input i = { s.input i with st := 3, qualAt := s.mono, cleanAt := none } ∧
        (∀ k, k ≠ i → t.input k = s.input k) ∧ t.engs = s.engs ∧ t.pas = s.pas ∧ t.mem = s.mem) ∧
  (∀ (s : State) (i : Nat),
    s.settled → thas s.tim.inputs i = true → (s.input i).qlMode ≠ 0 → (s.input i).qlFailed = false → (s.input i).st = 3 →
    (s.input i).rxQlAt + 5 * secQ ≤ s.mono →
      ∃ t : State, exec (.qlTimeout i) s = .next t ∧ (t.input i).qlFailed = true ∧ (t.input i).st = 4 ∧ (t.input i).cause = 4 ∧
        (∀ k, k ≠ i → t.input k = s.input k) ∧ t.engs = s.engs ∧ t.pas = s.pas ∧ t.mem = s.mem) ∧
  (∀ (s : State) (i : Nat) (off : Int),
    s.settled → twoWay i = true → off.natAbs < 120 →
      exec (.timePartnerOffset i off) s = .next (s.modPartner i fun p => { p with off := off, wideAt := none, warned := false })) ∧
  (∀ (s : State) (i : Nat) (off : Int),
    s.settled → twoWay i = true → 120 ≤ off.natAbs → (s.partner i).wideAt = none →
      exec (.timePartnerOffset i off) s = .next (s.modPartner i fun p => { p with off := off, wideAt := some s.mono })) ∧
  (∀ (s : State) (i w : Nat) (off : Int),
    s.settled → twoWay i = true → 120 ≤ off.natAbs → (s.partner i).wideAt = some w → w + secQ ≤ s.mono → (s.partner i).warned = false →
      ∃ t : State, exec (.timePartnerOffset i off) s = .next t ∧ t.partner i = { s.partner i with off := off, warned := true } ∧
        t.log = (s.raise islTime .timePartnerOffset i (leS 4 off)).log ∧ t.tim.inputs = s.tim.inputs ∧
        { t with tim := s.tim, log := s.log, com := s.com } = s) ∧
  (∀ (s : State) (dest early : Nat),
    s.settled → s.tim.armed = some (dest, early) → early ≤ s.mono → s.stepBlocked = false →
      ∃ t : State, exec .ppsInEdge s = .next t ∧ t.now = dest + ((s.input 8).compPs / 250).toNat ∧
        t.tim = { s.tim with ppsAt := s.mono, ppsPhase := 0, armed := none, wasSet := true, stepWarn := false } ∧
        t.mono = s.mono ∧ t.engs = s.engs ∧ t.pas = s.pas) ∧
  (∀ (s : State),
    s.settled → s.tim.armed = none →
      exec .ppsInEdge s = .next { s with tim := { s.tim with
        ppsAt := s.mono, ppsPhase := toSecond ((s.now : Int) * 250 - (s.input 8).compPs) } })

/-- Each second the loop takes in the measurements: the mean of every measured input, and while it is TRACKING after that second's selection
one more history entry, never more than 3 600. A narrowing step after its dwell goes to LOCKED, the fourth to TRACKING. After 6 h of
TRACKING the mean of the history is written to MTP, and where the copy fails the old offset stays. At the boundary after DOMAIN_JOIN the
node and epoch change. A message that authenticates and is newer is counted and its SEQ kept: TYPE 1 leaves its packet waiting as a
command; a message that fails is discarded and counted. A relay without a response for 100 ms ends with NOT_READY. A slip re-centres the
elastic buffer and marks the passages that take their blocks from it. -/
def Obligations.LoopRowsComplete : Prop :=
  (∀ (s : State) (ms : List Meas) (f : Int),
    s.settled → s.tim.evalAt + secQ ≤ s.mono → (ms.map Meas.input).Nodup →
      ∃ t : State, exec (.refSecondEval ms f) s = .next t ∧ t.tim.evalAt = s.mono ∧
        (t.tim.loopSt = 3 → t.tim.history = (f :: s.tim.history).take 3600 ∧ t.tim.loopFreq = f) ∧
        (t.tim.loopSt ≠ 3 → t.tim.history = s.tim.history) ∧
        (∀ m ∈ ms, thas s.tim.inputs m.input = true → m.freqs ≠ [] → (t.input m.input).mean = m.freqs.foldl (· + ·) 0 / (m.freqs.length :
          Int)) ∧
        (t.tim.source = none → t.now = s.now) ∧ t.engs = s.engs ∧ t.pas = s.pas ∧ t.mem = s.mem) ∧
  (∀ (s : State),
    s.settled → (s.tim.loopSt = 1 ∨ s.tim.loopSt = 2) → dwellOver s.tim.bwStep s.tim.trackBw (s.mono - s.tim.dwellAt) = true →
      ∃ t : State, exec .loopNarrowStep s = .next t ∧ t.tim.bwStep = s.tim.bwStep + 1 ∧ t.tim.dwellAt = s.mono ∧
        t.tim.loopSt = (if s.tim.bwStep < 3 then 2 else 3) ∧ t.tim.inputs = s.tim.inputs ∧ t.now = s.now ∧ t.engs = s.engs ∧ t.pas = s.pas) ∧
  (∀ (s : State) (temp : Int),
    s.settled → s.tim.loopSt = 3 → s.tim.history ≠ [] → s.tim.trackAt + 6 * 3600 * secQ ≤ s.mono →
      ∃ t : State, exec (.oscOffsetWrite temp true) s = .next t ∧
        t.store.oscOffset = some (s.tim.history.foldl (· + ·) 0 / (s.tim.history.length : Int), temp) ∧ t.tim.trackAt = s.mono ∧
        t.log.life.wrOsc = s.log.life.wrOsc + 1 ∧ t.engs = s.engs ∧ t.pas = s.pas ∧ t.mem = s.mem) ∧
  (∀ (s : State) (temp : Int),
    s.settled →
      ∃ t : State, exec (.oscOffsetWrite temp false) s = .next t ∧ { t.store with invalid := s.store.invalid } = s.store ∧ t.engs = s.engs
        ∧ t.pas = s.pas) ∧
  (∀ (s : State) (node epoch : Nat),
    s.settled → s.chamber ≠ s.tim.joinCh → s.tim.joining = some (some (node, epoch)) →
      ∃ t : State, exec .domainJoinApply s = .next t ∧ t.node = node ∧ t.epoch = epoch ∧ t.tim =
        { s.tim with joining := none, joined := true } ∧
        t.now = s.now ∧ t.engs = s.engs ∧ t.pas = s.pas) ∧
  (∀ (s : State),
    s.settled → s.chamber ≠ s.tim.joinCh → s.tim.joining = some none →
      exec .domainJoinApply s = .next { s with node := 0, epoch := 0, tim := { s.tim with joining := none, joined := false } }) ∧
  (∀ (s : State) (input : Nat) (m : List Byte) (rest : List (Nat × List Byte)),
    s.settled → s.tim.inbox = (input, m) :: rest → 32 ≤ m.length → (fld m 1 1 % 2 = 1 ∨ fld m 4 2 = s.node) →
    s.messageBad input m = none → fld m 0 1 = 1 → fld (m.drop 16) 4 2 = fld m 6 2 →
    headerCheck none true ((m.drop 16).take (m.length - 32)) = none → 8 ≤ m.length - 32 →
      ∃ t : State, exec .domainMessageReceive s = .next t ∧ t.tim.inbox = rest ∧ t.tim.msgRx = s.tim.msgRx + 1 ∧
        ((fld m 2 2, fld m 6 2, input), fld m 8 8) ∈ t.tim.lastSeq ∧ t.com.received.length = s.com.received.length + 1 ∧
        t.com.received.take s.com.received.length = s.com.received ∧ t.engs = s.engs ∧ t.pas = s.pas ∧ t.mem = s.mem) ∧
  (∀ (s : State) (input c : Nat) (m : List Byte) (rest : List (Nat × List Byte)),
    s.settled → s.tim.inbox = (input, m) :: rest → 32 ≤ m.length → (fld m 1 1 % 2 = 1 ∨ fld m 4 2 = s.node) →
    s.messageBad input m = some c →
      ∃ t : State, exec .domainMessageReceive s = .next t ∧ t.tim = { s.tim with
        inbox := rest, replays := s.tim.replays + (if c = 2 then 1 else 0), authFails := s.tim.authFails + (if c = 2 then 0 else 1) } ∧
        t.com.received = s.com.received ∧ t.jobs = s.jobs ∧ t.engs = s.engs ∧ t.pas = s.pas ∧ t.mem = s.mem) ∧
  (∀ (s : State),
    s.settled → s.tim.statusAt + secQ ≤ s.mono → s.canSign 0 = true →
      ∃ t : State, exec .timeStatusSend s = .next t ∧ t.tim.statusAt = s.mono ∧ t.tim.msgCount = s.tim.msgCount + s.statusPorts.length ∧
        t.pas = s.pas ∧ t.mem = s.mem ∧ t.now = s.now) ∧
  (∀ (s : State) (token sentAt tag node : Nat) (j : Job),
    s.settled → s.job token = some j → j.ended = none → j.finish = none → j.work = .relay sentAt tag node → sentAt + 100 * msQ ≤ s.mono →
      ∃ t : State, exec .relayTimeout s = .next t ∧ t.job token = some { j with finish := some (0x33, []), progress := 100 } ∧
        { t with jobs := s.jobs } = s) ∧
  (∀ (s : State) (i : Nat) (th : Int),
    s.settled → twoWay i = true → 160 < th.natAbs →
      ∃ t : State, exec (.timeElasticSlip i th) s = .next t ∧ t.tim.slips = s.tim.slips + 1 ∧
        t.partner i = { s.partner i with off := 0, wideAt := none, warned := false } ∧ t.tim.inputs = s.tim.inputs ∧
        (∀ id p, tget s.pas id = some p → tget t.pas id = some (if p.st = 2 ∧ p.fedBy i then
          { p.keep s.chamber with slipCh := some s.chamber } else p.keep s.chamber)) ∧
        t.engs = s.engs ∧ t.mem = s.mem)

/-- MEM_FILL of a range it may write starts a job and writes nothing itself. SCRUB_CONFIG ACTION 1 sets the scrubbers, 0 standing for each
default; ACTION 2 reads them; ACTION 3 starts a sweep. MEM_REPAIR of a line-coded memory starts the copy and answers at its switch; of a
byte-coded one it records the repair where the map write succeeds. PAGE_RETIRE takes the lowest free spare and answers at its switch.
ECC_STATUS answers with its layout and changes nothing. -/
def Obligations.MemoryCommandsComplete : Prop :=
  (∀ (s : State) (q : Request) (m : Nat),
    s.takes 0x0601 q → q.tenant = 0 → q.len = 32 → q.u 0 1 = 1 → q.rsv 1 1 = true → q.rsv 4 4 = true → q.u 2 2 = m →
    (m = 0x0201 ∨ m = 0x0204 ∨ (memEngine m).isSome = true) → q.u 16 8 ≠ 0 → q.u 8 8 % 256 = 0 → q.u 16 8 % 256 = 0 →
    q.u 8 8 + q.u 16 8 ≤ memSize m → s.dark m = none → s.fillBusy m (q.u 8 8) (q.u 8 8 + q.u 16 8) = false → s.jobsFull 0 = false →
      ∃ (u : State) (token : Nat), exec (.memFill q) s = .next (u.answer 0x0601 q (jobStarted token)) ∧
        u.jobs.list = s.jobs.list ++ [Job.mk s.jobs.next 0 0x0601 (.fill 1 m (q.u 8 8) (q.u 16 8) (q.u 24 8) 0) 0 none false none] ∧
        { u with jobs := s.jobs } = s.accepted) ∧
  (∀ (s : State) (q : Request) (act : Nat),
    s.takes 0x0601 q → q.tenant = 0 → q.len = 32 → q.u 0 1 = act → 2 ≤ act → act ≤ 3 → q.rsv 1 1 = true → q.rsv 4 4 = true →
    q.u 2 2 = 0x0C00 → q.u 16 8 ≠ 0 → q.u 8 8 % 64 = 0 → q.u 16 8 % 64 = 0 → q.u 24 8 % 64 = 0 → 0x40000000 ≤ q.u 8 8 →
    q.u 8 8 + q.u 16 8 ≤ 0x40000000 + 16 * s.captureSize → q.u 8 8 + q.u 16 8 ≤ s.mem.capacity → s.lpReady = true → s.dark 0x0C00 = none →
    s.pcieUp = true → s.captureHolds (q.u 8 8) (q.u 8 8 + q.u 16 8) = false → s.jobsFull 0 = false →
      ∃ (u : State) (token : Nat), exec (.memFill q) s = .next (u.answer 0x0601 q (jobStarted token)) ∧
        u.jobs.list = s.jobs.list ++ [Job.mk s.jobs.next 0 0x0601 (.fill act 0x0C00 (q.u 8 8) (q.u 16 8) (q.u 24 8) 0) 0 none false none]
          ∧
        { u with jobs := s.jobs } = s.accepted) ∧
  (∀ (s : State) (q : Request),
    s.takes 0x0602 q → q.tenant = 0 → q.len = 16 → q.u 0 1 = 1 → (q.u 1 1 ≤ 7 ∨ q.u 1 1 = 0x80) →
    (q.u 2 2 = 0 ∨ (15 ≤ q.u 2 2 ∧ q.u 2 2 ≤ 1440)) → (q.u 4 2 = 0 ∨ (64 ≤ q.u 4 2 ∧ q.u 4 2 ≤ 16384)) →
    (q.u 6 2 = 0 ∨ (10 ≤ q.u 6 2 ∧ q.u 6 2 ≤ 60000)) → q.u 10 2 = 0 → q.rsv 12 4 = true →
      ∃ u : State, exec (.scrubConfig q) s = .next (u.answer 0x0602 q u.mem.scrubReply) ∧
        u.mem.scrubFlags = (if q.u 1 1 = 0 then 7 else if q.u 1 1 = 0x80 then 0 else q.u 1 1) ∧
        u.mem.passMin = (if q.u 2 2 = 0 then 240 else q.u 2 2) ∧ u.mem.mibPerMin = (if q.u 4 2 = 0 then 1024 else q.u 4 2) ∧
        u.mem.leakMs = (if q.u 6 2 = 0 then 1000 else q.u 6 2) ∧ u.mem.level = (if q.u 8 2 = 0 then 64 else q.u 8 2) ∧
        u.mem.insts = s.mem.insts ∧ { u with mem := s.mem } = s.accepted) ∧
  (∀ (s : State) (q : Request),
    s.takes 0x0602 q → q.tenant = 0 → q.len = 16 → q.u 0 1 = 2 → q.rsv 1 9 = true → q.u 10 2 = 0 → q.rsv 12 4 = true →
      exec (.scrubConfig q) s = .next (s.accepted.answer 0x0602 q s.mem.scrubReply)) ∧
  (∀ (s : State) (q : Request) (m : Nat),
    s.takes 0x0602 q → q.tenant = 0 → q.len = 16 → q.u 0 1 = 3 → q.rsv 1 9 = true → q.u 10 2 = m → memListed m 0 = true →
    q.rsv 12 4 = true → s.dark m = none → (m = 0x0C00 → s.lpReady = true) →
    (s.runningJobs.all fun j => match j.work with | .sweep _ _ _ => false | _ => true) = true → s.jobsFull 0 = false →
      ∃ (u : State) (token : Nat), exec (.scrubConfig q) s = .next (u.answer 0x0602 q (jobStarted token)) ∧
        u.jobs.list = s.jobs.list ++ [Job.mk s.jobs.next 0 0x0602 (.sweep [(m, 0)] s.mono 1) 0 none false none] ∧
        { u with jobs := s.jobs } = s.accepted) ∧
  (∀ (s : State) (q : Request) (u off : Nat) (ok : Bool),
    s.takes 0x0603 q → q.tenant = 0 → q.len = 12 → q.u 0 2 = u → q.u 4 4 = off → q.rsv 2 2 = true → q.rsv 8 4 = true → u ∈ onchipUnits →
    lineCoded u = true → off < memSize u → s.dark u = none →
    (s.mem.repairing.all fun r => bankKey r.unit r.offset != bankKey u off) = true → s.sparesLeft u off ≠ 0 →
    s.store.repair.rows.length < 256 →
      ∃ t : State, exec (.memRepair q ok) s = .next t ∧ t.mem =
        { s.mem with repairing := s.mem.repairing ++ [RowRepair.mk (some q) u off s.chamber] } ∧
        t.store = s.store ∧ (t.com.received.any fun r => r.op == 0x0603 && r.req == q && r.started) = true) ∧
  (∀ (s : State) (q : Request) (u off : Nat),
    s.takes 0x0603 q → q.tenant = 0 → q.len = 12 → q.u 0 2 = u → q.u 4 4 = off → q.rsv 2 2 = true → q.rsv 8 4 = true → u ∈ onchipUnits →
    u ≠ 0x0C02 → lineCoded u = false → off < memSize u → s.dark u = none →
    (s.mem.repairing.all fun r => bankKey r.unit r.offset != bankKey u off) = true → s.sparesLeft u off ≠ 0 →
    s.store.repair.rows.length < 256 →
      ∃ t : State, exec (.memRepair q true) s = .next t ∧ t.store.repair.rows = s.store.repair.rows ++ [(u, off / 2048 * 2048, 2)] ∧
        t.log.life.deferRep = s.log.life.deferRep + 1 ∧ t.log.life.wrRepair = s.log.life.wrRepair + 1 ∧ t.mem.repairing = s.mem.repairing
          ∧
        (∀ k, (t.memInst k).data = (s.memInst k).data)) ∧
  (∀ (s : State) (q : Request) (spare : Nat),
    s.takes 0x0604 q → q.tenant = 0 → q.len = 12 → q.rsv 8 4 = true → q.u 0 8 % 4096 = 0 → q.u 0 8 < s.mem.capacity →
    (q.u 0 8 < 0x39000000 ∨ 0x39400000 ≤ q.u 0 8) → s.dark 0x0C00 = none → (s.mem.moving.all fun m => m.addr != q.u 0 8) = true →
    s.lpReady = true → s.freeSpare = some spare → s.store.repair.pages.length < 1024 →
      ∃ t : State, exec (.pageRetire q) s = .next t ∧ t.mem =
        { s.mem with moving := s.mem.moving ++ [PageMove.mk q (q.u 0 8) spare s.chamber] } ∧
        t.store = s.store ∧ (t.com.received.any fun r => r.op == 0x0604 && r.req == q && r.started) = true) ∧
  (∀ (s : State) (q : Request),
    s.takes 0x0605 q → s.tenantOn q → q.len = 4 → memListed (q.u 0 2) (q.u 2 2) = true → s.dark (q.u 0 2) = none →
      exec (.eccStatus q) s = .next (s.accepted.answer 0x0605 q (s.eccReply (q.u 0 2) (q.u 2 2))))

/-- A read of a code in an invalid block is counted as unwritten; of a code without error it changes nothing; of one with an error that is
corrected it counts and fills the bucket; of an uncorrectable one it counts. A bucket above zero loses one each LEAK_MS. At the boundary
after the copy a live repair reaches the map where the write succeeds, and is over where it does not, and a page is remapped to its spare
and reaches the map. A scrubber whose time has come and that finds nothing only moves on; where the LPDDR6 scrubber corrects a code it
counts; one that is off does nothing. No corrected or uncorrectable read, repair, retirement or LPDDR6 scrub changes the contents of a
memory. -/
def Obligations.MemoryRowsComplete : Prop :=
  (∀ (s : State) (u inst a reader : Nat) (flips : List Nat) (use : MemUse),
    s.settled → memListed u inst = true → s.dark u = none → u ≠ 0x0C02 →
    spanHas (s.memInst (dataKey u inst)).valid (a / memBlock u) = true → s.codeRead u inst a flips = .clean →
      exec (.memoryRead u inst a reader flips use) s = .next s) ∧
  (∀ (s : State) (u inst a reader : Nat) (flips : List Nat) (use : MemUse),
    s.settled → memListed u inst = true → s.dark u = none → u ≠ 0x0C02 →
    spanHas (s.memInst (dataKey u inst)).valid (a / memBlock u) = false →
      ∃ t : State, exec (.memoryRead u inst a reader flips use) s = .next t ∧
        t.memInst (memKey u inst) = { s.memInst (memKey u inst) with unwritten := (s.memInst (memKey u inst)).unwritten + 1 } ∧
        (∀ k, k ≠ memKey u inst → t.memInst k = s.memInst k) ∧ t.engs = s.engs ∧ t.pas = s.pas ∧ t.jobs = s.jobs ∧ t.guide = s.guide) ∧
  (∀ (s : State) (u inst a reader bt : Nat) (flips : List Nat) (use : MemUse),
    s.settled → memListed u inst = true → s.dark u = none → u ≠ 0x0C02 →
    spanHas (s.memInst (dataKey u inst)).valid (a / memBlock u) = true → s.codeRead u inst a flips = .corrected bt →
    (s.memInst (memKey u inst)).bucket + 1 < s.mem.level →
      ∃ t : State, exec (.memoryRead u inst a reader flips use) s = .next t ∧
        (t.memInst (memKey u inst)).corrected = (s.memInst (memKey u inst)).corrected + 1 ∧
        (t.memInst (memKey u inst)).bucket = (s.memInst (memKey u inst)).bucket + 1 ∧
        (∀ k, (t.memInst k).data = (s.memInst k).data) ∧ { t with mem := s.mem } = s) ∧
  (∀ (s : State) (u inst a reader : Nat) (flips : List Nat),
    s.settled → memListed u inst = true → s.dark u = none → u ≠ 0x0C02 → u ≠ 0x0100 → u ≠ 0x0101 →
    spanHas (s.memInst (dataKey u inst)).valid (a / memBlock u) = true → s.codeRead u inst a flips = .uncorrectable →
      ∃ t : State, exec (.memoryRead u inst a reader flips .plain) s = .next t ∧
        (t.memInst (memKey u inst)).uncorr = (s.memInst (memKey u inst)).uncorr + 1 ∧
        (∀ k, (t.memInst k).data = (s.memInst k).data) ∧ t.engs = s.engs ∧ t.pas = s.pas ∧ t.jobs = s.jobs ∧ t.guide = s.guide) ∧
  (∀ (s : State),
    s.settled →
      ∃ t : State, exec .eccBucketLeak s = .next t ∧ (∀ k m, tget s.mem.insts k = some m → tget t.mem.insts k = some
        (if m.bucket > 0 ∧ m.leakAt + s.mem.leakMs * msQ ≤ s.mono then { m with bucket := m.bucket - 1, leakAt := s.mono } else m)) ∧
        { t with mem := s.mem } = s) ∧
  (∀ (s : State) (r : RowRepair) (rest : List RowRepair),
    s.settled → s.mem.repairing = r :: rest → r ∉ rest → r.since ≠ s.chamber →
      ∃ t : State, exec (.memRepairSwitch [] true) s = .next t ∧ t.mem.repairing = rest ∧
        t.store.repair.rows = s.store.repair.rows ++ [(r.unit, r.offset / 2048 * 2048, 1)] ∧
        t.log.life.liveRep = s.log.life.liveRep + 1 ∧ (∀ k, (t.memInst k).data = (s.memInst k).data) ∧ t.engs = s.engs ∧ t.pas = s.pas) ∧
  (∀ (s : State) (r : RowRepair) (rest : List RowRepair),
    s.settled → s.mem.repairing = r :: rest → r ∉ rest → r.since ≠ s.chamber →
      ∃ t : State, exec (.memRepairSwitch [] false) s = .next t ∧ t.mem.repairing = rest ∧ { t.store with invalid := s.store.invalid } =
        s.store ∧
        (∀ k, (t.memInst k).data = (s.memInst k).data) ∧ t.engs = s.engs ∧ t.pas = s.pas) ∧
  (∀ (s : State) (r : PageMove) (rest : List PageMove),
    s.settled → s.mem.moving = r :: rest → r ∉ rest → r.since ≠ s.chamber →
      ∃ t : State, exec (.pageRetireSwitch [] true) s = .next t ∧ t.mem.moving = rest ∧ tget t.mem.remap r.addr = some r.spare ∧
        t.store.repair.pages = s.store.repair.pages ++ [(r.addr, r.spare)] ∧ t.log.life.pagesRet = s.log.life.pagesRet + 1 ∧
        (∀ k, (t.memInst k).data = (s.memInst k).data) ∧ t.engs = s.engs ∧ t.pas = s.pas) ∧
  (∀ (s : State) (u b : Nat) (ok : Bool),
    s.settled → s.mem.onchipEn = true → s.since s.mem.onchip.at_ s.onchipPace = true →
    ((s.litMems s.mem.onchip.key).findSome? fun u => (s.nextBlock u 1025 (if u = s.mem.onchip.key then s.mem.onchip.block else 0)).map fun b => (u, b)) = some (u, b) →
      exec (.scrubStep false [] ok) s = .next (s.modMem fun m =>
        { m with onchip := { m.onchip with key := u, block := b + 1, at_ := s.mono } })) ∧
  (∀ (s : State) (b a bt : Nat) (flips : List Nat),
    s.settled → s.mem.lpEn = true → s.lpReady = true → s.gateShut = false → s.since s.mem.lp.at_ s.lpPace = true →
    s.nextBlock 0x0C00 1025 s.mem.lp.block = some b → a / 4096 = b → s.codeRead 0x0C00 0 a flips = .corrected bt →
    (s.memInst (0x1800 + a / 4096 % 2)).bucket + 1 < s.mem.level →
      ∃ t : State, exec (.scrubStep true [Finding.mk a flips] true) s = .next t ∧ t.mem.lp.block = b + 1 ∧
        (t.memInst (0x1800 + a / 4096 % 2)).corrected = (s.memInst (0x1800 + a / 4096 % 2)).corrected + 1 ∧
        (∀ k, (t.memInst k).data = (s.memInst k).data) ∧ t.store = s.store ∧ t.engs = s.engs ∧ t.pas = s.pas) ∧
  (∀ (s : State) (found : List Finding) (lp ok : Bool),
    s.settled → (if lp then s.mem.lpEn else s.mem.onchipEn) = false →
      exec (.scrubStep lp found ok) s = .next s)

/-- EVENT_MASK ACTION 1 sets the log's flags and severity floors, ACTION 2 reads them, ACTION 3 returns and removes the oldest spilled
records. PM_BIN_READ of a closed bin answers with it; of the open bin, and COUNTER_SNAPSHOT, are answered at the next chamber boundary.
LIFE_READ answers with the live record or a valid slot. LEAP_TABLE_SET ACTION 1 writes the table to MTP and puts it in force, and where
the write fails leaves the old one; ACTION 2 reads it. -/
def Obligations.LogCommandsComplete : Prop :=
  (∀ (s : State) (q : Request),
    s.takes 0x0701 q → q.tenant = 0 → q.len = 16 → q.u 0 1 = 1 → q.u 1 1 ≤ 3 → q.u 2 1 = 0 → q.rsv 3 5 = true →
      ∃ u : State, exec (.eventMask q) s = .next (u.answer 0x0701 q u.maskReply) ∧
        u.log = { s.log with keepNewest := q.u 1 1 % 2 == 1, spillEn := q.u 1 1 / 2 % 2 == 1, floor := q.u 8 8 } ∧ { u with log := s.log }
          = s.accepted) ∧
  (∀ (s : State) (q : Request),
    s.takes 0x0701 q → q.tenant = 0 → q.len = 16 → q.u 0 1 = 2 → q.rsv 1 15 = true →
      exec (.eventMask q) s = .next (s.accepted.answer 0x0701 q s.maskReply)) ∧
  (∀ (s : State) (q : Request),
    s.takes 0x0701 q → q.tenant = 0 → q.len = 16 → q.u 0 1 = 3 → q.u 1 1 = 0 → 1 ≤ q.u 2 1 → q.u 2 1 ≤ 127 → q.rsv 3 13 = true →
    s.log.spillEn = true → s.lpReady = true →
      ∃ (u : State) (p : List Byte), exec (.eventMask q) s = .next (u.answer 0x0701 q p) ∧ u.log.spill = s.log.spill.drop (q.u 2 1) ∧
        u.log.ring = s.log.ring ∧ fld p 2 1 = (s.log.spill.take (q.u 2 1)).length ∧
        p.drop 16 = (s.log.spill.take (q.u 2 1)).flatMap EvRec.bytes ∧ { u with log := s.log } = s.accepted) ∧
  (∀ (s : State) (q : Request) (set : BinSet) (b : Bin),
    s.takes 0x0702 q → q.len = 8 → (q.u 4 1 = 1 ∨ q.u 4 1 = 2) → 1 ≤ q.u 5 1 → q.u 5 1 ≤ (if q.u 4 1 = 1 then 32 else 7) →
    q.rsv 6 2 = true → (s.group (q.u 0 2) (s.normInst (q.u 0 2) (q.u 2 2))).isSome = true → s.tenantOn q →
    s.mayRead q.tenant (q.u 0 2) (s.normInst (q.u 0 2) (q.u 2 2)) = true → s.lpReady = true →
    tget s.log.bins (q.u 0 2 * 65536 + s.normInst (q.u 0 2) (q.u 2 2)) = some set → (set.closed (q.u 4 1))[q.u 5 1 - 1]? = some b →
      exec (.pmBinRead q) s = .next (s.accepted.answer 0x0702 q (binReply b (q.u 4 1)))) ∧
  (∀ (s : State) (q : Request),
    s.takes 0x0702 q → q.len = 8 → (q.u 4 1 = 1 ∨ q.u 4 1 = 2) → q.u 5 1 = 0 → q.rsv 6 2 = true →
    (s.group (q.u 0 2) (s.normInst (q.u 0 2) (q.u 2 2))).isSome = true → s.dark (q.u 0 2) = none → s.tenantOn q →
    s.mayRead q.tenant (q.u 0 2) (s.normInst (q.u 0 2) (q.u 2 2)) = true → s.lpReady = true →
      ∃ t : State, exec (.pmBinRead q) s = .next t ∧ t.com.snapPending = s.com.snapPending ++
        [SnapPending.mk q (q.u 0 2) (s.normInst (q.u 0 2) (q.u 2 2)) 0 (some (q.u 4 1)) s.chamber] ∧ t.log = s.log) ∧
  (∀ (s : State) (q : Request),
    s.takes 0x0703 q → q.len = 8 → q.u 4 1 ≤ 15 → q.rsv 5 3 = true → (s.group (q.u 0 2) (s.normInst (q.u 0 2) (q.u 2 2))).isSome = true →
    s.dark (q.u 0 2) = none → s.tenantOn q → s.mayRead q.tenant (q.u 0 2) (s.normInst (q.u 0 2) (q.u 2 2)) = true →
      ∃ t : State, exec (.counterSnapshot q) s = .next t ∧ t.com.snapPending = s.com.snapPending ++
        [SnapPending.mk q (q.u 0 2) (s.normInst (q.u 0 2) (q.u 2 2)) (q.u 4 1) none s.chamber] ∧ t.com.snapshots = s.com.snapshots) ∧
  (∀ (s : State) (q : Request),
    s.takes 0x0704 q → s.tenantOn q → q.len = 4 → q.u 0 1 = 0xFF → q.rsv 1 3 = true →
      exec (.lifeRead q) s = .next (s.accepted.answer 0x0704 q ([0, 0, 1] ++ le 1 s.log.lifeNext ++ zeros 4 ++
        { s.log.life with seq := s.log.life.seq + 1 }.bytes))) ∧
  (∀ (s : State) (q : Request) (l : Life),
    s.takes 0x0704 q → s.tenantOn q → q.len = 4 → q.u 0 1 < 64 → q.rsv 1 3 = true → tget s.log.lifeSlots (q.u 0 1) = some l →
      exec (.lifeRead q) s = .next (s.accepted.answer 0x0704 q ([0, 0, 1] ++ le 1 (q.u 0 1) ++ zeros 4 ++ l.bytes))) ∧
  (∀ (s : State) (q : Request),
    s.takes 0x0704 q → s.tenantOn q → q.len = 4 → q.u 0 1 < 64 → q.rsv 1 3 = true → tget s.log.lifeSlots (q.u 0 1) = none →
      ∃ (u : State) (p : List Byte), exec (.lifeRead q) s = .next (u.answer 0x0704 q p) ∧ p.take 8 = [0, 0, 0] ++ le 1 (q.u 0 1) ++ zeros
        4 ∧
        p.length = 264 ∧ { u with freeCtr := s.freeCtr } = s.accepted) ∧
  (∀ (s : State) (q : Request),
    s.takes 0x0705 q → q.tenant = 0 → q.u 0 1 = 1 → q.u 1 1 ≤ 64 → q.len = 16 + 8 * q.u 1 1 → q.rsv 4 4 = true → q.rsv 14 2 = true →
    (calendarOf q).bad = false →
      ∃ u : State, exec (.leapTableSet q true) s = .next (u.answer 0x0705 q (calendarOf q).reply) ∧ u.log.calendar = calendarOf q ∧
        u.log.stale = false ∧ u.log.life.wrCal = s.log.life.wrCal + 1 ∧ u.now = s.now ∧ u.tim = s.tim ∧ u.engs = s.engs ∧ u.pas = s.pas) ∧
  (∀ (s : State) (q : Request),
    s.takes 0x0705 q → q.tenant = 0 → q.u 0 1 = 1 → q.u 1 1 ≤ 64 → q.len = 16 + 8 * q.u 1 1 → q.rsv 4 4 = true → q.rsv 14 2 = true →
    (calendarOf q).bad = false →
      ∃ (u : State) (p : List Byte), exec (.leapTableSet q false) s = .next (u.answer 0x0705 q p) ∧ fld p 0 1 = 0x50 ∧
        u.log.calendar = s.log.calendar ∧ { u.store with invalid := s.store.invalid } = s.store ∧ u.engs = s.engs ∧ u.pas = s.pas) ∧
  (∀ (s : State) (q : Request) (ok : Bool),
    s.takes 0x0705 q → q.tenant = 0 → q.len = 16 → q.u 0 1 = 2 → q.u 1 1 = 0 → q.rsv 2 14 = true →
      exec (.leapTableSet q ok) s = .next (s.accepted.answer 0x0705 q s.log.calendar.reply))

/-- An unmasked occurrence that repeats none and for which the ring has room is written at EVT_WR with its time, chamber, island, severity,
code and source; a masked one is counted only. Pending drops are reported once the ring has two free entries. A snapshot due at this
chamber freezes the group's values in its slot. At a 15-minute boundary every open bin closes at this chamber. Each second counts in every
open bin. After 10 minutes of power-on time the live life record goes to the next slot with the next SEQ. A table past its expiry is
reported once. -/
def Obligations.LogRowsComplete : Prop :=
  (∀ (s : State) (e : Ev) (isl src : Nat) (payload : List Byte),
    s.settled → e.hasChamber = true → bitsAt s.log.floor (2 * e.cls) 2 ≤ e.severity → payload.length ≤ 8 →
    s.log.ring.all (fun kr => !(s.log.coalesces kr.1 kr.2 e (recordsOf s.now isl e src (le 6 s.chamber ++ payload)))) = true →
    s.log.unread + 1 ≤ 65536 →
      ∃ t : State, exec (.eventRecordWrite e isl src payload) s = .next t ∧
        tget t.log.ring (s.log.evtWr % 65536) = some (EvRec.mk s.now isl e.severity false e.code src 0 (padTo 14 (le 6 s.chamber ++
          payload))) ∧
        t.log.evtWr = (s.log.evtWr + 1) % 2 ^ 32 ∧ t.log.written = s.log.written + 1 ∧
        (∀ k, k ≠ s.log.evtWr % 65536 → tget t.log.ring k = tget s.log.ring k) ∧ { t with log := s.log, com := s.com } = s) ∧
  (∀ (s : State) (e : Ev) (isl src : Nat) (payload : List Byte),
    s.settled → e ≠ .logOverflow → e.severity < bitsAt s.log.floor (2 * e.cls) 2 →
      exec (.eventRecordWrite e isl src payload) s = .next { s with log := { s.log with masked := s.log.masked + 1 } }) ∧
  (∀ (s : State),
    s.settled → 0 < s.log.dropCount → s.log.unread + 2 ≤ 65536 →
      ∃ t : State, exec .logOverflow s = .next t ∧ t.log.dropCount = 0 ∧ t.log.dropMask = 0 ∧ t.log.overflows = s.log.overflows + 1 ∧
        t.log.evtWr = (s.log.evtWr + 2) % 2 ^ 32 ∧ { t with log := s.log, com := s.com } = s) ∧
  (∀ (s : State) (p : SnapPending) (cells : List GCell),
    s.settled → s.com.snapPending = [p] → p.bin = none → p.chamber ≠ s.chamber → s.group p.unit p.inst = some cells →
      ∃ t : State, exec .snapshotFreeze s = .next t ∧ t.com.snapPending = [] ∧
        tget t.com.snapshots (16 * p.req.tenant + p.slot) = some (Snapshot.mk p.unit (p.req.u 2 2)
        (((tgetD s.com.snapshots (16 * p.req.tenant + p.slot) {}).seq + 2) % 2 ^ 32) s.chamber (cells.map fun c => c.val)) ∧
        (∀ k, k ≠ 16 * p.req.tenant + p.slot → tget t.com.snapshots k = tget s.com.snapshots k)) ∧
  (∀ (s : State),
    s.settled → (s.com.snapPending.all fun p => p.chamber == s.chamber) = true →
      exec .snapshotFreeze s = .next s) ∧
  (∀ (s : State),
    s.settled → s.lpReady = true → s.log.binsOn = false →
      ∃ t : State, exec .pmBinClose s = .next t ∧ t.log.binsOn = true ∧ t.log.binCh15 = s.chamber ∧ t.log.binCh24 = s.chamber ∧
        (∀ g ∈ s.groups, ∃ b : BinSet, tget t.log.bins (g.1 * 65536 + g.2) = some b ∧ b.open15.openCh = s.chamber ∧ b.closed15 = []) ∧
        { t with log := s.log } = s) ∧
  (∀ (s : State),
    s.settled → s.lpReady = true → s.log.binsOn = true → s.sec ≠ s.log.binsSecond →
    s.log.calendar.local (s.sec - 1) / 900 < s.log.calendar.local s.sec / 900 →
      ∃ t : State, exec .pmBinClose s = .next t ∧ t.log.binsSecond = s.sec ∧ t.log.binCh15 = s.chamber ∧
        (∀ k b, tget t.log.bins k = some b → ∃ c rest, b.closed15 = c :: rest ∧ c.closeCh = s.chamber ∧ b.open15.openCh = s.chamber) ∧
        { t with log := s.log, com := s.com } = s) ∧
  (∀ (s : State),
    s.settled → s.lpReady = true → s.log.binsOn = true → s.sec = s.log.binsSecond → s.sec ≠ s.log.gaugeSecond →
      ∃ t : State, exec .pmGaugeSample s = .next t ∧ t.log.gaugeSecond = s.sec ∧
        (∀ k b b0, tget t.log.bins k = some b → tget s.log.bins k = some b0 → s.dark (k / 65536) = none →
        b.open15.seconds = b0.open15.seconds + 1 ∧ b.open24.seconds = b0.open24.seconds + 1 ∧ b.closed15 = b0.closed15) ∧
        { t with log := s.log } = s) ∧
  (∀ (s : State),
    s.settled → s.log.lifeTenMin + 10 ≤ s.log.life.powerOnMin →
      ∃ t : State, exec (.lifeRecordWrite true) s = .next t ∧ tget t.log.lifeSlots s.log.lifeNext = some t.log.life ∧
        t.log.life.seq = s.log.life.seq + 1 ∧ t.log.life.wrLife = s.log.life.wrLife + 1 ∧ t.log.life.powerOnMin = s.log.life.powerOnMin ∧
        t.log.lifeNext = (s.log.lifeNext + 1) % 64 ∧ t.log.lifeTenMin = s.log.life.powerOnMin ∧ { t with log := s.log, store := s.store }
          = s ∧ { t.store with writing := s.store.writing } = s.store) ∧
  (∀ (s : State) (ok : Bool),
    s.settled → s.log.life.powerOnMin < s.log.lifeTenMin + 10 →
      exec (.lifeRecordWrite ok) s = .next s) ∧
  (∀ (s : State),
    s.settled → s.log.stale = false → s.log.calendar.isSet = true → s.log.calendar.expiry < s.sec →
      ∃ t : State, exec .leapTableStale s = .next t ∧ t.log.stale = true ∧ t.log.calendar = s.log.calendar ∧
        { t with log := s.log, com := s.com } = s)

/-- POWER_STATE_SET of an idle island to PARKED, OFF or DRIPLINE begins the entry with the pads on belay; of an island that is not ACTIVE to
ACTIVE begins the exit; of the state it holds answers OK and changes nothing; of the idle device to DORMANT begins the entry with the wake
sources named, stops calibration runs and changes nothing else. PERF_LEVEL_SET holds the floor and answers at once where the levels
already suit it. DRIPLINE_CONFIG ACTION 1 sets an engine's configuration with 0 for each default, ACTION 2 reads it. BELAY_RELEASE
releases the pads of an ACTIVE island. POWER_ACCOUNT_READ answers with its layouts. -/
def Obligations.PowerCommandsComplete : Prop :=
  (∀ (s : State) (q : Request) (i st : Nat),
    s.takes 0x0801 q → q.tenant = 0 → q.len = 20 → q.u 0 1 = i → q.u 1 1 = st → 3 ≤ i → i ≤ 14 → 1 ≤ st → st ≤ 3 →
    stateAllowed i st = true → q.rsv 2 2 = true → q.rsv 4 16 = true → s.absent (i * 256 + 0xFE) = none → s.moving i = false →
    (s.island i).st = .active → s.idleReason i = none →
      ∃ u : State, exec (.powerStateSet q) s = .next (u.answer 0x0801 q ([0, 0, 0, 0] ++ le 2 0xFFFF ++ zeros 2)) ∧
        (u.island i).moving = some (islStOf st, s.mono) ∧ (u.island i).belay = true ∧ (u.island i).st = .active ∧
        (∀ k, k ≠ i → u.island k = s.island k) ∧ u.pas = s.pas ∧ u.tab = s.tab ∧ u.mem = s.mem ∧ u.tim = s.tim) ∧
  (∀ (s : State) (q : Request) (i : Nat),
    s.takes 0x0801 q → q.tenant = 0 → q.len = 20 → q.u 0 1 = i → q.u 1 1 = 0 → 3 ≤ i → i ≤ 14 → i ≠ 13 → q.rsv 2 2 = true →
    q.rsv 4 16 = true → s.absent (i * 256 + 0xFE) = none → s.moving i = false → (s.island i).st ≠ .active →
      exec (.powerStateSet q) s = .next ((s.accepted.modIsland i fun x => { x with moving := some (.active, s.mono) }).answer 0x0801 q
        ([0, 0, 0, 0] ++ le 2 0xFFFF ++ zeros 2))) ∧
  (∀ (s : State) (q : Request) (i : Nat),
    s.takes 0x0801 q → q.tenant = 0 → q.len = 20 → q.u 0 1 = i → q.u 1 1 = (s.island i).st.code → 3 ≤ i → i ≤ 14 →
    stateAllowed i (s.island i).st.code = true → q.rsv 2 2 = true → q.rsv 4 16 = true → s.absent (i * 256 + 0xFE) = none →
    s.moving i = false →
      exec (.powerStateSet q) s = .next (s.accepted.answer 0x0801 q ([0, 0, 0, 0] ++ le 2 0xFFFF ++ zeros 2))) ∧
  (∀ (s : State) (q : Request),
    s.takes 0x0801 q → q.tenant = 0 → q.len = 20 → q.u 0 1 = 0xFF → q.u 1 1 = 4 → q.rsv 3 1 = true → q.rsv 16 4 = true →
    s.moving 0xFF = false → s.idleReason 0xFF = none →
      ∃ u : State, exec (.powerStateSet q) s = .next (u.answer 0x0801 q ([0, 0, 0, 0] ++ le 2 0xFFFF ++ zeros 2)) ∧ u.power.dormant =
        .entering ∧
        u.power.wakeMask = q.u 2 1 ∧ u.power.gpioMask = q.u 4 4 ∧ u.power.gpioLevel = q.u 8 4 ∧ u.power.timerMs = q.u 12 4 ∧
        u.power.wake = none ∧ u.power.latch = [] ∧ (∀ k, 1 ≤ k → k ≤ 14 → (u.island k).belay = true) ∧ (∀ n,
          { u.eng n with cal := (s.eng n).cal } = s.eng n) ∧
        { u with power := s.power, engs := s.engs } = s.accepted) ∧
  (∀ (s : State) (q : Request) (n : Nat),
    s.takes 0x0802 q → q.tenant = 0 → q.len = 4 → q.u 0 1 = n → n ≤ 7 → q.u 1 1 ≤ 3 → q.rsv 2 2 = true →
    s.absent (islEng n * 256 + 0xFE) = none →
      ∃ t : State, exec (.perfLevelSet q) s = .next t ∧ (t.eng n).pwr.floor = q.u 1 1 ∧ (t.eng n).pwr.level = (s.eng n).pwr.level ∧
        (t.power.perfWaits = if (s.eng n).pwr.level = max (s.requiredLevel n) (q.u 1 1) ∨ (s.island (islEng n)).st ≠ .active then
          s.power.perfWaits else s.power.perfWaits ++ [q])) ∧
  (∀ (s : State) (q : Request) (n : Nat),
    s.takes 0x0803 q → q.tenant = 0 → q.len = 16 → q.u 0 1 = n → n ≤ 7 → q.u 1 1 = 1 → (q.u 2 1 = 0x80 ∨ q.u 2 1 < 4) → q.u 3 1 ≤ 64 →
    q.u 4 2 ≤ 1000 → orDefault (q.u 6 2) 100 < orDefault (q.u 8 2) 120 → q.u 8 2 ≤ 1800 → q.u 8 2 ≠ 1 → q.rsv 10 6 = true →
    s.absent (islEng n * 256 + 0xFE) = none →
      ∃ u : State, exec (.driplineConfig q) s = .next (u.answer 0x0803 q (u.dripReply n)) ∧
        (u.eng n).pwr = { (s.eng n).pwr with
        autoWake := q.u 2 1 == 0 || (q.u 2 1 != 0x80 && q.u 2 1 % 2 == 1), useSlice := q.u 2 1 == 0 || (q.u 2 1 != 0x80 && q.u 2 1 / 2 ==
          1), sliceRms := orDefault (q.u 3 1) 4, periodMs := orDefault (q.u 4 2) 10, losSetMv := orDefault (q.u 6 2) 100, losClearMv :=
          orDefault (q.u 8 2) 120 } ∧
        (∀ k, k ≠ n → u.eng k = s.eng k) ∧ { u with engs := s.engs } = s.accepted) ∧
  (∀ (s : State) (q : Request) (n : Nat),
    s.takes 0x0803 q → q.tenant = 0 → q.len = 16 → q.u 0 1 = n → n ≤ 7 → q.u 1 1 = 2 → q.rsv 2 14 = true →
    s.absent (islEng n * 256 + 0xFE) = none →
      exec (.driplineConfig q) s = .next (s.accepted.answer 0x0803 q (s.dripReply n))) ∧
  (∀ (s : State) (q : Request) (i : Nat),
    s.takes 0x0804 q → q.tenant = 0 → q.len = 4 → q.u 0 1 = i → 3 ≤ i → i ≤ 14 → q.rsv 1 3 = true → s.absent (i * 256 + 0xFE) = none →
    (s.island i).st = .active → (s.island i).moving = none →
      ∃ u : State, exec (.belayRelease q) s = .next (u.answer 0x0804 q [0, 0, 0, 0]) ∧ u.island i = { s.island i with belay := false } ∧
        (∀ k, k ≠ i → u.island k = s.island k) ∧ u.engs = s.engs ∧ u.pas = s.pas ∧ u.mem = s.mem) ∧
  (∀ (s : State) (q : Request),
    s.takes 0x0805 q → s.tenantOn q → q.len = 4 → (q.u 0 1 = 1 ∨ q.u 0 1 = 2) → q.rsv 1 3 = true →
      exec (.powerAccountRead q) s = .next (s.accepted.answer 0x0805 q (if q.u 0 1 = 1 then s.accountReply else s.railsReply)))

/-- An island's entry into PARKED keeps its contents, into OFF loses its registers; its exit makes it ACTIVE; each entry is counted. A
regulator that does not confirm returns an entering island to ACTIVE and counts an abort. An enabled wake source latches a wake and starts
the exit of a DORMANT device; without a transition in progress a source does nothing. A Dripline cycle records the level and, at the first
finding, the light state; the second opposite finding wakes. A level change takes effect where the regulator confirms or the rail is not
steered, and leaves the engine's power as it was where a steered rail is not confirmed. The aging trim, recomputed at a level change and
after 24 h, never falls. PM_ALERT records the alerting rail's STATUS_WORD and clears it, and the telemetry poll takes in a rail's reading. -/
def Obligations.PowerRowsComplete : Prop :=
  (∀ (s : State) (i t0 : Nat) (lifeOk : Bool),
    s.settled → i ≤ 14 → (s.island i).moving = some (.parked, t0) → (∀ n, islandEngine i = some n → s.calRuns n = false) →
      ∃ t : State, exec (.powerTransitionDone i [] lifeOk) s = .next t ∧ t.island i =
        { s.island i with st := .parked, moving := none, inReset := false } ∧
        tgetD t.power.entries 0 0 = tgetD s.power.entries 0 0 + 1 ∧ (∀ k, k ≠ i → t.island k = s.island k) ∧ t.engs = s.engs ∧ t.mem =
          s.mem ∧
        t.pas = s.pas ∧ t.cnt = s.cnt) ∧
  (∀ (s : State) (n t0 : Nat) (lifeOk : Bool),
    s.settled → n ≤ 7 → (s.island (islEng n)).moving = some (.off, t0) → s.calRuns n = false →
      ∃ t : State, exec (.powerTransitionDone (islEng n) [] lifeOk) s = .next t ∧
        t.island (islEng n) = { s.island (islEng n) with st := .off, moving := none, inReset := true } ∧
        t.eng n = { ({} : Engine) with pwr := (s.eng n).pwr } ∧ (∀ k, k ≠ n → t.eng k = s.eng k) ∧
        tgetD t.power.entries 2 0 = tgetD s.power.entries 2 0 + 1 ∧ (∀ k, k ≠ islEng n → t.island k = s.island k)) ∧
  (∀ (s : State) (i t0 : Nat) (lifeOk : Bool),
    s.settled → i ≤ 14 → (s.island i).moving = some (.active, t0) → s.power.latch = [] →
      ∃ t : State, exec (.powerTransitionDone i [] lifeOk) s = .next t ∧
        t.island i = { s.island i with st := .active, moving := none, inReset := false, sigs := [], activeAt := s.mono } ∧
        (∀ k, k ≠ i → t.island k = s.island k) ∧ t.pas = s.pas ∧ t.tab = s.tab ∧ t.tim = s.tim) ∧
  (∀ (s : State) (i t0 code status : Nat),
    s.settled → i ≤ 14 → (s.island i).moving = some (.parked, t0) →
      ∃ t : State, exec (.powerEntryAborted i 1 code status) s = .next t ∧ t.island i =
        { s.island i with st := .active, moving := none, inReset := false } ∧
        tgetD t.power.aborted 0 0 = tgetD s.power.aborted 0 0 + 1 ∧ t.power.entries = s.power.entries ∧ t.engs = s.engs ∧ t.mem = s.mem ∧
          t.pas = s.pas) ∧
  (∀ (s : State) (src gpio arg : Nat) (lvl : Bool) (m : List Byte),
    s.settled → s.power.dormant = .yes → 1 ≤ src → src ≤ 4 → s.wakeEnabled src gpio lvl = true → s.power.wake = none →
      exec (.wakeSource src gpio lvl arg m) s = .next { s with power := { s.power with
        wake := some (src, (if src = 1 then gpio else 0xFF), s.now), dormant := .exiting, dormantAt := s.mono } }) ∧
  (∀ (s : State) (src gpio arg : Nat) (lvl : Bool) (m : List Byte),
    s.settled → s.power.dormant = .yes → 5 ≤ src → src ≤ 8 → s.power.latch.length < 64 →
    (src = 5 → (s.power.latch.filter fun y => y.source == 5).length < 16) → s.wakeEnabled src gpio lvl = false →
      exec (.wakeSource src gpio lvl arg m) s = .next { s with power := { s.power with
        latch := s.power.latch ++ [{ source := src, time := s.now, arg := arg, message := m }] } }) ∧
  (∀ (s : State) (src gpio arg : Nat) (lvl : Bool) (m : List Byte),
    s.settled → s.power.dormant = .no → (∀ i ∈ List.range 15, (s.island i).moving = none) →
      exec (.wakeSource src gpio lvl arg m) s = .next s) ∧
  (∀ (s : State) (n mv : Nat) (los : List Nat) (samples : List Int),
    s.settled → mv = los.sum / max 1 los.length → (s.island (islEng n)).st = .dripline → (s.island (islEng n)).moving = none →
    (s.eng n).pwr.useSlice = false → (s.eng n).pwr.light = 0 → (s.eng n).pwr.cycleAt + (s.eng n).pwr.periodMs * msQ ≤ s.mono →
    (s.eng n).pwr.losSetMv ≤ mv → (s.eng n).pwr.losClearMv ≤ mv →
      ∃ t : State, exec (.driplineCycle n los samples) s = .next t ∧ (t.eng n).pwr =
        { (s.eng n).pwr with losdetMv := mv, cycleAt := s.mono, light := 2, opposite := 0 } ∧
        (∀ k, k ≠ n → t.eng k = s.eng k) ∧ { t with engs := s.engs } = s) ∧
  (∀ (s : State) (n mv : Nat) (los : List Nat) (samples : List Int),
    s.settled → mv = los.sum / max 1 los.length → (s.island (islEng n)).st = .dripline → (s.island (islEng n)).moving = none →
    (s.eng n).pwr.useSlice = false → (s.eng n).pwr.light = 1 → (s.eng n).pwr.opposite = 1 → (s.eng n).pwr.autoWake = true →
    (s.eng n).pwr.cycleAt + (s.eng n).pwr.periodMs * msQ ≤ s.mono → (s.eng n).pwr.losSetMv ≤ mv → (s.eng n).pwr.losClearMv ≤ mv →
      ∃ t : State, exec (.driplineCycle n los samples) s = .next t ∧ (t.eng n).pwr.light = 2 ∧ (t.eng n).pwr.opposite = 0 ∧
        t.island (islEng n) = { s.island (islEng n) with moving := some (.active, s.mono) } ∧ (∀ k, k ≠ n → t.eng k = s.eng k) ∧ t.pas =
          s.pas) ∧
  (∀ (s : State) (n status : Nat) (ok : Bool) (drift : Int),
    s.settled → n ≤ 7 → (s.island (islEng n)).st = .active → (s.eng n).pwr.level ≠ s.targetLevel n → (ok = true ∨ s.steered n = false) →
      ∃ t : State, exec (.perfLevelChange n ok status drift) s = .next t ∧ (t.eng n).pwr.level = s.targetLevel n ∧
        (t.eng n).pwr.agingMv = max (s.eng n).pwr.agingMv (min 20 (5 * (drift / 50).toNat)) ∧ (t.eng n).pwr.trimAt = s.mono) ∧
  (∀ (s : State) (n status : Nat) (drift : Int),
    s.settled → n ≤ 7 → s.steered n = true →
      ∃ t : State, exec (.perfLevelChange n false status drift) s = .next t ∧ (t.eng n).pwr = (s.eng n).pwr) ∧
  (∀ (s : State) (n : Nat) (drift : Int),
    s.settled → n ≤ 7 → (s.eng n).pwr.trimAt + 86400 * secQ ≤ s.mono →
      ∃ t : State, exec (.vTrimRecompute n drift) s = .next t ∧ (t.eng n).pwr = { (s.eng n).pwr with
        agingMv := max (s.eng n).pwr.agingMv (min 20 (5 * (drift / 50).toNat)), trimAt := s.mono } ∧
        (∀ k, k ≠ n → t.eng k = s.eng k) ∧ t.pas = s.pas ∧ t.power = s.power) ∧
  (∀ (s : State) (code status : Nat) (r : Rail),
    s.settled → tget s.power.rails code = some r →
      ∃ t : State, exec (.pmAlert code status) s = .next t ∧ tget t.power.rails code = some { r with status := 0 } ∧
        t.log = (s.raise islLamp .powerRailFault 0xFFFF (le 1 code ++ le 2 status)).log ∧
        (∀ k, k ≠ code → tget t.power.rails k = tget s.power.rails k) ∧ t.engs = s.engs ∧ t.pas = s.pas) ∧
  (∀ (s : State) (code v i st : Nat) (temp : Int) (r : Rail),
    s.settled → s.power.lastPoll + secQ ≤ s.mono → tget s.power.rails code = some r →
      ∃ t : State, exec (.pmbusTelemetryPoll [(code, v, i, temp, st)]) s = .next t ∧
        tget t.power.rails code = some { r with vout := v, iout := i, temp := temp, status := st % 256 } ∧ t.power.lastPoll = s.mono ∧
        (∀ k, k ≠ code → tget t.power.rails k = tget s.power.rails k) ∧ { t with power := s.power } = s)

/-- RESET of device scope answers OK and leaves the reset due; of an idle engine island it clears the engine's registers but its power
settings. FUSE_STATUS answers with its layout. FW_UPDATE ACTION 2 stages a chunk at the offset reached; ACTION 1 and, with a staged item,
ACTION 3 start a job; ACTION 4 MODE 1 starts the live activation. -/
def Obligations.ResetAndFirmwareCommandsComplete : Prop :=
  (∀ (s : State) (q : Request),
    s.takes 0x0901 q → q.tenant = 0 → q.len = 8 → q.u 0 1 = 0 → q.rsv 1 7 = true →
      exec (.reset q) s = .next ({ s.accepted with boot := { s.boot with resetDue := some s.mono } }.answer 0x0901 q [0, 0, 0, 0])) ∧
  (∀ (s : State) (q : Request) (n : Nat),
    s.takes 0x0901 q → q.tenant = 0 → q.len = 8 → n ≤ 7 → q.u 0 1 = 1 → q.u 2 2 = islEng n * 256 + 0xFE → q.rsv 1 1 = true →
    q.rsv 4 4 = true → s.dark (islEng n * 256 + 0xFE) = none → s.idleReason (islEng n) = none →
      ∃ u : State, exec (.reset q) s = .next (u.answer 0x0901 q [0, 0, 0, 0]) ∧ (u.eng n).pwr = (s.eng n).pwr ∧ (u.eng n).cfg = {} ∧
        (u.eng n).tx = {} ∧ (u.eng n).rx = {} ∧ (u.eng n).mp = {} ∧ (∀ k, k ≠ n → u.eng k = s.eng k) ∧ u.boot.cause = 7 ∧ u.boot.scope = 1
          ∧
        u.pas = s.pas ∧ u.power = s.power ∧ u.tim = s.tim) ∧
  (∀ (s : State) (q : Request),
    s.takes 0x0903 q → s.tenantOn q → q.len = 0 →
      exec (.fuseStatus q) s = .next (s.accepted.answer 0x0903 q
        (le 1 0 ++ le 1 (bit s.variant.fuseValid) ++ le 1 s.boot.loads ++ le 1 s.boot.failCause ++ le 4 s.boot.firstBad ++ le 2
          s.boot.spareRows ++
        le 2 (s.store.repair.rows.length + s.store.repair.pages.length + s.store.repair.convs.length) ++ le 1 (bit s.boot.rootKey) ++
        le 1 s.variant.dieStep ++ zeros 2 ++ le 8 (if s.variant.fuseValid then s.boot.serial.toNat else 0)))) ∧
  (∀ (s : State) (q : Request) (target : Nat),
    s.takes 0x0902 q → q.tenant = 0 → q.u 0 1 = 2 → q.u 1 1 = target → (target = 1 ∨ target = 2) → q.u 2 1 = 0 → q.u 3 1 = 0 →
    q.u 4 4 = (s.stageBytes target).length → 1 ≤ q.u 16 4 → q.u 16 4 ≤ 4056 → q.len = 24 + q.u 16 4 → q.rsv 8 8 = true →
    q.rsv 20 4 = true → (target = 1 → s.lpReady = true) →
      ∃ u : State, exec (.fwUpdate q) s = .next (u.answer 0x0902 q ([0, 0, 0, 0] ++ le 4 ((s.stageBytes target).length + q.u 16 4))) ∧
        u.boot.stageBuf = some (target, s.stageBytes target ++ q.payload.drop 24) ∧ u.store = s.store ∧ { u with boot := s.boot } =
          s.accepted) ∧
  (∀ (s : State) (q : Request) (target : Nat),
    s.takes 0x0902 q → q.tenant = 0 → q.len = 24 → q.u 0 1 = 1 → q.u 1 1 = target → (target = 1 ∨ target = 2) → q.rsv 2 6 = true →
    q.u 8 8 % 64 = 0 → q.u 16 4 ≠ 0 → q.rsv 20 4 = true → s.fwBusy = false → (target = 1 → s.lpReady = true) → s.jobsFull 0 = false →
      ∃ (u : State) (token : Nat), exec (.fwUpdate q) s = .next (u.answer 0x0902 q (jobStarted token)) ∧
        u.jobs.list = s.jobs.list ++ [Job.mk s.jobs.next 0 0x0902 (.fwStage target (q.u 8 8) (q.u 16 4) 0) 0 none false none] ∧
        u.boot.stageBuf = some (target, []) ∧ u.store = s.store) ∧
  (∀ (s : State) (q : Request) (target : Nat),
    s.takes 0x0902 q → q.tenant = 0 → q.len = 24 → q.u 0 1 = 3 → q.u 1 1 = target → (target = 1 ∨ target = 2) → q.rsv 2 22 = true →
    s.fwBusy = false → s.store.flash = true → (s.staged target).isSome = true → s.jobsFull 0 = false →
      ∃ (u : State) (token : Nat), exec (.fwUpdate q) s = .next (u.answer 0x0902 q (jobStarted token)) ∧
        u.jobs.list = s.jobs.list ++ [Job.mk s.jobs.next 0 0x0902 (.fwWrite target 0) 0 none false none] ∧ { u with jobs := s.jobs } =
          s.accepted) ∧
  (∀ (s : State) (q : Request),
    s.takes 0x0902 q → q.tenant = 0 → q.len = 24 → q.u 0 1 = 4 → q.u 1 1 = 1 → q.u 2 1 = 1 → q.rsv 3 21 = true → s.fwBusy = false →
    s.liveOk = true → s.jobsFull 0 = false →
      ∃ (u : State) (token : Nat), exec (.fwUpdate q) s = .next (u.answer 0x0902 q (jobStarted token)) ∧
        u.jobs.list = s.jobs.list ++ [Job.mk s.jobs.next 0 0x0902 (.fwActivate 1) 0 none false none] ∧ { u with jobs := s.jobs } =
          s.accepted)

/-- What every device reset leaves: nothing runs, every register and memory but those of Table 16.3 as after reset, MTP and flash kept.
`s` is the state in which the reset takes effect: an MTP pulse that was under way has ended, and a write with pulses to come is cut short
(`State.mtpCut`). -/
abbrev underReset (s t : State) (cause : Nat) : Prop :=
  t.boot.asserted = true ∧ t.boot.cause = cause ∧ t.boot.stage = 0 ∧ t.guide.active = none ∧ t.engs = [] ∧ t.pas = [] ∧ t.tab = {} ∧
  t.cip = {} ∧ t.host = {} ∧ t.ul = {} ∧ t.hk = {} ∧ t.jobs = {} ∧ t.cnt = [] ∧ t.com.pages = [] ∧ t.com.received = [] ∧
  t.com.policies = [] ∧ t.log.ring = [] ∧ t.log.bins = [] ∧ t.power.islands = [] ∧ t.node = 0 ∧ t.epoch = 0 ∧ t.generation = 0 ∧
  t.mem.ready = false ∧ t.store = s.store ∧ t.log.calendar = s.log.calendar ∧ t.mono = s.mono ∧ t.pending = s.pending
/-- The items that a reset other than a full one keeps (Table 16.3). -/
abbrev keptItems (s t : State) : Prop :=
  t.com.scratch1 = s.com.scratch1 ∧ t.com.scratch0 = 0 ∧ t.boot.bootSrc = s.boot.bootSrc ∧ t.boot.clkMode = s.boot.clkMode ∧
  t.power.entries = s.power.entries ∧ t.power.refusals = s.power.refusals ∧ t.tim.lastSeq = s.tim.lastSeq ∧ t.tim.inputs = [] ∧
  t.tap = s.tap

/-- PORST_N asserts a full reset at any time. SYSRST_N, a supply monitor, a die sensor at 115 °C, the watchdog, a double lockstep fault and a
RESET that is due assert a device reset where none is asserted, with their cause and with the kept items of Table 16.3; where one is
asserted SYSRST_N changes nothing. A reset leaves MTP as the cut of a write under way leaves it, and with no write under way as it was.
One second with every die sensor at or below 105 °C ends the hold of a thermal trip. The release, where no thermal trip holds it, sets
domain time to zero, and after a full reset only samples the straps and counts a power-up. -/
def Obligations.ResetRowsComplete : Prop :=
  (∀ (s : State),
    ∃ t : State, exec .porstNAssert s = .next t ∧ underReset (if s.boot.asserted then s else s.mtpCut false) t 1 ∧ t.boot.full = true ∧
        t.com = {} ∧ t.tim = {} ∧ t.mem = {} ∧ t.power = {}) ∧
  (∀ (s : State),
    s.boot.asserted = false →
      ∃ t : State, exec .sysrstNAssert s = .next t ∧ underReset (s.mtpCut false) t 2 ∧ keptItems s t ∧ t.log.life = s.log.life ∧
        t.boot.full = false) ∧
  (∀ (s : State),
    s.settled → s.boot.asserted = true →
      exec .sysrstNAssert s = .next s) ∧
  (∀ (s : State) (code mv lo hi : Nat),
    s.boot.asserted = false → monitorRange code = some (lo, hi) → s.monitored code = true → (mv < lo ∨ hi < mv) →
      ∃ t : State, exec (.supplyMonitorTrip code mv) s = .next t ∧ underReset (s.mtpCut (code == 0x1A)) t 3 ∧ keptItems s t ∧
        t.boot.railCode = code) ∧
  (∀ (s : State) (temp : Int),
    s.boot.asserted = false → 1150 ≤ temp →
      ∃ t : State, exec (.thermalTrip temp) s = .next t ∧ underReset (s.mtpCut false) t 4 ∧ keptItems s t ∧ t.boot.thermal = true) ∧
  (∀ (s : State) (hottest : Int) (ms : Nat),
    s.settled → hottest ≤ 1050 → 1000 ≤ ms →
      exec (.thermalTripRelease hottest ms) s = .next { s with boot := { s.boot with thermal := false } }) ∧
  (∀ (s : State) (ms : Nat),
    s.boot.asserted = false → 0 < s.boot.wdtS → s.boot.wdtS * 1000 ≤ ms →
      ∃ t : State, exec (.watchdogExpiry ms) s = .next t ∧ underReset (s.mtpCut false) t 5 ∧ keptItems s t) ∧
  (∀ (s : State),
    s.boot.asserted = false → s.guide.active.isSome = true → s.trapResets = true →
      ∃ t : State, exec .doubleLockstepFault s = .next t ∧ underReset (s.mtpCut false) t 6 ∧ keptItems s t) ∧
  (∀ (s : State),
    s.boot.asserted = false → s.boot.resetDue.isSome = true →
      ∃ t : State, exec (.resetCommandAssert true) s = .next t ∧ underReset s.mtpEnded t 7 ∧ keptItems s t ∧
        tget t.log.lifeSlots s.log.lifeNext = some t.log.life ∧ t.log.life.seq = s.log.life.seq + 1) ∧
  (∀ (s : State) (noSupply : Bool),
    s.store.writing = [] →
      s.mtpCut noSupply = s) ∧
  (∀ (s : State) (src clk : Nat),
    s.settled → s.boot.asserted = true → s.boot.thermal = false →
      ∃ t : State, exec (.resetRelease src clk) s = .next t ∧ t.now = 0 ∧ t.boot.asserted = false ∧ t.boot.stage = 1 ∧
        t.boot.bootSrc = (if s.boot.full then src % 4 else s.boot.bootSrc) ∧ t.boot.clkMode = (if s.boot.full then clk % 4 else
          s.boot.clkMode) ∧
        t.store.powerUps = s.store.powerUps + (if s.boot.full then 1 else 0) ∧ (t.island 0).inReset = false ∧
        (∀ k, k ≠ 0 → t.island k = s.island k) ∧ t.com = s.com ∧ t.engs = s.engs)

/-- A fuse load that passes gives VARIANT and releases CTRL, FAB and MEM; the first two that fail are counted with their cause and change no
other part; the third that fails puts the device into safe mode and the recovery service. A board configuration that passes is applied,
one that fails leads to the recovery service. Training makes LPDDR6 ready with the retired pages remapped. The preferred image that
authenticates runs, else the other slot, else the recovery service. The boot completes with every island released but those whose rail did
not confirm, which are OFF, with pair G0 active and commands served. A trap of the active pair with a ready standby hands over to the
standby, without one it resets the device; a takeover ends; a trapped standby becomes ready again or fails. A test instruction takes
effect, and those that take the pins are remembered. -/
def Obligations.BootAndGuideRowsComplete : Prop :=
  (∀ (s : State) (f : FuseRead),
    s.settled → s.boot.asserted = false → (s.boot.stage = 1 ∨ s.boot.stage = 2) → s.boot.bootSrc ≠ 3 → fuseFail f = none →
      ∃ t : State, exec (.fuseLoad f) s = .next t ∧ t.boot.stage = 4 ∧ t.boot.loads = s.boot.loads + 1 ∧ t.variant.fuseValid = true ∧
        t.variant = variantOf f false ∧
        t.boot.serial = BitVec.ofNat 64 f.serial ∧ t.boot.rootKey = true ∧ t.boot.early = [] ∧
        (∀ k, k = 1 ∨ k = 2 ∨ k = 12 → (t.island k).inReset = false) ∧ (∀ k, k ≠ 1 → k ≠ 2 → k ≠ 12 → t.island k = s.island k)) ∧
  (∀ (s : State) (f : FuseRead),
    s.settled → s.boot.asserted = false → s.boot.stage = 2 → s.boot.loads = 2 → (fuseFail f).isSome = true →
      ∃ t : State, exec (.fuseLoad f) s = .next t ∧ t.variant.safeMode = true ∧ t.variant.fuseValid = false ∧ t.boot.loadFail = true ∧
        t.boot.loads = 3 ∧ t.boot.stage = 0xE ∧ t.boot.recovery = true ∧ t.guide.active = some 0) ∧
  (∀ (s : State) (f : FuseRead) (c : Nat),
    s.settled → s.boot.asserted = false → (s.boot.stage = 1 ∨ s.boot.stage = 2) → s.boot.loads ≤ 1 → fuseFail f = some c →
      ∃ t : State, exec (.fuseLoad f) s = .next t ∧ t.boot.stage = 2 ∧ t.boot.loads = s.boot.loads + 1 ∧ t.boot.failCause = c ∧
        t.variant = s.variant ∧ t.power = s.power ∧ t.mem = s.mem) ∧
  (∀ (s : State),
    s.settled → s.boot.asserted = false → s.boot.stage = 4 → s.boot.bootSrc = 0 →
      ∃ t : State, exec .boardConfigRead s = .next t ∧
        (checkBoard s.store.board = none → t.boot.boardOk = true ∧ t.boot.stage = 6 ∧ t.boot.boardTag = fld s.store.board 4 4 ∧
        t.mem.capacity = fld s.store.board 13 1 * 1024 * 8 / 9 / 64 * 64 * 1048576 ∧ t.boot.wdtS = fld s.store.board 15 1) ∧
        (checkBoard s.store.board ≠ none → t.boot.boardOk = s.boot.boardOk ∧ t.boot.stage = 0xE ∧ t.boot.recovery = true)) ∧
  (∀ (s : State),
    s.settled → s.boot.asserted = false → s.boot.boardOk = true → s.mem.ready = false → s.boot.stage = 6 →
      ∃ t : State, exec .lpddr6TrainingDone s = .next t ∧ t.mem.ready = true ∧ t.boot.stage = 7 ∧ (t.memInst 0x1800).valid = [] ∧
        t.log.spill = [] ∧ t.log.binsOn = false ∧ t.mem.remap = s.store.repair.pages.foldl (fun m p => tput m p.1 p.2) [] ∧ t.engs =
          s.engs ∧ t.pas = s.pas) ∧
  (∀ (s : State) (a b : List Byte),
    s.settled → s.boot.asserted = false → s.boot.stage = 7 → a = tgetD s.store.slots s.store.preferred [] →
    b = tgetD s.store.slots (1 - s.store.preferred) [] →
      ∃ t : State, exec .imageAuthenticate s = .next t ∧
        (checkImage a = none → t.boot.stage = 9 ∧ t.boot.slot = s.store.preferred ∧ t.boot.running = runningOf a) ∧
        (checkImage a ≠ none → checkImage b = none → t.boot.stage = 9 ∧ t.boot.slot = 1 - s.store.preferred ∧ t.boot.running = runningOf
          b) ∧
        (checkImage a ≠ none → checkImage b ≠ none → t.boot.stage = 0xE ∧ t.boot.recovery = true ∧ t.guide.active = some 0) ∧ t.store =
          s.store) ∧
  (∀ (s : State),
    s.settled → s.boot.asserted = false → (s.boot.stage = 9 ∨ s.boot.stage = 0xA) →
      ∃ t : State, exec .bootComplete s = .next t ∧ t.boot.stage = 0xF ∧ t.boot.recovery = false ∧ t.guide.active = some 0 ∧
        t.guide.standby = s.guide.failed.isEmpty ∧ (∀ k, k ≤ 14 → s.unpowered k = false → (t.island k).inReset = false) ∧
        (∀ k, k ≤ 14 → s.unpowered k = true → (t.island k).st = .off ∧ (t.island k).inReset = true) ∧ t.boot.asserted = false) ∧
  (∀ (s : State) (p cause : Nat),
    s.settled → s.guide.active = some p → s.trapResets = false →
      ∃ t : State, exec (.guideActiveTrap cause) s = .next t ∧ t.guide.active = some (1 - p) ∧ t.guide.standby = false ∧
        t.guide.trapped = some (p, s.mono) ∧ t.guide.taking = some (1 - p, s.mono) ∧ t.engs = s.engs ∧ t.pas = s.pas ∧ t.tab = s.tab ∧
        t.jobs = s.jobs ∧ t.com.received = s.com.received ∧ t.mem = s.mem) ∧
  (∀ (s : State) (cause : Nat),
    s.guide.active.isSome = true → s.trapResets = true → s.boot.asserted = false →
      ∃ t : State, exec (.guideActiveTrap cause) s = .next t ∧ underReset (s.mtpCut false) t 6) ∧
  (∀ (s : State) (p t0 : Nat),
    s.settled → s.guide.taking = some (p, t0) → (s.com.received.all fun r => r.started && r.bad.isNone) = true →
      ∃ t : State, exec .guideTakeover s = .next t ∧ t.guide.taking = none ∧ t.guide.takeover = some s.mono ∧ t.guide.active =
        s.guide.active ∧
        t.com.received = s.com.received ∧ t.engs = s.engs ∧ t.pas = s.pas ∧ t.jobs = s.jobs ∧ t.mem = s.mem) ∧
  (∀ (s : State) (p cause : Nat),
    s.settled → s.guide.active = some p → s.guide.standby = true →
      ∃ t : State, exec (.guideStandbyTrap cause) s = .next t ∧ t.guide.active = some p ∧ t.guide.standby = false ∧
        t.guide.trapped = some (1 - p, s.mono) ∧ t.engs = s.engs ∧ t.pas = s.pas ∧ t.jobs = s.jobs ∧ t.mem = s.mem) ∧
  (∀ (s : State) (p t0 : Nat),
    s.settled → s.guide.trapped = some (p, t0) →
      ∃ t : State, exec (.guideStandbyReady none) s = .next t ∧ t.guide = { s.guide with trapped := none, standby := true } ∧
        t.engs = s.engs ∧ t.pas = s.pas ∧ t.jobs = s.jobs) ∧
  (∀ (s : State) (p t0 st : Nat),
    s.settled → s.guide.trapped = some (p, t0) →
      ∃ t : State, exec (.guideStandbyReady (some st)) s = .next t ∧ t.guide =
        { s.guide with trapped := none, failed := s.guide.failed ++ [p] } ∧
        t.engs = s.engs ∧ t.pas = s.pas ∧ t.jobs = s.jobs) ∧
  (∀ (s : State) (code : Nat),
    s.settled → code < 256 →
      exec (.tapInstructionUpdate code) s = .next { s with
        tap := { ir := code, taken := s.tap.taken || (tapInstr code).takes }, guide :=
          { s.guide with broken := s.guide.broken || !(tapInstr code).harmless } })

/-- HOST_PORT_CONFIG ACTION 1 configures a port that is down, starts its lanes from the board table and touches no other port; ACTION 2
removes a port that nothing uses. HOST_TABLE_LOAD keeps the bytes of a table until its last part, which puts the whole table in force with
its tag and touches neither the other table nor a port. FLEXE_CALENDAR_SET ACTION 1 defines a group whose calendar is under way, ACTION 2
gives a group another calendar, each with a commit for the calendar bank; ACTION 3 begins the removal of the group, which the swap of its
commit completes. -/
def Obligations.PortCommandsComplete : Prop :=
  (∀ (s : State) (q : Request) (lane : Nat),
    s.takes 0x0B01 q → q.tenant = 0 → q.len = 20 → q.u 0 1 = lane → lane ≤ 127 → q.u 1 1 = 1 → phyOk (q.u 2 1) (q.u 3 1) = true →
    1 ≤ q.u 4 1 → q.u 4 1 ≤ 2 → q.u 5 1 ≤ 7 → q.u 6 1 < 2 ^ phyLanes (q.u 2 1) (q.u 3 1) → q.u 7 1 < 2 ^ phyLanes (q.u 2 1) (q.u 3 1) →
    1 ≤ q.u 8 4 → q.u 8 4 ≤ 2 ^ 24 → q.u 12 4 < q.u 8 4 → 8192 ≤ q.u 16 4 → q.u 16 4 ≤ 2 ^ 24 →
    (∀ k, k < phyLanes (q.u 2 1) (q.u 3 1) → s.dark (0x0B00 + lane + k) = none) → (s.island islHost).belay = false →
    s.portBad lane (q.u 2 1) (q.u 3 1) = false → (s.port lane = none ∨ s.portUsed lane = false) →
      ∃ u : State, exec (.hostPortConfig q) s = .next (u.answer 0x0B01 q [0, 0, 0, 0]) ∧
        u.port lane = some
          { phy := q.u 2 1, rate := q.u 3 1, plain := q.u 4 1 == 1, flags := q.u 5 1, txInvert := q.u 6 1, rxInvert := q.u 7 1, degSet := q.u 8 4, degClear := q.u 12 4, degWin := q.u 16 4, ref := s.mono }
          ∧
        (∀ k, k < phyLanes (q.u 2 1) (q.u 3 1) → tget u.host.lanes (lane + k) = some
          { tx := s.laneEq (lane + k) (q.u 3 1), ctle := (s.laneEq (lane + k) (q.u 3 1)).ctleStart, gain := (s.laneEq (lane + k) (q.u 3 1)).gainStart })
          ∧
        (∀ k, k ≠ lane → u.port k = s.port k) ∧ u.host.table = s.host.table ∧ u.host.groups = s.host.groups ∧ u.engs = s.engs ∧ u.pas =
          s.pas ∧
        u.mem = s.mem ∧ u.tab = s.tab) ∧
  (∀ (s : State) (q : Request) (lane : Nat) (x : HostPort),
    s.takes 0x0B01 q → q.tenant = 0 → q.len = 20 → q.u 0 1 = lane → lane ≤ 127 → q.u 1 1 = 2 → q.rsv 2 3 = true → s.port lane = some x →
    q.u 5 1 ≤ 7 → q.u 6 1 < 2 ^ x.count → q.u 7 1 < 2 ^ x.count →
    (∀ k, k < x.count → lane + k < 128 → s.dark (0x0B00 + lane + k) = none) → s.portUsed lane = false →
      ∃ u : State, exec (.hostPortConfig q) s = .next (u.answer 0x0B01 q [0, 0, 0, 0]) ∧ u.port lane = none ∧
        (∀ k, lane ≤ k → k < lane + x.count → tget u.host.lanes k = none) ∧ (∀ k, k ≠ lane → u.port k = s.port k) ∧ u.host.table =
          s.host.table ∧
        u.engs = s.engs ∧ u.pas = s.pas ∧ u.mem = s.mem ∧ u.tab = s.tab) ∧
  (∀ (s : State) (q : Request),
    s.takes 0x0B02 q → q.tenant = 0 → q.len = 8 + q.u 4 2 → 1 ≤ q.u 4 2 → q.u 4 2 ≤ 4072 → q.u 6 1 = 0 → q.rsv 7 1 = true →
    (q.u 0 4 = 0 ∨ q.u 0 4 = s.host.load.length) →
      exec (.hostTableLoad q) s = .next ((s.accepted.modHost fun h =>
        { h with load := (if q.u 0 4 = 0 then [] else s.host.load) ++ q.payload.drop 8 }).answer 0x0B02 q ([0, 0, 0, 0] ++ le 2 0xFFFF))) ∧
  (∀ (s : State) (q : Request) (b : List Byte),
    s.takes 0x0B02 q → q.tenant = 0 → q.len = 8 + q.u 4 2 → 1 ≤ q.u 4 2 → q.u 4 2 ≤ 4072 → (q.u 6 1 = 1 ∨ q.u 6 1 = 3) →
    q.rsv 7 1 = true → (q.u 0 4 = 0 ∨ q.u 0 4 = s.host.load.length) → b = (if q.u 0 4 = 0 then [] else s.host.load) ++ q.payload.drop 8 →
    boardTableBad b = none → fld b 2 1 = 1 →
      ∃ u : State, exec (.hostTableLoad q) s = .next (u.answer 0x0B02 q ([0, 0, 0, 0] ++ le 2 0xFFFF)) ∧ u.host.load = [] ∧
        u.host.tableTag = fld b 8 4 ∧
        (∀ i, i < fld b 4 2 → tget u.host.table (4 * fld b (16 + 16 * i) 1 + fld b (17 + 16 * i) 1) = some (entryAt b (16 + 16 * i))) ∧
        u.host.ulTable = s.host.ulTable ∧ u.host.ports = s.host.ports ∧ u.host.groups = s.host.groups ∧
        (∀ k, tget u.host.lanes k = (tget s.host.lanes k).map fun r => { r with live := if k < 128 then q.u 6 1 == 3 else r.live }) ∧
        { u with host := s.host, log := s.log, com := s.com } = s.accepted) ∧
  (∀ (s : State) (q : Request) (g m n lead sw : Nat) (phys cal : List Nat) (cs : List FlexClient),
    s.takes 0x0B03 q → q.tenant = 0 → q.u 0 1 = g → q.u 1 1 = 1 → q.u 2 1 = phys.length → q.u 3 1 = m → q.u 24 2 = n →
    q.len = 28 + 2 * n → g ≤ 63 → 1 ≤ phys.length → phys.length ≤ 8 → 1 ≤ m → m ≤ 2 → 1 ≤ q.u 4 4 → q.u 4 4 ≤ 0xFFFFE →
    (List.range phys.length).map (fun i => q.u (8 + i) 1) = phys →
    ((List.range 8).all fun i => decide (i < phys.length) || q.u (8 + i) 1 == 0xFF) = true → (phys.all fun l => decide (l ≤ 127)) = true →
    q.rsv 22 2 = true → q.rsv 26 2 = true → (List.range n).map (fun i => q.u (28 + 2 * i) 2) = cal →
    (cal.all fun c => c != 0xFFFF) = true → s.dark 0x0B81 = none → (phys.all fun l => (s.dark (0x0B00 + l)).isNone) = true →
    s.physOk g phys = true → n = 20 * s.instances phys → (calendarClients cal).length ≤ 64 → s.flexGroup g = none →
    lead = s.earliest false → sw = (if m = 2 then (if q.ch 16 = 0 then lead else q.ch 16) else 0) →
    (m = 2 → chLater sw s.chamber = true ∧ 80 ≤ chAhead sw s.chamber ∧ chLater lead sw = false) → s.commitBad lead none = none →
    cs = s.newClients g { groupId := q.u 4 4, phys := phys } cal (if m = 2 then some (chAdd sw 84) else none) →
    (cs.all fun c => c.handle != 256) = true →
      ∃ u : State, exec (.flexeCalendarSet q) s = .next (u.answer 0x0B03 q (flexeReply (if m = 2 then chAdd sw 84 else 0) cal cs)) ∧
        u.flexGroup g = some { groupId := q.u 4 4, phys := phys, clients := cs, change := some { mode := m, cal := cal, switchCh := sw } }
          ∧
        u.hasScheduled lead (.flexe g false) ∧ u.hasScheduled lead (.flexe g true) ∧ (∀ k, k ≠ g → u.flexGroup k = s.flexGroup k) ∧
        u.host.ports = s.host.ports ∧ u.tab.banks = s.tab.banks ∧ u.pas = s.pas ∧ u.engs = s.engs ∧ u.mem = s.mem) ∧
  (∀ (s : State) (q : Request) (g m n lead sw : Nat) (cal : List Nat) (cs : List FlexClient) (x : FlexGroup),
    s.takes 0x0B03 q → q.tenant = 0 → q.u 0 1 = g → q.u 1 1 = 2 → q.rsv 2 1 = true → q.u 3 1 = m → q.u 24 2 = n → q.len = 28 + 2 * n →
    g ≤ 63 → 1 ≤ m → m ≤ 2 → q.rsv 22 2 = true → q.rsv 26 2 = true → (List.range n).map (fun i => q.u (28 + 2 * i) 2) = cal →
    (cal.all fun c => c != 0xFFFF) = true → s.dark 0x0B81 = none → s.flexGroup g = some x → x.change = none →
    n = 20 * s.instances x.phys → (calendarClients cal).length ≤ 64 →
    (x.clients.all fun c => !(s.clientUsed g c) || clientEntries x.active c.client == clientEntries cal c.client) = true →
    lead = s.earliest false → sw = (if m = 2 then (if q.ch 16 = 0 then lead else q.ch 16) else 0) →
    (m = 2 → chLater sw s.chamber = true ∧ 80 ≤ chAhead sw s.chamber ∧ chLater lead sw = false) → s.commitBad lead none = none →
    cs = s.newClients g x cal (if m = 2 then some (chAdd sw 84) else none) → (cs.all fun c => c.handle != 256) = true →
      ∃ u : State, exec (.flexeCalendarSet q) s = .next (u.answer 0x0B03 q (flexeReply (if m = 2 then chAdd sw 84 else 0) cal cs)) ∧
        u.flexGroup g = some { x with
        clients := cs ++ (x.clients.filter fun c => !(cs.any fun y => y.client == c.client)), change := some
          { mode := m, cal := cal, switchCh := sw } } ∧
        u.hasScheduled lead (.flexe g (!x.onB)) ∧ (∀ k, k ≠ g → u.flexGroup k = s.flexGroup k) ∧ u.host.ports = s.host.ports ∧
        u.tab.banks = s.tab.banks ∧ u.pas = s.pas ∧ u.engs = s.engs ∧ u.mem = s.mem) ∧
  (∀ (s : State) (q : Request) (g lead : Nat) (x : FlexGroup),
    s.takes 0x0B03 q → q.tenant = 0 → q.u 0 1 = g → q.u 1 1 = 3 → q.rsv 2 1 = true → q.u 24 2 = 0 → q.len = 28 → g ≤ 63 →
    q.rsv 22 2 = true → q.rsv 26 2 = true → s.dark 0x0B81 = none → s.flexGroup g = some x →
    (x.clients.all fun c => !(s.clientUsed g c)) = true → x.change = none → lead = s.earliest false → s.commitBad lead none = none →
      ∃ u : State, exec (.flexeCalendarSet q) s = .next (u.answer 0x0B03 q (flexeReply 0 [] [])) ∧ u.flexGroup g = some
        { x with change := some { mode := 3, cal := [] } } ∧
        u.hasScheduled lead (.flexe g false) ∧ u.hasScheduled lead (.flexe g true) ∧ (∀ k, k ≠ g → u.flexGroup k = s.flexGroup k) ∧
        u.host.ports = s.host.ports ∧ u.pas = s.pas ∧ u.engs = s.engs ∧ u.mem = s.mem)

/-- A configured port whose lanes are in order and deskewed completes its acquisition, is up and says how long it took, and one with more skew
than it can take stays down; a port that loses its signal is down, counted, starts again from the table and takes its FlexE group down; a
port not up one second after its reference is reported once, and each retry starts its lanes from the table. FEC codewords add to the
port's counters, and with FLAGS bit 2 a whole window of them declares and clears degrade. A live lane's taps and swing move by one step
toward the table; receive values adapt by at most one step, the peaking code at most once in 100 ms, and a fixed lane keeps them. A
receive value at its bound for a second is reported once. A loaded calendar becomes the active one; a request without acknowledgement for
a second leaves the old one; the far end's equal request is acknowledged. A group goes down with its cause, its errors counted whether it
was up or not, and comes up once its PHYs are up. -/
def Obligations.PortRowsComplete : Prop :=
  (∀ (s : State) (lane : Nat) (pcs : List (Nat × Nat)) (p : HostPort),
    s.settled → s.port lane = some p → p.up = false → p.aligned pcs = true →
      ∃ t : State, exec (.hostPortUp lane pcs) s = .next t ∧
        t.port lane = some
          { p with up := true, wasUp := true, step := 5, rxPcs := { order := pcs.map Prod.fst }, skews := pcs.map Prod.snd } ∧
        t.log = (s.raise islHost .hostPortUp lane (le 4 (satN 4 ((s.mono - p.ref) / msQ)))).log ∧ (64 + lane) ∈ t.tim.present ∧
        (∀ k, k ≠ lane → t.port k = s.port k) ∧ t.engs = s.engs ∧ t.pas = s.pas ∧ t.tab = s.tab ∧ t.mem = s.mem ∧ t.cnt = s.cnt) ∧
  (∀ (s : State) (lane : Nat) (pcs : List (Nat × Nat)) (p : HostPort),
    s.settled → s.port lane = some p → p.up = false → p.aligned pcs = false →
      exec (.hostPortUp lane pcs) s = .next (s.modPort lane fun p => { p with step := 3 })) ∧
  (∀ (s : State) (lane cause bad : Nat) (p : HostPort),
    s.settled → s.port lane = some p → p.up = true → lane ≤ 127 →
      ∃ t : State, exec (.hostPortDown lane cause bad) s = .next t ∧
        t.port lane = some { p with up := false, ref := s.mono, rxBytes := none, step := stepsMet cause, winCw := 0, winSym := 0 } ∧
        t.ctr (0x0B00 + lane) 0 24 = s.ctr (0x0B00 + lane) 0 24 + 1 ∧ (64 + lane) ∉ t.tim.present ∧
        (∀ k, lane ≤ k → k < lane + p.count → tget t.host.lanes k = some
          { tx := s.laneEq k p.rate, ctle := (s.laneEq k p.rate).ctleStart, gain := (s.laneEq k p.rate).gainStart }) ∧
        (tget s.tim.inputs (64 + lane) = none → s.host.groups = [] → t.log = (s.raise islHost .hostPortDown lane (le 1 cause)).log) ∧
        (∀ k, k ≠ lane → t.port k = s.port k) ∧ t.engs = s.engs ∧ t.pas = s.pas ∧ t.tab = s.tab ∧ t.mem = s.mem) ∧
  (∀ (s : State) (lane cause bad g : Nat) (p : HostPort) (x : FlexGroup),
    s.settled → s.port lane = some p → p.up = true → lane ≤ 127 → s.flexGroup g = some x → x.up = true →
    (s.host.groups.find? fun e => e.2.phys.contains lane) = some (g, x) →
      ∃ t : State, exec (.hostPortDown lane cause bad) s = .next t ∧ (t.port lane).map (fun p => p.up) = some false ∧
        t.flexGroup g = some { x with up := false, downCause := 1 } ∧ (∀ k, k ≠ g → t.flexGroup k = s.flexGroup k) ∧
        (∀ k, k ≠ lane → t.port k = s.port k) ∧ t.engs = s.engs ∧ t.pas = s.pas ∧ t.tab = s.tab ∧ t.mem = s.mem) ∧
  (∀ (s : State) (lane cause : Nat) (p : HostPort),
    s.settled → s.port lane = some p → p.up = false → p.timedOut = false → p.wasUp = false → s.since p.ref secQ = true →
      ∃ t : State, exec (.hostPortTimeout lane cause) s = .next t ∧ t.port lane = some { p with step := stepsMet cause, timedOut := true }
        ∧
        (∀ k, lane ≤ k → k < lane + p.count → tget t.host.lanes k = some
          { tx := s.laneEq k p.rate, ctle := (s.laneEq k p.rate).ctleStart, gain := (s.laneEq k p.rate).gainStart }) ∧
        t.log = (s.raise islHost .hostPortDown lane (le 1 cause)).log ∧ (∀ k, k ≠ lane → t.port k = s.port k) ∧ t.engs = s.engs ∧
        t.pas = s.pas ∧ t.tab = s.tab ∧ t.mem = s.mem ∧ t.cnt = s.cnt ∧ t.tim = s.tim) ∧
  (∀ (s : State) (lane cause : Nat) (p : HostPort),
    s.settled → s.port lane = some p → p.up = false → (p.timedOut = true ∨ p.wasUp = true) → s.since p.ref secQ = true →
      ∃ t : State, exec (.hostPortTimeout lane cause) s = .next t ∧ t.port lane = some { p with step := stepsMet cause } ∧
        (∀ k, lane ≤ k → k < lane + p.count → tget t.host.lanes k = some
          { tx := s.laneEq k p.rate, ctle := (s.laneEq k p.rate).ctleStart, gain := (s.laneEq k p.rate).gainStart }) ∧
        (∀ k, k ≠ lane → t.port k = s.port k) ∧ { t with host := s.host } = s) ∧
  (∀ (s : State) (lane uncorr words symbols : Nat) (hist : List Nat) (p : HostPort),
    s.settled → s.port lane = some p → p.up = true → hist.length = 16 → words = p.winCw + hSum hist + uncorr →
    symbols = p.winSym + hSum (((List.range 16).zip hist).map fun x => x.1 * x.2) →
      ∃ t : State, exec (.hostFecWindowEnd lane hist uncorr) s = .next t ∧
        t.ctr (0x0B00 + lane) 0 0 = s.ctr (0x0B00 + lane) 0 0 + BitVec.ofNat 64 (hSum hist + uncorr) ∧
        t.ctr (0x0B00 + lane) 0 1 = s.ctr (0x0B00 + lane) 0 1 + BitVec.ofNat 64 (hSum (hist.drop 1)) ∧
        t.ctr (0x0B00 + lane) 0 2 = s.ctr (0x0B00 + lane) 0 2 + BitVec.ofNat 64 uncorr ∧
        (∀ k, k < 16 → t.ctr (0x0B00 + lane) 0 (4 + k) = s.ctr (0x0B00 + lane) 0 (4 + k) + BitVec.ofNat 64 ((hist[k]?).getD 0)) ∧
        (words < p.degWin → t.port lane = some { p with winCw := words, winSym := symbols } ∧ t.log = s.log) ∧
        (p.degWin ≤ words → bitAt p.flags 2 = false → t.port lane = some { p with winCw := 0, winSym := 0 } ∧ t.log = s.log) ∧
        (p.degWin ≤ words → bitAt p.flags 2 = true → p.degraded = false → p.degSet ≤ symbols →
        t.port lane = some { p with winCw := 0, winSym := 0, degraded := true } ∧
        t.log = (s.raise islHost .hostFecDegrade lane (le 4 (satN 4 symbols))).log) ∧
        (p.degWin ≤ words → bitAt p.flags 2 = true → p.degraded = true → symbols < p.degClear →
        t.port lane = some { p with winCw := 0, winSym := 0, degraded := false } ∧
        t.log = (s.raise islHost .hostFecDegradeClear lane (le 4 (satN 4 symbols))).log) ∧
        (∀ k, k ≠ lane → t.port k = s.port k) ∧ t.host.lanes = s.host.lanes ∧ t.engs = s.engs ∧ t.pas = s.pas ∧ t.tim = s.tim ∧ t.mem =
          s.mem) ∧
  (∀ (s : State) (lane which b : Nat) (r : LaneRun),
    s.settled → lane < 128 → tget s.host.lanes lane = some r → tget r.bound which = some b → s.since b secQ = true →
    r.limits.contains which = false →
      ∃ t : State, exec (.hostAdaptLimit lane which) s = .next t ∧ tget t.host.lanes lane = some { r with limits := which :: r.limits } ∧
        t.log = (s.raise islHost .hostAdaptLimit lane (le 1 which)).log ∧ { t with host := s.host, log := s.log, com := s.com } = s) ∧
  (∀ (s : State) (lane which b : Nat) (r : LaneRun),
    s.settled → tget s.host.lanes lane = some r → tget r.bound which = some b →
    (s.since b secQ = false ∨ r.limits.contains which = true) →
      exec (.hostAdaptLimit lane which) s = .next s) ∧
  (∀ (s : State) (lane : Nat) (ctle ffe dfe : Int) (r : LaneRun) (e : LaneEq),
    s.settled → tget s.host.lanes lane = some r → e = s.laneEq lane (s.laneRate lane) → r.live = true →
      ∃ t : State, exec (.txTapStep lane ctle ffe dfe) s = .next t ∧ (tget t.host.lanes lane).map (fun x => x.tx) = some { r.tx with
        pre3 := stepTo r.tx.pre3 e.pre3, pre2 := stepTo r.tx.pre2 e.pre2, pre1 := stepTo r.tx.pre1 e.pre1, post1 := stepTo r.tx.post1
          e.post1, swing := (stepTo r.tx.swing e.swing).toNat, main := 64 - ((stepTo r.tx.pre3 e.pre3).natAbs + (stepTo r.tx.pre2
          e.pre2).natAbs + (stepTo r.tx.pre1 e.pre1).natAbs + (stepTo r.tx.post1 e.post1).natAbs : Nat) } ∧
        (∀ k, k ≠ lane → tget t.host.lanes k = tget s.host.lanes k) ∧ { t with host := s.host } = s ∧ (s.laneUp lane = true → t.host.ports
          = s.host.ports)) ∧
  (∀ (s : State) (lane : Nat) (ctle ffe dfe : Int) (r : LaneRun) (e : LaneEq),
    s.settled → tget s.host.lanes lane = some r → e = s.laneEq lane (s.laneRate lane) → e.fixed = true → r.live = false →
      ∃ t : State, exec (.txTapStep lane ctle ffe dfe) s = .next t ∧ t.host.lanes = tput s.host.lanes lane { r with adapted := true } ∧
        (s.laneUp lane = true → t.host.ports = s.host.ports) ∧ { t with host := s.host } = s) ∧
  (∀ (s : State) (lane : Nat) (ctle ffe dfe : Int) (r : LaneRun) (e : LaneEq),
    s.settled → tget s.host.lanes lane = some r → e = s.laneEq lane (s.laneRate lane) → e.fixed = false → s.laneUp lane = true →
    e.ctleMin ≤ r.ctle → r.ctle ≤ e.ctleMax → r.ffe.natAbs ≤ e.ffeBound → r.dfe.natAbs ≤ e.dfeMax →
      ∃ t : State, exec (.txTapStep lane ctle ffe dfe) s = .next t ∧ (tget t.host.lanes lane).isSome = true ∧
        (∀ x ∈ tget t.host.lanes lane, x.ctle ≤ r.ctle + 1 ∧ r.ctle ≤ x.ctle + 1 ∧ (s.mono < r.ctleAt + 100 * msQ → x.ctle = r.ctle) ∧
          (x.ffe - r.ffe).natAbs ≤ 1 ∧
        (x.dfe - r.dfe).natAbs ≤ 1 ∧ e.ctleMin ≤ x.ctle ∧ x.ctle ≤ e.ctleMax ∧ x.ffe.natAbs ≤ e.ffeBound ∧ x.dfe.natAbs ≤ e.dfeMax) ∧
        (∀ k, k ≠ lane → tget t.host.lanes k = tget s.host.lanes k) ∧ { t with host := s.host } = s ∧ t.host.ports = s.host.ports) ∧
  (∀ (s : State) (g : Nat) (x : FlexGroup) (c : FlexChange),
    s.settled → s.flexGroup g = some x → x.change = some c → c.loaded = true → (c.mode = 1 ∨ chReached s.chamber c.switchCh = true) →
      ∃ t : State, exec (.flexeCalSwitch g) s = .next t ∧
        t.flexGroup g = some
          { x with onB := !x.onB, change := none, clients := switchedClients x.clients c.cal (chAdd s.chamber 1), farAck := false } ∧
        t.ctr 0x0B81 g 2 = s.ctr 0x0B81 g 2 + 1 ∧ (c.mode = 1 → t.log = (s.raise islHost .flexeCalSwitch g (le 6 (chAdd s.chamber
          1))).log) ∧
        (∀ k, k ≠ g → t.flexGroup k = s.flexGroup k) ∧ t.host.ports = s.host.ports ∧ t.engs = s.engs ∧ t.pas = s.pas ∧ t.mem = s.mem) ∧
  (∀ (s : State) (g : Nat) (x : FlexGroup) (c : FlexChange),
    s.settled → s.flexGroup g = some x → x.change = some c → c.mode = 1 → c.loaded = true → s.since c.requestAt secQ = true →
      ∃ t : State, exec (.flexeCalTimeout g) s = .next t ∧
        t.flexGroup g = some { x with change := none, clients := switchedClients x.clients x.active s.chamber } ∧
        t.log = (s.raise islHost .flexeCalTimeout g []).log ∧ (∀ k, k ≠ g → t.flexGroup k = s.flexGroup k) ∧
        { t with host := s.host, log := s.log, com := s.com } = s) ∧
  (∀ (s : State) (g : Nat) (x : FlexGroup),
    s.settled → s.flexGroup g = some x →
      ∃ t : State, exec (.flexeCalRequest g x.configured) s = .next t ∧ t.flexGroup g = some { x with farAck := true } ∧
        (∀ k, k ≠ g → t.flexGroup k = s.flexGroup k) ∧ { t with host := s.host } = s) ∧
  (∀ (s : State) (g cause crc losses : Nat) (x : FlexGroup),
    s.settled → s.flexGroup g = some x → x.up = true →
      ∃ t : State, exec (.flexeGroupDown g cause crc losses) s = .next t ∧ t.flexGroup g = some { x with up := false, downCause := cause }
        ∧
        t.ctr 0x0B81 g 0 = s.ctr 0x0B81 g 0 + BitVec.ofNat 64 crc ∧ t.ctr 0x0B81 g 1 = s.ctr 0x0B81 g 1 + BitVec.ofNat 64 losses ∧
        t.log = (s.raise islHost .flexeGroupDown g (le 1 cause)).log ∧
        (∀ k, k ≠ g → t.flexGroup k = s.flexGroup k) ∧ { t with host := s.host, log := s.log, com := s.com, cnt := s.cnt } = s) ∧
  (∀ (s : State) (g cause crc losses : Nat) (x : FlexGroup),
    s.settled → s.flexGroup g = some x → x.up = false →
      ∃ t : State, exec (.flexeGroupDown g cause crc losses) s = .next t ∧ t.ctr 0x0B81 g 0 = s.ctr 0x0B81 g 0 + BitVec.ofNat 64 crc ∧
        t.ctr 0x0B81 g 1 = s.ctr 0x0B81 g 1 + BitVec.ofNat 64 losses ∧ { t with cnt := s.cnt } = s) ∧
  (∀ (s : State) (g : Nat) (x : FlexGroup),
    s.settled → s.flexGroup g = some x → x.up = false → (x.phys.all fun l => ((s.port l).map fun p => p.up).getD false) = true →
      ∃ t : State, exec (.flexeGroupUp g) s = .next t ∧ t.flexGroup g = some { x with up := true } ∧
        t.log = (s.raise islHost .flexeGroupUp g []).log ∧ (∀ k, k ≠ g → t.flexGroup k = s.flexGroup k) ∧
        { t with host := s.host, log := s.log, com := s.com } = s)

/-- ULINK_CONFIG ACTION 1 configures a port that is down, ACTION 2 removes one that nothing uses, ACTION 3 declares spread while no port is
configured. ULINK_STATUS answers with its layout and changes nothing. A lane with 64 valid blocks from a comma on locks and has its
LANE_ID and skew, one without them goes on hunting; a lane that loses lock is counted and takes its port down. A sent frame carries the
slot blocks that are ready, in slot order, on its four scrambled lanes, moves the slot count past them, counts them and the pauses, and
alternates the half of the map. A good frame is counted, names the far end and sets the slot count; a frame whose checksum fails is
counted and spoils the run, and a second one in a row takes the port down. A port not up 100 ms after its reference is reported once. The
reference clock's measure is held, and an excess is spread at once. -/
def Obligations.UmranComplete : Prop :=
  (∀ (s : State) (q : Request) (n : Nat),
    s.takes 0x0A01 q → q.tenant = 0 → q.len = 12 → q.u 0 1 = n → n ≤ 3 → q.u 1 1 = 1 → q.u 2 1 ≤ 15 → q.u 3 1 ≤ 15 → q.u 4 1 = 0 →
    q.u 5 1 ≤ 1 → q.rsv 8 4 = true → s.dark (0x0E00 + n) = none → (s.island islUlink).belay = false → s.ulUsed n = false →
      ∃ u : State, exec (.ulinkConfig q) s = .next (u.answer 0x0A01 q [0, 0, 1, 0]) ∧
        tget u.ul.ports n = some
          { txInvert := q.u 2 1, rxInvert := q.u 3 1, check := bitAt (q.u 5 1) 0, expect := q.u 6 2, ref := s.mono } ∧
        (∀ k, k ≠ n → tget u.ul.ports k = tget s.ul.ports k) ∧ u.ul.declared = s.ul.declared ∧ u.engs = s.engs ∧ u.pas = s.pas ∧ u.mem =
          s.mem ∧
        u.host.ports = s.host.ports) ∧
  (∀ (s : State) (q : Request) (n : Nat),
    s.takes 0x0A01 q → q.tenant = 0 → q.len = 12 → q.u 0 1 = n → n ≤ 3 → q.u 1 1 = 2 → q.rsv 2 3 = true → q.rsv 5 3 = true →
    q.rsv 8 4 = true → s.dark (0x0E00 + n) = none → (s.island islUlink).belay = false → s.ulUsed n = false →
      ∃ u : State, exec (.ulinkConfig q) s = .next (u.answer 0x0A01 q [0, 0, 0, 0]) ∧ tget u.ul.ports n = none ∧
        (∀ k, k ≠ n → tget u.ul.ports k = tget s.ul.ports k) ∧ u.engs = s.engs ∧ u.pas = s.pas ∧ u.mem = s.mem ∧ u.host.ports =
          s.host.ports) ∧
  (∀ (s : State) (q : Request),
    s.takes 0x0A01 q → q.tenant = 0 → q.len = 12 → q.u 0 1 = 0xFF → q.u 1 1 = 3 → q.u 4 1 ≤ 1 → q.rsv 2 2 = true → q.rsv 5 3 = true →
    q.rsv 8 4 = true → s.dark 0x0EFE = none → (s.island islUlink).belay = false → s.ul.ports = [] →
      ∃ u : State, exec (.ulinkConfig q) s = .next (u.answer 0x0A01 q [0, 0, 0, 0]) ∧ u.ul = { s.ul with declared := q.u 4 1 == 1 } ∧
        u.engs = s.engs ∧ u.pas = s.pas ∧ u.mem = s.mem ∧ u.host = s.host) ∧
  (∀ (s : State) (q : Request),
    s.takes 0x0A02 q → s.tenantOn q → q.len = 0 → s.dark 0x0EFE = none →
      ∃ (u : State) (p : List Byte), exec (.ulinkStatus q) s = .next (u.answer 0x0A02 q p) ∧ u = s.accepted ∧ p.length = 72 ∧ fld p 0 1 =
        0 ∧
        fld p 1 1 = (if s.ul.declared then 1 else if s.ul.detected then 2 else 0) ∧ fldS p 4 2 = (s.ul.ppm + 2 ^ 15) % 2 ^ 16 - 2 ^ 15 ∧
        p.drop 8 = s.ulStatus 0 ++ s.ulStatus 1 ++ s.ulStatus 2 ++ s.ulStatus 3) ∧
  (∀ (s : State) (p i skew : Nat) (blocks bs : List Block) (l : UlLane),
    s.settled → s.ulConfigured p = true → i ≤ 3 → l = ((s.ulPort p).lanes[i]?).getD {} → l.locked = false →
    bs = invertLane (s.ulPort p).rxInvert i blocks → locksAt bs = true →
      ∃ t : State, exec (.ulinkLaneLock p i blocks skew) s = .next t ∧
        (t.ulPort p).lanes = (s.ulPort p).lanes.set i { l with locked := true, id := (laneIdOf bs).getD l.id % 4, skew := skew } ∧
        (∀ k, k ≠ p → tget t.ul.ports k = tget s.ul.ports k) ∧ t.engs = s.engs ∧ t.mem = s.mem ∧ t.host = s.host) ∧
  (∀ (s : State) (p i skew : Nat) (blocks : List Block),
    s.settled → s.ulConfigured p = true → i ≤ 3 → (((s.ulPort p).lanes[i]?).getD {}).locked = false →
    locksAt (invertLane (s.ulPort p).rxInvert i blocks) = false →
      exec (.ulinkLaneLock p i blocks skew) s = .next s) ∧
  (∀ (s : State) (p i skew : Nat) (blocks : List Block),
    s.settled → s.ulConfigured p = true → i ≤ 3 → (((s.ulPort p).lanes[i]?).getD {}).locked = true →
    eightIn64 (invalidAt (invertLane (s.ulPort p).rxInvert i blocks)) = true →
      ∃ t : State, exec (.ulinkLaneLock p i blocks skew) s = .next t ∧ (t.ulPort p).lanes = (s.ulPort p).lanes.set i {} ∧ (t.ulPort p).up
        = false ∧
        (t.ulPort p).good = 0 ∧ t.ctr (0x0E00 + p) 0 6 = s.ctr (0x0E00 + p) 0 6 + 1 ∧
        ((s.ulPort p).up = false → t.log = (s.raise islUlink .ulinkLaneLost p (le 1 (4 * p + i))).log) ∧
        (∀ k, k ≠ p → tget t.ul.ports k = tget s.ul.ports k) ∧ t.engs = s.engs ∧ t.mem = s.mem ∧ t.host = s.host) ∧
  (∀ (s : State) (p depart : Nat) (x : UlPort) (r : List Block × Nat × Tab (List Block)),
    s.settled → s.ulConfigured p = true → x = s.ulPort p →
    r = takeReady (s.ulAssigned p) (min (min 8000 (x.owed + (x.sentAt.map fun a => slotBlocksBy depart - slotBlocksBy a).getD 0)) 4074) x.txSlot x.stage →
      ∃ t : State, exec (.ulinkFrameSend p depart) s = .next t ∧ (t.ulPort p).txSlot = r.2.1 ∧ (t.ulPort p).stage = r.2.2 ∧
        (t.ulPort p).half = !x.half ∧ (t.ulPort p).frame.length = 14 ∧ (t.ulPort p).up = x.up ∧ (t.ulPort p).sentAt = some depart ∧
        (t.ulPort p).lanesOut = (x.lanesFor (portBlocks p (t.ulPort p).frame (sendMgmt 32 x.mgmtQ).2.1 r.1)).map Prod.fst ∧
        t.ctr (0x0E00 + p) 0 1 = s.ctr (0x0E00 + p) 0 1 + BitVec.ofNat 64 r.1.length ∧
        t.ctr (0x0E00 + p) 0 2 = s.ctr (0x0E00 + p) 0 2 + BitVec.ofNat 64 (4074 - r.1.length) ∧
        (∀ k, k ≠ p → tget t.ul.ports k = tget s.ul.ports k) ∧ { t with ul := s.ul, cnt := s.cnt, freeCtr := s.freeCtr } = s) ∧
  (∀ (s : State) (p n : Nat) (f : UlFrame) (frame : List (Nat × Block)) (ws : List Nat),
    s.settled → s.ulConfigured p = true → frame = (s.ulPort p).portFrame f.lanes → ((s.ulLanes p f.lanes).ulPort p).laneFault = none →
    ws = ((frame.drop 4).take 14).map (fun x => blockWord x.2) → ocrc ws = hbits ws 3 0 16 → n = (slotBlocksOf frame).length →
    (s.ulPort p).up = true →
      ∃ t : State, exec (.ulinkFrameReceive p f) s = .next t ∧ (t.ulPort p).good = (s.ulPort p).good + 1 ∧ (t.ulPort p).bad = 0 ∧
        (t.ulPort p).up = true ∧ (t.ulPort p).farNode = hbits ws 0 48 16 ∧ (t.ulPort p).farEpoch = some (hbits ws 0 0 48) ∧
        (t.ulPort p).rdi = (hbits ws 1 61 1 == 1) ∧ (t.ulPort p).rxSlot = (hbits ws 1 52 7 + n) % 80 ∧
        t.ctr (0x0E00 + p) 0 0 = s.ctr (0x0E00 + p) 0 0 + BitVec.ofNat 64 n ∧
        (∀ k, k ≠ p → tget t.ul.ports k = tget s.ul.ports k) ∧ t.engs = s.engs ∧ t.mem = s.mem ∧ t.host = s.host) ∧
  (∀ (s : State) (p : Nat) (f : UlFrame) (frame : List (Nat × Block)) (ws : List Nat),
    s.settled → s.ulConfigured p = true → frame = (s.ulPort p).portFrame f.lanes → ((s.ulLanes p f.lanes).ulPort p).laneFault = none →
    ws = ((frame.drop 4).take 14).map (fun x => blockWord x.2) → ocrc ws ≠ hbits ws 3 0 16 →
      ∃ t : State, exec (.ulinkFrameReceive p f) s = .next t ∧ (t.ulPort p).good = 0 ∧ (t.ulPort p).bad = (s.ulPort p).bad + 1 ∧
        ((t.ulPort p).up = true ↔ (s.ulPort p).up = true ∧ (s.ulPort p).bad = 0) ∧ (t.ulPort p).seen = [] ∧
        t.ctr (0x0E00 + p) 0 4 = s.ctr (0x0E00 + p) 0 4 + 1 ∧ (∀ k, k ≠ p → tget t.ul.ports k = tget s.ul.ports k) ∧ t.engs = s.engs ∧
        t.mem = s.mem ∧ t.host = s.host) ∧
  (∀ (s : State) (p : Nat),
    s.settled → s.ulConfigured p = true → (s.ulPort p).up = false → (s.ulPort p).timedOut = false →
    s.since (s.ulPort p).ref (100 * msQ) = true →
      ∃ t : State, exec (.ulinkPortTimeout p) s = .next t ∧ t.ulPort p = { s.ulPort p with timedOut := true } ∧
        t.log = (s.raise islUlink .ulinkPortDown p (le 1 ((s.ulPort p).laneFault.getD 3))).log ∧
        (∀ k, k ≠ p → tget t.ul.ports k = tget s.ul.ports k) ∧ { t with ul := s.ul, log := s.log, com := s.com } = s) ∧
  (∀ (s : State) (ppm : Int) (peak : Nat),
    s.settled →
      ∃ t : State, exec (.ulinkRefclkMeasure ppm peak) s = .next t ∧ t.ul.ppm = ppm ∧
        (t.ul.detected = true ↔ (ppm < -1000 ∨ 200 < peak) ∨ (s.ul.detected = true ∧ s.ul.cleanS + 1 < 60)) ∧
        t.ul.cleanS = (if ppm < -1000 ∨ 200 < peak then 0 else s.ul.cleanS + 1) ∧ t.ul.ports = s.ul.ports ∧ t.ul.declared = s.ul.declared
          ∧
        t.engs = s.engs ∧ t.pas = s.pas ∧ t.mem = s.mem ∧ t.host = s.host)

/-- CAL_POLICY ACTION 1 puts a policy in force on the converters named and on no other, ACTION 2 reads it. CAL_RUN starts a job and leaves
each named converter with a run under way or a trigger held. Boot calibration records the temperature and CALRES and gives every converter
its elements. A temperature trigger that is met starts a run with the rover offline. An accepted step takes a position over and goes to
the next; a step that is not accepted is tried once more. A window that passes clears the slice's count of failing windows. -/
def Obligations.CalibrationComplete : Prop :=
  (∀ (s : State) (q : Request) (n : Nat),
    s.takes 0x0E01 q → q.len = 12 → q.u 0 1 = n → n ≤ 7 → q.u 1 1 = 2 → q.rsv 2 6 = true → q.rsv 8 4 = true →
    s.dark (engIsland n) = none → s.manages q.tenant n = true → s.calDone n = true →
      exec (.calPolicy q) s = .next (s.accepted.answer 0x0E01 q (s.calReply n))) ∧
  (∀ (s : State) (q : Request) (n : Nat),
    s.takes 0x0E01 q → q.len = 12 → q.u 0 1 = n → n ≤ 7 → q.u 1 1 = 1 → q.u 2 1 ≠ 0 → q.u 3 1 ≤ 3 → 5 ≤ q.u 4 2 → q.u 4 2 ≤ 100 →
    1 ≤ q.u 6 2 → q.u 6 2 ≤ 168 → q.rsv 8 4 = true → s.dark (engIsland n) = none → s.manages q.tenant n = true → s.calDone n = true →
    (s.eng n).cal.convs.length = 8 →
      ∃ u : State, exec (.calPolicy q) s = .next (u.answer 0x0E01 q (u.calReply n)) ∧
        (∀ c, c < 8 → bitAt (q.u 2 1) c = true → (u.conv n c).flags = q.u 3 1 ∧ (u.conv n c).delta = q.u 4 2 ∧ (u.conv n c).hours = q.u 6
          2 ∧ (u.conv n c).hold = (s.conv n c).hold) ∧
        (∀ c, c < 8 → bitAt (q.u 2 1) c = false → u.conv n c = s.conv n c) ∧ (∀ k, k ≠ n → u.eng k = s.eng k) ∧ u.pas = s.pas ∧ u.mem =
          s.mem ∧
        u.tim = s.tim ∧ u.jobs = s.jobs) ∧
  (∀ (s : State) (q : Request) (n : Nat),
    s.takes 0x0E02 q → q.len = 4 → q.u 0 1 = n → n ≤ 7 → q.u 1 1 ≠ 0 → q.rsv 2 2 = true → s.dark (engIsland n) = none →
    s.manages q.tenant n = true → s.calDone n = true → (s.eng n).cal.convs.length = 8 →
    (List.range 8).all (fun c => !(bitAt (q.u 1 1) c) || (s.conv n c).rover.isSome || (s.conv n c).run.isSome) = true →
    s.runningJobs = [] → s.jobsFull q.tenant = false →
      ∃ (u : State) (token : Nat), exec (.calRun q) s = .next (u.answer 0x0E02 q (jobStarted token)) ∧
        (u.job token).map (fun j => (j.tenant, j.op, j.ended.isSome)) = some (q.tenant, 0x0E02, false) ∧
        (∀ c, c < 8 → bitAt (q.u 1 1) c = true → (u.conv n c).held.isSome = true ∨ ((u.conv n c).run.map fun r => (r.trigger, r.job)) =
          some (3, true)) ∧
        (∀ c, c < 8 → bitAt (q.u 1 1) c = false → u.conv n c = s.conv n c) ∧ (∀ k, k ≠ n → u.eng k = s.eng k) ∧ u.pas = s.pas ∧ u.mem =
          s.mem ∧
        u.tim = s.tim) ∧
  (∀ (s : State) (n ohms : Nat) (temp : Int) (bad : List (Nat × Nat)) (found : List BootTrims),
    s.settled → n ≤ 7 → s.boot.stage = 0xF → s.calDone n = false → s.runsHeld n = false → (s.eng n).cal.convs.length = 8 →
    s.store.repair.convs = [] →
      ∃ t : State, exec (.calBootDone n ohms temp bad found) s = .next t ∧ t.calDone n = true ∧ (t.eng n).cal.temp = temp ∧
        (t.eng n).cal.calres = (if 1900 ≤ ohms ∧ ohms ≤ 2100 then 0 else 1) ∧
        (∀ c, c < 8 → (t.conv n c).failed = (indices (positions c + 2) fun k => bad.contains (c, k)) ∧ ((t.conv n c).failed.length ≤ 2 →
          (t.conv n c).hold.length = positions c) ∧ (t.conv n c).hold.all (fun k => !(bad.contains (c, k))) = true ∧ ((t.conv n c).dead =
          true ↔ 2 < (t.conv n c).failed.length)) ∧
        (∀ k, k ≠ n → t.eng k = s.eng k) ∧ t.pas = s.pas ∧ t.mem = s.mem ∧ t.tim = s.tim ∧ t.tab = s.tab) ∧
  (∀ (s : State) (n c ohms r : Nat) (temp : Int),
    s.settled → n ≤ 7 → c ≤ 7 → s.calDone n = true → (s.eng n).cal.convs.length = 8 → (s.conv n c).run = none →
    (s.conv n c).rover = some r → s.runsHeld n = false → bitAt (s.conv n c).flags 0 = true →
    (s.conv n c).delta < (temp - (s.conv n c).temp).natAbs → (s.eng n).cal.passes ohms = true →
      ∃ t : State, exec (.calTrigger n c 1 temp ohms) s = .next t ∧ (t.eng n).cal.temp = temp ∧
        (t.conv n c).run = some
          { trigger := 1, temp := temp, chamber := s.chamber, since := s.mono, stepAt := s.mono, job := false, off := r, checked := true }
          ∧
        (t.conv n c).hold = (s.conv n c).hold ∧ (∀ k, k ≠ c → t.conv n k = s.conv n k) ∧ (∀ k, k ≠ n → t.eng k = s.eng k) ∧
        { t with engs := s.engs } = s) ∧
  (∀ (s : State) (n c : Nat) (io : StepIo) (r : Run),
    s.settled → (s.conv n c).run = some r → r.stop = none → s.since r.stepAt (stepQ c) = true →
    (r.checked = true ∨ (s.eng n).cal.passes io.ohms = true) → stepTrimmed io c = true → verifyOk io c r.step = true →
    r.step < positions c → (s.conv n c).next < positions c → (s.conv n c).hold.length = positions c →
      ∃ t : State, exec (.calStepEnd n c io) s = .next t ∧ (t.conv n c).hold = (s.conv n c).hold.set (s.conv n c).next r.off ∧
        (t.conv n c).next = ((s.conv n c).next + 1) % positions c ∧
        (t.conv n c).run = some
          { r with off := ((s.conv n c).hold[(s.conv n c).next]?).getD 0, step := r.step + 1, stepAt := s.mono, checked := true, retried := false }
          ∧
        (t.conv n c).reserve = (s.conv n c).reserve ∧ (∀ k, k ≠ c → t.conv n k = s.conv n k) ∧ (∀ k, k ≠ n → t.eng k = s.eng k) ∧
        { t with engs := s.engs, cnt := s.cnt } = s) ∧
  (∀ (s : State) (n c : Nat) (io : StepIo) (r : Run),
    s.settled → (s.conv n c).run = some r → r.stop = none → s.since r.stepAt (stepQ c) = true →
    (r.checked = true ∨ (s.eng n).cal.passes io.ohms = true) → stepTrimmed io c = true → verifyOk io c r.step = false →
    r.retried = false → c ≤ 7 →
      ∃ t : State, exec (.calStepEnd n c io) s = .next t ∧ (t.conv n c).run = some
        { r with stepAt := s.mono, checked := true, retried := true } ∧
        (t.conv n c).hold = (s.conv n c).hold ∧ (∀ k, k ≠ c → t.conv n k = s.conv n k) ∧ (∀ k, k ≠ n → t.eng k = s.eng k) ∧
        { t with engs := s.engs, cnt := s.cnt } = s) ∧
  (∀ (s : State) (n c pos : Nat) (w : SliceWindow) (mtpOk : Bool),
    s.settled → c ≤ 3 → s.calDone n = true → (s.conv n c).hold.findIdx? (· == w.slice) = some pos →
    (s.conv n c).degraded.contains pos = false → s.dark (convUnit n c) = none → w.clamped = false → w.saturated ≤ 100 →
    windowFails w = false →
      ∃ t : State, exec (.sliceWindowEval n c w mtpOk) s = .next t ∧ tget (t.conv n c).badWins w.slice = none ∧
        (t.conv n c).hold = (s.conv n c).hold ∧ (∀ k, k ≠ c → t.conv n k = s.conv n k) ∧ (∀ k, k ≠ n → t.eng k = s.eng k) ∧
        { t with engs := s.engs } = s)

/-- HK_SEQUENCE_SET ACTION 1 to 3 schedules a sequence, schedules its end or reads it; ACTION 4 schedules the thermal limits that are not 0.
HK_FILTER_SET schedules a setting, schedules its end or reads it. HK_READ answers the items of its source from the first named. A frame
converts the system slots and counts its conversions. The mean of a judged sensor at or above the warning limit is a warning, and no other
sensor changes; at a whole second the mean of an engine's sensor becomes the engine's temperature. -/
def Obligations.HousekeepingComplete : Prop :=
  (∀ (s : State) (q : Request) (c : Nat),
    s.takes 0x0D01 q → q.tenant = 0 → q.u 0 1 = c → c ≤ 1 → q.u 1 1 = 1 → q.len = 16 + 8 * q.u 2 1 → 1 ≤ q.u 2 1 →
    q.u 2 1 ≤ (if c = 0 then 64 else 22) → q.u 3 1 ≤ 1 → 1 ≤ q.u 4 2 → q.u 4 2 ≤ 4096 → 16 ≤ q.u 6 2 → q.u 6 2 ≤ 2048 → q.rsv 8 6 = true →
    1 ≤ q.u 14 2 → q.u 14 2 ≤ 4096 → (List.range (q.u 2 1)).all (fun i => !(hkEntryBad q i) && !((hkEntryOf q i).filtered)) = true →
    s.dark (2 + c) = none → (s.hkConv (1 - c)).latest.entries = [] →
      ∃ u : State, exec (.hkSequenceSet q) s = .next (u.answer 0x0D01 q ([0, 0, 0, 0] ++ zeros 4 ++ le 8 s.hkStart)) ∧
        (u.hkConv c).pend = (s.hkConv c).pend ++ [(s.hkStart,
          { left := q.u 3 1 == 1, owPeriod := q.u 4 2, owThresh := q.u 6 2, hyst := q.u 14 2, entries := (List.range (q.u 2 1)).map (hkEntryOf q) })]
          ∧
        (u.hkConv c).seq = (s.hkConv c).seq ∧ u.hkConv (1 - c) = s.hkConv (1 - c) ∧ u.hk.filters = s.hk.filters ∧ { u with hk := s.hk } =
          s.accepted) ∧
  (∀ (s : State) (q : Request) (c : Nat),
    s.takes 0x0D01 q → q.tenant = 0 → q.u 0 1 = c → c ≤ 1 → q.u 1 1 = 2 → q.len = 16 → q.u 2 1 = 0 → q.rsv 3 13 = true →
    s.dark (2 + c) = none →
      ∃ u : State, exec (.hkSequenceSet q) s = .next (u.answer 0x0D01 q ([0, 0, 0, 0] ++ zeros 4 ++ le 8 s.hkStart)) ∧
        (u.hkConv c).pend = (s.hkConv c).pend ++ [(s.hkStart, ({} : HkSeq))] ∧ u.hkConv (1 - c) = s.hkConv (1 - c) ∧ { u with hk := s.hk }
          = s.accepted) ∧
  (∀ (s : State) (q : Request) (c : Nat),
    s.takes 0x0D01 q → q.tenant = 0 → q.u 0 1 = c → c ≤ 1 → q.u 1 1 = 3 → q.len = 16 → q.u 2 1 = 0 → q.rsv 3 13 = true →
    s.dark (2 + c) = none →
      exec (.hkSequenceSet q) s = .next (s.accepted.answer 0x0D01 q (s.hkSeqReply c))) ∧
  (∀ (s : State) (q : Request) (c : Nat),
    s.takes 0x0D01 q → q.tenant = 0 → q.u 0 1 = c → c ≤ 1 → q.u 1 1 = 4 → q.len = 16 → q.u 2 1 = 0 → q.rsv 3 5 = true →
    q.rsv 14 2 = true → zeroOr (q.u 8 2) 500 1100 = true → zeroOr (q.u 10 2) 510 1100 = true → zeroOr (q.u 12 2) 10 100 = true →
    s.dark (2 + c) = none → (s.hkLimits q).warn < (s.hkLimits q).alarm →
      ∃ u : State, exec (.hkSequenceSet q) s = .next (u.answer 0x0D01 q ([0, 0, 0, 0] ++ zeros 4 ++ le 8 s.hkStart)) ∧
        u.hk = { s.hk with limPend := s.hk.limPend ++ [(s.hkStart, s.hkLimits q)] } ∧ { u with hk := s.hk } = s.accepted) ∧
  (∀ (s : State) (q : Request) (k : Nat) (g : HkCfg),
    s.takes 0x0D03 q → q.tenant = 0 → q.len = 8 → q.u 0 1 = k → k ≤ 31 → q.u 1 1 = 1 →
    g = { conv := q.u 2 1, entry := q.u 3 1, decim := q.u 4 1, shape := q.u 5 1 } → g.conv ≤ 1 → g.decim ≤ 10 → 1 ≤ g.shape →
    g.shape ≤ 4 → q.rsv 6 2 = true → s.dark (2 + g.conv) = none → g.entry < (s.hkConv g.conv).latest.entries.length →
    s.hkTaken g.conv g.entry k = false →
      ∃ u : State, exec (.hkFilterSet q) s = .next (u.answer 0x0D03 q ((s.hkFilter k).reply (some g))) ∧
        u.hkFilter k = { s.hkFilter k with pend := (s.hkFilter k).pend ++ [(s.hkStart, some g)] } ∧ (∀ j, j ≠ k → u.hkFilter j =
          s.hkFilter j) ∧
        u.hk.conv0 = s.hk.conv0 ∧ u.hk.conv1 = s.hk.conv1 ∧ { u with hk := s.hk } = s.accepted) ∧
  (∀ (s : State) (q : Request) (k : Nat),
    s.takes 0x0D03 q → q.tenant = 0 → q.len = 8 → q.u 0 1 = k → k ≤ 31 → 2 ≤ q.u 1 1 → q.u 1 1 ≤ 3 → q.rsv 2 6 = true → s.dark 2 = none →
      ∃ u : State, exec (.hkFilterSet q) s = .next (u.answer 0x0D03 q ((s.hkFilter k).reply (s.hkFilter k).cfg)) ∧
        (u.hkFilter k).cfg = (s.hkFilter k).cfg ∧
        (u.hkFilter k).pend = (s.hkFilter k).pend ++ (if q.u 1 1 = 2 then [(s.hkStart, none)] else []) ∧
        (∀ j, j ≠ k → u.hkFilter j = s.hkFilter j) ∧ { u with hk := s.hk } = s.accepted) ∧
  (∀ (s : State) (q : Request) (items : List (List Byte)),
    s.takes 0x0D02 q → s.tenantOn q → q.len = 4 → 1 ≤ q.u 0 1 → q.u 0 1 ≤ 3 → (q.u 0 1 = 1 → q.u 1 1 ≤ 1) → (q.u 0 1 ≠ 1 → q.u 1 1 = 0) →
    1 ≤ q.u 3 1 → q.u 3 1 ≤ 64 → (q.u 0 1 = 1 → s.dark (2 + q.u 1 1) = none) → (q.u 0 1 = 3 → s.dark 3 = none) →
    items = s.hkItems (q.u 0 1) (q.u 1 1) → q.u 2 1 < items.length →
      exec (.hkRead q) s = .next (s.accepted.answer 0x0D02 q ([0, 0] ++ le 1 ((items.drop (q.u 2 1)).take (q.u 3 1)).length ++ [0] ++
        ((items.drop (q.u 2 1)).take (q.u 3 1)).flatten))) ∧
  (∀ (s : State) (adc0 adc1 : List Int),
    s.settled → s.dark 2 = none → s.dark 3 = none → s.hk.conv0.seq.entries = [] → s.hk.conv1.seq.entries = [] → s.hk.conv0.pend = [] →
    s.hk.conv1.pend = [] → s.hk.filters = [] → s.hk.limPend = [] →
      ∃ t : State, exec (.hkFrame adc0 adc1) s = .next t ∧ t.ctr 2 0 0 = s.ctr 2 0 0 + 64 ∧ t.ctr 3 0 0 = s.ctr 3 0 0 + 64 ∧
        (∀ i, i < 42 → ∃ r : HkRes, tget t.hk.system i = some r ∧ (r.code : Int) = max 0 (min 4095 ((adc1[i]?).getD 0)) ∧ (r.ovr = true ↔
          (adc1[i]?).getD 0 < 0 ∨ 4095 < (adc1[i]?).getD 0)) ∧
        { t with hk := s.hk, cnt := s.cnt } = s ∧ { t.hk with system := s.hk.system, msSum := s.hk.msSum, sSum := s.hk.sSum } = s.hk) ∧
  (∀ (s : State) (k : Nat) (x : Int) (e : Nat × Nat),
    s.settled → k ≤ 11 → s.hk.msSum = [(k, e)] → x = sensorTenths e → s.sensorJudged k = true → s.hk.warned.contains k = false →
    s.hk.alarmed.contains k = false → s.hk.limits.warn ≤ x → x < s.hk.limits.alarm → s.since s.hk.sAt secQ = false →
      ∃ t : State, exec .hkThermalEval s = .next t ∧ t.hk = { s.hk with warned := s.hk.warned ++ [k], msSum := [] } ∧
        t.log = (s.raise islLamp .hkThermalWarn k (leS 2 x)).log ∧ { t with hk := s.hk, log := s.log, com := s.com } = s) ∧
  (∀ (s : State) (k : Nat) (e : Nat × Nat),
    s.settled → k ≤ 7 → s.hk.msSum = [] → s.hk.sSum = [(k, e)] → s.since s.hk.sAt secQ = true →
      ∃ t : State, exec .hkThermalEval s = .next t ∧ (t.eng k).cal.temp = sensorTenths e ∧ t.hk = { s.hk with sSum := [], sAt := s.mono }
        ∧
        (∀ j, j ≠ k → t.eng j = s.eng j) ∧ t.pas = s.pas ∧ t.mem = s.mem ∧ t.tab = s.tab)

/-- At the first boundary of its chamber the commit at the head of the schedule swaps: the banks are its image, the generation grows by one,
the image bank is the old one and its copy begins. An armed paired commit is left standing; one without the far end's arm is dropped, and
nothing swaps. Staging marks the commit and the image bank holds its image. The timed steps of the next chamber are issued once. When the
copy ends the image bank holds the active banks. A passage at its free chamber is gone and its closing reported; no other passage changes. -/
def Obligations.CommitRowsComplete : Prop :=
  (∀ (s : State) (c : Commit) (rest : List Commit),
    s.settled → s.tab.commits = c :: rest → chReached s.chamber c.cc = true → c.paired = none → c.staged = true → c.bad = false →
    c.changes = [] →
      ∃ t : State, exec .tableSwap s = .next t ∧ t.generation = (s.generation + 1) % 2 ^ 32 ∧ t.tab.banks = s.applyCommit s.tab.banks c ∧
        t.tab.commits = rest ∧ t.tab.copying = some c.cc ∧ t.tab.image = s.tab.banks ∧ t.tab.onB = !s.tab.onB ∧ t.mem = s.mem ∧ t.host =
          s.host ∧ t.tim = s.tim ∧ t.power = s.power ∧ t.now = s.now) ∧
  (∀ (s : State) (c : Commit) (rest : List Commit) (p : Paired),
    s.settled → s.tab.commits = c :: rest → chReached s.chamber c.cc = true → c.paired = some p → p.farArm = true → c.staged = true →
    c.bad = false → c.changes = [] → p.engine ≤ 7 →
      ∃ t : State, exec .tableSwap s = .next t ∧ t.generation = (s.generation + 1) % 2 ^ 32 ∧ t.tab.banks = s.applyCommit s.tab.banks c ∧
        t.tab.commits = rest ∧ t.tab.copying = some c.cc ∧ t.tab.image = s.tab.banks ∧ t.tab.onB = !s.tab.onB ∧ (t.eng p.engine).tx.paired
          = some c.cc ∧ t.mem = s.mem ∧ t.host = s.host ∧ t.now = s.now) ∧
  (∀ (s : State) (c : Commit) (p : Paired),
    s.settled → s.tab.commits.find? (fun c => c.paired.isSome && chReached s.chamber (chSub c.cc 2)) = some c → c.paired = some p →
    p.farArm = true → c.staged = true → c.bad = false →
      exec .pairedCommitDecide s = .next s) ∧
  (∀ (s : State) (c : Commit) (p : Paired),
    s.settled → s.tab.commits.find? (fun c => c.paired.isSome && chReached s.chamber (chSub c.cc 2)) = some c → c.paired = some p →
    p.farArm = false → c.changes = [] → (s.eng p.engine).rx.useCc = none →
      ∃ t : State, exec .pairedCommitDecide s = .next t ∧ t.tab =
        { s.tab with commits := s.tab.commits.filter fun x => x.cc != c.cc, image := s.tab.banks } ∧
        t.log = (s.raise (islEng p.engine) .tableCommitAborted (islEng p.engine) (le 6 c.cc ++ le 1 1)).log ∧
        { t with tab := s.tab, log := s.log, com := s.com } = s) ∧
  (∀ (s : State) (c : Commit),
    s.settled →
    s.tab.commits.find? (fun c => !c.staged && decide (3 ≤ chAhead c.cc s.chamber) && decide (chAhead c.cc s.chamber ≤ 48)) = some c →
      ∃ t : State, exec (.commitStaging none) s = .next t ∧
        t.tab.commits = (s.tab.commits.map fun x => if x.cc = c.cc then { x with staged := true, bad := false } else x) ∧ t.tab.banks =
          s.tab.banks ∧
        t.tab.image = s.imageAt c.cc ∧ { t with tab := s.tab } = s) ∧
  (∀ (s : State) (ch : Nat),
    s.settled → ch = chAdd s.chamber 1 → s.tab.issued ≠ some ch → s.tab.banks = [] → s.tab.commits = [] →
      exec (.timedStepIssue []) s = .next { s with tab := { s.tab with issued := some ch, skipped := [] } }) ∧
  (∀ (s : State) (errs : List (Nat × Nat × Nat)),
    s.settled → s.tab.issued ≠ some (chAdd s.chamber 1) →
      ∃ t : State, exec (.timedStepIssue errs) s = .next t ∧ t.tab.issued = some (chAdd s.chamber 1) ∧ t.tab.banks = s.tab.banks ∧
        t.engs = s.engs ∧ t.pas = s.pas ∧ t.mem.insts = s.mem.insts ∧ t.now = s.now ∧ t.generation = s.generation) ∧
  (∀ (s : State) (cc : Nat),
    s.settled → s.tab.copying = some cc → s.com.received = [] →
      exec .imageBankCopy s = .next { s with tab := { s.tab with copying := none, image := s.tab.banks } }) ∧
  (∀ (s : State) (id f : Nat) (p : Passage),
    s.settled → tget s.pas id = some p → p.st = 3 → p.free = some f → chReached s.chamber f = true → s.com.revoking = [] →
      ∃ t : State, exec (.passageFree id) s = .next t ∧ tget t.pas id = none ∧ (∀ k, k ≠ id → tget t.pas k = tget s.pas k) ∧
        t.log = (s.raise islFab .passageClosed id (le 1 p.reason ++ le 4 (satN 4 p.late))).log ∧ t.tab.banks = s.tab.banks ∧ t.engs =
          s.engs ∧
        t.mem = s.mem ∧ t.host = s.host)

/-- A frame of a chamber is laid out from the header, the groups' blocks, the tag entries and the management bytes that the rules compute. A
good marker in frame lock is stamped and names the far end; the second bad marker in a row ends frame lock, and RDI is sent. A decoded
codeword is counted with the bits it corrected and its place in the stream moves on; an uncorrectable one, a failed check or an error of
engine memory, is noted with its place and lengthens the run, and the eighth is FEC signal failure. Light below the threshold is a loss
that freezes the receive state; light above the clear threshold ends it; the frozen state expires after a second. No other engine changes. -/
def Obligations.LineRowsComplete : Prop :=
  (∀ (s : State) (n : Nat),
    s.settled → (s.eng n).tx.runs = true → (s.eng n).cfg.mode = 1 → (s.eng n).mp.role ≠ 2 → (s.eng n).tx.prof ≠ [] →
    (s.eng n).tx.header = [] →
      ∃ t : State, exec (.lineFrameSend n) s = .next t ∧ (t.eng n).tx.header = s.headerWords n s.chamber ∧
        (t.eng n).tx.frame = (s.eng n).cfg.frameOf (s.eng n).tx.prof s.chamber (s.headerWords n s.chamber) (s.groupsOut n) (s.tagEntries n
          s.chamber) (sendMgmt (8 * (s.eng n).cfg.mgmtWords (s.eng n).tx.prof) (s.eng n).tx.mgmtQ).2.1 ∧
        (t.eng n).rx = (s.eng n).rx ∧
        t.ctr (engUnit n 0) 0 0 = s.ctr (engUnit n 0) 0 0 + BitVec.ofNat 64 (2 * (s.eng n).cfg.symRate) ∧ (∀ k, k ≠ n → t.eng k = s.eng k)
          ∧
        { t with engs := s.engs, cnt := s.cnt, freeCtr := s.freeCtr } = s) ∧
  (∀ (s : State) (n ch : Nat) (f : LineFrame) (ws : List Nat) (bad : List (Nat × Nat)),
    s.settled → (s.eng n).tx.runs = true → (s.eng n).rx.lock = true → (s.eng n).rx.los = false → (s.eng n).mp.role ≠ 1 →
    (s.eng n).cfg.mode = 1 → (s.eng n).rx.frame = true → bad = (s.eng n).rx.lostRanges f.pos f.bits.len →
    frameHeader f.bits bad = some ws → ch = hbits ws 0 0 48 → s.markerBad n f bad = none →
      ∃ t : State, exec (.lineFrameReceive n f) s = .next t ∧ (t.eng n).rx.marker = some ch ∧
        (t.eng n).rx.expect = some (chAdd ch 1, f.pos + (s.eng n).cfg.frameBitsAt ((s.eng n).rx.profOf ch) ch) ∧
        (t.eng n).rx.stamps.head? = some (ch, f.arrival) ∧ (t.eng n).rx.frame = true ∧
        (t.eng n).rx.farNode = hbits ws 1 48 16 ∧ (t.eng n).rx.farRdi = (hbits ws 1 40 1 == 1) ∧ (t.eng n).rx.farEpoch = some (hbits ws 2
          16 48) ∧
        (t.eng n).rx.bers = (f.ber :: (s.eng n).rx.bers).take 8192 ∧ (t.eng n).cfg = (s.eng n).cfg ∧ (∀ k, k ≠ n → t.eng k = s.eng k) ∧
        t.mem = s.mem ∧ t.host = s.host ∧ t.ul = s.ul) ∧
  (∀ (s : State) (n cause : Nat) (f : LineFrame),
    s.settled → n ≤ 7 → (s.eng n).tx.runs = true → (s.eng n).rx.lock = true → (s.eng n).rx.los = false → (s.eng n).mp.role ≠ 1 →
    (s.eng n).rx.frame = true → (s.eng n).rx.badRun = 1 → s.markerBad n f ((s.eng n).rx.lostRanges f.pos f.bits.len) = some cause →
      ∃ t : State, exec (.lineFrameReceive n f) s = .next t ∧ (t.eng n).rx.frame = false ∧ (t.eng n).rx.marker = none ∧ (t.eng n).tx.rdi =
        true ∧
        t.ctr (engUnit n 3) 0 0 = s.ctr (engUnit n 3) 0 0 + 1 ∧ t.ctr (engUnit n 3) 0 1 = s.ctr (engUnit n 3) 0 1 + 1 ∧
        (∀ k, k ≠ n → t.eng k = s.eng k) ∧ t.mem = s.mem ∧ t.tab = s.tab ∧ t.host = s.host ∧ t.ul = s.ul ∧ t.tim = s.tim) ∧
  (∀ (s : State) (n corrected iters : Nat),
    s.settled → (s.eng n).tx.runs = true → (s.eng n).rx.lock = true → (s.eng n).mp.role ≠ 1 → (s.eng n).cfg.mode = 1 →
    (s.eng n).rx.memBad = false → (s.eng n).rx.fecSf = false →
      ∃ t : State, exec (.fecCodewordDecode n false corrected iters) s = .next t ∧
        t.ctr (engUnit n 2) 0 0 = s.ctr (engUnit n 2) 0 0 + 1 ∧ t.ctr (engUnit n 2) 0 2 = s.ctr (engUnit n 2) 0 2 + BitVec.ofNat 64
          corrected ∧
        t.ctr (engUnit n 2) 0 1 = s.ctr (engUnit n 2) 0 1 ∧
        t.ctr (engUnit n 1) 0 5 = s.ctr (engUnit n 1) 0 5 + BitVec.ofNat 64 ((s.eng n).rx.takeCodeword (s.eng n).cfg).2 ∧
        (t.eng n).rx = { ((s.eng n).rx.takeCodeword (s.eng n).cfg).1 with memBad := false, fecRun := 0 } ∧
        (t.eng n).rx.cwAt = (s.eng n).rx.codewordEnd (s.eng n).cfg ∧
        (∀ k, k ≠ n → t.eng k = s.eng k) ∧ { t with engs := s.engs, cnt := s.cnt } = s) ∧
  (∀ (s : State) (n corrected iters : Nat) (failed : Bool),
    s.settled → n ≤ 7 → (s.eng n).tx.runs = true → (s.eng n).rx.lock = true → (s.eng n).mp.role ≠ 1 → (s.eng n).cfg.mode = 1 →
    (failed = true ∨ (s.eng n).rx.memBad = true) →
      ∃ t : State, exec (.fecCodewordDecode n failed corrected iters) s = .next t ∧
        t.ctr (engUnit n 2) 0 0 = s.ctr (engUnit n 2) 0 0 + 1 ∧ t.ctr (engUnit n 2) 0 1 = s.ctr (engUnit n 2) 0 1 + 1 ∧
        (t.eng n).rx.cwBad = (s.eng n).rx.cwBad ++ [((s.eng n).rx.cwAt, (s.eng n).rx.codewordEnd (s.eng n).cfg - (s.eng n).rx.cwAt)] ∧
        (t.eng n).rx.fecRun = (s.eng n).rx.fecRun + 1 ∧ (t.eng n).rx.fecBad = true ∧ (t.eng n).rx.memBad = false ∧
        ((t.eng n).rx.fecSf = true ↔ (s.eng n).rx.fecSf = true ∨ (s.eng n).rx.fecRun = 7) ∧ (∀ k, k ≠ n → t.eng k = s.eng k) ∧ t.mem =
          s.mem ∧
        t.tab = s.tab) ∧
  (∀ (s : State) (n corrected iters : Nat),
    s.settled → (s.eng n).tx.runs = true → (s.eng n).rx.lock = true → (s.eng n).mp.role ≠ 1 → (s.eng n).cfg.mode = 2 →
    (s.eng n).rx.memBad = false → (s.eng n).rx.fecSf = false →
      ∃ t : State, exec (.fecCodewordDecode n false corrected iters) s = .next t ∧ t.ctr (engUnit n 2) 0 0 = s.ctr (engUnit n 2) 0 0 + 1 ∧
        (t.eng n).rx = { (s.eng n).rx with
        memBad := false, fecRun := 0, cwAt := (s.eng n).rx.cwAt + codeK (s.eng n).cfg.code, dsp := { (s.eng n).rx.dsp with soft := [] }
          } ∧
        (∀ k, k ≠ n → t.eng k = s.eng k) ∧ { t with engs := s.engs, cnt := s.cnt } = s) ∧
  (∀ (s : State) (n mv : Nat),
    s.settled → n ≤ 7 → (s.eng n).rx.los = false → mv < (s.eng n).pwr.losSetMv → s.dark (engUnit n 7) = none →
      ∃ t : State, exec (.lineLos n mv) s = .next t ∧ (t.eng n).rx.los = true ∧ (t.eng n).rx.losMv = mv ∧ (t.eng n).rx.frozenAt = some
        s.mono ∧ (t.eng n).rx.acq = none ∧
        (t.eng n).rx.frame = false ∧ t.ctr (engUnit n 7) 0 0 = s.ctr (engUnit n 7) 0 0 + 1 ∧ (16 + n) ∉ t.tim.present ∧
        (∀ k, k ≠ n → t.eng k = s.eng k) ∧ t.mem = s.mem ∧ t.tab = s.tab ∧ t.host = s.host) ∧
  (∀ (s : State) (n mv : Nat),
    s.settled → n ≤ 7 → (s.eng n).rx.los = true → (s.eng n).pwr.losClearMv < mv → s.dark (engUnit n 7) = none →
      ∃ t : State, exec (.lineLosClear n mv) s = .next t ∧ (t.eng n).rx = { (s.eng n).rx with
        los := false, losMv := mv, acqAt := s.mono, tryAt := s.mono, duty := if (s.eng n).tx.runs then 512 else 0, inRange := false
          } ∧ (t.eng n).tx = (s.eng n).tx ∧
        (∀ k, k ≠ n → t.eng k = s.eng k) ∧ t.mem = s.mem ∧ t.tab = s.tab ∧ t.host = s.host ∧ t.tim = s.tim ∧ t.cnt = s.cnt) ∧
  (∀ (s : State) (n a : Nat),
    s.settled → (s.eng n).rx.frozenAt = some a → s.since a secQ = true →
      ∃ t : State, exec (.frozenStateExpiry n) s = .next t ∧ (t.eng n).rx = { (s.eng n).rx with frozenAt := none } ∧ (∀ k, k ≠ n → t.eng k
        = s.eng k) ∧
        { t with engs := s.engs } = s)

/-- Gain control moves the duty by at most 64 before the target range was reached and by at most 1 afterwards. An acquisition is warm while
the frozen state lives, and cold otherwise; it fails 50 ms after its reference, a warm one turns cold after 1 ms. A lock ends the
acquisition and a cold one sets the dispersion within the span; a lock lost is counted. A window of 78 125 chambers is used only where no
light or frame was lost. A dispersion beyond the span is held at its limit until it has been within for a second. A clamp counts as it
engages. A front-end correction follows its adaptation within its limit, and one at its limit for a second is reported once. First use of
the profile already in force is done. No other engine changes. -/
def Obligations.ReceiveRowsComplete : Prop :=
  (∀ (s : State) (n : Nat) (inputs : List (List Int)) (want : Int),
    s.settled → (s.eng n).tx.runs = true → (s.eng n).rx.los = false → (s.eng n).rx.ovr = false → (s.eng n).rx.duty ≤ 1023 →
      ∃ t : State, exec (.agcUpdate n inputs want) s = .next t ∧ (t.eng n).rx.rms = ((s.digitise n inputs).1.eng n).rx.rms ∧
        ((t.eng n).rx.inRange = true ↔ (s.eng n).rx.inRange = true ∨ (250 ≤ (t.eng n).rx.rms ∧ (t.eng n).rx.rms ≤ 314)) ∧ (t.eng
          n).rx.duty ≤ 1023 ∧
        ((t.eng n).rx.duty : Int) ≤ (s.eng n).rx.duty + (if (t.eng n).rx.inRange then 1 else 64) ∧
        ((s.eng n).rx.duty : Int) ≤ (t.eng n).rx.duty + (if (t.eng n).rx.inRange then 1 else 64) ∧ (t.eng n).tx = (s.eng n).tx ∧
        (∀ k, k ≠ n → t.eng k = s.eng k) ∧ { t with engs := s.engs, cnt := s.cnt, jobs := s.jobs } = s) ∧
  (∀ (s : State) (n : Nat),
    s.settled → (s.eng n).tx.runs = true → (s.eng n).rx.los = false → (s.eng n).rx.lock = false → (s.eng n).rx.acq = none →
      ∃ t : State, exec (.rxAcquisitionStart n) s = .next t ∧
        ((t.eng n).rx.acq = some false ↔ ∃ a, (s.eng n).rx.frozenAt = some a ∧ s.since a secQ = false) ∧ (t.eng n).rx.acq.isSome = true ∧
        (∀ k, k ≠ n → t.eng k = s.eng k) ∧ { t with engs := s.engs, cnt := s.cnt } = s) ∧
  (∀ (s : State) (n skip : Nat) (probes : List PilotProbe) (cold : Bool) (d : Int),
    s.settled → (s.eng n).rx.acq = some cold → (s.eng n).rx.los = false → (s.eng n).mp.role ≠ 1 →
    (cold = false ∨ d.natAbs ≤ (s.eng n).cfg.dspan) →
      ∃ t : State, exec (.rxLock n probes d skip) s = .next t ∧ (t.eng n).rx.lock = true ∧ (t.eng n).rx.acq = none ∧
        (t.eng n).rx.mirrorX = mirrored probes 0 ∧ (t.eng n).rx.mirrorY = mirrored probes 1 ∧ (t.eng n).rx.frozenAt = none ∧
        (t.eng n).rx.dSet = (if cold then d else (s.eng n).rx.dSet) ∧ (t.eng n).rx.dsp = (s.eng n).rx.dsp.lockOn probes skip ∧
        (t.eng n).tx = (s.eng n).tx ∧ (16 + n) ∈ t.tim.present ∧ (∀ k, k ≠ n → t.eng k = s.eng k) ∧ t.pas = s.pas ∧ t.mem = s.mem ∧ t.tab
          = s.tab) ∧
  (∀ (s : State) (n skip : Nat) (probes : List PilotProbe) (d : Int),
    s.settled → (s.eng n).rx.acq = some true → (s.eng n).mp.role ≠ 1 → (s.eng n).cfg.dspan < d.natAbs →
      exec (.rxLock n probes d skip) s = .next s) ∧
  (∀ (s : State) (n cause : Nat) (met : List Nat),
    s.settled → cause = unmetStep ((met.filter fun k => k != 1) ++ (if (s.eng n).rx.inRange then [1] else [])) →
    (s.eng n).rx.acq = some true → s.since (s.eng n).rx.tryAt (50 * msQ) = true →
      ∃ t : State, exec (.rxAcqFail n met) s = .next t ∧ (t.eng n).rx = { (s.eng n).rx with
        acqFailed := true, tryAt := s.mono, dsp :=
          { (s.eng n).rx.dsp with subs := (RxDsp.start (s.eng n).cfg.carriers).subs, clock := 0, freq := 0 } } ∧
        t.ctr (engUnit n 1) 0 1 = s.ctr (engUnit n 1) 0 1 + 1 ∧
        t.log = (if (s.eng n).rx.acqFailed then s.log else (s.raise (islEng n) .rxAcqFail n (le 1 cause)).log) ∧
        (∀ k, k ≠ n → t.eng k = s.eng k) ∧ { t with engs := s.engs, cnt := s.cnt, log := s.log, com := s.com } = s) ∧
  (∀ (s : State) (n : Nat),
    s.settled → (s.eng n).rx.acq = some false → s.since (s.eng n).rx.tryAt msQ = true →
      ∃ t : State, exec (.warmAcquisitionTimeout n) s = .next t ∧ (t.eng n).rx = { (s.eng n).rx with
        acq := some true, dsp := { (s.eng n).rx.dsp with subs := (RxDsp.start (s.eng n).cfg.carriers).subs, clock := 0, freq := 0 } } ∧
        t.ctr (engUnit n 1) 0 1 = s.ctr (engUnit n 1) 0 1 + 1 ∧ (∀ k, k ≠ n → t.eng k = s.eng k) ∧ { t with engs := s.engs, cnt := s.cnt }
          = s) ∧
  (∀ (s : State) (n cause : Nat),
    s.settled → n ≤ 7 → (s.eng n).rx.lock = true →
      ∃ t : State, exec (.rxLockLost n cause) s = .next t ∧ (t.eng n).rx.lock = false ∧ (t.eng n).rx.acq = none ∧ (t.eng n).rx.frame =
        false ∧
        t.ctr (engUnit n 1) 0 3 = s.ctr (engUnit n 1) 0 3 + 1 ∧ (16 + n) ∉ t.tim.present ∧ (∀ k, k ≠ n → t.eng k = s.eng k) ∧ t.mem =
          s.mem ∧
        t.tab = s.tab ∧ t.host = s.host) ∧
  (∀ (s : State) (n c : Nat),
    s.settled → (s.eng n).rx.winStart = some c → chReached s.chamber (chAdd c 78125) = true →
      ∃ t : State, exec (.snrWindowEnd n) s = .next t ∧ (t.eng n).rx.winStart = some (chAdd c 78125) ∧
        (t.eng n).rx.window = (if (s.eng n).rx.winBad = false ∧ (s.eng n).rx.frame = true ∧ (s.eng n).rx.los = false then some (chAdd c
          78124, (s.eng n).rx.dsp.subs.map fun u => snrOf u.noise) else (s.eng n).rx.window) ∧
        (t.eng n).rx.lock = (s.eng n).rx.lock ∧ (t.eng n).tx = (s.eng n).tx ∧ (∀ k, k ≠ n → t.eng k = s.eng k) ∧ { t with engs := s.engs }
          = s) ∧
  (∀ (s : State) (n : Nat) (ch : Nat) (snrs : List Int),
    s.settled → (s.eng n).rx.use = 3 → (s.eng n).rx.useCc = none → s.farInDomain n = true → s.canSign (s.holder n) = true →
    (s.eng n).rx.window = some (ch, snrs) → (s.eng n).cfg.chooseH snrs = (s.eng n).rx.prof →
      ∃ t : State, exec (.firstUseCommit n) s = .next t ∧ (t.eng n).rx = { (s.eng n).rx with use := 5 } ∧ (t.eng n).tx = (s.eng n).tx ∧
        (∀ k, k ≠ n → t.eng k = s.eng k) ∧ { t with engs := s.engs, log := s.log, com := s.com } = s) ∧
  (∀ (s : State) (n a : Nat) (d : Int),
    s.settled → (s.eng n).rx.dEst = some d → (s.eng n).rx.dsp.cdFar = some a → s.since a (100 * msQ) = true → (s.eng n).rx.lock = true →
    (s.eng n).rx.los = false → (s.eng n).mp.role ≠ 1 → (s.eng n).rx.outSpan = false → s.tab.commits = [] → s.rawCd n = false →
    d.natAbs ≤ (s.eng n).cfg.dspan → (s.eng n).rx.cdActive ≤ 1 →
      ∃ t : State, exec (.rxCdRecentred n) s = .next t ∧ t.hasScheduled (s.earliest false) (.cdSet n (1 - (s.eng n).rx.cdActive)) ∧
        (t.eng n).rx.dSet = (s.eng n).rx.dSet ∧ (t.eng n).rx.dEst = some d ∧
        (if (s.eng n).rx.cdActive = 0 then (t.eng n).rx.cdSets.2 else (t.eng n).rx.cdSets.1) = d ∧
        t.ctr (engUnit n 1) 0 7 = s.ctr (engUnit n 1) 0 7 + 1 ∧ (∀ k, k ≠ n → t.eng k = s.eng k) ∧ t.tab.banks = s.tab.banks ∧ t.pas =
          s.pas ∧ t.mem = s.mem) ∧
  (∀ (s : State) (n : Nat) (d : Int),
    s.settled → (s.eng n).rx.dEst = some d → (s.eng n).tx.runs = true → (s.eng n).rx.los = false → (s.eng n).rx.outSpan = false →
    (s.eng n).mp.role ≠ 1 → (s.eng n).cfg.dspan < d.natAbs →
      ∃ t : State, exec (.lineCdOutOfSpan n) s = .next t ∧ (t.eng n).rx.outSpan = true ∧
        (t.eng n).rx.dSet = (if 0 ≤ d then ((s.eng n).cfg.dspan : Int) else -((s.eng n).cfg.dspan : Int)) ∧
        t.log = (s.raise (islEng n) .lineCdOutOfSpan n (leS 4 d)).log ∧ (∀ k, k ≠ n → t.eng k = s.eng k) ∧
        { t with engs := s.engs, log := s.log, com := s.com } = s) ∧
  (∀ (s : State) (n a : Nat) (d : Int),
    s.settled → (s.eng n).rx.outSpan = true → (s.eng n).rx.dEst = some d → (s.eng n).rx.dsp.cdNear = some a → s.since a secQ = true →
      ∃ t : State, exec (.lineCdInSpan n) s = .next t ∧ (t.eng n).rx = { (s.eng n).rx with outSpan := false } ∧
        t.log = (s.raise (islEng n) .lineCdInSpan n (leS 4 d)).log ∧ (∀ k, k ≠ n → t.eng k = s.eng k) ∧
        { t with engs := s.engs, log := s.log, com := s.com } = s) ∧
  (∀ (s : State) (n : Nat) (above : Nat → Bool),
    s.settled → (s.eng n).tx.runs = true → (s.eng n).rx.dsp.ovrMs.length = 4 →
    above = (fun x => decide (x * 1000 > (s.eng n).cfg.samplesPerMs)) →
      ∃ t : State, exec (.lineAdcOvr n) s = .next t ∧ (t.eng n).rx.dsp = { (s.eng n).rx.dsp with ovrMs := [0, 0, 0, 0] } ∧
        ((s.eng n).rx.dsp.ovrMs.any above = true → (t.eng n).rx.ovr = true) ∧
        ((t.eng n).rx.ovr = true → (s.eng n).rx.ovr = true ∨ (s.eng n).rx.dsp.ovrMs.any above = true) ∧
        (t.eng n).tx = (s.eng n).tx ∧ (∀ k, k ≠ n → t.eng k = s.eng k) ∧ { t with engs := s.engs, log := s.log, com := s.com } = s) ∧
  (∀ (s : State) (n lane : Nat),
    s.settled → lane ≤ 3 → (s.eng n).rx.clamps.length = 4 → (s.eng n).rx.clamps[lane]? = some false →
      ∃ t : State, exec (.adcClampEngage n lane) s = .next t ∧ (t.eng n).rx =
        { (s.eng n).rx with clamps := (s.eng n).rx.clamps.set lane true } ∧
        t.ctr (engUnit n 5) 0 (8 + lane) = s.ctr (engUnit n 5) 0 (8 + lane) + 1 ∧ (∀ k, k ≠ n → t.eng k = s.eng k) ∧
        { t with engs := s.engs, cnt := s.cnt } = s) ∧
  (∀ (s : State) (n lane : Nat),
    s.settled →
      ∃ t : State, exec (.adcClampRelease n lane) s = .next t ∧ (t.eng n).rx =
        { (s.eng n).rx with clamps := (s.eng n).rx.clamps.set lane false } ∧
        (∀ k, k ≠ n → t.eng k = s.eng k) ∧ { t with engs := s.engs } = s) ∧
  (∀ (s : State) (n what lane ms : Nat) (value : Int),
    s.settled → (s.eng n).tx.runs = true → (s.eng n).rx.los = false → 1 ≤ what → what ≤ 3 → lane ≤ 3 → frontLimit what ≤ absI value →
    1000 ≤ ms → (s.eng n).rx.limits.contains (what, lane) = false →
      ∃ t : State, exec (.rxFrontendLimit n what lane value ms) s = .next t ∧
        (t.eng n).rx = { (s.eng n).rx with
        front := tput (s.eng n).rx.front (4 * what + lane) (max (-(frontLimit what)) (min (frontLimit what) value)), limits := (s.eng
          n).rx.limits ++ [(what, lane)] } ∧
        t.log = (s.raise (islEng n) .rxFrontendLimit n (le 1 what ++ le 1 lane)).log ∧ (∀ k, k ≠ n → t.eng k = s.eng k) ∧
        { t with engs := s.engs, log := s.log, com := s.com } = s) ∧
  (∀ (s : State) (n what lane ms : Nat) (value : Int),
    s.settled → (s.eng n).tx.runs = true → (s.eng n).rx.los = false → 1 ≤ what → what ≤ 3 → lane ≤ 3 → absI value < frontLimit what →
      ∃ t : State, exec (.rxFrontendLimit n what lane value ms) s = .next t ∧
        (t.eng n).rx = { (s.eng n).rx with
        front := tput (s.eng n).rx.front (4 * what + lane) value, limits := (s.eng n).rx.limits.filter fun x => x != (what, lane) } ∧
        (∀ k, k ≠ n → t.eng k = s.eng k) ∧ { t with engs := s.engs } = s)

/-- The driver goes on LASER_SETTLE_MS after the laser, the ramp starts 1 ms after the driver, an up ramp ends at full amplitude and a down
ramp with the driver low, and 1 ms later the laser is off, and with it the pipeline of a disabled engine. A front-end value moves by one
step toward the configured value and is settled when every value has reached it. A millisecond's saturated samples are counted. A due
capture holds its instants. No other engine changes. -/
def Obligations.TransmitRowsComplete : Prop :=
  (∀ (s : State) (n : Nat),
    s.settled → (s.eng n).tx.car = .laserOn → s.since (s.eng n).tx.carAt ((s.eng n).cfg.settleMs * msQ) = true →
      ∃ t : State, exec (.carrierDriverOn n) s = .next t ∧
        (t.eng n).tx = { (s.eng n).tx with car := .driverOn, carAt := (s.eng n).tx.carAt + (s.eng n).cfg.settleMs * msQ } ∧ (t.eng n).rx =
          (s.eng n).rx ∧
        (∀ k, k ≠ n → t.eng k = s.eng k) ∧ { t with engs := s.engs } = s) ∧
  (∀ (s : State) (n : Nat),
    s.settled → (s.eng n).tx.car = .driverOn → s.since (s.eng n).tx.carAt msQ = true →
      ∃ t : State, exec (.carrierRampStart n) s = .next t ∧
        (t.eng n).tx = { (s.eng n).tx with car := .rampUp, carAt := (s.eng n).tx.carAt + msQ, carDone := 0 } ∧ (t.eng n).rx = (s.eng n).rx
          ∧
        (∀ k, k ≠ n → t.eng k = s.eng k) ∧ { t with engs := s.engs } = s) ∧
  (∀ (s : State) (n : Nat),
    s.settled → (s.eng n).tx.car = .rampUp → (s.eng n).tx.ramp * msQ ≤ (s.eng n).tx.carDone + (s.mono - (s.eng n).tx.carAt) →
      ∃ t : State, exec (.carrierRampEnd n) s = .next t ∧ (t.eng n).tx = { (s.eng n).tx with car := .full, carAt := s.mono } ∧
        t.ctr (engUnit n 0) 0 3 = s.ctr (engUnit n 0) 0 3 + 1 ∧ t.log = (s.raise (islEng n) .txRampDone n (le 1 1 ++ le 1 (s.eng
          n).tx.ramp)).log ∧
        (∀ k, k ≠ n → t.eng k = s.eng k) ∧ { t with engs := s.engs, cnt := s.cnt, log := s.log, com := s.com } = s) ∧
  (∀ (s : State) (n : Nat),
    s.settled → (s.eng n).tx.car = .rampDown → (s.eng n).tx.ramp * msQ ≤ (s.eng n).tx.carDone + (s.mono - (s.eng n).tx.carAt) →
      ∃ t : State, exec (.carrierRampEnd n) s = .next t ∧ (t.eng n).tx.car = .laserHold ∧ (t.eng n).rx = (s.eng n).rx ∧
        (∀ k, k ≠ n → t.eng k = s.eng k) ∧ { t with engs := s.engs } = s) ∧
  (∀ (s : State) (n : Nat),
    s.settled → (s.eng n).tx.car = .laserHold → s.since (s.eng n).tx.carAt msQ = true → (s.eng n).tx.enabled = true →
      ∃ t : State, exec (.carrierLaserOff n) s = .next t ∧ (t.eng n).tx = { (s.eng n).tx with car := .dark, carAt := s.mono } ∧
        t.ctr (engUnit n 0) 0 4 = s.ctr (engUnit n 0) 0 4 + 1 ∧ t.log = (s.raise (islEng n) .txRampDone n (le 1 2 ++ le 1 (s.eng
          n).tx.ramp)).log ∧
        (∀ k, k ≠ n → t.eng k = s.eng k) ∧ { t with engs := s.engs, cnt := s.cnt, log := s.log, com := s.com } = s) ∧
  (∀ (s : State) (n : Nat),
    s.settled → (s.eng n).tx.car = .laserHold → s.since (s.eng n).tx.carAt msQ = true → (s.eng n).tx.enabled = false →
      ∃ t : State, exec (.carrierLaserOff n) s = .next t ∧ (t.eng n).tx.car = .dark ∧ (t.eng n).rx = (s.eng n).rx.stopped ∧
        t.ctr (engUnit n 0) 0 4 = s.ctr (engUnit n 0) 0 4 + 1 ∧ (∀ k, k ≠ n → t.eng k = s.eng k) ∧ t.pas = s.pas ∧ t.mem = s.mem) ∧
  (∀ (s : State) (n : Nat),
    s.settled → (s.eng n).tx.enabled = true → (s.eng n).tx.settling = true →
      ∃ t : State, exec (.txFrontendStep n) s = .next t ∧ (t.eng n).tx.fe = (s.eng n).tx.fe.step (s.eng n).cfg.fe ∧
        ((t.eng n).tx.settling = false ↔ (s.eng n).tx.fe.step (s.eng n).cfg.fe = (s.eng n).cfg.fe) ∧
        ((t.eng n).tx.settling = false → t.log = (s.raise (islEng n) .txFrontendSettled n []).log) ∧ (t.eng n).rx = (s.eng n).rx ∧
        (∀ k, k ≠ n → t.eng k = s.eng k) ∧ { t with engs := s.engs, log := s.log, com := s.com } = s) ∧
  (∀ (s : State) (n : Nat),
    s.settled → (s.eng n).tx.runs = true →
      ∃ t : State, exec (.dacClipHigh n) s = .next t ∧ (t.eng n).tx.clipMs = [] ∧
        ((t.eng n).tx.clipHigh = true ↔ ∃ x ∈ (s.eng n).tx.clipMs, x * 10000 > (s.eng n).cfg.samplesPerMs) ∧ (t.eng n).rx = (s.eng n).rx ∧
        (∀ k, k ≠ n → t.eng k = s.eng k) ∧ { t with engs := s.engs, log := s.log, com := s.com } = s) ∧
  (∀ (s : State) (n m first : Nat) (j : Job) (c : Capture),
    s.settled → s.captureOf n = some j → j.work = .capture m c → c.first = none → c.full = true →
    first = (((c.got.head?).map Prod.fst).getD (c.stop.getD 0)).toNat →
      ∃ (t : State) (free : List Byte), exec (.captureTrigger n) s = .next t ∧
        free.length = (if c.tap = 1 then 4 else 8) * c.count - (c.got.flatMap Prod.snd).length ∧
        (∀ k ∈ t.jobs.list, k.token = j.token → k.work = .capture m
          { c with first := some (chAdd (s.eng n).tx.gridAt (first / chamberQ), first % chamberQ), samples := free ++ c.got.flatMap Prod.snd })
          ∧
        t.jobs.list.length = s.jobs.list.length ∧ { t with jobs := s.jobs, freeCtr := s.freeCtr } = s) ∧
  (∀ (s : State) (n m : Nat) (j : Job) (c : Capture),
    s.settled → s.captureOf n = some j → j.work = .capture m c → c.full = false →
      exec (.captureTrigger n) s = .next s)

/-- A block that arrives on a leg without a fault joins the passage that the active banks give its slot, where its chamber has room, or at a
host port where the buffer has; a full buffer drops it with PASSAGE_ADAPT_SLIP, and a port that is down delivers local fault in its place.
A draining passage discards and counts it, and a block without a passage is counted as unassigned. The oldest block that is due leaves in
the passage's egress slot, with the largest latency of the sampled blocks kept; an ACTIVE passage on a failed leg sends local fault and
counts it; a slot without a passage sends fill on an engine and local fault on a host port; a client without room keeps its block. The
selector leaves a failed leg for one that can be used, a return is committed after WTR_S clean seconds in revertive mode and happens at
the swap, and the protect leg is usable again after its skew was within budget for 10 s. No other passage changes. -/
def Obligations.BlockAndProtectRowsComplete : Prop :=
  (∀ (s : State) (a : SlotAt) (b : Block) (bad : Bool) (id : Nat) (p : Passage) (r : Route) (prot : Bool),
    s.settled → a.kind = 3 → s.route a false = some r → r.serves = some id → prot = (swLeg r.w == 1) → tget s.pas id = some p → p.st = 2 →
    s.faultOf p prot = none → p.slipCh ≠ some s.chamber → p.seenIn prot s.chamber < 100 * p.slots →
      ∃ t : State, exec (.blockIngress a (.block b bad)) s = .next t ∧
        tget t.pas id = some ((p.keep s.chamber).takeIn prot (if bad then Block.error else b) s.chamber s.chamber none s.now) ∧
        (∀ j, j ≠ id → tget t.pas j = tget s.pas j) ∧ { t with pas := s.pas } = s) ∧
  (∀ (s : State) (a : SlotAt) (b : Block) (x : Place) (id : Nat) (p : Passage) (r : Route) (o : HostPort),
    s.settled → a.kind = 1 → s.port a.index = some o → o.up = true → s.zrOf a = none → b.isData = true → x = s.rxPlace a →
    s.route (s.slotOfPlace a false x) false = some r → r.serves = some id → (swLeg r.w == 1) = false → tget s.pas id = some p → p.st = 2 →
    s.faultOf p false = none → p.slipCh ≠ some s.chamber → p.queue.length < p.capacity →
      ∃ t : State, exec (.blockIngress a (.block b false)) s = .next t ∧
        tget t.pas id = some ((p.keep s.chamber).takeIn false b s.chamber s.chamber (some x) s.now) ∧
        t.host.rxAt = tput s.host.rxAt (s.slotCode a false) x.after ∧ t.ctr (0x0B00 + a.index) 0 20 = s.ctr (0x0B00 + a.index) 0 20 + 1 ∧
        (∀ j, j ≠ id → tget t.pas j = tget s.pas j) ∧ (∀ k, k ≠ a.index → t.port k = s.port k) ∧
          { t with pas := s.pas, cnt := s.cnt, host := s.host } = s) ∧
  (∀ (s : State) (a : SlotAt) (b : Block) (id : Nat) (p : Passage) (r : Route) (o : HostPort),
    s.settled → a.kind = 1 → s.port a.index = some o → o.up = true → s.zrOf a = none → b.isData = true →
    s.route (s.slotOfPlace a false (s.rxPlace a)) false = some r → r.serves = some id → (swLeg r.w == 1) = false →
    tget s.pas id = some p → p.st = 2 → s.faultOf p false = none → p.slipCh ≠ some s.chamber → p.capacity ≤ p.queue.length →
      ∃ t : State, exec (.blockIngress a (.block b false)) s = .next t ∧
        tget t.pas id = some { p.keep s.chamber with adaptDrops := p.adaptDrops + 1 } ∧ t.host.rxAt = s.host.rxAt ∧
        t.log = (s.raise islHost .passageAdaptSlip id (le 1 1)).log ∧ t.ctr (0x0B00 + a.index) 0 20 = s.ctr (0x0B00 + a.index) 0 20 + 1 ∧
        (∀ j, j ≠ id → tget t.pas j = tget s.pas j) ∧ t.engs = s.engs ∧ t.tab = s.tab ∧ t.mem = s.mem) ∧
  (∀ (s : State) (a : SlotAt) (b : Block) (bad : Bool) (x : Place) (id : Nat) (p : Passage) (r : Route),
    s.settled → a.kind = 1 → s.ingressDown a = true → s.zrOf a = none → x = s.rxPlace a →
    s.route (s.slotOfPlace a false x) false = some r → r.serves = some id → (swLeg r.w == 1) = false → tget s.pas id = some p → p.st = 2 →
    s.faultOf p false = none → p.slipCh ≠ some s.chamber → p.queue.length < p.capacity → (s.port a.index).isSome = true →
      ∃ t : State, exec (.blockIngress a (.block b bad)) s = .next t ∧
        tget t.pas id = some ((p.keep s.chamber).takeIn false Block.localFault s.chamber s.chamber (some x) s.now) ∧
        t.host = { s.host with rxAt := tput s.host.rxAt (s.slotCode a false) x.after } ∧
        t.ctr (0x0B00 + a.index) 0 23 = s.ctr (0x0B00 + a.index) 0 23 + 1 ∧
        (∀ j, j ≠ id → tget t.pas j = tget s.pas j) ∧ { t with pas := s.pas, cnt := s.cnt, host := s.host } = s) ∧
  (∀ (s u : State) (a : SlotAt) (pam : List (List Nat)) (sent : List (Option (List Nat))) (o : HostPort) (r : PcsRx × List (Block × Bool)),
    s.settled → a.kind = 1 → s.port a.index = some o → o.up = true → o.plain = true → r = o.rxPcs.take o.rxCfg pam sent →
    u = { s with host := { s.host with ports := tmod s.host.ports a.index fun p => { p with rxPcs := r.1 } } } →
      exec (.blockIngress a (.fec pam sent)) s = .next (r.2.foldl (fun (u : State) b => u.ingress a b.1 b.2 s.chamber s.now) u)) ∧
  (∀ (s : State) (a : SlotAt) (b : Block) (bad : Bool) (id : Nat) (p : Passage) (prot : Bool),
    s.settled → a.kind = 3 → s.route a false = none → s.drainAt a false = some (id, prot) → tget s.pas id = some p →
      ∃ t : State, exec (.blockIngress a (.block b bad)) s = .next t ∧ tget t.pas id = some { p.keep s.chamber with late := p.late + 1 } ∧
        (∀ j, j ≠ id → tget t.pas j = tget s.pas j) ∧ { t with pas := s.pas } = s) ∧
  (∀ (s : State) (a : SlotAt) (b : Block) (bad : Bool),
    s.settled → a.kind = 3 → s.route a false = none → s.drainAt a false = none → (bad = true ∨ b ≠ Block.idle) →
      ∃ t : State, exec (.blockIngress a (.block b bad)) s = .next t ∧ t.ctr (engUnit a.index 3) 0 4 = s.ctr (engUnit a.index 3) 0 4 + 1 ∧
        { t with cnt := s.cnt } = s) ∧
  (∀ (s : State) (a : SlotAt) (room : Bool) (id : Nat) (p : Passage) (r : Route) (q : QBlock),
    s.settled → a.kind = 3 → s.leafCarrier (slotEndpoint a) true = none → s.route a true = some r → r.serves = some id →
    tget s.pas id = some p → p.st = 2 → p.mode = 0 → p.leg = none → s.substitutes p = false → p.ready.head? = some q →
    s.mayLeave p q = true → p.endNext = false → q.lf = false → (swLeg r.w == 1) = false → p.bridgeW = [] →
    (tgetD (s.eng a.index).tx.stage (stageKey a.sub 0xFFFF a.slot) []).length < 100 →
      ∃ t : State, exec (.blockEgress a room) s = .next t ∧
        tget t.pas id = some { (p.keep s.chamber).pop with
        endNext := false, blocksOut := p.blocksOut + 1, maxSeen := if q.first then max p.maxSeen (s.latencyOf p q) else p.maxSeen,
          inPacket := insideAfter q.b p.inPacket } ∧
        tgetD (t.eng a.index).tx.stage (stageKey a.sub 0xFFFF a.slot) [] = tgetD (s.eng a.index).tx.stage (stageKey a.sub 0xFFFF a.slot)
          [] ++ [q.b.carried] ∧
        t.log = (if q.first = true ∧ p.bound < s.latencyOf p q then (s.raise islFab .passageBoundExceeded id (le 4 (s.latencyOf p q))).log
          else s.log) ∧
        (∀ j, j ≠ id → tget t.pas j = tget s.pas j) ∧ (∀ k, k ≠ a.index → t.eng k = s.eng k) ∧
        { t with pas := s.pas, engs := s.engs, cnt := s.cnt, log := s.log, com := s.com } = s) ∧
  (∀ (s : State) (a : SlotAt) (room : Bool) (id : Nat) (p : Passage) (r : Route),
    s.settled → a.kind = 3 → s.leafCarrier (slotEndpoint a) true = none → s.route a true = some r → r.serves = some id →
    tget s.pas id = some p → p.st = 2 → p.mode = 0 → p.leg = none → (s.faultOf p p.onProt).isSome = true → p.ready = [] →
    chLater s.chamber (s.dueAfter p p.start) = true → p.bridgeW = [] → (swLeg r.w == 1) = false →
    (tgetD (s.eng a.index).tx.stage (stageKey a.sub 0xFFFF a.slot) []).length < 100 →
      ∃ t : State, exec (.blockEgress a room) s = .next t ∧
        ((tget t.pas id).map fun x => (x.subst, x.blocksOut)) = some (p.subst + 1, p.blocksOut) ∧
        tgetD (t.eng a.index).tx.stage (stageKey a.sub 0xFFFF a.slot) [] = tgetD (s.eng a.index).tx.stage (stageKey a.sub 0xFFFF a.slot)
          [] ++ [Block.localFault] ∧
        (∀ j, j ≠ id → tget t.pas j = tget s.pas j) ∧ (∀ k, k ≠ a.index → t.eng k = s.eng k) ∧
          { t with pas := s.pas, engs := s.engs, cnt := s.cnt } = s) ∧
  (∀ (s : State) (a : SlotAt) (room : Bool),
    s.settled → a.kind = 3 → s.leafCarrier (slotEndpoint a) true = none → s.route a true = none → s.drainAt a true = none →
    s.rawDrain a = none → (tgetD (s.eng a.index).tx.stage (stageKey a.sub 0xFFFF a.slot) []).length < 100 →
      ∃ t : State, exec (.blockEgress a room) s = .next t ∧
        tgetD (t.eng a.index).tx.stage (stageKey a.sub 0xFFFF a.slot) [] = tgetD (s.eng a.index).tx.stage (stageKey a.sub 0xFFFF a.slot)
          [] ++ [Block.idle] ∧
        (∀ k, k ≠ a.index → t.eng k = s.eng k) ∧ { t with engs := s.engs } = s) ∧
  (∀ (s : State) (a c : SlotAt) (room : Bool) (x : Place) (o : HostPort),
    s.settled → a.kind = 1 → s.port a.index = some o → s.zrOf a = none → s.txPlace a = some x → c = s.slotOfPlace a true x →
    s.route c true = none → s.drainAt c true = none → s.rawDrain c = none →
      ∃ t : State, exec (.blockEgress a room) s = .next t ∧ t.port a.index = some { o with pcs := o.pcs.put o.txCfg Block.localFault } ∧
        t.host.txAt = tput s.host.txAt (s.slotCode a true) x.after ∧ t.ctr (0x0B00 + a.index) 0 21 = s.ctr (0x0B00 + a.index) 0 21 + 1 ∧
        (∀ k, k ≠ a.index → t.port k = s.port k) ∧ { t with host := s.host, cnt := s.cnt } = s) ∧
  (∀ (s : State) (a : SlotAt) (room : Bool),
    s.settled → (a.kind = 1 ∨ a.kind = 2) → s.zrOf a = none → s.txPlace a = none →
      exec (.blockEgress a room) s = .next s) ∧
  (∀ (s : State) (a : SlotAt) (x : Place),
    s.settled → a.kind = 2 → s.txPlace a = some x → (s.egressNext (s.slotOfPlace a true x) false).2 ≠ Block.idle →
      exec (.blockEgress a false) s = .next s) ∧
  (∀ (s : State) (id cause : Nat) (p : Passage),
    s.settled → tget s.pas id = some p → p.st = 2 → s.faultOf p p.onProt = some cause → s.canSwitch p = true →
      ∃ t : State, exec (.protectSelect id) s = .next t ∧ ((tget t.pas id).map fun x => x.onProt) = some (!p.onProt) ∧
        (∀ j, j ≠ id → tget t.pas j = tget s.pas j) ∧ { t with pas := s.pas, log := s.log, com := s.com } = s) ∧
  (∀ (s : State) (id lead : Nat) (p : Passage),
    s.settled → tget s.pas id = some p → s.revertDue p = true → (s.tab.commits.any fun c => c.changes.contains (.revert id)) = false →
    lead = s.earliest false →
      ∃ t : State, exec (.protectRevert id) s = .next t ∧ t.hasScheduled lead (.revert id) ∧ t.tab.banks = s.tab.banks ∧
        { t with tab := s.tab } = s) ∧
  (∀ (s : State) (id : Nat) (c : Commit) (rest : List Commit) (p : Passage),
    s.settled → s.tab.commits = c :: rest → chReached s.chamber c.cc = true → c.paired = none → c.staged = true → c.bad = false →
    c.changes = [.revert id] → tget s.pas id = some p → s.revertDue p = true →
      ∃ t : State, exec .tableSwap s = .next t ∧ ((tget t.pas id).map fun x => x.onProt) = some false ∧
        t.generation = (s.generation + 1) % 2 ^ 32 ∧ t.tab.commits = rest ∧ t.mem = s.mem ∧ t.host = s.host) ∧
  (∀ (s : State) (id : Nat) (x : Int) (p : Passage),
    s.settled → tget s.pas id = some p → p.unusable = true → p.skewNs = some x → x.natAbs ≤ p.skewBudget →
    s.since p.inBudget (10 * secQ) = true →
      ∃ t : State, exec (.protectSkewClear id) s = .next t ∧ tget t.pas id = some { p.keep s.chamber with unusable := false } ∧
        (∀ j, j ≠ id → tget t.pas j = tget s.pas j) ∧ { t with pas := s.pas } = s)

/-- Once in a chamber the segment of an encrypting passage takes its blocks out of the passage buffers, is sealed under its key, IV and
additional data and waits for its egress, its tag kept for the frame and the segment counted. A tag that agrees releases the segment; a
missing entry is a tag failure, counted and reported, and what was held is released as error blocks. A retired pair that passes its
self-test is a spare again; one that fails is out of use. At their chamber the old key slots of a rebind are LOADED again. A binding that
has served 2^46 chambers is reported once. No other passage or key slot changes. -/
def Obligations.CipherRowsComplete : Prop :=
  (∀ (s : State) (id c : Nat) (p : Passage) (g : Segment),
    s.settled → tget s.pas id = some p → p.mode ≠ 0 → p.st ≠ 1 → p.slots ≠ 0 → s.dark unitKeyStore = none → p.decrypts = false →
    c = s.chamber → (s.cipPas id).sentCh ≠ some c → s.segmentDue id = true →
    (s.segmentLanes id).all (fun l => (s.lane l).badCh != some c && (s.lane l).pair.isSome && (s.lane l).start.isNone) = true →
    g = s.segmentOf id p c (s.segmentIn id p).1 →
      ∃ t : State, exec (.cipherSegment id c none) s = .next t ∧
        ((tget t.pas id).map fun y => (y.sealed, y.segTags)) = some (g.out, ((c, g.tag) :: p.segTags).take 4) ∧ (t.cipPas id).sentCh =
          some c ∧
        t.ctr unitKeyStore id 0 = s.ctr unitKeyStore id 0 + 1 ∧ (∀ j, j ≠ id → t.cipPas j = s.cipPas j) ∧
        t.cip.slots = s.cip.slots ∧ t.cip.pairs = s.cip.pairs ∧ t.cip.lanes = s.cip.lanes ∧ t.cip.keks = s.cip.keks ∧
        (∀ j, j ≠ id → tget t.pas j = tget s.pas j) ∧ { t with pas := s.pas, cip := s.cip, cnt := s.cnt, log := s.log, com := s.com } = s) ∧
  (∀ (s : State) (k step : Nat),
    s.settled → (s.pair k).st = 2 →
      ∃ t : State, exec (.cipherPairSelftestDone k (some step)) s = .next t ∧ t.pair k = { s.pair k with st := 3 } ∧
        t.log =
          { (s.raise islFab .cipherPairFailed k (le 1 step)).log with life := { s.log.life with pairFail := s.log.life.pairFail + 1 } } ∧
          (∀ j, j ≠ k → t.pair j = s.pair j) ∧ t.cip.lanes = s.cip.lanes ∧
        { t with cip := s.cip, log := s.log, com := s.com } = s) ∧
  (∀ (s : State) (k : Nat),
    s.settled → (s.pair k).st = 2 → s.cip.waiting = [] →
      ∃ t : State, exec (.cipherPairSelftestDone k none) s = .next t ∧ t.pair k = { s.pair k with st := 1 } ∧
        t.log = (s.raise islFab .cipherPairReturned k []).log ∧ (∀ j, j ≠ k → t.pair j = s.pair j) ∧ t.cip.lanes = s.cip.lanes ∧
        { t with cip := s.cip, log := s.log, com := s.com } = s) ∧
  (∀ (s : State) (k l : Nat) (rest : List Nat),
    s.settled → (s.pair k).st = 2 → s.cip.waiting = l :: rest →
      ∃ t : State, exec (.cipherPairSelftestDone k none) s = .next t ∧ t.pair k = { s.pair k with st := 0 } ∧ (t.lane l).pair = some k ∧
        (t.lane l).start = some (chAdd s.chamber 1) ∧ t.cip.waiting = rest ∧ (∀ j, j ≠ k → t.pair j = s.pair j) ∧ (∀ j, j ≠ l → t.lane j =
          s.lane j) ∧
        { t with cip := s.cip, log := s.log, com := s.com } = s) ∧
  (∀ (s : State) (id c : Nat) (p : Passage) (g : Segment),
    s.settled → tget s.pas id = some p → p.decrypts = true → (s.cipPas id).segs.find? (fun g => g.ch == c) = some g →
    s.tagOf p c = some (.entry g.tag) → g.bad = false →
      ∃ t : State, exec (.cipherTagCheck id c) s = .next t ∧
        ((tget t.pas id).map fun y => (y.tagFail, y.opened)) = some (false, p.opened ++ if p.mode = 1 then g.out.filterMap (fun x =>
          x.2.map fun q => { q with b := x.1 }) else []) ∧
        (t.cipPas id).segs = ((s.cipPas id).segs.filter fun x => x.ch != c) ∧
        t.ctr unitKeyStore id 0 = s.ctr unitKeyStore id 0 + (if p.mode = 1 then 1 else 0) ∧
        t.ctr unitKeyStore id 1 = s.ctr unitKeyStore id 1 ∧ (∀ j, j ≠ id → tget t.pas j = tget s.pas j) ∧
        { t with pas := s.pas, cip := s.cip, cnt := s.cnt } = s) ∧
  (∀ (s : State) (id c : Nat) (p : Passage) (g : Segment),
    s.settled → tget s.pas id = some p → p.decrypts = true → (s.cipPas id).segs.find? (fun g => g.ch == c) = some g →
    s.tagOf p c = some .noEntry →
      ∃ t : State, exec (.cipherTagCheck id c) s = .next t ∧ ((tget t.pas id).map fun y => y.tagFail) = some true ∧
        (p.mode = 1 → ((tget t.pas id).map fun y => y.opened) = some (p.opened ++ g.out.filterMap (fun x => x.2.map fun q =>
          { q with b := Block.error }))) ∧
        (t.cipPas id).segs = ((s.cipPas id).segs.filter fun x => x.ch != c) ∧ t.ctr unitKeyStore id 1 = s.ctr unitKeyStore id 1 + 1 ∧
        t.log = (s.raise islFab .cipherTagFail id (le 6 c ++ le 1 2)).log ∧ (∀ j, j ≠ id → tget t.pas j = tget s.pas j) ∧
        { t with pas := s.pas, cip := s.cip, cnt := s.cnt, log := s.log, com := s.com } = s) ∧
  (∀ (s : State) (id : Nat) (o : OldKey),
    s.settled → (s.cipPas id).olds = [o] → o.decrypts = false → chReached s.chamber (chAdd o.cc 1) = true →
      ∃ t : State, exec (.keySlotRelease id) s = .next t ∧ t.keySlot o.slot = { s.keySlot o.slot with st := .loaded } ∧ (t.cipPas id).olds
        = [] ∧
        (∀ k, k ≠ o.slot → t.keySlot k = s.keySlot k) ∧ { t with cip := s.cip } = s) ∧
  (∀ (s : State) (id : Nat) (o : OldKey),
    s.settled → (s.cipPas id).olds = [o] → o.decrypts = true → (o.checked = true ∨ chReached s.chamber (chAdd o.cc 4096) = true) →
      ∃ t : State, exec (.cipherRekeyed id) s = .next t ∧ t.keySlot o.slot = { s.keySlot o.slot with st := .loaded } ∧ (t.cipPas id).olds
        = [] ∧
        t.log = (s.raise islFab .cipherRekeyed id (le 2 o.slot ++ le 2 o.next)).log ∧ (∀ k, k ≠ o.slot → t.keySlot k = s.keySlot k) ∧
        { t with cip := s.cip, log := s.log, com := s.com } = s) ∧
  (∀ (s : State) (id : Nat) (p : Passage),
    s.settled → tget s.pas id = some p → p.mode ≠ 0 → p.st ≠ 1 → (s.cipPas id).aged = false →
    2 ^ 46 ≤ chAhead s.chamber ((s.cipPas id).since.getD p.start) →
      ∃ t : State, exec (.cipherKeyAge id) s = .next t ∧ t.cipPas id = { s.cipPas id with aged := true } ∧
        t.log = (s.raise islFab .cipherKeyAge id (le 2 (p.key.getD 0) ++ le 4 (s.keySlot (p.key.getD 0)).keyId)).log ∧
        (∀ j, j ≠ id → t.cipPas j = s.cipPas j) ∧ t.cip.slots = s.cip.slots ∧ { t with cip := s.cip, log := s.log, com := s.com } = s)

/-- A sync with at most SYNC_ERRORS wrong decisions in a window that HUB_WINDOW gives starts a reception; one in no window of a subcarrier
that has windows in the chamber is counted and nothing starts, and one with more wrong decisions, or on a subcarrier without a window in
the chamber, is passed over. A header whose CRC holds confirms the reception. A data burst of an ACTIVE leaf in its own window is counted
and teaches the leaf's profile. A window without a burst is counted once. An ACTIVE leaf that can send sends the data burst of its window,
a RANGING one a ranging burst in the first of its windows. No other engine changes. -/
def Obligations.BurstRowsComplete : Prop :=
  (∀ (s : State) (n sub time decisions ch w leaf : Nat) (power : Int),
    s.settled → (s.eng n).mp.role = 1 → (s.eng n).tx.runs = true → s.syncPlace n time = (ch, w) →
    syncErrors decisions ≤ ((s.eng n).mp.limits (s.windowStart ch w)).1 → s.windowLeaf n sub w ch = some leaf →
    tget (s.eng n).mp.recv sub = none →
      ∃ t : State, exec (.burstSync n sub time decisions power) s = .next t ∧
        tget (t.eng n).mp.recv sub = some { window := w, chamber := ch, power := power } ∧
        (∀ j, j ≠ sub → tget (t.eng n).mp.recv j = tget (s.eng n).mp.recv j) ∧ (t.eng n).mp.profs = (s.eng n).mp.profs ∧
        (∀ k, k ≠ n → t.eng k = s.eng k) ∧ { t with engs := s.engs } = s) ∧
  (∀ (s : State) (n sub time decisions ch w : Nat) (power : Int),
    s.settled → (s.eng n).mp.role = 1 → (s.eng n).tx.runs = true → s.syncPlace n time = (ch, w) →
    syncErrors decisions ≤ ((s.eng n).mp.limits (s.windowStart ch w)).1 → s.examined n sub ch = true → s.windowLeaf n sub w ch = none →
      ∃ t : State, exec (.burstSync n sub time decisions power) s = .next t ∧ t.ctr (engUnit n 1) 0 47 = s.ctr (engUnit n 1) 0 47 + 1 ∧
        { t with cnt := s.cnt } = s) ∧
  (∀ (s : State) (n sub time decisions ch w : Nat) (power : Int),
    s.settled → s.syncPlace n time = (ch, w) →
    (s.examined n sub ch = false ∨ ((s.eng n).mp.limits (s.windowStart ch w)).1 < syncErrors decisions) →
      exec (.burstSync n sub time decisions power) s = .next s) ∧
  (∀ (s : State) (n sub header : Nat) (r : Recept),
    s.settled → tget (s.eng n).mp.recv sub = some r → r.confirmed = false → r.cand = none → r.captured = none →
    burstCrc header = header % 65536 →
      ∃ t : State, exec (.burstHeader n sub header) s = .next t ∧
        tget (t.eng n).mp.recv sub = some { r with confirmed := true, leaf := bitsAt header 41 7, header := header, cand := none } ∧
        (∀ j, j ≠ sub → tget (t.eng n).mp.recv j = tget (s.eng n).mp.recv j) ∧ (∀ k, k ≠ n → t.eng k = s.eng k) ∧
          { t with engs := s.engs } = s) ∧
  (∀ (s : State) (n sub header : Nat) (r : Recept),
    s.settled → tget (s.eng n).mp.recv sub = some r → r.confirmed = false → r.cand = none → r.captured = none →
    burstCrc header ≠ header % 65536 →
      ∃ t : State, exec (.burstHeader n sub header) s = .next t ∧ tget (t.eng n).mp.recv sub = none ∧
        t.ctr (engUnit n 1) 0 43 = s.ctr (engUnit n 1) 0 43 + 1 ∧ (∀ k, k ≠ n → t.eng k = s.eng k) ∧
          { t with engs := s.engs, cnt := s.cnt } = s) ∧
  (∀ (s : State) (n sub leaf : Nat) (b : Burst) (r : Recept),
    s.settled → tget (s.eng n).mp.recv sub = some r → r.confirmed = true → s.windowLeaf n sub r.window r.chamber = some leaf →
    bitsAt r.header 41 7 = leaf → bitsAt r.header 38 3 = r.window → bitsAt r.header 30 4 = sub → bitsAt r.header 34 4 = r.chamber % 16 →
    bitAt r.header 21 = false → (s.leafProf n leaf).st = 2 → (s.leafProf n leaf).hMin ≤ bitsAt r.header 23 7 →
      ∃ t : State, exec (.burstDecode n sub b) s = .next t ∧ tget (t.eng n).mp.recv sub = none ∧
        (t.leafProf n leaf).ok = (s.leafProf n leaf).ok + 1 ∧ (t.leafProf n leaf).lastCh = r.chamber ∧ (t.leafProf n leaf).snr = b.snr ∧
        (t.leafProf n leaf).hLast = bitsAt r.header 23 7 ∧ (t.leafProf n leaf).missRun = 0 ∧
        t.ctr (engUnit n 1) 0 40 = s.ctr (engUnit n 1) 0 40 + 1 ∧ (∀ k, k ≠ leaf → t.leafProf n k = s.leafProf n k) ∧
        (∀ k, k ≠ n → t.eng k = s.eng k) ∧ t.mem = s.mem ∧ t.tab = s.tab) ∧
  (∀ (s : State) (n sub w ch leaf : Nat),
    s.settled → s.windowLeaf n sub w ch = some leaf → (s.eng n).mp.role = 1 → (s.leafProf n leaf).st = 1 →
    (s.leafProf n leaf).seenCh ≠ ch → chReached s.chamber ch = true → chLater (s.leafProf n leaf).seenCh ch = false →
      ∃ t : State, exec (.windowMissed n sub w ch false) s = .next t ∧ (t.leafProf n leaf).missed = (s.leafProf n leaf).missed + 1 ∧
        (t.leafProf n leaf).missRun = (s.leafProf n leaf).missRun + 1 ∧ (t.leafProf n leaf).lost = [8 * sub + w] ∧
        (t.leafProf n leaf).seenCh = ch ∧ t.ctr (engUnit n 1) 0 42 = s.ctr (engUnit n 1) 0 42 + 1 ∧
        (∀ k, k ≠ leaf → t.leafProf n k = s.leafProf n k) ∧ (∀ k, k ≠ n → t.eng k = s.eng k) ∧
          { t with engs := s.engs, cnt := s.cnt, pas := s.pas } = s) ∧
  (∀ (s : State) (n sub w ch k : Nat) (start : Int) (e : Engine) (run : Nat × Nat),
    s.settled → e = s.eng n → e.mp.role = 2 → e.tx.runs = true → e.mp.leafSt = 2 → (s.leafWindows n sub ch).contains w = true →
    e.rx.frame = true → e.rx.farEpoch = some s.epoch → e.tx.permit = true →
    start = s.chamberStart ch * 250 + ((160000 * w : Nat) : Int) - e.mp.advance → k = ((s.sentProfile n ch)[sub]?).getD 32 →
    run = e.cfg.windowRun (s.ownAt n ch) sub w →
      ∃ t : State, exec (.leafBurstSend n sub w ch) s = .next t ∧
        ((t.eng n).mp.bursts.head?).map (fun b => (b.sub, b.window, b.chamber, b.header, b.departs)) = some (sub, w, ch, burstHeaderOf
          e.mp.leafId w ch sub k e.rdiNow false, start) ∧
        ((t.eng n).mp.bursts.head?).map (fun b => b.info) = some (burstLayout (burstInfo e.cfg.code (e.cfg.windowLen.getD 0) k)
          ((List.range run.2).map fun i => s.leafTrail n e.mp.leafId (run.1 + i) ch) (sendMgmt 32 e.tx.mgmtQ).2.1 (e.tx.windowBlocks
          e.mp.leafId run.1 run.2)) ∧
        (t.eng n).mp.sent = e.mp.sent + 1 ∧ (t.eng n).mp.leafSt = 2 ∧ (∀ j, j ≠ n → t.eng j = s.eng j) ∧
          { t with engs := s.engs, cnt := s.cnt } = s) ∧
  (∀ (s : State) (n sub w ch k : Nat) (e : Engine),
    s.settled → e = s.eng n → e.mp.role = 2 → e.tx.runs = true → e.mp.leafSt = 1 → (s.leafWindows n sub ch).head? = some w →
    e.rx.frame = true → e.rx.farEpoch = some s.epoch → e.tx.permit = true → k = ((s.sentProfile n ch)[sub]?).getD 32 →
      ∃ t : State, exec (.leafBurstSend n sub w ch) s = .next t ∧
        ((t.eng n).mp.bursts.head?).map (fun b => (b.sub, b.window, b.chamber, b.header)) = some (sub, w, ch, burstHeaderOf e.mp.leafId w
          ch sub k e.rdiNow true) ∧
        ((t.eng n).mp.bursts.head?).map (fun b => b.symbols) = some (rangingSymbols sub 0 (burstHeaderOf e.mp.leafId w ch sub k e.rdiNow
          true), rangingSymbols sub 1 (burstHeaderOf e.mp.leafId w ch sub k e.rdiNow true)) ∧
        (t.eng n).mp.sent = e.mp.sent + 1 ∧ (t.eng n).mp.leafSt = 1 ∧ (∀ j, j ≠ n → t.eng j = s.eng j) ∧ { t with engs := s.engs } = s)

/-- For every command and state, a step of the state with that command at the front of its queue answers what exec answers for the command on
the state with the queue's rest. On an empty queue the step is the passage of one chamber, in which the oldest packet received executes:
that idle step is the model's choice (assumption 2). -/
def Obligations.StepRunsTheFrontCommand : Prop :=
  (∀ (s : State) (c : Instr) (cs : List Instr),
    step { s with pending := c :: cs } = exec c { s with pending := cs }) ∧
  (∀ (s : State),
    s.pending = [] →
      step s = .next s.idle) ∧
  (∀ (s : State) (nbits w : Nat),
    s.withFetchWord nbits w = s ∧ decodeTableWord nbits w = none)

/-- With PORST_N asserted the device is held in a full reset of cause POR, no guide pair runs, nothing waits; the device is a domain of one
(node 0, epoch 0, not joined), the generation is 0, T0 holds every grant and T1 to T15 are disabled, no engine is enabled, no passage,
commit, key or job exists, the log is empty with flags 0x03 and every floor 0, the scrubber has its default rates; memory lists nothing,
so that the invariants of the machine hold. -/
def Obligations.ResetHoldsTheResetValues : Prop :=
  (State.reset.pending = [] ∧ State.reset.boot.asserted = true ∧ State.reset.boot.full = true ∧ State.reset.boot.cause = 1 ∧
        State.reset.serving = false ∧ State.reset.guide.active = none ∧ State.reset.com.received = [] ∧ State.reset.node = 0 ∧
          State.reset.epoch = 0 ∧
        State.reset.tim.joined = false ∧ State.reset.generation = 0 ∧ State.reset.policy 0 = policyT0 ∧
        (∀ k, k < 15 → (State.reset.policy (k + 1)).enabled = false) ∧ (∀ n, n < 8 → State.reset.enabled n = false) ∧ State.reset.pas = []
          ∧
        State.reset.tab.commits = [] ∧ State.reset.jobs.list = [] ∧ State.reset.jobs.next = 1 ∧ State.reset.log.evtWr = 0 ∧
          State.reset.log.evtRd = 0 ∧
        State.reset.log.keepNewest = true ∧ State.reset.log.spillEn = true ∧ State.reset.log.floor = 0 ∧ State.reset.mem.scrubFlags = 7 ∧
        State.reset.mem.passMin = 240 ∧ State.reset.mem.mibPerMin = 1024 ∧ State.reset.mem.leakMs = 1000 ∧ State.reset.mem.level = 64) ∧
  (State.reset.safe ∧ State.reset.runningJobs.length ≤ 32 ∧ State.reset.log.unread ≤ 65536)

/-- From every state whatever, reachable or not, and for every command at the front of the queue or none, a step answers a next state, never a
fault or a refusal; after a command, no response waits to leave as a domain message, and neither does one after an idle step. -/
def Obligations.EveryStepAnswers : Prop :=
  ∀ (s : State),
    ∃ t : State, step s = .next t ∧ t.settled

/-- While a guide pair serves, GET_VARIANT with a payload of any length but zero answers the short response BAD_LENGTH and changes nothing
else; with no payload it answers STATUS OK with the layout of Table 0.5 on the tenant page of any enabled tenant. -/
def Obligations.VariantTakesAnEmptyRequest : Prop :=
  (∀ (s : State) (q : Request),
    s.serving = true → q.len ≠ 0 →
      exec (.getVariant q) s = .next (s.answer 0x0102 q [0x12, 0, 0, 0])) ∧
  (∀ (s : State) (q : Request) (n : Nat),
    s.serving = true → s.boot.recovery = false → q.via = .ring n → q.tenant = n → s.tenantOn q → q.len = 0 →
      ∃ (u : State) (p : List Byte), exec (.getVariant q) s = .next (u.answer 0x0102 q p) ∧ u = s.accepted ∧
        p = le 1 0 ++ le 1 s.variant.engineCount ++ le 1 s.variant.engineMask ++ le 1 (bit s.variant.cipher + 2 * bit s.variant.bond64 + 4
          * bit s.variant.safeMode + 8 * bit s.variant.fuseValid) ++ s.variant.partNumber ++ le 2 (if s.variant.bond64 then 64 else 128)
          ++ le 2 (if s.variant.cipher then 64 * s.variant.engineCount else 0) ++ le 1 (if s.variant.cipher then 32 else 0) ++ le 1
          s.variant.dieStep ++ zeros 2)

/-- For every domain epoch (a whole number of TAI seconds) and every domain time t, in quarter-nanoseconds, the chamber of t is n exactly
while t lies from epoch + n x 1 280 ns up to, but not including, epoch + (n + 1) x 1 280 ns, for every n below 2^48. -/
def Obligations.ChambersFollowDomainTime : Prop :=
  (∀ (epoch t n : Nat),
    n < 2 ^ 48 → epoch * 4000000000 + n * (4 * 1280) ≤ t → t < epoch * 4000000000 + (n + 1) * (4 * 1280) →
      chamberOf epoch t = n) ∧
  (∀ (epoch t : Nat),
    epoch * 4000000000 ≤ t → t < epoch * 4000000000 + 2 ^ 48 * (4 * 1280) →
      epoch * 4000000000 + chamberOf epoch t * (4 * 1280) ≤ t ∧ t < epoch * 4000000000 + (chamberOf epoch t + 1) * (4 * 1280)) ∧
  (∀ (s : State),
    s.chamber = chamberOf s.epoch s.now)

/-- Every chamber number is below 2^48; the one after 0xFFFF_FFFF_FFFF is 0, and 2^48 chambers, 360 287 970 s or about 11.4 years, bring the
same number back; chamber a is later than chamber b exactly when (a - b) modulo 2^48 lies between 1 and 2^47 - 1. -/
def Obligations.ChamberNumbersWrap : Prop :=
  (∀ (epoch t : Nat),
    chamberOf epoch t < 2 ^ 48 ∧ chamberOf epoch (t + 2 ^ 48 * chamberQ) = chamberOf epoch t) ∧
  (∀ (a b : Nat),
    (chLater a b = true ↔ 1 ≤ ((a : Int) - b) % 2 ^ 48 ∧ ((a : Int) - b) % 2 ^ 48 ≤ 2 ^ 47 - 1)) ∧
  (∀ (a n : Nat),
    chAdd a n < 2 ^ 48 ∧ chAdd 0xFFFFFFFFFFFF 1 = 0 ∧ chAdd a (n + 2 ^ 48) = chAdd a n ∧ 2 ^ 48 * chamberQ / secQ = 360287970)

/-- Commands of every family with their opcodes, each carrying the request `q`. -/
def familyCommands (q : Request) : List (Nat × Instr) :=
  [(0x0101, .getInfo q), (0x0102, .getVariant q), (0x0103, .jobStatus q), (0x0104, .jobCancel q), (0x0105, .setTenantPolicy q),
   (0x0106, .echo q), (0x0201, .engineConfig q), (0x0202, .engineEnable q), (0x0203, .engineDisable q), (0x0206, .txRamp q),
   (0x0302, .passageClose q), (0x0303, .passageQuery q), (0x0305, .tableCommit q), (0x0307, .protectGroupSet q), (0x0402, .keyRetire q),
   (0x0403, .cipherBind q), (0x0405, .kekRotate q), (0x0502, .refStatus q), (0x0503, .loopConfig q), (0x0504, .timeSet q),
   (0x0601, .memFill q), (0x0602, .scrubConfig q), (0x0604, .pageRetire q), (0x0605, .eccStatus q), (0x0701, .eventMask q),
   (0x0704, .lifeRead q), (0x0801, .powerStateSet q), (0x0803, .driplineConfig q), (0x0805, .powerAccountRead q), (0x0901, .reset q),
   (0x0903, .fuseStatus q), (0x0A01, .ulinkConfig q), (0x0A02, .ulinkStatus q), (0x0B01, .hostPortConfig q), (0x0D02, .hkRead q),
   (0x0E01, .calPolicy q), (0x0E02, .calRun q)]

/-- While neither guide pair runs, every command is only kept among those received and unanswered, once; no response is sent and no other part
of the state changes. Named for the commands of every family; REF_CONFIG alone keeps its own order with the time words and is not named. -/
def Obligations.HeldWhileNoPairServes : Prop :=
  (∀ (s : State) (q : Request) (op : Nat) (c : Instr),
    s.settled → s.serving = false → (op, c) ∈ familyCommands q → s.com.received.any (fun x => x.op == op && x.req == q) = false →
      exec c s = .next { s with com := { s.com with received := s.com.received ++ [{ op := op, req := q }] } }) ∧
  (∀ (s : State) (q : Request) (op : Nat) (c : Instr),
    s.settled → s.serving = false → (op, c) ∈ familyCommands q → s.com.received.any (fun x => x.op == op && x.req == q) = true →
      exec c s = .next s)

/-- Commands of fixed length, each with its opcode and the length of its payload. -/
def fixedLengths (q : Request) : List (Nat × Instr × Nat) :=
  [(0x0101, .getInfo q, 0), (0x0102, .getVariant q, 0), (0x0103, .jobStatus q, 4), (0x0201, .engineConfig q, 40),
   (0x0303, .passageQuery q, 2), (0x0301, .passageOpen q, 36), (0x0305, .tableCommit q, 16), (0x0502, .refStatus q, 0),
   (0x0503, .loopConfig q, 72), (0x0504, .timeSet q, 16), (0x0602, .scrubConfig q, 16), (0x0604, .pageRetire q, 12),
   (0x0605, .eccStatus q, 4), (0x0702, .pmBinRead q, 8), (0x0704, .lifeRead q, 4), (0x0801, .powerStateSet q, 20),
   (0x0805, .powerAccountRead q, 4), (0x0901, .reset q, 8), (0x0903, .fuseStatus q, 0), (0x0A02, .ulinkStatus q, 0),
   (0x0B01, .hostPortConfig q, 20), (0x0D02, .hkRead q, 4)]

/-- While a guide pair serves, each command of fixed length named here, from any tenant on any transport, with a payload of any other length,
answers the status BAD_LENGTH followed by three zero bytes, before any other check, and changes nothing else. A PASSAGE_OPEN or
TABLE_COMMIT received behind a TABLE_WRITE that waits for a copy of banks waits too, and is answered so in its turn. -/
def Obligations.WrongLengthsGetShortResponses : Prop :=
  ∀ (s : State) (q : Request) (op n : Nat) (c : Instr),
    s.serving = true → s.behindCopy op q = false → (op, c, n) ∈ fixedLengths q → q.len ≠ n →
      exec c s = .next (s.answer op q [0x12, 0, 0, 0])

/-- Commands that only T0 may send, with their opcodes; `ok` is the outcome of an MTP write. -/
def t0Commands (q : Request) (ok : Bool) : List (Nat × Instr) :=
  [(0x0304, .tableWrite q), (0x0305, .tableCommit q), (0x0504, .timeSet q), (0x0602, .scrubConfig q), (0x0603, .memRepair q ok),
   (0x0604, .pageRetire q), (0x0701, .eventMask q), (0x0705, .leapTableSet q ok), (0x0801, .powerStateSet q), (0x0802, .perfLevelSet q),
   (0x0803, .driplineConfig q), (0x0804, .belayRelease q), (0x0901, .reset q), (0x0902, .fwUpdate q), (0x0A01, .ulinkConfig q),
   (0x0B01, .hostPortConfig q), (0x0B02, .hostTableLoad q), (0x0B03, .flexeCalendarSet q), (0x0D01, .hkSequenceSet q),
   (0x0D03, .hkFilterSet q)]

/-- Each command that only T0 may send, sent by another tenant over a transport that carries that tenant, is answered with a status other than
OK; the state of the device stays as it was, but that a command that names a dark unit records DARK_ACCESS. A TABLE_WRITE waits while
banks are copied, so it is named for when none are. -/
def Obligations.OnlyT0MayChangeTheDevice : Prop :=
  ∀ (s : State) (q : Request) (ok : Bool) (op : Nat) (c : Instr),
    s.takes op q → q.tenant ≠ 0 → s.tab.copying = none → (op, c) ∈ t0Commands q ok →
      ∃ (u : State) (p : List Byte), exec c s = .next (u.answer op q p) ∧ p.headD 0 ≠ 0 ∧
        (u = s ∨ ∃ unit why : Nat, u = s.darkAccess unit why 3 op q.tenant)

/-- The commands that only read. -/
def readCommands (q : Request) : List Instr :=
  [.getInfo q, .getVariant q, .jobStatus q, .echo q, .passageQuery q, .tableRead q, .refStatus q, .eccStatus q, .lifeRead q,
   .powerAccountRead q, .fuseStatus q, .ulinkStatus q, .hkRead q]

/-- GET_INFO, GET_VARIANT, JOB_STATUS, ECHO, PASSAGE_QUERY, TABLE_READ, REF_STATUS, ECC_STATUS, LIFE_READ, POWER_ACCOUNT_READ, FUSE_STATUS,
ULINK_STATUS and HK_READ, however they are answered, leave every part of the state as it was but the command interface that carries the
response, the journal count, a DARK_ACCESS record, the management queues that carry a response out as a domain message, and the model's
count of free values; where no domain message is due and the request came in none, those queues stay as they were too. -/
def Obligations.ReadsChangeNothing : Prop :=
  (∀ (s t : State) (q : Request) (c : Instr),
    c ∈ readCommands q → exec c s = .next t →
      { t with com := s.com, guide := { t.guide with journal := s.guide.journal }, log := s.log, freeCtr := s.freeCtr, engs := s.engs, ul := s.ul, tim := s.tim }
        = s ∧
        t.com.policies = s.com.policies ∧ t.com.scratch0 = s.com.scratch0 ∧ t.com.scratch1 = s.com.scratch1 ∧ t.com.snapshots =
          s.com.snapshots) ∧
  (∀ (s t : State) (q : Request) (c : Instr) (n : Nat),
    c ∈ readCommands q → s.settled → q.via = .ring n → exec c s = .next t →
      t.engs = s.engs ∧ t.ul = s.ul ∧ t.tim = s.tim ∧ t.settled)

/-- Every command but RESET and MULTIPOINT_CONFIG; `ok` is the outcome of an MTP write. -/
def otherCommands (q : Request) (ok : Bool) : List Instr :=
  [.getInfo q, .getVariant q, .jobStatus q, .jobCancel q, .setTenantPolicy q, .echo q, .engineConfig q, .engineEnable q, .engineDisable q,
   .bitloadSet q, .bitloadMeasure q, .txRamp q, .captureSamples q, .leafProfileSet q, .passageOpen q,
   .passageClose q, .passageQuery q, .tableWrite q, .tableCommit q, .tableRead q, .protectGroupSet q, .keyLoadWrapped q, .keyRetire q,
   .cipherBind q, .cipherUnbind q, .kekRotate q, .refConfig q, .refStatus q, .loopConfig q, .timeSet q, .domainJoin q, .memFill q,
   .scrubConfig q, .memRepair q ok, .pageRetire q, .eccStatus q, .eventMask q, .pmBinRead q, .counterSnapshot q, .lifeRead q,
   .leapTableSet q ok, .powerStateSet q, .perfLevelSet q, .driplineConfig q, .belayRelease q, .powerAccountRead q, .fwUpdate q,
   .fuseStatus q, .ulinkConfig q, .ulinkStatus q, .hostPortConfig q, .hostTableLoad q, .flexeCalendarSet q, .hkSequenceSet q,
   .hkFilterSet q, .hkRead q, .calPolicy q, .calRun q]

/-- Every command other than RESET and MULTIPOINT_CONFIG, which writes the profiles of a new hub, whatever its answer, leaves every byte of
every memory instance as it was: what a command starts (a fill, a capture, a repair, a staging) stores in the later rows of its job. Read
through the model's read of one byte. -/
def Obligations.CommandsStoreNoByte : Prop :=
  ∀ (s t : State) (q : Request) (ok : Bool) (c : Instr),
    c ∈ otherCommands q ok → exec c s = .next t →
      (∀ key addr, (t.memInst key).data.read addr = (s.memInst key).data.read addr)

/-- Recording an occurrence whose level lies below the floor of its class adds one to RECORDS_MASKED and changes nothing else: no record is
written, none is coalesced into, no drop is counted, no counter of another chapter changes, no INT_STATUS bit is set. A job whose
JOB_COMPLETE is masked still ends, with its record and JOB_END. LOG_OVERFLOW is written, whatever the floor, where the ring has room. -/
def Obligations.MaskedOccurrencesAreOnlyCounted : Prop :=
  (∀ (s : State) (time island source : Nat) (e : Ev) (payload : List Byte),
    e ≠ .logOverflow → e.severity < bitsAt s.log.floor (2 * e.cls) 2 →
      s.recordAt time island e source payload = { s with log := { s.log with masked := s.log.masked + 1 } }) ∧
  (∀ (s : State) (j : Job) (code : Nat) (out : List Byte),
    s.settled → s.job j.token = some j → j.ended = none → j.finish = some (code, out) → j.cancel = false → s.jobs.waits = [] →
    (Ev.jobComplete).severity < bitsAt s.log.floor (2 * (Ev.jobComplete).cls) 2 →
      ∃ t : State, exec (.jobComplete j.token) s = .next t ∧ t.log.masked = s.log.masked + 1 ∧ (t.page j.tenant).intStatus.getLsbD 1 =
        true ∧
        ((t.job j.token).bind fun x => x.ended.map fun e => (e.outcome, e.result)) = some (code, out)) ∧
  (∀ (s : State) (time island source : Nat) (payload : List Byte),
    s.log.unread + (recordsOf time island .logOverflow source payload).length ≤ 65536 →
      (s.recordAt time island .logOverflow source payload).log = s.log.append (recordsOf time island .logOverflow source payload))

/-- Writing an event record, reporting an overflow and a host write to EVT_RD keep the unread window within 65 536 positions from every state
that has it so; a value written to EVT_RD that lies behind the current EVT_RD or beyond EVT_WR, compared modulo 2^32, is discarded. -/
def Obligations.TheLogWindowHolds : Prop :=
  (∀ (s : State) (time island source : Nat) (e : Ev) (payload : List Byte),
    s.log.evtWr < 2 ^ 32 → s.log.evtRd < 2 ^ 32 → s.log.unread ≤ 65536 →
      (s.recordAt time island e source payload).log.unread ≤ 65536 ∧ (s.recordAt time island e source payload).log.evtWr < 2 ^ 32 ∧
        (s.recordAt time island e source payload).log.evtRd < 2 ^ 32) ∧
  (∀ (s t : State) (e : Ev) (island source : Nat) (payload : List Byte),
    s.log.evtWr < 2 ^ 32 → s.log.evtRd < 2 ^ 32 → s.log.unread ≤ 65536 → exec (.eventRecordWrite e island source payload) s = .next t →
      t.log.unread ≤ 65536) ∧
  (∀ (s t : State) (v : Reg),
    s.log.evtWr < 2 ^ 32 → s.log.evtRd < 2 ^ 32 → s.log.unread ≤ 65536 → exec (.evtRdWrite v) s = .next t →
      t.log.unread ≤ 65536 ∧ t.log.unread ≤ s.log.unread ∧
        ((v.toNat + 2 ^ 32 - s.log.evtRd) % 2 ^ 32 > s.log.unread → t.log = s.log))

/-- From every state, whatever the command and whatever its outcome, a step leaves in the queue exactly the commands behind the front one, in
their order: no command is lost, repeated, overtaken or made by the device itself. The queue is the block model's own; that packets wait
and execute in order of receipt is the specification's. -/
def Obligations.CommandsRunInOrder : Prop :=
  ∀ (s t : State),
    step s = .next t →
      t.pending = s.pending.tail

/-- From every state in which each memory instance lists its bytes at strictly rising addresses with no zero byte (what an unwritten or
invalid byte reads as), every step, whatever command it runs, leaves every memory instance in that form. -/
def Obligations.MemoryStaysCanonical : Prop :=
  ∀ (s t : State),
    s.memOk → step s = .next t →
      t.memOk

/-- From every state in which at most 32 jobs run and at most 8 of any one tenant, every step, whatever command it runs, leaves a state in
which the same holds: a command that would start one more starts none. -/
def Obligations.JobLimitsHold : Prop :=
  ∀ (s t : State),
    s.runningJobs.length ≤ 32 → (∀ n, (s.runningJobs.filter fun j => j.tenant == n).length ≤ 8) → step s = .next t →
      t.runningJobs.length ≤ 32 ∧ ∀ n, (t.runningJobs.filter fun j => j.tenant == n).length ≤ 8
end

