-- ==== Sys2Proof/Laws/Blocks.lean ====
section
/-!
SUPPORT. Lemmas about blocks, their words, tiles and lanes.
-/
namespace Sys2Proof.Laws
open Sys2Proof Sys2Proof.Machine

/-- Reversed bits fit the width. -/
theorem revBits_lt (n x : Nat) : revBits n x < 2 ^ n := by
  induction n generalizing x with
  | zero => simp [revBits]
  | succ n ih =>
    have h := ih (x / 2)
    have h2 : x % 2 * 2 ^ n ≤ 1 * 2 ^ n := Nat.mul_le_mul_right _ (by omega)
    simp only [revBits, Nat.pow_succ]
    omega

/-- The top bit comes out lowest. -/
theorem revBits_top (n z y : Nat) (hz : z < 2) (hy : y < 2 ^ n) : revBits (n + 1) (z * 2 ^ n + y) = 2 * revBits n y + z := by
  induction n generalizing y with
  | zero => obtain rfl : y = 0 := by simpa using hy
            simp [revBits]; omega
  | succ n ih =>
    have hd : (z * 2 ^ (n + 1) + y) / 2 = z * 2 ^ n + y / 2 := by
      rw [Nat.pow_succ, ← Nat.mul_assoc]; omega
    have hm : (z * 2 ^ (n + 1) + y) % 2 = y % 2 := by
      rw [Nat.pow_succ, ← Nat.mul_assoc]; omega
    rw [revBits, hd, hm, ih (y / 2) (by rw [Nat.pow_succ] at hy; omega)]
    simp only [revBits, Nat.pow_succ]
    have : y % 2 * (2 ^ n * 2) = 2 * (y % 2 * 2 ^ n) := by rw [← Nat.mul_assoc, Nat.mul_comm]
    omega

/-- Reversing twice gives the bits back. -/
theorem revBits_revBits (n x : Nat) (h : x < 2 ^ n) : revBits n (revBits n x) = x := by
  induction n generalizing x with
  | zero => simp at h; simp [revBits, h]
  | succ n ih =>
    rw [show revBits (n + 1) x = x % 2 * 2 ^ n + revBits n (x / 2) from rfl,
      revBits_top n (x % 2) _ (by omega) (revBits_lt n _), ih (x / 2) (by rw [Nat.pow_succ] at h; omega)]
    omega

/-- The word of a data block gives the block back (R183). -/
theorem dataBlock_word (b : Block) (pos : Nat) (last : Bool) (h : b.isData = true) : dataBlock (b.word pos last) = b := by
  have hs : b.sync = 1 := by simpa [Block.isData] using h
  have hr := revBits_revBits 64 b.w.toNat b.w.isLt
  cases b with
  | mk sync w => simp_all [Block.word, dataBlock, Block.isData]

/-- A frame of an Umran port has 4 096 port blocks (R628). -/
theorem portBlocks_length (port : Nat) (words : List Nat) (mgmt : List Byte) (slots : List Block) (h : 14 ≤ words.length) :
    (portBlocks port words mgmt slots).length = 4096 := by
  simp only [portBlocks, List.length_append, List.length_map, List.length_range, List.length_take, List.length_replicate]
  omega

/-- A list splits into what a test takes and what it leaves. -/
theorem filter_lengths {α : Type} (p : α → Bool) (l : List α) : (l.filter fun x => !p x).length + (l.filter p).length = l.length := by
  induction l with
  | nil => rfl
  | cons a l ih => cases h : p a <;> simp [h] <;> omega

/-- A tile has one word for each of its blocks (R184). -/
theorem tileOf_length (bs : List Block) : (tileOf bs).2.length = bs.length := by
  have h := filter_lengths (fun x : Nat × Block => x.2.isData) ((numbered bs).map fun x => (x.1, x.2.carried))
  simpa [tileOf, numbered] using h

/-- A tile delivers one block for each of its words, whatever was lost (R185, R190). -/
theorem blocksOfTile_length (lost bit : Bool) (l : List Bool) (ws : List Nat) : (blocksOfTile lost bit l ws).length = ws.length := by
  unfold blocksOfTile; split <;> simp

/-- A block that was replaced is carried as the error block, and a carried block is carried unchanged (R183). -/
theorem carried_carried (b : Block) : b.carried.carried = b.carried := by
  unfold Block.carried
  by_cases h : (b.isData || b.isControl) = true
  · simp [h]
  · rw [if_neg h]; decide

/-! The scrambler and the descrambler. -/

/-- The bits of a list of bits. -/
abbrev IsBits (l : List Nat) : Prop := ∀ b ∈ l, b < 2

/-- What the scrambler sends, the descrambler gives back, with the same register (R627). -/
theorem descram_scram (l : List Nat) (h : IsBits l) (r : Nat) :
    runBits descramBit r (runBits scramBit r l).1 = (l, (runBits scramBit r l).2) := by
  induction l generalizing r with
  | nil => rfl
  | cons b bs ih =>
    have hb : b < 2 := h b (by simp)
    have e : (scramBit r b).2 = (descramBit r (scramBit r b).1).2 := rfl
    have o : (descramBit r (scramBit r b).1).1 = b := by simp only [descramBit, scramBit]; omega
    simp only [runBits, ← e, o, ih (fun x hx => h x (by simp [hx]))]

/-- The scrambler sends bits. -/
theorem scram_bits (l : List Nat) (r : Nat) : IsBits (runBits scramBit r l).1 ∧ (runBits scramBit r l).1.length = l.length := by
  induction l generalizing r with
  | nil => simp [runBits, IsBits]
  | cons b bs ih =>
    have o : (scramBit r b).1 < 2 := by simp only [scramBit]; omega
    obtain ⟨h1, h2⟩ := ih (scramBit r b).2
    refine ⟨fun x hx => ?_, by simp [runBits, h2]⟩
    rcases List.mem_cons.mp hx with rfl | hx
    · exact o
    · exact h1 x hx

/-- The number that bits spell, the first the lowest. -/
abbrev spelled (l : List Nat) : Nat := l.foldr (fun b a => 2 * a + b % 2) 0

theorem spelled_lt (l : List Nat) : spelled l < 2 ^ l.length := by
  induction l with
  | nil => simp
  | cons b l ih => simp only [spelled, List.foldr_cons, List.length_cons, Nat.pow_succ] at ih ⊢; omega

/-- The bits of the number that bits spell are these bits. -/
theorem spelled_bits (l : List Nat) (h : IsBits l) : (List.range l.length).map (fun i => spelled l / 2 ^ i % 2) = l := by
  induction l with
  | nil => rfl
  | cons b l ih =>
    have hb : b < 2 := h b (by simp)
    have ih := ih fun x hx => h x (by simp [hx])
    rw [List.length_cons, List.range_succ_eq_map, List.map_cons, List.map_map]
    congr 1
    · simp only [spelled, List.foldr_cons, Nat.pow_zero, Nat.div_one]; omega
    · rw [← ih]
      simp only [List.length_map, List.length_range]
      refine List.map_congr_left fun i _ => ?_
      simp only [Function.comp, spelled, List.foldr_cons, Nat.pow_succ, Nat.mul_comm (2 ^ i) 2, ← Nat.div_div_eq_div_mul]
      rw [ih]
      congr 2
      omega

/-- A number's lowest bits spell it. -/
theorem spelled_range (n x : Nat) : spelled ((List.range n).map fun i => x / 2 ^ i % 2) = x % 2 ^ n := by
  induction n generalizing x with
  | zero => simp [Nat.mod_one]
  | succ n ih =>
    have h := ih (x / 2)
    rw [List.range_succ_eq_map, List.map_cons, List.map_map]
    have e : ((fun i => x / 2 ^ i % 2) ∘ Nat.succ) = fun i => x / 2 / 2 ^ i % 2 := by
      funext i; simp only [Function.comp, Nat.pow_succ, Nat.mul_comm (2 ^ i) 2, Nat.div_div_eq_div_mul]
    rw [e]
    simp only [spelled, List.foldr_cons] at h ⊢
    rw [h, Nat.pow_succ, Nat.mul_comm (2 ^ n) 2, Nat.mod_mul]
    simp only [Nat.pow_zero, Nat.div_one]
    omega

/-- A block comes back through the descrambler as it went into the scrambler, and the two registers agree (R627). -/
theorem descramble_block (r : Nat) (b : Block) :
    throughBlock descramBit r (throughBlock scramBit r b).1 = (b, (throughBlock scramBit r b).2) := by
  obtain ⟨h1, h2⟩ := scram_bits (payloadOf b) r
  have hl : (payloadOf b).length = 64 := by simp [payloadOf]
  have hb : IsBits (payloadOf b) := fun x hx => by
    simp only [payloadOf, List.mem_map] at hx; obtain ⟨i, -, rfl⟩ := hx; omega
  have hp : payloadOf { b with w := payloadFrom (runBits scramBit r (payloadOf b)).1 } = (runBits scramBit r (payloadOf b)).1 := by
    have hlt := spelled_lt (runBits scramBit r (payloadOf b)).1
    have hs := spelled_bits _ h1
    rw [h2, hl] at hs hlt
    show List.map (fun i => (payloadFrom _).toNat / 2 ^ i % 2) (List.range 64) = _
    simp only [payloadFrom, BitVec.toNat_ofNat]
    rw [show List.foldr _ 0 _ = spelled (runBits scramBit r (payloadOf b)).1 from rfl, Nat.mod_eq_of_lt hlt]
    exact hs
  have hw : payloadFrom (payloadOf b) = b.w := by
    have := spelled_range 64 b.w.toNat
    simp only [payloadFrom, payloadOf]
    rw [show (List.foldr _ 0 _) = _ from this, Nat.mod_eq_of_lt b.w.isLt]
    simp
  simp only [throughBlock, hp, descram_scram _ hb, hw]

end Sys2Proof.Laws
end

