-- ==== Sys2Proof/Laws/Serve.lean ====
section
/-!
SUPPORT. What the shared operations around a command can do: holding, judging, refusing, running and ending it.
-/
namespace Sys2Proof.Laws
open Sys2Proof.Machine

/-- A meaning whose state has nothing to send ends with that state. -/
theorem done_of_settled {s : State} (h : s.settled) : s.done = .next s := by
  have h' : ({ s with com := { s.com with relayed := [] } } : State) = s := by
    rw [← h]
  simp only [State.done, State.sendRelayed, h', show s.com.relayed = [] from h, List.foldl_nil]

/-- A meaning always ends with a next state. -/
theorem done_eq (s : State) : s.done = .next s.sendRelayed := rfl

/-- No guide pair serves: the command is held (R36). -/
theorem serve_held {s : State} {op : Nat} {q : Request} {size : Nat} {lenOk : Bool} {checks : List Check}
    {run : State → State × Option (List Byte)} {tail : List Byte} (h : s.serving = false) :
    s.serve op q size lenOk checks run tail = s.hold op q := by
  simp [State.serve, h]

/-- The transport's rule passes for a command that the device takes. -/
theorem judge_transport {s : State} {op : Nat} {q : Request} (h : s.takes op q) (cs : List Check) :
    s.judge (s.transportRule q :: cs) = s.judge cs := by
  obtain ⟨-, hi, hs, -⟩ := h
  simp only [State.transportRule, State.judge]
  cases hv : q.via <;> simp_all

/-- The transport's and the recovery service's checks pass for a command that the device takes. -/
theorem judge_gate {s : State} {op : Nat} {q : Request} (h : s.takes op q) (cs : List Check) :
    s.judge (s.gate op q ++ cs) = s.judge cs := by
  have h2 : (s.boot.recovery && q.tenant != 0) = false := by
    cases hb : s.boot.recovery <;> simp_all [State.takes]
  have h3 : (s.boot.recovery && !(recoveryOps.contains op)) = false := by
    cases hb : s.boot.recovery <;> simp_all [State.takes]
  have h4 : ∀ cs, s.judge (.bad (s.boot.recovery && q.tenant != 0) .notPermitted 0 ::
      .bad (s.boot.recovery && !(recoveryOps.contains op)) .notReady 0 :: cs) = s.judge cs := by
    intro cs; simp only [State.judge, h2, h3, Bool.false_eq_true, if_false]
  by_cases hc : op / 256 = 4 <;>
    simp only [State.gate, hc, if_true, if_false, List.nil_append, List.cons_append, judge_transport h, h4]

/-- A command that is taken and whose checks pass runs. -/
theorem serve_run {s : State} {op : Nat} {q : Request} {size : Nat} {lenOk : Bool} {checks : List Check}
    {run : State → State × Option (List Byte)} {tail : List Byte} (h : s.takes op q) (hl : lenOk = true)
    (hc : s.judge checks = none) :
    s.serve op q size lenOk checks run tail =
      match (run s.accepted).2 with
      | some p => (run s.accepted).1.respond op q p
      | none => (run s.accepted).1.defer op q := by
  have h1 : s.serving = true := h.1
  have h2 : s.judge (.len lenOk :: s.gate op q ++ checks) = none := by
    simp only [List.cons_append, State.judge, hl, if_true, judge_gate h, hc]
  have h3 : State.accepted s = { s with guide := { s.guide with journal := s.guide.journal + 1 } } := rfl
  simp only [State.serve, h1, h2, Bool.not_true, Bool.false_eq_true, if_false, ← h3] <;> cases (run s.accepted).2 <;> rfl

/-- A command that is taken and fails a check is refused with the first failure. -/
theorem serve_refuse {s : State} {op : Nat} {q : Request} {size : Nat} {checks : List Check}
    {run : State → State × Option (List Byte)} {tail : List Byte} {r : Refuse} (h : s.takes op q)
    (hc : s.judge checks = some r) :
    s.serve op q size true checks run tail = s.refuse op q size (r.fill tail) := by
  have h1 : s.serving = true := h.1
  have h2 : s.judge (.len true :: s.gate op q ++ checks) = some r := by
    simp only [List.cons_append, State.judge, if_true, judge_gate h, hc]
  simp only [State.serve, h1, h2, Bool.not_true, Bool.false_eq_true, if_false]

/-- A command of a wrong length is refused with BAD_LENGTH before anything else is checked (R16). -/
theorem serve_badLength {s : State} {op : Nat} {q : Request} {size : Nat} {checks : List Check}
    {run : State → State × Option (List Byte)} {tail : List Byte} (h : s.serving = true) :
    s.serve op q size false checks run tail = s.respond op q [0x12, 0, 0, 0] := by
  have h2 : s.judge (.len false :: s.gate op q ++ checks) = some { st := .badLength } := by
    simp only [List.cons_append, State.judge, Bool.false_eq_true, if_false]
  simp only [State.serve, h, h2, Bool.not_true, Bool.false_eq_true, if_false, State.refuse]
  cases tail <;> rfl

@[simp] theorem judge_nil (s : State) : s.judge [] = none := rfl

@[simp] theorem judge_bad (s : State) (c : Bool) (st : Status) (r : Nat) (cs : List Check) :
    s.judge (.bad c st r :: cs) = if c then some { st := st, reason := r } else s.judge cs := rfl

@[simp] theorem judge_badWith (s : State) (c : Bool) (st : Status) (r : Nat) (t : List Byte) (cs : List Check) :
    s.judge (.badWith c st r t :: cs) = if c then some { st := st, reason := r, tail := t } else s.judge cs := rfl

@[simp] theorem judge_lit (s : State) (us : List Nat) (cs : List Check) :
    s.judge (.lit us :: cs) = match s.firstDark us with
      | some d => some { st := .blockDark, darkUnit := some d }
      | none => s.judge cs := rfl

@[simp] theorem judge_present (s : State) (us : List Nat) (cs : List Check) :
    s.judge (.present us :: cs) = match s.firstAbsent us with
      | some d => some { st := .blockDark, darkUnit := some d }
      | none => s.judge cs := rfl

end Sys2Proof.Laws
end

