-- ==== Sys2Proof/Laws/State.lean ====
section
/-!
SUPPORT. One lemma per update of the state: the field it writes, and that it leaves every other field as it was.
-/
namespace Sys2Proof.Laws
open Sys2Proof.Machine

@[simp] theorem modPage_com (s : State) (n : Nat) (f : Page → Page) : (s.modPage n f).com = { s.com with pages := tput s.com.pages n (f (s.page n)) } := rfl

@[simp] theorem modPage_frame (s : State) (n : Nat) (f : Page → Page) :
    (s.modPage n f).now = s.now ∧ (s.modPage n f).epoch = s.epoch ∧ (s.modPage n f).node = s.node ∧
    (s.modPage n f).generation = s.generation ∧ (s.modPage n f).mono = s.mono ∧ (s.modPage n f).freeCtr = s.freeCtr ∧
    (s.modPage n f).variant = s.variant ∧ (s.modPage n f).jobs = s.jobs ∧ (s.modPage n f).mem = s.mem ∧
    (s.modPage n f).engs = s.engs ∧ (s.modPage n f).pas = s.pas ∧ (s.modPage n f).tab = s.tab ∧ (s.modPage n f).cip = s.cip ∧
    (s.modPage n f).host = s.host ∧ (s.modPage n f).ul = s.ul ∧ (s.modPage n f).cnt = s.cnt ∧ (s.modPage n f).tim = s.tim ∧
    (s.modPage n f).log = s.log ∧ (s.modPage n f).hk = s.hk ∧ (s.modPage n f).power = s.power ∧ (s.modPage n f).boot = s.boot ∧
    (s.modPage n f).store = s.store ∧ (s.modPage n f).guide = s.guide ∧ (s.modPage n f).tap = s.tap ∧
    (s.modPage n f).pending = s.pending := by
  and_intros <;> rfl

@[simp] theorem modEng_engs (s : State) (n : Nat) (f : Engine → Engine) : (s.modEng n f).engs = tput s.engs n (f (s.eng n)) := rfl

@[simp] theorem modEng_frame (s : State) (n : Nat) (f : Engine → Engine) :
    (s.modEng n f).now = s.now ∧ (s.modEng n f).epoch = s.epoch ∧ (s.modEng n f).node = s.node ∧
    (s.modEng n f).generation = s.generation ∧ (s.modEng n f).mono = s.mono ∧ (s.modEng n f).freeCtr = s.freeCtr ∧
    (s.modEng n f).variant = s.variant ∧ (s.modEng n f).com = s.com ∧ (s.modEng n f).jobs = s.jobs ∧ (s.modEng n f).mem = s.mem ∧
    (s.modEng n f).pas = s.pas ∧ (s.modEng n f).tab = s.tab ∧ (s.modEng n f).cip = s.cip ∧ (s.modEng n f).host = s.host ∧
    (s.modEng n f).ul = s.ul ∧ (s.modEng n f).cnt = s.cnt ∧ (s.modEng n f).tim = s.tim ∧ (s.modEng n f).log = s.log ∧
    (s.modEng n f).hk = s.hk ∧ (s.modEng n f).power = s.power ∧ (s.modEng n f).boot = s.boot ∧ (s.modEng n f).store = s.store ∧
    (s.modEng n f).guide = s.guide ∧ (s.modEng n f).tap = s.tap ∧ (s.modEng n f).pending = s.pending := by
  and_intros <;> rfl

@[simp] theorem modIsland_power (s : State) (i : Nat) (f : Island → Island) : (s.modIsland i f).power = { s.power with islands := tput s.power.islands i (f (s.island i)) } := rfl

@[simp] theorem modIsland_frame (s : State) (i : Nat) (f : Island → Island) :
    (s.modIsland i f).now = s.now ∧ (s.modIsland i f).epoch = s.epoch ∧ (s.modIsland i f).node = s.node ∧
    (s.modIsland i f).generation = s.generation ∧ (s.modIsland i f).mono = s.mono ∧ (s.modIsland i f).freeCtr = s.freeCtr ∧
    (s.modIsland i f).variant = s.variant ∧ (s.modIsland i f).com = s.com ∧ (s.modIsland i f).jobs = s.jobs ∧
    (s.modIsland i f).mem = s.mem ∧ (s.modIsland i f).engs = s.engs ∧ (s.modIsland i f).pas = s.pas ∧
    (s.modIsland i f).tab = s.tab ∧ (s.modIsland i f).cip = s.cip ∧ (s.modIsland i f).host = s.host ∧ (s.modIsland i f).ul = s.ul ∧
    (s.modIsland i f).cnt = s.cnt ∧ (s.modIsland i f).tim = s.tim ∧ (s.modIsland i f).log = s.log ∧ (s.modIsland i f).hk = s.hk ∧
    (s.modIsland i f).boot = s.boot ∧ (s.modIsland i f).store = s.store ∧ (s.modIsland i f).guide = s.guide ∧
    (s.modIsland i f).tap = s.tap ∧ (s.modIsland i f).pending = s.pending := by
  and_intros <;> rfl

@[simp] theorem modJob_jobs (s : State) (k : Nat) (f : Job → Job) : (s.modJob k f).jobs = { s.jobs with list := s.jobs.list.map fun j => if j.token = k then f j else j } := rfl

@[simp] theorem modJob_frame (s : State) (k : Nat) (f : Job → Job) :
    (s.modJob k f).now = s.now ∧ (s.modJob k f).epoch = s.epoch ∧ (s.modJob k f).node = s.node ∧
    (s.modJob k f).generation = s.generation ∧ (s.modJob k f).mono = s.mono ∧ (s.modJob k f).freeCtr = s.freeCtr ∧
    (s.modJob k f).variant = s.variant ∧ (s.modJob k f).com = s.com ∧ (s.modJob k f).mem = s.mem ∧ (s.modJob k f).engs = s.engs ∧
    (s.modJob k f).pas = s.pas ∧ (s.modJob k f).tab = s.tab ∧ (s.modJob k f).cip = s.cip ∧ (s.modJob k f).host = s.host ∧
    (s.modJob k f).ul = s.ul ∧ (s.modJob k f).cnt = s.cnt ∧ (s.modJob k f).tim = s.tim ∧ (s.modJob k f).log = s.log ∧
    (s.modJob k f).hk = s.hk ∧ (s.modJob k f).power = s.power ∧ (s.modJob k f).boot = s.boot ∧ (s.modJob k f).store = s.store ∧
    (s.modJob k f).guide = s.guide ∧ (s.modJob k f).tap = s.tap ∧ (s.modJob k f).pending = s.pending := by
  and_intros <;> rfl

@[simp] theorem modLife_log (s : State) (f : Life → Life) : (s.modLife f).log = { s.log with life := f s.log.life } := rfl

@[simp] theorem modLife_frame (s : State) (f : Life → Life) :
    (s.modLife f).now = s.now ∧ (s.modLife f).epoch = s.epoch ∧ (s.modLife f).node = s.node ∧
    (s.modLife f).generation = s.generation ∧ (s.modLife f).mono = s.mono ∧ (s.modLife f).freeCtr = s.freeCtr ∧
    (s.modLife f).variant = s.variant ∧ (s.modLife f).com = s.com ∧ (s.modLife f).jobs = s.jobs ∧ (s.modLife f).mem = s.mem ∧
    (s.modLife f).engs = s.engs ∧ (s.modLife f).pas = s.pas ∧ (s.modLife f).tab = s.tab ∧ (s.modLife f).cip = s.cip ∧
    (s.modLife f).host = s.host ∧ (s.modLife f).ul = s.ul ∧ (s.modLife f).cnt = s.cnt ∧ (s.modLife f).tim = s.tim ∧
    (s.modLife f).hk = s.hk ∧ (s.modLife f).power = s.power ∧ (s.modLife f).boot = s.boot ∧ (s.modLife f).store = s.store ∧
    (s.modLife f).guide = s.guide ∧ (s.modLife f).tap = s.tap ∧ (s.modLife f).pending = s.pending := by
  and_intros <;> rfl

@[simp] theorem modLog_log (s : State) (f : Log → Log) : (s.modLog f).log = f s.log := rfl

@[simp] theorem modLog_frame (s : State) (f : Log → Log) :
    (s.modLog f).now = s.now ∧ (s.modLog f).epoch = s.epoch ∧ (s.modLog f).node = s.node ∧ (s.modLog f).generation = s.generation ∧
    (s.modLog f).mono = s.mono ∧ (s.modLog f).freeCtr = s.freeCtr ∧ (s.modLog f).variant = s.variant ∧ (s.modLog f).com = s.com ∧
    (s.modLog f).jobs = s.jobs ∧ (s.modLog f).mem = s.mem ∧ (s.modLog f).engs = s.engs ∧ (s.modLog f).pas = s.pas ∧
    (s.modLog f).tab = s.tab ∧ (s.modLog f).cip = s.cip ∧ (s.modLog f).host = s.host ∧ (s.modLog f).ul = s.ul ∧
    (s.modLog f).cnt = s.cnt ∧ (s.modLog f).tim = s.tim ∧ (s.modLog f).hk = s.hk ∧ (s.modLog f).power = s.power ∧
    (s.modLog f).boot = s.boot ∧ (s.modLog f).store = s.store ∧ (s.modLog f).guide = s.guide ∧ (s.modLog f).tap = s.tap ∧
    (s.modLog f).pending = s.pending := by
  and_intros <;> rfl

@[simp] theorem modCip_cip (s : State) (f : Cipher → Cipher) : (s.modCip f).cip = f s.cip := rfl

@[simp] theorem modCip_frame (s : State) (f : Cipher → Cipher) :
    (s.modCip f).now = s.now ∧ (s.modCip f).epoch = s.epoch ∧ (s.modCip f).node = s.node ∧ (s.modCip f).generation = s.generation ∧
    (s.modCip f).mono = s.mono ∧ (s.modCip f).freeCtr = s.freeCtr ∧ (s.modCip f).variant = s.variant ∧ (s.modCip f).com = s.com ∧
    (s.modCip f).jobs = s.jobs ∧ (s.modCip f).mem = s.mem ∧ (s.modCip f).engs = s.engs ∧ (s.modCip f).pas = s.pas ∧
    (s.modCip f).tab = s.tab ∧ (s.modCip f).host = s.host ∧ (s.modCip f).ul = s.ul ∧ (s.modCip f).cnt = s.cnt ∧
    (s.modCip f).tim = s.tim ∧ (s.modCip f).log = s.log ∧ (s.modCip f).hk = s.hk ∧ (s.modCip f).power = s.power ∧
    (s.modCip f).boot = s.boot ∧ (s.modCip f).store = s.store ∧ (s.modCip f).guide = s.guide ∧ (s.modCip f).tap = s.tap ∧
    (s.modCip f).pending = s.pending := by
  and_intros <;> rfl

@[simp] theorem modTim_tim (s : State) (f : Timing → Timing) : (s.modTim f).tim = f s.tim := rfl

@[simp] theorem modTim_frame (s : State) (f : Timing → Timing) :
    (s.modTim f).now = s.now ∧ (s.modTim f).epoch = s.epoch ∧ (s.modTim f).node = s.node ∧ (s.modTim f).generation = s.generation ∧
    (s.modTim f).mono = s.mono ∧ (s.modTim f).freeCtr = s.freeCtr ∧ (s.modTim f).variant = s.variant ∧ (s.modTim f).com = s.com ∧
    (s.modTim f).jobs = s.jobs ∧ (s.modTim f).mem = s.mem ∧ (s.modTim f).engs = s.engs ∧ (s.modTim f).pas = s.pas ∧
    (s.modTim f).tab = s.tab ∧ (s.modTim f).cip = s.cip ∧ (s.modTim f).host = s.host ∧ (s.modTim f).ul = s.ul ∧
    (s.modTim f).cnt = s.cnt ∧ (s.modTim f).log = s.log ∧ (s.modTim f).hk = s.hk ∧ (s.modTim f).power = s.power ∧
    (s.modTim f).boot = s.boot ∧ (s.modTim f).store = s.store ∧ (s.modTim f).guide = s.guide ∧ (s.modTim f).tap = s.tap ∧
    (s.modTim f).pending = s.pending := by
  and_intros <;> rfl

@[simp] theorem modHost_host (s : State) (f : HostSide → HostSide) : (s.modHost f).host = f s.host := rfl

@[simp] theorem modHost_frame (s : State) (f : HostSide → HostSide) :
    (s.modHost f).now = s.now ∧ (s.modHost f).epoch = s.epoch ∧ (s.modHost f).node = s.node ∧
    (s.modHost f).generation = s.generation ∧ (s.modHost f).mono = s.mono ∧ (s.modHost f).freeCtr = s.freeCtr ∧
    (s.modHost f).variant = s.variant ∧ (s.modHost f).com = s.com ∧ (s.modHost f).jobs = s.jobs ∧ (s.modHost f).mem = s.mem ∧
    (s.modHost f).engs = s.engs ∧ (s.modHost f).pas = s.pas ∧ (s.modHost f).tab = s.tab ∧ (s.modHost f).cip = s.cip ∧
    (s.modHost f).ul = s.ul ∧ (s.modHost f).cnt = s.cnt ∧ (s.modHost f).tim = s.tim ∧ (s.modHost f).log = s.log ∧
    (s.modHost f).hk = s.hk ∧ (s.modHost f).power = s.power ∧ (s.modHost f).boot = s.boot ∧ (s.modHost f).store = s.store ∧
    (s.modHost f).guide = s.guide ∧ (s.modHost f).tap = s.tap ∧ (s.modHost f).pending = s.pending := by
  and_intros <;> rfl

@[simp] theorem modMem_mem (s : State) (f : Mem → Mem) : (s.modMem f).mem = f s.mem := rfl

@[simp] theorem modMem_frame (s : State) (f : Mem → Mem) :
    (s.modMem f).now = s.now ∧ (s.modMem f).epoch = s.epoch ∧ (s.modMem f).node = s.node ∧ (s.modMem f).generation = s.generation ∧
    (s.modMem f).mono = s.mono ∧ (s.modMem f).freeCtr = s.freeCtr ∧ (s.modMem f).variant = s.variant ∧ (s.modMem f).com = s.com ∧
    (s.modMem f).jobs = s.jobs ∧ (s.modMem f).engs = s.engs ∧ (s.modMem f).pas = s.pas ∧ (s.modMem f).tab = s.tab ∧
    (s.modMem f).cip = s.cip ∧ (s.modMem f).host = s.host ∧ (s.modMem f).ul = s.ul ∧ (s.modMem f).cnt = s.cnt ∧
    (s.modMem f).tim = s.tim ∧ (s.modMem f).log = s.log ∧ (s.modMem f).hk = s.hk ∧ (s.modMem f).power = s.power ∧
    (s.modMem f).boot = s.boot ∧ (s.modMem f).store = s.store ∧ (s.modMem f).guide = s.guide ∧ (s.modMem f).tap = s.tap ∧
    (s.modMem f).pending = s.pending := by
  and_intros <;> rfl

@[simp] theorem modInst_mem (s : State) (k : Nat) (f : MemInst → MemInst) : (s.modInst k f).mem = { s.mem with insts := tupd s.mem.insts k {} f } := rfl

@[simp] theorem modInst_frame (s : State) (k : Nat) (f : MemInst → MemInst) :
    (s.modInst k f).now = s.now ∧ (s.modInst k f).epoch = s.epoch ∧ (s.modInst k f).node = s.node ∧
    (s.modInst k f).generation = s.generation ∧ (s.modInst k f).mono = s.mono ∧ (s.modInst k f).freeCtr = s.freeCtr ∧
    (s.modInst k f).variant = s.variant ∧ (s.modInst k f).com = s.com ∧ (s.modInst k f).jobs = s.jobs ∧
    (s.modInst k f).engs = s.engs ∧ (s.modInst k f).pas = s.pas ∧ (s.modInst k f).tab = s.tab ∧ (s.modInst k f).cip = s.cip ∧
    (s.modInst k f).host = s.host ∧ (s.modInst k f).ul = s.ul ∧ (s.modInst k f).cnt = s.cnt ∧ (s.modInst k f).tim = s.tim ∧
    (s.modInst k f).log = s.log ∧ (s.modInst k f).hk = s.hk ∧ (s.modInst k f).power = s.power ∧ (s.modInst k f).boot = s.boot ∧
    (s.modInst k f).store = s.store ∧ (s.modInst k f).guide = s.guide ∧ (s.modInst k f).tap = s.tap ∧
    (s.modInst k f).pending = s.pending := by
  and_intros <;> rfl

@[simp] theorem modPas_pas (s : State) (k : Nat) (f : Passage → Passage) : (s.modPas k f).pas = tmod s.pas k fun p => f (p.keep s.chamber) := rfl

@[simp] theorem modPas_frame (s : State) (k : Nat) (f : Passage → Passage) :
    (s.modPas k f).now = s.now ∧ (s.modPas k f).epoch = s.epoch ∧ (s.modPas k f).node = s.node ∧
    (s.modPas k f).generation = s.generation ∧ (s.modPas k f).mono = s.mono ∧ (s.modPas k f).freeCtr = s.freeCtr ∧
    (s.modPas k f).variant = s.variant ∧ (s.modPas k f).com = s.com ∧ (s.modPas k f).jobs = s.jobs ∧ (s.modPas k f).mem = s.mem ∧
    (s.modPas k f).engs = s.engs ∧ (s.modPas k f).tab = s.tab ∧ (s.modPas k f).cip = s.cip ∧ (s.modPas k f).host = s.host ∧
    (s.modPas k f).ul = s.ul ∧ (s.modPas k f).cnt = s.cnt ∧ (s.modPas k f).tim = s.tim ∧ (s.modPas k f).log = s.log ∧
    (s.modPas k f).hk = s.hk ∧ (s.modPas k f).power = s.power ∧ (s.modPas k f).boot = s.boot ∧ (s.modPas k f).store = s.store ∧
    (s.modPas k f).guide = s.guide ∧ (s.modPas k f).tap = s.tap ∧ (s.modPas k f).pending = s.pending := by
  and_intros <;> rfl

@[simp] theorem modUl_ul (s : State) (p : Nat) (f : UlPort → UlPort) : (s.modUl p f).ul = { s.ul with ports := tmod s.ul.ports p f } := rfl

@[simp] theorem modUl_frame (s : State) (p : Nat) (f : UlPort → UlPort) :
    (s.modUl p f).now = s.now ∧ (s.modUl p f).epoch = s.epoch ∧ (s.modUl p f).node = s.node ∧
    (s.modUl p f).generation = s.generation ∧ (s.modUl p f).mono = s.mono ∧ (s.modUl p f).freeCtr = s.freeCtr ∧
    (s.modUl p f).variant = s.variant ∧ (s.modUl p f).com = s.com ∧ (s.modUl p f).jobs = s.jobs ∧ (s.modUl p f).mem = s.mem ∧
    (s.modUl p f).engs = s.engs ∧ (s.modUl p f).pas = s.pas ∧ (s.modUl p f).tab = s.tab ∧ (s.modUl p f).cip = s.cip ∧
    (s.modUl p f).host = s.host ∧ (s.modUl p f).cnt = s.cnt ∧ (s.modUl p f).tim = s.tim ∧ (s.modUl p f).log = s.log ∧
    (s.modUl p f).hk = s.hk ∧ (s.modUl p f).power = s.power ∧ (s.modUl p f).boot = s.boot ∧ (s.modUl p f).store = s.store ∧
    (s.modUl p f).guide = s.guide ∧ (s.modUl p f).tap = s.tap ∧ (s.modUl p f).pending = s.pending := by
  and_intros <;> rfl

@[simp] theorem modSpi_com (s : State) (f : Target → Target) : (s.modSpi f).com = { s.com with spi := f s.com.spi } := rfl

@[simp] theorem modSpi_frame (s : State) (f : Target → Target) :
    (s.modSpi f).now = s.now ∧ (s.modSpi f).epoch = s.epoch ∧ (s.modSpi f).node = s.node ∧ (s.modSpi f).generation = s.generation ∧
    (s.modSpi f).mono = s.mono ∧ (s.modSpi f).freeCtr = s.freeCtr ∧ (s.modSpi f).variant = s.variant ∧ (s.modSpi f).jobs = s.jobs ∧
    (s.modSpi f).mem = s.mem ∧ (s.modSpi f).engs = s.engs ∧ (s.modSpi f).pas = s.pas ∧ (s.modSpi f).tab = s.tab ∧
    (s.modSpi f).cip = s.cip ∧ (s.modSpi f).host = s.host ∧ (s.modSpi f).ul = s.ul ∧ (s.modSpi f).cnt = s.cnt ∧
    (s.modSpi f).tim = s.tim ∧ (s.modSpi f).log = s.log ∧ (s.modSpi f).hk = s.hk ∧ (s.modSpi f).power = s.power ∧
    (s.modSpi f).boot = s.boot ∧ (s.modSpi f).store = s.store ∧ (s.modSpi f).guide = s.guide ∧ (s.modSpi f).tap = s.tap ∧
    (s.modSpi f).pending = s.pending := by
  and_intros <;> rfl

@[simp] theorem modI2c_com (s : State) (f : Target → Target) : (s.modI2c f).com = { s.com with i2c := f s.com.i2c } := rfl

@[simp] theorem modI2c_frame (s : State) (f : Target → Target) :
    (s.modI2c f).now = s.now ∧ (s.modI2c f).epoch = s.epoch ∧ (s.modI2c f).node = s.node ∧ (s.modI2c f).generation = s.generation ∧
    (s.modI2c f).mono = s.mono ∧ (s.modI2c f).freeCtr = s.freeCtr ∧ (s.modI2c f).variant = s.variant ∧ (s.modI2c f).jobs = s.jobs ∧
    (s.modI2c f).mem = s.mem ∧ (s.modI2c f).engs = s.engs ∧ (s.modI2c f).pas = s.pas ∧ (s.modI2c f).tab = s.tab ∧
    (s.modI2c f).cip = s.cip ∧ (s.modI2c f).host = s.host ∧ (s.modI2c f).ul = s.ul ∧ (s.modI2c f).cnt = s.cnt ∧
    (s.modI2c f).tim = s.tim ∧ (s.modI2c f).log = s.log ∧ (s.modI2c f).hk = s.hk ∧ (s.modI2c f).power = s.power ∧
    (s.modI2c f).boot = s.boot ∧ (s.modI2c f).store = s.store ∧ (s.modI2c f).guide = s.guide ∧ (s.modI2c f).tap = s.tap ∧
    (s.modI2c f).pending = s.pending := by
  and_intros <;> rfl

@[simp] theorem modConv_engs (s : State) (n c : Nat) (f : Conv → Conv) : (s.modConv n c f).engs = tput s.engs n { s.eng n with cal := { (s.eng n).cal with convs := (s.eng n).cal.convs.modify c f } } := rfl

@[simp] theorem modConv_frame (s : State) (n c : Nat) (f : Conv → Conv) :
    (s.modConv n c f).now = s.now ∧ (s.modConv n c f).epoch = s.epoch ∧ (s.modConv n c f).node = s.node ∧
    (s.modConv n c f).generation = s.generation ∧ (s.modConv n c f).mono = s.mono ∧ (s.modConv n c f).freeCtr = s.freeCtr ∧
    (s.modConv n c f).variant = s.variant ∧ (s.modConv n c f).com = s.com ∧ (s.modConv n c f).jobs = s.jobs ∧
    (s.modConv n c f).mem = s.mem ∧ (s.modConv n c f).pas = s.pas ∧ (s.modConv n c f).tab = s.tab ∧ (s.modConv n c f).cip = s.cip ∧
    (s.modConv n c f).host = s.host ∧ (s.modConv n c f).ul = s.ul ∧ (s.modConv n c f).cnt = s.cnt ∧ (s.modConv n c f).tim = s.tim ∧
    (s.modConv n c f).log = s.log ∧ (s.modConv n c f).hk = s.hk ∧ (s.modConv n c f).power = s.power ∧
    (s.modConv n c f).boot = s.boot ∧ (s.modConv n c f).store = s.store ∧ (s.modConv n c f).guide = s.guide ∧
    (s.modConv n c f).tap = s.tap ∧ (s.modConv n c f).pending = s.pending := by
  and_intros <;> rfl

@[simp] theorem modProf_engs (s : State) (n leaf : Nat) (f : LeafProf → LeafProf) : (s.modProf n leaf f).engs = tput s.engs n { s.eng n with mp := { (s.eng n).mp with profs := tupd (s.eng n).mp.profs leaf {} f } } := rfl

@[simp] theorem modProf_frame (s : State) (n leaf : Nat) (f : LeafProf → LeafProf) :
    (s.modProf n leaf f).now = s.now ∧ (s.modProf n leaf f).epoch = s.epoch ∧ (s.modProf n leaf f).node = s.node ∧
    (s.modProf n leaf f).generation = s.generation ∧ (s.modProf n leaf f).mono = s.mono ∧
    (s.modProf n leaf f).freeCtr = s.freeCtr ∧ (s.modProf n leaf f).variant = s.variant ∧ (s.modProf n leaf f).com = s.com ∧
    (s.modProf n leaf f).jobs = s.jobs ∧ (s.modProf n leaf f).mem = s.mem ∧ (s.modProf n leaf f).pas = s.pas ∧
    (s.modProf n leaf f).tab = s.tab ∧ (s.modProf n leaf f).cip = s.cip ∧ (s.modProf n leaf f).host = s.host ∧
    (s.modProf n leaf f).ul = s.ul ∧ (s.modProf n leaf f).cnt = s.cnt ∧ (s.modProf n leaf f).tim = s.tim ∧
    (s.modProf n leaf f).log = s.log ∧ (s.modProf n leaf f).hk = s.hk ∧ (s.modProf n leaf f).power = s.power ∧
    (s.modProf n leaf f).boot = s.boot ∧ (s.modProf n leaf f).store = s.store ∧ (s.modProf n leaf f).guide = s.guide ∧
    (s.modProf n leaf f).tap = s.tap ∧ (s.modProf n leaf f).pending = s.pending := by
  and_intros <;> rfl

@[simp] theorem modPartner_tim (s : State) (i : Nat) (f : Partner → Partner) : (s.modPartner i f).tim = { s.tim with partners := tput s.tim.partners i (f (s.partner i)) } := rfl

@[simp] theorem modPartner_frame (s : State) (i : Nat) (f : Partner → Partner) :
    (s.modPartner i f).now = s.now ∧ (s.modPartner i f).epoch = s.epoch ∧ (s.modPartner i f).node = s.node ∧
    (s.modPartner i f).generation = s.generation ∧ (s.modPartner i f).mono = s.mono ∧ (s.modPartner i f).freeCtr = s.freeCtr ∧
    (s.modPartner i f).variant = s.variant ∧ (s.modPartner i f).com = s.com ∧ (s.modPartner i f).jobs = s.jobs ∧
    (s.modPartner i f).mem = s.mem ∧ (s.modPartner i f).engs = s.engs ∧ (s.modPartner i f).pas = s.pas ∧
    (s.modPartner i f).tab = s.tab ∧ (s.modPartner i f).cip = s.cip ∧ (s.modPartner i f).host = s.host ∧
    (s.modPartner i f).ul = s.ul ∧ (s.modPartner i f).cnt = s.cnt ∧ (s.modPartner i f).log = s.log ∧ (s.modPartner i f).hk = s.hk ∧
    (s.modPartner i f).power = s.power ∧ (s.modPartner i f).boot = s.boot ∧ (s.modPartner i f).store = s.store ∧
    (s.modPartner i f).guide = s.guide ∧ (s.modPartner i f).tap = s.tap ∧ (s.modPartner i f).pending = s.pending := by
  and_intros <;> rfl

@[simp] theorem modRaw_tab (s : State) (k : Nat) (f : RawFlow → RawFlow) : (s.modRaw k f).tab = { s.tab with raws := tput s.tab.raws k (f (tgetD s.tab.raws k {})) } := rfl

@[simp] theorem modRaw_frame (s : State) (k : Nat) (f : RawFlow → RawFlow) :
    (s.modRaw k f).now = s.now ∧ (s.modRaw k f).epoch = s.epoch ∧ (s.modRaw k f).node = s.node ∧
    (s.modRaw k f).generation = s.generation ∧ (s.modRaw k f).mono = s.mono ∧ (s.modRaw k f).freeCtr = s.freeCtr ∧
    (s.modRaw k f).variant = s.variant ∧ (s.modRaw k f).com = s.com ∧ (s.modRaw k f).jobs = s.jobs ∧ (s.modRaw k f).mem = s.mem ∧
    (s.modRaw k f).engs = s.engs ∧ (s.modRaw k f).pas = s.pas ∧ (s.modRaw k f).cip = s.cip ∧ (s.modRaw k f).host = s.host ∧
    (s.modRaw k f).ul = s.ul ∧ (s.modRaw k f).cnt = s.cnt ∧ (s.modRaw k f).tim = s.tim ∧ (s.modRaw k f).log = s.log ∧
    (s.modRaw k f).hk = s.hk ∧ (s.modRaw k f).power = s.power ∧ (s.modRaw k f).boot = s.boot ∧ (s.modRaw k f).store = s.store ∧
    (s.modRaw k f).guide = s.guide ∧ (s.modRaw k f).tap = s.tap ∧ (s.modRaw k f).pending = s.pending := by
  and_intros <;> rfl

@[simp] theorem modFilter_hk (s : State) (k : Nat) (f : HkFilter → HkFilter) : (s.modFilter k f).hk = { s.hk with filters := tput s.hk.filters k (f (s.hkFilter k)) } := rfl

@[simp] theorem modFilter_frame (s : State) (k : Nat) (f : HkFilter → HkFilter) :
    (s.modFilter k f).now = s.now ∧ (s.modFilter k f).epoch = s.epoch ∧ (s.modFilter k f).node = s.node ∧
    (s.modFilter k f).generation = s.generation ∧ (s.modFilter k f).mono = s.mono ∧ (s.modFilter k f).freeCtr = s.freeCtr ∧
    (s.modFilter k f).variant = s.variant ∧ (s.modFilter k f).com = s.com ∧ (s.modFilter k f).jobs = s.jobs ∧
    (s.modFilter k f).mem = s.mem ∧ (s.modFilter k f).engs = s.engs ∧ (s.modFilter k f).pas = s.pas ∧
    (s.modFilter k f).tab = s.tab ∧ (s.modFilter k f).cip = s.cip ∧ (s.modFilter k f).host = s.host ∧ (s.modFilter k f).ul = s.ul ∧
    (s.modFilter k f).cnt = s.cnt ∧ (s.modFilter k f).tim = s.tim ∧ (s.modFilter k f).log = s.log ∧
    (s.modFilter k f).power = s.power ∧ (s.modFilter k f).boot = s.boot ∧ (s.modFilter k f).store = s.store ∧
    (s.modFilter k f).guide = s.guide ∧ (s.modFilter k f).tap = s.tap ∧ (s.modFilter k f).pending = s.pending := by
  and_intros <;> rfl

@[simp] theorem bump_cnt (s : State) (u i k n : Nat) : (s.bump u i k n).cnt = tupd s.cnt (ctrKey u i k) 0 (· + BitVec.ofNat 64 n) := rfl

@[simp] theorem bump_frame (s : State) (u i k n : Nat) :
    (s.bump u i k n).now = s.now ∧ (s.bump u i k n).epoch = s.epoch ∧ (s.bump u i k n).node = s.node ∧
    (s.bump u i k n).generation = s.generation ∧ (s.bump u i k n).mono = s.mono ∧ (s.bump u i k n).freeCtr = s.freeCtr ∧
    (s.bump u i k n).variant = s.variant ∧ (s.bump u i k n).com = s.com ∧ (s.bump u i k n).jobs = s.jobs ∧
    (s.bump u i k n).mem = s.mem ∧ (s.bump u i k n).engs = s.engs ∧ (s.bump u i k n).pas = s.pas ∧ (s.bump u i k n).tab = s.tab ∧
    (s.bump u i k n).cip = s.cip ∧ (s.bump u i k n).host = s.host ∧ (s.bump u i k n).ul = s.ul ∧ (s.bump u i k n).tim = s.tim ∧
    (s.bump u i k n).log = s.log ∧ (s.bump u i k n).hk = s.hk ∧ (s.bump u i k n).power = s.power ∧ (s.bump u i k n).boot = s.boot ∧
    (s.bump u i k n).store = s.store ∧ (s.bump u i k n).guide = s.guide ∧ (s.bump u i k n).tap = s.tap ∧
    (s.bump u i k n).pending = s.pending := by
  and_intros <;> rfl

@[simp] theorem setPolicyOf_com (s : State) (t : Nat) (p : Policy) : (s.setPolicyOf t p).com = { s.com with policies := tput s.com.policies t p } := rfl

@[simp] theorem setPolicyOf_frame (s : State) (t : Nat) (p : Policy) :
    (s.setPolicyOf t p).now = s.now ∧ (s.setPolicyOf t p).epoch = s.epoch ∧ (s.setPolicyOf t p).node = s.node ∧
    (s.setPolicyOf t p).generation = s.generation ∧ (s.setPolicyOf t p).mono = s.mono ∧ (s.setPolicyOf t p).freeCtr = s.freeCtr ∧
    (s.setPolicyOf t p).variant = s.variant ∧ (s.setPolicyOf t p).jobs = s.jobs ∧ (s.setPolicyOf t p).mem = s.mem ∧
    (s.setPolicyOf t p).engs = s.engs ∧ (s.setPolicyOf t p).pas = s.pas ∧ (s.setPolicyOf t p).tab = s.tab ∧
    (s.setPolicyOf t p).cip = s.cip ∧ (s.setPolicyOf t p).host = s.host ∧ (s.setPolicyOf t p).ul = s.ul ∧
    (s.setPolicyOf t p).cnt = s.cnt ∧ (s.setPolicyOf t p).tim = s.tim ∧ (s.setPolicyOf t p).log = s.log ∧
    (s.setPolicyOf t p).hk = s.hk ∧ (s.setPolicyOf t p).power = s.power ∧ (s.setPolicyOf t p).boot = s.boot ∧
    (s.setPolicyOf t p).store = s.store ∧ (s.setPolicyOf t p).guide = s.guide ∧ (s.setPolicyOf t p).tap = s.tap ∧
    (s.setPolicyOf t p).pending = s.pending := by
  and_intros <;> rfl

@[simp] theorem modTx_engs (s : State) (n : Nat) (f : TxPath → TxPath) : (s.modTx n f).engs = tput s.engs n { s.eng n with tx := f (s.eng n).tx } := rfl

@[simp] theorem modTx_frame (s : State) (n : Nat) (f : TxPath → TxPath) :
    (s.modTx n f).now = s.now ∧ (s.modTx n f).epoch = s.epoch ∧ (s.modTx n f).node = s.node ∧
    (s.modTx n f).generation = s.generation ∧ (s.modTx n f).mono = s.mono ∧ (s.modTx n f).freeCtr = s.freeCtr ∧
    (s.modTx n f).variant = s.variant ∧ (s.modTx n f).com = s.com ∧ (s.modTx n f).jobs = s.jobs ∧ (s.modTx n f).mem = s.mem ∧
    (s.modTx n f).pas = s.pas ∧ (s.modTx n f).tab = s.tab ∧ (s.modTx n f).cip = s.cip ∧ (s.modTx n f).host = s.host ∧
    (s.modTx n f).ul = s.ul ∧ (s.modTx n f).cnt = s.cnt ∧ (s.modTx n f).tim = s.tim ∧ (s.modTx n f).log = s.log ∧
    (s.modTx n f).hk = s.hk ∧ (s.modTx n f).power = s.power ∧ (s.modTx n f).boot = s.boot ∧ (s.modTx n f).store = s.store ∧
    (s.modTx n f).guide = s.guide ∧ (s.modTx n f).tap = s.tap ∧ (s.modTx n f).pending = s.pending := by
  and_intros <;> rfl

@[simp] theorem modRx_engs (s : State) (n : Nat) (f : RxPath → RxPath) : (s.modRx n f).engs = tput s.engs n { s.eng n with rx := f (s.eng n).rx } := rfl

@[simp] theorem modRx_frame (s : State) (n : Nat) (f : RxPath → RxPath) :
    (s.modRx n f).now = s.now ∧ (s.modRx n f).epoch = s.epoch ∧ (s.modRx n f).node = s.node ∧
    (s.modRx n f).generation = s.generation ∧ (s.modRx n f).mono = s.mono ∧ (s.modRx n f).freeCtr = s.freeCtr ∧
    (s.modRx n f).variant = s.variant ∧ (s.modRx n f).com = s.com ∧ (s.modRx n f).jobs = s.jobs ∧ (s.modRx n f).mem = s.mem ∧
    (s.modRx n f).pas = s.pas ∧ (s.modRx n f).tab = s.tab ∧ (s.modRx n f).cip = s.cip ∧ (s.modRx n f).host = s.host ∧
    (s.modRx n f).ul = s.ul ∧ (s.modRx n f).cnt = s.cnt ∧ (s.modRx n f).tim = s.tim ∧ (s.modRx n f).log = s.log ∧
    (s.modRx n f).hk = s.hk ∧ (s.modRx n f).power = s.power ∧ (s.modRx n f).boot = s.boot ∧ (s.modRx n f).store = s.store ∧
    (s.modRx n f).guide = s.guide ∧ (s.modRx n f).tap = s.tap ∧ (s.modRx n f).pending = s.pending := by
  and_intros <;> rfl

@[simp] theorem modMp_engs (s : State) (n : Nat) (f : Multi → Multi) : (s.modMp n f).engs = tput s.engs n { s.eng n with mp := f (s.eng n).mp } := rfl

@[simp] theorem modMp_frame (s : State) (n : Nat) (f : Multi → Multi) :
    (s.modMp n f).now = s.now ∧ (s.modMp n f).epoch = s.epoch ∧ (s.modMp n f).node = s.node ∧
    (s.modMp n f).generation = s.generation ∧ (s.modMp n f).mono = s.mono ∧ (s.modMp n f).freeCtr = s.freeCtr ∧
    (s.modMp n f).variant = s.variant ∧ (s.modMp n f).com = s.com ∧ (s.modMp n f).jobs = s.jobs ∧ (s.modMp n f).mem = s.mem ∧
    (s.modMp n f).pas = s.pas ∧ (s.modMp n f).tab = s.tab ∧ (s.modMp n f).cip = s.cip ∧ (s.modMp n f).host = s.host ∧
    (s.modMp n f).ul = s.ul ∧ (s.modMp n f).cnt = s.cnt ∧ (s.modMp n f).tim = s.tim ∧ (s.modMp n f).log = s.log ∧
    (s.modMp n f).hk = s.hk ∧ (s.modMp n f).power = s.power ∧ (s.modMp n f).boot = s.boot ∧ (s.modMp n f).store = s.store ∧
    (s.modMp n f).guide = s.guide ∧ (s.modMp n f).tap = s.tap ∧ (s.modMp n f).pending = s.pending := by
  and_intros <;> rfl

@[simp] theorem modCal_engs (s : State) (n : Nat) (f : Cal → Cal) : (s.modCal n f).engs = tput s.engs n { s.eng n with cal := f (s.eng n).cal } := rfl

@[simp] theorem modCal_frame (s : State) (n : Nat) (f : Cal → Cal) :
    (s.modCal n f).now = s.now ∧ (s.modCal n f).epoch = s.epoch ∧ (s.modCal n f).node = s.node ∧
    (s.modCal n f).generation = s.generation ∧ (s.modCal n f).mono = s.mono ∧ (s.modCal n f).freeCtr = s.freeCtr ∧
    (s.modCal n f).variant = s.variant ∧ (s.modCal n f).com = s.com ∧ (s.modCal n f).jobs = s.jobs ∧ (s.modCal n f).mem = s.mem ∧
    (s.modCal n f).pas = s.pas ∧ (s.modCal n f).tab = s.tab ∧ (s.modCal n f).cip = s.cip ∧ (s.modCal n f).host = s.host ∧
    (s.modCal n f).ul = s.ul ∧ (s.modCal n f).cnt = s.cnt ∧ (s.modCal n f).tim = s.tim ∧ (s.modCal n f).log = s.log ∧
    (s.modCal n f).hk = s.hk ∧ (s.modCal n f).power = s.power ∧ (s.modCal n f).boot = s.boot ∧ (s.modCal n f).store = s.store ∧
    (s.modCal n f).guide = s.guide ∧ (s.modCal n f).tap = s.tap ∧ (s.modCal n f).pending = s.pending := by
  and_intros <;> rfl

@[simp] theorem modPair_cip (s : State) (k : Nat) (f : Pair → Pair) : (s.modPair k f).cip = { s.cip with pairs := tput s.cip.pairs k (f (s.pair k)) } := rfl

@[simp] theorem modPair_frame (s : State) (k : Nat) (f : Pair → Pair) :
    (s.modPair k f).now = s.now ∧ (s.modPair k f).epoch = s.epoch ∧ (s.modPair k f).node = s.node ∧
    (s.modPair k f).generation = s.generation ∧ (s.modPair k f).mono = s.mono ∧ (s.modPair k f).freeCtr = s.freeCtr ∧
    (s.modPair k f).variant = s.variant ∧ (s.modPair k f).com = s.com ∧ (s.modPair k f).jobs = s.jobs ∧
    (s.modPair k f).mem = s.mem ∧ (s.modPair k f).engs = s.engs ∧ (s.modPair k f).pas = s.pas ∧ (s.modPair k f).tab = s.tab ∧
    (s.modPair k f).host = s.host ∧ (s.modPair k f).ul = s.ul ∧ (s.modPair k f).cnt = s.cnt ∧ (s.modPair k f).tim = s.tim ∧
    (s.modPair k f).log = s.log ∧ (s.modPair k f).hk = s.hk ∧ (s.modPair k f).power = s.power ∧ (s.modPair k f).boot = s.boot ∧
    (s.modPair k f).store = s.store ∧ (s.modPair k f).guide = s.guide ∧ (s.modPair k f).tap = s.tap ∧
    (s.modPair k f).pending = s.pending := by
  and_intros <;> rfl

@[simp] theorem modLane_cip (s : State) (k : Nat) (f : Lane → Lane) : (s.modLane k f).cip = { s.cip with lanes := tput s.cip.lanes k (f (s.lane k)) } := rfl

@[simp] theorem modLane_frame (s : State) (k : Nat) (f : Lane → Lane) :
    (s.modLane k f).now = s.now ∧ (s.modLane k f).epoch = s.epoch ∧ (s.modLane k f).node = s.node ∧
    (s.modLane k f).generation = s.generation ∧ (s.modLane k f).mono = s.mono ∧ (s.modLane k f).freeCtr = s.freeCtr ∧
    (s.modLane k f).variant = s.variant ∧ (s.modLane k f).com = s.com ∧ (s.modLane k f).jobs = s.jobs ∧
    (s.modLane k f).mem = s.mem ∧ (s.modLane k f).engs = s.engs ∧ (s.modLane k f).pas = s.pas ∧ (s.modLane k f).tab = s.tab ∧
    (s.modLane k f).host = s.host ∧ (s.modLane k f).ul = s.ul ∧ (s.modLane k f).cnt = s.cnt ∧ (s.modLane k f).tim = s.tim ∧
    (s.modLane k f).log = s.log ∧ (s.modLane k f).hk = s.hk ∧ (s.modLane k f).power = s.power ∧ (s.modLane k f).boot = s.boot ∧
    (s.modLane k f).store = s.store ∧ (s.modLane k f).guide = s.guide ∧ (s.modLane k f).tap = s.tap ∧
    (s.modLane k f).pending = s.pending := by
  and_intros <;> rfl

@[simp] theorem modKey_cip (s : State) (k : Nat) (f : KeySlot → KeySlot) : (s.modKey k f).cip = { s.cip with slots := tupd s.cip.slots k {} f } := rfl

@[simp] theorem modKey_frame (s : State) (k : Nat) (f : KeySlot → KeySlot) :
    (s.modKey k f).now = s.now ∧ (s.modKey k f).epoch = s.epoch ∧ (s.modKey k f).node = s.node ∧
    (s.modKey k f).generation = s.generation ∧ (s.modKey k f).mono = s.mono ∧ (s.modKey k f).freeCtr = s.freeCtr ∧
    (s.modKey k f).variant = s.variant ∧ (s.modKey k f).com = s.com ∧ (s.modKey k f).jobs = s.jobs ∧ (s.modKey k f).mem = s.mem ∧
    (s.modKey k f).engs = s.engs ∧ (s.modKey k f).pas = s.pas ∧ (s.modKey k f).tab = s.tab ∧ (s.modKey k f).host = s.host ∧
    (s.modKey k f).ul = s.ul ∧ (s.modKey k f).cnt = s.cnt ∧ (s.modKey k f).tim = s.tim ∧ (s.modKey k f).log = s.log ∧
    (s.modKey k f).hk = s.hk ∧ (s.modKey k f).power = s.power ∧ (s.modKey k f).boot = s.boot ∧ (s.modKey k f).store = s.store ∧
    (s.modKey k f).guide = s.guide ∧ (s.modKey k f).tap = s.tap ∧ (s.modKey k f).pending = s.pending := by
  and_intros <;> rfl

@[simp] theorem keyTo_cip (s : State) (k : Nat) (st : KeySt) : (s.keyTo k st).cip = { s.cip with slots := tupd s.cip.slots k {} fun x => { x with st := st } } := rfl

@[simp] theorem keyTo_frame (s : State) (k : Nat) (st : KeySt) :
    (s.keyTo k st).now = s.now ∧ (s.keyTo k st).epoch = s.epoch ∧ (s.keyTo k st).node = s.node ∧
    (s.keyTo k st).generation = s.generation ∧ (s.keyTo k st).mono = s.mono ∧ (s.keyTo k st).freeCtr = s.freeCtr ∧
    (s.keyTo k st).variant = s.variant ∧ (s.keyTo k st).com = s.com ∧ (s.keyTo k st).jobs = s.jobs ∧ (s.keyTo k st).mem = s.mem ∧
    (s.keyTo k st).engs = s.engs ∧ (s.keyTo k st).pas = s.pas ∧ (s.keyTo k st).tab = s.tab ∧ (s.keyTo k st).host = s.host ∧
    (s.keyTo k st).ul = s.ul ∧ (s.keyTo k st).cnt = s.cnt ∧ (s.keyTo k st).tim = s.tim ∧ (s.keyTo k st).log = s.log ∧
    (s.keyTo k st).hk = s.hk ∧ (s.keyTo k st).power = s.power ∧ (s.keyTo k st).boot = s.boot ∧ (s.keyTo k st).store = s.store ∧
    (s.keyTo k st).guide = s.guide ∧ (s.keyTo k st).tap = s.tap ∧ (s.keyTo k st).pending = s.pending := by
  and_intros <;> rfl

@[simp] theorem modCipPas_cip (s : State) (k : Nat) (f : CipPas → CipPas) : (s.modCipPas k f).cip = { s.cip with pas := tupd s.cip.pas k {} f } := rfl

@[simp] theorem modCipPas_frame (s : State) (k : Nat) (f : CipPas → CipPas) :
    (s.modCipPas k f).now = s.now ∧ (s.modCipPas k f).epoch = s.epoch ∧ (s.modCipPas k f).node = s.node ∧
    (s.modCipPas k f).generation = s.generation ∧ (s.modCipPas k f).mono = s.mono ∧ (s.modCipPas k f).freeCtr = s.freeCtr ∧
    (s.modCipPas k f).variant = s.variant ∧ (s.modCipPas k f).com = s.com ∧ (s.modCipPas k f).jobs = s.jobs ∧
    (s.modCipPas k f).mem = s.mem ∧ (s.modCipPas k f).engs = s.engs ∧ (s.modCipPas k f).pas = s.pas ∧
    (s.modCipPas k f).tab = s.tab ∧ (s.modCipPas k f).host = s.host ∧ (s.modCipPas k f).ul = s.ul ∧ (s.modCipPas k f).cnt = s.cnt ∧
    (s.modCipPas k f).tim = s.tim ∧ (s.modCipPas k f).log = s.log ∧ (s.modCipPas k f).hk = s.hk ∧
    (s.modCipPas k f).power = s.power ∧ (s.modCipPas k f).boot = s.boot ∧ (s.modCipPas k f).store = s.store ∧
    (s.modCipPas k f).guide = s.guide ∧ (s.modCipPas k f).tap = s.tap ∧ (s.modCipPas k f).pending = s.pending := by
  and_intros <;> rfl

@[simp] theorem modInput_tim (s : State) (k : Nat) (f : TimeInput → TimeInput) : (s.modInput k f).tim = { s.tim with inputs := tmod s.tim.inputs k f } := rfl

@[simp] theorem modInput_frame (s : State) (k : Nat) (f : TimeInput → TimeInput) :
    (s.modInput k f).now = s.now ∧ (s.modInput k f).epoch = s.epoch ∧ (s.modInput k f).node = s.node ∧
    (s.modInput k f).generation = s.generation ∧ (s.modInput k f).mono = s.mono ∧ (s.modInput k f).freeCtr = s.freeCtr ∧
    (s.modInput k f).variant = s.variant ∧ (s.modInput k f).com = s.com ∧ (s.modInput k f).jobs = s.jobs ∧
    (s.modInput k f).mem = s.mem ∧ (s.modInput k f).engs = s.engs ∧ (s.modInput k f).pas = s.pas ∧ (s.modInput k f).tab = s.tab ∧
    (s.modInput k f).cip = s.cip ∧ (s.modInput k f).host = s.host ∧ (s.modInput k f).ul = s.ul ∧ (s.modInput k f).cnt = s.cnt ∧
    (s.modInput k f).log = s.log ∧ (s.modInput k f).hk = s.hk ∧ (s.modInput k f).power = s.power ∧ (s.modInput k f).boot = s.boot ∧
    (s.modInput k f).store = s.store ∧ (s.modInput k f).guide = s.guide ∧ (s.modInput k f).tap = s.tap ∧
    (s.modInput k f).pending = s.pending := by
  and_intros <;> rfl

@[simp] theorem modPort_host (s : State) (k : Nat) (f : HostPort → HostPort) : (s.modPort k f).host = { s.host with ports := tmod s.host.ports k f } := rfl

@[simp] theorem modPort_frame (s : State) (k : Nat) (f : HostPort → HostPort) :
    (s.modPort k f).now = s.now ∧ (s.modPort k f).epoch = s.epoch ∧ (s.modPort k f).node = s.node ∧
    (s.modPort k f).generation = s.generation ∧ (s.modPort k f).mono = s.mono ∧ (s.modPort k f).freeCtr = s.freeCtr ∧
    (s.modPort k f).variant = s.variant ∧ (s.modPort k f).com = s.com ∧ (s.modPort k f).jobs = s.jobs ∧
    (s.modPort k f).mem = s.mem ∧ (s.modPort k f).engs = s.engs ∧ (s.modPort k f).pas = s.pas ∧ (s.modPort k f).tab = s.tab ∧
    (s.modPort k f).cip = s.cip ∧ (s.modPort k f).ul = s.ul ∧ (s.modPort k f).cnt = s.cnt ∧ (s.modPort k f).tim = s.tim ∧
    (s.modPort k f).log = s.log ∧ (s.modPort k f).hk = s.hk ∧ (s.modPort k f).power = s.power ∧ (s.modPort k f).boot = s.boot ∧
    (s.modPort k f).store = s.store ∧ (s.modPort k f).guide = s.guide ∧ (s.modPort k f).tap = s.tap ∧
    (s.modPort k f).pending = s.pending := by
  and_intros <;> rfl

@[simp] theorem modGroup_host (s : State) (k : Nat) (f : FlexGroup → FlexGroup) : (s.modGroup k f).host = { s.host with groups := tmod s.host.groups k f } := rfl

@[simp] theorem modGroup_frame (s : State) (k : Nat) (f : FlexGroup → FlexGroup) :
    (s.modGroup k f).now = s.now ∧ (s.modGroup k f).epoch = s.epoch ∧ (s.modGroup k f).node = s.node ∧
    (s.modGroup k f).generation = s.generation ∧ (s.modGroup k f).mono = s.mono ∧ (s.modGroup k f).freeCtr = s.freeCtr ∧
    (s.modGroup k f).variant = s.variant ∧ (s.modGroup k f).com = s.com ∧ (s.modGroup k f).jobs = s.jobs ∧
    (s.modGroup k f).mem = s.mem ∧ (s.modGroup k f).engs = s.engs ∧ (s.modGroup k f).pas = s.pas ∧ (s.modGroup k f).tab = s.tab ∧
    (s.modGroup k f).cip = s.cip ∧ (s.modGroup k f).ul = s.ul ∧ (s.modGroup k f).cnt = s.cnt ∧ (s.modGroup k f).tim = s.tim ∧
    (s.modGroup k f).log = s.log ∧ (s.modGroup k f).hk = s.hk ∧ (s.modGroup k f).power = s.power ∧ (s.modGroup k f).boot = s.boot ∧
    (s.modGroup k f).store = s.store ∧ (s.modGroup k f).guide = s.guide ∧ (s.modGroup k f).tap = s.tap ∧
    (s.modGroup k f).pending = s.pending := by
  and_intros <;> rfl

@[simp] theorem tick_now (s : State) : s.tick.now = s.now + chamberQ := rfl

@[simp] theorem tick_mono (s : State) : s.tick.mono = s.mono + chamberQ := rfl

@[simp] theorem tick_frame (s : State) :
    s.tick.epoch = s.epoch ∧ s.tick.node = s.node ∧ s.tick.generation = s.generation ∧ s.tick.freeCtr = s.freeCtr ∧
    s.tick.variant = s.variant ∧ s.tick.com = s.com ∧ s.tick.jobs = s.jobs ∧ s.tick.mem = s.mem ∧ s.tick.engs = s.engs ∧
    s.tick.pas = s.pas ∧ s.tick.tab = s.tab ∧ s.tick.cip = s.cip ∧ s.tick.host = s.host ∧ s.tick.ul = s.ul ∧ s.tick.cnt = s.cnt ∧
    s.tick.tim = s.tim ∧ s.tick.log = s.log ∧ s.tick.hk = s.hk ∧ s.tick.power = s.power ∧ s.tick.boot = s.boot ∧
    s.tick.store = s.store ∧ s.tick.guide = s.guide ∧ s.tick.tap = s.tap ∧ s.tick.pending = s.pending := by
  and_intros <;> rfl

/-- An MSI-X message changes the command interface alone. -/
@[simp] theorem msi_frame (s : State) (v : Nat) :
    (s.msi v).now = s.now ∧ (s.msi v).epoch = s.epoch ∧ (s.msi v).node = s.node ∧ (s.msi v).generation = s.generation ∧
    (s.msi v).mono = s.mono ∧ (s.msi v).freeCtr = s.freeCtr ∧ (s.msi v).variant = s.variant ∧ (s.msi v).jobs = s.jobs ∧
    (s.msi v).mem = s.mem ∧ (s.msi v).engs = s.engs ∧ (s.msi v).pas = s.pas ∧ (s.msi v).tab = s.tab ∧ (s.msi v).cip = s.cip ∧
    (s.msi v).host = s.host ∧ (s.msi v).ul = s.ul ∧ (s.msi v).cnt = s.cnt ∧ (s.msi v).tim = s.tim ∧ (s.msi v).log = s.log ∧
    (s.msi v).hk = s.hk ∧ (s.msi v).power = s.power ∧ (s.msi v).boot = s.boot ∧ (s.msi v).store = s.store ∧
    (s.msi v).guide = s.guide ∧ (s.msi v).tap = s.tap ∧ (s.msi v).pending = s.pending := by
  unfold State.msi; split <;> and_intros <;> rfl

/-- Setting an interrupt flag changes the command interface alone. -/
@[simp] theorem setInt_frame (s : State) (n b : Nat) :
    (s.setInt n b).now = s.now ∧ (s.setInt n b).epoch = s.epoch ∧ (s.setInt n b).node = s.node ∧
    (s.setInt n b).generation = s.generation ∧ (s.setInt n b).mono = s.mono ∧ (s.setInt n b).freeCtr = s.freeCtr ∧
    (s.setInt n b).variant = s.variant ∧ (s.setInt n b).jobs = s.jobs ∧ (s.setInt n b).mem = s.mem ∧ (s.setInt n b).engs = s.engs ∧
    (s.setInt n b).pas = s.pas ∧ (s.setInt n b).tab = s.tab ∧ (s.setInt n b).cip = s.cip ∧ (s.setInt n b).host = s.host ∧
    (s.setInt n b).ul = s.ul ∧ (s.setInt n b).cnt = s.cnt ∧ (s.setInt n b).tim = s.tim ∧ (s.setInt n b).log = s.log ∧
    (s.setInt n b).hk = s.hk ∧ (s.setInt n b).power = s.power ∧ (s.setInt n b).boot = s.boot ∧ (s.setInt n b).store = s.store ∧
    (s.setInt n b).guide = s.guide ∧ (s.setInt n b).tap = s.tap ∧ (s.setInt n b).pending = s.pending := by
  unfold State.setInt; dsimp only; split <;> simp

/-- Recording an event changes the log and the command interface's interrupts alone. -/
@[simp] theorem recordAt_frame (s : State) (t i : Nat) (e : Ev) (src : Nat) (p : List Byte) :
    (s.recordAt t i e src p).now = s.now ∧ (s.recordAt t i e src p).epoch = s.epoch ∧ (s.recordAt t i e src p).node = s.node ∧
    (s.recordAt t i e src p).generation = s.generation ∧ (s.recordAt t i e src p).mono = s.mono ∧
    (s.recordAt t i e src p).freeCtr = s.freeCtr ∧ (s.recordAt t i e src p).variant = s.variant ∧
    (s.recordAt t i e src p).jobs = s.jobs ∧ (s.recordAt t i e src p).mem = s.mem ∧ (s.recordAt t i e src p).engs = s.engs ∧
    (s.recordAt t i e src p).pas = s.pas ∧ (s.recordAt t i e src p).tab = s.tab ∧ (s.recordAt t i e src p).cip = s.cip ∧
    (s.recordAt t i e src p).host = s.host ∧ (s.recordAt t i e src p).ul = s.ul ∧ (s.recordAt t i e src p).cnt = s.cnt ∧
    (s.recordAt t i e src p).tim = s.tim ∧ (s.recordAt t i e src p).hk = s.hk ∧ (s.recordAt t i e src p).power = s.power ∧
    (s.recordAt t i e src p).boot = s.boot ∧ (s.recordAt t i e src p).store = s.store ∧ (s.recordAt t i e src p).guide = s.guide ∧
    (s.recordAt t i e src p).tap = s.tap ∧ (s.recordAt t i e src p).pending = s.pending := by
  unfold State.recordAt; dsimp only; repeat' split
  all_goals simp

/-- As `recordAt_frame`. -/
@[simp] theorem raiseAt_frame (s : State) (t i : Nat) (e : Ev) (src : Nat) (p : List Byte) :
    (s.raiseAt t i e src p).now = s.now ∧ (s.raiseAt t i e src p).epoch = s.epoch ∧ (s.raiseAt t i e src p).node = s.node ∧
    (s.raiseAt t i e src p).generation = s.generation ∧ (s.raiseAt t i e src p).mono = s.mono ∧
    (s.raiseAt t i e src p).freeCtr = s.freeCtr ∧ (s.raiseAt t i e src p).variant = s.variant ∧
    (s.raiseAt t i e src p).jobs = s.jobs ∧ (s.raiseAt t i e src p).mem = s.mem ∧ (s.raiseAt t i e src p).engs = s.engs ∧
    (s.raiseAt t i e src p).pas = s.pas ∧ (s.raiseAt t i e src p).tab = s.tab ∧ (s.raiseAt t i e src p).cip = s.cip ∧
    (s.raiseAt t i e src p).host = s.host ∧ (s.raiseAt t i e src p).ul = s.ul ∧ (s.raiseAt t i e src p).cnt = s.cnt ∧
    (s.raiseAt t i e src p).tim = s.tim ∧ (s.raiseAt t i e src p).hk = s.hk ∧ (s.raiseAt t i e src p).power = s.power ∧
    (s.raiseAt t i e src p).boot = s.boot ∧ (s.raiseAt t i e src p).store = s.store ∧ (s.raiseAt t i e src p).guide = s.guide ∧
    (s.raiseAt t i e src p).tap = s.tap ∧ (s.raiseAt t i e src p).pending = s.pending := by
  unfold State.raiseAt; exact recordAt_frame ..

/-- As `recordAt_frame`. -/
@[simp] theorem raise_frame (s : State) (i : Nat) (e : Ev) (src : Nat) (p : List Byte) :
    (s.raise i e src p).now = s.now ∧ (s.raise i e src p).epoch = s.epoch ∧ (s.raise i e src p).node = s.node ∧
    (s.raise i e src p).generation = s.generation ∧ (s.raise i e src p).mono = s.mono ∧ (s.raise i e src p).freeCtr = s.freeCtr ∧
    (s.raise i e src p).variant = s.variant ∧ (s.raise i e src p).jobs = s.jobs ∧ (s.raise i e src p).mem = s.mem ∧
    (s.raise i e src p).engs = s.engs ∧ (s.raise i e src p).pas = s.pas ∧ (s.raise i e src p).tab = s.tab ∧
    (s.raise i e src p).cip = s.cip ∧ (s.raise i e src p).host = s.host ∧ (s.raise i e src p).ul = s.ul ∧
    (s.raise i e src p).cnt = s.cnt ∧ (s.raise i e src p).tim = s.tim ∧ (s.raise i e src p).hk = s.hk ∧
    (s.raise i e src p).power = s.power ∧ (s.raise i e src p).boot = s.boot ∧ (s.raise i e src p).store = s.store ∧
    (s.raise i e src p).guide = s.guide ∧ (s.raise i e src p).tap = s.tap ∧ (s.raise i e src p).pending = s.pending := by
  unfold State.raise; exact raiseAt_frame ..

/-- As `recordAt_frame`. -/
@[simp] theorem darkAccess_frame (s : State) (u r k l t : Nat) :
    (s.darkAccess u r k l t).now = s.now ∧ (s.darkAccess u r k l t).epoch = s.epoch ∧ (s.darkAccess u r k l t).node = s.node ∧
    (s.darkAccess u r k l t).generation = s.generation ∧ (s.darkAccess u r k l t).mono = s.mono ∧
    (s.darkAccess u r k l t).freeCtr = s.freeCtr ∧ (s.darkAccess u r k l t).variant = s.variant ∧
    (s.darkAccess u r k l t).jobs = s.jobs ∧ (s.darkAccess u r k l t).mem = s.mem ∧ (s.darkAccess u r k l t).engs = s.engs ∧
    (s.darkAccess u r k l t).pas = s.pas ∧ (s.darkAccess u r k l t).tab = s.tab ∧ (s.darkAccess u r k l t).cip = s.cip ∧
    (s.darkAccess u r k l t).host = s.host ∧ (s.darkAccess u r k l t).ul = s.ul ∧ (s.darkAccess u r k l t).cnt = s.cnt ∧
    (s.darkAccess u r k l t).tim = s.tim ∧ (s.darkAccess u r k l t).hk = s.hk ∧ (s.darkAccess u r k l t).power = s.power ∧
    (s.darkAccess u r k l t).boot = s.boot ∧ (s.darkAccess u r k l t).store = s.store ∧ (s.darkAccess u r k l t).guide = s.guide ∧
    (s.darkAccess u r k l t).tap = s.tap ∧ (s.darkAccess u r k l t).pending = s.pending := by
  unfold State.darkAccess; exact raise_frame ..

/-- A response into a ring changes the command interface alone. -/
@[simp] theorem ringRespond_frame (s : State) (n : Nat) (r : Rsp) :
    (s.ringRespond n r).now = s.now ∧ (s.ringRespond n r).epoch = s.epoch ∧ (s.ringRespond n r).node = s.node ∧
    (s.ringRespond n r).generation = s.generation ∧ (s.ringRespond n r).mono = s.mono ∧ (s.ringRespond n r).freeCtr = s.freeCtr ∧
    (s.ringRespond n r).variant = s.variant ∧ (s.ringRespond n r).jobs = s.jobs ∧ (s.ringRespond n r).mem = s.mem ∧
    (s.ringRespond n r).engs = s.engs ∧ (s.ringRespond n r).pas = s.pas ∧ (s.ringRespond n r).tab = s.tab ∧
    (s.ringRespond n r).cip = s.cip ∧ (s.ringRespond n r).host = s.host ∧ (s.ringRespond n r).ul = s.ul ∧
    (s.ringRespond n r).cnt = s.cnt ∧ (s.ringRespond n r).tim = s.tim ∧ (s.ringRespond n r).log = s.log ∧
    (s.ringRespond n r).hk = s.hk ∧ (s.ringRespond n r).power = s.power ∧ (s.ringRespond n r).boot = s.boot ∧
    (s.ringRespond n r).store = s.store ∧ (s.ringRespond n r).guide = s.guide ∧ (s.ringRespond n r).tap = s.tap ∧
    (s.ringRespond n r).pending = s.pending := by
  unfold State.ringRespond; split
  · simp
  · dsimp only; split <;> simp

/-- A reply changes the command interface alone. -/
@[simp] theorem reply_frame (s : State) (sel : Received → Bool) (op : Nat) (q : Request) (p : List Byte) :
    (s.reply sel op q p).now = s.now ∧ (s.reply sel op q p).epoch = s.epoch ∧ (s.reply sel op q p).node = s.node ∧
    (s.reply sel op q p).generation = s.generation ∧ (s.reply sel op q p).mono = s.mono ∧
    (s.reply sel op q p).freeCtr = s.freeCtr ∧ (s.reply sel op q p).variant = s.variant ∧ (s.reply sel op q p).jobs = s.jobs ∧
    (s.reply sel op q p).mem = s.mem ∧ (s.reply sel op q p).engs = s.engs ∧ (s.reply sel op q p).pas = s.pas ∧
    (s.reply sel op q p).tab = s.tab ∧ (s.reply sel op q p).cip = s.cip ∧ (s.reply sel op q p).host = s.host ∧
    (s.reply sel op q p).ul = s.ul ∧ (s.reply sel op q p).cnt = s.cnt ∧ (s.reply sel op q p).tim = s.tim ∧
    (s.reply sel op q p).log = s.log ∧ (s.reply sel op q p).hk = s.hk ∧ (s.reply sel op q p).power = s.power ∧
    (s.reply sel op q p).boot = s.boot ∧ (s.reply sel op q p).store = s.store ∧ (s.reply sel op q p).guide = s.guide ∧
    (s.reply sel op q p).tap = s.tap ∧ (s.reply sel op q p).pending = s.pending := by
  unfold State.reply; dsimp only; repeat' split
  all_goals simp

/-- As `reply_frame`. -/
@[simp] theorem respond_frame (s : State) (op : Nat) (q : Request) (p : List Byte) :
    (s.respond op q p).now = s.now ∧ (s.respond op q p).epoch = s.epoch ∧ (s.respond op q p).node = s.node ∧
    (s.respond op q p).generation = s.generation ∧ (s.respond op q p).mono = s.mono ∧ (s.respond op q p).freeCtr = s.freeCtr ∧
    (s.respond op q p).variant = s.variant ∧ (s.respond op q p).jobs = s.jobs ∧ (s.respond op q p).mem = s.mem ∧
    (s.respond op q p).engs = s.engs ∧ (s.respond op q p).pas = s.pas ∧ (s.respond op q p).tab = s.tab ∧
    (s.respond op q p).cip = s.cip ∧ (s.respond op q p).host = s.host ∧ (s.respond op q p).ul = s.ul ∧
    (s.respond op q p).cnt = s.cnt ∧ (s.respond op q p).tim = s.tim ∧ (s.respond op q p).log = s.log ∧
    (s.respond op q p).hk = s.hk ∧ (s.respond op q p).power = s.power ∧ (s.respond op q p).boot = s.boot ∧
    (s.respond op q p).store = s.store ∧ (s.respond op q p).guide = s.guide ∧ (s.respond op q p).tap = s.tap ∧
    (s.respond op q p).pending = s.pending := by
  unfold State.respond; exact reply_frame ..

/-- As `reply_frame`. -/
@[simp] theorem respondLate_frame (s : State) (op : Nat) (q : Request) (p : List Byte) :
    (s.respondLate op q p).now = s.now ∧ (s.respondLate op q p).epoch = s.epoch ∧ (s.respondLate op q p).node = s.node ∧
    (s.respondLate op q p).generation = s.generation ∧ (s.respondLate op q p).mono = s.mono ∧
    (s.respondLate op q p).freeCtr = s.freeCtr ∧ (s.respondLate op q p).variant = s.variant ∧
    (s.respondLate op q p).jobs = s.jobs ∧ (s.respondLate op q p).mem = s.mem ∧ (s.respondLate op q p).engs = s.engs ∧
    (s.respondLate op q p).pas = s.pas ∧ (s.respondLate op q p).tab = s.tab ∧ (s.respondLate op q p).cip = s.cip ∧
    (s.respondLate op q p).host = s.host ∧ (s.respondLate op q p).ul = s.ul ∧ (s.respondLate op q p).cnt = s.cnt ∧
    (s.respondLate op q p).tim = s.tim ∧ (s.respondLate op q p).log = s.log ∧ (s.respondLate op q p).hk = s.hk ∧
    (s.respondLate op q p).power = s.power ∧ (s.respondLate op q p).boot = s.boot ∧ (s.respondLate op q p).store = s.store ∧
    (s.respondLate op q p).guide = s.guide ∧ (s.respondLate op q p).tap = s.tap ∧ (s.respondLate op q p).pending = s.pending := by
  unfold State.respondLate; exact reply_frame ..

/-- Holding a command changes the command interface alone. -/
@[simp] theorem hold_frame (s : State) (op : Nat) (q : Request) :
    (s.hold op q).now = s.now ∧ (s.hold op q).epoch = s.epoch ∧ (s.hold op q).node = s.node ∧
    (s.hold op q).generation = s.generation ∧ (s.hold op q).mono = s.mono ∧ (s.hold op q).freeCtr = s.freeCtr ∧
    (s.hold op q).variant = s.variant ∧ (s.hold op q).jobs = s.jobs ∧ (s.hold op q).mem = s.mem ∧ (s.hold op q).engs = s.engs ∧
    (s.hold op q).pas = s.pas ∧ (s.hold op q).tab = s.tab ∧ (s.hold op q).cip = s.cip ∧ (s.hold op q).host = s.host ∧
    (s.hold op q).ul = s.ul ∧ (s.hold op q).cnt = s.cnt ∧ (s.hold op q).tim = s.tim ∧ (s.hold op q).log = s.log ∧
    (s.hold op q).hk = s.hk ∧ (s.hold op q).power = s.power ∧ (s.hold op q).boot = s.boot ∧ (s.hold op q).store = s.store ∧
    (s.hold op q).guide = s.guide ∧ (s.hold op q).tap = s.tap ∧ (s.hold op q).pending = s.pending := by
  unfold State.hold; split <;> simp

/-- Deferring a response changes the command interface alone. -/
@[simp] theorem defer_frame (s : State) (op : Nat) (q : Request) :
    (s.defer op q).now = s.now ∧ (s.defer op q).epoch = s.epoch ∧ (s.defer op q).node = s.node ∧
    (s.defer op q).generation = s.generation ∧ (s.defer op q).mono = s.mono ∧ (s.defer op q).freeCtr = s.freeCtr ∧
    (s.defer op q).variant = s.variant ∧ (s.defer op q).jobs = s.jobs ∧ (s.defer op q).mem = s.mem ∧ (s.defer op q).engs = s.engs ∧
    (s.defer op q).pas = s.pas ∧ (s.defer op q).tab = s.tab ∧ (s.defer op q).cip = s.cip ∧ (s.defer op q).host = s.host ∧
    (s.defer op q).ul = s.ul ∧ (s.defer op q).cnt = s.cnt ∧ (s.defer op q).tim = s.tim ∧ (s.defer op q).log = s.log ∧
    (s.defer op q).hk = s.hk ∧ (s.defer op q).power = s.power ∧ (s.defer op q).boot = s.boot ∧ (s.defer op q).store = s.store ∧
    (s.defer op q).guide = s.guide ∧ (s.defer op q).tap = s.tap ∧ (s.defer op q).pending = s.pending := by
  unfold State.defer; simp

/-- A refusal changes the command interface and the log alone (R445). -/
@[simp] theorem refuse_frame (s : State) (op : Nat) (q : Request) (n : Nat) (r : Refuse) :
    (s.refuse op q n r).now = s.now ∧ (s.refuse op q n r).epoch = s.epoch ∧ (s.refuse op q n r).node = s.node ∧
    (s.refuse op q n r).generation = s.generation ∧ (s.refuse op q n r).mono = s.mono ∧ (s.refuse op q n r).freeCtr = s.freeCtr ∧
    (s.refuse op q n r).variant = s.variant ∧ (s.refuse op q n r).jobs = s.jobs ∧ (s.refuse op q n r).mem = s.mem ∧
    (s.refuse op q n r).engs = s.engs ∧ (s.refuse op q n r).pas = s.pas ∧ (s.refuse op q n r).tab = s.tab ∧
    (s.refuse op q n r).cip = s.cip ∧ (s.refuse op q n r).host = s.host ∧ (s.refuse op q n r).ul = s.ul ∧
    (s.refuse op q n r).cnt = s.cnt ∧ (s.refuse op q n r).tim = s.tim ∧ (s.refuse op q n r).hk = s.hk ∧
    (s.refuse op q n r).power = s.power ∧ (s.refuse op q n r).boot = s.boot ∧ (s.refuse op q n r).store = s.store ∧
    (s.refuse op q n r).guide = s.guide ∧ (s.refuse op q n r).tap = s.tap ∧ (s.refuse op q n r).pending = s.pending := by
  unfold State.refuse; dsimp only; split <;> simp

/-- A domain message changes the management queues and the message counters alone. -/
@[simp] theorem sendMessage_frame (s : State) (i ty : Nat) (all : Bool) (d t : Nat) (body : List Byte) :
    (s.sendMessage i ty all d t body).now = s.now ∧ (s.sendMessage i ty all d t body).epoch = s.epoch ∧
    (s.sendMessage i ty all d t body).node = s.node ∧ (s.sendMessage i ty all d t body).generation = s.generation ∧
    (s.sendMessage i ty all d t body).mono = s.mono ∧ (s.sendMessage i ty all d t body).freeCtr = s.freeCtr ∧
    (s.sendMessage i ty all d t body).variant = s.variant ∧ (s.sendMessage i ty all d t body).com = s.com ∧
    (s.sendMessage i ty all d t body).jobs = s.jobs ∧ (s.sendMessage i ty all d t body).mem = s.mem ∧
    (s.sendMessage i ty all d t body).pas = s.pas ∧ (s.sendMessage i ty all d t body).tab = s.tab ∧
    (s.sendMessage i ty all d t body).cip = s.cip ∧ (s.sendMessage i ty all d t body).host = s.host ∧
    (s.sendMessage i ty all d t body).cnt = s.cnt ∧ (s.sendMessage i ty all d t body).log = s.log ∧
    (s.sendMessage i ty all d t body).hk = s.hk ∧ (s.sendMessage i ty all d t body).power = s.power ∧
    (s.sendMessage i ty all d t body).boot = s.boot ∧ (s.sendMessage i ty all d t body).store = s.store ∧
    (s.sendMessage i ty all d t body).guide = s.guide ∧ (s.sendMessage i ty all d t body).tap = s.tap ∧
    (s.sendMessage i ty all d t body).pending = s.pending := by
  unfold State.sendMessage; dsimp only; split
  · simp
  · unfold State.toCarrier State.queueMgmt; split <;> simp

/-- A page's change leaves the rest of the command interface. -/
@[simp] theorem modPage_comFrame (s : State) (n : Nat) (f : Page → Page) :
    (s.modPage n f).com.scratch0 = s.com.scratch0 ∧ (s.modPage n f).com.scratch1 = s.com.scratch1 ∧
    (s.modPage n f).com.chamberHi = s.com.chamberHi ∧ (s.modPage n f).com.evtThreshold = s.com.evtThreshold ∧
    (s.modPage n f).com.msix = s.com.msix ∧ (s.modPage n f).com.pba = s.com.pba ∧ (s.modPage n f).com.msiSent = s.com.msiSent ∧
    (s.modPage n f).com.d3hot = s.com.d3hot ∧ (s.modPage n f).com.lastServed = s.com.lastServed ∧
    (s.modPage n f).com.spi = s.com.spi ∧ (s.modPage n f).com.i2c = s.com.i2c ∧ (s.modPage n f).com.spiT0Only = s.com.spiT0Only ∧
    (s.modPage n f).com.i2cOff = s.com.i2cOff ∧ (s.modPage n f).com.policies = s.com.policies ∧
    (s.modPage n f).com.revoking = s.com.revoking ∧ (s.modPage n f).com.received = s.com.received ∧
    (s.modPage n f).com.relayed = s.com.relayed ∧ (s.modPage n f).com.readData = s.com.readData ∧
    (s.modPage n f).com.snapshots = s.com.snapshots ∧ (s.modPage n f).com.snapPending = s.com.snapPending := by
  and_intros <;> rfl

/-- A message changes the pending bits or the count of messages. -/
@[simp] theorem msi_comFrame (s : State) (v : Nat) :
    (s.msi v).com.scratch0 = s.com.scratch0 ∧ (s.msi v).com.scratch1 = s.com.scratch1 ∧ (s.msi v).com.chamberHi = s.com.chamberHi ∧
    (s.msi v).com.evtThreshold = s.com.evtThreshold ∧ (s.msi v).com.msix = s.com.msix ∧ (s.msi v).com.d3hot = s.com.d3hot ∧
    (s.msi v).com.pages = s.com.pages ∧ (s.msi v).com.lastServed = s.com.lastServed ∧ (s.msi v).com.spi = s.com.spi ∧
    (s.msi v).com.i2c = s.com.i2c ∧ (s.msi v).com.spiT0Only = s.com.spiT0Only ∧ (s.msi v).com.i2cOff = s.com.i2cOff ∧
    (s.msi v).com.policies = s.com.policies ∧ (s.msi v).com.revoking = s.com.revoking ∧ (s.msi v).com.received = s.com.received ∧
    (s.msi v).com.relayed = s.com.relayed ∧ (s.msi v).com.readData = s.com.readData ∧ (s.msi v).com.snapshots = s.com.snapshots ∧
    (s.msi v).com.snapPending = s.com.snapPending := by
  unfold State.msi; split <;> and_intros <;> rfl

/-- An interrupt flag changes its page, and sends or holds a message. -/
@[simp] theorem setInt_comFrame (s : State) (n b : Nat) :
    (s.setInt n b).com.scratch0 = s.com.scratch0 ∧ (s.setInt n b).com.scratch1 = s.com.scratch1 ∧
    (s.setInt n b).com.chamberHi = s.com.chamberHi ∧ (s.setInt n b).com.evtThreshold = s.com.evtThreshold ∧
    (s.setInt n b).com.msix = s.com.msix ∧ (s.setInt n b).com.d3hot = s.com.d3hot ∧
    (s.setInt n b).com.lastServed = s.com.lastServed ∧ (s.setInt n b).com.spi = s.com.spi ∧ (s.setInt n b).com.i2c = s.com.i2c ∧
    (s.setInt n b).com.spiT0Only = s.com.spiT0Only ∧ (s.setInt n b).com.i2cOff = s.com.i2cOff ∧
    (s.setInt n b).com.policies = s.com.policies ∧ (s.setInt n b).com.revoking = s.com.revoking ∧
    (s.setInt n b).com.received = s.com.received ∧ (s.setInt n b).com.relayed = s.com.relayed ∧
    (s.setInt n b).com.readData = s.com.readData ∧ (s.setInt n b).com.snapshots = s.com.snapshots ∧
    (s.setInt n b).com.snapPending = s.com.snapPending := by
  unfold State.setInt; dsimp only; split <;> simp

/-- An event can set an interrupt flag; nothing else of the command interface changes. -/
@[simp] theorem recordAt_comFrame (s : State) (t i : Nat) (e : Ev) (src : Nat) (p : List Byte) :
    (s.recordAt t i e src p).com.scratch0 = s.com.scratch0 ∧ (s.recordAt t i e src p).com.scratch1 = s.com.scratch1 ∧
    (s.recordAt t i e src p).com.chamberHi = s.com.chamberHi ∧ (s.recordAt t i e src p).com.evtThreshold = s.com.evtThreshold ∧
    (s.recordAt t i e src p).com.msix = s.com.msix ∧ (s.recordAt t i e src p).com.d3hot = s.com.d3hot ∧
    (s.recordAt t i e src p).com.lastServed = s.com.lastServed ∧ (s.recordAt t i e src p).com.spi = s.com.spi ∧
    (s.recordAt t i e src p).com.i2c = s.com.i2c ∧ (s.recordAt t i e src p).com.spiT0Only = s.com.spiT0Only ∧
    (s.recordAt t i e src p).com.i2cOff = s.com.i2cOff ∧ (s.recordAt t i e src p).com.policies = s.com.policies ∧
    (s.recordAt t i e src p).com.revoking = s.com.revoking ∧ (s.recordAt t i e src p).com.received = s.com.received ∧
    (s.recordAt t i e src p).com.relayed = s.com.relayed ∧ (s.recordAt t i e src p).com.readData = s.com.readData ∧
    (s.recordAt t i e src p).com.snapshots = s.com.snapshots ∧ (s.recordAt t i e src p).com.snapPending = s.com.snapPending := by
  unfold State.recordAt; dsimp only; repeat' split
  all_goals simp

/-- As `recordAt_comFrame`. -/
@[simp] theorem raiseAt_comFrame (s : State) (t i : Nat) (e : Ev) (src : Nat) (p : List Byte) :
    (s.raiseAt t i e src p).com.scratch0 = s.com.scratch0 ∧ (s.raiseAt t i e src p).com.scratch1 = s.com.scratch1 ∧
    (s.raiseAt t i e src p).com.chamberHi = s.com.chamberHi ∧ (s.raiseAt t i e src p).com.evtThreshold = s.com.evtThreshold ∧
    (s.raiseAt t i e src p).com.msix = s.com.msix ∧ (s.raiseAt t i e src p).com.d3hot = s.com.d3hot ∧
    (s.raiseAt t i e src p).com.lastServed = s.com.lastServed ∧ (s.raiseAt t i e src p).com.spi = s.com.spi ∧
    (s.raiseAt t i e src p).com.i2c = s.com.i2c ∧ (s.raiseAt t i e src p).com.spiT0Only = s.com.spiT0Only ∧
    (s.raiseAt t i e src p).com.i2cOff = s.com.i2cOff ∧ (s.raiseAt t i e src p).com.policies = s.com.policies ∧
    (s.raiseAt t i e src p).com.revoking = s.com.revoking ∧ (s.raiseAt t i e src p).com.received = s.com.received ∧
    (s.raiseAt t i e src p).com.relayed = s.com.relayed ∧ (s.raiseAt t i e src p).com.readData = s.com.readData ∧
    (s.raiseAt t i e src p).com.snapshots = s.com.snapshots ∧ (s.raiseAt t i e src p).com.snapPending = s.com.snapPending := by
  unfold State.raiseAt; exact recordAt_comFrame ..

/-- As `recordAt_comFrame`. -/
@[simp] theorem raise_comFrame (s : State) (i : Nat) (e : Ev) (src : Nat) (p : List Byte) :
    (s.raise i e src p).com.scratch0 = s.com.scratch0 ∧ (s.raise i e src p).com.scratch1 = s.com.scratch1 ∧
    (s.raise i e src p).com.chamberHi = s.com.chamberHi ∧ (s.raise i e src p).com.evtThreshold = s.com.evtThreshold ∧
    (s.raise i e src p).com.msix = s.com.msix ∧ (s.raise i e src p).com.d3hot = s.com.d3hot ∧
    (s.raise i e src p).com.lastServed = s.com.lastServed ∧ (s.raise i e src p).com.spi = s.com.spi ∧
    (s.raise i e src p).com.i2c = s.com.i2c ∧ (s.raise i e src p).com.spiT0Only = s.com.spiT0Only ∧
    (s.raise i e src p).com.i2cOff = s.com.i2cOff ∧ (s.raise i e src p).com.policies = s.com.policies ∧
    (s.raise i e src p).com.revoking = s.com.revoking ∧ (s.raise i e src p).com.received = s.com.received ∧
    (s.raise i e src p).com.relayed = s.com.relayed ∧ (s.raise i e src p).com.readData = s.com.readData ∧
    (s.raise i e src p).com.snapshots = s.com.snapshots ∧ (s.raise i e src p).com.snapPending = s.com.snapPending := by
  unfold State.raise; exact raiseAt_comFrame ..

/-- As `recordAt_comFrame`. -/
@[simp] theorem darkAccess_comFrame (s : State) (u r k l t : Nat) :
    (s.darkAccess u r k l t).com.scratch0 = s.com.scratch0 ∧ (s.darkAccess u r k l t).com.scratch1 = s.com.scratch1 ∧
    (s.darkAccess u r k l t).com.chamberHi = s.com.chamberHi ∧ (s.darkAccess u r k l t).com.evtThreshold = s.com.evtThreshold ∧
    (s.darkAccess u r k l t).com.msix = s.com.msix ∧ (s.darkAccess u r k l t).com.d3hot = s.com.d3hot ∧
    (s.darkAccess u r k l t).com.lastServed = s.com.lastServed ∧ (s.darkAccess u r k l t).com.spi = s.com.spi ∧
    (s.darkAccess u r k l t).com.i2c = s.com.i2c ∧ (s.darkAccess u r k l t).com.spiT0Only = s.com.spiT0Only ∧
    (s.darkAccess u r k l t).com.i2cOff = s.com.i2cOff ∧ (s.darkAccess u r k l t).com.policies = s.com.policies ∧
    (s.darkAccess u r k l t).com.revoking = s.com.revoking ∧ (s.darkAccess u r k l t).com.received = s.com.received ∧
    (s.darkAccess u r k l t).com.relayed = s.com.relayed ∧ (s.darkAccess u r k l t).com.readData = s.com.readData ∧
    (s.darkAccess u r k l t).com.snapshots = s.com.snapshots ∧ (s.darkAccess u r k l t).com.snapPending = s.com.snapPending := by
  unfold State.darkAccess; exact raise_comFrame ..

/-- A response into a ring changes its page, and can send a message. -/
@[simp] theorem ringRespond_comFrame (s : State) (n : Nat) (r : Rsp) :
    (s.ringRespond n r).com.scratch0 = s.com.scratch0 ∧ (s.ringRespond n r).com.scratch1 = s.com.scratch1 ∧
    (s.ringRespond n r).com.chamberHi = s.com.chamberHi ∧ (s.ringRespond n r).com.evtThreshold = s.com.evtThreshold ∧
    (s.ringRespond n r).com.msix = s.com.msix ∧ (s.ringRespond n r).com.d3hot = s.com.d3hot ∧
    (s.ringRespond n r).com.lastServed = s.com.lastServed ∧ (s.ringRespond n r).com.spi = s.com.spi ∧
    (s.ringRespond n r).com.i2c = s.com.i2c ∧ (s.ringRespond n r).com.spiT0Only = s.com.spiT0Only ∧
    (s.ringRespond n r).com.i2cOff = s.com.i2cOff ∧ (s.ringRespond n r).com.policies = s.com.policies ∧
    (s.ringRespond n r).com.revoking = s.com.revoking ∧ (s.ringRespond n r).com.received = s.com.received ∧
    (s.ringRespond n r).com.relayed = s.com.relayed ∧ (s.ringRespond n r).com.readData = s.com.readData ∧
    (s.ringRespond n r).com.snapshots = s.com.snapshots ∧ (s.ringRespond n r).com.snapPending = s.com.snapPending := by
  unfold State.ringRespond; split
  · simp
  · dsimp only; split <;> simp

/-- A reply changes its transport and the list of received commands alone. -/
@[simp] theorem reply_comFrame (s : State) (sel : Received → Bool) (op : Nat) (q : Request) (p : List Byte) :
    (s.reply sel op q p).com.scratch0 = s.com.scratch0 ∧ (s.reply sel op q p).com.scratch1 = s.com.scratch1 ∧
    (s.reply sel op q p).com.chamberHi = s.com.chamberHi ∧ (s.reply sel op q p).com.evtThreshold = s.com.evtThreshold ∧
    (s.reply sel op q p).com.msix = s.com.msix ∧ (s.reply sel op q p).com.d3hot = s.com.d3hot ∧
    (s.reply sel op q p).com.lastServed = s.com.lastServed ∧ (s.reply sel op q p).com.spiT0Only = s.com.spiT0Only ∧
    (s.reply sel op q p).com.i2cOff = s.com.i2cOff ∧ (s.reply sel op q p).com.policies = s.com.policies ∧
    (s.reply sel op q p).com.revoking = s.com.revoking ∧ (s.reply sel op q p).com.readData = s.com.readData ∧
    (s.reply sel op q p).com.snapshots = s.com.snapshots ∧ (s.reply sel op q p).com.snapPending = s.com.snapPending := by
  unfold State.reply; dsimp only; repeat' split
  all_goals simp

/-- As `reply_comFrame`. -/
@[simp] theorem respond_comFrame (s : State) (op : Nat) (q : Request) (p : List Byte) :
    (s.respond op q p).com.scratch0 = s.com.scratch0 ∧ (s.respond op q p).com.scratch1 = s.com.scratch1 ∧
    (s.respond op q p).com.chamberHi = s.com.chamberHi ∧ (s.respond op q p).com.evtThreshold = s.com.evtThreshold ∧
    (s.respond op q p).com.msix = s.com.msix ∧ (s.respond op q p).com.d3hot = s.com.d3hot ∧
    (s.respond op q p).com.lastServed = s.com.lastServed ∧ (s.respond op q p).com.spiT0Only = s.com.spiT0Only ∧
    (s.respond op q p).com.i2cOff = s.com.i2cOff ∧ (s.respond op q p).com.policies = s.com.policies ∧
    (s.respond op q p).com.revoking = s.com.revoking ∧ (s.respond op q p).com.readData = s.com.readData ∧
    (s.respond op q p).com.snapshots = s.com.snapshots ∧ (s.respond op q p).com.snapPending = s.com.snapPending := by
  unfold State.respond; exact reply_comFrame ..

/-- As `reply_comFrame`. -/
@[simp] theorem respondLate_comFrame (s : State) (op : Nat) (q : Request) (p : List Byte) :
    (s.respondLate op q p).com.scratch0 = s.com.scratch0 ∧ (s.respondLate op q p).com.scratch1 = s.com.scratch1 ∧
    (s.respondLate op q p).com.chamberHi = s.com.chamberHi ∧ (s.respondLate op q p).com.evtThreshold = s.com.evtThreshold ∧
    (s.respondLate op q p).com.msix = s.com.msix ∧ (s.respondLate op q p).com.d3hot = s.com.d3hot ∧
    (s.respondLate op q p).com.lastServed = s.com.lastServed ∧ (s.respondLate op q p).com.spiT0Only = s.com.spiT0Only ∧
    (s.respondLate op q p).com.i2cOff = s.com.i2cOff ∧ (s.respondLate op q p).com.policies = s.com.policies ∧
    (s.respondLate op q p).com.revoking = s.com.revoking ∧ (s.respondLate op q p).com.readData = s.com.readData ∧
    (s.respondLate op q p).com.snapshots = s.com.snapshots ∧ (s.respondLate op q p).com.snapPending = s.com.snapPending := by
  unfold State.respondLate; exact reply_comFrame ..

/-- Holding a command changes the list of received commands alone. -/
@[simp] theorem hold_comFrame (s : State) (op : Nat) (q : Request) :
    (s.hold op q).com.scratch0 = s.com.scratch0 ∧ (s.hold op q).com.scratch1 = s.com.scratch1 ∧
    (s.hold op q).com.chamberHi = s.com.chamberHi ∧ (s.hold op q).com.evtThreshold = s.com.evtThreshold ∧
    (s.hold op q).com.msix = s.com.msix ∧ (s.hold op q).com.pba = s.com.pba ∧ (s.hold op q).com.msiSent = s.com.msiSent ∧
    (s.hold op q).com.d3hot = s.com.d3hot ∧ (s.hold op q).com.pages = s.com.pages ∧
    (s.hold op q).com.lastServed = s.com.lastServed ∧ (s.hold op q).com.spi = s.com.spi ∧ (s.hold op q).com.i2c = s.com.i2c ∧
    (s.hold op q).com.spiT0Only = s.com.spiT0Only ∧ (s.hold op q).com.i2cOff = s.com.i2cOff ∧
    (s.hold op q).com.policies = s.com.policies ∧ (s.hold op q).com.revoking = s.com.revoking ∧
    (s.hold op q).com.relayed = s.com.relayed ∧ (s.hold op q).com.readData = s.com.readData ∧
    (s.hold op q).com.snapshots = s.com.snapshots ∧ (s.hold op q).com.snapPending = s.com.snapPending := by
  unfold State.hold; split <;> simp

/-- Deferring a response changes the list of received commands alone. -/
@[simp] theorem defer_comFrame (s : State) (op : Nat) (q : Request) :
    (s.defer op q).com.scratch0 = s.com.scratch0 ∧ (s.defer op q).com.scratch1 = s.com.scratch1 ∧
    (s.defer op q).com.chamberHi = s.com.chamberHi ∧ (s.defer op q).com.evtThreshold = s.com.evtThreshold ∧
    (s.defer op q).com.msix = s.com.msix ∧ (s.defer op q).com.pba = s.com.pba ∧ (s.defer op q).com.msiSent = s.com.msiSent ∧
    (s.defer op q).com.d3hot = s.com.d3hot ∧ (s.defer op q).com.pages = s.com.pages ∧
    (s.defer op q).com.lastServed = s.com.lastServed ∧ (s.defer op q).com.spi = s.com.spi ∧ (s.defer op q).com.i2c = s.com.i2c ∧
    (s.defer op q).com.spiT0Only = s.com.spiT0Only ∧ (s.defer op q).com.i2cOff = s.com.i2cOff ∧
    (s.defer op q).com.policies = s.com.policies ∧ (s.defer op q).com.revoking = s.com.revoking ∧
    (s.defer op q).com.relayed = s.com.relayed ∧ (s.defer op q).com.readData = s.com.readData ∧
    (s.defer op q).com.snapshots = s.com.snapshots ∧ (s.defer op q).com.snapPending = s.com.snapPending := by
  unfold State.defer; simp

/-- A refusal changes of the command interface what a response changes. -/
@[simp] theorem refuse_comFrame (s : State) (op : Nat) (q : Request) (n : Nat) (r : Refuse) :
    (s.refuse op q n r).com.scratch0 = s.com.scratch0 ∧ (s.refuse op q n r).com.scratch1 = s.com.scratch1 ∧
    (s.refuse op q n r).com.chamberHi = s.com.chamberHi ∧ (s.refuse op q n r).com.evtThreshold = s.com.evtThreshold ∧
    (s.refuse op q n r).com.msix = s.com.msix ∧ (s.refuse op q n r).com.d3hot = s.com.d3hot ∧
    (s.refuse op q n r).com.lastServed = s.com.lastServed ∧ (s.refuse op q n r).com.spiT0Only = s.com.spiT0Only ∧
    (s.refuse op q n r).com.i2cOff = s.com.i2cOff ∧ (s.refuse op q n r).com.policies = s.com.policies ∧
    (s.refuse op q n r).com.revoking = s.com.revoking ∧ (s.refuse op q n r).com.readData = s.com.readData ∧
    (s.refuse op q n r).com.snapshots = s.com.snapshots ∧ (s.refuse op q n r).com.snapPending = s.com.snapPending := by
  unfold State.refuse; dsimp only; split <;> simp

/-- A run of changes that each keep a property keeps it. -/
theorem foldl_keeps {α β : Type} (P : β → Prop) (f : β → α → β) (h : ∀ b a, P b → P (f b a)) :
    ∀ (l : List α) (b : β), P b → P (l.foldl f b)
  | [], _, hb => hb
  | a :: l, b, hb => foldl_keeps P f h l (f b a) (h b a hb)

/-- Sending the due domain messages changes the management queues, the message counters and the list of due responses alone. -/
@[simp] theorem sendRelayed_frame (s : State) :
    (s.sendRelayed).now = s.now ∧ (s.sendRelayed).epoch = s.epoch ∧ (s.sendRelayed).node = s.node ∧
    (s.sendRelayed).generation = s.generation ∧ (s.sendRelayed).mono = s.mono ∧ (s.sendRelayed).freeCtr = s.freeCtr ∧
    (s.sendRelayed).variant = s.variant ∧ (s.sendRelayed).jobs = s.jobs ∧ (s.sendRelayed).mem = s.mem ∧
    (s.sendRelayed).pas = s.pas ∧ (s.sendRelayed).tab = s.tab ∧ (s.sendRelayed).cip = s.cip ∧ (s.sendRelayed).host = s.host ∧
    (s.sendRelayed).cnt = s.cnt ∧ (s.sendRelayed).log = s.log ∧ (s.sendRelayed).hk = s.hk ∧ (s.sendRelayed).power = s.power ∧
    (s.sendRelayed).boot = s.boot ∧ (s.sendRelayed).store = s.store ∧ (s.sendRelayed).guide = s.guide ∧
    (s.sendRelayed).tap = s.tap ∧ (s.sendRelayed).pending = s.pending ∧ (s.sendRelayed).com.scratch0 = s.com.scratch0 ∧
    (s.sendRelayed).com.scratch1 = s.com.scratch1 ∧ (s.sendRelayed).com.chamberHi = s.com.chamberHi ∧
    (s.sendRelayed).com.evtThreshold = s.com.evtThreshold ∧ (s.sendRelayed).com.msix = s.com.msix ∧
    (s.sendRelayed).com.pba = s.com.pba ∧ (s.sendRelayed).com.msiSent = s.com.msiSent ∧ (s.sendRelayed).com.d3hot = s.com.d3hot ∧
    (s.sendRelayed).com.pages = s.com.pages ∧ (s.sendRelayed).com.lastServed = s.com.lastServed ∧
    (s.sendRelayed).com.spi = s.com.spi ∧ (s.sendRelayed).com.i2c = s.com.i2c ∧ (s.sendRelayed).com.spiT0Only = s.com.spiT0Only ∧
    (s.sendRelayed).com.i2cOff = s.com.i2cOff ∧ (s.sendRelayed).com.policies = s.com.policies ∧
    (s.sendRelayed).com.revoking = s.com.revoking ∧ (s.sendRelayed).com.received = s.com.received ∧
    (s.sendRelayed).com.readData = s.com.readData ∧ (s.sendRelayed).com.snapshots = s.com.snapshots ∧
    (s.sendRelayed).com.snapPending = s.com.snapPending := by
  unfold State.sendRelayed
  refine foldl_keeps (fun u : State =>
    (u).now = s.now ∧ (u).epoch = s.epoch ∧ (u).node = s.node ∧ (u).generation = s.generation ∧ (u).mono = s.mono ∧
    (u).freeCtr = s.freeCtr ∧ (u).variant = s.variant ∧ (u).jobs = s.jobs ∧ (u).mem = s.mem ∧ (u).pas = s.pas ∧ (u).tab = s.tab ∧
    (u).cip = s.cip ∧ (u).host = s.host ∧ (u).cnt = s.cnt ∧ (u).log = s.log ∧ (u).hk = s.hk ∧ (u).power = s.power ∧
    (u).boot = s.boot ∧ (u).store = s.store ∧ (u).guide = s.guide ∧ (u).tap = s.tap ∧ (u).pending = s.pending ∧
    (u).com.scratch0 = s.com.scratch0 ∧ (u).com.scratch1 = s.com.scratch1 ∧ (u).com.chamberHi = s.com.chamberHi ∧
    (u).com.evtThreshold = s.com.evtThreshold ∧ (u).com.msix = s.com.msix ∧ (u).com.pba = s.com.pba ∧
    (u).com.msiSent = s.com.msiSent ∧ (u).com.d3hot = s.com.d3hot ∧ (u).com.pages = s.com.pages ∧
    (u).com.lastServed = s.com.lastServed ∧ (u).com.spi = s.com.spi ∧ (u).com.i2c = s.com.i2c ∧
    (u).com.spiT0Only = s.com.spiT0Only ∧ (u).com.i2cOff = s.com.i2cOff ∧ (u).com.policies = s.com.policies ∧
    (u).com.revoking = s.com.revoking ∧ (u).com.received = s.com.received ∧ (u).com.readData = s.com.readData ∧
    (u).com.snapshots = s.com.snapshots ∧ (u).com.snapPending = s.com.snapPending) _ (fun u x h => ?_) _ _ ?_
  · simpa using h
  · and_intros <;> rfl

/-- The due domain messages have all been sent. -/
@[simp] theorem sendRelayed_settled (s : State) : s.sendRelayed.com.relayed = [] := by
  unfold State.sendRelayed
  refine foldl_keeps (fun u : State => u.com.relayed = []) _ (fun u x h => ?_) _ _ rfl
  simpa using h

/-- An answer changes the command interface, the management queues and the message counters alone. -/
@[simp] theorem answer_frame (s : State) (op : Nat) (q : Request) (p : List Byte) :
    (s.answer op q p).now = s.now ∧ (s.answer op q p).epoch = s.epoch ∧ (s.answer op q p).node = s.node ∧
    (s.answer op q p).generation = s.generation ∧ (s.answer op q p).mono = s.mono ∧ (s.answer op q p).freeCtr = s.freeCtr ∧
    (s.answer op q p).variant = s.variant ∧ (s.answer op q p).jobs = s.jobs ∧ (s.answer op q p).mem = s.mem ∧
    (s.answer op q p).pas = s.pas ∧ (s.answer op q p).tab = s.tab ∧ (s.answer op q p).cip = s.cip ∧
    (s.answer op q p).host = s.host ∧ (s.answer op q p).cnt = s.cnt ∧ (s.answer op q p).log = s.log ∧ (s.answer op q p).hk = s.hk ∧
    (s.answer op q p).power = s.power ∧ (s.answer op q p).boot = s.boot ∧ (s.answer op q p).store = s.store ∧
    (s.answer op q p).guide = s.guide ∧ (s.answer op q p).tap = s.tap ∧ (s.answer op q p).pending = s.pending ∧
    (s.answer op q p).com.relayed = [] ∧ (s.answer op q p).com.scratch0 = s.com.scratch0 ∧
    (s.answer op q p).com.scratch1 = s.com.scratch1 ∧ (s.answer op q p).com.chamberHi = s.com.chamberHi ∧
    (s.answer op q p).com.evtThreshold = s.com.evtThreshold ∧ (s.answer op q p).com.msix = s.com.msix ∧
    (s.answer op q p).com.d3hot = s.com.d3hot ∧ (s.answer op q p).com.lastServed = s.com.lastServed ∧
    (s.answer op q p).com.spiT0Only = s.com.spiT0Only ∧ (s.answer op q p).com.i2cOff = s.com.i2cOff ∧
    (s.answer op q p).com.policies = s.com.policies ∧ (s.answer op q p).com.revoking = s.com.revoking ∧
    (s.answer op q p).com.readData = s.com.readData ∧ (s.answer op q p).com.snapshots = s.com.snapshots ∧
    (s.answer op q p).com.snapPending = s.com.snapPending := by
  unfold State.answer; simp

@[simp] theorem accepted_frame (s : State) :
    s.accepted.now = s.now ∧ s.accepted.epoch = s.epoch ∧ s.accepted.node = s.node ∧ s.accepted.generation = s.generation ∧
    s.accepted.mono = s.mono ∧ s.accepted.freeCtr = s.freeCtr ∧ s.accepted.variant = s.variant ∧ s.accepted.com = s.com ∧
    s.accepted.jobs = s.jobs ∧ s.accepted.mem = s.mem ∧ s.accepted.engs = s.engs ∧ s.accepted.pas = s.pas ∧
    s.accepted.tab = s.tab ∧ s.accepted.cip = s.cip ∧ s.accepted.host = s.host ∧ s.accepted.ul = s.ul ∧ s.accepted.cnt = s.cnt ∧
    s.accepted.tim = s.tim ∧ s.accepted.log = s.log ∧ s.accepted.hk = s.hk ∧ s.accepted.power = s.power ∧
    s.accepted.boot = s.boot ∧ s.accepted.store = s.store ∧ s.accepted.tap = s.tap ∧ s.accepted.pending = s.pending := by
  and_intros <;> rfl

/-- Answering every request of a list changes the command interface alone. -/
@[simp] theorem foldl_respond_frame (op : Nat) (p : List Byte) (l : List (Nat × Request)) (s : State) :
    (l.foldl (fun (s : State) (w : Nat × Request) => s.respond op w.2 p) s).now = s.now ∧
    (l.foldl (fun (s : State) (w : Nat × Request) => s.respond op w.2 p) s).epoch = s.epoch ∧
    (l.foldl (fun (s : State) (w : Nat × Request) => s.respond op w.2 p) s).node = s.node ∧
    (l.foldl (fun (s : State) (w : Nat × Request) => s.respond op w.2 p) s).generation = s.generation ∧
    (l.foldl (fun (s : State) (w : Nat × Request) => s.respond op w.2 p) s).mono = s.mono ∧
    (l.foldl (fun (s : State) (w : Nat × Request) => s.respond op w.2 p) s).freeCtr = s.freeCtr ∧
    (l.foldl (fun (s : State) (w : Nat × Request) => s.respond op w.2 p) s).variant = s.variant ∧
    (l.foldl (fun (s : State) (w : Nat × Request) => s.respond op w.2 p) s).jobs = s.jobs ∧
    (l.foldl (fun (s : State) (w : Nat × Request) => s.respond op w.2 p) s).mem = s.mem ∧
    (l.foldl (fun (s : State) (w : Nat × Request) => s.respond op w.2 p) s).engs = s.engs ∧
    (l.foldl (fun (s : State) (w : Nat × Request) => s.respond op w.2 p) s).pas = s.pas ∧
    (l.foldl (fun (s : State) (w : Nat × Request) => s.respond op w.2 p) s).tab = s.tab ∧
    (l.foldl (fun (s : State) (w : Nat × Request) => s.respond op w.2 p) s).cip = s.cip ∧
    (l.foldl (fun (s : State) (w : Nat × Request) => s.respond op w.2 p) s).host = s.host ∧
    (l.foldl (fun (s : State) (w : Nat × Request) => s.respond op w.2 p) s).ul = s.ul ∧
    (l.foldl (fun (s : State) (w : Nat × Request) => s.respond op w.2 p) s).cnt = s.cnt ∧
    (l.foldl (fun (s : State) (w : Nat × Request) => s.respond op w.2 p) s).tim = s.tim ∧
    (l.foldl (fun (s : State) (w : Nat × Request) => s.respond op w.2 p) s).log = s.log ∧
    (l.foldl (fun (s : State) (w : Nat × Request) => s.respond op w.2 p) s).hk = s.hk ∧
    (l.foldl (fun (s : State) (w : Nat × Request) => s.respond op w.2 p) s).power = s.power ∧
    (l.foldl (fun (s : State) (w : Nat × Request) => s.respond op w.2 p) s).boot = s.boot ∧
    (l.foldl (fun (s : State) (w : Nat × Request) => s.respond op w.2 p) s).store = s.store ∧
    (l.foldl (fun (s : State) (w : Nat × Request) => s.respond op w.2 p) s).guide = s.guide ∧
    (l.foldl (fun (s : State) (w : Nat × Request) => s.respond op w.2 p) s).tap = s.tap ∧
    (l.foldl (fun (s : State) (w : Nat × Request) => s.respond op w.2 p) s).pending = s.pending := by
  induction l generalizing s with
  | nil => and_intros <;> rfl
  | cons a l ih => simpa using ih (s.respond op a.2 p)

/-- Changing the element of a key changes the element that the key finds. -/
theorem find_map_key {α : Type} {g : α → Nat} {f : α → α} {k : Nat} {j : α} {l : List α} (hf : ∀ j, g (f j) = g j)
    (h : l.find? (fun j => g j == k) = some j) :
    (l.map fun j => if g j = k then f j else j).find? (fun j => g j == k) = some (f j) := by
  induction l with
  | nil => simp at h
  | cons a l ih =>
    by_cases ha : g a = k
    · simp only [List.find?_cons, ha, beq_self_eq_true, Option.some.injEq] at h
      subst h
      simp [ha, hf]
    · have hb : (g a == k) = false := by simp [ha]
      simp only [List.find?_cons, hb] at h
      simp only [List.map_cons, List.find?_cons, if_neg ha, hb]
      exact ih h

/-- Changing the job of a token changes the job that the token finds. -/
theorem find_modJob {f : Job → Job} {k : Nat} {j : Job} {l : List Job} (hf : ∀ j, (f j).token = j.token)
    (h : l.find? (fun j => j.token == k) = some j) :
    (l.map fun j => if j.token = k then f j else j).find? (fun j => j.token == k) = some (f j) :=
  find_map_key (g := Job.token) hf h

/-- The job of a token has that token. -/
theorem job_token {s : State} {k : Nat} {j : Job} (h : s.job k = some j) : j.token = k := by
  have h' : s.jobs.list.find? (fun j => j.token == k) = some j := h
  have h2 := List.find?_some h'
  exact eq_of_beq h2

/-- Scheduling changes the list of commits alone. -/
@[simp] theorem schedule_frame (s : State) (cc : Nat) (p : Option Paired) (r : List (Nat × RawOp)) (x : List FwChange) :
    (s.schedule cc p r x).now = s.now ∧ (s.schedule cc p r x).epoch = s.epoch ∧ (s.schedule cc p r x).node = s.node ∧
    (s.schedule cc p r x).generation = s.generation ∧ (s.schedule cc p r x).mono = s.mono ∧
    (s.schedule cc p r x).freeCtr = s.freeCtr ∧ (s.schedule cc p r x).variant = s.variant ∧ (s.schedule cc p r x).com = s.com ∧
    (s.schedule cc p r x).jobs = s.jobs ∧ (s.schedule cc p r x).mem = s.mem ∧ (s.schedule cc p r x).engs = s.engs ∧
    (s.schedule cc p r x).pas = s.pas ∧ (s.schedule cc p r x).cip = s.cip ∧ (s.schedule cc p r x).host = s.host ∧
    (s.schedule cc p r x).ul = s.ul ∧ (s.schedule cc p r x).cnt = s.cnt ∧ (s.schedule cc p r x).tim = s.tim ∧
    (s.schedule cc p r x).log = s.log ∧ (s.schedule cc p r x).hk = s.hk ∧ (s.schedule cc p r x).power = s.power ∧
    (s.schedule cc p r x).boot = s.boot ∧ (s.schedule cc p r x).store = s.store ∧ (s.schedule cc p r x).guide = s.guide ∧
    (s.schedule cc p r x).tap = s.tap ∧ (s.schedule cc p r x).pending = s.pending := by
  and_intros <;> rfl

/-- An element inserted in order is in the list. -/
theorem mem_insertBy {α : Type} (le : α → α → Bool) (x : α) (l : List α) : x ∈ insertBy le x l := by
  induction l with
  | nil => simp [insertBy]
  | cons y l ih => unfold insertBy; split <;> simp [ih]

/-- What was scheduled at a chamber stands in the commit of that chamber. -/
theorem schedule_has (s : State) (cc : Nat) (p : Option Paired) (r : List (Nat × RawOp)) (xs : List FwChange) {x : FwChange}
    (h : x ∈ xs) : (s.schedule cc p r xs).hasScheduled cc x := by
  unfold State.hasScheduled State.schedule
  cases hc : s.commitAt cc with
  | none => exact ⟨_, by simpa [hc, insertCommit] using mem_insertBy _ _ _, rfl, h⟩
  | some c =>
    have hm := List.mem_of_find?_eq_some hc
    have hk : c.cc = cc := by simpa using List.find?_some hc
    exact ⟨{ c with raw := c.raw ++ r, changes := c.changes ++ xs },
      by simpa [hc] using ⟨c, hm, by simp [hk]⟩, hk, by simp [h]⟩

end Sys2Proof.Laws
end

