-- ==== Sys2Proof/Laws/Tab.lean ====
section
/-!
SUPPORT. Tables and byte memories: a read after a write, what a write leaves alone, and that every operation keeps the canonical form.
-/
namespace Sys2Proof.Laws
open Sys2Proof.Machine

variable {α : Type}

@[simp] theorem tget_nil (k : Nat) : tget ([] : Tab α) k = none := rfl

/-- The entry just set is found. -/
@[simp] theorem tget_tput_self (t : Tab α) (k : Nat) (v : α) : tget (tput t k v) k = some v := by
  induction t with
  | nil => simp [tput, tget]
  | cons e t ih =>
    obtain ⟨k', v'⟩ := e
    unfold tput
    split
    · simp [tget]
    · split
      · simp [tget]
      · simp [tget, *]

/-- Setting an entry leaves the others. -/
theorem tget_tput_ne (t : Tab α) {k j : Nat} (v : α) (h : j ≠ k) : tget (tput t k v) j = tget t j := by
  induction t with
  | nil => simp [tput, tget, h]
  | cons e t ih =>
    obtain ⟨k', v'⟩ := e
    unfold tput
    split
    · simp [tget, h]
    · split
      · rename_i h1
        subst h1
        simp [tget, h]
      · simp [tget, ih]

@[simp] theorem tgetD_tput_self (t : Tab α) (k : Nat) (v d : α) : tgetD (tput t k v) k d = v := by simp [tgetD]

theorem tgetD_tput_ne (t : Tab α) {k j : Nat} (v d : α) (h : j ≠ k) : tgetD (tput t k v) j d = tgetD t j d := by
  simp [tgetD, tget_tput_ne t v h]

@[simp] theorem tgetD_tupd_self (t : Tab α) (k : Nat) (d : α) (f : α → α) : tgetD (tupd t k d f) k d = f (tgetD t k d) := by
  simp [tupd]

theorem tgetD_tupd_ne (t : Tab α) {k j : Nat} (d e : α) (f : α → α) (h : j ≠ k) : tgetD (tupd t k d f) j e = tgetD t j e := by
  simp [tupd, tgetD_tput_ne t _ e h]

/-- An entry that was removed is not found. -/
@[simp] theorem tget_tdel_self (t : Tab α) (k : Nat) : tget (tdel t k) k = none := by
  induction t with
  | nil => rfl
  | cons e t ih =>
    unfold tdel at *
    by_cases h : e.1 = k
    · simp [h] at ih ⊢
      simpa using ih
    · simp [h, tget, Ne.symm h] at ih ⊢
      simpa using ih

/-- Removing an entry leaves the others. -/
theorem tget_tdel_ne (t : Tab α) {k j : Nat} (h : j ≠ k) : tget (tdel t k) j = tget t j := by
  induction t with
  | nil => rfl
  | cons e t ih =>
    obtain ⟨k', v'⟩ := e
    unfold tdel at *
    by_cases h' : k' = k
    · subst h'
      simp [tget, h] at ih ⊢
      simpa using ih
    · simp [h', tget] at ih ⊢
      simp [ih]

/-- The changed entry is found. -/
@[simp] theorem tget_tmod_self (t : Tab α) (k : Nat) (f : α → α) : tget (tmod t k f) k = (tget t k).map f := by
  induction t with
  | nil => rfl
  | cons e t ih =>
    obtain ⟨k', v'⟩ := e
    unfold tmod at *
    by_cases h : k' = k
    · simp [tget, h]
    · simp [tget, h, Ne.symm h] at ih ⊢
      simpa using ih

/-- Changing an entry leaves the others. -/
theorem tget_tmod_ne (t : Tab α) {k j : Nat} (f : α → α) (h : j ≠ k) : tget (tmod t k f) j = tget t j := by
  induction t with
  | nil => rfl
  | cons e t ih =>
    obtain ⟨k', v'⟩ := e
    unfold tmod at *
    by_cases h' : k' = k
    · subst h'
      simp [tget, h] at ih ⊢
      simpa using ih
    · simp [tget, h'] at ih ⊢
      simp [ih]

/-- Where the keys rise, an element of the table is what its key finds. -/
theorem tget_of_mem {t : Tab α} (h : Tab.wf t) {e : Nat × α} (he : e ∈ t) : tget t e.1 = some e.2 := by
  induction t with
  | nil => simp at he
  | cons a t ih =>
    obtain ⟨k', v'⟩ := a
    simp only [Tab.wf, List.pairwise_cons] at h
    simp only [List.mem_cons] at he
    rcases he with rfl | he
    · simp [tget]
    · have := h.1 e he
      simp only [tget]
      rw [if_neg (by omega)]
      exact ih h.2 he

/-- Elements of a table after an entry was set. -/
theorem mem_tput {t : Tab α} {k : Nat} {v : α} {e : Nat × α} (h : e ∈ tput t k v) : e = (k, v) ∨ e ∈ t := by
  induction t with
  | nil => simpa [tput] using h
  | cons a t ih =>
    obtain ⟨k', v'⟩ := a
    unfold tput at h
    split at h
    · simpa using h
    · split at h
      · simp only [List.mem_cons] at h ⊢
        exact h.imp_right .inr
      · simp only [List.mem_cons] at h ⊢
        rcases h with h | h
        · exact .inr (.inl h)
        · exact (ih h).imp_right .inr

/-- Setting an entry keeps the keys rising. -/
theorem tput_wf {t : Tab α} (h : Tab.wf t) (k : Nat) (v : α) : Tab.wf (tput t k v) := by
  induction t with
  | nil => simp [tput, Tab.wf]
  | cons a t ih =>
    obtain ⟨k', v'⟩ := a
    have h' := h
    simp only [Tab.wf, List.pairwise_cons] at h
    unfold tput
    split
    · rename_i hk
      simp only [Tab.wf, List.pairwise_cons, List.mem_cons]
      refine ⟨?_, h⟩
      rintro e (rfl | he)
      · exact hk
      · exact Nat.lt_trans hk (h.1 e he)
    · split
      · rename_i hk
        subst hk
        simp only [Tab.wf, List.pairwise_cons]
        exact h
      · simp only [Tab.wf, List.pairwise_cons]
        refine ⟨?_, ih h.2⟩
        intro e he
        rcases mem_tput he with rfl | he
        · simp only; omega
        · exact h.1 e he

/-- Removing an entry keeps the keys rising. -/
theorem tdel_wf {t : Tab α} (h : Tab.wf t) (k : Nat) : Tab.wf (tdel t k) := List.Pairwise.filter _ h

/-- Changing an entry keeps the keys rising. -/
theorem tmod_wf {t : Tab α} (h : Tab.wf t) (k : Nat) (f : α → α) : Tab.wf (tmod t k f) := by
  unfold tmod
  rw [Tab.wf, List.pairwise_map]
  refine List.Pairwise.imp ?_ h
  intro a b hab
  split <;> split <;> simpa using hab

/-- Elements of a table after an entry was changed. -/
theorem mem_tupd {t : Tab α} {k : Nat} {d : α} {f : α → α} {e : Nat × α} (h : e ∈ tupd t k d f) :
    e = (k, f (tgetD t k d)) ∨ e ∈ t := mem_tput h

/-! Byte memories. -/

/-- The empty memory is canonical. -/
theorem memory_nil_wf : Memory.wf [] := by simp [Memory.wf]

/-- A read after a write to the same address gives the byte written. -/
@[simp] theorem read_write_self (m : Memory) (a : Nat) (b : Byte) : (m.write a b).read a = b := by
  unfold Memory.write Memory.read
  split
  · rename_i h
    simp [tgetD, h]
  · simp

/-- A write leaves every other address alone. -/
theorem read_write_ne (m : Memory) {a c : Nat} (b : Byte) (h : c ≠ a) : (m.write a b).read c = m.read c := by
  unfold Memory.write Memory.read
  split
  · simp [tgetD, tget_tdel_ne m h]
  · exact tgetD_tput_ne m b 0 h

/-- A write keeps the canonical form. -/
theorem write_wf {m : Memory} (h : m.wf) (a : Nat) (b : Byte) : (m.write a b).wf := by
  unfold Memory.write
  split
  · exact ⟨tdel_wf h.1 a, fun e he => h.2 e (List.mem_filter.mp he).1⟩
  · rename_i hb
    refine ⟨tput_wf h.1 a b, fun e he => ?_⟩
    rcases mem_tput he with rfl | he
    · exact hb
    · exact h.2 e he

/-- A run of writes keeps the canonical form. -/
theorem writeL_wf {m : Memory} (h : m.wf) (a : Nat) (bs : List Byte) : (Memory.writeL m a bs).wf := by
  induction bs generalizing m a with
  | nil => exact h
  | cons b bs ih => exact ih (write_wf h a b) (a + 1)

/-- A run of writes leaves every address outside it alone. -/
theorem read_writeL_ne (m : Memory) (a c : Nat) (bs : List Byte) (h : c < a ∨ a + bs.length ≤ c) :
    (Memory.writeL m a bs).read c = m.read c := by
  induction bs generalizing m a with
  | nil => rfl
  | cons b bs ih =>
    simp only [List.length_cons] at h
    simp only [Memory.writeL]
    rw [ih (m.write a b) (a + 1) (by omega), read_write_ne m b (by omega)]

/-- A read inside a run of writes gives the byte written there. -/
theorem read_writeL (m : Memory) (a i : Nat) (bs : List Byte) (h : i < bs.length) :
    (Memory.writeL m a bs).read (a + i) = bs.getD i 0 := by
  induction bs generalizing m a i with
  | nil => simp at h
  | cons b bs ih =>
    simp only [Memory.writeL]
    cases i with
    | zero =>
      rw [read_writeL_ne (m.write a b) (a + 1) (a + 0) bs (by omega)]
      simp
    | succ i =>
      have := ih (m.write a b) (a + 1) i (by simpa using h)
      rw [show a + (i + 1) = a + 1 + i by omega, this]
      simp

end Sys2Proof.Laws
end

