-- ==== Sys2Proof/WellFormed.lean ====
section
/-!
DEFINITION. Which commands the transports and the device's own units can issue: operands in the ranges of the tables that give them.
-/
namespace Sys2Proof

/-- A packet whose header passed R443: a tenant of Table 12.10, a payload that fits, and the transport it came on. A ring carries the
packets of its own tenant; domain messages come on an engine or an Umran port (Table 11.3). -/
def Request.wf (q : Request) : Bool :=
  q.tenant ≤ 15 && decide (q.payload.length ≤ 4080) &&
  match q.via with
  | .ring p => p == q.tenant
  | .spi | .i2c => true
  | .domain i _ _ => (24 ≤ i && i ≤ 27) || (32 ≤ i && i ≤ 39)

/-- A timing input of Table 11.3. -/
def inputListed (i : Nat) : Bool := i ≤ 8 || (16 ≤ i && i ≤ 27) || (32 ≤ i && i ≤ 39) || (64 ≤ i && i ≤ 191)

/-- Are the operands of a command in their ranges? -/
def Instr.wf : Instr → Bool
  | .getInfo q => q.wf
  | .getVariant q => q.wf
  | .jobStatus q => q.wf
  | .jobCancel q => q.wf
  | .setTenantPolicy q => q.wf
  | .echo q => q.wf
  | .engineConfig q => q.wf
  | .engineEnable q => q.wf
  | .engineDisable q => q.wf
  | .bitloadSet q => q.wf
  | .bitloadMeasure q => q.wf
  | .txRamp q => q.wf
  | .captureSamples q => q.wf
  | .multipointConfig q => q.wf
  | .leafProfileSet q => q.wf
  | .passageOpen q => q.wf
  | .passageClose q => q.wf
  | .passageQuery q => q.wf
  | .tableWrite q => q.wf
  | .tableCommit q => q.wf
  | .tableRead q => q.wf
  | .protectGroupSet q => q.wf
  | .keyLoadWrapped q => q.wf
  | .keyRetire q => q.wf
  | .cipherBind q => q.wf
  | .cipherUnbind q => q.wf
  | .kekRotate q => q.wf
  | .refConfig q => q.wf
  | .refStatus q => q.wf
  | .loopConfig q => q.wf
  | .timeSet q => q.wf
  | .domainJoin q => q.wf
  | .memFill q => q.wf
  | .scrubConfig q => q.wf
  | .memRepair q _ => q.wf
  | .pageRetire q => q.wf
  | .eccStatus q => q.wf
  | .eventMask q => q.wf
  | .pmBinRead q => q.wf
  | .counterSnapshot q => q.wf
  | .lifeRead q => q.wf
  | .leapTableSet q _ => q.wf
  | .powerStateSet q => q.wf
  | .perfLevelSet q => q.wf
  | .driplineConfig q => q.wf
  | .belayRelease q => q.wf
  | .powerAccountRead q => q.wf
  | .reset q => q.wf
  | .fwUpdate q => q.wf
  | .fuseStatus q => q.wf
  | .ulinkConfig q => q.wf
  | .ulinkStatus q => q.wf
  | .hostPortConfig q => q.wf
  | .hostTableLoad q => q.wf
  | .flexeCalendarSet q => q.wf
  | .hkSequenceSet q => q.wf
  | .hkFilterSet q => q.wf
  | .hkRead q => q.wf
  | .calPolicy q => q.wf
  | .calRun q => q.wf
  | .cmdqTailDoorbell page _ => page ≤ 15
  | .ringFetch _ => true
  | .rspqHeadWrite page _ => page ≤ 15
  | .ringEnable page cmdqLog rspqLog => page ≤ 15 && cmdqLog ≤ 15 && rspqLog ≤ 15
  | .ringReset page => page ≤ 15
  | .intStatusClear page _ => page ≤ 15
  | .rspReadyModeration page => page ≤ 15
  | .evtRdWrite _ => true
  | .chamberLoRead => true
  | .counterLowWordRead page index => page ≤ 15 && index < 512
  | .bar0DarkRead addr size => addr < 2 ^ 24 && 1 ≤ size && size ≤ 4096
  | .registerWrite addr size _ => addr < 2 ^ 24 && 1 ≤ size && size ≤ 4096
  | .uncorrectableRegisterRead unit inst _ _ => unit < 2 ^ 16 && inst ≤ 1
  | .packetWrite bytes => decide (bytes.length < 2 ^ 17)
  | .responseRead _ => true
  | .statusRead => true
  | .regRead addr => addr < 2 ^ 32
  | .regWrite addr _ => addr < 2 ^ 32
  | .i2cPacketWrite bytes => decide (bytes.length < 2 ^ 17)
  | .i2cRead _ _ => true
  | .pciePerst => true
  | .jobStep _ => true
  | .jobComplete token => token < 2 ^ 32
  | .jobRecordExpiry => true
  | .porstNAssert => true
  | .sysrstNAssert => true
  | .supplyMonitorTrip code _ => code < 256
  | .thermalTrip _ => true
  | .thermalTripRelease _ _ => true
  | .watchdogExpiry _ => true
  | .doubleLockstepFault => true
  | .resetCommandAssert _ => true
  | .resetRelease bootSrc clkMode => bootSrc ≤ 3 && clkMode ≤ 3
  | .fuseLoad _ => true
  | .boardConfigRead => true
  | .lpddr6TrainingDone => true
  | .imageAuthenticate => true
  | .bootComplete => true
  | .tableSwap => true
  | .passageFree id => id ≤ 4095
  | .imageBankCopy => true
  | .commitStaging _ => true
  | .timedStepIssue _ => true
  | .pairedCommitDecide => true
  | .lineFrameSend n => n ≤ 7
  | .lineFrameReceive n _ => n ≤ 7
  | .fecCodewordDecode n _ _ _ => n ≤ 7
  | .domainMessageReceive => true
  | .timeStatusSend => true
  | .relayTimeout => true
  | .lineLos n _ => n ≤ 7
  | .lineLosClear n _ => n ≤ 7
  | .frozenStateExpiry n => n ≤ 7
  | .agcUpdate n _ _ => n ≤ 7
  | .rxAcquisitionStart n => n ≤ 7
  | .rxLock n _ _ _ => n ≤ 7
  | .rxAcqFail n _ => n ≤ 7
  | .warmAcquisitionTimeout n => n ≤ 7
  | .rxLockLost n _ => n ≤ 7
  | .snrWindowEnd n => n ≤ 7
  | .firstUseCommit n => n ≤ 7
  | .rxCdRecentred n => n ≤ 7
  | .lineCdOutOfSpan n => n ≤ 7
  | .lineCdInSpan n => n ≤ 7
  | .lineAdcOvr n => n ≤ 7
  | .adcClampEngage n lane => n ≤ 7 && lane ≤ 3
  | .adcClampRelease n lane => n ≤ 7 && lane ≤ 3
  | .rxFrontendLimit n _ lane _ _ => n ≤ 7 && lane ≤ 3
  | .txFrontendStep n => n ≤ 7
  | .dacClipHigh n => n ≤ 7
  | .carrierDriverOn n => n ≤ 7
  | .carrierRampStart n => n ≤ 7
  | .carrierRampEnd n => n ≤ 7
  | .carrierLaserOff n => n ≤ 7
  | .blockIngress _ _ => true
  | .blockEgress _ _ => true
  | .hostPortUp lane _ => lane ≤ 127
  | .hostPortDown lane _ _ => lane ≤ 127
  | .hostPortTimeout lane _ => lane ≤ 127
  | .hostFecWindowEnd lane _ _ => lane ≤ 127
  | .hostAdaptLimit lane _ => lane ≤ 127
  | .txTapStep lane _ _ _ => lane ≤ 127
  | .flexeCalSwitch g => g ≤ 63
  | .flexeCalTimeout g => g ≤ 63
  | .flexeCalRequest g _ => g ≤ 63
  | .flexeGroupDown g _ _ _ => g ≤ 63
  | .flexeGroupUp g => g ≤ 63
  | .protectSelect id => id ≤ 4095
  | .protectRevert id => id ≤ 4095
  | .protectSkewClear id => id ≤ 4095
  | .cipherSegment id ch _ => id ≤ 4095 && ch < 2 ^ 48
  | .cipherPairSelftestDone k _ => k ≤ 33
  | .cipherTagCheck id ch => id ≤ 4095 && ch < 2 ^ 48
  | .keySlotRelease id => id ≤ 4095
  | .cipherRekeyed id => id ≤ 4095
  | .cipherKeyAge id => id ≤ 4095
  | .refInputLost input _ => inputListed input
  | .refInputPresent input => inputListed input
  | .refQualified input => inputListed input
  | .refSecondEval _ _ => true
  | .loopNarrowStep => true
  | .oscOffsetWrite _ _ => true
  | .ppsInEdge => true
  | .qlTimeout input => inputListed input
  | .timePartnerOffset input _ => inputListed input
  | .timeElasticSlip input _ => inputListed input
  | .domainJoinApply => true
  | .burstSync n sub _ _ _ => n ≤ 7 && sub ≤ 15
  | .burstHeader n sub _ => n ≤ 7 && sub ≤ 15
  | .burstDecode n sub _ => n ≤ 7 && sub ≤ 15
  | .windowMissed n sub w ch _ => n ≤ 7 && sub ≤ 15 && w ≤ 7 && ch < 2 ^ 48
  | .leafBurstSend n sub w ch => n ≤ 7 && sub ≤ 15 && w ≤ 7 && ch < 2 ^ 48
  | .calBootDone n _ _ _ _ => n ≤ 7
  | .calTrigger n c _ _ _ => n ≤ 7 && c ≤ 7
  | .calStepEnd n c _ => n ≤ 7 && c ≤ 7
  | .sliceWindowEval n c _ _ => n ≤ 7 && c ≤ 7
  | .scrubStep _ _ _ => true
  | .memoryRead unit inst _ _ _ _ => unit < 2 ^ 16 && inst ≤ 1
  | .eccBucketLeak => true
  | .memRepairSwitch _ _ => true
  | .pageRetireSwitch _ _ => true
  | .eventRecordWrite _ island source payload => island ≤ 14 && source < 2 ^ 16 && decide (payload.length ≤ 28)
  | .logOverflow => true
  | .snapshotFreeze => true
  | .pmBinClose => true
  | .lifeRecordWrite _ => true
  | .leapTableStale => true
  | .powerTransitionDone target _ _ => (target ≤ 14 || target == 0xFF)
  | .powerEntryAborted target _ code _ => (target ≤ 14 || target == 0xFF) && code < 256
  | .wakeSource source gpio _ _ _ => 1 ≤ source && source ≤ 8 && (gpio ≤ 31 || gpio == 0xFF)
  | .driplineCycle n _ _ => n ≤ 7
  | .perfLevelChange n _ _ _ => n ≤ 7
  | .vTrimRecompute n _ => n ≤ 7
  | .pmAlert code _ => code < 256
  | .pmbusTelemetryPoll _ => true
  | .guideActiveTrap _ => true
  | .guideTakeover => true
  | .guideStandbyTrap _ => true
  | .guideStandbyReady _ => true
  | .ulinkLaneLock p lane _ _ => p ≤ 3 && lane ≤ 127
  | .ulinkFrameSend p _ => p ≤ 3
  | .ulinkFrameReceive p _ => p ≤ 3
  | .ulinkPortTimeout p => p ≤ 3
  | .ulinkRefclkMeasure _ _ => true
  | .hkFrame _ _ => true
  | .hkThermalEval => true
  | .captureTrigger n => n ≤ 7
  | .pcieD3hotTransition _ => true
  | .pmGaugeSample => true
  | .tapInstructionUpdate code => code < 256

end Sys2Proof
end

