-- ==== Sys2Proof/Tests/Slice0.lean ====
section
/-!
SUPPORT. Tests: ill-formed commands are refused by the check; small facts of single commands; and for each statement with hypotheses a state
and operands that meet them all.
-/
set_option Elab.async false
set_option linter.unusedVariables false

namespace Sys2Proof.Tests
open Sys2Proof Sys2Proof.Machine

/-- A request on the mailbox ring of a tenant. -/
def req (t : Nat) (p : List Byte) : Request := { via := .ring t, tenant := t, tag := 1, payload := p }

/-- A device of a full part that has booted: every island ACTIVE, firmware in pair 0 with its standby, LPDDR6 of 8 GiB ready. -/
def up : State :=
  { State.reset with
    now := 100 * secQ, mono := 50 * secQ
    variant := { engineCount := 8, engineMask := 0xFF, cipher := true, fuseValid := true }
    power := { islands := (List.range 15).map fun i => (i, { inReset := false }) }
    boot := { asserted := false, full := false, stage := 0xF, boardOk := true }
    guide := { active := some 0, standby := true }
    mem := { ready := true, capacity := 2 ^ 33 } }

/-- A running ECC sweep of T0 with token 1. -/
def sweepJob : Job := { serial := 1, tenant := 0, op := 0x0702, work := .sweep [] 0 0 }

/-- How a job ended. -/
def jobEnd0 : JobEnd := { outcome := 0, cancelled := false, result := [], chamber := 0, at_ := 0, order := 0 }

/-- An ended job of T0 with token 1. -/
def endedJob : Job := { sweepJob with ended := some jobEnd0 }

/-- A capture of engine 0 at the ADCs that has its one instant. -/
def capOne : Capture := { tap := 1, sub := 0, trigger := 1, count := 1, pre := 0, event := 0, chamber := 0, dest := 0, got := [(7, [1, 2, 3, 4])] }
def capJob : Job := { sweepJob with op := 0x0207, work := .capture 0 capOne }

/-- An ENGINE_CONFIG payload for engine 0: one subcarrier at 60 GBd, code 2, with a drive strength and a largest roll-off. -/
def cfgBytes (drive rollMax : Nat) : List Byte :=
  [0, 1, 2, 1] ++ le 2 600 ++ le 1 rollMax ++ [10] ++ le 4 0 ++ [64, 0, 0, 0] ++ le 2 600 ++ le 1 (16 + drive) ++ zeros 17 ++ le 2 10 ++
    [5, 0xFF]

/-- Engine 0 configured, calibrated and not enabled. -/
def dark1 : State :=
  { up with engs := [(0, { cfg := cfgOf (req 0 (cfgBytes 1 10)), cal := { bootDone := true, convs := List.replicate 8 {} } })] }

/-- Engine 0 enabled, with the profile of its configuration, its frame up and light permitted but not on. -/
def lit1 : State :=
  { up with engs := [(0, { dark1.eng 0 with
      tx := { enabled := true, prof := [64], permit := true }, rx := { frame := true, lock := true, prof := [64], farEpoch := some 0 } })] }

/-- A pending passage from host port 0 to engine 0 with protection budget 0. -/
def pas5 : Passage :=
  { owner := 0, slots := 20, ing := { kind := 1, index := 0, first := 0xFFFF }, eg := { kind := 3, index := 0, sub := 1, leaf := 0xFFFF }
    mode := 0, skew := 0, trail := 9, start := 100000000, terms := [250, 2560, 0, 0, 0, 410], plane := List.range 20, base := 0 }

/-- Passage 5 is pending. -/
def open5 : State := { lit1 with pas := [(5, pas5)] }

/-- Passage 5 pending and engine 1 lit as engine 0. -/
def legged : State := { open5 with engs := [(0, lit1.eng 0), (1, lit1.eng 0)] }

/-- A plain host port that is up, and a FlexE PHY. -/
def plainPort : HostPort :=
  { phy := 0, rate := 2, plain := true, flags := 0, txInvert := 0, rxInvert := 0, degSet := 0, degClear := 0, degWin := 0, up := true, wasUp := true }
def flexPhy (up : Bool) : HostPort :=
  { phy := 1, rate := 2, plain := false, flags := 0, txInvert := 0, rxInvert := 0, degSet := 5, degClear := 2, degWin := 9000, up := up, wasUp := up }

/-- Host port 0 of 20 slots, and engine 0 lit. -/
def opens : State :=
  { lit1 with host := { ports := [(0, plainPort)] } }

/-- PASSAGE_OPEN of 20 slots as passage 5 from host port 0 to subcarrier 0 of engine 0. -/
def openBytes : List Byte :=
  [5, 0] ++ le 2 20 ++ [1, 0, 0, 0, 0, 0, 0, 0] ++ ([3, 0, 1, 0] ++ le 2 0xFFFF ++ le 2 0xFFFF) ++ [0, 0, 9, 0] ++ zeros 12

/-- Engine 0 configured as a hub. -/
def hub1 : State := { lit1 with engs := [(0, { lit1.eng 0 with mp := { role := 1 } })] }

/-- T0's KEK. -/
def kek0 : Kek := { gen := 1, key := List.replicate 32 1 }

/-- A key of 32 bytes 7 wrapped under `kek0`. -/
def wrapped0 : List Byte := keyWrap kek0.key (List.replicate 32 7)

/-- T0 has a KEK and a loaded traffic key in slot 3; the device has joined a domain. -/
def keyed : State :=
  { lit1 with
    cip := { keks := [(0, kek0)], slots := [(3, { st := .loaded, key := List.replicate 32 7 })] }
    tim := { joined := true } }

/-- KEY_LOAD_WRAPPED of `wrapped0` into slot 0. -/
def loadBytes : List Byte := [0, 0, 1, 0] ++ le 4 9 ++ le 4 1 ++ wrapped0


/-- A firmware write of an image of T0, and a fill of 8 KiB. -/
def writeJob : Job := { serial := 1, tenant := 0, op := 0x0902, work := .fwWrite 1 0 }
def fillJob : Job := { serial := 1, tenant := 0, op := 0x0601, work := .fill 1 0x0C00 0 8192 7 0 }

/-- Page 0's rings of 8 entries run, with one command waiting. -/
def ringUp : State :=
  { up with com := { pages := [(0, { enable := true, cmdqLog := 3, rspqLog := 3, cmdqTail := 1 })] } }

/-- The live window of T0 shows the transmit counters of engine 0. -/
def viewTx : State := { lit1 with com := { pages := [(0, { ctrSelect := 0x03000000 })] } }

/-- PPS_IN is QUALIFIED and serves as time source. -/
def ref8 : TimeInput := { ql := 2, timeUse := true, st := 3, qualAt := 1 }
def refs : State := { up with tim := { inputs := [(8, ref8)], selected := some 8, source := some 8, present := [8], loopSt := 2, joinCh := 1 } }

/-- Umran port 0 is up. -/
def linked : State := { up with ul := { ports := [(0, { up := true })] } }

/-- A relayed command of T0 for node 0, and a running relay of T0 with token 1. -/
def relayed1 : List Byte := [1, 1, 7, 0, 0, 0, 0, 0] ++ le 8 5 ++ packet 0x0106 0 1 [] ++ zeros 16
def relayJob : Job := { serial := 1, tenant := 0, op := 0x0505, work := .relay 0 0 0 }

/-- The passage buffer and the start of LPDDR6 hold valid blocks. -/
def valued : State :=
  { up with mem := { up.mem with insts := [(0x0402, { valid := [(0, 16)] }), (0x1800, { valid := [(0, 4)] })] } }

/-- An event record. -/
def ev1 : EvRec := EvRec.mk 5 1 1 false 0x0107 0 0 (zeros 14)

/-- Engine 0's island is PARKED. -/
def parked : State := { up with power := { up.power with islands := tput up.power.islands 3 { st := .parked, inReset := false } } }

/-- Engine 0 is in Dripline and watches LOSDET0 alone. -/
def drip : State :=
  { up with
    power := { up.power with islands := tput up.power.islands 3 { st := .dripline, inReset := false } }
    engs := [(0, { pwr := { useSlice := false } })] }

/-- A boot at a stage, and a fuse array of eight engines with the cipher. -/
def booting (stage : Nat) : State := { State.reset with boot := { asserted := false, full := false, stage := stage } }
def goodFuse : FuseRead := FuseRead.mk [1, 2, 2054417452] [1, 2, 2054417452] 8 true false 1 7 [] []

/-- A host board table of one entry: lane 8 at RATE 2, with its checksum. -/
def tableBody : List Byte := [0xB7, 1, 1, 0, 1, 0, 0, 0] ++ le 4 77
def tableEntry8 : List Byte := [8, 2, 0, 0, 0xFA, 52, 0xFA, 80, 12, 0, 31, 32, 32, 16, 0, 0]
def tableBytes : List Byte := tableBody ++ le 4 (crc32c (tableBody ++ zeros 4 ++ tableEntry8)) ++ tableEntry8

/-- Host port 0 is a FlexE PHY, up or down, and a FlexE group 3 of it. -/
def flexUp : State :=
  { up with host := { ports := [(0, flexPhy true)], lanes := [(0, {})] } }
def flexDown : State :=
  { up with host := { ports := [(0, flexPhy false)], lanes := [(0, {})] } }
def flexG : FlexGroup := { groupId := 5, phys := [0], calA := List.replicate 40 7, clients := [FlexClient.mk 7 0 (some 5)] }

/-- FLEXE_CALENDAR_SET of group 3, every entry for client 7. -/
def flexSet (act mode : Nat) : List Byte :=
  [3] ++ le 1 act ++ le 1 (if act = 1 then 1 else 0) ++ le 1 mode ++ le 4 5 ++ [0] ++ List.replicate 7 0xFF ++ zeros 8 ++ le 2 40 ++ zeros 2 ++
    (List.replicate 40 (le 2 7)).flatten

/-- Umran port 0 is up with its four lanes locked, and a frame whose OCRC holds. -/
def ulLanes : List UlLane := [{ locked := true, id := 0 }, { locked := true, id := 1, skew := 3 }, { locked := true, id := 2 }, { locked := true, id := 3, skew := 9 }]
def locked4 : State := { up with ul := { ports := [(0, { up := true, wasUp := true, lanes := ulLanes, good := 2 })] } }
def ulWords : List Nat := [9 * 2 ^ 48, 5 * 2 ^ 52, 0, 0] ++ List.replicate 10 0
def ulFrame (ws : List Nat) : UlFrame :=
  { lanes := (({} : UlPort).lanesFor (portBlocks 0 ws (zeros 32) [])).map fun l => l.1.take 5 }
def ulGood : UlFrame := ulFrame (ulWords.set 3 (ocrc ulWords))
def ulBad : UlFrame := ulFrame (ulWords.set 3 (ocrc ulWords + 1))

/-- Engine 0's converters stand calibrated, with a rover; and a run of converter 0. -/
def calConv (c : Nat) : Conv := { hold := List.range (positions c), rover := some (positions c), reserve := some (positions c + 1) }
def calUp : State :=
  { dark1 with engs := [(0, { dark1.eng 0 with cal := { bootDone := true, ohms := some 2000, convs := (List.range 8).map calConv } })] }
def run1 : Run := { trigger := 3, temp := 0, chamber := 0, since := 0, job := false, off := 64, checked := true }
def calRun1 : State := { calUp.modConv 0 0 fun v => { v with run := some run1, rover := none } with mono := secQ }

/-- Converter 0 of housekeeping samples channel 5. -/
def hkUp : State := { up with hk := { conv0 := { seq := { entries := [{ channel := 5 }] } } } }

/-- A raw-only commit is due. -/
def swapC : Commit := { cc := up.chamber, raw := [(13, .trunc 0)], staged := true }
def swapUp : State := { up with tab := { commits := [swapC] } }

/-- Engine 0 is in lock and in frame lock, and a frame of chamber 50 whose header holds. -/
def framed : State := lit1.modRx 0 fun r => { r with los := false, expect := some (50, 0) }
def headBits : List Nat := [0xC35A * 2 ^ 48 + 50, 9 * 2 ^ 48, 0, 0, 0, 0, 0]
def goodHeader : List Nat := headBits ++ [headerCrc (headBits ++ [0])]
def goodFrame : LineFrame := { bits := (Bits.ofFields 64 goodHeader).padTo 80000, arrival := 5000 }

/-- Engine 0 with light and no lock, acquiring cold, warm or not at all. -/
def acquiring (a : Option Bool) : State := framed.modRx 0 fun r => { r with lock := false, frame := false, acq := a }

/-- Engine 0 has a window that asks for the profile in force, and the far end shares the epoch. -/
def firstUse : State :=
  { framed with variant := { framed.variant with cipher := false } }.modRx 0 fun r => { r with
    use := 3, farEpoch := some framed.epoch, theta := some 0, window := some (9, [0]), prof := (framed.eng 0).cfg.chooseH [0] }

/-- Engine 0 with a span of dispersion. -/
def spanned : State := framed.modEng 0 fun e => { e with cfg := { e.cfg with dspan := 80000 } }

/-- Engine 0's carrier in a stage that began long ago. -/
def carrier (c : CarSt) : State := lit1.modTx 0 fun t => { t with car := c, carAt := 0, ramp := 5 }

/-- ACTIVE passages from engine 0 to host port 0, without and with a protect leg on engine 1. -/
def pas6 : Passage :=
  { pas5 with ing := { kind := 3, index := 0, sub := 1, leaf := 0xFFFF, first := 0 }, eg := { kind := 1, index := 0, first := 0xFFFF }, st := 2 }
def leg1 : ProtLeg := { engine := 1, sub := 1, first := 0, wtr := 60 - 50 }
def pas7 : Passage := { pas6 with skew := 5, leg := some leg1, legLive := true }

/-- The active banks carry a passage; a switch word of it by one of its slots. -/
def routed (s : State) (id : Nat) (p : Passage) : State :=
  { s with pas := [(id, p)], tab := { s.tab with banks := addServing s.tab.banks id (s.compile id p (0, 0)) } }
def routeAt (s : State) (a : SlotAt) (egress : Bool) : StepWord := match s.route a egress with | some r => r.w | none => 0
def routeWord (s : State) : StepWord := routeAt s { kind := 3, index := 0, sub := 1, slot := 3 } false
def routeIn (s : State) : StepWord := routeAt s { kind := 1, index := 0, leaf := 0 } false
def routeOut (s : State) : StepWord := routeAt s { kind := 3, index := 0, sub := 1, slot := 3 } true
def downPort : State := { opens with host := { ports := [(0, { plainPort with up := false })] } }

/-- ACTIVE passage 5 from host port 0 to engine 0 with a block that is due, plain and encrypted. -/
def qpas5 : Passage := { pas5 with st := 2, queue := [QBlock.mk Block.idle 0 0 0 0 false false] }
def sealPas : Passage := { qpas5 with slots := 1, plane := [0], mode := 1, key := some 3, start := 0 }
def sealing : State := { keyed with pas := [(5, sealPas)] }

/-- Compare pair 4 is in its self-test; and a segment of the decrypting passage 5 waits for its tag. -/
def retired : State := { keyed with cip := { keyed.cip with pairs := [(4, { st := 2 })] } }
def seg77 : Segment := { ch := 77, out := [(Block.idle, some (QBlock.mk Block.idle 77 77 0 0 false false))], tag := 123 }
def tagPas : Passage := { pas6 with mode := 1 }
def tagEng : Engine := framed.eng 0
def tagBits : Bits := tagEng.cfg.frameOf [64] 78 goodHeader [] [2 ^ 129 + 123] []
def tagged : State :=
  { keyed with
    engs := [(0, { tagEng with rx := { tagEng.rx with bits := tagBits, bitsCh := 78 } })]
    pas := [(5, tagPas)], cip := { slots := [(7, { st := .bound })], pas := [(5, { segs := [seg77] })] } }

/-- Engine 0 is a hub that gives window 2 of subcarrier 0 to leaf 3, or a leaf that sends in it. -/
def winWord (act : Nat) : FwWord := { w := stepWord (3 * 2 ^ 53) 0 act 2 0 0 0 0 }
def hubUp : State :=
  { hub1 with engs := [(0, { hub1.eng 0 with mp := { role := 1, profs := [(3, { st := 2 })] } })], tab := { banks := [(3, { fw := [winWord 0x25] })] } }
def leafUp : State :=
  { hubUp with
    engs := [(0, { framed.eng 0 with
      mp := { role := 2, leafId := 3, leafSt := 2 }, rx := { (framed.eng 0).rx with farEpoch := some hubUp.epoch } })]
    tab := { banks := [(3, { fw := [winWord 0x26] })] } }

/-- The AES-256 example of FIPS 197, appendix C.3. -/
theorem test_aes_known_answer :
    aes ((List.range 32).map (BitVec.ofNat 8 ·)) 0x00112233445566778899AABBCCDDEEFF = 0x8EA2B7CA516745BFEAFC49904B496089 := by
  decide +kernel

/-! The well-formedness check refuses a term for each of its checks. -/

/-- A tenant beyond T15, a payload beyond 4 080 bytes, a ring that is not the tenant's, a domain message from an input that carries none. -/
theorem test_wf_request :
    (req 16 []).wf = false ∧ (req 0 (zeros 4081)).wf = false ∧ ({ req 1 [] with via := .ring 2 } : Request).wf = false ∧
    ({ req 1 [] with via := .domain 8 0 false } : Request).wf = false ∧ (Instr.getInfo (req 16 [])).wf = false ∧
    (req 15 (zeros 4080)).wf = true := by decide +kernel

/-- Ring rows: pages 0 to 15, ring sizes, addresses of 24 bits, register accesses of 1 to 4 096 bytes, counters 0 to 511. -/
theorem test_wf_rings :
    (Instr.ringReset 16).wf = false ∧ (Instr.ringEnable 0 16 4).wf = false ∧ (Instr.counterLowWordRead 0 512).wf = false ∧
    (Instr.bar0DarkRead (2 ^ 24) 4).wf = false ∧ (Instr.registerWrite 0 0 0).wf = false ∧ (Instr.ringReset 15).wf = true := by decide +kernel

/-- Target rows: a packet of less than 2^17 bytes, an instance number, an address of 32 bits. -/
theorem test_wf_packets (l : List Byte) (h : l.length = 2 ^ 17) : (Instr.packetWrite l).wf = false ∧ (Instr.i2cPacketWrite l).wf = false := by
  simp [Instr.wf, h]
theorem test_wf_targets :
    (Instr.uncorrectableRegisterRead 0 2 0 true).wf = false ∧ (Instr.regRead (2 ^ 32)).wf = false ∧ (Instr.regRead 4).wf = true := by decide +kernel

/-- Engines 0 to 7, lanes 0 to 3 of an engine, subcarriers 0 to 15, windows 0 to 7, chambers of 48 bits, converters 0 to 7. -/
theorem test_wf_engines :
    (Instr.lineLos 8 0).wf = false ∧ (Instr.adcClampEngage 0 4).wf = false ∧ (Instr.burstHeader 0 16 0).wf = false ∧
    (Instr.leafBurstSend 0 0 8 0).wf = false ∧ (Instr.leafBurstSend 0 0 0 (2 ^ 48)).wf = false ∧
    (Instr.calTrigger 0 8 0 0 0).wf = false ∧ (Instr.lineLos 7 0).wf = true := by decide +kernel

/-- Passages 0 to 4095, host lanes 0 to 127, FlexE groups 0 to 63, cipher pairs 0 to 33, Umran ports 0 to 3, timing inputs of Table 11.3. -/
theorem test_wf_units :
    (Instr.passageFree 4096).wf = false ∧ (Instr.hostPortUp 128 []).wf = false ∧ (Instr.flexeGroupUp 64).wf = false ∧
    (Instr.cipherPairSelftestDone 34 none).wf = false ∧ (Instr.ulinkPortTimeout 4).wf = false ∧ (Instr.refInputLost 9 0).wf = false ∧
    (Instr.refInputLost 191 0).wf = true := by decide +kernel

/-- Job tokens, rails, straps, memories, event records, power targets, wake sources and test access port codes. -/
theorem test_wf_others :
    (Instr.jobComplete (2 ^ 32)).wf = false ∧ (Instr.supplyMonitorTrip 256 0).wf = false ∧ (Instr.resetRelease 4 0).wf = false ∧
    (Instr.eventRecordWrite .jobComplete 15 0 []).wf = false ∧ (Instr.eventRecordWrite .jobComplete 0 0 (zeros 29)).wf = false ∧
    (Instr.powerTransitionDone 15 [] true).wf = false ∧ (Instr.wakeSource 9 0 false 0 []).wf = false ∧
    (Instr.tapInstructionUpdate 256).wf = false ∧ (Instr.pmAlert 256 0).wf = false := by decide +kernel

/-! Small facts, each from a number the specification states. -/

/-- CRC-32C of the nine digits (R441). -/
theorem test_crc32c_check_value : crc32c ([0x31, 0x32, 0x33, 0x34, 0x35, 0x36, 0x37, 0x38, 0x39] : List Byte) = 0xE3069283 := by decide +kernel

/-- The chamber after 0xFFFF_FFFF_FFFF is 0, and it is later (R29). -/
theorem test_chamber_wraps : chAdd 0xFFFFFFFFFFFF 1 = 0 ∧ chLater 0 0xFFFFFFFFFFFF = true ∧ chLater 0xFFFFFFFFFFFF 0 = false := by decide +kernel

/-- The tile of the example of 05_line_frame_fec.md: its tile bit and bits [63:56] of its control words (R183, R184). -/
def ctlBlock (t : Nat) : Block := { sync := 2, w := BitVec.ofNat 64 t }
def tileExample : List Block := [{ sync := 1, w := 7 }, { sync := 1, w := 8 }, ctlBlock 0xB4, ctlBlock 0x1E, ctlBlock 0x1E, ctlBlock 0x78, { sync := 1, w := 9 }, { sync := 1, w := 3 }]
theorem test_tile_example :
    (tileOf tileExample).1 = false ∧ ((tileOf tileExample).2.take 4).map (fun x => x / 2 ^ 56) = [0x46, 0x60, 0x80, 0xB1] ∧
    (tileOf tileExample).2.drop 4 = [revBits 64 7, revBits 64 8, revBits 64 9, revBits 64 3] := by decide +kernel

/-- A tile read back is the blocks it was made of (R185). -/
theorem test_tile_back :
    blocksOfTile false (tileOf tileExample).1 [] (tileOf tileExample).2 = tileExample ∧
    blocksOfTile true false [] (tileOf tileExample).2 = List.replicate 8 Block.error := by decide +kernel

/-- The frame of WE2 (05_line_frame_fec.md): I in whole bits, W, Q, M, A, T and MG. -/
def we2 : EngCfg := { configured := true, code := 1, subs := 16, symRate := 3200 }
theorem test_frame_of_we2 :
    we2.frameBits (List.replicate 16 93) = 4135764 ∧ we2.frameWords (List.replicate 16 93) 0 = 504 ∧ we2.mapSlots 93 = 41 ∧ we2.mapWords 93 = 19 ∧
    we2.areaWords (List.replicate 16 93) = 192 ∧ we2.tagCap (List.replicate 16 93) = 64 ∧ we2.tagWords (List.replicate 16 93) = 144 ∧
    we2.mgmtWords (List.replicate 16 93) = 20 := by decide +kernel

/-- H_CD of WE5 with a span of 300 000 ps/nm (07_receive.md), and the first decoding delay of ZFEC-S13. -/
theorem test_pipeline_of_we5 : ({ we2 with dspan := 300000 } : EngCfg).hcd = 384 ∧ we2.latency = 2300 := by decide +kernel

/-- LPDDR6 of 16, 4 and 32 GiB: C in MiB (R485). -/
theorem test_lpddr6_capacity :
    [16, 4, 32].map (fun g => lpCapacity g / 1048576) = [14528, 3584, 29120] ∧
    [16, 4, 32].map (fun g => ({ up with mem := { up.mem with capacity := lpCapacity g } } : State).captureSize / 1048576) = [832, 128, 1728] := by
  decide +kernel

/-- The first 12 bytes of GET_VARIANT of T0 with HOST_TAG 7 (12_commands.md). -/
theorem test_packet_bytes : (packet 0x0102 0 7 []).take 12 = [0xC4, 1, 2, 1, 0, 0, 0, 0, 7, 0, 0, 0] := by decide +kernel

/-- The event record of the example of 14_events.md, but its chamber. -/
theorem test_event_record :
    (EvRec.mk ((2000000100 * 1000000000 + 123456789) * 4 + 2) 8 2 false 0x0203 30 0 (zeros 6 ++ [1])).bytes.take 18 =
      [0x56, 0x34, 0x6F, 0x1D, 0x64, 0x94, 0x35, 0x77, 0, 0, 8, 2, 3, 2, 0x1E, 0, 0, 0] := by decide +kernel

/-- Code 955 of a die sensor is 99.8 degC (19_housekeeping_adc.md). -/
theorem test_sensor_code : sensorTenths (955, 1) = 998 := by decide +kernel

/-- Balls of HOST lanes 37 and 101 (20_package_pins.md). -/
theorem test_balls :
    ballAt 54 3 = some (.hostTx 37 false) ∧ ballAt 55 3 = some (.hostTx 37 true) ∧ ballAt 54 8 = some (.hostRx 37 false) ∧
    ballAt 55 8 = some (.hostRx 37 true) ∧ ballAt 54 94 = some (.hostTx 101 false) := by decide +kernel

/-- Typical power of ZL3208C1, ZL3208C2, ZL3206C1 and ZL3206N1 (Table 0.2). -/
theorem test_part_watts :
    partWatts { engineCount := 8, cipher := true } = 240 ∧ partWatts { engineCount := 8, cipher := true, bond64 := true } = 220 ∧
    partWatts { engineCount := 6, cipher := true } = 194 ∧ partWatts { engineCount := 6 } = 185 := by decide +kernel

/-- The rise over the lid of 250 W at most (21_electrical.md). -/
theorem test_lid_rise : (lidRise 250).2 = 2750 := by decide +kernel

/-- Half the number circle ahead is not later (R29). -/
theorem test_chamber_half_circle : chLater (2 ^ 47 - 1) 0 = true ∧ chLater (2 ^ 47) 0 = false := by decide +kernel

/-- The value written to EVT_RD may reach EVT_WR and not pass it (R520). -/
theorem test_evt_rd_window :
    ({ up with log := { evtWr := 5, evtRd := 3 } }.evtRdWrite 5).log.evtRd = 5 ∧
    ({ up with log := { evtWr := 5, evtRd := 3 } }.evtRdWrite 6).log.evtRd = 3 ∧
    ({ up with log := { evtWr := 5, evtRd := 3 } }.evtRdWrite 2).log.evtRd = 3 := by decide +kernel

/-- The first job of T3 after a reset has token 0x3000_0001, and serial numbers skip 0 (R452). -/
theorem test_job_tokens :
    (up.startJob 3 0x0602 (.sweep [] 0 0)).2 = 0x30000001 ∧
    (({ up with jobs := { next := 2 ^ 28 - 1 } } : State).startJob 0 0x0602 (.sweep [] 0 0)).1.jobs.next = 1 := by decide +kernel

/-- A ninth job of one tenant does not start (R452). -/
theorem test_ninth_job :
    ({ up with jobs := { list := List.replicate 8 { sweepJob with tenant := 2 } } } : State).jobsFull 2 = true ∧
    ({ up with jobs := { list := List.replicate 8 { sweepJob with tenant := 2 } } } : State).jobsFull 3 = false := by decide +kernel

/-- Writing zero to a byte takes it out of the list: the canonical form of memory (R482). -/
theorem test_zero_write : (Memory.write (Memory.write [] 7 5) 7 0) = [] ∧ (Memory.writeL [] 3 [1, 0, 2]).read 5 = 2 := by decide +kernel

/-- No word of the table spells a command: it gives no row any bits. -/
theorem test_no_words : decodeTableWord 32 0x0101 = none ∧ up.withFetchWord 32 0x0101 = up := ⟨rfl, rfl⟩

theorem witness_generalReadsComplete_1 : ∃ (s : State) (q : Request),
    s.takes 0x0101 q ∧ s.tenantOn q ∧ q.len = 0 :=
  ⟨up, req 0 [], by decide +kernel⟩

theorem witness_generalReadsComplete_2 : ∃ (s : State) (q : Request),
    s.takes 0x0102 q ∧ s.tenantOn q ∧ q.len = 0 :=
  ⟨up, req 0 [], by decide +kernel⟩

theorem witness_generalReadsComplete_3 : ∃ (s : State) (q : Request) (j : Job),
    s.takes 0x0103 q ∧ s.tenantOn q ∧ q.len = 4 ∧ s.job (q.u 0 4) = some j ∧ q.u 0 4 / 2 ^ 28 = q.tenant ∧ j.ended = none :=
  ⟨{ up with jobs := { list := [sweepJob] } }, req 0 (le 4 1), sweepJob, by decide +kernel⟩

theorem witness_generalReadsComplete_4 : ∃ (s : State) (q : Request) (j : Job) (e : JobEnd),
    s.takes 0x0103 q ∧ s.tenantOn q ∧ q.len = 4 ∧ s.job (q.u 0 4) = some j ∧ q.u 0 4 / 2 ^ 28 = q.tenant ∧ j.ended = some e :=
  ⟨{ up with jobs := { list := [endedJob] } }, req 0 (le 4 1), endedJob, jobEnd0, by decide +kernel⟩

theorem witness_echoReturnsItsPayload_1 : ∃ (s : State) (q : Request),
    s.takes 0x0106 q ∧ s.tenantOn q ∧ q.len ≤ 4079 :=
  ⟨up, req 0 [1, 2, 3], by decide +kernel⟩

theorem witness_echoReturnsItsPayload_2 : ∃ (s : State) (q : Request),
    s.takes 0x0106 q ∧ q.len = 4080 :=
  ⟨up, req 0 (zeros 4080), by decide +kernel⟩

theorem witness_jobsComplete_1 : ∃ (s : State) (q : Request) (j : Job),
    s.takes 0x0104 q ∧ s.tenantOn q ∧ q.len = 4 ∧ s.job (q.u 0 4) = some j ∧ q.u 0 4 / 2 ^ 28 = q.tenant ∧ j.ended.isSome = true :=
  ⟨{ up with jobs := { list := [endedJob] } }, req 0 (le 4 1), endedJob, by decide +kernel⟩

theorem witness_jobsComplete_2 : ∃ (s : State) (q : Request) (j : Job),
    s.takes 0x0104 q ∧ s.tenantOn q ∧ q.len = 4 ∧ s.job (q.u 0 4) = some j ∧ q.u 0 4 / 2 ^ 28 = q.tenant ∧ j.ended = none ∧ j.op ≠ 0x0405 :=
  ⟨{ up with jobs := { list := [sweepJob] } }, req 0 (le 4 1), sweepJob, by decide +kernel⟩

theorem witness_jobsComplete_3 : ∃ (s : State) (token : Nat) (j : Job) (f : Nat × List Byte),
    s.job token = some j ∧ j.ended = none ∧ j.finish = some f :=
  ⟨{ up with jobs := { list := [{ sweepJob with finish := some (0, []) }] } }, 1, { sweepJob with finish := some (0, []) }, (0, []), by decide +kernel⟩

theorem witness_jobsComplete_4 : ∃ (s : State),
    s.settled :=
  ⟨up, by decide +kernel⟩

theorem witness_tenantPolicyComplete_1 : ∃ (s : State) (q : Request),
    s.takes 0x0105 q ∧ q.tenant = 0 ∧ q.len = 40 ∧ 1 ≤ q.u 0 1 ∧ q.u 0 1 ≤ 15 ∧ q.u 1 1 = 1 ∧ q.u 2 1 ≤ 1 ∧ q.u 3 1 = 0 ∧ q.u 6 1 ≤ 15 ∧
    q.rsv 7 1 = true ∧ q.rsv 36 4 = true ∧ (q.u 34 2 ≤ 1024 ∨ q.u 34 2 = 0xFFFF) ∧ s.policyBusy (q.u 0 1) (policyOf q) = false :=
  ⟨up, req 0 ([1, 1, 1] ++ zeros 37), by decide +kernel⟩

theorem witness_tenantPolicyComplete_2 : ∃ (s : State) (q : Request),
    s.takes 0x0105 q ∧ s.tenantOn q ∧ (q.tenant = 0 ∨ q.tenant = q.u 0 1) ∧ q.len = 40 ∧ q.u 0 1 ≤ 15 ∧ q.u 1 1 = 2 ∧ q.rsv 2 38 = true :=
  ⟨up, req 0 ([15, 2] ++ zeros 38), by decide +kernel⟩

theorem witness_tenantPolicyComplete_3 : ∃ (s : State) (q : Request),
    s.takes 0x0105 q ∧ q.tenant = 0 ∧ q.len = 40 ∧ 1 ≤ q.u 0 1 ∧ q.u 0 1 ≤ 15 ∧ q.u 1 1 = 3 ∧ q.rsv 2 38 = true :=
  ⟨up, req 0 ([1, 3] ++ zeros 38), by decide +kernel⟩

theorem witness_engineConfigComplete_1 : ∃ (s : State) (q : Request) (n : Nat),
    s.takes 0x0201 q ∧ q.len = 40 ∧ q.u 0 1 = n ∧ n ≤ 7 ∧ (cfgOf q).rangeOk = true ∧ s.dark (engIsland n) = none ∧
    s.manages q.tenant n = true ∧ s.cfgStateBad n (cfgOf q) = false ∧ ((cfgOf q).mode = 1 → s.boundsHold n (cfgOf q) = true) ∧
    (s.eng n).tx.enabled = false :=
  ⟨up, req 0 (cfgBytes 1 10), 0, by decide +kernel⟩

theorem witness_engineConfigComplete_2 : ∃ (s : State) (q : Request) (n : Nat),
    s.takes 0x0201 q ∧ q.len = 40 ∧ q.u 0 1 = n ∧ n ≤ 7 ∧ (cfgOf q).rangeOk = true ∧ s.dark (engIsland n) = none ∧
    s.manages q.tenant n = true ∧ s.cfgStateBad n (cfgOf q) = false ∧ ((cfgOf q).mode = 1 → s.boundsHold n (cfgOf q) = true) ∧
    (s.eng n).tx.enabled = true ∧ (cfgOf q).core = (s.eng n).lastCfg.core ∧ (cfgOf q).roll = (s.eng n).lastCfg.roll ∧
    ((s.eng n).tx.lit = false ∨ ((cfgOf q).txFlags = (s.eng n).lastCfg.txFlags ∧ (cfgOf q).gpio = (s.eng n).lastCfg.gpio)) :=
  ⟨lit1, req 0 (cfgBytes 1 10), 0, by decide +kernel⟩

theorem witness_engineConfigComplete_3 : ∃ (s : State) (q : Request) (n : Nat),
    s.takes 0x0201 q ∧ q.len = 40 ∧ q.u 0 1 = n ∧ n ≤ 7 ∧ (cfgOf q).rangeOk = true ∧ s.dark (engIsland n) = none ∧
    s.manages q.tenant n = true ∧ s.cfgStateBad n (cfgOf q) = false ∧ ((cfgOf q).mode = 1 → s.boundsHold n (cfgOf q) = true) ∧
    (s.eng n).tx.enabled = true ∧ (cfgOf q).core ≠ (s.eng n).lastCfg.core ∧ s.cfgCapacity n (cfgOf q) true = none ∧ s.passUses n = false ∧
    s.rawUses n = false ∧
    ((s.eng n).tx.lit = false ∨ ((cfgOf q).txFlags = (s.eng n).lastCfg.txFlags ∧ (cfgOf q).gpio = (s.eng n).lastCfg.gpio)) :=
  ⟨lit1, req 0 (cfgBytes 1 11), 0, by decide +kernel⟩

theorem witness_engineEnableDisableComplete_1 : ∃ (s : State) (q : Request) (n : Nat),
    s.takes 0x0202 q ∧ q.len = 12 ∧ q.u 0 1 = n ∧ n ≤ 7 ∧ q.rsv 1 3 = true ∧ q.rsv 10 2 = true ∧ s.dark (engIsland n) = none ∧
    s.manages q.tenant n = true ∧ (s.eng n).tx.disableAt = none ∧ ((s.eng n).tx.enabled = true ∨ (s.eng n).tx.enableAt.isSome = true) :=
  ⟨lit1, req 0 (zeros 12), 0, by decide +kernel⟩

theorem witness_engineEnableDisableComplete_2 : ∃ (s : State) (q : Request) (n cc : Nat),
    s.takes 0x0202 q ∧ q.len = 12 ∧ q.u 0 1 = n ∧ n ≤ 7 ∧ q.rsv 1 3 = true ∧ q.rsv 10 2 = true ∧ s.dark (engIsland n) = none ∧
    s.manages q.tenant n = true ∧ (s.eng n).tx.disableAt = none ∧ (s.eng n).tx.enabled = false ∧ (s.eng n).tx.enableAt = none ∧
    (s.island (islEng n)).belay = false ∧ (s.eng n).cfg.configured = true ∧ s.calDone n = true ∧ s.calFailed n = false ∧
    cc = (if q.ch 4 = 0 then s.earliest false else q.ch 4) ∧ s.commitBad cc none = none :=
  ⟨dark1, req 0 (zeros 12), 0, dark1.earliest false, by decide +kernel⟩

theorem witness_engineEnableDisableComplete_3 : ∃ (s : State) (q : Request) (n : Nat),
    s.takes 0x0203 q ∧ q.len = 12 ∧ q.u 0 1 = n ∧ n ≤ 7 ∧ q.rsv 2 2 = true ∧ q.rsv 10 2 = true ∧ s.dark (engIsland n) = none ∧
    s.manages q.tenant n = true ∧ q.u 1 1 ≤ 1 ∧ (s.eng n).tx.enableAt = none ∧
    ((s.eng n).tx.enabled = false ∨ (s.eng n).tx.disableAt.isSome = true) :=
  ⟨dark1, req 0 (zeros 12), 0, by decide +kernel⟩

theorem witness_engineEnableDisableComplete_4 : ∃ (s : State) (q : Request) (n cc : Nat),
    s.takes 0x0203 q ∧ q.len = 12 ∧ q.u 0 1 = n ∧ n ≤ 7 ∧ q.rsv 2 2 = true ∧ q.rsv 10 2 = true ∧ s.dark (engIsland n) = none ∧
    s.manages q.tenant n = true ∧ q.u 1 1 ≤ 1 ∧ (s.eng n).tx.enableAt = none ∧ (s.eng n).tx.enabled = true ∧
    (s.eng n).tx.disableAt = none ∧ (q.u 1 1 = 1 ∨ (s.passUses n = false ∧ s.rawUses n = false)) ∧
    cc = (if q.ch 4 = 0 then s.earliest false else q.ch 4) ∧ s.commitBad cc none = none :=
  ⟨lit1, req 0 (zeros 12), 0, lit1.earliest false, by decide +kernel⟩

theorem witness_engineSignalCommandsComplete_1 : ∃ (s : State) (q : Request) (n : Nat) (prof : List Nat),
    s.takes 0x0204 q ∧ q.len = 32 ∧ q.u 0 1 = n ∧ n ≤ 7 ∧ q.u 1 1 ≤ 1 ∧ q.rsv 3 1 = true ∧ q.rsv 6 2 = true ∧ q.rsv 14 2 = true ∧
    s.dark (engIsland n) = none ∧ s.manages q.tenant n = true ∧ (s.eng n).mp.role = 0 ∧ (s.eng n).cfg.configured = true ∧
    (s.eng n).cfg.mode = 1 ∧ q.u 2 1 = (s.eng n).cfg.subs ∧ prof = profileAt q 16 (q.u 2 1) ∧ q.ch 8 ≠ 0 ∧ (∀ h ∈ prof, 32 ≤ h ∧ h ≤ 96) ∧
    q.rsv (16 + q.u 2 1) (16 - q.u 2 1) = true ∧ (s.eng n).cfg.profOk prof = true ∧ s.profCapacity n (q.u 1 1 == 1) prof (q.ch 8) = none ∧
    s.commitBad (q.ch 8) (some n) = none :=
  ⟨lit1, req 0 (zeros 2 ++ [1] ++ zeros 5 ++ le 6 (lit1.chamber + 100) ++ zeros 2 ++ [64] ++ zeros 15), 0, [64], by decide +kernel⟩

theorem witness_engineSignalCommandsComplete_2 : ∃ (s : State) (q : Request) (n : Nat),
    s.takes 0x0205 q ∧ q.len = 8 ∧ q.u 0 1 = n ∧ n ≤ 7 ∧ q.rsv 1 1 = true ∧ q.rsv 4 4 = true ∧ s.dark (engIsland n) = none ∧
    s.manages q.tenant n = true ∧ (s.eng n).tx.enabled = true ∧ q.u 2 2 = 0 :=
  ⟨lit1, req 0 (zeros 8), 0, by decide +kernel⟩

theorem witness_engineSignalCommandsComplete_3 : ∃ (s : State) (q : Request) (n : Nat),
    s.takes 0x0205 q ∧ q.len = 8 ∧ q.u 0 1 = n ∧ n ≤ 7 ∧ q.rsv 1 1 = true ∧ q.rsv 4 4 = true ∧ s.dark (engIsland n) = none ∧
    s.manages q.tenant n = true ∧ (s.eng n).tx.enabled = true ∧ 100 ≤ q.u 2 2 ∧ q.u 2 2 ≤ 400 :=
  ⟨lit1, req 0 (zeros 2 ++ le 2 100 ++ zeros 4), 0, by decide +kernel⟩

theorem witness_engineSignalCommandsComplete_4 : ∃ (s : State) (q : Request) (n cc : Nat),
    s.takes 0x0206 q ∧ q.len = 12 ∧ q.u 0 1 = n ∧ n ≤ 7 ∧ 1 ≤ q.u 1 1 ∧ q.u 1 1 ≤ 4 ∧ q.u 2 1 ≤ 100 ∧ q.u 3 1 ≤ 1 ∧ q.rsv 10 2 = true ∧
    s.dark (engIsland n) = none ∧ s.manages q.tenant n = true ∧ ((q.u 1 1 = 1 ∨ q.u 1 1 = 3) → (s.island (islEng n)).belay = false) ∧
    (q.u 1 1 = 3 → (s.eng n).tx.permit = true) ∧
    ((q.u 1 1 = 2 ∨ q.u 1 1 = 4) → q.u 3 1 = 1 ∨ (s.eng n).tx.down = true ∨ s.passUses n = false) ∧
    cc = (if q.ch 4 = 0 then s.earliest false else q.ch 4) ∧ s.commitBad cc none = none :=
  ⟨lit1, req 0 ([0, 1] ++ zeros 10), 0, lit1.earliest false, by decide +kernel⟩

theorem witness_engineSignalCommandsComplete_5 : ∃ (s : State) (q : Request) (n size : Nat),
    s.takes 0x0207 q ∧ q.len = 32 ∧ q.u 0 1 = n ∧ n ≤ 7 ∧ 1 ≤ q.u 1 1 ∧ q.u 1 1 ≤ 3 ∧ (q.u 1 1 ≠ 3 → q.u 2 1 = 0) ∧
    (q.u 1 1 = 3 → q.u 2 1 < (s.eng n).cfg.subs) ∧ q.u 3 1 = 1 ∧ 0 < q.u 4 4 ∧ q.u 4 4 % 1024 = 0 ∧
    q.u 4 4 ≤ (if q.u 1 1 = 1 then 262144 else 131072) ∧ q.u 8 4 = 0 ∧ q.u 12 2 = 0 ∧ q.rsv 14 2 = true ∧ q.rsv 22 2 = true ∧
    q.ch 16 = 0 ∧ q.u 24 8 % 4096 = 0 ∧ q.u 24 8 < s.mem.capacity ∧ s.dark (engIsland n) = none ∧ s.dark 0x0C00 = none ∧
    s.manages q.tenant n = true ∧ size = (if q.u 1 1 = 1 then 4 * q.u 4 4 else 8 * q.u 4 4) ∧
    s.inCapture q.tenant (q.u 24 8) size = true ∧ s.captureOf n = none ∧ s.fillHolds 0x0C00 (q.u 24 8) (q.u 24 8 + size) = false ∧
    (s.eng n).tx.enabled = true ∧ s.jobsFull q.tenant = false :=
  ⟨lit1, req 0 ([0, 1, 0, 1] ++ le 4 1024 ++ zeros 16 ++ le 8 0x40000000), 0, 4096, by decide +kernel⟩

theorem witness_passageOpenComplete : ∃ (s : State) (q : Request) (ing eg : Endpoint) (id start inF egF base : Nat) (plane : List Nat),
    s.takes 0x0301 q ∧ s.behindCopy 0x0301 q = false ∧ q.len = 36 ∧ openRanges s q = true ∧ ing = endpointAt q 4 ∧ eg = endpointAt q 12 ∧
    s.firstDark ([ing.unit, eg.unit] ++ if q.u 20 1 != 0 then [unitKeyStore] else []) = none ∧ s.tenantOn q ∧
    s.mayUse q.tenant ing = true ∧ s.mayUse q.tenant eg = true ∧ s.inCompat ing = false ∧ s.inCompat eg = false ∧
    s.endpointBad ing false (q.u 2 2) = false ∧ s.endpointBad eg true (q.u 2 2) = false ∧ openCipherOk s q = true ∧
    (q.u 21 1 = 0 ∨ ∀ e ∈ [ing, eg], e.kind = 3 → (s.eng e.index).mp.role = 0) ∧ s.endpointNotReady ing = none ∧
    s.endpointNotReady eg = none ∧ s.clientWaits ing = false ∧ s.clientWaits eg = false ∧
    start = (if q.ch 28 = 0 then s.earliestFrom (chMax (s.clientFrom ing) (s.clientFrom eg)) false else q.ch 28) ∧
    chLater (chMax (s.clientFrom ing) (s.clientFrom eg)) start = false ∧ s.commitBad start none = none ∧
    (if q.u 0 2 = 0xFFFF then (List.range 4096).find? fun i => !((tkeys s.pas).contains i) else some (q.u 0 2)) = some id ∧
    (tkeys s.pas).contains id = false ∧ (q.u 20 1 = 0 ∨ ∀ e ∈ [ing, eg], e.kind = 3 → s.encOn e.index < 64) ∧
    s.place ing false (q.u 2 2) start = some inF ∧ s.place eg true (q.u 2 2) start = some egF ∧
    s.pickPlane (eg.kind == 3 || eg.kind == 4) (q.u 2 2) start = some plane ∧
    pickRegion (s.takenBuffer start) (q.u 2 2 * (2 + q.u 21 1)) = some base ∧
    s.fillHolds 0x0201 (base * slotChamberBytes) ((base + q.u 2 2 * (2 + q.u 21 1)) * slotChamberBytes) = false ∧
    (q.u 20 1 = 0 ∨ (s.cipherUsed (eg.kind != 3) start + q.u 2 2 ≤ 5120 ∧ (eg.kind = 3 → s.encDir eg.index true + 1 ≤ s.tagCap eg.index true) ∧ (ing.kind = 3 → s.encDir ing.index false + 1 ≤ s.tagCap ing.index false))) ∧
    (q.u 24 4 = 0 ∨ (openedPassage s q start inF egF plane base).bound ≤ q.u 24 4) ∧ s.overQuota q.tenant (q.u 2 2) = false ∧
    s.bankRoom start (s.compile id (openedPassage s q start inF egF plane base) (s.handles (openedPassage s q start inF egF plane base))) = true := by
  refine ⟨opens, req 0 openBytes, endpointAt (req 0 openBytes) 4, endpointAt (req 0 openBytes) 12, 5, opens.earliest false, 0xFFFF, 0, 0, List.range 20, ?_⟩
  and_intros <;> decide +kernel

theorem witness_passageCommandsComplete_1 : ∃ (s : State) (q : Request) (p : Passage) (id cs : Nat),
    s.takes 0x0302 q ∧ s.behindCopy 0x0302 q = false ∧ q.len = 12 ∧ q.rsv 2 2 = true ∧ q.rsv 10 2 = true ∧ q.u 0 2 = id ∧ id ≤ 4095 ∧
    tget s.pas id = some p ∧ s.tenantOn q ∧ p.owner = q.tenant ∧ p.stop = none ∧
    cs = p.closeAt (if q.ch 4 = 0 then s.earliest false else q.ch 4) ∧ s.commitBad cs none = none :=
  ⟨open5, req 0 (le 2 5 ++ zeros 10), pas5, 5, 100000000, by decide +kernel⟩

theorem witness_passageCommandsComplete_2 : ∃ (s : State) (q : Request) (p : Passage) (id cs : Nat),
    s.takes 0x0302 q ∧ s.behindCopy 0x0302 q = false ∧ q.len = 12 ∧ q.rsv 2 2 = true ∧ q.rsv 10 2 = true ∧ q.u 0 2 = id ∧ id ≤ 4095 ∧
    tget s.pas id = some p ∧ s.tenantOn q ∧ p.owner = q.tenant ∧ p.stop = some cs :=
  ⟨{ open5 with pas := [(5, { pas5 with stop := some 7 })] }, req 0 (le 2 5 ++ zeros 10), { pas5 with stop := some 7 }, 5, 7, by decide +kernel⟩

theorem witness_passageCommandsComplete_3 : ∃ (s : State) (q : Request) (p : Passage),
    s.takes 0x0303 q ∧ q.len = 2 ∧ tget s.pas (q.u 0 2) = some p ∧ s.tenantOn q ∧ p.owner = q.tenant :=
  ⟨open5, req 0 (le 2 5), pas5, by decide +kernel⟩

theorem witness_protectGroupSetComplete_1 : ∃ (s : State) (q : Request) (p : Passage) (x : Endpoint) (id : Nat),
    s.takes 0x0307 q ∧ s.behindCopy 0x0307 q = false ∧ q.len = 16 ∧ q.u 0 2 = id ∧ tget s.pas id = some p ∧ q.u 2 1 = 1 ∧
    q.rsv 3 1 = true ∧ x = endpointAt q 4 ∧ x.kind = 3 ∧ x.index ≤ 7 ∧ x.leaf = 0xFFFF ∧ q.rsv 14 2 = true ∧ q.u 12 2 ≤ 3600 ∧
    s.dark x.unit = none ∧ s.tenantOn q ∧ p.owner = q.tenant ∧ s.mayUse q.tenant x = true ∧ s.inCompat x = false ∧ s.legBad p x = false ∧
    s.endpointNotReady x = none ∧ p.stop = none ∧ p.st ≠ 3 ∧ (p.mode = 0 ∨ s.encOn x.index < 64) ∧
    s.bankRoom (s.changeAt p) (s.compileLeg id p (protLegOf p q) (s.handles p)) = true ∧ s.legCapacity q p (protLegOf p q) = none :=
  ⟨legged, req 0 ([5, 0, 1, 0] ++ [3, 1, 1, 0] ++ le 2 0xFFFF ++ le 2 0xFFFF ++ zeros 4), pas5, endpointAt (req 0 ([5, 0, 1, 0] ++ [3, 1, 1, 0] ++ le 2 0xFFFF ++ le 2 0xFFFF ++ zeros 4)) 4, 5, by decide +kernel⟩

theorem witness_protectGroupSetComplete_2 : ∃ (s : State) (q : Request) (p : Passage) (id : Nat) (x : FwChange),
    s.takes 0x0307 q ∧ s.behindCopy 0x0307 q = false ∧ q.len = 16 ∧ q.u 0 2 = id ∧ tget s.pas id = some p ∧ 2 ≤ q.u 2 1 ∧ q.u 2 1 ≤ 5 ∧
    q.rsv 3 1 = true ∧ q.rsv 4 12 = true ∧ s.tenantOn q ∧ p.owner = q.tenant ∧ p.leg.isSome = true ∧ p.stop = none ∧ p.st ≠ 3 ∧
    (q.u 2 1 = 4 → p.unusable = false) ∧
    x = (if q.u 2 1 = 2 then .protDel id else .force id (if q.u 2 1 = 3 then 1 else if q.u 2 1 = 4 then 2 else 0)) :=
  ⟨{ open5 with pas := [(5, { pas5 with leg := some { engine := 1, sub := 1, first := 0, wtr := 0 } })] }, req 0 ([5, 0, 4] ++ zeros 13), { pas5 with leg := some { engine := 1, sub := 1, first := 0, wtr := 0 } }, 5, .force 5 2, by decide +kernel⟩

theorem witness_tableCommandsComplete_1 : ∃ (s : State) (q : Request) (isl n first cc : Nat),
    s.takes 0x0304 q ∧ s.behindCopy 0x0304 q = false ∧ q.u 0 1 = isl ∧ q.u 2 2 = n ∧ q.u 4 4 = first ∧ q.ch 8 = cc ∧ q.len = 16 + 16 * n ∧
    isl ≤ 14 ∧ 1 ≤ q.u 1 1 ∧ q.u 1 1 ≤ 3 ∧ n ≤ 254 ∧ (q.u 1 1 = 1 ∨ n = 0) ∧ cc ≠ 0 ∧ q.rsv 14 2 = true ∧
    s.firstAbsent ([isl * 256 + 0xFE] ++ (wordsAt q 16 n).map wTarget) = none ∧ q.tenant = 0 ∧
    (q.u 1 1 = 3 ∨ first ≤ (s.rawImage cc isl).length) ∧ ((wordsAt q 16 n).all fun w => (s.wordBad isl true w).isNone) = true ∧
    (∀ c ∈ s.tab.commits, c.cc = cc → c.user = false) ∧
    (q.u 1 1 = 1 → (tgetD (s.imageAt cc) isl {}).fw.length + (rawEdit (s.rawImage cc isl) (.write first (wordsAt q 16 n))).length ≤ bankSize isl) ∧
    (q.u 1 1 = 1 → s.heldEdits + n ≤ 65536) :=
  ⟨up, req 0 ([13, 2] ++ zeros 6 ++ le 8 100), 13, 0, 0, 100, by decide +kernel⟩

theorem witness_tableCommandsComplete_2 : ∃ (s : State) (q : Request) (cc : Nat) (pn : Option Nat),
    s.takes 0x0305 q ∧ s.behindCopy 0x0305 q = false ∧ q.len = 16 ∧ q.u 8 1 ≤ 1 ∧ q.rsv 6 2 = true ∧ q.rsv 12 4 = true ∧
    (q.u 8 1 = 1 → q.u 9 1 ≤ 7) ∧ (q.u 8 1 = 0 → q.rsv 9 3 = true) ∧ pn = (if q.u 8 1 = 1 then some (q.u 9 1) else none) ∧
    cc = (if q.ch 0 = 0 then s.earliest pn.isSome else q.ch 0) ∧ (q.u 8 1 = 1 → s.dark (islEng (q.u 9 1) * 256 + 0xFE) = none) ∧
    (∀ i ∈ s.changedIslands ((s.editsAt cc).foldl applyRaw (s.imageAt cc)), (s.island i).st ≠ .parked ∧ (s.island i).st ≠ .off) ∧
    q.tenant = 0 ∧ s.validate ((s.editsAt cc).foldl applyRaw (s.imageAt cc)) cc = none ∧ s.commitBad cc pn = none :=
  ⟨up, req 0 (zeros 16), up.earliest false, none, by decide +kernel⟩

theorem witness_tableCommandsComplete_3 : ∃ (s : State) (q : Request) (words : List StepWord),
    s.takes 0x0306 q ∧ q.len = 16 ∧ q.u 0 1 ≤ 14 ∧ q.u 1 1 = 0 ∧ q.u 2 1 ≤ 1 ∧ 1 ≤ q.u 3 1 ∧ q.u 3 1 ≤ 254 ∧ q.rsv 14 2 = true ∧
    q.ch 8 = 0 ∧ s.absent (q.u 0 1 * 256 + 0xFE) = none ∧ s.tenantOn q ∧ (q.u 2 1 = 1 → q.tenant = 0) ∧
    words = (if q.u 2 1 = 1 then (s.bank (q.u 0 1)).raw else (s.bank (q.u 0 1)).fw.map fun x => if q.tenant = 0 then x.w else s.maskWord q.tenant x) ∧
    q.u 4 4 ≤ words.length :=
  ⟨up, req 0 ([2, 0, 0, 1] ++ zeros 12), [], by decide +kernel⟩

theorem witness_multipointCommandsComplete_1 : ∃ (s : State) (q : Request) (n : Nat),
    s.takes 0x0208 q ∧ q.len = 16 ∧ q.u 0 1 = n ∧ n ≤ 7 ∧ q.u 1 1 = 1 ∧ q.u 2 1 ≤ 2 ∧ (q.u 2 1 = 2 → q.u 3 1 ≤ 127) ∧
    (q.u 2 1 ≠ 2 → q.rsv 3 3 = true) ∧ q.rsv 10 2 = true ∧ s.dark (engIsland n) = none ∧ s.manages q.tenant n = true ∧
    (q.u 2 1 = 0 ∨ ((s.eng n).cfg.mode ≠ 2 ∧ (s.eng n).cfg.windowLen.isSome = true)) ∧ (s.eng n).tx.enabled = false ∧
    (q.u 2 1 = 1 → s.lpReady = true) :=
  ⟨dark1.modEng 0 fun e => { e with cfg := { e.cfg with subs := 16, symRate := 3200, code := 1 } }, req 0 ([0, 1, 1] ++ zeros 13), 0, by decide +kernel⟩

theorem witness_multipointCommandsComplete_2 : ∃ (s : State) (q : Request) (n : Nat),
    s.takes 0x0208 q ∧ q.len = 16 ∧ q.u 0 1 = n ∧ n ≤ 7 ∧ q.u 1 1 = 2 ∧ q.rsv 2 4 = true ∧ q.u 6 1 ≤ 15 ∧ 10 ≤ q.u 7 1 ∧ q.u 7 1 ≤ 200 ∧
    1 ≤ q.u 8 1 ∧ q.u 8 1 ≤ 64 ∧ q.rsv 10 2 = true ∧ s.dark (engIsland n) = none ∧ s.manages q.tenant n = true ∧ (s.eng n).mp.role = 1 :=
  ⟨hub1, req 0 ([0, 2, 0, 0, 0, 0, 5, 50, 8] ++ zeros 7), 0, by decide +kernel⟩

theorem witness_multipointCommandsComplete_3 : ∃ (s : State) (q : Request) (n leaf cc : Nat) (wins : List Nat),
    s.takes 0x0209 q ∧ q.len = 40 ∧ q.u 0 1 = n ∧ q.u 1 1 = leaf ∧ n ≤ 7 ∧ leaf ≤ 127 ∧ q.u 2 1 = 1 ∧ q.u 3 1 ≤ 10 ∧
    q.u 4 2 < 2 ^ q.u 3 1 ∧ q.ch 8 = cc ∧ cc ≠ 0 ∧ 32 ≤ q.u 38 1 ∧ q.u 38 1 ≤ 96 ∧ q.rsv 14 2 = true ∧ q.rsv 39 1 = true ∧
    s.dark (engIsland n) = none ∧ s.manages q.tenant n = true ∧ (s.eng n).mp.role = 1 ∧ wins = profileAt q 16 16 ∧
    ((wins.drop (s.eng n).cfg.subs).all fun b => b == 0) = true ∧
    s.windowsClash n cc (.windows n leaf wins (q.u 3 1) (q.u 4 2) (q.u 38 1) (q.u 6 2)) = false ∧
    s.lowAfter n cc (.windows n leaf wins (q.u 3 1) (q.u 4 2) (q.u 38 1) (q.u 6 2)) = false ∧
    s.leafHeld n leaf ≤ (s.eng n).cfg.leafSlots wins (q.u 3 1) (q.u 38 1) ∧ s.commitBad cc none = none :=
  ⟨hub1, req 0 ([0, 3, 1, 0] ++ zeros 4 ++ le 6 (hub1.chamber + 200) ++ zeros 2 ++ [1] ++ zeros 21 ++ [64, 0]), 0, 3, hub1.chamber + 200, 1 :: List.replicate 15 0, by decide +kernel⟩

theorem witness_multipointCommandsComplete_4 : ∃ (s : State) (q : Request) (n leaf : Nat),
    s.takes 0x0209 q ∧ q.len = 40 ∧ q.u 0 1 = n ∧ q.u 1 1 = leaf ∧ n ≤ 7 ∧ leaf ≤ 127 ∧ 2 ≤ q.u 2 1 ∧ q.u 2 1 ≤ 3 ∧ q.rsv 6 2 = true ∧
    (q.u 2 1 = 2 → (q.i 36 2).natAbs ≤ 5000 ∧ (q.i 32 4).natAbs ≤ (s.eng n).cfg.dspan) ∧ q.rsv 14 2 = true ∧ q.rsv 39 1 = true ∧
    s.dark (engIsland n) = none ∧ s.manages q.tenant n = true ∧ (s.eng n).mp.role = 1 :=
  ⟨hub1, req 0 ([0, 3, 2] ++ zeros 37), 0, 3, by decide +kernel⟩

theorem witness_multipointCommandsComplete_5 : ∃ (s : State) (q : Request) (n leaf : Nat),
    s.takes 0x0209 q ∧ q.len = 40 ∧ q.u 0 1 = n ∧ q.u 1 1 = leaf ∧ n ≤ 7 ∧ leaf ≤ 127 ∧ q.u 2 1 = 4 ∧ q.rsv 6 2 = true ∧
    q.rsv 14 2 = true ∧ q.rsv 39 1 = true ∧ s.dark (engIsland n) = none ∧ s.manages q.tenant n = true ∧
    ((s.eng n).mp.role = 1 ∨ ((s.eng n).mp.role = 2 ∧ leaf = (s.eng n).mp.leafId)) :=
  ⟨hub1, req 0 ([0, 3, 4] ++ zeros 37), 0, 3, by decide +kernel⟩

theorem witness_keyCommandsComplete_1 : ∃ (s : State) (q : Request) (k : Kek) (key : List Byte) (slot : Nat),
    s.takes 0x0401 q ∧ q.len = 52 ∧ s.dark unitKeyStore = none ∧
    (if q.u 0 2 = 0xFFFF then s.freeSlot else if q.u 0 2 < 1024 then some (q.u 0 2) else none) = some slot ∧ (q.u 2 1 = 1 ∨ q.u 2 1 = 2) ∧
    q.rsv 3 1 = true ∧ s.tenantOn q ∧ (q.u 0 2 ≠ 0xFFFF → s.foreignKey q.tenant slot = false) ∧ tget s.cip.keks q.tenant = some k ∧
    k.gen = q.u 8 4 ∧ keyUnwrap k.key ((q.payload.drop 12).take 40) = some key ∧
    (q.u 0 2 ≠ 0xFFFF → (s.keySlot slot).st = .empty ∨ (s.keySlot slot).st = .loaded) ∧ s.overKeys q.tenant slot (q.u 2 1) = false :=
  ⟨keyed, req 0 loadBytes, kek0, List.replicate 32 7, 0, by decide +kernel⟩

theorem witness_keyCommandsComplete_2 : ∃ (s : State) (q : Request),
    s.takes 0x0402 q ∧ q.len = 4 ∧ s.dark unitKeyStore = none ∧ q.u 0 2 ≤ 1023 ∧ q.rsv 2 2 = true ∧ s.tenantOn q ∧
    s.foreignKey q.tenant (q.u 0 2) = false ∧ ((s.keySlot (q.u 0 2)).st = .empty ∨ (s.keySlot (q.u 0 2)).st = .loaded) :=
  ⟨keyed, req 0 [3, 0, 0, 0], by decide +kernel⟩

theorem witness_keyCommandsComplete_3 : ∃ (s : State) (q : Request) (id slot : Nat),
    s.takes 0x0403 q ∧ q.len = 16 ∧ s.dark unitKeyStore = none ∧ q.u 0 2 = id ∧ q.u 2 2 = slot ∧ id ≤ 4095 ∧ slot ≤ 1023 ∧
    q.rsv 4 12 = true ∧ s.tenantOn q ∧ tget s.pas id = none ∧ (s.keySlot slot).st = .loaded ∧ (s.keySlot slot).owner = q.tenant ∧
    (s.keySlot slot).usage = 1 ∧ s.tim.joined = true :=
  ⟨keyed, req 0 (le 2 5 ++ le 2 3 ++ zeros 12), 5, 3, by decide +kernel⟩

theorem witness_keyCommandsComplete_4 : ∃ (s : State) (q : Request) (id slot cc : Nat) (p : Passage) (pn : Option Nat),
    s.takes 0x0403 q ∧ q.len = 16 ∧ s.dark unitKeyStore = none ∧ q.u 0 2 = id ∧ q.u 2 2 = slot ∧ id ≤ 4095 ∧ slot ≤ 1023 ∧ q.u 4 1 ≤ 1 ∧
    q.rsv 5 1 = true ∧ (q.u 4 1 = 0 → q.rsv 6 2 = true) ∧ q.rsv 14 2 = true ∧ s.tenantOn q ∧ tget s.pas id = some p ∧ p.owner = q.tenant ∧
    p.mode ≠ 0 ∧ (s.keySlot slot).st = .loaded ∧ (s.keySlot slot).owner = q.tenant ∧ (s.keySlot slot).usage = 1 ∧ s.tim.joined = true ∧
    pn = (if q.u 4 1 = 1 then some p.cipherEngine else none) ∧ cc = (if q.ch 8 = 0 then s.earliest pn.isSome else q.ch 8) ∧
    s.commitBad cc pn = none ∧ (∀ cs, p.stop = some cs → chReached cc cs = false) ∧ (s.cipPas id).rebind = none :=
  ⟨{ keyed with pas := [(5, { pas5 with mode := 1 })] }, req 0 (le 2 5 ++ le 2 3 ++ zeros 12), 5, 3, keyed.earliest false, { pas5 with mode := 1 }, none, by decide +kernel⟩

theorem witness_keyCommandsComplete_5 : ∃ (s : State) (q : Request) (slot : Nat),
    s.takes 0x0404 q ∧ q.len = 4 ∧ s.dark unitKeyStore = none ∧ q.u 0 2 ≤ 4095 ∧ q.rsv 2 2 = true ∧ s.tenantOn q ∧
    (∀ p, tget s.pas (q.u 0 2) = some p → p.mode = 0) ∧ s.prepared q.tenant (q.u 0 2) = some slot :=
  by refine ⟨{ keyed with cip := { keyed.cip with prepared := [((0, 5), 3)] } }, req 0 [5, 0, 0, 0], 3, ?_⟩; refine ⟨by decide +kernel, by decide +kernel, by decide +kernel, by decide +kernel, by decide +kernel, by decide +kernel, fun p h => ?_, by decide +kernel⟩; exact nomatch (show (none : Option Passage) = some p from h)

theorem witness_kekRotateComplete_1 : ∃ (s : State) (q : Request),
    s.takes 0x0405 q ∧ q.len = 72 ∧ s.dark unitKeyStore = none ∧ q.u 0 1 = 1 ∧ q.rsv 1 3 = true ∧ zeroAt (q.payload.drop 8) 32 32 = true ∧
    q.via = .spi ∧ s.tenantOn q ∧ tget s.cip.keks q.tenant = none ∧ s.jobsFull q.tenant = false :=
  ⟨up, { req 0 ([1, 0, 0, 0] ++ le 4 1 ++ zeros 64) with via := .spi }, by decide +kernel⟩

theorem witness_kekRotateComplete_2 : ∃ (s : State) (q : Request) (k : Kek) (key : List Byte),
    s.takes 0x0405 q ∧ q.len = 72 ∧ s.dark unitKeyStore = none ∧ q.u 0 1 = 2 ∧ q.rsv 1 3 = true ∧ zeroAt (q.payload.drop 8) 40 24 = true ∧
    s.tenantOn q ∧ tget s.cip.keks q.tenant = some k ∧ k.gen < q.u 4 4 ∧ keyUnwrap k.key ((q.payload.drop 8).take 40) = some key ∧
    s.jobsFull q.tenant = false :=
  ⟨keyed, req 0 ([2, 0, 0, 0] ++ le 4 2 ++ wrapped0 ++ zeros 24), kek0, List.replicate 32 7, by decide +kernel⟩

theorem witness_kekRotateComplete_3 : ∃ (s : State) (q : Request) (k? : Option Kek),
    s.takes 0x0405 q ∧ q.len = 72 ∧ s.dark unitKeyStore = none ∧ q.u 0 1 = 3 ∧ q.rsv 1 7 = true ∧ s.tenantOn q ∧
    k? = openBlob q.tenant (q.payload.drop 8) :=
  ⟨keyed, req 0 ([3] ++ zeros 71), none, by decide +kernel⟩

theorem witness_kekRotateComplete_4 : ∃ (s : State) (q : Request) (k : Kek),
    s.takes 0x0405 q ∧ q.len = 72 ∧ s.dark unitKeyStore = none ∧ q.u 0 1 = 4 ∧ q.rsv 1 7 = true ∧ zeroAt (q.payload.drop 8) 0 64 = true ∧
    s.tenantOn q ∧ tget s.cip.keks q.tenant = some k :=
  ⟨keyed, req 0 ([4] ++ zeros 71), kek0, by decide +kernel⟩

theorem witness_kekRotateComplete_5 : ∃ (s : State) (q : Request),
    s.takes 0x0405 q ∧ q.len = 72 ∧ s.dark unitKeyStore = none ∧ q.u 0 1 = 5 ∧ q.rsv 1 7 = true ∧ zeroAt (q.payload.drop 8) 0 64 = true ∧
    s.tenantOn q :=
  ⟨keyed, req 0 ([5] ++ zeros 71), by decide +kernel⟩

theorem witness_ringRowsComplete_1 : ∃ (s : State) (n : Nat) (v : BitVec 16),
    s.settled ∧ s.barUp = true ∧ n ≤ 15 ∧
    ¬((s.page n).enable = true ∧ (s.page n).halted = false ∧ 2 ^ (s.page n).cmdqLog < (v - (s.page n).cmdqHead).toNat) :=
  ⟨ringUp, 0, 3, by decide +kernel⟩

theorem witness_ringRowsComplete_2 : ∃ (s : State) (n : Nat) (v : BitVec 16),
    s.settled ∧ s.barUp = true ∧ n ≤ 15 ∧ (s.page n).enable = true ∧ (s.page n).halted = false ∧
    2 ^ (s.page n).cmdqLog < (v - (s.page n).cmdqHead).toNat :=
  ⟨ringUp, 0, 30, by decide +kernel⟩

theorem witness_ringRowsComplete_3 : ∃ (s : State) (n : Nat) (bytes : List Byte),
    s.settled ∧ s.nextPage = some n ∧ headerCheck (some n) false (bytes.take 4096) = none :=
  ⟨ringUp, 0, packet 0x0106 0 7 [1, 2, 3], by decide +kernel⟩

theorem witness_ringRowsComplete_4 : ∃ (s : State) (n : Nat),
    s.settled ∧ s.nextPage = some n :=
  ⟨ringUp, 0, by decide +kernel⟩

theorem witness_ringRowsComplete_5 : ∃ (s : State) (n : Nat) (v : BitVec 16),
    s.settled ∧ s.barUp = true ∧ n ≤ 15 :=
  ⟨ringUp, 0, 0, by decide +kernel⟩

theorem witness_ringRowsComplete_6 : ∃ (s : State) (n c r : Nat),
    s.settled ∧ s.barUp = true ∧ n ≤ 15 ∧ (s.page n).enable = false ∧ 1 ≤ c ∧ c ≤ 8 ∧ 1 ≤ r ∧ r ≤ 8 :=
  ⟨ringUp, 1, 4, 8, by decide +kernel⟩

theorem witness_ringRowsComplete_7 : ∃ (s : State) (n c r : Nat),
    s.settled ∧ s.barUp = true ∧ n ≤ 15 ∧ (s.page n).enable = false ∧ c ≤ 15 ∧ r ≤ 15 ∧ (c = 0 ∨ 8 < c ∨ r = 0 ∨ 8 < r) :=
  ⟨ringUp, 1, 0, 8, by decide +kernel⟩

theorem witness_ringRowsComplete_8 : ∃ (s : State) (n : Nat),
    s.settled ∧ s.barUp = true ∧ n ≤ 15 :=
  ⟨ringUp, 0, by decide +kernel⟩

theorem witness_interruptAndRegisterRowsComplete_1 : ∃ (s : State) (n : Nat) (v : Reg),
    s.settled ∧ s.barUp = true ∧ n ≤ 15 :=
  ⟨ringUp, 0, 2, by decide +kernel⟩

theorem witness_interruptAndRegisterRowsComplete_2 : ∃ (s : State) (n t0 : Nat),
    s.settled ∧ (s.page n).rspCleared = some t0 ∧ t0 + (s.page n).moderation * usQ ≤ s.mono ∧ (s.page n).rspDue = true :=
  ⟨{ ringUp with com := { ringUp.com with pages := [(0, { ringUp.page 0 with rspCleared := some 0, rspDue := true })] } }, 0, 0, by decide +kernel⟩

theorem witness_interruptAndRegisterRowsComplete_3 : ∃ (s : State) (n t0 : Nat),
    s.settled ∧ (s.page n).rspCleared = some t0 ∧ s.mono < t0 + (s.page n).moderation * usQ :=
  ⟨{ ringUp with mono := 0, com := { ringUp.com with pages := [(0, { ringUp.page 0 with rspCleared := some 5, rspDue := true })] } }, 0, 5, by decide +kernel⟩

theorem witness_interruptAndRegisterRowsComplete_4 : ∃ (s : State) (v : Reg),
    s.settled ∧ s.barUp = true :=
  ⟨{ ringUp with log := { evtWr := 9, evtRd := 4 } }, 6, by decide +kernel⟩

theorem witness_interruptAndRegisterRowsComplete_5 : ∃ (s : State),
    s.settled ∧ s.barUp = true :=
  ⟨ringUp, by decide +kernel⟩

theorem witness_interruptAndRegisterRowsComplete_6 : ∃ (s : State) (n j u i : Nat) (cells : List GCell) (c : GCell),
    s.settled ∧ s.barUp = true ∧ n ≤ 15 ∧ j < 512 ∧ s.selected n = (u, i) ∧ s.liveGroup n = some cells ∧ s.dark u = none ∧
    cells[j]? = some c :=
  by refine ⟨viewTx, 0, 1, 0x0300, 0, _, { val := 0 }, by decide +kernel, by decide +kernel, by decide +kernel, by decide +kernel, by decide +kernel, rfl, by decide +kernel, rfl⟩

theorem witness_interruptAndRegisterRowsComplete_7 : ∃ (s : State) (n j why : Nat),
    s.settled ∧ s.barUp = true ∧ n ≤ 15 ∧ j < 512 ∧ (s.liveGroup n).isSome = true ∧ s.dark (s.selected n).1 = some why :=
  ⟨{ viewTx with power := {} }, 0, 1, 4, by decide +kernel⟩

theorem witness_interruptAndRegisterRowsComplete_8 : ∃ (s : State) (a size o : Nat),
    s.settled ∧ s.barUp = true ∧ bar0Part (a / 4 * 4) = .global o ∧ o ≠ 0x20 ∧ 1 ≤ size ∧ a % 4 + size ≤ 4 :=
  ⟨ringUp, 0x12, 2, 0x10, by decide +kernel⟩

theorem witness_interruptAndRegisterRowsComplete_9 : ∃ (s : State) (v : Reg),
    s.settled ∧ s.barUp = true :=
  ⟨ringUp, 77, by decide +kernel⟩

theorem witness_interruptAndRegisterRowsComplete_10 : ∃ (s : State) (a size : Nat) (v : Reg),
    s.settled ∧ (size ≠ 4 ∨ a % 4 ≠ 0) :=
  ⟨ringUp, 0x12, 4, 77, by decide +kernel⟩

theorem witness_interruptAndRegisterRowsComplete_11 : ∃ (s : State) (u inst a : Nat),
    s.settled ∧ memListed u inst = true ∧ s.dark u = none :=
  ⟨ringUp, 0x0201, 0, 0, by decide +kernel⟩

theorem witness_interruptAndRegisterRowsComplete_12 : ∃ (s : State) (u inst a : Nat),
    s.settled ∧ memListed u inst = true ∧ s.dark u = none :=
  ⟨ringUp, 0x0201, 0, 0, by decide +kernel⟩

theorem witness_darkReadReturnsTheDarkWord : ∃ (s : State) (a size n o why : Nat),
    s.settled ∧ s.barUp = true ∧ bar0Part (a / 4 * 4) = .live n o ∧ (s.liveGroup n).isSome = true ∧ s.dark (s.selected n).1 = some why ∧
    1 ≤ size ∧ a % 4 + size ≤ 4 :=
  ⟨{ viewTx with power := {} }, 0x400008, 4, 0, 8, 4, by decide +kernel⟩

theorem witness_darkWriteIsDiscarded : ∃ (s : State) (a n o why : Nat) (v : Reg),
    s.settled ∧ s.barUp = true ∧ a % 4 = 0 ∧ bar0Part a = .live n o ∧ (s.liveGroup n).isSome = true ∧ s.dark (s.selected n).1 = some why :=
  ⟨{ viewTx with power := {} }, 0x400008, 0, 8, 4, 5, by decide +kernel⟩

theorem witness_targetRowsComplete_1 : ∃ (s : State) (b : List Byte),
    s.settled ∧ s.targetsUp = true ∧ s.power.dormant = .no ∧ s.cmdSpace s.com.spi .spi = true ∧ headerCheck none true b = none :=
  ⟨up, packet 0x0106 3 9 [1, 2], by decide +kernel⟩

theorem witness_targetRowsComplete_2 : ∃ (s : State) (b : List Byte),
    s.settled ∧ s.targetsUp = true ∧ s.power.dormant = .no ∧ s.cmdSpace s.com.spi .spi = false :=
  ⟨{ up with com := { received := [Received.mk 0x0106 { req 0 [] with via := .spi } false none false] } }, [], by decide +kernel⟩

theorem witness_targetRowsComplete_3 : ∃ (s : State) (b : List Byte),
    s.settled ∧ s.targetsUp = true ∧ s.com.i2cOff = false ∧ s.power.dormant = .no ∧ s.cmdSpace s.com.i2c .i2c = true ∧
    headerCheck none true b = none :=
  ⟨up, packet 0x0106 0 9 [1, 2], by decide +kernel⟩

theorem witness_targetRowsComplete_4 : ∃ (s : State) (r : Rsp) (rs : List Rsp),
    s.settled ∧ s.targetsUp = true ∧ s.power.dormant = .no ∧ s.com.spi.responses = r :: rs :=
  ⟨{ up with com := { spi := { responses := [Rsp.mk 0x8106 0 0 [0]] } } }, Rsp.mk 0x8106 0 0 [0], [], by decide +kernel⟩

theorem witness_targetRowsComplete_5 : ∃ (s : State) (r : Rsp) (rs : List Rsp),
    s.settled ∧ s.targetsUp = true ∧ s.power.dormant = .no ∧ s.com.spi.responses = r :: rs :=
  ⟨{ up with com := { spi := { responses := [Rsp.mk 0x8106 0 0 [0]] } } }, Rsp.mk 0x8106 0 0 [0], [], by decide +kernel⟩

theorem witness_targetRowsComplete_6 : ∃ (s : State),
    s.settled ∧ s.targetsUp = true :=
  ⟨up, by decide +kernel⟩

theorem witness_targetRowsComplete_7 : ∃ (s : State) (r : Rsp) (rs : List Rsp),
    s.settled ∧ s.targetsUp = true ∧ s.com.i2cOff = false ∧ s.power.dormant = .no ∧ s.com.i2c.responses = r :: rs :=
  ⟨{ up with com := { i2c := { responses := [Rsp.mk 0x8106 0 0 [0]] } } }, Rsp.mk 0x8106 0 0 [0], [], by decide +kernel⟩

theorem witness_targetRowsComplete_8 : ∃ (s : State) (r : Rsp) (rs : List Rsp),
    s.settled ∧ s.targetsUp = true ∧ s.com.i2cOff = false ∧ s.power.dormant = .no ∧ s.com.i2c.responses = r :: rs :=
  ⟨{ up with com := { i2c := { responses := [Rsp.mk 0x8106 0 0 [0]] } } }, Rsp.mk 0x8106 0 0 [0], [], by decide +kernel⟩

theorem witness_targetRowsComplete_9 : ∃ (s : State) (b : List Byte),
    s.settled ∧ s.targetsUp = true ∧ s.com.i2cOff = false ∧ s.power.dormant = .no ∧ s.cmdSpace s.com.i2c .i2c = false :=
  ⟨{ up with com := { received := [Received.mk 0x0106 { req 0 [] with via := .i2c } false none false] } }, [], by decide +kernel⟩

theorem witness_targetRowsComplete_10 : ∃ (s : State),
    s.settled ∧ s.targetsUp = true ∧ s.com.i2cOff = false ∧ s.power.dormant = .no :=
  ⟨up, by decide +kernel⟩

theorem witness_targetRowsComplete_11 : ∃ (s : State) (o : Nat),
    s.settled ∧ s.targetsUp = true ∧ o < 0x10000 ∧ o % 4 = 0 ∧ o ≠ 0x20 :=
  ⟨up, 0x14, by decide +kernel⟩

theorem witness_targetRowsComplete_12 : ∃ (s : State) (v : Reg),
    s.settled ∧ s.targetsUp = true :=
  ⟨up, 5, by decide +kernel⟩

theorem witness_endpointAndJobRowsComplete_1 : ∃ (s : State),
    s.settled :=
  ⟨ringUp, by decide +kernel⟩

theorem witness_endpointAndJobRowsComplete_2 : ∃ (s : State),
    s.settled :=
  ⟨ringUp, by decide +kernel⟩

theorem witness_endpointAndJobRowsComplete_3 : ∃ (s : State),
    s.settled :=
  ⟨{ ringUp with com := { ringUp.com with d3hot := true } }, by decide +kernel⟩

theorem witness_endpointAndJobRowsComplete_4 : ∃ (s : State) (io : JobIo),
    s.settled ∧ s.com.received.find? Received.waits = none ∧ s.nextJob = none :=
  ⟨up, {}, by decide +kernel⟩

theorem witness_endpointAndJobRowsComplete_5 : ∃ (s : State) (j : Job) (io : JobIo) (off : Nat) (img : List Byte),
    s.settled ∧ s.serving = true ∧ s.com.received.find? Received.waits = none ∧ s.nextJob = some j ∧ j.work = .fwWrite 1 off ∧
    s.staged 1 = some img ∧ io.ok = true :=
  ⟨{ up with boot := { up.boot with stagedImg := some [1, 2], imgOk := true }, jobs := { list := [writeJob] } }, writeJob, {}, 0, [1, 2], by decide +kernel⟩

theorem witness_endpointAndJobRowsComplete_6 : ∃ (s : State) (j : Job) (io : JobIo) (u addr len data done : Nat),
    s.settled ∧ s.serving = true ∧ s.com.received.find? Received.waits = none ∧ s.nextJob = some j ∧
    j.work = .fill 1 u addr len data done ∧ s.dark u = none ∧ io.readBad = none ∧ done + 4096 < len :=
  ⟨{ up with jobs := { list := [fillJob] } }, fillJob, {}, 0x0C00, 0, 8192, 7, 0, by decide +kernel⟩

theorem witness_timingCommandsComplete_1 : ∃ (s : State) (q : Request) (i : Nat),
    s.settled ∧ s.takes 0x0501 q ∧ q.len = 20 ∧ q.u 0 1 = i ∧ i ≤ 8 ∧ q.u 1 1 = 1 ∧ q.rsv 17 3 = true ∧ refFieldsOk q = true ∧
    (q.u 4 1 ≠ 0xF ∨ s.tim.present.contains i = false) ∧ s.dark (0x0D00 + i) = none ∧ q.tenant = 0 ∧ q.u 3 1 = 0 ∧
    q.u 5 1 = (if i = 8 then 1 else 0) ∧ tget s.tim.inputs i = none ∧ s.tim.inputs.length < 32 :=
  ⟨up, req 0 ([8, 1, 1, 0, 2, 1, 0, 0] ++ zeros 12), 8, by decide +kernel⟩

theorem witness_timingCommandsComplete_2 : ∃ (s : State) (q : Request) (i : Nat),
    s.settled ∧ s.takes 0x0501 q ∧ q.len = 20 ∧ q.u 0 1 = i ∧ i ≤ 8 ∧ q.u 1 1 = 1 ∧ q.rsv 17 3 = true ∧ refFieldsOk q = true ∧
    q.u 4 1 = 0xF ∧ s.tim.present.contains i = true ∧ s.dark (0x0D00 + i) = none ∧ q.tenant = 0 ∧ q.u 3 1 = 0 ∧
    q.u 5 1 = (if i = 8 then 1 else 0) ∧ tget s.tim.inputs i = none ∧ s.tim.inputs.length < 32 :=
  ⟨{ up with tim := { present := [8] } }, req 0 ([8, 1, 1, 0, 15, 1, 0, 0] ++ zeros 12), 8, by decide +kernel⟩

theorem witness_timingCommandsComplete_3 : ∃ (s : State) (q : Request) (i u : Nat),
    s.settled ∧ s.takes 0x0501 q ∧ q.len = 20 ∧ q.u 0 1 = i ∧ q.u 1 1 = 2 ∧ q.rsv 17 3 = true ∧ inputUnit i = some u ∧ s.dark u = none ∧
    q.tenant = 0 ∧ s.tim.inputs.wf :=
  ⟨refs, req 0 ([8, 2] ++ zeros 18), 8, 0x0D08, by decide +kernel⟩

theorem witness_timingCommandsComplete_4 : ∃ (s : State) (q : Request),
    s.takes 0x0502 q ∧ s.tenantOn q ∧ q.len = 0 :=
  ⟨refs, req 0 [], by decide +kernel⟩

theorem witness_timingCommandsComplete_5 : ∃ (s : State) (q : Request),
    s.takes 0x0503 q ∧ q.tenant = 0 ∧ q.len = 72 ∧ q.u 0 1 = 1 ∧ q.rsv 1 3 = true ∧ loopBad q s.tim = false :=
  ⟨refs, req 0 ([1] ++ zeros 71), by decide +kernel⟩

theorem witness_timingCommandsComplete_6 : ∃ (s : State) (q : Request),
    s.takes 0x0503 q ∧ s.tenantOn q ∧ q.len = 72 ∧ q.u 0 1 = 2 ∧ q.rsv 1 3 = true ∧ q.rsv 4 68 = true :=
  ⟨refs, req 0 ([2] ++ zeros 71), by decide +kernel⟩

theorem witness_timingCommandsComplete_7 : ∃ (s : State) (q : Request),
    s.takes 0x0504 q ∧ q.tenant = 0 ∧ q.len = 16 ∧ q.u 0 4 < secQ ∧ q.u 10 1 = 0 ∧ q.rsv 11 5 = true ∧
    (∀ i, s.tim.source = some i → twoWay i = false) ∧ s.stepBlocked = false :=
  by refine ⟨up, req 0 ([7, 0, 0, 0, 9] ++ zeros 11), by decide +kernel, by decide +kernel, by decide +kernel, by decide +kernel, by decide +kernel, by decide +kernel, fun i h => ?_, by decide +kernel⟩; simp [up, State.reset] at h

theorem witness_timingCommandsComplete_8 : ∃ (s : State) (q : Request) (x : TimeInput),
    s.takes 0x0504 q ∧ q.tenant = 0 ∧ q.len = 16 ∧ q.u 0 4 = 0 ∧ q.u 10 1 = 1 ∧ q.rsv 11 5 = true ∧
    (∀ i, s.tim.source = some i → twoWay i = false) ∧ s.stepBlocked = false ∧ tget s.tim.inputs 8 = some x ∧ x.st = 3 :=
  by refine ⟨refs, req 0 ([0, 0, 0, 0, 9, 0, 0, 0, 0, 0, 1] ++ zeros 5), ref8, by decide +kernel, by decide +kernel, by decide +kernel, by decide +kernel, by decide +kernel, by decide +kernel, fun i h => ?_, by decide +kernel, by decide +kernel, by decide +kernel⟩; simp only [refs, Option.some.injEq] at h; subst h; decide

theorem witness_timingCommandsComplete_9 : ∃ (s : State) (q : Request),
    s.takes 0x0505 q ∧ q.tenant = 0 ∧ q.len = 16 ∧ (q.u 0 1 = 1 ∨ q.u 0 1 = 2) ∧ q.u 1 1 = 0 ∧ q.u 10 1 = 0 ∧ q.rsv 11 5 = true ∧
    s.stepBlocked = false ∧ (q.u 0 1 = 2 → q.u 2 2 = 0 ∧ q.u 4 6 = 0) ∧ (q.u 0 1 = 1 → q.u 4 6 ≤ s.sec) :=
  ⟨up, req 0 ([1, 0, 7, 0, 5] ++ zeros 11), by decide +kernel⟩

theorem witness_timingCommandsComplete_10 : ∃ (s : State) (q : Request) (port u : Nat),
    s.takes 0x0505 q ∧ s.tenantOn q ∧ 32 ≤ q.len ∧ q.len ≤ 4080 ∧ q.u 0 1 = 3 ∧ q.u 1 1 ≤ 1 ∧ q.u 4 6 = 0 ∧ q.u 10 1 = port ∧
    relayPort port = true ∧ q.rsv 11 5 = true ∧ inputUnit port = some u ∧ s.dark u = none ∧ s.carrierUp port = true ∧
    s.canSign q.tenant = true ∧ s.jobsFull q.tenant = false :=
  ⟨{ linked with variant := { linked.variant with cipher := false } }, req 0 ([3, 0, 7, 0, 0, 0, 0, 0, 0, 0, 24] ++ zeros 5 ++ packet 0x0106 0 1 []), 24, 0x0E00, by decide +kernel⟩

theorem witness_referenceRowsComplete_1 : ∃ (s : State) (i quiet : Nat),
    s.settled ∧ thas s.tim.inputs i = true ∧ s.lossSeen i quiet = true :=
  ⟨refs, 8, 0, by decide +kernel⟩

theorem witness_referenceRowsComplete_2 : ∃ (s : State) (i quiet : Nat),
    s.settled ∧ s.lossSeen i quiet = false :=
  ⟨{ refs with tim := { refs.tim with ppsAt := refs.mono } }, 8, 0, by decide +kernel⟩

theorem witness_referenceRowsComplete_3 : ∃ (s : State) (i : Nat),
    s.settled ∧ thas s.tim.inputs i = true ∧ (s.input i).st = 1 ∧ s.carries i = true :=
  ⟨{ refs with tim := { refs.tim with inputs := [(8, { ref8 with st := 1 })] } }, 8, by decide +kernel⟩

theorem witness_referenceRowsComplete_4 : ∃ (s : State) (i : Nat),
    s.settled ∧ thas s.tim.inputs i = true ∧ (s.input i).st = 2 ∧ (s.input i).usable = true ∧
    (s.input i).since + (s.input i).qualify * secQ ≤ s.mono :=
  ⟨{ refs with tim := { refs.tim with inputs := [(8, { ref8 with st := 2 })] } }, 8, by decide +kernel⟩

theorem witness_referenceRowsComplete_5 : ∃ (s : State) (i : Nat),
    s.settled ∧ thas s.tim.inputs i = true ∧ (s.input i).qlMode ≠ 0 ∧ (s.input i).qlFailed = false ∧ (s.input i).st = 3 ∧
    (s.input i).rxQlAt + 5 * secQ ≤ s.mono :=
  ⟨{ refs with tim := { refs.tim with inputs := [(16, { ref8 with qlMode := 1, timeUse := false })] } }, 16, by decide +kernel⟩

theorem witness_referenceRowsComplete_6 : ∃ (s : State) (i : Nat) (off : Int),
    s.settled ∧ twoWay i = true ∧ off.natAbs < 120 :=
  ⟨linked, 24, -119, by decide +kernel⟩

theorem witness_referenceRowsComplete_7 : ∃ (s : State) (i : Nat) (off : Int),
    s.settled ∧ twoWay i = true ∧ 120 ≤ off.natAbs ∧ (s.partner i).wideAt = none :=
  ⟨linked, 24, -120, by decide +kernel⟩

theorem witness_referenceRowsComplete_8 : ∃ (s : State) (i w : Nat) (off : Int),
    s.settled ∧ twoWay i = true ∧ 120 ≤ off.natAbs ∧ (s.partner i).wideAt = some w ∧ w + secQ ≤ s.mono ∧ (s.partner i).warned = false :=
  ⟨{ linked with tim := { partners := [(24, { wideAt := some 7 })] } }, 24, 7, 120, by decide +kernel⟩

theorem witness_referenceRowsComplete_9 : ∃ (s : State) (dest early : Nat),
    s.settled ∧ s.tim.armed = some (dest, early) ∧ early ≤ s.mono ∧ s.stepBlocked = false :=
  ⟨{ refs with tim := { refs.tim with armed := some (5 * secQ, 3) } }, 5 * secQ, 3, by decide +kernel⟩

theorem witness_referenceRowsComplete_10 : ∃ (s : State),
    s.settled ∧ s.tim.armed = none :=
  ⟨refs, by decide +kernel⟩

theorem witness_loopRowsComplete_1 : ∃ (s : State) (ms : List Meas) (f : Int),
    s.settled ∧ s.tim.evalAt + secQ ≤ s.mono ∧ (ms.map Meas.input).Nodup :=
  ⟨{ refs with tim := { refs.tim with loopSt := 3 } }, [Meas.mk 8 [5, 6]], 7, by decide +kernel⟩

theorem witness_loopRowsComplete_2 : ∃ (s : State),
    s.settled ∧ (s.tim.loopSt = 1 ∨ s.tim.loopSt = 2) ∧ dwellOver s.tim.bwStep s.tim.trackBw (s.mono - s.tim.dwellAt) = true :=
  ⟨{ refs with tim := { refs.tim with loopSt := 2, bwStep := 3 } }, by decide +kernel⟩

theorem witness_loopRowsComplete_3 : ∃ (s : State) (temp : Int),
    s.settled ∧ s.tim.loopSt = 3 ∧ s.tim.history ≠ [] ∧ s.tim.trackAt + 6 * 3600 * secQ ≤ s.mono :=
  ⟨{ refs with mono := 30000 * secQ, tim := { refs.tim with loopSt := 3, history := [4, 2] } }, 250, by decide +kernel⟩

theorem witness_loopRowsComplete_4 : ∃ (s : State) (temp : Int),
    s.settled :=
  ⟨refs, 250, by decide +kernel⟩

theorem witness_loopRowsComplete_5 : ∃ (s : State) (node epoch : Nat),
    s.settled ∧ s.chamber ≠ s.tim.joinCh ∧ s.tim.joining = some (some (node, epoch)) :=
  ⟨{ refs with tim := { refs.tim with joining := some (some (7, 3)) } }, 7, 3, by decide +kernel⟩

theorem witness_loopRowsComplete_6 : ∃ (s : State),
    s.settled ∧ s.chamber ≠ s.tim.joinCh ∧ s.tim.joining = some none :=
  ⟨{ refs with tim := { refs.tim with joining := some none } }, by decide +kernel⟩

theorem witness_loopRowsComplete_7 : ∃ (s : State) (input : Nat) (m : List Byte) (rest : List (Nat × List Byte)),
    s.settled ∧ s.tim.inbox = (input, m) :: rest ∧ 32 ≤ m.length ∧ (fld m 1 1 % 2 = 1 ∨ fld m 4 2 = s.node) ∧
    s.messageBad input m = none ∧ fld m 0 1 = 1 ∧ fld (m.drop 16) 4 2 = fld m 6 2 ∧
    headerCheck none true ((m.drop 16).take (m.length - 32)) = none ∧ 8 ≤ m.length - 32 :=
  ⟨{ linked with variant := { linked.variant with cipher := false }, tim := { inbox := [(24, relayed1)] } }, 24, relayed1, [], by decide +kernel⟩

theorem witness_loopRowsComplete_8 : ∃ (s : State) (input c : Nat) (m : List Byte) (rest : List (Nat × List Byte)),
    s.settled ∧ s.tim.inbox = (input, m) :: rest ∧ 32 ≤ m.length ∧ (fld m 1 1 % 2 = 1 ∨ fld m 4 2 = s.node) ∧
    s.messageBad input m = some c :=
  ⟨{ linked with tim := { inbox := [(24, relayed1)] } }, 24, 3, relayed1, [], by decide +kernel⟩

theorem witness_loopRowsComplete_9 : ∃ (s : State),
    s.settled ∧ s.tim.statusAt + secQ ≤ s.mono ∧ s.canSign 0 = true :=
  ⟨{ linked with variant := { linked.variant with cipher := false } }, by decide +kernel⟩

theorem witness_loopRowsComplete_10 : ∃ (s : State) (token sentAt tag node : Nat) (j : Job),
    s.settled ∧ s.job token = some j ∧ j.ended = none ∧ j.finish = none ∧ j.work = .relay sentAt tag node ∧ sentAt + 100 * msQ ≤ s.mono :=
  ⟨{ up with jobs := { list := [relayJob] } }, 1, 0, 0, 0, relayJob, by decide +kernel⟩

theorem witness_loopRowsComplete_11 : ∃ (s : State) (i : Nat) (th : Int),
    s.settled ∧ twoWay i = true ∧ 160 < th.natAbs :=
  ⟨legged, 32, 200, by decide +kernel⟩

theorem witness_memoryCommandsComplete_1 : ∃ (s : State) (q : Request) (m : Nat),
    s.takes 0x0601 q ∧ q.tenant = 0 ∧ q.len = 32 ∧ q.u 0 1 = 1 ∧ q.rsv 1 1 = true ∧ q.rsv 4 4 = true ∧ q.u 2 2 = m ∧
    (m = 0x0201 ∨ m = 0x0204 ∨ (memEngine m).isSome = true) ∧ q.u 16 8 ≠ 0 ∧ q.u 8 8 % 256 = 0 ∧ q.u 16 8 % 256 = 0 ∧
    q.u 8 8 + q.u 16 8 ≤ memSize m ∧ s.dark m = none ∧ s.fillBusy m (q.u 8 8) (q.u 8 8 + q.u 16 8) = false ∧ s.jobsFull 0 = false :=
  ⟨up, req 0 ([1, 0, 1, 2, 0, 0, 0, 0] ++ le 8 512 ++ le 8 256 ++ le 8 7), 0x0201, by decide +kernel⟩

theorem witness_memoryCommandsComplete_2 : ∃ (s : State) (q : Request) (act : Nat),
    s.takes 0x0601 q ∧ q.tenant = 0 ∧ q.len = 32 ∧ q.u 0 1 = act ∧ 2 ≤ act ∧ act ≤ 3 ∧ q.rsv 1 1 = true ∧ q.rsv 4 4 = true ∧
    q.u 2 2 = 0x0C00 ∧ q.u 16 8 ≠ 0 ∧ q.u 8 8 % 64 = 0 ∧ q.u 16 8 % 64 = 0 ∧ q.u 24 8 % 64 = 0 ∧ 0x40000000 ≤ q.u 8 8 ∧
    q.u 8 8 + q.u 16 8 ≤ 0x40000000 + 16 * s.captureSize ∧ q.u 8 8 + q.u 16 8 ≤ s.mem.capacity ∧ s.lpReady = true ∧ s.dark 0x0C00 = none ∧
    s.pcieUp = true ∧ s.captureHolds (q.u 8 8) (q.u 8 8 + q.u 16 8) = false ∧ s.jobsFull 0 = false :=
  ⟨up, req 0 ([2, 0, 0, 12, 0, 0, 0, 0] ++ le 8 0x40000000 ++ le 8 64 ++ le 8 128), 2, by decide +kernel⟩

theorem witness_memoryCommandsComplete_3 : ∃ (s : State) (q : Request),
    s.takes 0x0602 q ∧ q.tenant = 0 ∧ q.len = 16 ∧ q.u 0 1 = 1 ∧ (q.u 1 1 ≤ 7 ∨ q.u 1 1 = 0x80) ∧
    (q.u 2 2 = 0 ∨ (15 ≤ q.u 2 2 ∧ q.u 2 2 ≤ 1440)) ∧ (q.u 4 2 = 0 ∨ (64 ≤ q.u 4 2 ∧ q.u 4 2 ≤ 16384)) ∧
    (q.u 6 2 = 0 ∨ (10 ≤ q.u 6 2 ∧ q.u 6 2 ≤ 60000)) ∧ q.u 10 2 = 0 ∧ q.rsv 12 4 = true :=
  ⟨up, req 0 ([1, 3, 20, 0] ++ zeros 12), by decide +kernel⟩

theorem witness_memoryCommandsComplete_4 : ∃ (s : State) (q : Request),
    s.takes 0x0602 q ∧ q.tenant = 0 ∧ q.len = 16 ∧ q.u 0 1 = 2 ∧ q.rsv 1 9 = true ∧ q.u 10 2 = 0 ∧ q.rsv 12 4 = true :=
  ⟨up, req 0 ([2] ++ zeros 15), by decide +kernel⟩

theorem witness_memoryCommandsComplete_5 : ∃ (s : State) (q : Request) (m : Nat),
    s.takes 0x0602 q ∧ q.tenant = 0 ∧ q.len = 16 ∧ q.u 0 1 = 3 ∧ q.rsv 1 9 = true ∧ q.u 10 2 = m ∧ memListed m 0 = true ∧
    q.rsv 12 4 = true ∧ s.dark m = none ∧ (m = 0x0C00 → s.lpReady = true) ∧
    (s.runningJobs.all fun j => match j.work with | .sweep _ _ _ => false | _ => true) = true ∧ s.jobsFull 0 = false :=
  ⟨up, req 0 ([3] ++ zeros 9 ++ [1, 2, 0, 0, 0, 0]), 0x0201, by decide +kernel⟩

theorem witness_memoryCommandsComplete_6 : ∃ (s : State) (q : Request) (u off : Nat) (ok : Bool),
    s.takes 0x0603 q ∧ q.tenant = 0 ∧ q.len = 12 ∧ q.u 0 2 = u ∧ q.u 4 4 = off ∧ q.rsv 2 2 = true ∧ q.rsv 8 4 = true ∧ u ∈ onchipUnits ∧
    lineCoded u = true ∧ off < memSize u ∧ s.dark u = none ∧
    (s.mem.repairing.all fun r => bankKey r.unit r.offset != bankKey u off) = true ∧ s.sparesLeft u off ≠ 0 ∧
    s.store.repair.rows.length < 256 :=
  ⟨up, req 0 ([1, 2, 0, 0] ++ le 4 4096 ++ zeros 4), 0x0201, 4096, true, by decide +kernel⟩

theorem witness_memoryCommandsComplete_7 : ∃ (s : State) (q : Request) (u off : Nat),
    s.takes 0x0603 q ∧ q.tenant = 0 ∧ q.len = 12 ∧ q.u 0 2 = u ∧ q.u 4 4 = off ∧ q.rsv 2 2 = true ∧ q.rsv 8 4 = true ∧ u ∈ onchipUnits ∧
    u ≠ 0x0C02 ∧ lineCoded u = false ∧ off < memSize u ∧ s.dark u = none ∧
    (s.mem.repairing.all fun r => bankKey r.unit r.offset != bankKey u off) = true ∧ s.sparesLeft u off ≠ 0 ∧
    s.store.repair.rows.length < 256 :=
  ⟨up, req 0 ([2, 2, 0, 0] ++ le 4 4096 ++ zeros 4), 0x0202, 4096, by decide +kernel⟩

theorem witness_memoryCommandsComplete_8 : ∃ (s : State) (q : Request) (spare : Nat),
    s.takes 0x0604 q ∧ q.tenant = 0 ∧ q.len = 12 ∧ q.rsv 8 4 = true ∧ q.u 0 8 % 4096 = 0 ∧ q.u 0 8 < s.mem.capacity ∧
    (q.u 0 8 < 0x39000000 ∨ 0x39400000 ≤ q.u 0 8) ∧ s.dark 0x0C00 = none ∧ (s.mem.moving.all fun m => m.addr != q.u 0 8) = true ∧
    s.lpReady = true ∧ s.freeSpare = some spare ∧ s.store.repair.pages.length < 1024 :=
  ⟨up, req 0 (le 8 8192 ++ zeros 4), 0, by decide +kernel⟩

theorem witness_memoryCommandsComplete_9 : ∃ (s : State) (q : Request),
    s.takes 0x0605 q ∧ s.tenantOn q ∧ q.len = 4 ∧ memListed (q.u 0 2) (q.u 2 2) = true ∧ s.dark (q.u 0 2) = none :=
  ⟨up, req 0 [1, 2, 0, 0], by decide +kernel⟩

theorem witness_memoryRowsComplete_1 : ∃ (s : State) (u inst a reader : Nat) (flips : List Nat) (use : MemUse),
    s.settled ∧ memListed u inst = true ∧ s.dark u = none ∧ u ≠ 0x0C02 ∧
    spanHas (s.memInst (dataKey u inst)).valid (a / memBlock u) = true ∧ s.codeRead u inst a flips = .clean :=
  ⟨valued, 0x0201, 0, 64, 3, [], .plain, by decide +kernel⟩

theorem witness_memoryRowsComplete_2 : ∃ (s : State) (u inst a reader : Nat) (flips : List Nat) (use : MemUse),
    s.settled ∧ memListed u inst = true ∧ s.dark u = none ∧ u ≠ 0x0C02 ∧
    spanHas (s.memInst (dataKey u inst)).valid (a / memBlock u) = false :=
  ⟨valued, 0x0201, 0, 0x10000, 3, [1], .plain, by decide +kernel⟩

theorem witness_memoryRowsComplete_3 : ∃ (s : State) (u inst a reader bt : Nat) (flips : List Nat) (use : MemUse),
    s.settled ∧ memListed u inst = true ∧ s.dark u = none ∧ u ≠ 0x0C02 ∧
    spanHas (s.memInst (dataKey u inst)).valid (a / memBlock u) = true ∧ s.codeRead u inst a flips = .corrected bt ∧
    (s.memInst (memKey u inst)).bucket + 1 < s.mem.level :=
  ⟨valued, 0x0201, 0, 64, 3, 5, [5], .plain, by decide +kernel⟩

theorem witness_memoryRowsComplete_4 : ∃ (s : State) (u inst a reader : Nat) (flips : List Nat),
    s.settled ∧ memListed u inst = true ∧ s.dark u = none ∧ u ≠ 0x0C02 ∧ u ≠ 0x0100 ∧ u ≠ 0x0101 ∧
    spanHas (s.memInst (dataKey u inst)).valid (a / memBlock u) = true ∧ s.codeRead u inst a flips = .uncorrectable :=
  ⟨valued, 0x0201, 0, 64, 3, [1, 2], by decide +kernel⟩

theorem witness_memoryRowsComplete_5 : ∃ (s : State),
    s.settled :=
  ⟨valued, by decide +kernel⟩

theorem witness_memoryRowsComplete_6 : ∃ (s : State) (r : RowRepair) (rest : List RowRepair),
    s.settled ∧ s.mem.repairing = r :: rest ∧ r ∉ rest ∧ r.since ≠ s.chamber :=
  ⟨{ valued with mem := { valued.mem with repairing := [RowRepair.mk none 0x0201 4096 1] } }, RowRepair.mk none 0x0201 4096 1, [], by decide +kernel⟩

theorem witness_memoryRowsComplete_7 : ∃ (s : State) (r : RowRepair) (rest : List RowRepair),
    s.settled ∧ s.mem.repairing = r :: rest ∧ r ∉ rest ∧ r.since ≠ s.chamber :=
  ⟨{ valued with mem := { valued.mem with repairing := [RowRepair.mk none 0x0201 4096 1] } }, RowRepair.mk none 0x0201 4096 1, [], by decide +kernel⟩

theorem witness_memoryRowsComplete_8 : ∃ (s : State) (r : PageMove) (rest : List PageMove),
    s.settled ∧ s.mem.moving = r :: rest ∧ r ∉ rest ∧ r.since ≠ s.chamber :=
  ⟨{ valued with mem := { valued.mem with moving := [PageMove.mk (req 0 []) 8192 0 1] } }, PageMove.mk (req 0 []) 8192 0 1, [], by decide +kernel⟩

theorem witness_memoryRowsComplete_9 : ∃ (s : State) (u b : Nat) (ok : Bool),
    s.settled ∧ s.mem.onchipEn = true ∧ s.since s.mem.onchip.at_ s.onchipPace = true ∧
    ((s.litMems s.mem.onchip.key).findSome? fun u => (s.nextBlock u 1025 (if u = s.mem.onchip.key then s.mem.onchip.block else 0)).map fun b => (u, b)) = some (u, b) :=
  ⟨{ valued with mono := 10000 * secQ }, 0x0201, 0, true, by decide +kernel⟩

theorem witness_memoryRowsComplete_10 : ∃ (s : State) (b a bt : Nat) (flips : List Nat),
    s.settled ∧ s.mem.lpEn = true ∧ s.lpReady = true ∧ s.gateShut = false ∧ s.since s.mem.lp.at_ s.lpPace = true ∧
    s.nextBlock 0x0C00 1025 s.mem.lp.block = some b ∧ a / 4096 = b ∧ s.codeRead 0x0C00 0 a flips = .corrected bt ∧
    (s.memInst (0x1800 + a / 4096 % 2)).bucket + 1 < s.mem.level :=
  ⟨{ valued with mem := { valued.mem with lp := { late := true } } }, 0, 64, 5, [5], by decide +kernel⟩

theorem witness_memoryRowsComplete_11 : ∃ (s : State) (found : List Finding) (lp ok : Bool),
    s.settled ∧ (if lp then s.mem.lpEn else s.mem.onchipEn) = false :=
  ⟨{ valued with mem := { valued.mem with lpEn := false } }, [Finding.mk 0 []], true, true, by decide +kernel⟩

theorem witness_logCommandsComplete_1 : ∃ (s : State) (q : Request),
    s.takes 0x0701 q ∧ q.tenant = 0 ∧ q.len = 16 ∧ q.u 0 1 = 1 ∧ q.u 1 1 ≤ 3 ∧ q.u 2 1 = 0 ∧ q.rsv 3 5 = true :=
  ⟨up, req 0 ([1, 2] ++ zeros 14), by decide +kernel⟩

theorem witness_logCommandsComplete_2 : ∃ (s : State) (q : Request),
    s.takes 0x0701 q ∧ q.tenant = 0 ∧ q.len = 16 ∧ q.u 0 1 = 2 ∧ q.rsv 1 15 = true :=
  ⟨up, req 0 ([2] ++ zeros 15), by decide +kernel⟩

theorem witness_logCommandsComplete_3 : ∃ (s : State) (q : Request),
    s.takes 0x0701 q ∧ q.tenant = 0 ∧ q.len = 16 ∧ q.u 0 1 = 3 ∧ q.u 1 1 = 0 ∧ 1 ≤ q.u 2 1 ∧ q.u 2 1 ≤ 127 ∧ q.rsv 3 13 = true ∧
    s.log.spillEn = true ∧ s.lpReady = true :=
  ⟨{ up with log := { spill := [ev1] } }, req 0 ([3, 0, 2] ++ zeros 13), by decide +kernel⟩

theorem witness_logCommandsComplete_4 : ∃ (s : State) (q : Request) (set : BinSet) (b : Bin),
    s.takes 0x0702 q ∧ q.len = 8 ∧ (q.u 4 1 = 1 ∨ q.u 4 1 = 2) ∧ 1 ≤ q.u 5 1 ∧ q.u 5 1 ≤ (if q.u 4 1 = 1 then 32 else 7) ∧
    q.rsv 6 2 = true ∧ (s.group (q.u 0 2) (s.normInst (q.u 0 2) (q.u 2 2))).isSome = true ∧ s.tenantOn q ∧
    s.mayRead q.tenant (q.u 0 2) (s.normInst (q.u 0 2) (q.u 2 2)) = true ∧ s.lpReady = true ∧
    tget s.log.bins (q.u 0 2 * 65536 + s.normInst (q.u 0 2) (q.u 2 2)) = some set ∧ (set.closed (q.u 4 1))[q.u 5 1 - 1]? = some b :=
  ⟨{ up with log := { bins := [(0x01060000, { closed15 := [{}] })] } }, req 0 [6, 1, 0, 0, 1, 1, 0, 0], { closed15 := [{}] }, {}, by decide +kernel⟩

theorem witness_logCommandsComplete_5 : ∃ (s : State) (q : Request),
    s.takes 0x0702 q ∧ q.len = 8 ∧ (q.u 4 1 = 1 ∨ q.u 4 1 = 2) ∧ q.u 5 1 = 0 ∧ q.rsv 6 2 = true ∧
    (s.group (q.u 0 2) (s.normInst (q.u 0 2) (q.u 2 2))).isSome = true ∧ s.dark (q.u 0 2) = none ∧ s.tenantOn q ∧
    s.mayRead q.tenant (q.u 0 2) (s.normInst (q.u 0 2) (q.u 2 2)) = true ∧ s.lpReady = true :=
  ⟨up, req 0 [6, 1, 0, 0, 1, 0, 0, 0], by decide +kernel⟩

theorem witness_logCommandsComplete_6 : ∃ (s : State) (q : Request),
    s.takes 0x0703 q ∧ q.len = 8 ∧ q.u 4 1 ≤ 15 ∧ q.rsv 5 3 = true ∧ (s.group (q.u 0 2) (s.normInst (q.u 0 2) (q.u 2 2))).isSome = true ∧
    s.dark (q.u 0 2) = none ∧ s.tenantOn q ∧ s.mayRead q.tenant (q.u 0 2) (s.normInst (q.u 0 2) (q.u 2 2)) = true :=
  ⟨up, req 0 [6, 1, 0, 0, 3, 0, 0, 0], by decide +kernel⟩

theorem witness_logCommandsComplete_7 : ∃ (s : State) (q : Request),
    s.takes 0x0704 q ∧ s.tenantOn q ∧ q.len = 4 ∧ q.u 0 1 = 0xFF ∧ q.rsv 1 3 = true :=
  ⟨up, req 0 [0xFF, 0, 0, 0], by decide +kernel⟩

theorem witness_logCommandsComplete_8 : ∃ (s : State) (q : Request) (l : Life),
    s.takes 0x0704 q ∧ s.tenantOn q ∧ q.len = 4 ∧ q.u 0 1 < 64 ∧ q.rsv 1 3 = true ∧ tget s.log.lifeSlots (q.u 0 1) = some l :=
  ⟨{ up with log := { lifeSlots := [(3, {})] } }, req 0 [3, 0, 0, 0], {}, by decide +kernel⟩

theorem witness_logCommandsComplete_9 : ∃ (s : State) (q : Request),
    s.takes 0x0704 q ∧ s.tenantOn q ∧ q.len = 4 ∧ q.u 0 1 < 64 ∧ q.rsv 1 3 = true ∧ tget s.log.lifeSlots (q.u 0 1) = none :=
  ⟨up, req 0 [3, 0, 0, 0], by decide +kernel⟩

theorem witness_logCommandsComplete_10 : ∃ (s : State) (q : Request),
    s.takes 0x0705 q ∧ q.tenant = 0 ∧ q.u 0 1 = 1 ∧ q.u 1 1 ≤ 64 ∧ q.len = 16 + 8 * q.u 1 1 ∧ q.rsv 4 4 = true ∧ q.rsv 14 2 = true ∧
    (calendarOf q).bad = false :=
  ⟨up, req 0 ([1, 1] ++ zeros 14 ++ [5, 0, 0, 0, 0, 0, 37, 0]), by decide +kernel⟩

theorem witness_logCommandsComplete_11 : ∃ (s : State) (q : Request),
    s.takes 0x0705 q ∧ q.tenant = 0 ∧ q.u 0 1 = 1 ∧ q.u 1 1 ≤ 64 ∧ q.len = 16 + 8 * q.u 1 1 ∧ q.rsv 4 4 = true ∧ q.rsv 14 2 = true ∧
    (calendarOf q).bad = false :=
  ⟨up, req 0 ([1, 1] ++ zeros 14 ++ [5, 0, 0, 0, 0, 0, 37, 0]), by decide +kernel⟩

theorem witness_logCommandsComplete_12 : ∃ (s : State) (q : Request) (ok : Bool),
    s.takes 0x0705 q ∧ q.tenant = 0 ∧ q.len = 16 ∧ q.u 0 1 = 2 ∧ q.u 1 1 = 0 ∧ q.rsv 2 14 = true :=
  ⟨up, req 0 ([2] ++ zeros 15), true, by decide +kernel⟩

theorem witness_logRowsComplete_1 : ∃ (s : State) (e : Ev) (isl src : Nat) (payload : List Byte),
    s.settled ∧ e.hasChamber = true ∧ bitsAt s.log.floor (2 * e.cls) 2 ≤ e.severity ∧ payload.length ≤ 8 ∧
    s.log.ring.all (fun kr => !(s.log.coalesces kr.1 kr.2 e (recordsOf s.now isl e src (le 6 s.chamber ++ payload)))) = true ∧
    s.log.unread + 1 ≤ 65536 :=
  ⟨up, .jobComplete, 1, 0, [1], by decide +kernel⟩

theorem witness_logRowsComplete_2 : ∃ (s : State) (e : Ev) (isl src : Nat) (payload : List Byte),
    s.settled ∧ e ≠ .logOverflow ∧ e.severity < bitsAt s.log.floor (2 * e.cls) 2 :=
  ⟨{ up with log := { floor := 2 ^ 64 - 1 } }, .jobComplete, 1, 0, [1], by decide +kernel⟩

theorem witness_logRowsComplete_3 : ∃ (s : State),
    s.settled ∧ 0 < s.log.dropCount ∧ s.log.unread + 2 ≤ 65536 :=
  ⟨{ up with log := { dropCount := 3, dropMask := 2 } }, by decide +kernel⟩

theorem witness_logRowsComplete_4 : ∃ (s : State) (p : SnapPending) (cells : List GCell),
    s.settled ∧ s.com.snapPending = [p] ∧ p.bin = none ∧ p.chamber ≠ s.chamber ∧ s.group p.unit p.inst = some cells :=
  by refine ⟨{ up with com := { snapPending := [SnapPending.mk (req 0 [6, 1, 0, 0, 3, 0, 0, 0]) 0x0106 0 3 none 1] } }, SnapPending.mk (req 0 [6, 1, 0, 0, 3, 0, 0, 0]) 0x0106 0 3 none 1, _, by decide +kernel, by decide +kernel, by decide +kernel, by decide +kernel, rfl⟩

theorem witness_logRowsComplete_5 : ∃ (s : State),
    s.settled ∧ (s.com.snapPending.all fun p => p.chamber == s.chamber) = true :=
  ⟨up, by decide +kernel⟩

theorem witness_logRowsComplete_6 : ∃ (s : State),
    s.settled ∧ s.lpReady = true ∧ s.log.binsOn = false :=
  ⟨up, by decide +kernel⟩

theorem witness_logRowsComplete_7 : ∃ (s : State),
    s.settled ∧ s.lpReady = true ∧ s.log.binsOn = true ∧ s.sec ≠ s.log.binsSecond ∧
    s.log.calendar.local (s.sec - 1) / 900 < s.log.calendar.local s.sec / 900 :=
  ⟨{ up with now := 900 * secQ, log := { binsOn := true, binsSecond := 899 } }, by decide +kernel⟩

theorem witness_logRowsComplete_8 : ∃ (s : State),
    s.settled ∧ s.lpReady = true ∧ s.log.binsOn = true ∧ s.sec = s.log.binsSecond ∧ s.sec ≠ s.log.gaugeSecond :=
  ⟨{ up with log := { binsOn := true, binsSecond := 100, bins := [(0x01060000, {})] } }, by decide +kernel⟩

theorem witness_logRowsComplete_9 : ∃ (s : State),
    s.settled ∧ s.log.lifeTenMin + 10 ≤ s.log.life.powerOnMin :=
  ⟨{ up with log := { life := { powerOnMin := 10 } } }, by decide +kernel⟩

theorem witness_logRowsComplete_10 : ∃ (s : State) (ok : Bool),
    s.settled ∧ s.log.life.powerOnMin < s.log.lifeTenMin + 10 :=
  ⟨up, true, by decide +kernel⟩

theorem witness_logRowsComplete_11 : ∃ (s : State),
    s.settled ∧ s.log.stale = false ∧ s.log.calendar.isSet = true ∧ s.log.calendar.expiry < s.sec :=
  ⟨{ up with log := { calendar := { isSet := true, expiry := 3 } } }, by decide +kernel⟩

theorem witness_powerCommandsComplete_1 : ∃ (s : State) (q : Request) (i st : Nat),
    s.takes 0x0801 q ∧ q.tenant = 0 ∧ q.len = 20 ∧ q.u 0 1 = i ∧ q.u 1 1 = st ∧ 3 ≤ i ∧ i ≤ 14 ∧ 1 ≤ st ∧ st ≤ 3 ∧
    stateAllowed i st = true ∧ q.rsv 2 2 = true ∧ q.rsv 4 16 = true ∧ s.absent (i * 256 + 0xFE) = none ∧ s.moving i = false ∧
    (s.island i).st = .active ∧ s.idleReason i = none :=
  ⟨up, req 0 ([3, 1] ++ zeros 18), 3, 1, by decide +kernel⟩

theorem witness_powerCommandsComplete_2 : ∃ (s : State) (q : Request) (i : Nat),
    s.takes 0x0801 q ∧ q.tenant = 0 ∧ q.len = 20 ∧ q.u 0 1 = i ∧ q.u 1 1 = 0 ∧ 3 ≤ i ∧ i ≤ 14 ∧ i ≠ 13 ∧ q.rsv 2 2 = true ∧
    q.rsv 4 16 = true ∧ s.absent (i * 256 + 0xFE) = none ∧ s.moving i = false ∧ (s.island i).st ≠ .active :=
  ⟨parked, req 0 ([3, 0] ++ zeros 18), 3, by decide +kernel⟩

theorem witness_powerCommandsComplete_3 : ∃ (s : State) (q : Request) (i : Nat),
    s.takes 0x0801 q ∧ q.tenant = 0 ∧ q.len = 20 ∧ q.u 0 1 = i ∧ q.u 1 1 = (s.island i).st.code ∧ 3 ≤ i ∧ i ≤ 14 ∧
    stateAllowed i (s.island i).st.code = true ∧ q.rsv 2 2 = true ∧ q.rsv 4 16 = true ∧ s.absent (i * 256 + 0xFE) = none ∧
    s.moving i = false :=
  ⟨parked, req 0 ([3, 1] ++ zeros 18), 3, by decide +kernel⟩

theorem witness_powerCommandsComplete_4 : ∃ (s : State) (q : Request),
    s.takes 0x0801 q ∧ q.tenant = 0 ∧ q.len = 20 ∧ q.u 0 1 = 0xFF ∧ q.u 1 1 = 4 ∧ q.rsv 3 1 = true ∧ q.rsv 16 4 = true ∧
    s.moving 0xFF = false ∧ s.idleReason 0xFF = none :=
  ⟨up, req 0 ([0xFF, 4, 2] ++ zeros 17), by decide +kernel⟩

theorem witness_powerCommandsComplete_5 : ∃ (s : State) (q : Request) (n : Nat),
    s.takes 0x0802 q ∧ q.tenant = 0 ∧ q.len = 4 ∧ q.u 0 1 = n ∧ n ≤ 7 ∧ q.u 1 1 ≤ 3 ∧ q.rsv 2 2 = true ∧
    s.absent (islEng n * 256 + 0xFE) = none :=
  ⟨up, req 0 [2, 1, 0, 0], 2, by decide +kernel⟩

theorem witness_powerCommandsComplete_6 : ∃ (s : State) (q : Request) (n : Nat),
    s.takes 0x0803 q ∧ q.tenant = 0 ∧ q.len = 16 ∧ q.u 0 1 = n ∧ n ≤ 7 ∧ q.u 1 1 = 1 ∧ (q.u 2 1 = 0x80 ∨ q.u 2 1 < 4) ∧ q.u 3 1 ≤ 64 ∧
    q.u 4 2 ≤ 1000 ∧ orDefault (q.u 6 2) 100 < orDefault (q.u 8 2) 120 ∧ q.u 8 2 ≤ 1800 ∧ q.u 8 2 ≠ 1 ∧ q.rsv 10 6 = true ∧
    s.absent (islEng n * 256 + 0xFE) = none :=
  ⟨up, req 0 ([2, 1] ++ zeros 14), 2, by decide +kernel⟩

theorem witness_powerCommandsComplete_7 : ∃ (s : State) (q : Request) (n : Nat),
    s.takes 0x0803 q ∧ q.tenant = 0 ∧ q.len = 16 ∧ q.u 0 1 = n ∧ n ≤ 7 ∧ q.u 1 1 = 2 ∧ q.rsv 2 14 = true ∧
    s.absent (islEng n * 256 + 0xFE) = none :=
  ⟨up, req 0 ([2, 2] ++ zeros 14), 2, by decide +kernel⟩

theorem witness_powerCommandsComplete_8 : ∃ (s : State) (q : Request) (i : Nat),
    s.takes 0x0804 q ∧ q.tenant = 0 ∧ q.len = 4 ∧ q.u 0 1 = i ∧ 3 ≤ i ∧ i ≤ 14 ∧ q.rsv 1 3 = true ∧ s.absent (i * 256 + 0xFE) = none ∧
    (s.island i).st = .active ∧ (s.island i).moving = none :=
  ⟨{ up with power := { up.power with islands := tput up.power.islands 3 { inReset := false, belay := true } } }, req 0 [3, 0, 0, 0], 3, by decide +kernel⟩

theorem witness_powerCommandsComplete_9 : ∃ (s : State) (q : Request),
    s.takes 0x0805 q ∧ s.tenantOn q ∧ q.len = 4 ∧ (q.u 0 1 = 1 ∨ q.u 0 1 = 2) ∧ q.rsv 1 3 = true :=
  ⟨up, req 0 [1, 0, 0, 0], by decide +kernel⟩

theorem witness_powerRowsComplete_1 : ∃ (s : State) (i t0 : Nat) (lifeOk : Bool),
    s.settled ∧ i ≤ 14 ∧ (s.island i).moving = some (.parked, t0) ∧ (∀ n, islandEngine i = some n → s.calRuns n = false) :=
  by refine ⟨{ up with power := { up.power with islands := tput up.power.islands 3 { inReset := false, belay := true, moving := some (.parked, 5) } } }, 3, 5, true, by decide +kernel, by decide +kernel, by decide +kernel, fun n h => ?_⟩; obtain rfl : n = 0 := (by simpa [islandEngine] using h.symm); decide +kernel

theorem witness_powerRowsComplete_2 : ∃ (s : State) (n t0 : Nat) (lifeOk : Bool),
    s.settled ∧ n ≤ 7 ∧ (s.island (islEng n)).moving = some (.off, t0) ∧ s.calRuns n = false :=
  ⟨{ lit1 with power := { up.power with islands := tput up.power.islands 3 { inReset := false, moving := some (.off, 5) } } }, 0, 5, true, by decide +kernel⟩

theorem witness_powerRowsComplete_3 : ∃ (s : State) (i t0 : Nat) (lifeOk : Bool),
    s.settled ∧ i ≤ 14 ∧ (s.island i).moving = some (.active, t0) ∧ s.power.latch = [] :=
  ⟨{ parked with power := { parked.power with islands := tput parked.power.islands 3 { st := .parked, inReset := false, moving := some (.active, 5) } } }, 3, 5, true, by decide +kernel⟩

theorem witness_powerRowsComplete_4 : ∃ (s : State) (i t0 code status : Nat),
    s.settled ∧ i ≤ 14 ∧ (s.island i).moving = some (.parked, t0) :=
  ⟨{ up with power := { up.power with islands := tput up.power.islands 3 { inReset := false, moving := some (.parked, 5) } } }, 3, 5, 0, 7, by decide +kernel⟩

theorem witness_powerRowsComplete_5 : ∃ (s : State) (src gpio arg : Nat) (lvl : Bool) (m : List Byte),
    s.settled ∧ s.power.dormant = .yes ∧ 1 ≤ src ∧ src ≤ 4 ∧ s.wakeEnabled src gpio lvl = true ∧ s.power.wake = none :=
  ⟨{ up with power := { up.power with dormant := .yes, wakeMask := 4 } }, 3, 0xFF, 0, true, [], by decide +kernel⟩

theorem witness_powerRowsComplete_6 : ∃ (s : State) (src gpio arg : Nat) (lvl : Bool) (m : List Byte),
    s.settled ∧ s.power.dormant = .yes ∧ 5 ≤ src ∧ src ≤ 8 ∧ s.power.latch.length < 64 ∧
    (src = 5 → (s.power.latch.filter fun y => y.source == 5).length < 16) ∧ s.wakeEnabled src gpio lvl = false :=
  ⟨{ up with power := { up.power with dormant := .yes } }, 6, 0xFF, 0, true, [], by decide +kernel⟩

theorem witness_powerRowsComplete_7 : ∃ (s : State) (src gpio arg : Nat) (lvl : Bool) (m : List Byte),
    s.settled ∧ s.power.dormant = .no ∧ (∀ i ∈ List.range 15, (s.island i).moving = none) :=
  ⟨up, 6, 0xFF, 0, true, [], by decide +kernel⟩

theorem witness_powerRowsComplete_8 : ∃ (s : State) (n mv : Nat) (los : List Nat) (samples : List Int),
    s.settled ∧ mv = los.sum / max 1 los.length ∧ (s.island (islEng n)).st = .dripline ∧ (s.island (islEng n)).moving = none ∧
    (s.eng n).pwr.useSlice = false ∧ (s.eng n).pwr.light = 0 ∧ (s.eng n).pwr.cycleAt + (s.eng n).pwr.periodMs * msQ ≤ s.mono ∧
    (s.eng n).pwr.losSetMv ≤ mv ∧ (s.eng n).pwr.losClearMv ≤ mv :=
  ⟨drip, 0, 500, [490, 511], [], by decide +kernel⟩

theorem witness_powerRowsComplete_9 : ∃ (s : State) (n mv : Nat) (los : List Nat) (samples : List Int),
    s.settled ∧ mv = los.sum / max 1 los.length ∧ (s.island (islEng n)).st = .dripline ∧ (s.island (islEng n)).moving = none ∧
    (s.eng n).pwr.useSlice = false ∧ (s.eng n).pwr.light = 1 ∧ (s.eng n).pwr.opposite = 1 ∧ (s.eng n).pwr.autoWake = true ∧
    (s.eng n).pwr.cycleAt + (s.eng n).pwr.periodMs * msQ ≤ s.mono ∧ (s.eng n).pwr.losSetMv ≤ mv ∧ (s.eng n).pwr.losClearMv ≤ mv :=
  ⟨{ drip with engs := [(0, { pwr := { (drip.eng 0).pwr with light := 1, opposite := 1 } })] }, 0, 500, [500], [], by decide +kernel⟩

theorem witness_powerRowsComplete_10 : ∃ (s : State) (n status : Nat) (ok : Bool) (drift : Int),
    s.settled ∧ n ≤ 7 ∧ (s.island (islEng n)).st = .active ∧ (s.eng n).pwr.level ≠ s.targetLevel n ∧ (ok = true ∨ s.steered n = false) :=
  ⟨{ up with engs := [(0, { pwr := { floor := 2 } })] }, 0, 0, false, 130, by decide +kernel⟩

theorem witness_powerRowsComplete_11 : ∃ (s : State) (n status : Nat) (drift : Int),
    s.settled ∧ n ≤ 7 ∧ s.steered n = true :=
  ⟨{ up with power := { up.power with rails := [(0, { bus := 2 })] }, engs := [(0, { pwr := { floor := 2 } })] }, 0, 0, 130, by decide +kernel⟩

theorem witness_powerRowsComplete_12 : ∃ (s : State) (n : Nat) (drift : Int),
    s.settled ∧ n ≤ 7 ∧ (s.eng n).pwr.trimAt + 86400 * secQ ≤ s.mono :=
  ⟨{ up with mono := 90000 * secQ }, 0, 130, by decide +kernel⟩

theorem witness_powerRowsComplete_13 : ∃ (s : State) (code status : Nat) (r : Rail),
    s.settled ∧ tget s.power.rails code = some r :=
  ⟨{ up with power := { up.power with rails := [(0, { status := 3 })] } }, 0, 0x18, { status := 3 }, by decide +kernel⟩

theorem witness_powerRowsComplete_14 : ∃ (s : State) (code v i st : Nat) (temp : Int) (r : Rail),
    s.settled ∧ s.power.lastPoll + secQ ≤ s.mono ∧ tget s.power.rails code = some r :=
  ⟨{ up with power := { up.power with rails := [(0, {})] } }, 0, 750, 30, 0x140, 40, {}, by decide +kernel⟩

theorem witness_resetAndFirmwareCommandsComplete_1 : ∃ (s : State) (q : Request),
    s.takes 0x0901 q ∧ q.tenant = 0 ∧ q.len = 8 ∧ q.u 0 1 = 0 ∧ q.rsv 1 7 = true :=
  ⟨up, req 0 (zeros 8), by decide +kernel⟩

theorem witness_resetAndFirmwareCommandsComplete_2 : ∃ (s : State) (q : Request) (n : Nat),
    s.takes 0x0901 q ∧ q.tenant = 0 ∧ q.len = 8 ∧ n ≤ 7 ∧ q.u 0 1 = 1 ∧ q.u 2 2 = islEng n * 256 + 0xFE ∧ q.rsv 1 1 = true ∧
    q.rsv 4 4 = true ∧ s.dark (islEng n * 256 + 0xFE) = none ∧ s.idleReason (islEng n) = none :=
  ⟨dark1, req 0 ([1, 0] ++ le 2 0x03FE ++ zeros 4), 0, by decide +kernel⟩

theorem witness_resetAndFirmwareCommandsComplete_3 : ∃ (s : State) (q : Request),
    s.takes 0x0903 q ∧ s.tenantOn q ∧ q.len = 0 :=
  ⟨up, req 0 [], by decide +kernel⟩

theorem witness_resetAndFirmwareCommandsComplete_4 : ∃ (s : State) (q : Request) (target : Nat),
    s.takes 0x0902 q ∧ q.tenant = 0 ∧ q.u 0 1 = 2 ∧ q.u 1 1 = target ∧ (target = 1 ∨ target = 2) ∧ q.u 2 1 = 0 ∧ q.u 3 1 = 0 ∧
    q.u 4 4 = (s.stageBytes target).length ∧ 1 ≤ q.u 16 4 ∧ q.u 16 4 ≤ 4056 ∧ q.len = 24 + q.u 16 4 ∧ q.rsv 8 8 = true ∧
    q.rsv 20 4 = true ∧ (target = 1 → s.lpReady = true) :=
  ⟨up, req 0 ([2, 1] ++ zeros 14 ++ le 4 3 ++ zeros 4 ++ [7, 8, 9]), 1, by decide +kernel⟩

theorem witness_resetAndFirmwareCommandsComplete_5 : ∃ (s : State) (q : Request) (target : Nat),
    s.takes 0x0902 q ∧ q.tenant = 0 ∧ q.len = 24 ∧ q.u 0 1 = 1 ∧ q.u 1 1 = target ∧ (target = 1 ∨ target = 2) ∧ q.rsv 2 6 = true ∧
    q.u 8 8 % 64 = 0 ∧ q.u 16 4 ≠ 0 ∧ q.rsv 20 4 = true ∧ s.fwBusy = false ∧ (target = 1 → s.lpReady = true) ∧ s.jobsFull 0 = false :=
  ⟨up, req 0 ([1, 1] ++ zeros 14 ++ le 4 300 ++ zeros 4), 1, by decide +kernel⟩

theorem witness_resetAndFirmwareCommandsComplete_6 : ∃ (s : State) (q : Request) (target : Nat),
    s.takes 0x0902 q ∧ q.tenant = 0 ∧ q.len = 24 ∧ q.u 0 1 = 3 ∧ q.u 1 1 = target ∧ (target = 1 ∨ target = 2) ∧ q.rsv 2 22 = true ∧
    s.fwBusy = false ∧ s.store.flash = true ∧ (s.staged target).isSome = true ∧ s.jobsFull 0 = false :=
  ⟨{ up with boot := { up.boot with stagedCfg := some [1], cfgOk := true } }, req 0 ([3, 2] ++ zeros 22), 2, by decide +kernel⟩

theorem witness_resetAndFirmwareCommandsComplete_7 : ∃ (s : State) (q : Request),
    s.takes 0x0902 q ∧ q.tenant = 0 ∧ q.len = 24 ∧ q.u 0 1 = 4 ∧ q.u 1 1 = 1 ∧ q.u 2 1 = 1 ∧ q.rsv 3 21 = true ∧ s.fwBusy = false ∧
    s.liveOk = true ∧ s.jobsFull 0 = false :=
  ⟨{ up with boot := { up.boot with stagedImg := some [0xF1, 1, 1, 0], imgOk := true } }, req 0 ([4, 1, 1] ++ zeros 21), by decide +kernel⟩

theorem witness_resetRowsComplete_1 : ∃ (s : State),
    s.boot.asserted = false :=
  ⟨lit1, by decide +kernel⟩

theorem witness_resetRowsComplete_2 : ∃ (s : State),
    s.settled ∧ s.boot.asserted = true :=
  ⟨State.reset, by decide +kernel⟩

theorem witness_resetRowsComplete_3 : ∃ (s : State) (code mv lo hi : Nat),
    s.boot.asserted = false ∧ monitorRange code = some (lo, hi) ∧ s.monitored code = true ∧ (mv < lo ∨ hi < mv) :=
  ⟨lit1, 8, 900, 680, 850, by decide +kernel⟩

theorem witness_resetRowsComplete_4 : ∃ (s : State) (temp : Int),
    s.boot.asserted = false ∧ 1150 ≤ temp :=
  ⟨lit1, 1150, by decide +kernel⟩

theorem witness_resetRowsComplete_5 : ∃ (s : State) (hottest : Int) (ms : Nat),
    s.settled ∧ hottest ≤ 1050 ∧ 1000 ≤ ms :=
  ⟨{ State.reset with boot := { thermal := true } }, 1050, 1000, by decide +kernel⟩

theorem witness_resetRowsComplete_6 : ∃ (s : State) (ms : Nat),
    s.boot.asserted = false ∧ 0 < s.boot.wdtS ∧ s.boot.wdtS * 1000 ≤ ms :=
  ⟨{ up with boot := { up.boot with wdtS := 2 } }, 2000, by decide +kernel⟩

theorem witness_resetRowsComplete_7 : ∃ (s : State),
    s.boot.asserted = false ∧ s.guide.active.isSome = true ∧ s.trapResets = true :=
  ⟨{ up with guide := { up.guide with standby := false } }, by decide +kernel⟩

theorem witness_resetRowsComplete_8 : ∃ (s : State),
    s.boot.asserted = false ∧ s.boot.resetDue.isSome = true :=
  ⟨{ up with boot := { up.boot with resetDue := some 1 } }, by decide +kernel⟩

theorem witness_resetRowsComplete_9 : ∃ (s : State) (noSupply : Bool),
    s.store.writing = [] :=
  ⟨up, true, by decide +kernel⟩

theorem witness_resetRowsComplete_10 : ∃ (s : State) (src clk : Nat),
    s.settled ∧ s.boot.asserted = true ∧ s.boot.thermal = false :=
  ⟨State.reset, 4, 1, by decide +kernel⟩

theorem witness_bootAndGuideRowsComplete_1 : ∃ (s : State) (f : FuseRead),
    s.settled ∧ s.boot.asserted = false ∧ (s.boot.stage = 1 ∨ s.boot.stage = 2) ∧ s.boot.bootSrc ≠ 3 ∧ fuseFail f = none :=
  ⟨booting 1, goodFuse, by decide +kernel⟩

theorem witness_bootAndGuideRowsComplete_2 : ∃ (s : State) (f : FuseRead),
    s.settled ∧ s.boot.asserted = false ∧ s.boot.stage = 2 ∧ s.boot.loads = 2 ∧ (fuseFail f).isSome = true :=
  ⟨{ booting 2 with boot := { (booting 2).boot with loads := 2 } }, { goodFuse with second := [] }, by decide +kernel⟩

theorem witness_bootAndGuideRowsComplete_3 : ∃ (s : State) (f : FuseRead) (c : Nat),
    s.settled ∧ s.boot.asserted = false ∧ (s.boot.stage = 1 ∨ s.boot.stage = 2) ∧ s.boot.loads ≤ 1 ∧ fuseFail f = some c :=
  ⟨booting 1, { goodFuse with second := [] }, 1, by decide +kernel⟩

theorem witness_bootAndGuideRowsComplete_4 : ∃ (s : State),
    s.settled ∧ s.boot.asserted = false ∧ s.boot.stage = 4 ∧ s.boot.bootSrc = 0 :=
  ⟨booting 4, by decide +kernel⟩

theorem witness_bootAndGuideRowsComplete_5 : ∃ (s : State),
    s.settled ∧ s.boot.asserted = false ∧ s.boot.boardOk = true ∧ s.mem.ready = false ∧ s.boot.stage = 6 :=
  ⟨{ booting 6 with boot := { (booting 6).boot with boardOk := true } }, by decide +kernel⟩

theorem witness_bootAndGuideRowsComplete_6 : ∃ (s : State) (a b : List Byte),
    s.settled ∧ s.boot.asserted = false ∧ s.boot.stage = 7 ∧ a = tgetD s.store.slots s.store.preferred [] ∧
    b = tgetD s.store.slots (1 - s.store.preferred) [] :=
  ⟨booting 7, [], [], by decide +kernel⟩

theorem witness_bootAndGuideRowsComplete_7 : ∃ (s : State),
    s.settled ∧ s.boot.asserted = false ∧ (s.boot.stage = 9 ∨ s.boot.stage = 0xA) :=
  ⟨booting 9, by decide +kernel⟩

theorem witness_bootAndGuideRowsComplete_8 : ∃ (s : State) (p cause : Nat),
    s.settled ∧ s.guide.active = some p ∧ s.trapResets = false :=
  ⟨up, 0, 1, by decide +kernel⟩

theorem witness_bootAndGuideRowsComplete_9 : ∃ (s : State) (cause : Nat),
    s.guide.active.isSome = true ∧ s.trapResets = true ∧ s.boot.asserted = false :=
  ⟨{ up with guide := { up.guide with standby := false } }, 1, by decide +kernel⟩

theorem witness_bootAndGuideRowsComplete_10 : ∃ (s : State) (p t0 : Nat),
    s.settled ∧ s.guide.taking = some (p, t0) ∧ (s.com.received.all fun r => r.started && r.bad.isNone) = true :=
  ⟨{ up with guide := { up.guide with active := some 1, standby := false, taking := some (1, 5) } }, 1, 5, by decide +kernel⟩

theorem witness_bootAndGuideRowsComplete_11 : ∃ (s : State) (p cause : Nat),
    s.settled ∧ s.guide.active = some p ∧ s.guide.standby = true :=
  ⟨up, 0, 1, by decide +kernel⟩

theorem witness_bootAndGuideRowsComplete_12 : ∃ (s : State) (p t0 : Nat),
    s.settled ∧ s.guide.trapped = some (p, t0) :=
  ⟨{ up with guide := { up.guide with trapped := some (1, 5) } }, 1, 5, by decide +kernel⟩

theorem witness_bootAndGuideRowsComplete_13 : ∃ (s : State) (p t0 st : Nat),
    s.settled ∧ s.guide.trapped = some (p, t0) :=
  ⟨{ up with guide := { up.guide with trapped := some (1, 5) } }, 1, 5, 2, by decide +kernel⟩

theorem witness_bootAndGuideRowsComplete_14 : ∃ (s : State) (code : Nat),
    s.settled ∧ code < 256 :=
  ⟨up, 0, by decide +kernel⟩

theorem witness_portCommandsComplete_1 : ∃ (s : State) (q : Request) (lane : Nat),
    s.takes 0x0B01 q ∧ q.tenant = 0 ∧ q.len = 20 ∧ q.u 0 1 = lane ∧ lane ≤ 127 ∧ q.u 1 1 = 1 ∧ phyOk (q.u 2 1) (q.u 3 1) = true ∧
    1 ≤ q.u 4 1 ∧ q.u 4 1 ≤ 2 ∧ q.u 5 1 ≤ 7 ∧ q.u 6 1 < 2 ^ phyLanes (q.u 2 1) (q.u 3 1) ∧ q.u 7 1 < 2 ^ phyLanes (q.u 2 1) (q.u 3 1) ∧
    1 ≤ q.u 8 4 ∧ q.u 8 4 ≤ 2 ^ 24 ∧ q.u 12 4 < q.u 8 4 ∧ 8192 ≤ q.u 16 4 ∧ q.u 16 4 ≤ 2 ^ 24 ∧
    (∀ k, k < phyLanes (q.u 2 1) (q.u 3 1) → s.dark (0x0B00 + lane + k) = none) ∧ (s.island islHost).belay = false ∧
    s.portBad lane (q.u 2 1) (q.u 3 1) = false ∧ (s.port lane = none ∨ s.portUsed lane = false) :=
  ⟨up, req 0 ([8, 1, 1, 2, 1, 0, 0, 0] ++ le 4 1000 ++ le 4 100 ++ le 4 8192), 8, by decide +kernel⟩

theorem witness_portCommandsComplete_2 : ∃ (s : State) (q : Request) (lane : Nat) (x : HostPort),
    s.takes 0x0B01 q ∧ q.tenant = 0 ∧ q.len = 20 ∧ q.u 0 1 = lane ∧ lane ≤ 127 ∧ q.u 1 1 = 2 ∧ q.rsv 2 3 = true ∧ s.port lane = some x ∧
    q.u 5 1 ≤ 7 ∧ q.u 6 1 < 2 ^ x.count ∧ q.u 7 1 < 2 ^ x.count ∧
    (∀ k, k < x.count → lane + k < 128 → s.dark (0x0B00 + lane + k) = none) ∧ s.portUsed lane = false :=
  ⟨opens, req 0 ([0, 2] ++ zeros 18), 0, plainPort, by decide +kernel⟩

theorem witness_portCommandsComplete_3 : ∃ (s : State) (q : Request),
    s.takes 0x0B02 q ∧ q.tenant = 0 ∧ q.len = 8 + q.u 4 2 ∧ 1 ≤ q.u 4 2 ∧ q.u 4 2 ≤ 4072 ∧ q.u 6 1 = 0 ∧ q.rsv 7 1 = true ∧
    (q.u 0 4 = 0 ∨ q.u 0 4 = s.host.load.length) :=
  ⟨up, req 0 (zeros 4 ++ [2, 0, 0, 0, 0xB7, 1]), by decide +kernel⟩

theorem witness_portCommandsComplete_4 : ∃ (s : State) (q : Request) (b : List Byte),
    s.takes 0x0B02 q ∧ q.tenant = 0 ∧ q.len = 8 + q.u 4 2 ∧ 1 ≤ q.u 4 2 ∧ q.u 4 2 ≤ 4072 ∧ (q.u 6 1 = 1 ∨ q.u 6 1 = 3) ∧
    q.rsv 7 1 = true ∧ (q.u 0 4 = 0 ∨ q.u 0 4 = s.host.load.length) ∧ b = (if q.u 0 4 = 0 then [] else s.host.load) ++ q.payload.drop 8 ∧
    boardTableBad b = none ∧ fld b 2 1 = 1 :=
  ⟨opens, req 0 (zeros 4 ++ [32, 0, 3, 0] ++ tableBytes), tableBytes, by decide +kernel⟩

theorem witness_portCommandsComplete_5 : ∃ (s : State) (q : Request) (g m n lead sw : Nat) (phys cal : List Nat) (cs : List FlexClient),
    s.takes 0x0B03 q ∧ q.tenant = 0 ∧ q.u 0 1 = g ∧ q.u 1 1 = 1 ∧ q.u 2 1 = phys.length ∧ q.u 3 1 = m ∧ q.u 24 2 = n ∧
    q.len = 28 + 2 * n ∧ g ≤ 63 ∧ 1 ≤ phys.length ∧ phys.length ≤ 8 ∧ 1 ≤ m ∧ m ≤ 2 ∧ 1 ≤ q.u 4 4 ∧ q.u 4 4 ≤ 0xFFFFE ∧
    (List.range phys.length).map (fun i => q.u (8 + i) 1) = phys ∧
    ((List.range 8).all fun i => decide (i < phys.length) || q.u (8 + i) 1 == 0xFF) = true ∧ (phys.all fun l => decide (l ≤ 127)) = true ∧
    q.rsv 22 2 = true ∧ q.rsv 26 2 = true ∧ (List.range n).map (fun i => q.u (28 + 2 * i) 2) = cal ∧
    (cal.all fun c => c != 0xFFFF) = true ∧ s.dark 0x0B81 = none ∧ (phys.all fun l => (s.dark (0x0B00 + l)).isNone) = true ∧
    s.physOk g phys = true ∧ n = 20 * s.instances phys ∧ (calendarClients cal).length ≤ 64 ∧ s.flexGroup g = none ∧
    lead = s.earliest false ∧ sw = (if m = 2 then (if q.ch 16 = 0 then lead else q.ch 16) else 0) ∧
    (m = 2 → chLater sw s.chamber = true ∧ 80 ≤ chAhead sw s.chamber ∧ chLater lead sw = false) ∧ s.commitBad lead none = none ∧
    cs = s.newClients g { groupId := q.u 4 4, phys := phys } cal (if m = 2 then some (chAdd sw 84) else none) ∧
    (cs.all fun c => c.handle != 256) = true := by
  refine ⟨flexUp, req 0 (flexSet 1 1), 3, 1, 40, flexUp.earliest false, 0, [0], List.replicate 40 7, [FlexClient.mk 7 0 none], ?_⟩
  and_intros <;> decide +kernel

theorem witness_portCommandsComplete_6 : ∃ (s : State) (q : Request) (g m n lead sw : Nat) (cal : List Nat) (cs : List FlexClient) (x : FlexGroup),
    s.takes 0x0B03 q ∧ q.tenant = 0 ∧ q.u 0 1 = g ∧ q.u 1 1 = 2 ∧ q.rsv 2 1 = true ∧ q.u 3 1 = m ∧ q.u 24 2 = n ∧ q.len = 28 + 2 * n ∧
    g ≤ 63 ∧ 1 ≤ m ∧ m ≤ 2 ∧ q.rsv 22 2 = true ∧ q.rsv 26 2 = true ∧ (List.range n).map (fun i => q.u (28 + 2 * i) 2) = cal ∧
    (cal.all fun c => c != 0xFFFF) = true ∧ s.dark 0x0B81 = none ∧ s.flexGroup g = some x ∧ x.change = none ∧
    n = 20 * s.instances x.phys ∧ (calendarClients cal).length ≤ 64 ∧
    (x.clients.all fun c => !(s.clientUsed g c) || clientEntries x.active c.client == clientEntries cal c.client) = true ∧
    lead = s.earliest false ∧ sw = (if m = 2 then (if q.ch 16 = 0 then lead else q.ch 16) else 0) ∧
    (m = 2 → chLater sw s.chamber = true ∧ 80 ≤ chAhead sw s.chamber ∧ chLater lead sw = false) ∧ s.commitBad lead none = none ∧
    cs = s.newClients g x cal (if m = 2 then some (chAdd sw 84) else none) ∧ (cs.all fun c => c.handle != 256) = true :=
  ⟨{ flexUp with host := { flexUp.host with groups := [(3, flexG)] } }, req 0 (flexSet 2 2), 3, 2, 40, flexUp.earliest false, flexUp.earliest false, List.replicate 40 7, [FlexClient.mk 7 0 (some 5)], flexG, by decide +kernel⟩

theorem witness_portCommandsComplete_7 : ∃ (s : State) (q : Request) (g lead : Nat) (x : FlexGroup),
    s.takes 0x0B03 q ∧ q.tenant = 0 ∧ q.u 0 1 = g ∧ q.u 1 1 = 3 ∧ q.rsv 2 1 = true ∧ q.u 24 2 = 0 ∧ q.len = 28 ∧ g ≤ 63 ∧
    q.rsv 22 2 = true ∧ q.rsv 26 2 = true ∧ s.dark 0x0B81 = none ∧ s.flexGroup g = some x ∧
    (x.clients.all fun c => !(s.clientUsed g c)) = true ∧ x.change = none ∧ lead = s.earliest false ∧ s.commitBad lead none = none :=
  ⟨{ flexUp with host := { flexUp.host with groups := [(3, flexG)] } }, req 0 ([3, 3] ++ zeros 26), 3, flexUp.earliest false, flexG, by decide +kernel⟩

theorem witness_portRowsComplete_1 : ∃ (s : State) (lane : Nat) (pcs : List (Nat × Nat)) (p : HostPort),
    s.settled ∧ s.port lane = some p ∧ p.up = false ∧ p.aligned pcs = true :=
  ⟨flexDown, 0, [(1, 5), (0, 9)], flexPhy false, by decide +kernel⟩

theorem witness_portRowsComplete_2 : ∃ (s : State) (lane : Nat) (pcs : List (Nat × Nat)) (p : HostPort),
    s.settled ∧ s.port lane = some p ∧ p.up = false ∧ p.aligned pcs = false :=
  ⟨flexDown, 0, [(1, 5), (0, 2006)], flexPhy false, by decide +kernel⟩

theorem witness_portRowsComplete_3 : ∃ (s : State) (lane cause bad : Nat) (p : HostPort),
    s.settled ∧ s.port lane = some p ∧ p.up = true ∧ lane ≤ 127 :=
  ⟨flexUp, 0, 3, 0, flexPhy true, by decide +kernel⟩

theorem witness_portRowsComplete_4 : ∃ (s : State) (lane cause bad g : Nat) (p : HostPort) (x : FlexGroup),
    s.settled ∧ s.port lane = some p ∧ p.up = true ∧ lane ≤ 127 ∧ s.flexGroup g = some x ∧ x.up = true ∧
    (s.host.groups.find? fun e => e.2.phys.contains lane) = some (g, x) :=
  ⟨{ flexUp with host := { flexUp.host with groups := [(3, { flexG with up := true })] } }, 0, 3, 0, 3, flexPhy true, { flexG with up := true }, by decide +kernel⟩

theorem witness_portRowsComplete_5 : ∃ (s : State) (lane cause : Nat) (p : HostPort),
    s.settled ∧ s.port lane = some p ∧ p.up = false ∧ p.timedOut = false ∧ p.wasUp = false ∧ s.since p.ref secQ = true :=
  ⟨flexDown, 0, 3, flexPhy false, by decide +kernel⟩

theorem witness_portRowsComplete_6 : ∃ (s : State) (lane cause : Nat) (p : HostPort),
    s.settled ∧ s.port lane = some p ∧ p.up = false ∧ (p.timedOut = true ∨ p.wasUp = true) ∧ s.since p.ref secQ = true :=
  ⟨{ flexDown with host := { flexDown.host with ports := [(0, { flexPhy false with timedOut := true })] } }, 0, 3, { flexPhy false with timedOut := true }, by decide +kernel⟩

theorem witness_portRowsComplete_7 : ∃ (s : State) (lane uncorr words symbols : Nat) (hist : List Nat) (p : HostPort),
    s.settled ∧ s.port lane = some p ∧ p.up = true ∧ hist.length = 16 ∧ words = p.winCw + hSum hist + uncorr ∧
    symbols = p.winSym + hSum (((List.range 16).zip hist).map fun x => x.1 * x.2) :=
  ⟨flexUp, 0, 1, 131, 240, 100 :: List.replicate 15 2, flexPhy true, by decide +kernel⟩

theorem witness_portRowsComplete_8 : ∃ (s : State) (lane which b : Nat) (r : LaneRun),
    s.settled ∧ lane < 128 ∧ tget s.host.lanes lane = some r ∧ tget r.bound which = some b ∧ s.since b secQ = true ∧
    r.limits.contains which = false :=
  ⟨{ flexUp with mono := 2 * secQ, host := { flexUp.host with lanes := [(0, { bound := [(2, secQ)] })] } }, 0, 2, secQ, { bound := [(2, secQ)] }, by decide +kernel⟩

theorem witness_portRowsComplete_9 : ∃ (s : State) (lane which b : Nat) (r : LaneRun),
    s.settled ∧ tget s.host.lanes lane = some r ∧ tget r.bound which = some b ∧ (s.since b secQ = false ∨ r.limits.contains which = true) :=
  ⟨{ flexUp with host := { flexUp.host with lanes := [(0, { bound := [(2, flexUp.mono)] })] } }, 0, 2, flexUp.mono, { bound := [(2, flexUp.mono)] }, by decide +kernel⟩

theorem witness_portRowsComplete_10 : ∃ (s : State) (lane : Nat) (ctle ffe dfe : Int) (r : LaneRun) (e : LaneEq),
    s.settled ∧ tget s.host.lanes lane = some r ∧ e = s.laneEq lane (s.laneRate lane) ∧ r.live = true :=
  ⟨{ flexUp with host := { flexUp.host with lanes := [(0, { live := true, tx := { pre1 := 0, main := 58 } })] } }, 0, 3, 4, 5, { live := true, tx := { pre1 := 0, main := 58 } }, {}, by decide +kernel⟩

theorem witness_portRowsComplete_11 : ∃ (s : State) (lane : Nat) (ctle ffe dfe : Int) (r : LaneRun) (e : LaneEq),
    s.settled ∧ tget s.host.lanes lane = some r ∧ e = s.laneEq lane (s.laneRate lane) ∧ e.fixed = true ∧ r.live = false :=
  ⟨{ flexUp with host := { flexUp.host with table := [(2, { fixed := true })], lanes := [(0, {})] } }, 0, 3, 4, 5, {}, { fixed := true }, by decide +kernel⟩

theorem witness_portRowsComplete_12 : ∃ (s : State) (lane : Nat) (ctle ffe dfe : Int) (r : LaneRun) (e : LaneEq),
    s.settled ∧ tget s.host.lanes lane = some r ∧ e = s.laneEq lane (s.laneRate lane) ∧ e.fixed = false ∧ s.laneUp lane = true ∧
    e.ctleMin ≤ r.ctle ∧ r.ctle ≤ e.ctleMax ∧ r.ffe.natAbs ≤ e.ffeBound ∧ r.dfe.natAbs ≤ e.dfeMax :=
  ⟨flexUp, 0, 3, 4, 5, {}, {}, by decide +kernel⟩

theorem witness_portRowsComplete_13 : ∃ (s : State) (g : Nat) (x : FlexGroup) (c : FlexChange),
    s.settled ∧ s.flexGroup g = some x ∧ x.change = some c ∧ c.loaded = true ∧ (c.mode = 1 ∨ chReached s.chamber c.switchCh = true) :=
  ⟨{ flexUp with host := { flexUp.host with groups := [(3, { flexG with change := some { mode := 1, cal := List.replicate 40 7, loaded := true } })] } }, 3, { flexG with change := some { mode := 1, cal := List.replicate 40 7, loaded := true } }, { mode := 1, cal := List.replicate 40 7, loaded := true }, by decide +kernel⟩

theorem witness_portRowsComplete_14 : ∃ (s : State) (g : Nat) (x : FlexGroup) (c : FlexChange),
    s.settled ∧ s.flexGroup g = some x ∧ x.change = some c ∧ c.mode = 1 ∧ c.loaded = true ∧ s.since c.requestAt secQ = true :=
  ⟨{ flexUp with host := { flexUp.host with groups := [(3, { flexG with change := some { mode := 1, cal := List.replicate 40 7, loaded := true } })] } }, 3, { flexG with change := some { mode := 1, cal := List.replicate 40 7, loaded := true } }, { mode := 1, cal := List.replicate 40 7, loaded := true }, by decide +kernel⟩

theorem witness_portRowsComplete_15 : ∃ (s : State) (g : Nat) (x : FlexGroup),
    s.settled ∧ s.flexGroup g = some x :=
  ⟨{ flexUp with host := { flexUp.host with groups := [(3, flexG)] } }, 3, flexG, by decide +kernel⟩

theorem witness_portRowsComplete_16 : ∃ (s : State) (g cause crc losses : Nat) (x : FlexGroup),
    s.settled ∧ s.flexGroup g = some x ∧ x.up = true :=
  ⟨{ flexUp with host := { flexUp.host with groups := [(3, { flexG with up := true })] } }, 3, 2, 5, 1, { flexG with up := true }, by decide +kernel⟩

theorem witness_portRowsComplete_17 : ∃ (s : State) (g cause crc losses : Nat) (x : FlexGroup),
    s.settled ∧ s.flexGroup g = some x ∧ x.up = false :=
  ⟨{ flexUp with host := { flexUp.host with groups := [(3, flexG)] } }, 3, 2, 5, 1, flexG, by decide +kernel⟩

theorem witness_portRowsComplete_18 : ∃ (s : State) (g : Nat) (x : FlexGroup),
    s.settled ∧ s.flexGroup g = some x ∧ x.up = false ∧ (x.phys.all fun l => ((s.port l).map fun p => p.up).getD false) = true :=
  ⟨{ flexUp with host := { flexUp.host with groups := [(3, flexG)] } }, 3, flexG, by decide +kernel⟩

theorem witness_umranComplete_1 : ∃ (s : State) (q : Request) (n : Nat),
    s.takes 0x0A01 q ∧ q.tenant = 0 ∧ q.len = 12 ∧ q.u 0 1 = n ∧ n ≤ 3 ∧ q.u 1 1 = 1 ∧ q.u 2 1 ≤ 15 ∧ q.u 3 1 ≤ 15 ∧ q.u 4 1 = 0 ∧
    q.u 5 1 ≤ 1 ∧ q.rsv 8 4 = true ∧ s.dark (0x0E00 + n) = none ∧ (s.island islUlink).belay = false ∧ s.ulUsed n = false :=
  ⟨up, req 0 ([2, 1, 1, 2, 0, 1] ++ le 2 77 ++ zeros 4), 2, by decide +kernel⟩

theorem witness_umranComplete_2 : ∃ (s : State) (q : Request) (n : Nat),
    s.takes 0x0A01 q ∧ q.tenant = 0 ∧ q.len = 12 ∧ q.u 0 1 = n ∧ n ≤ 3 ∧ q.u 1 1 = 2 ∧ q.rsv 2 3 = true ∧ q.rsv 5 3 = true ∧
    q.rsv 8 4 = true ∧ s.dark (0x0E00 + n) = none ∧ (s.island islUlink).belay = false ∧ s.ulUsed n = false :=
  ⟨linked, req 0 ([0, 2] ++ zeros 10), 0, by decide +kernel⟩

theorem witness_umranComplete_3 : ∃ (s : State) (q : Request),
    s.takes 0x0A01 q ∧ q.tenant = 0 ∧ q.len = 12 ∧ q.u 0 1 = 0xFF ∧ q.u 1 1 = 3 ∧ q.u 4 1 ≤ 1 ∧ q.rsv 2 2 = true ∧ q.rsv 5 3 = true ∧
    q.rsv 8 4 = true ∧ s.dark 0x0EFE = none ∧ (s.island islUlink).belay = false ∧ s.ul.ports = [] :=
  ⟨up, req 0 ([0xFF, 3, 0, 0, 1] ++ zeros 7), by decide +kernel⟩

theorem witness_umranComplete_4 : ∃ (s : State) (q : Request),
    s.takes 0x0A02 q ∧ s.tenantOn q ∧ q.len = 0 ∧ s.dark 0x0EFE = none :=
  ⟨linked, req 0 [], by decide +kernel⟩

theorem witness_umranComplete_5 : ∃ (s : State) (p i skew : Nat) (blocks bs : List Block) (l : UlLane),
    s.settled ∧ s.ulConfigured p = true ∧ i ≤ 3 ∧ l = ((s.ulPort p).lanes[i]?).getD {} ∧ l.locked = false ∧
    bs = invertLane (s.ulPort p).rxInvert i blocks ∧ locksAt bs = true :=
  ⟨linked, 0, 1, 12, comma 2 0 :: List.replicate 63 (dataBlock 0), comma 2 0 :: List.replicate 63 (dataBlock 0), {}, by decide +kernel⟩

theorem witness_umranComplete_6 : ∃ (s : State) (p i skew : Nat) (blocks : List Block),
    s.settled ∧ s.ulConfigured p = true ∧ i ≤ 3 ∧ (((s.ulPort p).lanes[i]?).getD {}).locked = false ∧
    locksAt (invertLane (s.ulPort p).rxInvert i blocks) = false :=
  ⟨linked, 0, 1, 12, [comma 2 0], by decide +kernel⟩

theorem witness_umranComplete_7 : ∃ (s : State) (p i skew : Nat) (blocks : List Block),
    s.settled ∧ s.ulConfigured p = true ∧ i ≤ 3 ∧ (((s.ulPort p).lanes[i]?).getD {}).locked = true ∧
    eightIn64 (invalidAt (invertLane (s.ulPort p).rxInvert i blocks)) = true :=
  ⟨locked4, 0, 2, 0, List.replicate 8 { sync := 0, w := 0 }, by decide +kernel⟩

theorem witness_umranComplete_8 : ∃ (s : State) (p depart : Nat) (x : UlPort) (r : List Block × Nat × Tab (List Block)),
    s.settled ∧ s.ulConfigured p = true ∧ x = s.ulPort p ∧
    r = takeReady (s.ulAssigned p) (min (min 8000 (x.owed + (x.sentAt.map fun a => slotBlocksBy depart - slotBlocksBy a).getD 0)) 4074) x.txSlot x.stage :=
  ⟨locked4, 0, 123456, locked4.ulPort 0, ([], 0, []), by decide +kernel⟩

theorem witness_umranComplete_9 : ∃ (s : State) (p n : Nat) (f : UlFrame) (frame : List (Nat × Block)) (ws : List Nat),
    s.settled ∧ s.ulConfigured p = true ∧ frame = (s.ulPort p).portFrame f.lanes ∧ ((s.ulLanes p f.lanes).ulPort p).laneFault = none ∧
    ws = ((frame.drop 4).take 14).map (fun x => blockWord x.2) ∧ ocrc ws = hbits ws 3 0 16 ∧ n = (slotBlocksOf frame).length ∧
    (s.ulPort p).up = true :=
  by exact ⟨locked4, 0, _, ulGood, _, _, by decide +kernel, by decide +kernel, rfl, by decide +kernel, rfl, by decide +kernel, rfl, by decide +kernel⟩

theorem witness_umranComplete_10 : ∃ (s : State) (p : Nat) (f : UlFrame) (frame : List (Nat × Block)) (ws : List Nat),
    s.settled ∧ s.ulConfigured p = true ∧ frame = (s.ulPort p).portFrame f.lanes ∧ ((s.ulLanes p f.lanes).ulPort p).laneFault = none ∧
    ws = ((frame.drop 4).take 14).map (fun x => blockWord x.2) ∧ ocrc ws ≠ hbits ws 3 0 16 :=
  by exact ⟨locked4, 0, ulBad, _, _, by decide +kernel, by decide +kernel, rfl, by decide +kernel, rfl, by decide +kernel⟩

theorem witness_umranComplete_11 : ∃ (s : State) (p : Nat),
    s.settled ∧ s.ulConfigured p = true ∧ (s.ulPort p).up = false ∧ (s.ulPort p).timedOut = false ∧
    s.since (s.ulPort p).ref (100 * msQ) = true :=
  ⟨{ up with ul := { ports := [(0, {})] } }, 0, by decide +kernel⟩

theorem witness_umranComplete_12 : ∃ (s : State) (ppm : Int) (peak : Nat),
    s.settled :=
  ⟨linked, -3000, 5, by decide +kernel⟩

theorem witness_calibrationComplete_1 : ∃ (s : State) (q : Request) (n : Nat),
    s.takes 0x0E01 q ∧ q.len = 12 ∧ q.u 0 1 = n ∧ n ≤ 7 ∧ q.u 1 1 = 2 ∧ q.rsv 2 6 = true ∧ q.rsv 8 4 = true ∧
    s.dark (engIsland n) = none ∧ s.manages q.tenant n = true ∧ s.calDone n = true :=
  ⟨dark1, req 0 ([0, 2] ++ zeros 10), 0, by decide +kernel⟩

theorem witness_calibrationComplete_2 : ∃ (s : State) (q : Request) (n : Nat),
    s.takes 0x0E01 q ∧ q.len = 12 ∧ q.u 0 1 = n ∧ n ≤ 7 ∧ q.u 1 1 = 1 ∧ q.u 2 1 ≠ 0 ∧ q.u 3 1 ≤ 3 ∧ 5 ≤ q.u 4 2 ∧ q.u 4 2 ≤ 100 ∧
    1 ≤ q.u 6 2 ∧ q.u 6 2 ≤ 168 ∧ q.rsv 8 4 = true ∧ s.dark (engIsland n) = none ∧ s.manages q.tenant n = true ∧ s.calDone n = true ∧
    (s.eng n).cal.convs.length = 8 :=
  ⟨dark1, req 0 ([0, 1, 5, 3] ++ le 2 40 ++ le 2 12 ++ zeros 4), 0, by decide +kernel⟩

theorem witness_calibrationComplete_3 : ∃ (s : State) (q : Request) (n : Nat),
    s.takes 0x0E02 q ∧ q.len = 4 ∧ q.u 0 1 = n ∧ n ≤ 7 ∧ q.u 1 1 ≠ 0 ∧ q.rsv 2 2 = true ∧ s.dark (engIsland n) = none ∧
    s.manages q.tenant n = true ∧ s.calDone n = true ∧ (s.eng n).cal.convs.length = 8 ∧
    (List.range 8).all (fun c => !(bitAt (q.u 1 1) c) || (s.conv n c).rover.isSome || (s.conv n c).run.isSome) = true ∧
    s.runningJobs = [] ∧ s.jobsFull q.tenant = false :=
  ⟨calUp, req 0 [0, 3, 0, 0], 0, by decide +kernel⟩

theorem witness_calibrationComplete_4 : ∃ (s : State) (n ohms : Nat) (temp : Int) (bad : List (Nat × Nat)) (found : List BootTrims),
    s.settled ∧ n ≤ 7 ∧ s.boot.stage = 0xF ∧ s.calDone n = false ∧ s.runsHeld n = false ∧ (s.eng n).cal.convs.length = 8 ∧
    s.store.repair.convs = [] :=
  ⟨{ up with engs := [(0, { cal := { convs := List.replicate 8 {} } })] }, 0, 2000, 350, [(1, 5), (6, 2), (6, 3)], [], by decide +kernel⟩

theorem witness_calibrationComplete_5 : ∃ (s : State) (n c ohms r : Nat) (temp : Int),
    s.settled ∧ n ≤ 7 ∧ c ≤ 7 ∧ s.calDone n = true ∧ (s.eng n).cal.convs.length = 8 ∧ (s.conv n c).run = none ∧
    (s.conv n c).rover = some r ∧ s.runsHeld n = false ∧ bitAt (s.conv n c).flags 0 = true ∧
    (s.conv n c).delta < (temp - (s.conv n c).temp).natAbs ∧ (s.eng n).cal.passes ohms = true :=
  ⟨calUp, 0, 1, 2000, 64, 400, by decide +kernel⟩

theorem witness_calibrationComplete_6 : ∃ (s : State) (n c : Nat) (io : StepIo) (r : Run),
    s.settled ∧ (s.conv n c).run = some r ∧ r.stop = none ∧ s.since r.stepAt (stepQ c) = true ∧
    (r.checked = true ∨ (s.eng n).cal.passes io.ohms = true) ∧ stepTrimmed io c = true ∧ verifyOk io c r.step = true ∧
    r.step < positions c ∧ (s.conv n c).next < positions c ∧ (s.conv n c).hold.length = positions c :=
  ⟨calRun1, 0, 0, { ohms := 2000, verify := [(1, 1, false), (3, 2, false), (9, 9, false), (7, 7, false)] }, run1, by decide +kernel⟩

theorem witness_calibrationComplete_7 : ∃ (s : State) (n c : Nat) (io : StepIo) (r : Run),
    s.settled ∧ (s.conv n c).run = some r ∧ r.stop = none ∧ s.since r.stepAt (stepQ c) = true ∧
    (r.checked = true ∨ (s.eng n).cal.passes io.ohms = true) ∧ stepTrimmed io c = true ∧ verifyOk io c r.step = false ∧
    r.retried = false ∧ c ≤ 7 :=
  ⟨calRun1, 0, 0, { ohms := 2000, verify := [(5, 0, false)] }, run1, by decide +kernel⟩

theorem witness_calibrationComplete_8 : ∃ (s : State) (n c pos : Nat) (w : SliceWindow) (mtpOk : Bool),
    s.settled ∧ c ≤ 3 ∧ s.calDone n = true ∧ (s.conv n c).hold.findIdx? (· == w.slice) = some pos ∧
    (s.conv n c).degraded.contains pos = false ∧ s.dark (convUnit n c) = none ∧ w.clamped = false ∧ w.saturated ≤ 100 ∧
    windowFails w = false :=
  ⟨calUp, 0, 0, 5, SliceWindow.mk 5 false 0 300 0 300 false 0, true, by decide +kernel⟩

theorem witness_housekeepingComplete_1 : ∃ (s : State) (q : Request) (c : Nat),
    s.takes 0x0D01 q ∧ q.tenant = 0 ∧ q.u 0 1 = c ∧ c ≤ 1 ∧ q.u 1 1 = 1 ∧ q.len = 16 + 8 * q.u 2 1 ∧ 1 ≤ q.u 2 1 ∧
    q.u 2 1 ≤ (if c = 0 then 64 else 22) ∧ q.u 3 1 ≤ 1 ∧ 1 ≤ q.u 4 2 ∧ q.u 4 2 ≤ 4096 ∧ 16 ≤ q.u 6 2 ∧ q.u 6 2 ≤ 2048 ∧ q.rsv 8 6 = true ∧
    1 ≤ q.u 14 2 ∧ q.u 14 2 ≤ 4096 ∧ (List.range (q.u 2 1)).all (fun i => !(hkEntryBad q i) && !((hkEntryOf q i).filtered)) = true ∧
    s.dark (2 + c) = none ∧ (s.hkConv (1 - c)).latest.entries = [] :=
  ⟨up, req 0 ([1, 1, 1, 0] ++ le 2 16 ++ le 2 100 ++ zeros 6 ++ le 2 8 ++ [0x40, 0, 0, 0] ++ le 2 0xFFFF ++ le 2 0xFFFF), 1, by decide +kernel⟩

theorem witness_housekeepingComplete_2 : ∃ (s : State) (q : Request) (c : Nat),
    s.takes 0x0D01 q ∧ q.tenant = 0 ∧ q.u 0 1 = c ∧ c ≤ 1 ∧ q.u 1 1 = 2 ∧ q.len = 16 ∧ q.u 2 1 = 0 ∧ q.rsv 3 13 = true ∧
    s.dark (2 + c) = none :=
  ⟨up, req 0 ([1, 2] ++ zeros 14), 1, by decide +kernel⟩

theorem witness_housekeepingComplete_3 : ∃ (s : State) (q : Request) (c : Nat),
    s.takes 0x0D01 q ∧ q.tenant = 0 ∧ q.u 0 1 = c ∧ c ≤ 1 ∧ q.u 1 1 = 3 ∧ q.len = 16 ∧ q.u 2 1 = 0 ∧ q.rsv 3 13 = true ∧
    s.dark (2 + c) = none :=
  ⟨up, req 0 ([0, 3] ++ zeros 14), 0, by decide +kernel⟩

theorem witness_housekeepingComplete_4 : ∃ (s : State) (q : Request) (c : Nat),
    s.takes 0x0D01 q ∧ q.tenant = 0 ∧ q.u 0 1 = c ∧ c ≤ 1 ∧ q.u 1 1 = 4 ∧ q.len = 16 ∧ q.u 2 1 = 0 ∧ q.rsv 3 5 = true ∧
    q.rsv 14 2 = true ∧ zeroOr (q.u 8 2) 500 1100 = true ∧ zeroOr (q.u 10 2) 510 1100 = true ∧ zeroOr (q.u 12 2) 10 100 = true ∧
    s.dark (2 + c) = none ∧ (s.hkLimits q).warn < (s.hkLimits q).alarm :=
  ⟨up, req 0 ([1, 4] ++ zeros 6 ++ le 2 800 ++ zeros 6), 1, by decide +kernel⟩

theorem witness_housekeepingComplete_5 : ∃ (s : State) (q : Request) (k : Nat) (g : HkCfg),
    s.takes 0x0D03 q ∧ q.tenant = 0 ∧ q.len = 8 ∧ q.u 0 1 = k ∧ k ≤ 31 ∧ q.u 1 1 = 1 ∧
    g = { conv := q.u 2 1, entry := q.u 3 1, decim := q.u 4 1, shape := q.u 5 1 } ∧ g.conv ≤ 1 ∧ g.decim ≤ 10 ∧ 1 ≤ g.shape ∧
    g.shape ≤ 4 ∧ q.rsv 6 2 = true ∧ s.dark (2 + g.conv) = none ∧ g.entry < (s.hkConv g.conv).latest.entries.length ∧
    s.hkTaken g.conv g.entry k = false :=
  ⟨hkUp, req 0 [4, 1, 0, 0, 3, 2, 0, 0], 4, HkCfg.mk 0 0 3 2, by decide +kernel⟩

theorem witness_housekeepingComplete_6 : ∃ (s : State) (q : Request) (k : Nat),
    s.takes 0x0D03 q ∧ q.tenant = 0 ∧ q.len = 8 ∧ q.u 0 1 = k ∧ k ≤ 31 ∧ 2 ≤ q.u 1 1 ∧ q.u 1 1 ≤ 3 ∧ q.rsv 2 6 = true ∧ s.dark 2 = none :=
  ⟨hkUp, req 0 [4, 2, 0, 0, 0, 0, 0, 0], 4, by decide +kernel⟩

theorem witness_housekeepingComplete_7 : ∃ (s : State) (q : Request) (items : List (List Byte)),
    s.takes 0x0D02 q ∧ s.tenantOn q ∧ q.len = 4 ∧ 1 ≤ q.u 0 1 ∧ q.u 0 1 ≤ 3 ∧ (q.u 0 1 = 1 → q.u 1 1 ≤ 1) ∧ (q.u 0 1 ≠ 1 → q.u 1 1 = 0) ∧
    1 ≤ q.u 3 1 ∧ q.u 3 1 ≤ 64 ∧ (q.u 0 1 = 1 → s.dark (2 + q.u 1 1) = none) ∧ (q.u 0 1 = 3 → s.dark 3 = none) ∧
    items = s.hkItems (q.u 0 1) (q.u 1 1) ∧ q.u 2 1 < items.length :=
  ⟨hkUp, req 0 [3, 0, 40, 9], hkUp.hkItems 3 0, by decide +kernel⟩

theorem witness_housekeepingComplete_8 : ∃ (s : State) (adc0 adc1 : List Int),
    s.settled ∧ s.dark 2 = none ∧ s.dark 3 = none ∧ s.hk.conv0.seq.entries = [] ∧ s.hk.conv1.seq.entries = [] ∧ s.hk.conv0.pend = [] ∧
    s.hk.conv1.pend = [] ∧ s.hk.filters = [] ∧ s.hk.limPend = [] :=
  ⟨up, [], [5, -3, 5000], by decide +kernel⟩

theorem witness_housekeepingComplete_9 : ∃ (s : State) (k : Nat) (x : Int) (e : Nat × Nat),
    s.settled ∧ k ≤ 11 ∧ s.hk.msSum = [(k, e)] ∧ x = sensorTenths e ∧ s.sensorJudged k = true ∧ s.hk.warned.contains k = false ∧
    s.hk.alarmed.contains k = false ∧ s.hk.limits.warn ≤ x ∧ x < s.hk.limits.alarm ∧ s.since s.hk.sAt secQ = false :=
  ⟨{ up with hk := { msSum := [(11, 9600, 10)], sAt := up.mono } }, 11, 1018, (9600, 10), by decide +kernel⟩

theorem witness_housekeepingComplete_10 : ∃ (s : State) (k : Nat) (e : Nat × Nat),
    s.settled ∧ k ≤ 7 ∧ s.hk.msSum = [] ∧ s.hk.sSum = [(k, e)] ∧ s.since s.hk.sAt secQ = true :=
  ⟨{ up with mono := secQ, hk := { sSum := [(2, 9600, 10)] } }, 2, (9600, 10), by decide +kernel⟩

theorem witness_commitRowsComplete_1 : ∃ (s : State) (c : Commit) (rest : List Commit),
    s.settled ∧ s.tab.commits = c :: rest ∧ chReached s.chamber c.cc = true ∧ c.paired = none ∧ c.staged = true ∧ c.bad = false ∧
    c.changes = [] :=
  ⟨swapUp, swapC, [], by decide +kernel⟩

theorem witness_commitRowsComplete_2 : ∃ (s : State) (c : Commit) (rest : List Commit) (p : Paired),
    s.settled ∧ s.tab.commits = c :: rest ∧ chReached s.chamber c.cc = true ∧ c.paired = some p ∧ p.farArm = true ∧ c.staged = true ∧
    c.bad = false ∧ c.changes = [] ∧ p.engine ≤ 7 :=
  ⟨{ swapUp with tab := { commits := [{ swapC with paired := some (Paired.mk 0 9 1 true) }] } }, { swapC with paired := some (Paired.mk 0 9 1 true) }, [], Paired.mk 0 9 1 true, by decide +kernel⟩

theorem witness_commitRowsComplete_3 : ∃ (s : State) (c : Commit) (p : Paired),
    s.settled ∧ s.tab.commits.find? (fun c => c.paired.isSome && chReached s.chamber (chSub c.cc 2)) = some c ∧ c.paired = some p ∧
    p.farArm = true ∧ c.staged = true ∧ c.bad = false :=
  ⟨{ swapUp with tab := { commits := [{ swapC with paired := some (Paired.mk 0 9 1 true) }] } }, { swapC with paired := some (Paired.mk 0 9 1 true) }, Paired.mk 0 9 1 true, by decide +kernel⟩

theorem witness_commitRowsComplete_4 : ∃ (s : State) (c : Commit) (p : Paired),
    s.settled ∧ s.tab.commits.find? (fun c => c.paired.isSome && chReached s.chamber (chSub c.cc 2)) = some c ∧ c.paired = some p ∧
    p.farArm = false ∧ c.changes = [] ∧ (s.eng p.engine).rx.useCc = none :=
  ⟨{ swapUp with tab := { commits := [{ swapC with paired := some (Paired.mk 0 9 1 false) }] } }, { swapC with paired := some (Paired.mk 0 9 1 false) }, Paired.mk 0 9 1 false, by decide +kernel⟩

theorem witness_commitRowsComplete_5 : ∃ (s : State) (c : Commit),
    s.settled ∧
    s.tab.commits.find? (fun c => !c.staged && decide (3 ≤ chAhead c.cc s.chamber) && decide (chAhead c.cc s.chamber ≤ 48)) = some c :=
  ⟨{ up with tab := { commits := [{ cc := up.chamber + 40 }] } }, { cc := up.chamber + 40 }, by decide +kernel⟩

theorem witness_commitRowsComplete_6 : ∃ (s : State) (ch : Nat),
    s.settled ∧ ch = chAdd s.chamber 1 ∧ s.tab.issued ≠ some ch ∧ s.tab.banks = [] ∧ s.tab.commits = [] :=
  ⟨up, up.chamber + 1, by decide +kernel⟩

theorem witness_commitRowsComplete_7 : ∃ (s : State) (errs : List (Nat × Nat × Nat)),
    s.settled ∧ s.tab.issued ≠ some (chAdd s.chamber 1) :=
  ⟨hubUp, [], by decide +kernel⟩

theorem witness_commitRowsComplete_8 : ∃ (s : State) (cc : Nat),
    s.settled ∧ s.tab.copying = some cc ∧ s.com.received = [] :=
  ⟨{ up with tab := { copying := some 5 } }, 5, by decide +kernel⟩

theorem witness_commitRowsComplete_9 : ∃ (s : State) (id f : Nat) (p : Passage),
    s.settled ∧ tget s.pas id = some p ∧ p.st = 3 ∧ p.free = some f ∧ chReached s.chamber f = true ∧ s.com.revoking = [] :=
  ⟨{ up with pas := [(5, { pas5 with st := 3, stop := some 100 })] }, 5, chAdd 100 { pas5 with st := 3, stop := some 100 }.delay, { pas5 with st := 3, stop := some 100 }, by decide +kernel⟩

theorem witness_lineRowsComplete_1 : ∃ (s : State) (n : Nat),
    s.settled ∧ (s.eng n).tx.runs = true ∧ (s.eng n).cfg.mode = 1 ∧ (s.eng n).mp.role ≠ 2 ∧ (s.eng n).tx.prof ≠ [] ∧
    (s.eng n).tx.header = [] :=
  ⟨lit1, 0, by decide +kernel⟩

theorem witness_lineRowsComplete_2 : ∃ (s : State) (n ch : Nat) (f : LineFrame) (ws : List Nat) (bad : List (Nat × Nat)),
    s.settled ∧ (s.eng n).tx.runs = true ∧ (s.eng n).rx.lock = true ∧ (s.eng n).rx.los = false ∧ (s.eng n).mp.role ≠ 1 ∧
    (s.eng n).cfg.mode = 1 ∧ (s.eng n).rx.frame = true ∧ bad = (s.eng n).rx.lostRanges f.pos f.bits.len ∧
    frameHeader f.bits bad = some ws ∧ ch = hbits ws 0 0 48 ∧ s.markerBad n f bad = none :=
  ⟨framed, 0, 50, goodFrame, goodHeader, [], by decide +kernel⟩

theorem witness_lineRowsComplete_3 : ∃ (s : State) (n cause : Nat) (f : LineFrame),
    s.settled ∧ n ≤ 7 ∧ (s.eng n).tx.runs = true ∧ (s.eng n).rx.lock = true ∧ (s.eng n).rx.los = false ∧ (s.eng n).mp.role ≠ 1 ∧
    (s.eng n).rx.frame = true ∧ (s.eng n).rx.badRun = 1 ∧ s.markerBad n f ((s.eng n).rx.lostRanges f.pos f.bits.len) = some cause :=
  ⟨framed.modRx 0 fun r => { r with badRun := 1 }, 0, 1, {}, by decide +kernel⟩

theorem witness_lineRowsComplete_4 : ∃ (s : State) (n corrected iters : Nat),
    s.settled ∧ (s.eng n).tx.runs = true ∧ (s.eng n).rx.lock = true ∧ (s.eng n).mp.role ≠ 1 ∧ (s.eng n).cfg.mode = 1 ∧
    (s.eng n).rx.memBad = false ∧ (s.eng n).rx.fecSf = false :=
  ⟨framed, 0, 12, 3, by decide +kernel⟩

theorem witness_lineRowsComplete_5 : ∃ (s : State) (n corrected iters : Nat) (failed : Bool),
    s.settled ∧ n ≤ 7 ∧ (s.eng n).tx.runs = true ∧ (s.eng n).rx.lock = true ∧ (s.eng n).mp.role ≠ 1 ∧ (s.eng n).cfg.mode = 1 ∧
    (failed = true ∨ (s.eng n).rx.memBad = true) :=
  ⟨framed.modRx 0 fun r => { r with fecRun := 7, memBad := true }, 0, 0, 16, false, by decide +kernel⟩

theorem witness_lineRowsComplete_6 : ∃ (s : State) (n corrected iters : Nat),
    s.settled ∧ (s.eng n).tx.runs = true ∧ (s.eng n).rx.lock = true ∧ (s.eng n).mp.role ≠ 1 ∧ (s.eng n).cfg.mode = 2 ∧
    (s.eng n).rx.memBad = false ∧ (s.eng n).rx.fecSf = false :=
  ⟨framed.modEng 0 fun e => { e with cfg := { e.cfg with mode := 2 } }, 0, 12, 3, by decide +kernel⟩

theorem witness_lineRowsComplete_7 : ∃ (s : State) (n mv : Nat),
    s.settled ∧ n ≤ 7 ∧ (s.eng n).rx.los = false ∧ mv < (s.eng n).pwr.losSetMv ∧ s.dark (engUnit n 7) = none :=
  ⟨framed, 0, 20, by decide +kernel⟩

theorem witness_lineRowsComplete_8 : ∃ (s : State) (n mv : Nat),
    s.settled ∧ n ≤ 7 ∧ (s.eng n).rx.los = true ∧ (s.eng n).pwr.losClearMv < mv ∧ s.dark (engUnit n 7) = none :=
  ⟨lit1, 0, 200, by decide +kernel⟩

theorem witness_lineRowsComplete_9 : ∃ (s : State) (n a : Nat),
    s.settled ∧ (s.eng n).rx.frozenAt = some a ∧ s.since a secQ = true :=
  ⟨lit1.modRx 0 fun r => { r with frozenAt := some 5 }, 0, 5, by decide +kernel⟩

theorem witness_receiveRowsComplete_1 : ∃ (s : State) (n : Nat) (inputs : List (List Int)) (want : Int),
    s.settled ∧ (s.eng n).tx.runs = true ∧ (s.eng n).rx.los = false ∧ (s.eng n).rx.ovr = false ∧ (s.eng n).rx.duty ≤ 1023 :=
  ⟨framed, 0, [[100, 0, 0, 0], [90, 0, 0, 0]], 500, by decide +kernel⟩

theorem witness_receiveRowsComplete_2 : ∃ (s : State) (n : Nat),
    s.settled ∧ (s.eng n).tx.runs = true ∧ (s.eng n).rx.los = false ∧ (s.eng n).rx.lock = false ∧ (s.eng n).rx.acq = none :=
  ⟨acquiring none, 0, by decide +kernel⟩

theorem witness_receiveRowsComplete_3 : ∃ (s : State) (n skip : Nat) (probes : List PilotProbe) (cold : Bool) (d : Int),
    s.settled ∧ (s.eng n).rx.acq = some cold ∧ (s.eng n).rx.los = false ∧ (s.eng n).mp.role ≠ 1 ∧
    (cold = false ∨ d.natAbs ≤ (s.eng n).cfg.dspan) :=
  ⟨(acquiring (some true)).modEng 0 fun e => { e with cfg := { e.cfg with dspan := 80000 } }, 0, 0, [], true, -700, by decide +kernel⟩

theorem witness_receiveRowsComplete_4 : ∃ (s : State) (n skip : Nat) (probes : List PilotProbe) (d : Int),
    s.settled ∧ (s.eng n).rx.acq = some true ∧ (s.eng n).mp.role ≠ 1 ∧ (s.eng n).cfg.dspan < d.natAbs :=
  ⟨acquiring (some true), 0, 0, [], -700, by decide +kernel⟩

theorem witness_receiveRowsComplete_5 : ∃ (s : State) (n cause : Nat) (met : List Nat),
    s.settled ∧ cause = unmetStep ((met.filter fun k => k != 1) ++ (if (s.eng n).rx.inRange then [1] else [])) ∧
    (s.eng n).rx.acq = some true ∧ s.since (s.eng n).rx.tryAt (50 * msQ) = true :=
  ⟨acquiring (some true), 0, 1, [1, 2], by decide +kernel⟩

theorem witness_receiveRowsComplete_6 : ∃ (s : State) (n : Nat),
    s.settled ∧ (s.eng n).rx.acq = some false ∧ s.since (s.eng n).rx.tryAt msQ = true :=
  ⟨acquiring (some false), 0, by decide +kernel⟩

theorem witness_receiveRowsComplete_7 : ∃ (s : State) (n cause : Nat),
    s.settled ∧ n ≤ 7 ∧ (s.eng n).rx.lock = true :=
  ⟨framed, 0, 2, by decide +kernel⟩

theorem witness_receiveRowsComplete_8 : ∃ (s : State) (n c : Nat),
    s.settled ∧ (s.eng n).rx.winStart = some c ∧ chReached s.chamber (chAdd c 78125) = true :=
  ⟨framed.modRx 0 fun r => { r with winStart := some 5 }, 0, 5, by decide +kernel⟩

theorem witness_receiveRowsComplete_9 : ∃ (s : State) (n : Nat) (ch : Nat) (snrs : List Int),
    s.settled ∧ (s.eng n).rx.use = 3 ∧ (s.eng n).rx.useCc = none ∧ s.farInDomain n = true ∧ s.canSign (s.holder n) = true ∧
    (s.eng n).rx.window = some (ch, snrs) ∧ (s.eng n).cfg.chooseH snrs = (s.eng n).rx.prof :=
  ⟨firstUse, 0, 9, [0], by decide +kernel⟩

theorem witness_receiveRowsComplete_10 : ∃ (s : State) (n a : Nat) (d : Int),
    s.settled ∧ (s.eng n).rx.dEst = some d ∧ (s.eng n).rx.dsp.cdFar = some a ∧ s.since a (100 * msQ) = true ∧ (s.eng n).rx.lock = true ∧
    (s.eng n).rx.los = false ∧ (s.eng n).mp.role ≠ 1 ∧ (s.eng n).rx.outSpan = false ∧ s.tab.commits = [] ∧ s.rawCd n = false ∧
    d.natAbs ≤ (s.eng n).cfg.dspan ∧ (s.eng n).rx.cdActive ≤ 1 :=
  ⟨spanned.modRx 0 fun r => { r with dEst := some 900, dsp := { r.dsp with cdFar := some 0 } }, 0, 0, 900, by decide +kernel⟩

theorem witness_receiveRowsComplete_11 : ∃ (s : State) (n : Nat) (d : Int),
    s.settled ∧ (s.eng n).rx.dEst = some d ∧ (s.eng n).tx.runs = true ∧ (s.eng n).rx.los = false ∧ (s.eng n).rx.outSpan = false ∧
    (s.eng n).mp.role ≠ 1 ∧ (s.eng n).cfg.dspan < d.natAbs :=
  ⟨spanned.modRx 0 fun r => { r with dEst := some (-90000) }, 0, -90000, by decide +kernel⟩

theorem witness_receiveRowsComplete_12 : ∃ (s : State) (n a : Nat) (d : Int),
    s.settled ∧ (s.eng n).rx.outSpan = true ∧ (s.eng n).rx.dEst = some d ∧ (s.eng n).rx.dsp.cdNear = some a ∧ s.since a secQ = true :=
  ⟨spanned.modRx 0 fun r => { r with outSpan := true, dEst := some 5, dsp := { r.dsp with cdNear := some 0 } }, 0, 0, 5, by decide +kernel⟩

theorem witness_receiveRowsComplete_13 : ∃ (s : State) (n : Nat) (above : Nat → Bool),
    s.settled ∧ (s.eng n).tx.runs = true ∧ (s.eng n).rx.dsp.ovrMs.length = 4 ∧
    above = (fun x => decide (x * 1000 > (s.eng n).cfg.samplesPerMs)) :=
  by exact ⟨framed, 0, _, by decide +kernel, by decide +kernel, by decide +kernel, rfl⟩

theorem witness_receiveRowsComplete_14 : ∃ (s : State) (n lane : Nat),
    s.settled ∧ lane ≤ 3 ∧ (s.eng n).rx.clamps.length = 4 ∧ (s.eng n).rx.clamps[lane]? = some false :=
  ⟨framed, 0, 2, by decide +kernel⟩

theorem witness_receiveRowsComplete_15 : ∃ (s : State) (n lane : Nat),
    s.settled :=
  ⟨framed, 0, 2, by decide +kernel⟩

theorem witness_receiveRowsComplete_16 : ∃ (s : State) (n what lane ms : Nat) (value : Int),
    s.settled ∧ (s.eng n).tx.runs = true ∧ (s.eng n).rx.los = false ∧ 1 ≤ what ∧ what ≤ 3 ∧ lane ≤ 3 ∧ frontLimit what ≤ absI value ∧
    1000 ≤ ms ∧ (s.eng n).rx.limits.contains (what, lane) = false :=
  ⟨framed, 0, 2, 1, 1000, -345, by decide +kernel⟩

theorem witness_receiveRowsComplete_17 : ∃ (s : State) (n what lane ms : Nat) (value : Int),
    s.settled ∧ (s.eng n).tx.runs = true ∧ (s.eng n).rx.los = false ∧ 1 ≤ what ∧ what ≤ 3 ∧ lane ≤ 3 ∧ absI value < frontLimit what :=
  ⟨framed, 0, 1, 3, 5, -499, by decide +kernel⟩

theorem witness_transmitRowsComplete_1 : ∃ (s : State) (n : Nat),
    s.settled ∧ (s.eng n).tx.car = .laserOn ∧ s.since (s.eng n).tx.carAt ((s.eng n).cfg.settleMs * msQ) = true :=
  ⟨carrier .laserOn, 0, by decide +kernel⟩

theorem witness_transmitRowsComplete_2 : ∃ (s : State) (n : Nat),
    s.settled ∧ (s.eng n).tx.car = .driverOn ∧ s.since (s.eng n).tx.carAt msQ = true :=
  ⟨carrier .driverOn, 0, by decide +kernel⟩

theorem witness_transmitRowsComplete_3 : ∃ (s : State) (n : Nat),
    s.settled ∧ (s.eng n).tx.car = .rampUp ∧ (s.eng n).tx.ramp * msQ ≤ (s.eng n).tx.carDone + (s.mono - (s.eng n).tx.carAt) :=
  ⟨carrier .rampUp, 0, by decide +kernel⟩

theorem witness_transmitRowsComplete_4 : ∃ (s : State) (n : Nat),
    s.settled ∧ (s.eng n).tx.car = .rampDown ∧ (s.eng n).tx.ramp * msQ ≤ (s.eng n).tx.carDone + (s.mono - (s.eng n).tx.carAt) :=
  ⟨carrier .rampDown, 0, by decide +kernel⟩

theorem witness_transmitRowsComplete_5 : ∃ (s : State) (n : Nat),
    s.settled ∧ (s.eng n).tx.car = .laserHold ∧ s.since (s.eng n).tx.carAt msQ = true ∧ (s.eng n).tx.enabled = true :=
  ⟨carrier .laserHold, 0, by decide +kernel⟩

theorem witness_transmitRowsComplete_6 : ∃ (s : State) (n : Nat),
    s.settled ∧ (s.eng n).tx.car = .laserHold ∧ s.since (s.eng n).tx.carAt msQ = true ∧ (s.eng n).tx.enabled = false :=
  ⟨(carrier .laserHold).modTx 0 fun t => { t with enabled := false }, 0, by decide +kernel⟩

theorem witness_transmitRowsComplete_7 : ∃ (s : State) (n : Nat),
    s.settled ∧ (s.eng n).tx.enabled = true ∧ (s.eng n).tx.settling = true :=
  ⟨lit1.modTx 0 fun t => { t with settling := true }, 0, by decide +kernel⟩

theorem witness_transmitRowsComplete_8 : ∃ (s : State) (n : Nat),
    s.settled ∧ (s.eng n).tx.runs = true :=
  ⟨lit1.modTx 0 fun t => { t with clipMs := [900000, 0, 0, 3] }, 0, by decide +kernel⟩

theorem witness_transmitRowsComplete_9 : ∃ (s : State) (n m first : Nat) (j : Job) (c : Capture),
    s.settled ∧ s.captureOf n = some j ∧ j.work = .capture m c ∧ c.first = none ∧ c.full = true ∧
    first = (((c.got.head?).map Prod.fst).getD (c.stop.getD 0)).toNat :=
  ⟨{ up with jobs := { list := [capJob] } }, 0, 0, 7, capJob, capOne, by decide +kernel⟩

theorem witness_transmitRowsComplete_10 : ∃ (s : State) (n m : Nat) (j : Job) (c : Capture),
    s.settled ∧ s.captureOf n = some j ∧ j.work = .capture m c ∧ c.full = false :=
  ⟨{ up with jobs := { list := [{ capJob with work := .capture 0 { capOne with count := 2 } }] } }, 0, 0, { capJob with work := .capture 0 { capOne with count := 2 } }, { capOne with count := 2 }, by decide +kernel⟩

theorem witness_blockAndProtectRowsComplete_1 : ∃ (s : State) (a : SlotAt) (b : Block) (bad : Bool) (id : Nat) (p : Passage) (r : Route) (prot : Bool),
    s.settled ∧ a.kind = 3 ∧ s.route a false = some r ∧ r.serves = some id ∧ prot = (swLeg r.w == 1) ∧ tget s.pas id = some p ∧ p.st = 2 ∧
    s.faultOf p prot = none ∧ p.slipCh ≠ some s.chamber ∧ p.seenIn prot s.chamber < 100 * p.slots :=
  ⟨routed framed 5 pas6, { kind := 3, index := 0, sub := 1, slot := 3 }, Block.idle, false, 5, pas6, Route.mk (some 5) (routeWord (routed framed 5 pas6)), false, by decide +kernel⟩

theorem witness_blockAndProtectRowsComplete_2 : ∃ (s : State) (a : SlotAt) (b : Block) (x : Place) (id : Nat) (p : Passage) (r : Route) (o : HostPort),
    s.settled ∧ a.kind = 1 ∧ s.port a.index = some o ∧ o.up = true ∧ s.zrOf a = none ∧ b.isData = true ∧ x = s.rxPlace a ∧
    s.route (s.slotOfPlace a false x) false = some r ∧ r.serves = some id ∧ (swLeg r.w == 1) = false ∧ tget s.pas id = some p ∧ p.st = 2 ∧
    s.faultOf p false = none ∧ p.slipCh ≠ some s.chamber ∧ p.queue.length < p.capacity :=
  ⟨routed opens 5 { pas5 with st := 2 }, { kind := 1, index := 0, leaf := 0 }, { sync := 1, w := 7 }, (routed opens 5 { pas5 with st := 2 }).rxPlace { kind := 1, index := 0, leaf := 0 }, 5, { pas5 with st := 2 }, Route.mk (some 5) (routeIn (routed opens 5 { pas5 with st := 2 })), plainPort, by decide +kernel⟩

theorem witness_blockAndProtectRowsComplete_3 : ∃ (s : State) (a : SlotAt) (b : Block) (id : Nat) (p : Passage) (r : Route) (o : HostPort),
    s.settled ∧ a.kind = 1 ∧ s.port a.index = some o ∧ o.up = true ∧ s.zrOf a = none ∧ b.isData = true ∧
    s.route (s.slotOfPlace a false (s.rxPlace a)) false = some r ∧ r.serves = some id ∧ (swLeg r.w == 1) = false ∧
    tget s.pas id = some p ∧ p.st = 2 ∧ s.faultOf p false = none ∧ p.slipCh ≠ some s.chamber ∧ p.capacity ≤ p.queue.length :=
  ⟨routed opens 5 { pas5 with st := 2, slots := 1, plane := [0], queue := List.replicate 700 (QBlock.mk Block.idle 0 0 0 0 false false) }, { kind := 1, index := 0, leaf := 0 }, { sync := 1, w := 7 }, 5, { pas5 with st := 2, slots := 1, plane := [0], queue := List.replicate 700 (QBlock.mk Block.idle 0 0 0 0 false false) }, Route.mk (some 5) (routeAt (routed opens 5 { pas5 with st := 2, slots := 1, plane := [0] }) { kind := 1, index := 0, leaf := 0, slot := 0 } false), plainPort, by decide +kernel⟩

theorem witness_blockAndProtectRowsComplete_4 : ∃ (s : State) (a : SlotAt) (b : Block) (bad : Bool) (x : Place) (id : Nat) (p : Passage) (r : Route),
    s.settled ∧ a.kind = 1 ∧ s.ingressDown a = true ∧ s.zrOf a = none ∧ x = s.rxPlace a ∧
    s.route (s.slotOfPlace a false x) false = some r ∧ r.serves = some id ∧ (swLeg r.w == 1) = false ∧ tget s.pas id = some p ∧ p.st = 2 ∧
    s.faultOf p false = none ∧ p.slipCh ≠ some s.chamber ∧ p.queue.length < p.capacity ∧ (s.port a.index).isSome = true :=
  ⟨routed downPort 5 { pas5 with st := 2 }, { kind := 1, index := 0, leaf := 0 }, { sync := 1, w := 7 }, false, (routed downPort 5 { pas5 with st := 2 }).rxPlace { kind := 1, index := 0, leaf := 0 }, 5, { pas5 with st := 2 }, Route.mk (some 5) (routeIn (routed downPort 5 { pas5 with st := 2 })), by decide +kernel⟩

theorem witness_blockAndProtectRowsComplete_5 : ∃ (s u : State) (a : SlotAt) (pam : List (List Nat)) (sent : List (Option (List Nat))) (o : HostPort) (r : PcsRx × List (Block × Bool)),
    s.settled ∧ a.kind = 1 ∧ s.port a.index = some o ∧ o.up = true ∧ o.plain = true ∧ r = o.rxPcs.take o.rxCfg pam sent ∧
    u = { s with host := { s.host with ports := tmod s.host.ports a.index fun p => { p with rxPcs := r.1 } } } :=
  by exact ⟨opens, _, { kind := 1, index := 0 }, [], [], plainPort, _, by decide +kernel, rfl, by decide +kernel, rfl, rfl, rfl, rfl⟩

theorem witness_blockAndProtectRowsComplete_6 : ∃ (s : State) (a : SlotAt) (b : Block) (bad : Bool) (id : Nat) (p : Passage) (prot : Bool),
    s.settled ∧ a.kind = 3 ∧ s.route a false = none ∧ s.drainAt a false = some (id, prot) ∧ tget s.pas id = some p :=
  ⟨{ framed with pas := [(5, { pas6 with st := 3 })] }, { kind := 3, index := 0, sub := 1, slot := 3 }, Block.idle, false, 5, { pas6 with st := 3 }, false, by decide +kernel⟩

theorem witness_blockAndProtectRowsComplete_7 : ∃ (s : State) (a : SlotAt) (b : Block) (bad : Bool),
    s.settled ∧ a.kind = 3 ∧ s.route a false = none ∧ s.drainAt a false = none ∧ (bad = true ∨ b ≠ Block.idle) :=
  ⟨framed, { kind := 3, index := 0, sub := 1, slot := 3 }, { sync := 1, w := 7 }, false, by decide +kernel⟩

theorem witness_blockAndProtectRowsComplete_8 : ∃ (s : State) (a : SlotAt) (room : Bool) (id : Nat) (p : Passage) (r : Route) (q : QBlock),
    s.settled ∧ a.kind = 3 ∧ s.leafCarrier (slotEndpoint a) true = none ∧ s.route a true = some r ∧ r.serves = some id ∧
    tget s.pas id = some p ∧ p.st = 2 ∧ p.mode = 0 ∧ p.leg = none ∧ s.substitutes p = false ∧ p.ready.head? = some q ∧
    s.mayLeave p q = true ∧ p.endNext = false ∧ q.lf = false ∧ (swLeg r.w == 1) = false ∧ p.bridgeW = [] ∧
    (tgetD (s.eng a.index).tx.stage (stageKey a.sub 0xFFFF a.slot) []).length < 100 :=
  ⟨routed opens 5 qpas5, { kind := 3, index := 0, sub := 1, slot := 3 }, true, 5, qpas5, Route.mk (some 5) (routeOut (routed opens 5 qpas5)), QBlock.mk Block.idle 0 0 0 0 false false, by decide +kernel⟩

theorem witness_blockAndProtectRowsComplete_9 : ∃ (s : State) (a : SlotAt) (room : Bool) (id : Nat) (p : Passage) (r : Route),
    s.settled ∧ a.kind = 3 ∧ s.leafCarrier (slotEndpoint a) true = none ∧ s.route a true = some r ∧ r.serves = some id ∧
    tget s.pas id = some p ∧ p.st = 2 ∧ p.mode = 0 ∧ p.leg = none ∧ (s.faultOf p p.onProt).isSome = true ∧ p.ready = [] ∧
    chLater s.chamber (s.dueAfter p p.start) = true ∧ p.bridgeW = [] ∧ (swLeg r.w == 1) = false ∧
    (tgetD (s.eng a.index).tx.stage (stageKey a.sub 0xFFFF a.slot) []).length < 100 :=
  ⟨routed { framed with engs := [(0, {}), (1, framed.eng 0)] } 5 { pas6 with start := 0, eg := { kind := 3, index := 1, sub := 1, leaf := 0xFFFF, first := 0 } }, { kind := 3, index := 1, sub := 1, slot := 3 }, true, 5, { pas6 with start := 0, eg := { kind := 3, index := 1, sub := 1, leaf := 0xFFFF, first := 0 } }, Route.mk (some 5) (routeAt (routed { framed with engs := [(0, {}), (1, framed.eng 0)] } 5 { pas6 with start := 0, eg := { kind := 3, index := 1, sub := 1, leaf := 0xFFFF, first := 0 } }) { kind := 3, index := 1, sub := 1, slot := 3 } true), by decide +kernel⟩

theorem witness_blockAndProtectRowsComplete_10 : ∃ (s : State) (a : SlotAt) (room : Bool),
    s.settled ∧ a.kind = 3 ∧ s.leafCarrier (slotEndpoint a) true = none ∧ s.route a true = none ∧ s.drainAt a true = none ∧
    s.rawDrain a = none ∧ (tgetD (s.eng a.index).tx.stage (stageKey a.sub 0xFFFF a.slot) []).length < 100 :=
  ⟨lit1, { kind := 3, index := 0, sub := 1, slot := 3 }, true, by decide +kernel⟩

theorem witness_blockAndProtectRowsComplete_11 : ∃ (s : State) (a c : SlotAt) (room : Bool) (x : Place) (o : HostPort),
    s.settled ∧ a.kind = 1 ∧ s.port a.index = some o ∧ s.zrOf a = none ∧ s.txPlace a = some x ∧ c = s.slotOfPlace a true x ∧
    s.route c true = none ∧ s.drainAt c true = none ∧ s.rawDrain c = none :=
  ⟨opens, { kind := 1, index := 0 }, { kind := 1, index := 0 }, true, Place.mk opens.chamber 0, plainPort, by decide +kernel⟩

theorem witness_blockAndProtectRowsComplete_12 : ∃ (s : State) (a : SlotAt) (room : Bool),
    s.settled ∧ (a.kind = 1 ∨ a.kind = 2) ∧ s.zrOf a = none ∧ s.txPlace a = none :=
  ⟨{ opens with host := { opens.host with txAt := [(opens.slotCode { kind := 1, index := 0 } true, Place.mk opens.chamber (100 * opens.slotsAt { kind := 1, index := 0 } true))] } }, { kind := 1, index := 0 }, true, by decide +kernel⟩

theorem witness_blockAndProtectRowsComplete_13 : ∃ (s : State) (a : SlotAt) (x : Place),
    s.settled ∧ a.kind = 2 ∧ s.txPlace a = some x ∧ (s.egressNext (s.slotOfPlace a true x) false).2 ≠ Block.idle :=
  ⟨flexUp, { kind := 2, index := 3, sub := 7, leaf := 0 }, Place.mk flexUp.chamber 0, by decide +kernel⟩

theorem witness_blockAndProtectRowsComplete_14 : ∃ (s : State) (id cause : Nat) (p : Passage),
    s.settled ∧ tget s.pas id = some p ∧ p.st = 2 ∧ s.faultOf p p.onProt = some cause ∧ s.canSwitch p = true :=
  ⟨{ framed with engs := [(0, {}), (1, framed.eng 0)], pas := [(5, pas7)] }, 5, 1, pas7, by decide +kernel⟩

theorem witness_blockAndProtectRowsComplete_15 : ∃ (s : State) (id lead : Nat) (p : Passage),
    s.settled ∧ tget s.pas id = some p ∧ s.revertDue p = true ∧ (s.tab.commits.any fun c => c.changes.contains (.revert id)) = false ∧
    lead = s.earliest false :=
  ⟨{ framed with pas := [(5, { pas7 with onProt := true, cleanAt := some 7 })] }, 5, framed.earliest false, { pas7 with onProt := true, cleanAt := some 7 }, by decide +kernel⟩

theorem witness_blockAndProtectRowsComplete_16 : ∃ (s : State) (id : Nat) (c : Commit) (rest : List Commit) (p : Passage),
    s.settled ∧ s.tab.commits = c :: rest ∧ chReached s.chamber c.cc = true ∧ c.paired = none ∧ c.staged = true ∧ c.bad = false ∧
    c.changes = [.revert id] ∧ tget s.pas id = some p ∧ s.revertDue p = true :=
  ⟨{ framed with pas := [(5, { pas7 with onProt := true, cleanAt := some 7 })], tab := { commits := [{ swapC with changes := [.revert 5] }] } }, 5, { swapC with changes := [.revert 5] }, [], { pas7 with onProt := true, cleanAt := some 7 }, by decide +kernel⟩

theorem witness_blockAndProtectRowsComplete_17 : ∃ (s : State) (id : Nat) (x : Int) (p : Passage),
    s.settled ∧ tget s.pas id = some p ∧ p.unusable = true ∧ p.skewNs = some x ∧ x.natAbs ≤ p.skewBudget ∧
    s.since p.inBudget (10 * secQ) = true :=
  ⟨{ framed with pas := [(5, { pas7 with unusable := true, skewNs := some 100 })] }, 5, 100, { pas7 with unusable := true, skewNs := some 100 }, by decide +kernel⟩

theorem witness_cipherRowsComplete_1 : ∃ (s : State) (id c : Nat) (p : Passage) (g : Segment),
    s.settled ∧ tget s.pas id = some p ∧ p.mode ≠ 0 ∧ p.st ≠ 1 ∧ p.slots ≠ 0 ∧ s.dark unitKeyStore = none ∧ p.decrypts = false ∧
    c = s.chamber ∧ (s.cipPas id).sentCh ≠ some c ∧ s.segmentDue id = true ∧
    (s.segmentLanes id).all (fun l => (s.lane l).badCh != some c && (s.lane l).pair.isSome && (s.lane l).start.isNone) = true ∧
    g = s.segmentOf id p c (s.segmentIn id p).1 :=
  ⟨sealing, 5, sealing.chamber, sealPas, sealing.segmentOf 5 sealPas sealing.chamber (sealing.segmentIn 5 sealPas).1, by decide +kernel⟩

theorem witness_cipherRowsComplete_2 : ∃ (s : State) (k step : Nat),
    s.settled ∧ (s.pair k).st = 2 :=
  ⟨retired, 4, 2, by decide +kernel⟩

theorem witness_cipherRowsComplete_3 : ∃ (s : State) (k : Nat),
    s.settled ∧ (s.pair k).st = 2 ∧ s.cip.waiting = [] :=
  ⟨retired, 4, by decide +kernel⟩

theorem witness_cipherRowsComplete_4 : ∃ (s : State) (k l : Nat) (rest : List Nat),
    s.settled ∧ (s.pair k).st = 2 ∧ s.cip.waiting = l :: rest :=
  ⟨{ retired with cip := { retired.cip with waiting := [9] } }, 4, 9, [], by decide +kernel⟩

theorem witness_cipherRowsComplete_5 : ∃ (s : State) (id c : Nat) (p : Passage) (g : Segment),
    s.settled ∧ tget s.pas id = some p ∧ p.decrypts = true ∧ (s.cipPas id).segs.find? (fun g => g.ch == c) = some g ∧
    s.tagOf p c = some (.entry g.tag) ∧ g.bad = false :=
  ⟨tagged, 5, 77, tagPas, seg77, by decide +kernel⟩

theorem witness_cipherRowsComplete_6 : ∃ (s : State) (id c : Nat) (p : Passage) (g : Segment),
    s.settled ∧ tget s.pas id = some p ∧ p.decrypts = true ∧ (s.cipPas id).segs.find? (fun g => g.ch == c) = some g ∧
    s.tagOf p c = some .noEntry :=
  ⟨{ tagged with cip := { tagged.cip with pas := [(5, { segs := [{ seg77 with ch := 70 }] })] } }, 5, 70, tagPas, { seg77 with ch := 70 }, by decide +kernel⟩

theorem witness_cipherRowsComplete_7 : ∃ (s : State) (id : Nat) (o : OldKey),
    s.settled ∧ (s.cipPas id).olds = [o] ∧ o.decrypts = false ∧ chReached s.chamber (chAdd o.cc 1) = true :=
  ⟨{ tagged with cip := { tagged.cip with pas := [(5, { olds := [OldKey.mk 7 3 100 false false] })] } }, 5, OldKey.mk 7 3 100 false false, by decide +kernel⟩

theorem witness_cipherRowsComplete_8 : ∃ (s : State) (id : Nat) (o : OldKey),
    s.settled ∧ (s.cipPas id).olds = [o] ∧ o.decrypts = true ∧ (o.checked = true ∨ chReached s.chamber (chAdd o.cc 4096) = true) :=
  ⟨{ tagged with cip := { tagged.cip with pas := [(5, { olds := [OldKey.mk 7 3 100 true true] })] } }, 5, OldKey.mk 7 3 100 true true, by decide +kernel⟩

theorem witness_cipherRowsComplete_9 : ∃ (s : State) (id : Nat) (p : Passage),
    s.settled ∧ tget s.pas id = some p ∧ p.mode ≠ 0 ∧ p.st ≠ 1 ∧ (s.cipPas id).aged = false ∧
    2 ^ 46 ≤ chAhead s.chamber ((s.cipPas id).since.getD p.start) :=
  ⟨{ tagged with cip := { tagged.cip with pas := [(5, { since := some (2 ^ 47) })] } }, 5, tagPas, by decide +kernel⟩

theorem witness_burstRowsComplete_1 : ∃ (s : State) (n sub time decisions ch w leaf : Nat) (power : Int),
    s.settled ∧ (s.eng n).mp.role = 1 ∧ (s.eng n).tx.runs = true ∧ s.syncPlace n time = (ch, w) ∧
    syncErrors decisions ≤ ((s.eng n).mp.limits (s.windowStart ch w)).1 ∧ s.windowLeaf n sub w ch = some leaf ∧
    tget (s.eng n).mp.recv sub = none :=
  ⟨hubUp, 0, 0, 64321000, syncWord, 50, 2, 3, -30, by decide +kernel⟩

theorem witness_burstRowsComplete_2 : ∃ (s : State) (n sub time decisions ch w : Nat) (power : Int),
    s.settled ∧ (s.eng n).mp.role = 1 ∧ (s.eng n).tx.runs = true ∧ s.syncPlace n time = (ch, w) ∧
    syncErrors decisions ≤ ((s.eng n).mp.limits (s.windowStart ch w)).1 ∧ s.examined n sub ch = true ∧ s.windowLeaf n sub w ch = none :=
  ⟨hubUp, 0, 0, 64801000, syncWord, 50, 5, -30, by decide +kernel⟩

theorem witness_burstRowsComplete_3 : ∃ (s : State) (n sub time decisions ch w : Nat) (power : Int),
    s.settled ∧ s.syncPlace n time = (ch, w) ∧
    (s.examined n sub ch = false ∨ ((s.eng n).mp.limits (s.windowStart ch w)).1 < syncErrors decisions) :=
  ⟨hubUp, 0, 1, 64801000, syncWord, 50, 5, -30, by decide +kernel⟩

theorem witness_burstRowsComplete_4 : ∃ (s : State) (n sub header : Nat) (r : Recept),
    s.settled ∧ tget (s.eng n).mp.recv sub = some r ∧ r.confirmed = false ∧ r.cand = none ∧ r.captured = none ∧
    burstCrc header = header % 65536 :=
  ⟨hubUp.setRecv 0 0 (some (Recept.mk 2 50 (-30) false 0xFF 0 none none)), 0, 0, burstHeaderOf 3 2 50 0 64 false false, Recept.mk 2 50 (-30) false 0xFF 0 none none, by decide +kernel⟩

theorem witness_burstRowsComplete_5 : ∃ (s : State) (n sub header : Nat) (r : Recept),
    s.settled ∧ tget (s.eng n).mp.recv sub = some r ∧ r.confirmed = false ∧ r.cand = none ∧ r.captured = none ∧
    burstCrc header ≠ header % 65536 :=
  ⟨hubUp.setRecv 0 0 (some (Recept.mk 2 50 (-30) false 0xFF 0 none none)), 0, 0, 1, Recept.mk 2 50 (-30) false 0xFF 0 none none, by decide +kernel⟩

theorem witness_burstRowsComplete_6 : ∃ (s : State) (n sub leaf : Nat) (b : Burst) (r : Recept),
    s.settled ∧ tget (s.eng n).mp.recv sub = some r ∧ r.confirmed = true ∧ s.windowLeaf n sub r.window r.chamber = some leaf ∧
    bitsAt r.header 41 7 = leaf ∧ bitsAt r.header 38 3 = r.window ∧ bitsAt r.header 30 4 = sub ∧ bitsAt r.header 34 4 = r.chamber % 16 ∧
    bitAt r.header 21 = false ∧ (s.leafProf n leaf).st = 2 ∧ (s.leafProf n leaf).hMin ≤ bitsAt r.header 23 7 :=
  ⟨hubUp.setRecv 0 0 (some (Recept.mk 2 50 (-30) true 3 (burstHeaderOf 3 2 50 0 64 false false) none none)), 0, 0, 3, { snr := 150 }, Recept.mk 2 50 (-30) true 3 (burstHeaderOf 3 2 50 0 64 false false) none none, by decide +kernel⟩

theorem witness_burstRowsComplete_7 : ∃ (s : State) (n sub w ch leaf : Nat),
    s.settled ∧ s.windowLeaf n sub w ch = some leaf ∧ (s.eng n).mp.role = 1 ∧ (s.leafProf n leaf).st = 1 ∧
    (s.leafProf n leaf).seenCh ≠ ch ∧ chReached s.chamber ch = true ∧ chLater (s.leafProf n leaf).seenCh ch = false :=
  ⟨hubUp.modMp 0 fun m => { m with profs := [(3, { st := 1 })] }, 0, 0, 2, 50, 3, by decide +kernel⟩

theorem witness_burstRowsComplete_8 : ∃ (s : State) (n sub w ch k : Nat) (start : Int) (e : Engine) (run : Nat × Nat),
    s.settled ∧ e = s.eng n ∧ e.mp.role = 2 ∧ e.tx.runs = true ∧ e.mp.leafSt = 2 ∧ (s.leafWindows n sub ch).contains w = true ∧
    e.rx.frame = true ∧ e.rx.farEpoch = some s.epoch ∧ e.tx.permit = true ∧
    start = s.chamberStart ch * 250 + ((160000 * w : Nat) : Int) - e.mp.advance ∧ k = ((s.sentProfile n ch)[sub]?).getD 32 ∧
    run = e.cfg.windowRun (s.ownAt n ch) sub w :=
  ⟨leafUp, 0, 0, 2, 50, 64, leafUp.chamberStart 50 * 250 + 320000, leafUp.eng 0, (leafUp.eng 0).cfg.windowRun (leafUp.ownAt 0 50) 0 2, by decide +kernel⟩

theorem witness_burstRowsComplete_9 : ∃ (s : State) (n sub w ch k : Nat) (e : Engine),
    s.settled ∧ e = s.eng n ∧ e.mp.role = 2 ∧ e.tx.runs = true ∧ e.mp.leafSt = 1 ∧ (s.leafWindows n sub ch).head? = some w ∧
    e.rx.frame = true ∧ e.rx.farEpoch = some s.epoch ∧ e.tx.permit = true ∧ k = ((s.sentProfile n ch)[sub]?).getD 32 :=
  ⟨leafUp.modMp 0 fun m => { m with leafSt := 1 }, 0, 0, 2, 50, 64, (leafUp.modMp 0 fun m => { m with leafSt := 1 }).eng 0, by decide +kernel⟩

theorem witness_stepRunsTheFrontCommand : ∃ (s : State),
    s.pending = [] :=
  ⟨State.reset, by decide +kernel⟩

theorem witness_variantTakesAnEmptyRequest_1 : ∃ (s : State) (q : Request),
    s.serving = true ∧ q.len ≠ 0 :=
  ⟨up, req 3 [1], by decide +kernel⟩

theorem witness_variantTakesAnEmptyRequest_2 : ∃ (s : State) (q : Request) (n : Nat),
    s.serving = true ∧ s.boot.recovery = false ∧ q.via = .ring n ∧ q.tenant = n ∧ s.tenantOn q ∧ q.len = 0 :=
  ⟨up, req 0 [], 0, by decide +kernel⟩

theorem witness_chambersFollowDomainTime_1 : ∃ (epoch t n : Nat),
    n < 2 ^ 48 ∧ epoch * 4000000000 + n * (4 * 1280) ≤ t ∧ t < epoch * 4000000000 + (n + 1) * (4 * 1280) :=
  ⟨2, 8000010000, 1, by decide +kernel⟩

theorem witness_chambersFollowDomainTime_2 : ∃ (epoch t : Nat),
    epoch * 4000000000 ≤ t ∧ t < epoch * 4000000000 + 2 ^ 48 * (4 * 1280) :=
  ⟨2, 8000010000, by decide +kernel⟩

theorem witness_heldWhileNoPairServes_1 : ∃ (s : State) (q : Request) (op : Nat) (c : Instr),
    s.settled ∧ s.serving = false ∧ (op, c) ∈ familyCommands q ∧ s.com.received.any (fun x => x.op == op && x.req == q) = false :=
  ⟨State.reset, req 0 [], 0x0101, .getInfo (req 0 []), by decide +kernel⟩

theorem witness_heldWhileNoPairServes_2 : ∃ (s : State) (q : Request) (op : Nat) (c : Instr),
    s.settled ∧ s.serving = false ∧ (op, c) ∈ familyCommands q ∧ s.com.received.any (fun x => x.op == op && x.req == q) = true :=
  ⟨{ State.reset with com := { received := [{ op := 0x0101, req := req 0 [] }] } }, req 0 [], 0x0101, .getInfo (req 0 []), by decide +kernel⟩

theorem witness_wrongLengthsGetShortResponses : ∃ (s : State) (q : Request) (op n : Nat) (c : Instr),
    s.serving = true ∧ s.behindCopy op q = false ∧ (op, c, n) ∈ fixedLengths q ∧ q.len ≠ n :=
  ⟨up, req 2 [1], 0x0101, 0, .getInfo (req 2 [1]), by decide +kernel⟩

theorem witness_onlyT0MayChangeTheDevice : ∃ (s : State) (q : Request) (ok : Bool) (op : Nat) (c : Instr),
    s.takes op q ∧ q.tenant ≠ 0 ∧ s.tab.copying = none ∧ (op, c) ∈ t0Commands q ok :=
  ⟨up, req 3 (zeros 20), true, 0x0801, .powerStateSet (req 3 (zeros 20)), by decide +kernel⟩

theorem witness_readsChangeNothing_1 : ∃ (s t : State) (q : Request) (c : Instr),
    c ∈ readCommands q ∧ exec c s = .next t :=
  by exact ⟨State.reset, _, req 0 [], .getInfo (req 0 []), by decide +kernel, rfl⟩

theorem witness_readsChangeNothing_2 : ∃ (s t : State) (q : Request) (c : Instr) (n : Nat),
    c ∈ readCommands q ∧ s.settled ∧ q.via = .ring n ∧ exec c s = .next t :=
  by exact ⟨State.reset, _, req 0 [], .getInfo (req 0 []), 0, by decide +kernel, by decide +kernel, rfl, rfl⟩

theorem witness_commandsStoreNoByte : ∃ (s t : State) (q : Request) (ok : Bool) (c : Instr),
    c ∈ otherCommands q ok ∧ exec c s = .next t :=
  by exact ⟨State.reset, _, req 0 [], true, .getInfo (req 0 []), by decide +kernel, rfl⟩

theorem witness_maskedOccurrencesAreOnlyCounted_1 : ∃ (s : State) (time island source : Nat) (e : Ev) (payload : List Byte),
    e ≠ .logOverflow ∧ e.severity < bitsAt s.log.floor (2 * e.cls) 2 :=
  ⟨{ up with log := { floor := 2 ^ 32 - 1 } }, 0, 0, 0, .jobComplete, [], by decide +kernel⟩

theorem witness_maskedOccurrencesAreOnlyCounted_2 : ∃ (s : State) (j : Job) (code : Nat) (out : List Byte),
    s.settled ∧ s.job j.token = some j ∧ j.ended = none ∧ j.finish = some (code, out) ∧ j.cancel = false ∧ s.jobs.waits = [] ∧
    (Ev.jobComplete).severity < bitsAt s.log.floor (2 * (Ev.jobComplete).cls) 2 :=
  ⟨{ up with log := { floor := 2 ^ 32 - 1 }, jobs := { list := [{ sweepJob with finish := some (0, []) }] } }, { sweepJob with finish := some (0, []) }, 0, [], by decide +kernel⟩

theorem witness_maskedOccurrencesAreOnlyCounted_3 : ∃ (s : State) (time island source : Nat) (payload : List Byte),
    s.log.unread + (recordsOf time island .logOverflow source payload).length ≤ 65536 :=
  ⟨{ up with log := { floor := 2 ^ 32 - 1 } }, 0, 0, 0, [], by decide +kernel⟩

theorem witness_theLogWindowHolds_1 : ∃ (s : State) (time island source : Nat) (e : Ev) (payload : List Byte),
    s.log.evtWr < 2 ^ 32 ∧ s.log.evtRd < 2 ^ 32 ∧ s.log.unread ≤ 65536 :=
  ⟨up, 0, 0, 0, .jobComplete, [], by decide +kernel⟩

theorem witness_theLogWindowHolds_2 : ∃ (s t : State) (e : Ev) (island source : Nat) (payload : List Byte),
    s.log.evtWr < 2 ^ 32 ∧ s.log.evtRd < 2 ^ 32 ∧ s.log.unread ≤ 65536 ∧ exec (.eventRecordWrite e island source payload) s = .next t :=
  by exact ⟨State.reset, _, .jobComplete, 0, 0, [], by decide +kernel, by decide +kernel, by decide +kernel, rfl⟩

theorem witness_theLogWindowHolds_3 : ∃ (s t : State) (v : Reg),
    s.log.evtWr < 2 ^ 32 ∧ s.log.evtRd < 2 ^ 32 ∧ s.log.unread ≤ 65536 ∧ exec (.evtRdWrite v) s = .next t :=
  by exact ⟨State.reset, _, 5, by decide +kernel, by decide +kernel, by decide +kernel, rfl⟩

theorem witness_commandsRunInOrder : ∃ (s t : State),
    step s = .next t :=
  by exact ⟨State.reset, _, rfl⟩

theorem witness_memoryStaysCanonical : ∃ (s t : State),
    s.memOk ∧ step s = .next t :=
  by exact ⟨State.reset, _, by decide +kernel, rfl⟩

theorem witness_jobLimitsHold : ∃ (s t : State),
    s.runningJobs.length ≤ 32 ∧ (∀ n, (s.runningJobs.filter fun j => j.tenant == n).length ≤ 8) ∧ step s = .next t :=
  by exact ⟨State.reset, _, by decide +kernel, fun n => by simp [State.reset, State.runningJobs], rfl⟩

end Sys2Proof.Tests
end

section
/-!
SUPPORT. The commands that only read: a command that is taken and passes its checks answers from the state as it stands.
-/
namespace Sys2Proof.Proofs
open Sys2Proof Sys2Proof.Machine Sys2Proof.Laws

/-- An enabled tenant passes the rights step of a command that any enabled tenant may send (R460). -/
theorem judge_anyTenant {s : State} {q : Request} (h : s.tenantOn q) (cs : List Check) :
    s.judge (s.anyTenant q :: cs) = s.judge cs := by
  simp [State.anyTenant, State.disabled, h]

/-- A command that is taken, passes its checks and answers at once ends with that answer, given in the state in which it ran. -/
theorem serve_done_of_run {s u : State} {op : Nat} {q : Request} {size : Nat} {checks : List Check}
    {run : State → State × Option (List Byte)} {p : List Byte} (h : s.takes op q) (hc : s.judge checks = none)
    (hr : run s.accepted = (u, some p)) :
    (s.serve op q size true checks run).done = .next (u.answer op q p) := by
  rw [serve_run h rfl hc, hr, done_eq]
  rfl

/-- A command of a wrong length ends with the short response BAD_LENGTH (R16). -/
theorem serve_done_of_badLength {s : State} {op : Nat} {q : Request} {size : Nat} {checks : List Check}
    {run : State → State × Option (List Byte)} (h : s.serving = true) :
    (s.serve op q size false checks run).done = .next (s.answer op q [0x12, 0, 0, 0]) := by
  rw [serve_badLength h, done_eq]
  rfl

/-- A ring page carries commands of its tenant, and outside recovery the device takes every opcode there. -/
theorem takes_of_ring {s : State} {op n : Nat} {q : Request} (hs : s.serving = true) (hb : s.boot.recovery = false)
    (hv : q.via = .ring n) : s.takes op q :=
  ⟨hs, by simp [hv], by simp [hv], by simp [hb]⟩

/-- GET_INFO answers with the layout of Table 12.8 (R450). -/
theorem exec_getInfo {s : State} {q : Request} (h : s.takes 0x0101 q) (ht : s.tenantOn q) (hl : q.len = 0) :
    exec (.getInfo q) s = .next (s.accepted.answer 0x0101 q (s.infoReply q)) := by
  have hc : s.judge [s.anyTenant q] = none := judge_anyTenant ht []
  show (s.cmdGetInfo q).done = _
  rw [State.cmdGetInfo, hl]
  exact serve_done_of_run h hc rfl

/-- GET_VARIANT answers with the layout of Table 0.5 (R9, R10). -/
theorem exec_getVariant {s : State} {q : Request} (h : s.takes 0x0102 q) (ht : s.tenantOn q) (hl : q.len = 0) :
    exec (.getVariant q) s = .next (s.accepted.answer 0x0102 q s.variant.reply) := by
  have hc : s.judge [s.anyTenant q] = none := judge_anyTenant ht []
  show (s.cmdGetVariant q).done = _
  rw [State.cmdGetVariant, hl]
  exact serve_done_of_run h hc rfl

/-- GET_VARIANT refuses every payload that is not empty (R9). -/
theorem exec_getVariant_badLength {s : State} {q : Request} (h : s.serving = true) (hl : q.len ≠ 0) :
    exec (.getVariant q) s = .next (s.answer 0x0102 q [0x12, 0, 0, 0]) := by
  show (s.cmdGetVariant q).done = _
  rw [State.cmdGetVariant, beq_false_of_ne hl]
  exact serve_done_of_badLength h

/-- JOB_STATUS of a token of the tenant's own answers with the layout of Table 12.9 (R455). -/
theorem exec_jobStatus {s : State} {q : Request} {j : Job} (h : s.takes 0x0103 q) (ht : s.tenantOn q) (hl : q.len = 4)
    (hj : s.job (q.u 0 4) = some j) (ho : q.u 0 4 / 2 ^ 28 = q.tenant) :
    exec (.jobStatus q) s = .next (s.accepted.answer 0x0103 q j.reply) := by
  have hc : s.judge [s.anyTenant q, .bad (some j).isNone .badParam 0, .bad (foreignToken q) .notOwner 0] = none := by
    rw [judge_anyTenant ht]
    simp [foreignToken, show q.u 0 4 / 268435456 = q.tenant from ho]
  show (s.cmdJobStatus q).done = _
  rw [State.cmdJobStatus, hl, hj]
  exact serve_done_of_run h hc rfl

/-- The JOB_STATUS response of a running job. -/
theorem reply_of_running {j : Job} (h : j.ended = none) :
    j.reply = le 1 0x01 ++ le 1 0 ++ le 1 0 ++ le 1 j.progress ++ le 2 j.op ++ le 2 0 ++ le 8 0 := by
  rw [Job.reply, h]
  rfl

/-- The JOB_STATUS response of an ended job. -/
theorem reply_of_ended {j : Job} {e : JobEnd} (h : j.ended = some e) :
    j.reply = le 1 0x02 ++ le 1 e.outcome ++ le 1 (bit e.cancelled + 2 * bit (decide (e.result.length > 4064))) ++
      le 1 (if e.cancelled then j.progress else 100) ++ le 2 j.op ++ le 2 (e.result.take 4064).length ++ le 8 e.chamber ++
      e.result.take 4064 := by
  rw [Job.reply, h]
  rfl

/-- Settles O1: each command is taken, passes its checks and answers with its layout. -/
theorem generalReadsComplete : Obligations.GeneralReadsComplete := by
  unfold Obligations.GeneralReadsComplete
  refine ⟨fun s q => exec_getInfo, fun s q => exec_getVariant, fun s q j h ht hl hj ho hr => ?running,
    fun s q j e h ht hl hj ho he => ?ended⟩
  case running => rw [exec_jobStatus h ht hl hj ho, reply_of_running hr]
  case ended => rw [exec_jobStatus h ht hl hj ho, reply_of_ended he]

/-- Settles O48: a payload fails the length check, which comes first; the empty request of an enabled tenant's page is taken. -/
theorem variantTakesAnEmptyRequest : Obligations.VariantTakesAnEmptyRequest := by
  unfold Obligations.VariantTakesAnEmptyRequest
  refine ⟨fun s q => exec_getVariant_badLength, fun s q n hs hb hv _ ht hl => ?_⟩
  exact ⟨s.accepted, s.variant.reply, exec_getVariant (takes_of_ring hs hb hv) ht hl, rfl, rfl⟩

end Sys2Proof.Proofs
end

section
/-!
SUPPORT. What recording an event can do: it writes the log and may set the watermark flag of page 0 (R471, R512).
-/
namespace Sys2Proof.Proofs
open Sys2Proof Sys2Proof.Machine Sys2Proof.Laws

/-- With the command interface put back, a message leaves no trace. -/
theorem msi_restore (s : State) (v : Nat) : { s.msi v with com := s.com } = s := by
  unfold State.msi
  split <;> rfl

/-- A message changes the pending bits and the count of messages alone. -/
theorem msi_com_restore (s : State) (v : Nat) : { (s.msi v).com with pba := s.com.pba, msiSent := s.com.msiSent } = s.com := by
  unfold State.msi
  split <;> rfl

/-- With the command interface put back, an interrupt flag leaves no trace. -/
theorem setInt_restore (s : State) (n b : Nat) : { s.setInt n b with com := s.com } = s := by
  unfold State.setInt
  dsimp only
  split
  · exact congrArg (fun t : State => { t with com := s.com }) (msi_restore (s.modPage n _) _)
  · rfl

/-- An interrupt flag changes the pages, the pending bits and the count of messages alone. -/
theorem setInt_com_restore (s : State) (n b : Nat) :
    { (s.setInt n b).com with pages := s.com.pages, pba := s.com.pba, msiSent := s.com.msiSent } = s.com := by
  unfold State.setInt
  dsimp only
  split
  · exact congrArg (fun c : Com => { c with pages := s.com.pages }) (msi_com_restore (s.modPage n _) _)
  · rfl

/-- An interrupt flag of a page leaves the other pages. -/
theorem setInt_page_ne (s : State) {n k : Nat} (b : Nat) (h : k ≠ n) : (s.setInt n b).page k = s.page k := by
  unfold State.setInt
  dsimp only
  split <;> simp [State.page, tgetD_tput_ne, h]

/-- An interrupt flag changes INT_STATUS of its page alone. -/
theorem setInt_page_restore (s : State) (n b : Nat) :
    { (s.setInt n b).page n with intStatus := (s.page n).intStatus } = s.page n := by
  unfold State.setInt
  dsimp only
  split <;> simp [State.page]

/-- `t` differs from `s` at most in the event log, in page 0's INT_STATUS and in the message that page 0 sends or holds pending. -/
def LogAndWatermarkOnly (s t : State) : Prop :=
  { t with com := s.com, log := s.log } = s ∧ (∀ k, k ≠ 0 → t.page k = s.page k) ∧
    { t.page 0 with intStatus := (s.page 0).intStatus } = s.page 0 ∧
    { t.com with pages := s.com.pages, pba := s.com.pba, msiSent := s.com.msiSent } = s.com

/-- A new log is such a change. -/
theorem logAndWatermarkOnly_log (s : State) (log : Log) : LogAndWatermarkOnly s { s with log := log } :=
  ⟨rfl, fun _ _ => rfl, rfl, rfl⟩

/-- A new log and an interrupt flag of page 0 are such a change. -/
theorem logAndWatermarkOnly_setInt (s : State) (log : Log) (b : Nat) :
    LogAndWatermarkOnly s (({ s with log := log } : State).setInt 0 b) :=
  ⟨congrArg (fun t : State => { t with log := s.log }) (setInt_restore { s with log := log } 0 b),
    fun _ hk => setInt_page_ne { s with log := log } b hk, setInt_page_restore { s with log := log } 0 b,
    setInt_com_restore { s with log := log } 0 b⟩

/-- A choice between two values is one of them. -/
theorem eq_or_eq_of_ite {α : Type} (c : Prop) [Decidable c] (a b : α) :
    (if c then a else b) = a ∨ (if c then a else b) = b := by
  by_cases h : c
  · exact .inl (if_pos h)
  · exact .inr (if_neg h)

/-- Recording an event gives a new log, after which EVENT_WATERMARK of page 0 is set or not (Table 12.12). -/
theorem recordAt_cases (s : State) (t i : Nat) (e : Ev) (src : Nat) (p : List Byte) :
    ∃ log : Log, s.recordAt t i e src p = ({ s with log := log } : State).setInt 0 3 ∨
      s.recordAt t i e src p = { s with log := log } := by
  unfold State.recordAt
  exact ⟨_, eq_or_eq_of_ite ..⟩

/-- Recording an event changes the log and page 0's interrupt state alone. -/
theorem recordAt_logAndWatermarkOnly (s : State) (t i : Nat) (e : Ev) (src : Nat) (p : List Byte) :
    LogAndWatermarkOnly s (s.recordAt t i e src p) := by
  obtain ⟨log, h | h⟩ := recordAt_cases s t i e src p
  · rw [h]; exact logAndWatermarkOnly_setInt s log 3
  · rw [h]; exact logAndWatermarkOnly_log s log

/-- As `recordAt_logAndWatermarkOnly`. -/
theorem darkAccess_logAndWatermarkOnly (s : State) (u r k l t : Nat) : LogAndWatermarkOnly s (s.darkAccess u r k l t) :=
  recordAt_logAndWatermarkOnly ..

/-- DARK_ACCESS makes no response that waits to leave. -/
theorem darkAccess_settled {s : State} (h : s.settled) (u r k l t : Nat) : (s.darkAccess u r k l t).settled := by
  simpa [State.settled] using h

end Sys2Proof.Proofs
end

section
/-!
SUPPORT. Accesses to the counter group of a dark unit through a live window (R11, R12, R14).
-/
namespace Sys2Proof.Proofs
open Sys2Proof Sys2Proof.Machine Sys2Proof.Laws

/-- A read of a dark unit's group records the access and gives the dark word (R11, R14). -/
theorem liveRead_dark {s : State} {n why : Nat} (o a : Nat) (hg : (s.liveGroup n).isSome = true)
    (hd : s.dark (s.selected n).1 = some why) :
    s.liveRead n o a = (s.darkAccess (s.selected n).1 why 1 a n, darkWord) := by
  obtain ⟨cells, hc⟩ := Option.isSome_iff_exists.mp hg
  simp only [State.liveRead, hc, hd]

/-- The word of a dark unit's group, read anywhere in BAR0. -/
theorem bar0Read_dark {s : State} {a n o why : Nat} (hp : bar0Part (a / 4 * 4) = .live n o)
    (hg : (s.liveGroup n).isSome = true) (hd : s.dark (s.selected n).1 = some why) :
    s.bar0Read a = (s.darkAccess (s.selected n).1 why 1 (a / 4 * 4) n, darkWord) := by
  rw [State.bar0Read, hp]
  exact liveRead_dark o _ hg hd

/-- A read over PCIe that stays within one word returns the bytes asked for of that word (R463). -/
theorem pcieRead_word {s : State} {a size : Nat} (hu : s.barUp = true) (h1 : 1 ≤ size) (h4 : a % 4 + size ≤ 4) :
    s.pcieRead a size = { (s.bar0Read a).1 with
      com := { (s.bar0Read a).1.com with readData := ((le 4 (s.bar0Read a).2.toNat).drop (a % 4)).take size } } := by
  have hn : (a % 4 + size + 3) / 4 = 1 := by omega
  have ha : s.bar0Read (a / 4 * 4) = s.bar0Read a := by
    rw [State.bar0Read, State.bar0Read, show a / 4 * 4 / 4 * 4 = a / 4 * 4 by omega]
  simp only [State.pcieRead, hu, hn, State.wordsRead, ha, Bool.not_true, Bool.false_eq_true, if_false, List.append_nil]

/-- The bytes of the dark word, lowest first. -/
theorem le_darkWord : le 4 darkWord.toNat = [0x4C, 0xDA, 0x4C, 0xDA] := by decide

/-- A write aimed at a dark unit's group records the access and nothing else (R12, R14). -/
theorem bar0Write_dark {s : State} {a n o why : Nat} (v : Reg) (hp : bar0Part a = .live n o)
    (hg : (s.liveGroup n).isSome = true) (hd : s.dark (s.selected n).1 = some why) :
    s.bar0Write a v = s.darkAccess (s.selected n).1 why 2 a n := by
  obtain ⟨cells, hc⟩ := Option.isSome_iff_exists.mp hg
  simp only [State.bar0Write, hp, hc, hd]

/-- An aligned write of 4 bytes over PCIe acts on BAR0 (R463). -/
theorem registerWrite_aligned {s : State} {a : Nat} (v : Reg) (hu : s.barUp = true) (ha : a % 4 = 0) :
    s.registerWrite a 4 v = s.bar0Write a v := by
  simp [State.registerWrite, hu, ha]

/-- Settles O17: the read stays within one word, that word is the dark word, and sending what is due keeps the bytes read. -/
theorem darkReadReturnsTheDarkWord : Obligations.DarkReadReturnsTheDarkWord := by
  unfold Obligations.DarkReadReturnsTheDarkWord
  intro s a size n o why _ hu hp hg hd h1 h4
  refine ⟨(s.pcieRead a size).sendRelayed, rfl, ?_⟩
  have hr : (s.pcieRead a size).sendRelayed.com.readData = (s.pcieRead a size).com.readData := by simp
  rw [hr, pcieRead_word hu h1 h4, bar0Read_dark hp hg hd, le_darkWord]

/-- Settles O18: the write is a DARK_ACCESS, which reaches the log and page 0's interrupt state alone. -/
theorem darkWriteIsDiscarded : Obligations.DarkWriteIsDiscarded := by
  unfold Obligations.DarkWriteIsDiscarded
  intro s a n o why v hs hu ha hp hg hd
  have hw : s.registerWrite a 4 v = s.darkAccess (s.selected n).1 why 2 a n := by
    rw [registerWrite_aligned v hu ha, bar0Write_dark v hp hg hd]
  refine ⟨s.darkAccess (s.selected n).1 why 2 a n, ?_, darkAccess_logAndWatermarkOnly ..⟩
  show (s.registerWrite a 4 v).done = _
  rw [hw, done_of_settled (darkAccess_settled hs ..)]

end Sys2Proof.Proofs
end

section
/-!
SUPPORT. How every step ends: with a next state in which no response waits to leave as a domain message (R36, R415).
-/
namespace Sys2Proof.Proofs
open Sys2Proof Sys2Proof.Machine Sys2Proof.Laws

/-- Every meaning of the table ends by sending what is due. -/
theorem exec_eq_done (i : Instr) (s : State) : ∃ u : State, exec i s = u.done := by
  cases i <;> exact ⟨_, rfl⟩

/-- A meaning that ends by sending what is due leaves nothing to send. -/
theorem done_settled (u : State) : ∃ t : State, u.done = .next t ∧ t.settled :=
  ⟨u.sendRelayed, done_eq u, sendRelayed_settled u⟩

/-- The life record's minutes are outside the command interface. -/
@[simp] theorem lifeTick_com (s : State) : s.lifeTick.com = s.com := by
  unfold State.lifeTick
  split <;> rfl

/-- The MARK steps that are due make no response. -/
@[simp] theorem marksDue_relayed (s : State) : s.marksDue.com.relayed = s.com.relayed := by
  unfold State.marksDue
  dsimp only
  split
  · rfl
  · exact foldl_keeps (fun u : State => u.com.relayed = s.com.relayed) _ (fun u m h => by simpa using h) _ _ rfl

/-- The selectors of raw steps are outside the command interface. -/
@[simp] theorem rawSelect_com (s : State) : s.rawSelect.com = s.com := by
  unfold State.rawSelect
  refine foldl_keeps (fun u : State => u.com = s.com) _ (fun u w h => ?_) _ _ rfl
  exact h

/-- What passes after the due responses are sent makes no new one. -/
theorem idle_settled (s : State) : s.idle.settled := by
  simp [State.settled, State.idle]

/-- Settles O47: a command's meaning and an idle chamber both send what is due before the state is left. -/
theorem everyStepAnswers : Obligations.EveryStepAnswers := by
  unfold Obligations.EveryStepAnswers
  intro s
  unfold step
  split
  case h_1 => exact ⟨s.idle, rfl, idle_settled s⟩
  case h_2 c cs _ =>
    obtain ⟨u, hu⟩ := exec_eq_done c { s with pending := cs }
    rw [hu]
    exact done_settled u

end Sys2Proof.Proofs
end

section
/-!
SUPPORT. Chambers: how a domain time gives its chamber, and their numbers modulo 2^48 (R28, R29).
-/
namespace Sys2Proof.Proofs
open Sys2Proof Sys2Proof.Machine

/-- The chamber of a domain time: the whole chambers since the epoch, modulo 2^48. -/
theorem chamberOf_cast (epoch t : Nat) :
    (chamberOf epoch t : Int) = ((t : Int) - epoch * 4000000000) / 5120 % 2 ^ 48 := by
  simp only [chamberOf, secQ, chamberQ, chamberMod]
  omega

/-- A time within chamber `n` of an epoch, counted without wrapping, has that number modulo 2^48. -/
theorem chamberOf_of_within {epoch t n : Nat} (h0 : epoch * 4000000000 + n * 5120 ≤ t) (h1 : t < epoch * 4000000000 + (n + 1) * 5120) :
    chamberOf epoch t = n % 2 ^ 48 := by
  have h := chamberOf_cast epoch t
  omega

/-- Before the count wraps, a time lies within the chamber that it has. -/
theorem within_chamberOf {epoch t : Nat} (h0 : epoch * 4000000000 ≤ t) (h1 : t < epoch * 4000000000 + 2 ^ 48 * 5120) :
    epoch * 4000000000 + chamberOf epoch t * 5120 ≤ t ∧ t < epoch * 4000000000 + (chamberOf epoch t + 1) * 5120 := by
  have h := chamberOf_cast epoch t
  omega

/-- Settles O49: a time's chamber is the count of whole chambers since the epoch. -/
theorem chambersFollowDomainTime : Obligations.ChambersFollowDomainTime := by
  unfold Obligations.ChambersFollowDomainTime
  refine ⟨fun epoch t n hn h0 h1 => ?_, fun epoch t h0 h1 => within_chamberOf h0 h1, fun s => rfl⟩
  rw [chamberOf_of_within h0 h1, Nat.mod_eq_of_lt hn]

/-- A chamber number is a count of 48 bits (R29). -/
theorem chamberOf_lt (epoch t : Nat) : chamberOf epoch t < 2 ^ 48 := by
  have h := chamberOf_cast epoch t
  omega

/-- 2^48 chambers later the number is the same (R29). -/
theorem chamberOf_period (epoch t : Nat) : chamberOf epoch (t + 2 ^ 48 * chamberQ) = chamberOf epoch t := by
  have h := chamberOf_cast epoch t
  have hp := chamberOf_cast epoch (t + 2 ^ 48 * chamberQ)
  simp only [chamberQ] at hp ⊢
  omega

/-- Chambers compare by their difference modulo 2^48 (R29). -/
theorem chLater_iff (a b : Nat) :
    chLater a b = true ↔ 1 ≤ ((a : Int) - b) % 2 ^ 48 ∧ ((a : Int) - b) % 2 ^ 48 ≤ 2 ^ 47 - 1 := by
  have hd : (((a + chamberMod - b % chamberMod) % chamberMod : Nat) : Int) = ((a : Int) - b) % 2 ^ 48 := by
    simp only [chamberMod]
    omega
  simp only [chLater, Bool.and_eq_true, decide_eq_true_eq, ← hd]
  omega

/-- Settles O50: chamber numbers are remainders modulo 2^48. -/
theorem chamberNumbersWrap : Obligations.ChamberNumbersWrap := by
  unfold Obligations.ChamberNumbersWrap
  refine ⟨fun epoch t => ⟨chamberOf_lt epoch t, chamberOf_period epoch t⟩, chLater_iff, fun a n => ⟨?_, ?_, ?_, ?_⟩⟩
  · exact Nat.mod_lt _ (by decide)
  · decide
  · rw [chAdd, ← Nat.add_assoc, chamberMod, Nat.add_mod_right, chAdd, chamberMod]
  · decide

end Sys2Proof.Proofs
end

section
/-!
SUPPORT. Commands while no guide pair serves: they are kept for the pair that takes over (R36, R447).
-/
namespace Sys2Proof.Proofs
open Sys2Proof Sys2Proof.Machine Sys2Proof.Laws

/-- While no guide pair serves, nothing waits for the copy of banks (R115). -/
theorem behindCopy_of_notServing {s : State} (h : s.serving = false) (op : Nat) (q : Request) : s.behindCopy op q = false := by
  simp [State.behindCopy, h]

/-- While no guide pair serves, no command is judged. -/
theorem reaches_of_notServing {s : State} (h : s.serving = false) (op : Nat) (q : Request) (ok : Bool) (cs : List Check) :
    s.reaches op q ok cs = false := by
  simp [State.reaches, h]

/-- Keeping a command makes no response, so a meaning that does no more ends with the command kept. -/
theorem hold_done {s : State} (hs : s.settled) (op : Nat) (q : Request) : (s.hold op q).done = .next (s.hold op q) :=
  done_of_settled (by simpa [State.settled] using hs)

/-- A command whose meaning is to be served is kept while no guide pair serves (R36). -/
theorem serve_done_of_held {s : State} {op : Nat} {q : Request} {size : Nat} {lenOk : Bool} {checks : List Check}
    {run : State → State × Option (List Byte)} {tail : List Byte} (hs : s.settled) (h : s.serving = false) :
    (s.serve op q size lenOk checks run tail).done = .next (s.hold op q) := by
  rw [serve_held h, hold_done hs]

/-- PASSAGE_CLOSE is kept, whether or not it would wait behind a copy of banks. -/
theorem cmdPassageClose_held {s : State} (h : s.serving = false) (q : Request) : s.cmdPassageClose q = s.hold 0x0302 q := by
  simp only [State.cmdPassageClose, serve_held h, ite_self]

/-- As `cmdPassageClose_held`. -/
theorem cmdTableCommit_held {s : State} (h : s.serving = false) (q : Request) : s.cmdTableCommit q = s.hold 0x0305 q := by
  simp only [State.cmdTableCommit, serve_held h, ite_self]

/-- As `cmdPassageClose_held`. -/
theorem cmdProtectGroupSet_held {s : State} (h : s.serving = false) (q : Request) : s.cmdProtectGroupSet q = s.hold 0x0307 q := by
  simp only [State.cmdProtectGroupSet, serve_held h, ite_self]

/-- KEK_ROTATE is kept, and no failed unwrap is counted or reported (R370). -/
theorem cmdKekRotate_held {s : State} (h : s.serving = false) (q : Request) : s.cmdKekRotate q = s.hold 0x0405 q := by
  simp only [State.cmdKekRotate, reaches_of_notServing h, Bool.false_and, Bool.false_eq_true, if_false, serve_held h]

/-- While no guide pair serves, a command named in `familyCommands` is kept and nothing else happens. The table and passage commands and
KEK_ROTATE look at the state before they are served; every other command is served at once. -/
theorem exec_held {s : State} {q : Request} {op : Nat} {c : Instr} (hs : s.settled) (h : s.serving = false)
    (hc : (op, c) ∈ familyCommands q) : exec c s = .next (s.hold op q) := by
  by_cases hop : op = 0x0302 ∨ op = 0x0305 ∨ op = 0x0307 ∨ op = 0x0405
  · rcases hop with rfl | rfl | rfl | rfl
    · obtain rfl : c = .passageClose q := by simpa [familyCommands] using hc
      exact (congrArg State.done (cmdPassageClose_held h q)).trans (hold_done hs ..)
    · obtain rfl : c = .tableCommit q := by simpa [familyCommands] using hc
      exact (congrArg State.done (cmdTableCommit_held h q)).trans (hold_done hs ..)
    · obtain rfl : c = .protectGroupSet q := by simpa [familyCommands] using hc
      exact (congrArg State.done (cmdProtectGroupSet_held h q)).trans (hold_done hs ..)
    · obtain rfl : c = .kekRotate q := by simpa [familyCommands] using hc
      exact (congrArg State.done (cmdKekRotate_held h q)).trans (hold_done hs ..)
  · obtain ⟨h1, h2, h3, h4⟩ : op ≠ 0x0302 ∧ op ≠ 0x0305 ∧ op ≠ 0x0307 ∧ op ≠ 0x0405 := by simpa using hop
    simp only [familyCommands, List.mem_cons, Prod.mk.injEq, List.not_mem_nil, or_false, h1, h2, h3, h4, false_and, false_or] at hc
    repeat' refine Or.elim hc (fun hc => ?_) (fun hc => ?_)
    all_goals
      obtain ⟨rfl, rfl⟩ := hc
      exact serve_done_of_held hs h

/-- Settles O51: the command is held, which adds it to those received unless it stands there. -/
theorem heldWhileNoPairServes : Obligations.HeldWhileNoPairServes := by
  unfold Obligations.HeldWhileNoPairServes
  constructor
  · intro s q op c hs h hc hnew
    rw [exec_held hs h hc, State.hold, hnew]
    rfl
  · intro s q op c hs h hc hkept
    rw [exec_held hs h hc, State.hold, if_pos hkept]

end Sys2Proof.Proofs
end

section
/-!
SUPPORT. The passage commands (02_passages.md): what the table of passages holds after a change, PASSAGE_CLOSE and PASSAGE_QUERY.
-/
namespace Sys2Proof.Proofs
open Sys2Proof Sys2Proof.Machine Sys2Proof.Laws

/-- Counters that were kept for a chamber are kept once (R79). -/
@[simp] theorem keep_keep (p : Passage) (ch : Nat) : (p.keep ch).keep ch = p.keep ch := by
  rcases h : p.snap with - | ⟨c, l⟩
  · simp [Passage.keep, h]
  · by_cases hc : c = ch <;> simp [Passage.keep, h, hc]

/-- The changed passage is found as it was kept and changed. -/
theorem tget_modPas_self (s : State) (id : Nat) (f : Passage → Passage) :
    tget (s.modPas id f).pas id = (tget s.pas id).map fun p => f (p.keep s.chamber) := by
  rw [modPas_pas, tget_tmod_self]

/-- Changing a passage leaves the others. -/
theorem tget_modPas_ne (s : State) {id j : Nat} (f : Passage → Passage) (h : j ≠ id) :
    tget (s.modPas id f).pas j = tget s.pas j := by
  rw [modPas_pas, tget_tmod_ne _ _ h]

/-- Scheduling a close writes its chamber and reason into the passage and leaves the others. -/
theorem scheduleClose_pas (s : State) (id cs reason : Nat) :
    (s.scheduleClose id cs reason).pas = (s.modPas id fun p => { p with stop := some cs, reason := reason }).pas := rfl

/-- The close stands in the commit of its chamber (R74). -/
theorem scheduleClose_has (s : State) (id cs reason : Nat) : (s.scheduleClose id cs reason).hasScheduled cs (.closeP id) :=
  schedule_has _ _ _ _ _ (List.mem_singleton.mpr rfl)

/-- Scheduling a close changes the passages and the tables alone. -/
theorem scheduleClose_restore (s : State) (id cs reason : Nat) :
    { s.scheduleClose id cs reason with pas := s.pas, tab := s.tab } = s := rfl

/-- PASSAGE_CLOSE of the owner's passage that does not close yet: the close is scheduled and answered (R73 to R76). -/
theorem exec_passageClose {s : State} {q : Request} {p : Passage} {id cs : Nat} (h : s.takes 0x0302 q)
    (hb : s.behindCopy 0x0302 q = false) (hl : q.len = 12) (h2 : q.rsv 2 2 = true) (h10 : q.rsv 10 2 = true) (hid : q.u 0 2 = id)
    (hm : id ≤ 4095) (hp : tget s.pas id = some p) (ht : s.tenantOn q) (ho : p.owner = q.tenant) (hs : p.stop = none)
    (hcs : cs = p.closeAt (if q.ch 4 = 0 then s.earliest false else q.ch 4)) (hc : s.commitBad cs none = none) :
    exec (.passageClose q) s =
      .next ((s.accepted.scheduleClose id cs 1).answer 0x0302 q (closeReply id cs (chAdd cs p.delay))) := by
  subst hid hcs
  show (s.cmdPassageClose q).done = _
  simp only [State.cmdPassageClose, hb, hp, hs, hl, Bool.false_eq_true, if_false]
  refine serve_done_of_run h ?_ rfl
  simp [judge_anyTenant ht, h2, h10, ho, hc]
  omega

/-- PASSAGE_CLOSE of the owner's passage that closes already names that close (R76). -/
theorem exec_passageClose_again {s : State} {q : Request} {p : Passage} {id cs : Nat} (h : s.takes 0x0302 q)
    (hb : s.behindCopy 0x0302 q = false) (hl : q.len = 12) (h2 : q.rsv 2 2 = true) (h10 : q.rsv 10 2 = true) (hid : q.u 0 2 = id)
    (hm : id ≤ 4095) (hp : tget s.pas id = some p) (ht : s.tenantOn q) (ho : p.owner = q.tenant) (hs : p.stop = some cs) :
    exec (.passageClose q) s = .next (s.accepted.answer 0x0302 q (closeReply id cs (chAdd cs p.delay))) := by
  subst hid
  show (s.cmdPassageClose q).done = _
  simp only [State.cmdPassageClose, hb, hp, hs, hl, Bool.false_eq_true, if_false]
  refine serve_done_of_run h ?_ rfl
  simp [judge_anyTenant ht, h2, h10, ho]
  omega

/-- PASSAGE_QUERY of the owner's passage answers with the layout of Table 2.9 (R78, R79). -/
theorem exec_passageQuery {s : State} {q : Request} {p : Passage} (h : s.takes 0x0303 q) (hl : q.len = 2)
    (hp : tget s.pas (q.u 0 2) = some p) (ht : s.tenantOn q) (ho : p.owner = q.tenant) :
    exec (.passageQuery q) s = .next (s.accepted.answer 0x0303 q (s.queryReply (q.u 0 2) p)) := by
  show (s.cmdPassageQuery q).done = _
  simp only [State.cmdPassageQuery, hp, hl]
  refine serve_done_of_run h ?_ rfl
  simp [judge_anyTenant ht, ho]

/-- Settles O9: a close that is not yet scheduled changes the passage and the tables; a repeated close and a query only answer. -/
theorem passageCommandsComplete : Obligations.PassageCommandsComplete := by
  unfold Obligations.PassageCommandsComplete
  refine ⟨fun s q p id cs h hb hl h2 h10 hid hm hp ht ho hs hcs hc => ?_,
    fun s q p id cs => exec_passageClose_again, fun s q p => exec_passageQuery⟩
  refine ⟨_, exec_passageClose h hb hl h2 h10 hid hm hp ht ho hs hcs hc, ?_, fun k hk => ?_,
    scheduleClose_has .., scheduleClose_restore s.accepted id cs 1⟩
  · rw [scheduleClose_pas, tget_modPas_self, show tget s.accepted.pas id = some p from hp]
    rfl
  · rw [scheduleClose_pas, tget_modPas_ne _ _ hk]
    rfl

end Sys2Proof.Proofs
end

section
/-!
SUPPORT. Passage commands on an engine that a forced disable will stop, and the removal of a protect leg (R77, R711): both write the passage
beyond what PASSAGE_OPEN and PROTECT_GROUP_SET place.
-/
namespace Sys2Proof.Proofs
open Sys2Proof Sys2Proof.Machine Sys2Proof.Laws

/-- A passage of the state that a step leaves. -/
def passageAfter (o : Host.Outcome State Fault Refusal) (id : Nat) : Option Passage :=
  match o with | .next t => tget t.pas id | _ => none

/-- An answer leaves the passages as they were. -/
theorem passageAfter_answer {o : Host.Outcome State Fault Refusal} {u : State} {op : Nat} {q : Request} {p : List Byte} (id : Nat)
    (h : o = .next (u.answer op q p)) : passageAfter o id = tget u.pas id := by
  subst h
  simp [passageAfter]

/-- A device that serves T0's ring, with every island active and a full part: chamber 78 125 000 begins. -/
def servingDevice : State :=
  { State.reset with
    now := 100 * secQ, mono := 50 * secQ
    variant := { engineCount := 8, engineMask := 0xFF, cipher := true, fuseValid := true }
    power := { islands := (List.range 15).map fun i => (i, { inReset := false }) }
    boot := { asserted := false, full := false, stage := 0xF, boardOk := true }
    guide := { active := some 0, standby := true } }

/-- A request of T0 on its ring. -/
def ringRequest (p : List Byte) : Request := { via := .ring 0, tenant := 0, tag := 1, payload := p }

/-! PASSAGE_OPEN on an engine whose forced disable is scheduled. -/

/-- Engine 0 is in service, and ENGINE_DISABLE with FORCE was accepted for chamber 78 125 100; host port 0 of 20 slots is up. -/
def forcedDisable : State :=
  { servingDevice with
    engs := [(0, {
      cfg := { configured := true, mode := 1, code := 2, subs := 1, symRate := 600, rollMax := 10, roll := 10, hStart := 64 }
      tx := { enabled := true, prof := [64], permit := true, disableAt := some 78125100, forced := true }
      rx := { frame := true, lock := true, prof := [64], farEpoch := some 0 } })]
    tab := { commits := [{ cc := 78125100, changes := [.disable 0, .timeWord (engCode 0) none] }] }
    host := { ports := [(0, { phy := 0, rate := 2, plain := true, flags := 0, txInvert := 0, rxInvert := 0, degSet := 0, degClear := 0,
                              degWin := 0, up := true, wasUp := true })] } }

/-- PASSAGE_OPEN of 20 slots as passage 5 from host port 0 to subcarrier 0 of engine 0. -/
def openOnEngine0 : Request :=
  ringRequest ([5, 0] ++ le 2 20 ++ [1, 0, 0, 0, 0, 0, 0, 0] ++ ([3, 0, 1, 0] ++ le 2 0xFFFF ++ le 2 0xFFFF) ++ [0, 0, 9, 0] ++ zeros 12)

/-- The passage opened there is to close at the disable (R77). -/
theorem forcedDisable_closes :
    (passageAfter (exec (.passageOpen openOnEngine0) forcedDisable) 5).map Passage.stop = some (some 78125100) := by
  decide +kernel

/-- A passage is opened without a scheduled close. -/
theorem openedPassage_stop (s : State) (q : Request) (start inF egF : Nat) (plane : List Nat) (base : Nat) :
    (openedPassage s q start inF egF plane base).stop = none := rfl

/-- Refutes O8: on an engine with a forced disable scheduled, PASSAGE_OPEN passes its checks and the new passage is closed at the disable
at once (R77), so it is not the passage that was placed. -/
theorem not_passageOpenComplete : ¬ Obligations.PassageOpenComplete := by
  unfold Obligations.PassageOpenComplete
  intro h
  have hopen := h forcedDisable openOnEngine0 (endpointAt openOnEngine0 4) (endpointAt openOnEngine0 12) 5 78125100 0xFFFF 0 0 (List.range 20)
  iterate 35 specialize hopen (by decide +kernel)
  obtain ⟨u, p, hp, hx, hu, -⟩ := hopen
  have hc := forcedDisable_closes
  rw [passageAfter_answer 5 hx, hu, hp, Option.map_some, openedPassage_stop] at hc
  exact absurd hc (by decide)

/-! PROTECT_GROUP_SET ACTION 2. -/

/-- A pending passage from host port 0 to engine 0 with a protect leg on engine 1. -/
def protectedPassage : Passage :=
  { owner := 0, slots := 20, ing := { kind := 1, index := 0, first := 0xFFFF }, eg := { kind := 3, index := 0, sub := 1, leaf := 0xFFFF }
    mode := 0, skew := 0, trail := 9, start := 100000000, terms := [250, 2560, 0, 0, 0, 410], plane := List.range 20, base := 0
    leg := some { engine := 1, sub := 1, first := 0, wtr := 0 } }

/-- Passage 5 is the protected passage. -/
def protectedPending : State := { servingDevice with pas := [(5, protectedPassage)] }

/-- PROTECT_GROUP_SET ACTION 2 for passage 5. -/
def removeLegOf5 : Request := ringRequest ([5, 0, 2] ++ zeros 13)

/-- The passage notes the chamber at which its leg is removed (R711). -/
theorem protectedPending_notes :
    ((passageAfter (exec (.protectGroupSet removeLegOf5) protectedPending) 5).bind Passage.legStop).isSome = true := by
  decide +kernel

/-- Refutes O10: ACTION 2 schedules the removal and notes its chamber in the passage (R711), so the tables are not all that changes. -/
theorem not_protectGroupSetComplete : ¬ Obligations.ProtectGroupSetComplete := by
  unfold Obligations.ProtectGroupSetComplete
  rintro ⟨-, h⟩
  have hremove := h protectedPending removeLegOf5 protectedPassage 5 (.protDel 5)
  iterate 16 specialize hremove (by decide +kernel)
  obtain ⟨u, r, hx, -, hu⟩ := hremove
  have hpas : u.pas = protectedPending.pas := by simpa using congrArg State.pas hu
  have hc := protectedPending_notes
  rw [passageAfter_answer 5 hx, hpas] at hc
  exact absurd hc (by decide)

end Sys2Proof.Proofs
end

section
/-!
SUPPORT. What the arrival of a block leaves alone: the time and the responses that wait to leave.
-/
namespace Sys2Proof.Proofs
open Sys2Proof Sys2Proof.Machine Sys2Proof.Laws

/-- `t` has the time, the epoch and the waiting responses of `s`. -/
def ClockKept (s t : State) : Prop := t.now = s.now ∧ t.epoch = s.epoch ∧ t.com.relayed = s.com.relayed

theorem ClockKept.refl (s : State) : ClockKept s s := ⟨rfl, rfl, rfl⟩

theorem ClockKept.trans {s t u : State} (h : ClockKept s t) (h' : ClockKept t u) : ClockKept s u :=
  ⟨h'.1.trans h.1, h'.2.1.trans h.2.1, h'.2.2.trans h.2.2⟩

/-- The chamber is that of the time and the epoch. -/
theorem ClockKept.chamber {s t : State} (h : ClockKept s t) : t.chamber = s.chamber := by
  rw [State.chamber, State.chamber, h.1, h.2.1]

/-- A choice between two changes that keep the clock keeps it. -/
theorem ClockKept.ite {s t u : State} (c : Prop) [Decidable c] (ht : ClockKept s t) (hu : ClockKept s u) :
    ClockKept s (if c then t else u) := by
  split
  · exact ht
  · exact hu

/-- An event keeps the clock. -/
theorem clockKept_raise (s : State) (i : Nat) (e : Ev) (src : Nat) (p : List Byte) : ClockKept s (s.raise i e src p) := by
  simp [ClockKept]

/-- A change of the timing registers keeps the clock. -/
theorem clockKept_modTim (s : State) (f : Timing → Timing) : ClockKept s (s.modTim f) := ⟨rfl, rfl, rfl⟩

/-- A change of a timing input keeps the clock. -/
theorem clockKept_modInput (s : State) (i : Nat) (f : TimeInput → TimeInput) : ClockKept s (s.modInput i f) := ⟨rfl, rfl, rfl⟩

/-- A change of a passage keeps the clock. -/
theorem clockKept_modPas (s : State) (id : Nat) (f : Passage → Passage) : ClockKept s (s.modPas id f) := ⟨rfl, rfl, rfl⟩

/-- A counter keeps the clock. -/
theorem clockKept_bump (s : State) (u i k n : Nat) : ClockKept s (s.bump u i k n) := ⟨rfl, rfl, rfl⟩

/-- Taking a place of a port keeps the clock. -/
theorem clockKept_rxTake (s : State) (a : SlotAt) : ClockKept s (s.rxTake a) := ⟨rfl, rfl, rfl⟩

/-- A new loop state keeps the clock. -/
theorem clockKept_setLoop (s : State) (st : Nat) : ClockKept s (s.setLoop st) := by
  refine .ite _ (.refl s) ?_
  simp [ClockKept, State.syncClks]

/-- Holdover and free run keep the clock. -/
theorem clockKept_holdOver (s : State) : ClockKept s s.holdOver := by
  unfold State.holdOver
  refine .ite _ (.refl s) ?_
  split
  · exact ((clockKept_setLoop ..).trans (clockKept_modTim ..)).trans (clockKept_raise ..)
  · exact ((clockKept_setLoop ..).trans (clockKept_modTim ..)).trans (clockKept_raise ..)

/-- The selection of an input keeps the clock. -/
theorem clockKept_reselect (s : State) : ClockKept s s.reselect := by
  have hsel : ∀ (u : State) (f : Timing → Timing) (new old : Option Nat) (role : Nat),
      ClockKept u ((u.modTim f).selectedEvent new old role) := fun u f _ _ _ => (clockKept_modTim u f).trans (clockKept_raise ..)
  unfold State.reselect
  extract_lets old new v u oldSrc src
  have hv : ClockKept s v := hsel ..
  clear_value v new old
  have hu : ClockKept s u := by
    refine .ite _ (.refl s) ?_
    split
    · exact hv.trans (clockKept_holdOver _)
    · exact .ite _ (hv.trans ((clockKept_setLoop ..).trans (clockKept_modTim ..))) (.ite _ (hv.trans (clockKept_modTim ..)) hv)
  clear_value u
  exact .ite _ hu (hu.trans (hsel ..))

/-- An input that leaves its state keeps the clock. -/
theorem clockKept_leaveState (s : State) (i st cause : Nat) : ClockKept s (s.leaveState i st cause) :=
  .ite _ ((clockKept_modInput ..).trans (clockKept_raise ..)) (clockKept_modInput ..)

/-- A quality level that is received keeps the clock. -/
theorem clockKept_receiveQl (s : State) (i ql : Nat) : ClockKept s (s.receiveQl i ql) := by
  refine .ite _ (.refl s) (.trans (clockKept_modInput ..) (.ite _ (.ite _ ?_ (.refl _)) (.ite _ (clockKept_modInput ..) ?_)))
  · exact (clockKept_leaveState ..).trans (clockKept_reselect _)
  · exact clockKept_reselect _

/-- The reader of ESMC PDUs keeps the clock. -/
theorem clockKept_readEsmc (s : State) (lane : Nat) (b : Block) : ClockKept s (s.readEsmc lane b) := by
  unfold State.readEsmc
  split
  · exact .refl s
  · dsimp only
    split
    · exact .trans ⟨rfl, rfl, rfl⟩ (clockKept_receiveQl ..)
    · exact ⟨rfl, rfl, rfl⟩

/-- The counters of an arriving block keep the clock. -/
theorem clockKept_portBlock (s : State) (a : SlotAt) (bad : Bool) : ClockKept s (s.portBlock a bad) := by
  unfold State.portBlock
  split
  · exact .refl s
  · exact .ite _ (clockKept_bump ..) (.ite _ ((clockKept_bump ..).trans (clockKept_bump ..)) (clockKept_bump ..))

/-- An idle block that is inserted keeps the clock. -/
theorem clockKept_insertIdle (s : State) (id : Nat) (a : SlotAt) (tag at_ : Nat) : ClockKept s (s.insertIdle id a tag at_) :=
  .ite _ (clockKept_modPas ..) ((clockKept_modPas ..).trans (clockKept_rxTake ..))

/-- A block that meets a passage keeps the clock. -/
theorem clockKept_takeBlock (s : State) (id : Nat) (prot : Bool) (a : SlotAt) (down : Bool) (b : Block) (tag at_ : Nat) :
    ClockKept s (s.takeBlock id prot a down b tag at_) := by
  have hput : ClockKept s (if a.kind = 4 then s.modPas id fun p => p.takeIn prot b s.chamber tag none at_
      else (s.modPas id fun p => p.takeIn prot b s.chamber tag (some (s.rxPlace a)) at_).rxTake a) :=
    .ite _ (clockKept_modPas ..) ((clockKept_modPas ..).trans (clockKept_rxTake ..))
  unfold State.takeBlock
  split
  · exact .refl s
  · refine .ite _ (.refl s) (.ite _ (.ite _ (clockKept_modPas ..) (.refl s)) (.ite _ (.refl s) (.ite _ (.ite _ (.refl s) ?_)
      (.ite _ (clockKept_modPas ..) ?_))))
    · exact (clockKept_modPas ..).trans (clockKept_raise ..)
    · exact .ite _ (hput.trans (clockKept_insertIdle ..)) hput

/-- A block that a raw flow takes keeps the clock. -/
theorem clockKept_rawAdmit (s : State) (w : StepWord) (b : Block) (tag at_ : Nat) : ClockKept s (s.rawAdmit w b tag at_) :=
  .ite _ (.refl s) ⟨rfl, rfl, rfl⟩

/-- A block that meets raw switch steps keeps the clock. -/
theorem clockKept_rawTake (s : State) (a : SlotAt) (b : Block) (tag at_ : Nat) : ClockKept s (s.rawTake a b tag at_) :=
  foldl_keeps (ClockKept s) _ (fun _ _ h => h.trans (clockKept_rawAdmit ..)) _ _ (.refl s)

/-- A block that nothing takes keeps the clock. -/
theorem clockKept_unassigned (s : State) (a : SlotAt) (b : Block) : ClockKept s (s.unassigned a b) :=
  .ite _ (.refl s) (.ite _ (clockKept_bump ..) (.ite _ (clockKept_bump ..) (.refl s)))

/-- A block that enters the switch keeps the clock. -/
theorem clockKept_enter (s : State) (a : SlotAt) (down : Bool) (b : Block) (tag at_ : Nat) :
    ClockKept s (s.enter a down b tag at_) := by
  unfold State.enter
  extract_lets host x u
  have hu : ClockKept s u := .ite _ (clockKept_rxTake ..) (.refl s)
  clear_value u
  split
  · split
    · exact clockKept_takeBlock ..
    · exact .ite _ ((clockKept_rawTake ..).trans (clockKept_rxTake ..)) (clockKept_rawTake ..)
  · split
    · exact hu.trans (clockKept_modPas ..)
    · exact hu.trans (clockKept_unassigned ..)

/-- A block that arrives keeps the clock. -/
theorem clockKept_ingress (s : State) (a : SlotAt) (b : Block) (bad : Bool) (tag at_ : Nat) :
    ClockKept s (s.ingress a b bad tag at_) := by
  unfold State.ingress
  extract_lets c down t b' u
  have hu : ClockKept s u := (clockKept_portBlock ..).trans (.ite _ (clockKept_readEsmc ..) (.refl _))
  clear_value u
  split
  · exact hu.trans ⟨rfl, rfl, rfl⟩
  · exact hu.trans (clockKept_enter ..)

/-- Two runs of changes that agree as long as a property holds end alike, and the property with them. -/
theorem foldl_eq_of_keeps {α β : Type} {P : β → Prop} {f g : β → α → β} (hP : ∀ u a, P u → P (g u a))
    (hfg : ∀ u a, P u → f u a = g u a) (l : List α) {u : β} (h : P u) : P (l.foldl g u) ∧ l.foldl f u = l.foldl g u := by
  induction l generalizing u with
  | nil => exact ⟨h, rfl⟩
  | cons a l ih =>
    rw [List.foldl_cons, List.foldl_cons, hfg u a h]
    exact ih (hP u a h)

/-- Blocks that arrive one behind the other arrive at one time. -/
theorem foldl_ingress (a : SlotAt) (l : List (Block × Bool)) {s u : State} (h : ClockKept s u) :
    ClockKept s (l.foldl (fun (u : State) b => u.ingress a b.1 b.2 s.chamber s.now) u) ∧
    l.foldl (fun (u : State) b => u.ingress a b.1 b.2 u.chamber u.now) u =
      l.foldl (fun (u : State) b => u.ingress a b.1 b.2 s.chamber s.now) u :=
  foldl_eq_of_keeps (fun _ _ hu => hu.trans (clockKept_ingress ..)) (fun _ _ hu => by rw [hu.chamber, hu.1]) l h

end Sys2Proof.Proofs
end

section
/-!
SUPPORT. Blocks that arrive (R27, R30, R51 to R54, R71, R72, R75): what a slot's block meets, at an engine and at a plain host port.
-/
namespace Sys2Proof.Proofs
open Sys2Proof Sys2Proof.Machine Sys2Proof.Laws

/-- A block's arrival that makes no response ends with the state that it gives. -/
theorem exec_blockIngress {s t : State} {a : SlotAt} {x : Arrival} (h : s.blockIngress a x = t) (ht : t.settled) :
    exec (.blockIngress a x) s = .next t := by
  show (s.blockIngress a x).done = _
  rw [h, done_of_settled ht]

/-! What a slot's block meets. -/

/-- A block whose slot a passage's step serves meets that passage. -/
theorem enter_serves {s : State} {a : SlotAt} {r : Route} {id : Nat} (hr : s.route a false = some r) (hs : r.serves = some id)
    (down : Bool) (b : Block) (tag at_ : Nat) :
    s.enter a down b tag at_ = s.takeBlock id (swLeg r.w == 1) a down b tag at_ := by
  simp [State.enter, hr, hs]

/-- A block of an engine's slot that no step serves and that a draining passage holds is discarded and counted there (R75). -/
theorem enter_drains {s : State} {a : SlotAt} {x : Nat × Bool} (ha : a.kind = 3) (hr : s.route a false = none)
    (hd : s.drainAt a false = some x) (down : Bool) (b : Block) (tag at_ : Nat) :
    s.enter a down b tag at_ = s.modPas x.1 fun p => { p with late := p.late + 1 } := by
  simp [State.enter, hr, hd, ha]

/-- A block of an engine's slot that nothing serves or holds counts as unassigned, if it is no fill block (R52). -/
theorem enter_unassigned {s : State} {a : SlotAt} {b : Block} (ha : a.kind = 3) (hr : s.route a false = none)
    (hd : s.drainAt a false = none) (hb : b ≠ Block.idle) (down : Bool) (tag at_ : Nat) :
    s.enter a down b tag at_ = s.bump (engUnit a.index 3) 0 4 1 := by
  simp [State.enter, State.unassigned, hr, hd, ha, hb]

/-- A block from an engine reaches the switch at once; one that is bad comes as an error block. -/
theorem ingress_engine {s : State} {a : SlotAt} (ha : a.kind = 3) (b : Block) (bad : Bool) (tag at_ : Nat) :
    s.ingress a b bad tag at_ = s.enter a false (if bad then Block.error else b) tag at_ := by
  simp [State.ingress, State.ingressDown, State.portBlock, State.portOfSlot, State.zrOf, ha]

section
variable {s : State} {a : SlotAt} {id : Nat} {p : Passage} {prot : Bool} (hp : tget s.pas id = some p) (hst : p.st = 2)
  (hf : s.faultOf p prot = none) (hsl : p.slipCh ≠ some s.chamber)
include hp hst hf hsl

/-- An ACTIVE passage admits a block of an engine where its leg has brought fewer than 100 in each slot of the chamber (R30). -/
theorem takeBlock_engine (ha : a.kind = 3) {tag : Nat} (hroom : p.seenIn prot tag < 100 * p.slots) (down : Bool) (b : Block) (at_ : Nat) :
    s.takeBlock id prot a down b tag at_ = s.modPas id fun p => p.takeIn prot b s.chamber tag none at_ := by
  simp [State.takeBlock, hp, hst, hf, hsl, ha, hroom]

/-- An ACTIVE passage admits a block of a port, not idle and not the end of a frame, while its buffer has room (R71). -/
theorem takeBlock_port (ha : a.kind = 1) (hroom : p.queue.length < p.capacity) {b : Block} (hi : b ≠ Block.idle)
    (ht : b.isTerminate = false) (down : Bool) (tag at_ : Nat) :
    s.takeBlock id prot a down b tag at_ =
      (s.modPas id fun p => p.takeIn prot b s.chamber tag (some (s.rxPlace a)) at_).rxTake a := by
  simp [State.takeBlock, hp, hst, hf, hsl, ha, Nat.not_le.mpr hroom, hi, ht]

/-- A block of a port that is up and finds the passage's buffer full is dropped with PASSAGE_ADAPT_SLIP (R72). -/
theorem takeBlock_full (ha : a.kind = 1) (hfull : p.capacity ≤ p.queue.length) (b : Block) (tag at_ : Nat) :
    s.takeBlock id prot a false b tag at_ =
      (s.modPas id fun p => { p with adaptDrops := p.adaptDrops + 1 }).raise islHost .passageAdaptSlip id (le 1 1) := by
  simp [State.takeBlock, hp, hst, hf, hsl, ha, hfull, adaptIsland]

end

/-! A plain host port: its slots, places and steps. -/

@[simp] theorem slotOfPlace_kind (s : State) (a : SlotAt) (egress : Bool) (x : Place) : (s.slotOfPlace a egress x).kind = a.kind := by
  rw [State.slotOfPlace]

@[simp] theorem slotOfPlace_index (s : State) (a : SlotAt) (egress : Bool) (x : Place) : (s.slotOfPlace a egress x).index = a.index := by
  rw [State.slotOfPlace]

/-- The slot count of a port's carrier is that of its port. -/
theorem slotsAt_port (s : State) {a : SlotAt} (ha : a.kind = 1) (egress : Bool) :
    s.slotsAt a egress = ((s.hostPort a.index).map Prod.fst).getD 0 := by
  obtain ⟨_, index, sub, leaf, slot⟩ := a
  subst ha
  show (match s.hostPort index with | some x => x.1 | none => 0) = _
  cases s.hostPort index <;> rfl

/-- A port's slot of any place is on the port. -/
theorem slotOfPlace_port {s : State} {a c : SlotAt} {egress : Bool} {x : Place} (ha : a.kind = 1) (hc : s.slotOfPlace a egress x = c) :
    c.kind = 1 ∧ c.index = a.index := by
  subst hc
  exact ⟨by rw [slotOfPlace_kind, ha], slotOfPlace_index ..⟩

/-- The carrier code of a port. -/
theorem slotCode_port (s : State) {a : SlotAt} (ha : a.kind = 1) (egress : Bool) : s.slotCode a egress = 0x100 + a.index := by
  simp [State.slotCode, State.carrierCode, slotEndpoint, ha]

/-- The steps of a port's slot are those of the banks. -/
theorem route_port {s t : State} {a : SlotAt} (ha : a.kind = 1) (ht : t.tab = s.tab) (egress : Bool) :
    t.route a egress = s.route a egress := by
  have hw : t.switchAt a egress = s.switchAt a egress := funext fun w => by simp only [State.switchAt, slotCode_port _ ha]
  simp only [State.route, State.slotStep, State.rawAt, State.bank, hw, ht, ha, slotCode_port _ ha]

/-- The next place of a port follows its record, its size and the chamber. -/
theorem rxPlace_port {s t : State} {a c : SlotAt} (ha : a.kind = 1) (hk : c.kind = 1) (hi : c.index = a.index)
    (hh : t.hostPort a.index = s.hostPort a.index) (hr : t.host.rxAt = s.host.rxAt) (hc : t.chamber = s.chamber) :
    t.rxPlace c = s.rxPlace a := by
  simp only [State.rxPlace, slotsAt_port _ ha, slotsAt_port _ hk, slotCode_port _ ha, slotCode_port _ hk, hi, hh, hr, hc]

/-- The engine in compatibility mode behind a port follows the engines. -/
theorem zrOf_congr {s t : State} {a : SlotAt} (h : t.engs = s.engs) : t.zrOf a = s.zrOf a := by
  simp only [State.zrOf, State.zrUser, State.eng, h]

/-- The fault of a leg follows the engines, the Umran ports and the epoch (R51, R85). -/
theorem faultOf_congr {s t : State} (he : t.engs = s.engs) (hu : t.ul = s.ul) (hep : t.epoch = s.epoch) (p : Passage) (prot : Bool) :
    t.faultOf p prot = s.faultOf p prot := by
  cases s; cases t; cases he; cases hu; cases hep
  rfl

/-! A plain host port takes a block in. -/

/-- A data block ends no frame and begins none. -/
theorem frameStep_data {b : Block} (hb : b.isData = true) (under : Option (List Byte)) : (frameStep under b).2 = none := by
  have hs : b.sync = 1 := by simpa [Block.isData] using hb
  cases under <;> simp [frameStep, Block.isStart, Block.isTerminate, hs]
  split <;> rfl

/-- A port took a block in: it is counted, and `rx` is what is received of the frame under way. -/
def portReceived (s : State) (lane : Nat) (rx : Option (List Byte)) : State :=
  { s.bump (0x0B00 + lane) 0 20 1 with
    host := { s.host with ports := tmod s.host.ports lane fun p => { p with rxBytes := rx } } }

/-- What a port receives changes no port's size. -/
theorem hostPort_portReceived (s : State) (lane : Nat) (rx : Option (List Byte)) (k : Nat) :
    (portReceived s lane rx).hostPort k = s.hostPort k := by
  by_cases hk : k = lane
  · subst hk
    simp [State.hostPort, State.port, portReceived, Option.map_map, Function.comp_def, HostPort.count]
  · simp [State.hostPort, State.port, portReceived, tget_tmod_ne _ _ hk]

/-- A block that arrives at a port that is down, outside compatibility mode, enters the switch as local fault. -/
theorem ingress_of_down {s t : State} {a c : SlotAt} {bad : Bool} (ha : a.kind = 1) (hc : s.slotOfPlace a false (s.rxPlace a) = c)
    (hd : s.ingressDown c = true) (ht : s.portBlock c bad = t) (hz : t.zrOf c = none) (b : Block) (tag at_ : Nat) :
    s.ingress a b bad tag at_ = t.enter c true Block.localFault tag at_ := by
  simp [State.ingress, show a.kind ≤ 2 by omega, hc, hd, ht, hz]

/-- A good block that arrives at a port that is up, outside compatibility mode, enters the switch behind the port's reader of ESMC PDUs. -/
theorem ingress_of_up {s t u : State} {a c : SlotAt} {b : Block} (ha : a.kind = 1) (hc : s.slotOfPlace a false (s.rxPlace a) = c)
    (hk : c.kind = 1) (hd : s.ingressDown c = false) (ht : s.portBlock c false = t) (hu : t.readEsmc c.index b = u)
    (hz : u.zrOf c = none) (tag at_ : Nat) : s.ingress a b false tag at_ = u.enter c false b tag at_ := by
  simp [State.ingress, show a.kind ≤ 2 by omega, hc, hd, ht, hk, hu, hz]

/-- Local fault in place of what a port receives is counted in RX_LF_INSERTED (R139). -/
theorem portBlock_down {s : State} {c : SlotAt} {l : Nat} (hp : s.portOfSlot c = some l) (hd : s.ingressDown c = true) (bad : Bool) :
    s.portBlock c bad = s.bump (0x0B00 + l) 0 23 1 := by
  simp [State.portBlock, hp, hd]

/-- A good block of a port that is up is counted in RX_BLOCKS. -/
theorem portBlock_up {s : State} {c : SlotAt} {l : Nat} (hp : s.portOfSlot c = some l) (hd : s.ingressDown c = false) :
    s.portBlock c false = s.bump (0x0B00 + l) 0 20 1 := by
  simp [State.portBlock, hp, hd]

/-- A port reads a data block into the frame under way, and no PDU ends (R394). -/
theorem readEsmc_data {s : State} {l : Nat} {b : Block} {o : HostPort} (ho : s.port l = some o) (hb : b.isData = true) :
    s.readEsmc l b = { s with
      host := { s.host with ports := tmod s.host.ports l fun p => { p with rxBytes := (frameStep o.rxBytes b).1 } } } := by
  simp [State.readEsmc, ho, frameStep_data hb]

/-- The lane of a slot of a configured port is the port's. -/
theorem portOfSlot_port {s : State} {c : SlotAt} (hk : c.kind = 1) (ho : (s.port c.index).isSome = true) : s.portOfSlot c = some c.index := by
  obtain ⟨o, ho⟩ := Option.isSome_iff_exists.mp ho
  simp [State.portOfSlot, hk, ho]

/-- A data block at a port that is up, outside compatibility mode: the port takes it in and it enters the switch at the port's next place
(R31, R136). -/
theorem ingress_portUp {s : State} {a : SlotAt} {b : Block} {o : HostPort} (ha : a.kind = 1) (ho : s.port a.index = some o)
    (hu : o.up = true) (hz : s.zrOf a = none) (hb : b.isData = true) (tag at_ : Nat) :
    s.ingress a b false tag at_ =
      (portReceived s a.index (frameStep o.rxBytes b).1).enter (s.slotOfPlace a false (s.rxPlace a)) false b tag at_ := by
  generalize hc : s.slotOfPlace a false (s.rxPlace a) = c
  obtain ⟨hk, hi⟩ := slotOfPlace_port ha hc
  have hzr : s.zrOf c = none := by rw [← hz, State.zrOf, State.zrOf, hk, ha, hi]
  rw [← hi] at ho ⊢
  have hdown : s.ingressDown c = false := by simp [State.ingressDown, hk, ho, hu]
  have hport : (s.bump (0x0B00 + c.index) 0 20 1).port c.index = some o := by simpa [State.port] using ho
  exact ingress_of_up ha hc hk hdown (portBlock_up (portOfSlot_port hk (by simp [ho])) hdown) (readEsmc_data hport hb)
    ((zrOf_congr (s := s) rfl).trans hzr) tag at_

/-- Whatever arrives at a port that is down, outside compatibility mode, is counted and enters the switch as local fault (R139). -/
theorem ingress_portDown {s : State} {a : SlotAt} (ha : a.kind = 1) (ho : (s.port a.index).isSome = true)
    (hd : s.ingressDown a = true) (hz : s.zrOf a = none) (b : Block) (bad : Bool) (tag at_ : Nat) :
    s.ingress a b bad tag at_ =
      (s.bump (0x0B00 + a.index) 0 23 1).enter (s.slotOfPlace a false (s.rxPlace a)) true Block.localFault tag at_ := by
  generalize hc : s.slotOfPlace a false (s.rxPlace a) = c
  obtain ⟨hk, hi⟩ := slotOfPlace_port ha hc
  have hzr : s.zrOf c = none := by rw [← hz, State.zrOf, State.zrOf, hk, ha, hi]
  have hdown : s.ingressDown c = true := by rw [← hd, State.ingressDown, State.ingressDown, hk, ha, hi]
  rw [← hi] at ho ⊢
  exact ingress_of_down ha hc hdown (portBlock_down (portOfSlot_port hk ho) hdown bad) ((zrOf_congr (s := s) rfl).trans hzr) b tag at_

/-! The rows of the statement. -/

/-- A block of an engine joins the passage of its slot (R52, R70). -/
theorem blockIngress_engine_joins {s : State} {a : SlotAt} {b : Block} {bad : Bool} {id : Nat} {p : Passage} {r : Route} {prot : Bool}
    (hs : s.settled) (ha : a.kind = 3) (hr : s.route a false = some r) (hsv : r.serves = some id) (hprot : prot = (swLeg r.w == 1))
    (hp : tget s.pas id = some p) (hst : p.st = 2) (hf : s.faultOf p prot = none) (hsl : p.slipCh ≠ some s.chamber)
    (hroom : p.seenIn prot s.chamber < 100 * p.slots) :
    exec (.blockIngress a (.block b bad)) s = .next (s.modPas id fun p =>
      p.takeIn prot (if bad then Block.error else b) s.chamber s.chamber none s.now) := by
  refine exec_blockIngress ?_ hs
  subst hprot
  show s.ingress a b bad s.chamber s.now = _
  rw [ingress_engine ha, enter_serves hr hsv, takeBlock_engine hp hst hf hsl ha hroom]

/-- A block of an engine's slot that a draining passage holds is counted there as late (R75). -/
theorem blockIngress_engine_drains {s : State} {a : SlotAt} {x : Nat × Bool} (hs : s.settled) (ha : a.kind = 3)
    (hr : s.route a false = none) (hd : s.drainAt a false = some x) (b : Block) (bad : Bool) :
    exec (.blockIngress a (.block b bad)) s = .next (s.modPas x.1 fun p => { p with late := p.late + 1 }) := by
  refine exec_blockIngress ?_ hs
  show s.ingress a b bad s.chamber s.now = _
  rw [ingress_engine ha, enter_drains ha hr hd]

/-- A block of an engine's slot that belongs to no passage is counted as unassigned, if it is no fill block (R52). -/
theorem blockIngress_engine_unassigned {s : State} {a : SlotAt} {b : Block} {bad : Bool} (hs : s.settled) (ha : a.kind = 3)
    (hr : s.route a false = none) (hd : s.drainAt a false = none) (hb : bad = true ∨ b ≠ Block.idle) :
    exec (.blockIngress a (.block b bad)) s = .next (s.bump (engUnit a.index 3) 0 4 1) := by
  have hfill : (if bad then Block.error else b) ≠ Block.idle := by
    cases bad with
    | true => exact show Block.error ≠ Block.idle by decide
    | false => simpa using hb
  refine exec_blockIngress ?_ hs
  show s.ingress a b bad s.chamber s.now = _
  rw [ingress_engine ha, enter_unassigned ha hr hd hfill]

/-- What an event adds to the log does not depend on passages, engines, counters, host ports or the command interface. -/
theorem raise_log_with (s : State) (pas : Tab Passage) (engs : Tab Engine) (cnt : Tab Ctr) (host : HostSide) (com : Com) (i : Nat) (e : Ev)
    (src : Nat) (p : List Byte) :
    ({ s with pas := pas, engs := engs, cnt := cnt, host := host, com := com }.raise i e src p).log = (s.raise i e src p).log := by
  have hset : ∀ u : State, (u.setInt 0 3).log = u.log := fun u => by simp
  simp only [State.raise, State.raiseAt, State.recordAt, apply_ite State.log, hset, ite_self]
  rfl

/-- A data block is neither an idle block nor the end of a frame. -/
theorem ne_idle_of_isData {b : Block} (hb : b.isData = true) : b ≠ Block.idle ∧ b.isTerminate = false := by
  have hs : b.sync = 1 := by simpa [Block.isData] using hb
  refine ⟨fun h => ?_, by simp [Block.isTerminate, hs]⟩
  rw [h] at hs
  exact absurd hs (by decide)

/-- A place of a port was taken. -/
def placeTaken (s : State) (code : Nat) (x : Place) : State := { s with host := { s.host with rxAt := tput s.host.rxAt code x.after } }

/-- A block of a port takes the port's next place. -/
theorem rxTake_port {s t : State} {a c : SlotAt} (ha : a.kind = 1) (hk : c.kind = 1) (hi : c.index = a.index)
    (hx : t.rxPlace c = s.rxPlace a) : t.rxTake c = placeTaken t (s.slotCode a false) (s.rxPlace a) := by
  rw [State.rxTake, hx, slotCode_port t hk, slotCode_port s ha, hi, placeTaken]

/-- `t` differs from `s` at most in what a port's flow of blocks does not look at. -/
structure SameFlow (s t : State) : Prop where
  pas : t.pas = s.pas
  tab : t.tab = s.tab
  engs : t.engs = s.engs
  ul : t.ul = s.ul
  epoch : t.epoch = s.epoch
  chamber : t.chamber = s.chamber
  rxAt : t.host.rxAt = s.host.rxAt
  hostPort : ∀ k, t.hostPort k = s.hostPort k

/-- Counting changes nothing that a flow looks at. -/
theorem sameFlow_bump (s : State) (u i k n : Nat) : SameFlow s (s.bump u i k n) := ⟨rfl, rfl, rfl, rfl, rfl, rfl, rfl, fun _ => rfl⟩

/-- What a port receives changes nothing that its flow looks at. -/
theorem sameFlow_portReceived (s : State) (lane : Nat) (rx : Option (List Byte)) : SameFlow s (portReceived s lane rx) :=
  ⟨rfl, rfl, rfl, rfl, rfl, rfl, rfl, hostPort_portReceived s lane rx⟩

section
variable {s : State} {a : SlotAt} {id : Nat} {p : Passage} {r : Route} (ha : a.kind = 1)
  (hr : s.route (s.slotOfPlace a false (s.rxPlace a)) false = some r) (hsv : r.serves = some id) (hw : (swLeg r.w == 1) = false)
  (hp : tget s.pas id = some p) (hst : p.st = 2) (hf : s.faultOf p false = none) (hsl : p.slipCh ≠ some s.chamber)
include ha hr hsv hw hp hst hf hsl

/-- A block at the next place of a port joins the passage of its slot, where the buffer has room, and the place is taken. -/
theorem SameFlow.enter_joins {t : State} (h : SameFlow s t) (hroom : p.queue.length < p.capacity) {b : Block} (hi : b ≠ Block.idle)
    (ht : b.isTerminate = false) (down : Bool) (tag at_ : Nat) :
    t.enter (s.slotOfPlace a false (s.rxPlace a)) down b tag at_ =
      placeTaken (t.modPas id fun p => p.takeIn false b s.chamber tag (some (s.rxPlace a)) at_) (s.slotCode a false) (s.rxPlace a) := by
  generalize hc : s.slotOfPlace a false (s.rxPlace a) = c at hr
  obtain ⟨hk, hlane⟩ := slotOfPlace_port ha hc
  have hplace : ∀ u : State, SameFlow s u → u.rxPlace c = s.rxPlace a := fun u hu =>
    rxPlace_port ha hk hlane (hu.hostPort _) hu.rxAt hu.chamber
  have hjoined : ∀ f, (t.modPas id f).rxPlace c = s.rxPlace a := fun f => hplace t h
  rw [enter_serves ((route_port hk h.tab false).trans hr) hsv, hw,
    takeBlock_port (h.pas ▸ hp) hst ((faultOf_congr h.engs h.ul h.epoch p false).trans hf) (h.chamber ▸ hsl) hk hroom hi ht,
    hplace t h, h.chamber, rxTake_port ha hk hlane (hjoined _)]

/-- A block of a port that is up and finds the buffer of its slot's passage full is dropped with PASSAGE_ADAPT_SLIP. -/
theorem SameFlow.enter_full {t : State} (h : SameFlow s t) (hfull : p.capacity ≤ p.queue.length) (b : Block) (tag at_ : Nat) :
    t.enter (s.slotOfPlace a false (s.rxPlace a)) false b tag at_ =
      (t.modPas id fun p => { p with adaptDrops := p.adaptDrops + 1 }).raise islHost .passageAdaptSlip id (le 1 1) := by
  generalize hc : s.slotOfPlace a false (s.rxPlace a) = c at hr
  obtain ⟨hk, -⟩ := slotOfPlace_port ha hc
  rw [enter_serves ((route_port hk h.tab false).trans hr) hsv, hw,
    takeBlock_full (h.pas ▸ hp) hst ((faultOf_congr h.engs h.ul h.epoch p false).trans hf) (h.chamber ▸ hsl) hk hfull]

variable (hs : s.settled) (hz : s.zrOf a = none)
include hs hz

/-- A data block at a port that is up joins the passage of its slot where the buffer has room (R31, R70, R71). -/
theorem blockIngress_port_joins {b : Block} {o : HostPort} (ho : s.port a.index = some o) (hu : o.up = true) (hb : b.isData = true)
    (hroom : p.queue.length < p.capacity) :
    exec (.blockIngress a (.block b false)) s = .next
      (placeTaken ((portReceived s a.index (frameStep o.rxBytes b).1).modPas id fun p =>
        p.takeIn false b s.chamber s.chamber (some (s.rxPlace a)) s.now) (s.slotCode a false) (s.rxPlace a)) := by
  obtain ⟨hidle, hterm⟩ := ne_idle_of_isData hb
  refine exec_blockIngress ?_ hs
  show s.ingress a b false s.chamber s.now = _
  rw [ingress_portUp ha ho hu hz hb,
    (sameFlow_portReceived ..).enter_joins ha hr hsv hw hp hst hf hsl hroom hidle hterm]

/-- A data block at a port that is up is dropped with PASSAGE_ADAPT_SLIP where the buffer is full (R72). -/
theorem blockIngress_port_full {b : Block} {o : HostPort} (ho : s.port a.index = some o) (hu : o.up = true) (hb : b.isData = true)
    (hfull : p.capacity ≤ p.queue.length) :
    exec (.blockIngress a (.block b false)) s = .next
      (((portReceived s a.index (frameStep o.rxBytes b).1).modPas id fun p => { p with adaptDrops := p.adaptDrops + 1 }).raise islHost
        .passageAdaptSlip id (le 1 1)) := by
  refine exec_blockIngress ?_ (by simpa [State.settled, portReceived] using hs)
  show s.ingress a b false s.chamber s.now = _
  rw [ingress_portUp ha ho hu hz hb, (sameFlow_portReceived ..).enter_full ha hr hsv hw hp hst hf hsl hfull]

/-- At a port that is down local fault joins the passage of its slot in the place of whatever arrives, where the buffer has room (R139). -/
theorem blockIngress_portDown_joins (ho : (s.port a.index).isSome = true) (hd : s.ingressDown a = true)
    (hroom : p.queue.length < p.capacity) (b : Block) (bad : Bool) :
    exec (.blockIngress a (.block b bad)) s = .next
      (placeTaken ((s.bump (0x0B00 + a.index) 0 23 1).modPas id fun p =>
        p.takeIn false Block.localFault s.chamber s.chamber (some (s.rxPlace a)) s.now) (s.slotCode a false) (s.rxPlace a)) := by
  refine exec_blockIngress ?_ hs
  show s.ingress a b bad s.chamber s.now = _
  rw [ingress_portDown ha ho hd hz,
    (sameFlow_bump ..).enter_joins ha hr hsv hw hp hst hf hsl hroom (by decide) (by decide)]

end

/-- The blocks that an FEC decoder delivers arrive one behind the other (R136). -/
theorem blockIngress_fec {s : State} {a : SlotAt} {o : HostPort} (hs : s.settled) (ha : a.kind = 1) (ho : s.port a.index = some o)
    (hu : o.up = true) (hpl : o.plain = true) (pam : List (List Nat)) (sent : List (Option (List Nat))) :
    exec (.blockIngress a (.fec pam sent)) s = .next
      ((o.rxPcs.take o.rxCfg pam sent).2.foldl (fun (u : State) b => u.ingress a b.1 b.2 s.chamber s.now)
        { s with host := { s.host with
          ports := tmod s.host.ports a.index fun p => { p with rxPcs := (o.rxPcs.take o.rxCfg pam sent).1 } } }) := by
  obtain ⟨⟨-, -, hkept⟩, hfold⟩ := foldl_ingress a (o.rxPcs.take o.rxCfg pam sent).2 (s := s)
    (u := { s with host := { s.host with
      ports := tmod s.host.ports a.index fun p => { p with rxPcs := (o.rxPcs.take o.rxCfg pam sent).1 } } }) ⟨rfl, rfl, rfl⟩
  refine exec_blockIngress ?_ (hkept.trans hs)
  rw [← hfold]
  simp only [State.blockIngress, ha, ho, hu, hpl, if_true, Bool.not_true, Bool.or_self, Bool.false_eq_true, if_false]

end Sys2Proof.Proofs
end

section
/-!
SUPPORT. What signals of passages and blocks that leave write: passages, the event log and the interrupts of the command interface.
-/
namespace Sys2Proof.Proofs
open Sys2Proof Sys2Proof.Machine Sys2Proof.Laws

/-- `t` differs from `s` at most in the passages, the log and the command interface, and has the same responses waiting. -/
def SignalOnly (s t : State) : Prop := { t with pas := s.pas, log := s.log, com := s.com } = s ∧ t.com.relayed = s.com.relayed

theorem SignalOnly.refl (s : State) : SignalOnly s s := ⟨rfl, rfl⟩

theorem SignalOnly.trans {s t u : State} (h : SignalOnly s t) (h' : SignalOnly t u) : SignalOnly s u :=
  ⟨(congrArg (fun v : State => { v with pas := s.pas, log := s.log, com := s.com }) h'.1).trans h.1, h'.2.trans h.2⟩

/-- A choice between two such changes is one. -/
theorem SignalOnly.ite {s t u : State} (c : Prop) [Decidable c] (ht : SignalOnly s t) (hu : SignalOnly s u) :
    SignalOnly s (if c then t else u) := by
  split
  · exact ht
  · exact hu

/-- What such a change leaves: the state but for passages, log and command interface. -/
theorem SignalOnly.eq {s t : State} (h : SignalOnly s t) : t = { s with pas := t.pas, log := t.log, com := t.com } :=
  congrArg (fun v : State => { v with pas := t.pas, log := t.log, com := t.com }) h.1

/-- A change of a passage is such a change. -/
theorem signalOnly_modPas (s : State) (id : Nat) (f : Passage → Passage) : SignalOnly s (s.modPas id f) := ⟨rfl, rfl⟩

/-- An event is such a change. -/
theorem signalOnly_raise (s : State) (i : Nat) (e : Ev) (src : Nat) (p : List Byte) : SignalOnly s (s.raise i e src p) :=
  ⟨congrArg (fun v : State => { v with pas := s.pas }) (recordAt_logAndWatermarkOnly ..).1, by simp⟩

/-- An alert to the owner of a passage is such a change. -/
theorem signalOnly_alert (s : State) (id : Nat) : SignalOnly s (s.alert id) := by
  unfold State.alert
  split
  · exact ⟨congrArg (fun v : State => { v with pas := s.pas, log := s.log }) (setInt_restore s _ 5), by simp⟩
  · exact .refl s

/-- An alert changes the command interface alone. -/
theorem alert_pas_log (s : State) (id : Nat) : (s.alert id).pas = s.pas ∧ (s.alert id).log = s.log := by
  unfold State.alert
  split <;> simp

end Sys2Proof.Proofs
end

section
/-!
SUPPORT. Blocks that leave (R30, R31, R53, R54, R70, R75, R78, R80, R151): what an egress slot sends, and where the block goes.
-/
namespace Sys2Proof.Proofs
open Sys2Proof Sys2Proof.Machine Sys2Proof.Laws

/-- An egress that makes no response ends with the state that it gives. -/
theorem exec_blockEgress {s t : State} {a : SlotAt} {room : Bool} (h : s.blockEgress a room = t) (ht : t.settled) :
    exec (.blockEgress a room) s = .next t := by
  show (s.blockEgress a room).done = _
  rw [h, done_of_settled ht]

/-! What a passage keeps. -/

/-- Keeping the counters of a boundary writes the snapshot alone. -/
theorem keep_eq (p : Passage) (ch : Nat) : ∃ l, p.keep ch = { p with snap := some (ch, l) } := by
  rcases h : p.snap with - | ⟨c, l⟩
  · exact ⟨p.counts, by simp [Passage.keep, h]⟩
  · by_cases hc : c = ch
    · exact ⟨l, by subst hc; simp only [Passage.keep, h, if_true]; rw [← h]⟩
    · exact ⟨p.counts, by simp [Passage.keep, h, hc]⟩

/-- A passage whose counters were kept for the chamber stays as it is. -/
theorem keep_of_snap {p : Passage} {ch : Nat} {l : List Ctr} (h : p.snap = some (ch, l)) : p.keep ch = p := by
  simp [Passage.keep, h]

/-- Taking a block out of the queues leaves the rest of the passage. -/
theorem pop_eq (p : Passage) : ∃ o qp q, p.pop = { p with opened := o, queueP := qp, queue := q } := by
  unfold Passage.pop
  split
  · exact ⟨p.opened, p.queueP, p.queue, rfl⟩
  · split
    · exact ⟨_, p.queueP, p.queue, rfl⟩
    · split
      · exact ⟨p.opened, _, _, rfl⟩
      · exact ⟨p.opened, _, _, rfl⟩

/-! What a passage sends next. -/

/-- A passage sends its oldest block once it is due (R54, R75). -/
theorem supply_ready {s : State} {id : Nat} {p : Passage} {q : QBlock} (hp : tget s.pas id = some p) (hq : p.ready.head? = some q)
    (hm : s.mayLeave p q = true) (he : p.endNext = false) (hl : q.lf = false) :
    s.supply id = (s.modPas id fun p => { p.pop with endNext := false }, some (q.b, some q)) := by
  simp [State.supply, hp, hq, hm, he, hl]

/-- An ACTIVE passage on a failed leg sends local fault once its first block is due and nothing is ready (R54, R85). -/
theorem supply_fault {s : State} {id : Nat} {p : Passage} (hp : tget s.pas id = some p) (hst : p.st = 2) (hq : p.ready = [])
    (hd : chLater s.chamber (s.dueAfter p p.start) = true) (hf : (s.faultOf p p.onProt).isSome = true) :
    s.supply id = (s, some (Block.localFault, none)) := by
  simp [State.supply, hp, hq, State.dry, hst, hd, State.substitutes, hf]

/-- A passage without a protect leg or encryption sends on its leg what it supplies, counted as it leaves. -/
theorem legNext_plain {s t : State} {id : Nat} {p : Passage} {x : Block × Option QBlock} (hp : tget s.pas id = some p)
    (hm : p.mode = 0) (hl : p.leg = none) (hb : p.bridgeW = []) (hx : s.supply id = (t, some x)) :
    s.legNext id false true = (t.left id x, some x.1) := by
  simp [State.legNext, hp, hb, State.nextOf, hm, hx, hl]

/-- An engine's egress slot that a passage's step serves sends what the passage sends on its working leg. -/
theorem egressNext_serves {s t : State} {a : SlotAt} {r : Route} {id : Nat} {b : Block} (ha : a.kind = 3)
    (hr : s.route a true = some r) (hs : r.serves = some id) (hw : (swLeg r.w == 1) = false)
    (hn : s.legNext id false true = (t, some b)) : s.egressNext a true = (t, b) := by
  simp [State.egressNext, State.zrOf, ha, hr, hs, hw, hn]

/-- A slot that nothing serves or holds sends fill on an engine and local fault on a host port (R53). -/
theorem egressNext_fill {s : State} {a : SlotAt} (hz : s.zrOf a = none) (hr : s.route a true = none) (hd : s.drainAt a true = none)
    (hw : s.rawDrain a = none) (count : Bool) : s.egressNext a count = (s, fillOf a.kind) := by
  simp [State.egressNext, hz, hr, hd, hw]

/-! What leaves is counted. -/

/-- A passage after a block left with a latency (R78, R80). -/
def sentBlock (b : Block) (first : Bool) (ns : Nat) (p : Passage) : Passage :=
  { p with
    blocksOut := p.blocksOut + 1, maxSeen := if first then max p.maxSeen ns else p.maxSeen, inPacket := insideAfter b p.inPacket }

/-- A block that leaves as it was is counted, its latency kept where it is a sample, and a sample beyond the bound reported. -/
theorem left_block {s : State} {id : Nat} {p : Passage} {q : QBlock} (hp : tget s.pas id = some p) :
    s.left id (q.b, some q) =
      if q.first && decide (s.latencyOf p q > p.bound) then
        ((s.modPas id (sentBlock q.b q.first (s.latencyOf p q))).raise islFab .passageBoundExceeded id (le 4 (s.latencyOf p q))).alert id
      else s.modPas id (sentBlock q.b q.first (s.latencyOf p q)) := by
  have hi : interrupted (q.b, some q) = false := by simp [interrupted]
  simp only [State.left, hi, hp, Bool.false_eq_true, if_false]
  rfl

/-- A local fault that leaves is counted as substituted and belongs to an interruption (R606). -/
theorem left_substituted {s : State} {id : Nat} {p : Passage} (hp : tget s.pas id = some p) (b : Block) :
    s.left id (b, none) = (s.modPas id fun p => p.cutAt s.mono).modPas id fun p =>
      { p with subst := p.subst + 1, inPacket := insideAfter b p.inPacket } := by
  have hi : interrupted (b, none) = true := rfl
  have hp' : tget (s.modPas id fun p => p.cutAt s.mono).pas id = some ((p.keep s.chamber).cutAt s.mono) := by
    rw [tget_modPas_self, hp, Option.map_some]
  simp only [State.left, hi, hp', if_true]

/-! Where the block goes. -/

/-- What an engine's transmit path becomes depends on what it is. -/
theorem modTx_congr {s : State} {n : Nat} {f g : TxPath → TxPath} (h : f (s.eng n).tx = g (s.eng n).tx) : s.modTx n f = s.modTx n g := by
  simp only [State.modTx, State.modEng, h]

/-- A block joins those staged for a slot of the line frame. -/
def stageBlock (key : Nat) (b : Block) (t : TxPath) : TxPath := { t with stage := tput t.stage key (tgetD t.stage key [] ++ [b]) }

section
variable {s : State} {a : SlotAt} (ha : a.kind = 3) (hl : s.leafCarrier (slotEndpoint a) true = none)
  (hroom : (tgetD (s.eng a.index).tx.stage (stageKey a.sub 0xFFFF a.slot) []).length < 100)
include ha hl hroom

/-- A block for a slot of an engine that has room is staged for the line frame, an error block in the place of one that has no place in
Table 5.3 (R30, R183). -/
theorem sendOn_engine (b : Block) :
    s.sendOn a b = (if b.replaced then s.bump (engUnit a.index 3) 0 3 1 else s).modTx a.index
      (stageBlock (stageKey a.sub 0xFFFF a.slot) b.carried) := by
  simp only [State.sendOn, ha, if_true, hl]
  refine modTx_congr ?_
  have he : (if b.replaced then s.bump (engUnit a.index 3) 0 3 1 else s).eng a.index = s.eng a.index := by split <;> rfl
  rw [he]
  simp only [hroom, if_true, stageBlock]

/-- The block stands last among those of its slot. -/
theorem sendOn_engine_stage (b : Block) :
    tgetD ((s.sendOn a b).eng a.index).tx.stage (stageKey a.sub 0xFFFF a.slot) [] =
      tgetD (s.eng a.index).tx.stage (stageKey a.sub 0xFFFF a.slot) [] ++ [b.carried] := by
  rw [sendOn_engine ha hl hroom]
  split <;> simp [State.eng, stageBlock]

/-- The other engines stay as they are. -/
theorem sendOn_engine_ne (b : Block) {k : Nat} (hk : k ≠ a.index) : (s.sendOn a b).eng k = s.eng k := by
  rw [sendOn_engine ha hl hroom]
  split <;> simp [State.eng, tgetD_tput_ne, hk]

/-- Sending to an engine changes the engines and the counters alone. -/
theorem sendOn_engine_restore (b : Block) : { s.sendOn a b with engs := s.engs, cnt := s.cnt } = s := by
  rw [sendOn_engine ha hl hroom]
  split <;> rfl

end

/-- A block for a host port goes through the port's coder and is counted in TX_BLOCKS (R136). -/
theorem sendOn_port {s : State} {a : SlotAt} {l : Nat} (ha : a.kind = 1) (hl : s.portOfSlot a = some l) (b : Block) :
    s.sendOn a b = { s.bump (0x0B00 + l) 0 21 1 with
      host := { s.host with ports := tmod s.host.ports l fun p => { p with pcs := p.pcs.put p.txCfg b } } } := by
  simp [State.sendOn, ha, hl]

/-- An engine's egress slot sends what comes next there. -/
theorem blockEgress_engine {s t : State} {a : SlotAt} {b : Block} (ha : a.kind = 3) (hn : s.egressNext a true = (t, b)) (room : Bool) :
    s.blockEgress a room = t.sendOn a b := by
  simp [State.blockEgress, State.slotOut, ha, hn]

/-- A host port's egress slot sends what comes next there and takes the port's place (R30, R31). -/
theorem blockEgress_port {s t : State} {a c : SlotAt} {b : Block} {x : Place} (ha : a.kind = 1) (hz : s.zrOf a = none)
    (hx : s.txPlace a = some x) (hc : s.slotOfPlace a true x = c) (hn : s.egressNext c true = (t, b)) (room : Bool) :
    s.blockEgress a room = (t.sendOn c b).txTake a x := by
  have hk : c.kind = 1 := (slotOfPlace_port ha hc).1
  simp [State.blockEgress, State.slotOut, ha, hz, hx, hc, hk, hn]

end Sys2Proof.Proofs
end

section
/-!
SUPPORT. The rows of BLOCK_EGRESS: the oldest block of a passage, the substitute of a failed leg, what an unassigned slot sends.
-/
namespace Sys2Proof.Proofs
open Sys2Proof Sys2Proof.Machine Sys2Proof.Laws

/-- A leaf carrier follows the engines. -/
theorem leafCarrier_congr {s t : State} (h : t.engs = s.engs) (e : Endpoint) (egress : Bool) :
    t.leafCarrier e egress = s.leafCarrier e egress := by
  cases s; cases t; cases h
  rfl

/-- What a signal leaves of the engines. -/
theorem SignalOnly.engs {s t : State} (h : SignalOnly s t) : t.engs = s.engs := by simpa using congrArg State.engs h.1

section
variable {s : State} {id : Nat} {p : Passage} {q : QBlock} (hp : tget s.pas id = some p)
include hp

/-- A block that leaves writes its passage. -/
theorem left_block_pas : (s.left id (q.b, some q)).pas = (s.modPas id (sentBlock q.b q.first (s.latencyOf p q))).pas := by
  rw [left_block hp]
  split
  · rw [(alert_pas_log ..).1]
    simp
  · rfl

/-- A sample beyond the passage's bound is reported, and nothing else (R80). -/
theorem left_block_log : (s.left id (q.b, some q)).log = if q.first = true ∧ p.bound < s.latencyOf p q then
    (s.raise islFab .passageBoundExceeded id (le 4 (s.latencyOf p q))).log else s.log := by
  rw [left_block hp]
  by_cases h : q.first = true ∧ p.bound < s.latencyOf p q
  · rw [if_pos (by simpa using h), if_pos h, (alert_pas_log ..).2]
    exact raise_log_with s _ s.engs s.cnt s.host s.com _ _ _ _
  · rw [if_neg (by simpa using h), if_neg h]
    rfl

/-- A block that leaves writes passages, log and command interface alone. -/
theorem signalOnly_left_block : SignalOnly s (s.left id (q.b, some q)) := by
  rw [left_block hp]
  exact .ite _ (((signalOnly_modPas ..).trans (signalOnly_raise ..)).trans (signalOnly_alert ..)) (signalOnly_modPas ..)

end

/-- A passage whose counters were kept loses its oldest block and counts it: of the rest nothing changes. -/
theorem sentBlock_pop_keep (p : Passage) (ch : Nat) (b : Block) (first : Bool) (ns : Nat) :
    sentBlock b first ns { (p.keep ch).pop with endNext := false } = { (p.keep ch).pop with
      endNext := false, blocksOut := p.blocksOut + 1, maxSeen := if first then max p.maxSeen ns else p.maxSeen
      inPacket := insideAfter b p.inPacket } := by
  obtain ⟨l, hk⟩ := keep_eq p ch
  obtain ⟨o, qp, qs, hpop⟩ := pop_eq { p with snap := some (ch, l) }
  rw [hk, hpop]
  rfl

/-- Taking a block out of the queues changes neither the kept counters, the egress nor the bound. -/
theorem pop_keep_facts (p : Passage) (ch : Nat) :
    (∃ l, (p.keep ch).pop.snap = some (ch, l)) ∧ (p.keep ch).pop.eg = p.eg ∧ (p.keep ch).pop.terms = p.terms := by
  obtain ⟨l, hk⟩ := keep_eq p ch
  obtain ⟨o, qp, qs, hpop⟩ := pop_eq { p with snap := some (ch, l) }
  rw [hk, hpop]
  exact ⟨⟨l, rfl⟩, rfl, rfl⟩

/-- The oldest block that is due leaves an ACTIVE passage, counted, its latency kept where it is a sample (R75, R78, R80). -/
theorem supply_left {s : State} {id : Nat} {p : Passage} {q : QBlock} (hp : tget s.pas id = some p) :
    let t := (s.modPas id fun p => { p.pop with endNext := false }).left id (q.b, some q)
    SignalOnly s t ∧
    tget t.pas id = some { (p.keep s.chamber).pop with
      endNext := false, blocksOut := p.blocksOut + 1, maxSeen := if q.first then max p.maxSeen (s.latencyOf p q) else p.maxSeen
      inPacket := insideAfter q.b p.inPacket } ∧
    (∀ j, j ≠ id → tget t.pas j = tget s.pas j) ∧
    t.log = if q.first = true ∧ p.bound < s.latencyOf p q then
      (s.raise islFab .passageBoundExceeded id (le 4 (s.latencyOf p q))).log else s.log := by
  obtain ⟨⟨l, hsnap⟩, heg, hterms⟩ := pop_keep_facts p s.chamber
  have hp' : tget (s.modPas id fun p => { p.pop with endNext := false }).pas id = some { (p.keep s.chamber).pop with endNext := false } := by
    rw [tget_modPas_self, hp, Option.map_some]
  have hns : (s.modPas id fun p => { p.pop with endNext := false }).latencyOf { (p.keep s.chamber).pop with endNext := false } q =
      s.latencyOf p q := by
    simp only [State.latencyOf, heg]
    rfl
  have hbound : ({ (p.keep s.chamber).pop with endNext := false } : Passage).bound = p.bound := by
    simp only [Passage.bound, hterms]
  have hkeep : ({ (p.keep s.chamber).pop with endNext := false } : Passage).keep s.chamber =
      { (p.keep s.chamber).pop with endNext := false } := keep_of_snap (l := l) hsnap
  refine ⟨(signalOnly_modPas ..).trans (signalOnly_left_block hp'), ?_, fun j hj => ?_, ?_⟩
  · rw [left_block_pas hp', tget_modPas_self, hp', Option.map_some, hns]
    refine congrArg some ?_
    refine Eq.trans (congrArg _ hkeep) ?_
    exact sentBlock_pop_keep ..
  · rw [left_block_pas hp', tget_modPas_ne _ _ hj, tget_modPas_ne _ _ hj]
  · rw [left_block_log hp', hns, hbound]
    exact congrArg (fun l => if q.first = true ∧ p.bound < s.latencyOf p q then l else s.log)
      (raise_log_with s _ s.engs s.cnt s.host s.com _ _ _ _)

section
variable {s : State} {a : SlotAt} (hs : s.settled) (ha : a.kind = 3) (hl : s.leafCarrier (slotEndpoint a) true = none)
  (hroom : (tgetD (s.eng a.index).tx.stage (stageKey a.sub 0xFFFF a.slot) []).length < 100)
include hs ha hl hroom

/-- A slot of an engine whose next block comes from a change of signals alone: the block is staged, and the change stands. -/
theorem blockEgress_engine_stages {t : State} {b : Block} (hn : s.egressNext a true = (t, b)) (ht : SignalOnly s t) (room : Bool) :
    exec (.blockEgress a room) s = .next (t.sendOn a b) ∧
    tgetD ((t.sendOn a b).eng a.index).tx.stage (stageKey a.sub 0xFFFF a.slot) [] =
      tgetD (s.eng a.index).tx.stage (stageKey a.sub 0xFFFF a.slot) [] ++ [b.carried] ∧
    (∀ k, k ≠ a.index → (t.sendOn a b).eng k = s.eng k) ∧ { t.sendOn a b with engs := t.engs, cnt := t.cnt } = t := by
  have heng : ∀ k, t.eng k = s.eng k := fun k => by rw [State.eng, State.eng, ht.engs]
  have hl' : t.leafCarrier (slotEndpoint a) true = none := (leafCarrier_congr ht.engs ..).trans hl
  have hroom' : (tgetD (t.eng a.index).tx.stage (stageKey a.sub 0xFFFF a.slot) []).length < 100 := by rwa [heng]
  have hframe := sendOn_engine_restore ha hl' hroom' b
  refine ⟨exec_blockEgress (blockEgress_engine ha hn room) ?_, ?_, fun k hk => ?_, hframe⟩
  · have hcom : (t.sendOn a b).com = t.com := by simpa using congrArg State.com hframe
    rw [State.settled, hcom, ht.2, hs]
  · rw [sendOn_engine_stage ha hl' hroom', heng]
  · rw [sendOn_engine_ne ha hl' hroom' b hk, heng]

end

/-- Staging a block leaves what passages and log hold. -/
theorem pas_log_of_staged {t u : State} (h : { u with engs := t.engs, cnt := t.cnt } = t) : u.pas = t.pas ∧ u.log = t.log :=
  ⟨by simpa using congrArg State.pas h, by simpa using congrArg State.log h⟩

end Sys2Proof.Proofs
end

section
/-!
SUPPORT. The selector of a protected passage (R81, R84, R85): what moving it and judging the legs' signals write.
-/
namespace Sys2Proof.Proofs
open Sys2Proof Sys2Proof.Machine Sys2Proof.Laws

/-- `t` differs from `s` at most in signals and in what one passage notes of its legs, and no selector moved. -/
structure LegsNoted (id : Nat) (s t : State) : Prop where
  signal : SignalOnly s t
  others : ∀ j, j ≠ id → tget t.pas j = tget s.pas j
  onProt : ∀ k, (tget t.pas k).map Passage.onProt = (tget s.pas k).map Passage.onProt

namespace LegsNoted

theorem refl (id : Nat) (s : State) : LegsNoted id s s := ⟨.refl s, fun _ _ => rfl, fun _ => rfl⟩

theorem trans {id : Nat} {s t u : State} (h : LegsNoted id s t) (h' : LegsNoted id t u) : LegsNoted id s u :=
  ⟨h.signal.trans h'.signal, fun j hj => (h'.others j hj).trans (h.others j hj), fun k => (h'.onProt k).trans (h.onProt k)⟩

theorem ite {id : Nat} {s t u : State} (c : Prop) [Decidable c] (ht : LegsNoted id s t) (hu : LegsNoted id s u) :
    LegsNoted id s (if c then t else u) := by
  split
  · exact ht
  · exact hu

/-- A change that keeps the passages. -/
theorem of_pas {id : Nat} {s t : State} (h : SignalOnly s t) (hp : t.pas = s.pas) : LegsNoted id s t :=
  ⟨h, fun _ _ => by rw [hp], fun _ => by rw [hp]⟩

/-- A change of the passage that leaves its selector. -/
theorem modPas {id : Nat} {s t : State} {f : Passage → Passage} (h : LegsNoted id s t) (hf : ∀ p, (f p).onProt = p.onProt) :
    LegsNoted id s (t.modPas id f) := by
  refine h.trans ⟨signalOnly_modPas .., fun j hj => tget_modPas_ne _ _ hj, fun k => ?_⟩
  by_cases hk : k = id
  · subst hk
    rw [tget_modPas_self, Option.map_map]
    refine congrArg (Option.map · _) (funext fun p => ?_)
    obtain ⟨l, hl⟩ := keep_eq p t.chamber
    rw [Function.comp, hf, hl]
  · rw [tget_modPas_ne _ _ hk]

/-- An event. -/
theorem raise {id : Nat} {s t : State} (h : LegsNoted id s t) (i : Nat) (e : Ev) (src : Nat) (p : List Byte) :
    LegsNoted id s (t.raise i e src p) :=
  h.trans (of_pas (signalOnly_raise ..) (by simp))

/-- An alert. -/
theorem alert {id : Nat} {s t : State} (h : LegsNoted id s t) (k : Nat) : LegsNoted id s (t.alert k) :=
  h.trans (of_pas (signalOnly_alert ..) (alert_pas_log ..).1)

end LegsNoted

/-- The faults that the legs show are noted, and no selector moves. -/
theorem legsNoted_noteLegs (s : State) (id : Nat) : LegsNoted id s (s.noteLegs id) := by
  unfold State.noteLegs
  split
  · exact .refl id s
  · exact .modPas (.refl id s) fun _ => rfl

/-- Judging a passage's signals moves no selector. -/
theorem legsNoted_resignal1 (s : State) (id : Nat) : LegsNoted id s (s.resignal1 id) := by
  have h := legsNoted_noteLegs s id
  unfold State.resignal1
  split
  · exact .refl id s
  · refine .ite _ (.refl id s) ?_
    generalize s.noteLegs id = u at h
    dsimp only
    split
    · refine .ite _ h (.alert (.raise ?_ ..) _)
      exact h.modPas fun _ => rfl
    · refine .ite _ h (.raise ?_ ..)
      exact h.modPas fun _ => rfl

/-- Moving a selector writes its passage alone, besides signals. -/
theorem signalOnly_moveLeg (s : State) (id : Nat) (prot : Bool) (cause : Nat) : SignalOnly s (s.moveLeg id prot cause) :=
  ((signalOnly_modPas ..).trans (signalOnly_raise ..)).trans (signalOnly_alert ..)

/-- The passages after a selector was moved. -/
theorem moveLeg_pas (s : State) (id : Nat) (prot : Bool) (cause : Nat) :
    (s.moveLeg id prot cause).pas = (s.modPas id fun p => p.switchTo prot s.chamber).pas := by
  unfold State.moveLeg
  dsimp only
  rw [(alert_pas_log ..).1]
  simp

/-- A selector that is moved, with the signals judged again: it stands on the leg named, and no other passage changes. -/
theorem moveLeg_resignal1 {s : State} {id : Nat} {p : Passage} (hp : tget s.pas id = some p) (prot : Bool) (cause : Nat) :
    SignalOnly s ((s.moveLeg id prot cause).resignal1 id) ∧
    (tget ((s.moveLeg id prot cause).resignal1 id).pas id).map Passage.onProt = some prot ∧
    ∀ j, j ≠ id → tget ((s.moveLeg id prot cause).resignal1 id).pas j = tget s.pas j := by
  have h := legsNoted_resignal1 (s.moveLeg id prot cause) id
  refine ⟨(signalOnly_moveLeg ..).trans h.signal, ?_, fun j hj => ?_⟩
  · rw [h.onProt, moveLeg_pas, tget_modPas_self, hp]
    rfl
  · rw [h.others j hj, moveLeg_pas, tget_modPas_ne _ _ hj]

/-- The selector leaves a failed leg for one that can be used (R85). -/
theorem protectSelect_moves {s : State} {id cause : Nat} {p : Passage} (hp : tget s.pas id = some p) (hst : p.st = 2)
    (hf : s.faultOf p p.onProt = some cause) (hc : s.canSwitch p = true) :
    s.protectSelect id = (s.moveLeg id (!p.onProt) cause).resignal1 id := by
  simp [State.protectSelect, hp, hst, hf, hc]

/-- A return is committed at the earliest chamber, once (R81, R85). -/
theorem protectRevert_commits {s : State} {id : Nat} {p : Passage} (hp : tget s.pas id = some p) (hd : s.revertDue p = true)
    (hn : (s.tab.commits.any fun c => c.changes.contains (.revert id)) = false) :
    s.protectRevert id = s.schedule (s.earliest false) none [] [.revert id] := by
  simp only [State.protectRevert, hp, hd, hn, Bool.not_false, Bool.and_self, if_true]

/-- The protect leg can be used again once its skew was within budget for 10 s (R84). -/
theorem protectSkewClear_clears {s : State} {id : Nat} {x : Int} {p : Passage} (hp : tget s.pas id = some p) (hu : p.unusable = true)
    (hx : p.skewNs = some x) (hb : x.natAbs ≤ p.skewBudget) (ht : s.since p.inBudget (10 * secQ) = true) :
    s.protectSkewClear id = s.modPas id fun p => { p with unusable := false } := by
  simp [State.protectSkewClear, hp, hu, hx, hb, ht]

/-! The swap of a return. -/

/-- Whether a return is due follows the engines, the Umran ports and the clocks. -/
theorem revertDue_congr {s t : State} (he : t.engs = s.engs) (hu : t.ul = s.ul) (hep : t.epoch = s.epoch) (hm : t.mono = s.mono)
    (p : Passage) : t.revertDue p = s.revertDue p := by
  cases s; cases t; cases he; cases hu; cases hep; cases hm
  rfl

/-- `t` differs from `s` at most in engines, counters, the log and the command interface, and has the same responses waiting. -/
def EngineOnly (s t : State) : Prop :=
  { t with engs := s.engs, cnt := s.cnt, log := s.log, com := s.com } = s ∧ t.com.relayed = s.com.relayed

namespace EngineOnly

theorem refl (s : State) : EngineOnly s s := ⟨rfl, rfl⟩

theorem trans {s t u : State} (h : EngineOnly s t) (h' : EngineOnly t u) : EngineOnly s u :=
  ⟨(congrArg (fun v : State => { v with engs := s.engs, cnt := s.cnt, log := s.log, com := s.com }) h'.1).trans h.1, h'.2.trans h.2⟩

theorem ite {s t u : State} (c : Prop) [Decidable c] (ht : EngineOnly s t) (hu : EngineOnly s u) : EngineOnly s (if c then t else u) := by
  split
  · exact ht
  · exact hu

theorem modTx (s : State) (n : Nat) (f : TxPath → TxPath) : EngineOnly s (s.modTx n f) := ⟨rfl, rfl⟩

theorem modRx (s : State) (n : Nat) (f : RxPath → RxPath) : EngineOnly s (s.modRx n f) := ⟨rfl, rfl⟩

theorem bump (s : State) (u i k n : Nat) : EngineOnly s (s.bump u i k n) := ⟨rfl, rfl⟩

theorem raise (s : State) (i : Nat) (e : Ev) (src : Nat) (p : List Byte) : EngineOnly s (s.raise i e src p) :=
  ⟨congrArg (fun v : State => { v with engs := s.engs, cnt := s.cnt }) (recordAt_logAndWatermarkOnly ..).1, by simp⟩

end EngineOnly

/-- A CARRIER step reaches its engine alone. -/
theorem engineOnly_carrierAct (s : State) (n : Nat) (on : Bool) (ms : Nat) : EngineOnly s (s.carrierAct n on ms) :=
  .ite _ (.ite _ (.modTx ..) (.refl s)) (.ite _ (.trans (.modTx ..) (.trans (.bump ..) (.raise ..))) (.modTx ..))

/-- A new profile reaches its engine alone. -/
theorem engineOnly_setProfile (s : State) (n : Nat) (rx : Bool) (prof : List Nat) : EngineOnly s (s.setProfile n rx prof) := by
  refine .ite _ (.refl s) (.ite _ (.ite _ (.trans (.modRx ..) (.bump ..)) (.modRx ..)) (.ite _ (.modTx ..) (.ite _ ?_ ?_)))
  · exact .trans (.modTx ..) (.bump ..)
  · exact .trans (.trans (.modTx ..) (.bump ..)) (.bump ..)

/-- A roll-off reaches its engine alone. -/
theorem engineOnly_setRoll (s : State) (n roll : Nat) : EngineOnly s (s.setRoll n roll) :=
  .ite _ (.refl s) (.ite _ (.modTx ..) (.modTx ..))

/-- The settings of a bank reach their engine alone. -/
theorem engineOnly_loadEngine (s : State) (n : Nat) (old : Bank) : EngineOnly s (s.loadEngine n old) := by
  unfold State.loadEngine
  refine foldl_keeps (EngineOnly s) _ (fun u w h => h.trans (engineOnly_carrierAct ..)) _ _ (.ite _ (.refl s) ?_)
  exact ((engineOnly_setProfile ..).trans (engineOnly_setProfile ..)).trans (.trans (.modRx ..) (engineOnly_setRoll ..))

end Sys2Proof.Proofs
end

section
/-!
SUPPORT. The swap at which a protected passage returns to its working leg (R81, R85, R113, R117).
-/
namespace Sys2Proof.Proofs
open Sys2Proof Sys2Proof.Machine Sys2Proof.Laws

/-- Judging all signals moves no selector. -/
theorem resignal_onProt (s : State) :
    SignalOnly s s.resignal ∧ ∀ k, (tget s.resignal.pas k).map Passage.onProt = (tget s.pas k).map Passage.onProt := by
  refine foldl_keeps (fun u => SignalOnly s u ∧ ∀ k, (tget u.pas k).map Passage.onProt = (tget s.pas k).map Passage.onProt) _
    (fun u id h => ?_) _ _ ⟨.refl s, fun _ => rfl⟩
  have hid := legsNoted_resignal1 u id
  exact ⟨h.1.trans hid.signal, fun k => (hid.onProt k).trans (h.2 k)⟩

/-- `t` has the generation, the commits, the memories, the ports and the waiting responses of `s`. -/
structure SwapKept (s t : State) : Prop where
  generation : t.generation = s.generation
  commits : t.tab.commits = s.tab.commits
  mem : t.mem = s.mem
  host : t.host = s.host
  relayed : t.com.relayed = s.com.relayed

theorem SwapKept.trans {s t u : State} (h : SwapKept s t) (h' : SwapKept t u) : SwapKept s u :=
  ⟨h'.generation.trans h.generation, h'.commits.trans h.commits, h'.mem.trans h.mem, h'.host.trans h.host,
    h'.relayed.trans h.relayed⟩

/-- Signals leave all that. -/
theorem SignalOnly.swapKept {s t : State} (h : SignalOnly s t) : SwapKept s t := by
  rw [h.eq]
  exact ⟨rfl, rfl, rfl, rfl, h.2⟩

/-- Changes of engines leave all that. -/
theorem EngineOnly.swapKept {s t : State} (h : EngineOnly s t) : SwapKept s t ∧ t.pas = s.pas := by
  have ht : t = { s with engs := t.engs, cnt := t.cnt, log := t.log, com := t.com } :=
    congrArg (fun v : State => { v with engs := t.engs, cnt := t.cnt, log := t.log, com := t.com }) h.1
  rw [ht]
  exact ⟨⟨rfl, rfl, rfl, rfl, h.2⟩, rfl⟩

/-- The first moment of a swap: the image is the active bank, and the commit is no longer scheduled (R113, R117). -/
def swapStart (s : State) (c : Commit) (rest : List Commit) : State :=
  let t : State := { s with
    generation := (s.generation + 1) % 2 ^ 32
    tab := { s.tab with
      banks := s.applyCommit s.tab.banks c, image := s.tab.banks, onB := !s.tab.onB, commits := rest, copying := some c.cc } }
  t.raise islFab .tableSwap 0xFFFF (le 4 t.generation)

/-- What the start of a swap leaves. -/
theorem swapStart_frame (s : State) (c : Commit) (rest : List Commit) :
    (swapStart s c rest).generation = (s.generation + 1) % 2 ^ 32 ∧ (swapStart s c rest).tab.commits = rest ∧
    (swapStart s c rest).mem = s.mem ∧ (swapStart s c rest).host = s.host ∧ (swapStart s c rest).com.relayed = s.com.relayed ∧
    (swapStart s c rest).pas = s.pas ∧ (swapStart s c rest).engs = s.engs ∧ (swapStart s c rest).ul = s.ul ∧
    (swapStart s c rest).epoch = s.epoch ∧ (swapStart s c rest).mono = s.mono := by
  simp [swapStart]

/-- The engines of a list load the settings of the new bank. -/
def loadEngines (l : List Nat) (old : Tab Bank) (s : State) : State :=
  l.foldl (fun s n => s.loadEngine n (tgetD old (islEng n) {})) s

/-- Loading settings changes the engines alone. -/
theorem engineOnly_loadEngines (l : List Nat) (old : Tab Bank) (s : State) : EngineOnly s (loadEngines l old s) :=
  foldl_keeps (EngineOnly s) _ (fun _ _ h => h.trans (engineOnly_loadEngine ..)) l s (.refl s)

/-- The raw flows are those of the chamber. -/
def followRaws (s : State) (cc : Nat) : State := { s with tab := { s.tab with raws := s.rawsAt cc } }

/-- Raw flows are nothing of what a swap keeps. -/
theorem followRaws_kept (s : State) (cc : Nat) : SwapKept s (followRaws s cc) ∧ (followRaws s cc).pas = s.pas :=
  ⟨⟨rfl, rfl, rfl, rfl, rfl⟩, rfl⟩

/-- The rest of a swap: the engines load the settings of the new bank, and the raw flows follow it. -/
def swapEnd (s : State) (old : Tab Bank) (cc : Nat) : State := followRaws (loadEngines (List.range 8) old s) cc

/-- The rest of a swap leaves passages, commits, memories and ports. -/
theorem swapEnd_kept (s : State) (old : Tab Bank) (cc : Nat) : SwapKept s (swapEnd s old cc) ∧ (swapEnd s old cc).pas = s.pas := by
  obtain ⟨hkept, hpas⟩ := (engineOnly_loadEngines (List.range 8) old s).swapKept
  obtain ⟨hkept', hpas'⟩ := followRaws_kept (loadEngines (List.range 8) old s) cc
  exact ⟨hkept.trans hkept', hpas'.trans hpas⟩

/-- The swap of a plain commit with one return alone. -/
theorem swapNow_revert {s : State} {c : Commit} {id : Nat} (hp : c.paired = none) (hc : c.changes = [.revert id]) (rest : List Commit) :
    s.swapNow c rest = swapEnd ((swapStart s c rest).revertNow id) s.tab.banks c.cc := by
  simp only [State.swapNow, hc, hp, List.foldl_cons, List.foldl_nil, State.changeNow, swapEnd, followRaws, loadEngines, swapStart]

/-- A return that is due when its commit swaps moves the selector to the working leg; the commit is gone, the generation counts, and memories
and ports stay (R85, R113). -/
theorem tableSwap_reverts {s : State} {id : Nat} {c : Commit} {rest : List Commit} {p : Passage} (hcs : s.tab.commits = c :: rest)
    (hr : chReached s.chamber c.cc = true) (hpa : c.paired = none) (hst : c.staged = true) (hb : c.bad = false)
    (hch : c.changes = [.revert id]) (hp : tget s.pas id = some p) (hd : s.revertDue p = true) :
    (tget s.tableSwap.pas id).map Passage.onProt = some false ∧ s.tableSwap.generation = (s.generation + 1) % 2 ^ 32 ∧
    s.tableSwap.tab.commits = rest ∧ s.tableSwap.mem = s.mem ∧ s.tableSwap.host = s.host ∧
    s.tableSwap.com.relayed = s.com.relayed := by
  have hswap : s.tableSwap = (swapEnd ((swapStart s c rest).revertNow id) s.tab.banks c.cc).resignal := by
    rw [← swapNow_revert hpa hch]
    simp [State.tableSwap, hcs, hr, hpa, Commit.swaps, hst, hb]
  obtain ⟨hgen, hcom, hmem, hhost, hrel, hpas, heng, hul, hep, hmono⟩ := swapStart_frame s c rest
  have hp' : tget (swapStart s c rest).pas id = some p := by rw [hpas, hp]
  have hrev : (swapStart s c rest).revertNow id = ((swapStart s c rest).moveLeg id false 6).resignal1 id := by
    simp only [State.revertNow, hp', revertDue_congr heng hul hep hmono, hd, if_true]
  obtain ⟨hsig, hon, -⟩ := moveLeg_resignal1 hp' false 6
  obtain ⟨hend, hendPas⟩ := swapEnd_kept ((swapStart s c rest).revertNow id) s.tab.banks c.cc
  obtain ⟨hres, hresOn⟩ := resignal_onProt (swapEnd ((swapStart s c rest).revertNow id) s.tab.banks c.cc)
  have hkept := ((hrev ▸ hsig).swapKept.trans hend).trans hres.swapKept
  rw [hswap]
  refine ⟨?_, hkept.generation.trans hgen, hkept.commits.trans hcom, hkept.mem.trans hmem, hkept.host.trans hhost,
    hkept.relayed.trans hrel⟩
  rw [hresOn, hendPas, hrev, hon]

end Sys2Proof.Proofs
end

section
/-!
The rows of BLOCK_INGRESS, BLOCK_EGRESS and of the selector, together (O42).
-/
namespace Sys2Proof.Proofs
open Sys2Proof Sys2Proof.Machine Sys2Proof.Laws

/-- Signals make no response. -/
theorem SignalOnly.settled {s t : State} (h : SignalOnly s t) (hs : s.settled) : t.settled := h.2.trans hs

/-- A count by one. -/
theorem ctr_bump_self (s : State) (u i k : Nat) : (s.bump u i k 1).ctr u i k = s.ctr u i k + 1 := by
  rw [State.ctr, bump_cnt, tgetD_tupd_self]
  rfl

/-- Receiving at a port counts a block; the passages, the places of the ports and all the rest stay. -/
theorem portReceived_facts (s : State) (lane : Nat) (rx : Option (List Byte)) :
    (portReceived s lane rx).pas = s.pas ∧ (portReceived s lane rx).chamber = s.chamber ∧
    (portReceived s lane rx).host.rxAt = s.host.rxAt ∧
    (portReceived s lane rx).ctr (0x0B00 + lane) 0 20 = s.ctr (0x0B00 + lane) 0 20 + 1 ∧
    (∀ k, k ≠ lane → (portReceived s lane rx).port k = s.port k) ∧ { portReceived s lane rx with cnt := s.cnt, host := s.host } = s :=
  ⟨rfl, rfl, rfl, ctr_bump_self .., fun k h => by simp [State.port, portReceived, tget_tmod_ne _ _ h], rfl⟩

/-- A passage's drop count, its counters kept. -/
theorem keep_adaptDrops (p : Passage) (ch : Nat) : (p.keep ch).adaptDrops = p.adaptDrops := by
  obtain ⟨l, hk⟩ := keep_eq p ch
  rw [hk]

/-- A passage's count of late blocks, its counters kept. -/
theorem keep_late (p : Passage) (ch : Nat) : (p.keep ch).late = p.late := by
  obtain ⟨l, hk⟩ := keep_eq p ch
  rw [hk]

/-- A passage that is changed. -/
theorem tget_modPas_of {s : State} {id : Nat} {p : Passage} (hp : tget s.pas id = some p) (f : Passage → Passage) :
    tget (s.modPas id f).pas id = some (f (p.keep s.chamber)) := by
  rw [tget_modPas_self, hp, Option.map_some]

/-- A passage is changed and the place of a port taken: what stays. -/
theorem placeTaken_modPas {s t : State} {id : Nat} {p : Passage} (hp : tget s.pas id = some p) (hpas : t.pas = s.pas)
    (hch : t.chamber = s.chamber) (f : Passage → Passage) (code : Nat) (x : Place) :
    tget (placeTaken (t.modPas id f) code x).pas id = some (f (p.keep s.chamber)) ∧
    (∀ j, j ≠ id → tget (placeTaken (t.modPas id f) code x).pas j = tget s.pas j) ∧
    (placeTaken (t.modPas id f) code x).host = { t.host with rxAt := tput t.host.rxAt code x.after } ∧
    (placeTaken (t.modPas id f) code x).cnt = t.cnt ∧
    { placeTaken (t.modPas id f) code x with pas := t.pas, host := t.host } = t := by
  rw [← hpas] at hp ⊢
  rw [← hch]
  exact ⟨tget_modPas_of hp f, fun j hj => tget_modPas_ne t f hj, rfl, rfl, rfl⟩

/-- A counter follows the counters. -/
theorem ctr_congr {s t : State} (h : t.cnt = s.cnt) (u i k : Nat) : t.ctr u i k = s.ctr u i k := by rw [State.ctr, h, State.ctr]

/-- An event changes no passage. -/
theorem raise_pas (s : State) (i : Nat) (e : Ev) (src : Nat) (p : List Byte) : (s.raise i e src p).pas = s.pas := by simp

/-- As `raise_log_with`, for two states. -/
theorem raise_log_congr {s t : State} (h : { t with pas := s.pas, engs := s.engs, cnt := s.cnt, host := s.host, com := s.com } = s)
    (i : Nat) (e : Ev) (src : Nat) (p : List Byte) : (t.raise i e src p).log = (s.raise i e src p).log := by
  rw [← h]
  exact (raise_log_with t _ _ _ _ _ i e src p).symm

/-- A local fault that leaves counts as substituted, and the passage sent no block of its own; no other passage changes (R54). -/
theorem left_substituted_pas {s : State} {id : Nat} {p : Passage} (hp : tget s.pas id = some p) (b : Block) :
    ((tget (s.left id (b, none)).pas id).map fun x => (x.subst, x.blocksOut)) = some (p.subst + 1, p.blocksOut) ∧
    (∀ j, j ≠ id → tget (s.left id (b, none)).pas j = tget s.pas j) ∧
    { s.left id (b, none) with pas := s.pas } = s := by
  rw [left_substituted hp]
  obtain ⟨l, hk⟩ := keep_eq p s.chamber
  have hcut := tget_modPas_of hp fun p => p.cutAt s.mono
  rw [hk] at hcut
  obtain ⟨l', hk'⟩ := keep_eq ((({ p with snap := some (s.chamber, l) } : Passage)).cutAt s.mono) s.chamber
  refine ⟨?_, fun j hj => by rw [tget_modPas_ne _ _ hj, tget_modPas_ne _ _ hj], rfl⟩
  rw [tget_modPas_of hcut]
  refine congrArg some ?_
  rw [show (s.modPas id fun p => p.cutAt s.mono).chamber = s.chamber from rfl, hk']
  unfold Passage.cutAt
  split <;> rfl

section
variable {s : State} {a : SlotAt} (hs : s.settled) (ha : a.kind = 3) (hl : s.leafCarrier (slotEndpoint a) true = none)
  (hroom : (tgetD (s.eng a.index).tx.stage (stageKey a.sub 0xFFFF a.slot) []).length < 100)
include hs ha hl hroom

section
variable {id : Nat} {p : Passage} {r : Route} (hr : s.route a true = some r) (hsv : r.serves = some id) (hw : (swLeg r.w == 1) = false)
  (hp : tget s.pas id = some p) (hm : p.mode = 0) (hleg : p.leg = none) (hb : p.bridgeW = [])
include hr hsv hw hp hm hleg hb

/-- The oldest block that is due leaves in the passage's egress slot, its largest sampled latency kept (R54, R75, R78, R80). -/
theorem blockEgress_engine_sends {q : QBlock} (hq : p.ready.head? = some q) (hml : s.mayLeave p q = true) (he : p.endNext = false)
    (hlf : q.lf = false) (room : Bool) : ∃ t : State, exec (.blockEgress a room) s = .next t ∧
      tget t.pas id = some { (p.keep s.chamber).pop with
        endNext := false, blocksOut := p.blocksOut + 1, maxSeen := if q.first then max p.maxSeen (s.latencyOf p q) else p.maxSeen
        inPacket := insideAfter q.b p.inPacket } ∧
      tgetD (t.eng a.index).tx.stage (stageKey a.sub 0xFFFF a.slot) [] =
        tgetD (s.eng a.index).tx.stage (stageKey a.sub 0xFFFF a.slot) [] ++ [q.b.carried] ∧
      t.log = (if q.first = true ∧ p.bound < s.latencyOf p q then
        (s.raise islFab .passageBoundExceeded id (le 4 (s.latencyOf p q))).log else s.log) ∧
      (∀ j, j ≠ id → tget t.pas j = tget s.pas j) ∧ (∀ k, k ≠ a.index → t.eng k = s.eng k) ∧
      { t with pas := s.pas, engs := s.engs, cnt := s.cnt, log := s.log, com := s.com } = s := by
  have hnext := egressNext_serves ha hr hsv hw (legNext_plain hp hm hleg hb (supply_ready hp hq hml he hlf))
  obtain ⟨hsig, hself, hother, hlog⟩ := supply_left (q := q) hp
  generalize State.left _ id (q.b, some q) = u at hnext hsig hself hother hlog
  obtain ⟨hexec, hstage, heng, hframe⟩ := blockEgress_engine_stages hs ha hl hroom hnext hsig room
  obtain ⟨hpas, hulog⟩ := pas_log_of_staged hframe
  refine ⟨_, hexec, by rw [hpas, hself], hstage, hulog.trans hlog, fun j hj => by rw [hpas, hother j hj], heng, ?_⟩
  have huns := congrArg (fun v : State => { v with pas := s.pas, engs := s.engs, cnt := s.cnt, log := s.log, com := s.com }) hframe
  exact huns.trans (congrArg (fun v : State => { v with engs := s.engs, cnt := s.cnt }) hsig.1)

/-- An ACTIVE passage on a failed leg that has nothing due sends local fault and counts it (R54, R85). -/
theorem blockEgress_engine_substitutes (hst : p.st = 2) (hf : (s.faultOf p p.onProt).isSome = true) (hq : p.ready = [])
    (hdue : chLater s.chamber (s.dueAfter p p.start) = true) (room : Bool) : ∃ t : State, exec (.blockEgress a room) s = .next t ∧
      ((tget t.pas id).map fun x => (x.subst, x.blocksOut)) = some (p.subst + 1, p.blocksOut) ∧
      tgetD (t.eng a.index).tx.stage (stageKey a.sub 0xFFFF a.slot) [] =
        tgetD (s.eng a.index).tx.stage (stageKey a.sub 0xFFFF a.slot) [] ++ [Block.localFault] ∧
      (∀ j, j ≠ id → tget t.pas j = tget s.pas j) ∧ (∀ k, k ≠ a.index → t.eng k = s.eng k) ∧
      { t with pas := s.pas, engs := s.engs, cnt := s.cnt } = s := by
  have hnext := egressNext_serves ha hr hsv hw (legNext_plain hp hm hleg hb (supply_fault hp hst hq hdue hf))
  obtain ⟨hself, hother, hrest⟩ := left_substituted_pas hp Block.localFault
  have hsig : SignalOnly s (s.left id (Block.localFault, none)) := by
    rw [left_substituted hp]
    exact (signalOnly_modPas ..).trans (signalOnly_modPas ..)
  generalize s.left id (Block.localFault, none) = u at hnext hsig hself hother hrest
  obtain ⟨hexec, hstage, heng, hframe⟩ := blockEgress_engine_stages hs ha hl hroom hnext hsig room
  obtain ⟨hpas, -⟩ := pas_log_of_staged hframe
  refine ⟨_, hexec, by rw [hpas, hself], hstage.trans ?_, fun j hj => by rw [hpas, hother j hj], heng, ?_⟩
  · rw [show Block.localFault.carried = Block.localFault by decide]
  · have huns := congrArg (fun v : State => { v with pas := s.pas, engs := s.engs, cnt := s.cnt }) hframe
    exact huns.trans (congrArg (fun v : State => { v with engs := s.engs, cnt := s.cnt }) hrest)

end

/-- A slot of an engine that belongs to no passage sends fill (R53). -/
theorem blockEgress_engine_fills (hr : s.route a true = none) (hd : s.drainAt a true = none) (hw : s.rawDrain a = none) (room : Bool) :
    ∃ t : State, exec (.blockEgress a room) s = .next t ∧
      tgetD (t.eng a.index).tx.stage (stageKey a.sub 0xFFFF a.slot) [] =
        tgetD (s.eng a.index).tx.stage (stageKey a.sub 0xFFFF a.slot) [] ++ [Block.idle] ∧
      (∀ k, k ≠ a.index → t.eng k = s.eng k) ∧ { t with engs := s.engs } = s := by
  have hnext := egressNext_fill (by simp [State.zrOf, ha]) hr hd hw true
  rw [show fillOf a.kind = Block.idle by rw [ha]; decide] at hnext
  obtain ⟨hexec, hstage, heng, -⟩ := blockEgress_engine_stages hs ha hl hroom hnext (.refl s) room
  refine ⟨_, hexec, hstage.trans (by rw [show Block.idle.carried = Block.idle by decide]), heng, ?_⟩
  rw [sendOn_engine ha hl hroom, show Block.idle.replaced = false by decide]
  rfl

end

/-- A slot of a plain host port that belongs to no passage sends local fault through the port's coder (R53, R136). -/
theorem blockEgress_port_fills {s : State} {a : SlotAt} {x : Place} {o : HostPort} (hs : s.settled) (ha : a.kind = 1)
    (ho : s.port a.index = some o) (hz : s.zrOf a = none) (hx : s.txPlace a = some x) (hr : s.route (s.slotOfPlace a true x) true = none)
    (hd : s.drainAt (s.slotOfPlace a true x) true = none) (hw : s.rawDrain (s.slotOfPlace a true x) = none) (room : Bool) :
    exec (.blockEgress a room) s = .next { s.bump (0x0B00 + a.index) 0 21 1 with
      host := { s.host with
        ports := tmod s.host.ports a.index fun p => { p with pcs := p.pcs.put p.txCfg Block.localFault }
        txAt := tput s.host.txAt (s.slotCode a true) x.after } } := by
  generalize hc : s.slotOfPlace a true x = c at hr hd hw
  obtain ⟨hk, hi⟩ := slotOfPlace_port ha hc
  have hzc : s.zrOf c = none := by rw [← hz, State.zrOf, State.zrOf, hk, ha, hi]
  have hnext := egressNext_fill hzc hr hd hw true
  rw [show fillOf c.kind = Block.localFault by rw [hk]; decide] at hnext
  refine exec_blockEgress ((blockEgress_port ha hz hx hc hnext room).trans ?_) ?_
  · rw [sendOn_port hk (portOfSlot_port hk (by rw [hi, ho]; rfl)), hi, State.txTake, slotCode_port _ ha, slotCode_port _ ha]
  · exact hs

/-- A host port or client that has sent all its blocks of the chamber sends nothing (R30). -/
theorem blockEgress_noPlace {s : State} {a : SlotAt} (ha : a.kind ≤ 2) (hz : s.zrOf a = none) (hx : s.txPlace a = none) (room : Bool) :
    s.blockEgress a room = s := by
  simp [State.blockEgress, ha, hz, hx]

/-- A client without room keeps a block that is no fill (R151). -/
theorem blockEgress_noRoom {s : State} {a : SlotAt} {x : Place} (ha : a.kind = 2) (hx : s.txPlace a = some x)
    (hb : (s.egressNext (s.slotOfPlace a true x) false).2 ≠ Block.idle) : s.blockEgress a false = s := by
  have hz : s.zrOf a = none := by simp [State.zrOf, ha]
  generalize hc : s.slotOfPlace a true x = c at hb
  have hk : c.kind = 2 := by rw [← hc, slotOfPlace_kind, ha]
  simp [State.blockEgress, State.slotOut, ha, hz, hx, hc, hk, hb]

/-- Moving a selector off a failed leg makes no response. -/
theorem exec_protectSelect_moves {s : State} {id cause : Nat} {p : Passage} (hs : s.settled) (hp : tget s.pas id = some p) (hst : p.st = 2)
    (hf : s.faultOf p p.onProt = some cause) (hc : s.canSwitch p = true) :
    exec (.protectSelect id) s = .next ((s.moveLeg id (!p.onProt) cause).resignal1 id) := by
  show (s.protectSelect id).done = _
  rw [protectSelect_moves hp hst hf hc]
  exact done_of_settled ((moveLeg_resignal1 hp (!p.onProt) cause).1.settled hs)

/-- Committing a return makes no response. -/
theorem exec_protectRevert_commits {s : State} {id : Nat} {p : Passage} (hs : s.settled) (hp : tget s.pas id = some p)
    (hd : s.revertDue p = true) (hn : (s.tab.commits.any fun c => c.changes.contains (.revert id)) = false) :
    exec (.protectRevert id) s = .next (s.schedule (s.earliest false) none [] [.revert id]) := by
  show (s.protectRevert id).done = _
  rw [protectRevert_commits hp hd hn]
  exact done_of_settled hs

/-- Clearing a protect leg makes no response. -/
theorem exec_protectSkewClear_clears {s : State} {id : Nat} {x : Int} {p : Passage} (hs : s.settled) (hp : tget s.pas id = some p)
    (hu : p.unusable = true) (hx : p.skewNs = some x) (hb : x.natAbs ≤ p.skewBudget) (ht : s.since p.inBudget (10 * secQ) = true) :
    exec (.protectSkewClear id) s = .next (s.modPas id fun p => { p with unusable := false }) := by
  show (s.protectSkewClear id).done = _
  rw [protectSkewClear_clears hp hu hx hb ht]
  exact done_of_settled hs

section
variable {s : State} {a : SlotAt} {id : Nat} {p : Passage} {r : Route} (ha : a.kind = 1)
  (hr : s.route (s.slotOfPlace a false (s.rxPlace a)) false = some r) (hsv : r.serves = some id) (hw : (swLeg r.w == 1) = false)
  (hp : tget s.pas id = some p) (hst : p.st = 2) (hf : s.faultOf p false = none) (hsl : p.slipCh ≠ some s.chamber)
  (hs : s.settled) (hz : s.zrOf a = none)
include ha hr hsv hw hp hst hf hsl hs hz

/-- What a data block at a port that is up writes, where its passage's buffer has room: the passage, the port and the count. -/
theorem blockIngress_port_joins_writes {b : Block} {o : HostPort} (ho : s.port a.index = some o) (hu : o.up = true) (hb : b.isData = true)
    (hroom : p.queue.length < p.capacity) : ∃ t : State, exec (.blockIngress a (.block b false)) s = .next t ∧
      tget t.pas id = some ((p.keep s.chamber).takeIn false b s.chamber s.chamber (some (s.rxPlace a)) s.now) ∧
      t.host.rxAt = tput s.host.rxAt (s.slotCode a false) (s.rxPlace a).after ∧
      t.ctr (0x0B00 + a.index) 0 20 = s.ctr (0x0B00 + a.index) 0 20 + 1 ∧ (∀ j, j ≠ id → tget t.pas j = tget s.pas j) ∧
      (∀ k, k ≠ a.index → t.port k = s.port k) ∧ { t with pas := s.pas, cnt := s.cnt, host := s.host } = s := by
  refine ⟨_, blockIngress_port_joins ha hr hsv hw hp hst hf hsl hs hz ho hu hb hroom, ?_⟩
  obtain ⟨hpas, hch, hrx, hctr, hports, hrest⟩ := portReceived_facts s a.index (frameStep o.rxBytes b).1
  generalize portReceived s a.index (frameStep o.rxBytes b).1 = t at *
  obtain ⟨hself, hother, hhost, hcnt, hback⟩ := placeTaken_modPas hp hpas hch
    (fun p => p.takeIn false b s.chamber s.chamber (some (s.rxPlace a)) s.now) (s.slotCode a false) (s.rxPlace a)
  generalize placeTaken _ _ _ = u at *
  refine ⟨hself, by rw [hhost, hrx], (ctr_congr hcnt ..).trans hctr, hother, fun k hk => ?_, ?_⟩
  · rw [← hports k hk, State.port, State.port, hhost]
  · exact (congrArg (fun v : State => { v with pas := s.pas, cnt := s.cnt, host := s.host }) hback).trans
      ((congrArg (fun l => { t with pas := l, cnt := s.cnt, host := s.host }) hpas.symm).trans hrest)

/-- What a data block at a port that is up writes, where its passage's buffer is full: the passage's drops, the event and the count. -/
theorem blockIngress_port_full_writes {b : Block} {o : HostPort} (ho : s.port a.index = some o) (hu : o.up = true) (hb : b.isData = true)
    (hfull : p.capacity ≤ p.queue.length) : ∃ t : State, exec (.blockIngress a (.block b false)) s = .next t ∧
      tget t.pas id = some { p.keep s.chamber with adaptDrops := p.adaptDrops + 1 } ∧ t.host.rxAt = s.host.rxAt ∧
      t.log = (s.raise islHost .passageAdaptSlip id (le 1 1)).log ∧ t.ctr (0x0B00 + a.index) 0 20 = s.ctr (0x0B00 + a.index) 0 20 + 1 ∧
      (∀ j, j ≠ id → tget t.pas j = tget s.pas j) ∧ t.engs = s.engs ∧ t.tab = s.tab ∧ t.mem = s.mem := by
  refine ⟨_, blockIngress_port_full ha hr hsv hw hp hst hf hsl hs hz ho hu hb hfull, ?_⟩
  obtain ⟨hpas, hch, hrx, hctr, -, hrest⟩ := portReceived_facts s a.index (frameStep o.rxBytes b).1
  generalize portReceived s a.index (frameStep o.rxBytes b).1 = t at *
  have hlog := raise_log_congr (s := s) (t := t.modPas id fun p => { p with adaptDrops := p.adaptDrops + 1 })
    (congrArg (fun v : State => { v with pas := s.pas, engs := s.engs, com := s.com }) hrest) islHost .passageAdaptSlip id (le 1 1)
  have hself := tget_modPas_of (s := t) (hpas ▸ hp) fun p => { p with adaptDrops := p.adaptDrops + 1 }
  rw [hch, keep_adaptDrops] at hself
  refine ⟨by rw [raise_pas, hself], by simpa using hrx, hlog, ?_, fun j hj => ?_, ?_, ?_, ?_⟩
  · exact (ctr_congr (by simp) ..).trans hctr
  · rw [raise_pas, tget_modPas_ne _ _ hj, hpas]
  · simpa using congrArg State.engs hrest
  · simpa using congrArg State.tab hrest
  · simpa using congrArg State.mem hrest

/-- What a block at a port that is down writes, where its passage's buffer has room: local fault in the passage, the place and the count. -/
theorem blockIngress_portDown_joins_writes (ho : (s.port a.index).isSome = true) (hd : s.ingressDown a = true)
    (hroom : p.queue.length < p.capacity) (b : Block) (bad : Bool) : ∃ t : State, exec (.blockIngress a (.block b bad)) s = .next t ∧
      tget t.pas id = some ((p.keep s.chamber).takeIn false Block.localFault s.chamber s.chamber (some (s.rxPlace a)) s.now) ∧
      t.host = { s.host with rxAt := tput s.host.rxAt (s.slotCode a false) (s.rxPlace a).after } ∧
      t.ctr (0x0B00 + a.index) 0 23 = s.ctr (0x0B00 + a.index) 0 23 + 1 ∧ (∀ j, j ≠ id → tget t.pas j = tget s.pas j) ∧
      { t with pas := s.pas, cnt := s.cnt, host := s.host } = s := by
  refine ⟨_, blockIngress_portDown_joins ha hr hsv hw hp hst hf hsl hs hz ho hd hroom b bad, ?_⟩
  obtain ⟨hself, hother, hhost, hcnt, hback⟩ := placeTaken_modPas (t := s.bump (0x0B00 + a.index) 0 23 1) hp rfl rfl
    (fun p => p.takeIn false Block.localFault s.chamber s.chamber (some (s.rxPlace a)) s.now) (s.slotCode a false) (s.rxPlace a)
  generalize placeTaken _ _ _ = u at *
  refine ⟨hself, hhost, (ctr_congr hcnt ..).trans (ctr_bump_self ..), hother, ?_⟩
  exact congrArg (fun v : State => { v with cnt := s.cnt }) hback

end

/-- Settles O42, row by row: what a block meets at its slot, what an egress slot sends, what moves a selector. -/
theorem blockAndProtectRowsComplete : Obligations.BlockAndProtectRowsComplete := by
  unfold Obligations.BlockAndProtectRowsComplete
  refine ⟨?_, ?_, ?_, ?_, ?_, ?_, ?_, ?_, ?_, ?_, ?_, ?_, ?_, ?_, ?_, ?_, ?_⟩
  · intro s a b bad id p r prot hs ha hr hsv hprot hp hst hf hsl hroom
    exact ⟨_, blockIngress_engine_joins hs ha hr hsv hprot hp hst hf hsl hroom, tget_modPas_of hp _, fun j hj => tget_modPas_ne _ _ hj, rfl⟩
  · rintro s a b x id p r o hs ha ho hu hz hb rfl hr hsv hw hp hst hf hsl hroom
    exact blockIngress_port_joins_writes ha hr hsv hw hp hst hf hsl hs hz ho hu hb hroom
  · intro s a b id p r o hs ha ho hu hz hb hr hsv hw hp hst hf hsl hfull
    exact blockIngress_port_full_writes ha hr hsv hw hp hst hf hsl hs hz ho hu hb hfull
  · rintro s a b bad x id p r hs ha hd hz rfl hr hsv hw hp hst hf hsl hroom ho
    exact blockIngress_portDown_joins_writes ha hr hsv hw hp hst hf hsl hs hz ho hd hroom b bad
  · rintro s u a pam sent o r hs ha ho hu hpl rfl rfl
    exact blockIngress_fec hs ha ho hu hpl pam sent
  · intro s a b bad id p prot hs ha hr hd hp
    refine ⟨_, blockIngress_engine_drains hs ha hr hd b bad, ?_, fun j hj => tget_modPas_ne _ _ hj, rfl⟩
    rw [tget_modPas_of hp, keep_late]
  · intro s a b bad hs ha hr hd hb
    exact ⟨_, blockIngress_engine_unassigned hs ha hr hd hb, ctr_bump_self .., rfl⟩
  · intro s a room id p r q hs ha hl hr hsv hp _ hm hleg _ hq hml he hlf hw hb hroom
    exact blockEgress_engine_sends hs ha hl hroom hr hsv hw hp hm hleg hb hq hml he hlf room
  · intro s a room id p r hs ha hl hr hsv hp hst hm hleg hf hq hdue hb hw hroom
    exact blockEgress_engine_substitutes hs ha hl hroom hr hsv hw hp hm hleg hb hst hf hq hdue room
  · intro s a room hs ha hl hr hd hw hroom
    exact blockEgress_engine_fills hs ha hl hroom hr hd hw room
  · rintro s a c room x o hs ha ho hz hx rfl hr hd hw
    refine ⟨_, blockEgress_port_fills hs ha ho hz hx hr hd hw room, ?_, rfl, ctr_bump_self .., fun k hk => ?_, rfl⟩
    · simp [State.port, show tget s.host.ports a.index = some o from ho]
    · simp [State.port, tget_tmod_ne _ _ hk]
  · intro s a room hs ha hz hx
    exact exec_blockEgress (blockEgress_noPlace (by omega) hz hx room) hs
  · intro s a x hs ha hx hb
    exact exec_blockEgress (blockEgress_noRoom ha hx hb) hs
  · intro s id cause p hs hp hst hf hc
    obtain ⟨hsig, hon, hother⟩ := moveLeg_resignal1 hp (!p.onProt) cause
    exact ⟨_, exec_protectSelect_moves hs hp hst hf hc, hon, hother, hsig.1⟩
  · rintro s id lead p hs hp hd hn rfl
    exact ⟨_, exec_protectRevert_commits hs hp hd hn, schedule_has _ _ _ _ _ (List.mem_singleton_self _), rfl, rfl⟩
  · intro s id c rest p hs hcs hr hpa hst hb hch hp hd
    obtain ⟨hon, hgen, hcom, hmem, hhost, hrel⟩ := tableSwap_reverts hcs hr hpa hst hb hch hp hd
    exact ⟨_, done_of_settled (hrel.trans hs), hon, hgen, hcom, hmem, hhost⟩
  · intro s id x p hs hp hu hx hb ht
    exact ⟨_, exec_protectSkewClear_clears hs hp hu hx hb ht, tget_modPas_of hp _, fun j hj => tget_modPas_ne _ _ hj, rfl⟩

end Sys2Proof.Proofs
end

section
/-!
SUPPORT. A raw line aimed at a unit that is dark only through its island's power state: TABLE_WRITE names that unit (R15, R16).
-/
namespace Sys2Proof.Proofs
open Sys2Proof Sys2Proof.Machine Sys2Proof.Laws

/-- The raw edits held for a chamber in the state that a step leaves. -/
def editsAfter (o : Host.Outcome State Fault Refusal) (cc : Nat) : List (Nat × RawOp) :=
  match o with | .next t => t.editsAt cc | _ => []

/-- An answer leaves the edits as they were. -/
theorem editsAfter_answer {o : Host.Outcome State Fault Refusal} {u : State} {op : Nat} {q : Request} {p : List Byte} (cc : Nat)
    (h : o = .next (u.answer op q p)) : editsAfter o cc = u.editsAt cc := by
  subst h
  simp [editsAfter, State.editsAt]

/-- The island of engine 3 is OFF; the engine is fitted. -/
def engine3Off : State :=
  { servingDevice with power := { servingDevice.power with
      islands := tput servingDevice.power.islands (islEng 3) { st := .off, inReset := true } } }

/-- A raw NOP line aimed at the first unit of engine 3. -/
def lineAtEngine3 : StepWord := stepWord 0 (engUnit 3 0) 0 noSlot 0xF 0 1 0

/-- TABLE_WRITE OP 1 of that line, at the front of the raw region of engine 3's island, for chamber 78 125 200. -/
def writeAtEngine3 : Request :=
  ringRequest (le 1 (islEng 3) ++ [1] ++ le 2 1 ++ le 4 0 ++ le 8 78125200 ++ le 16 lineAtEngine3.toNat)

/-- The device refuses the line, which names a dark unit (R15), and holds no edit. -/
theorem engine3Off_holdsNoEdit : editsAfter (exec (.tableWrite writeAtEngine3) engine3Off) 78125200 = [] := by
  decide +kernel

/-- Refutes O11: a raw line aimed at a fitted engine whose island is OFF passes every condition that the statement makes on TABLE_WRITE,
which asks only that the units be present, but it names a dark unit (R15), and the edit is not added. -/
theorem not_tableCommandsComplete : ¬ Obligations.TableCommandsComplete := by
  unfold Obligations.TableCommandsComplete
  rintro ⟨h, -, -⟩
  have hwrite := h engine3Off writeAtEngine3 (islEng 3) 1 0 78125200
  iterate 21 specialize hwrite (by decide +kernel)
  obtain ⟨u, hx, hedit, -⟩ := hwrite
  have hheld := hedit (by decide +kernel)
  rw [← editsAfter_answer 78125200 hx, engine3Off_holdsNoEdit] at hheld
  exact absurd hheld List.not_mem_nil

end Sys2Proof.Proofs
end

section
/-!
SUPPORT. A swap whose commit carries no change of the firmware's (R113, R117, R119): what it writes, and what it leaves.
-/
namespace Sys2Proof.Proofs
open Sys2Proof Sys2Proof.Machine Sys2Proof.Laws

/-- `t` is what the swap of `c` makes of `s`: the tables, the generation, and what stays, with the same responses waiting. -/
structure Swapped (s : State) (c : Commit) (rest : List Commit) (t : State) : Prop where
  generation : t.generation = (s.generation + 1) % 2 ^ 32
  banks : t.tab.banks = s.applyCommit s.tab.banks c
  commits : t.tab.commits = rest
  copying : t.tab.copying = some c.cc
  image : t.tab.image = s.tab.banks
  onB : t.tab.onB = !s.tab.onB
  mem : t.mem = s.mem
  host : t.host = s.host
  tim : t.tim = s.tim
  power : t.power = s.power
  now : t.now = s.now
  relayed : t.com.relayed = s.com.relayed

/-- What changes of engines leave: the state but for engines, counters, log and command interface. -/
theorem EngineOnly.eq {s t : State} (h : EngineOnly s t) : t = { s with engs := t.engs, cnt := t.cnt, log := t.log, com := t.com } :=
  congrArg (fun v : State => { v with engs := t.engs, cnt := t.cnt, log := t.log, com := t.com }) h.1

/-- Changes of engines keep a swap. -/
theorem Swapped.engine {s t u : State} {c : Commit} {rest : List Commit} (h : Swapped s c rest t) (hu : EngineOnly t u) :
    Swapped s c rest u := by
  rw [hu.eq]
  exact { h with relayed := hu.2.trans h.relayed }

/-- Signals keep a swap. -/
theorem Swapped.signal {s t u : State} {c : Commit} {rest : List Commit} (h : Swapped s c rest t) (hu : SignalOnly t u) :
    Swapped s c rest u := by
  rw [hu.eq]
  exact { h with relayed := hu.2.trans h.relayed }

/-- The raw flows keep a swap. -/
theorem Swapped.raws {s t : State} {c : Commit} {rest : List Commit} (h : Swapped s c rest t) (cc : Nat) :
    Swapped s c rest (followRaws t cc) :=
  { h with }

/-- The first moment of a swap. -/
theorem swapStart_swapped (s : State) (c : Commit) (rest : List Commit) : Swapped s c rest (swapStart s c rest) := by
  constructor <;> simp [swapStart]

/-- The rest of a swap: engines load, and the raw flows follow. -/
theorem swapEnd_swapped {s t : State} {c : Commit} {rest : List Commit} (h : Swapped s c rest t) (old : Tab Bank) (cc : Nat) :
    Swapped s c rest (swapEnd t old cc) :=
  (h.engine (engineOnly_loadEngines (List.range 8) old t)).raws cc

/-- The engine of a paired commit notes its swap. -/
def notePaired (s : State) (c : Commit) : State :=
  match c.paired with
  | some p => s.modTx p.engine fun t => { t with paired := some c.cc }
  | none => s

/-- That note is the engine's alone. -/
theorem engineOnly_notePaired (s : State) (c : Commit) : EngineOnly s (notePaired s c) := by
  unfold notePaired
  split
  · exact .modTx ..
  · exact .refl s

/-- The engine of a paired commit holds the chamber of its swap. -/
theorem notePaired_eng {c : Commit} {p : Paired} (s : State) (h : c.paired = some p) :
    ((notePaired s c).eng p.engine).tx.paired = some c.cc := by
  simp [notePaired, h, State.eng]

/-- The swap of a commit without changes of the firmware's. -/
theorem swapNow_plain {s : State} {c : Commit} (hc : c.changes = []) (rest : List Commit) :
    s.swapNow c rest = notePaired (swapEnd (swapStart s c rest) s.tab.banks c.cc) c := by
  cases hp : c.paired <;> simp only [State.swapNow, notePaired, hc, hp, List.foldl_nil, swapEnd, followRaws, loadEngines, swapStart]

/-- A commit at the head of the schedule that is staged, and armed by the far end where it is paired, swaps at its chamber (R117, R120). -/
theorem tableSwap_swaps {s : State} {c : Commit} {rest : List Commit} (hcs : s.tab.commits = c :: rest)
    (hr : chReached s.chamber c.cc = true) (hsw : c.swaps = true) : s.tableSwap = (s.swapNow c rest).resignal := by
  cases hp : c.paired <;> simp [State.tableSwap, hcs, hr, hp, hsw]

/-- TABLE_SWAP of a commit without changes of the firmware's: the swap, and the note in the engine of a paired commit. -/
theorem tableSwap_plain {s : State} {c : Commit} {rest : List Commit} (hcs : s.tab.commits = c :: rest)
    (hr : chReached s.chamber c.cc = true) (hsw : c.swaps = true) (hc : c.changes = []) :
    Swapped s c rest s.tableSwap ∧
    ∀ p, c.paired = some p → (s.tableSwap.eng p.engine).tx.paired = some c.cc := by
  rw [tableSwap_swaps hcs hr hsw, swapNow_plain hc]
  have hend := swapEnd_swapped (swapStart_swapped s c rest) s.tab.banks c.cc
  generalize swapEnd (swapStart s c rest) s.tab.banks c.cc = t at hend
  have hsig := (resignal_onProt (notePaired t c)).1
  refine ⟨(hend.engine (engineOnly_notePaired t c)).signal hsig, fun p hp => ?_⟩
  rw [State.eng, hsig.engs]
  exact notePaired_eng t hp

/-- The step ends with the swapped state. -/
theorem exec_tableSwap {s : State} {c : Commit} {rest : List Commit} (hs : s.settled) (h : Swapped s c rest s.tableSwap) :
    exec .tableSwap s = .next s.tableSwap := done_of_settled (h.relayed.trans hs)

end Sys2Proof.Proofs
end

section
/-!
SUPPORT. Paired commits decided, commits staged, timed steps issued and banks copied (R92, R94, R118 to R120).
-/
namespace Sys2Proof.Proofs
open Sys2Proof Sys2Proof.Machine Sys2Proof.Laws

/-- What an event adds to the log does not depend on the tables. -/
theorem raise_log_with_tab (s : State) (tab : Tables) (i : Nat) (e : Ev) (src : Nat) (p : List Byte) :
    (({ s with tab := tab } : State).raise i e src p).log = (s.raise i e src p).log := by
  have hset : ∀ u : State, (u.setInt 0 3).log = u.log := fun u => by simp
  simp only [State.raise, State.raiseAt, State.recordAt, apply_ite State.log, hset, ite_self]
  rfl

/-- PAIRED_COMMIT_DECIDE leaves a commit that swaps standing (R120). -/
theorem pairedDecide_stands {s : State} {c : Commit} {p : Paired}
    (hf : s.tab.commits.find? (fun c => c.paired.isSome && chReached s.chamber (chSub c.cc 2)) = some c) (hp : c.paired = some p)
    (hsw : c.swaps = true) : s.pairedDecide = s := by
  simp [State.pairedDecide, hf, hp, hsw]

/-- PAIRED_COMMIT_DECIDE drops a commit that does not swap (R120). -/
theorem pairedDecide_drops {s : State} {c : Commit} {p : Paired}
    (hf : s.tab.commits.find? (fun c => c.paired.isSome && chReached s.chamber (chSub c.cc 2)) = some c) (hp : c.paired = some p)
    (hsw : c.swaps = false) : s.pairedDecide = s.abortPaired c p := by
  simp [State.pairedDecide, hf, hp, hsw]

/-- The tables once a commit was dropped: the image bank is the active one (R120). -/
def droppedTables (s : State) (c : Commit) : Tables :=
  { s.tab with commits := s.tab.commits.filter fun x => x.cc != c.cc, image := s.tab.banks }

/-- A commit without firmware changes and without a first use that the far end has not armed: the drop is reported with cause 1. -/
theorem abortPaired_unarmed {s : State} {c : Commit} {p : Paired} (ha : p.farArm = false) (hc : c.changes = [])
    (hu : (s.eng p.engine).rx.useCc = none) :
    s.abortPaired c p = ({ s with tab := droppedTables s c } : State).raise (islEng p.engine) .tableCommitAborted (islEng p.engine)
      (le 6 c.cc ++ le 1 1) := by
  simp only [State.abortPaired, hc, ha, List.foldl_nil, Bool.false_eq_true, if_false, droppedTables]
  have heng : ∀ u : State, u.engs = s.engs → (u.eng p.engine).rx.useCc ≠ some c.cc := fun u h => by
    rw [State.eng, h, show (tgetD s.engs p.engine {}).rx.useCc = none from hu]
    exact (Option.some_ne_none _).symm
  exact if_neg (heng _ (by simp))

/-- COMMIT_STAGING without an error marks the commit, and the image bank holds its image (R117). -/
theorem commitStaging_marks {s : State} {c : Commit}
    (hf : s.tab.commits.find? (fun c => !c.staged && decide (3 ≤ chAhead c.cc s.chamber) && decide (chAhead c.cc s.chamber ≤ 48)) = some c) :
    s.commitStaging none = { s with tab := { s.tab with
      image := s.imageAt c.cc
      commits := s.tab.commits.map fun x => if x.cc = c.cc then { x with staged := true, bad := false } else x } } := by
  simp only [State.commitStaging, hf]

/-- With empty banks and no commit no timed step stands anywhere. -/
theorem timedWords_of_empty {s : State} (hb : s.tab.banks = []) (hc : s.tab.commits = []) (isl ch : Nat) : s.timedWords isl ch = [] := by
  simp [State.timedWords, State.banksIn, hb, hc, tgetD, Bank.words]

/-- TIMED_STEP_ISSUE with empty banks notes the chamber, and nothing else. -/
theorem timedStepIssue_empty {s : State} (hi : s.tab.issued ≠ some (chAdd s.chamber 1)) (hb : s.tab.banks = []) (hc : s.tab.commits = []) :
    s.timedStepIssue [] = { s with tab := { s.tab with issued := some (chAdd s.chamber 1), skipped := [] } } := by
  simp only [State.timedStepIssue, if_neg hi, List.filterMap_nil, List.map_nil, List.foldl_nil, List.isEmpty_nil, if_true]
  simp [timedWords_of_empty, hb, hc]

/-- `t` is `s` with the steps of chamber `ch` issued: banks, engines, passages, memory contents, time and generation are those of `s`, and the
same responses wait. -/
structure StepsIssued (s : State) (ch : Nat) (t : State) : Prop where
  issued : t.tab.issued = some ch
  banks : t.tab.banks = s.tab.banks
  engs : t.engs = s.engs
  pas : t.pas = s.pas
  insts : t.mem.insts = s.mem.insts
  now : t.now = s.now
  generation : t.generation = s.generation
  relayed : t.com.relayed = s.com.relayed

/-- A choice between two such states is one. -/
theorem StepsIssued.ite {s t u : State} {ch : Nat} (c : Prop) [Decidable c] (ht : StepsIssued s ch t) (hu : StepsIssued s ch u) :
    StepsIssued s ch (if c then t else u) := by
  split
  · exact ht
  · exact hu

/-- An event keeps that. -/
theorem StepsIssued.raise {s t : State} {ch : Nat} (h : StepsIssued s ch t) (i : Nat) (e : Ev) (src : Nat) (p : List Byte) :
    StepsIssued s ch (t.raise i e src p) := by
  constructor <;> simp [h.issued, h.banks, h.engs, h.pas, h.insts, h.now, h.generation, h.relayed]

/-- A commit of the firmware's keeps that. -/
theorem StepsIssued.schedule {s t : State} {ch : Nat} (h : StepsIssued s ch t) (cc : Nat) (p : Option Paired) (r : List (Nat × RawOp))
    (x : List FwChange) : StepsIssued s ch (t.schedule cc p r x) :=
  ⟨h.issued, h.banks, h.engs, h.pas, h.insts, h.now, h.generation, h.relayed⟩

/-- MARK steps to come keep that. -/
theorem StepsIssued.marks {s t : State} {ch : Nat} (h : StepsIssued s ch t) (ms : List (Nat × Nat × Nat)) :
    StepsIssued s ch { t with tab := { t.tab with marks := ms } } :=
  ⟨h.issued, h.banks, h.engs, h.pas, h.insts, h.now, h.generation, h.relayed⟩

/-- The share of the scrubbers keeps that. -/
theorem StepsIssued.gate {s t : State} {ch : Nat} (h : StepsIssued s ch t) (g : Option (Nat × Nat)) :
    StepsIssued s ch { t with mem := { t.mem with gate := g } } :=
  ⟨h.issued, h.banks, h.engs, h.pas, h.insts, h.now, h.generation, h.relayed⟩

/-- TIMED_STEP_ISSUE issues the steps of the next chamber: what it reports and schedules keeps the rest (R92, R119). -/
theorem timedStepIssue_issues {s : State} (hi : s.tab.issued ≠ some (chAdd s.chamber 1)) (errs : List (Nat × Nat × Nat)) :
    StepsIssued s (chAdd s.chamber 1) (s.timedStepIssue errs) := by
  unfold State.timedStepIssue
  extract_lets ch hit _ noted raised rebuilt marks _ marked _
  rw [if_neg hi]
  have hraised : StepsIssued s ch raised :=
    foldl_keeps (StepsIssued s ch) _ (fun _ _ h => h.raise ..) hit noted ⟨rfl, rfl, rfl, rfl, rfl, rfl, rfl, rfl⟩
  have hrebuilt : StepsIssued s ch rebuilt := .ite _ hraised (hraised.schedule ..)
  have hmarked : StepsIssued s ch marked := hrebuilt.marks _
  clear_value marked
  split
  · exact hmarked.gate _
  · exact hmarked

/-- IMAGE_BANK_COPY ends the copy where no command waits for it (R94). -/
theorem bankCopied_ends {s : State} {cc : Nat} (hc : s.tab.copying = some cc) (hr : s.com.received = [])
    (run : State → Nat → Request → State) :
    s.bankCopied run = { s with tab := { s.tab with copying := none, image := s.tab.banks } } := by
  simp [State.bankCopied, hc, hr]

end Sys2Proof.Proofs
end

section
/-!
SUPPORT. PASSAGE_FREE at the chamber at which a closed passage is free (R75, R384, R711).
-/
namespace Sys2Proof.Proofs
open Sys2Proof Sys2Proof.Machine Sys2Proof.Laws

/-- `t` is `s` but for the cipher. -/
def CipherOnly (s t : State) : Prop := { t with cip := s.cip } = s

/-- What such a change leaves: the state but for the cipher. -/
theorem CipherOnly.eq {s t : State} (h : CipherOnly s t) : t = { s with cip := t.cip } :=
  congrArg (fun v : State => { v with cip := t.cip }) (show ({ t with cip := s.cip } : State) = s from h)

/-- A change of the cipher. -/
theorem CipherOnly.modCip {s t : State} (h : CipherOnly s t) (f : Cipher → Cipher) : CipherOnly s (t.modCip f) :=
  h

/-- Freeing a passage's key slots changes the cipher alone (R384). -/
theorem cipherOnly_freeKey (s : State) (id : Nat) : CipherOnly s (s.freeKey id) := by
  have hslots : ∀ l : List Nat, CipherOnly s (l.foldl (fun (u : State) k => u.keyTo k .loaded) s) := fun l =>
    foldl_keeps (CipherOnly s) (fun (u : State) k => u.keyTo k .loaded) (fun _ _ h => h.modCip _) l s rfl
  unfold State.freeKey
  split
  · split
    · refine .modCip ?_ _
      split
      · exact (hslots _).modCip _
      · exact hslots _
    · rfl
  · rfl

/-- `t` is `s` once passage `id` is gone and `log` written, but for the cipher, the command interface and the scheduled commits, with the same
responses and revocations waiting. -/
structure PassageGone (s : State) (id : Nat) (log : Log) (t : State) : Prop where
  pas : t.pas = tdel s.pas id
  log : t.log = log
  banks : t.tab.banks = s.tab.banks
  engs : t.engs = s.engs
  mem : t.mem = s.mem
  host : t.host = s.host
  relayed : t.com.relayed = s.com.relayed
  revoking : t.com.revoking = s.com.revoking

/-- A passage that drained is gone at its free chamber, and its closing reported (R75). -/
theorem passageFree_gone {s : State} {id f : Nat} {p : Passage} (hp : tget s.pas id = some p) (hst : p.st = 3) (hf : p.free = some f)
    (hr : chReached s.chamber f = true) :
    PassageGone s id (s.raise islFab .passageClosed id (le 1 p.reason ++ le 4 (satN 4 p.late))).log (s.passageFree id) := by
  simp only [State.passageFree, hp, hst, hf, hr, beq_self_eq_true, Bool.and_self, if_true]
  rw [(cipherOnly_freeKey (s.raise islFab .passageClosed id (le 1 p.reason ++ le 4 (satN 4 p.late))) id).eq]
  constructor <;> simp [State.unschedule]

/-- Where no tenant is being revoked no keys go. -/
theorem revokeCheck_idle {s : State} (h : s.com.revoking = []) : s.revokeCheck = s := by
  simp only [State.revokeCheck, h, List.filter_nil, List.foldl_nil]
  rw [← h]

end Sys2Proof.Proofs
end

section
/-!
The rows of commits, timed steps and freed passages, together (O38).
-/
namespace Sys2Proof.Proofs
open Sys2Proof Sys2Proof.Machine Sys2Proof.Laws

/-- PAIRED_COMMIT_DECIDE without the far end's arm: the commit is dropped and reported with cause 1, and nothing swaps (R120). -/
theorem exec_pairedCommitDecide_unarmed {s : State} {c : Commit} {p : Paired} (hs : s.settled)
    (hf : s.tab.commits.find? (fun c => c.paired.isSome && chReached s.chamber (chSub c.cc 2)) = some c) (hp : c.paired = some p)
    (ha : p.farArm = false) (hc : c.changes = []) (hu : (s.eng p.engine).rx.useCc = none) :
    ∃ t : State, exec .pairedCommitDecide s = .next t ∧ t.tab = droppedTables s c ∧
      t.log = (s.raise (islEng p.engine) .tableCommitAborted (islEng p.engine) (le 6 c.cc ++ le 1 1)).log ∧
      { t with tab := s.tab, log := s.log, com := s.com } = s := by
  have hsw : c.swaps = false := by simp [Commit.swaps, hp, ha]
  have hdrop := (pairedDecide_drops hf hp hsw).trans (abortPaired_unarmed ha hc hu)
  refine ⟨_, ?_, ?_, raise_log_with_tab s (droppedTables s c) .., ?_⟩
  · show s.pairedDecide.done = _
    rw [hdrop]
    exact done_of_settled (by simpa [State.settled] using hs)
  · simp
  · exact congrArg (fun v : State => { v with tab := s.tab })
      (recordAt_logAndWatermarkOnly ({ s with tab := droppedTables s c } : State) ..).1

/-- Settles O38, row by row: what a swap, a decision, staging, an issue, a copy and a freed passage write. -/
theorem commitRowsComplete : Obligations.CommitRowsComplete := by
  unfold Obligations.CommitRowsComplete
  refine ⟨?plain, ?paired, ?decided, ?dropped, ?staged, ?issuedEmpty, ?issued, ?copied, ?freed⟩
  case plain =>
    intro s c rest hs hcs hr hp hst hb hc
    obtain ⟨hsw, -⟩ := tableSwap_plain hcs hr (by simp [Commit.swaps, hp, hst, hb]) hc
    exact ⟨_, exec_tableSwap hs hsw, hsw.generation, hsw.banks, hsw.commits, hsw.copying, hsw.image, hsw.onB, hsw.mem, hsw.host,
      hsw.tim, hsw.power, hsw.now⟩
  case paired =>
    intro s c rest p hs hcs hr hp ha hst hb hc _
    obtain ⟨hsw, heng⟩ := tableSwap_plain hcs hr (by simp [Commit.swaps, hp, ha, hst, hb]) hc
    exact ⟨_, exec_tableSwap hs hsw, hsw.generation, hsw.banks, hsw.commits, hsw.copying, hsw.image, hsw.onB, heng p hp, hsw.mem,
      hsw.host, hsw.now⟩
  case decided =>
    intro s c p hs hf hp ha hst hb
    show s.pairedDecide.done = _
    rw [pairedDecide_stands hf hp (by simp [Commit.swaps, hp, ha, hst, hb]), done_of_settled hs]
  case dropped =>
    intro s c p
    exact exec_pairedCommitDecide_unarmed
  case staged =>
    intro s c hs hf
    exact ⟨_, (congrArg State.done (commitStaging_marks hf)).trans (done_of_settled hs), rfl, rfl, rfl, rfl⟩
  case issuedEmpty =>
    rintro s ch hs rfl hi hb hc
    show (s.timedStepIssue []).done = _
    rw [timedStepIssue_empty hi hb hc]
    exact done_of_settled hs
  case issued =>
    intro s errs hs hi
    have h := timedStepIssue_issues hi errs
    exact ⟨_, done_of_settled (h.relayed.trans hs), h.issued, h.banks, h.engs, h.pas, h.insts, h.now, h.generation⟩
  case copied =>
    intro s cc hs hc hr
    show (s.bankCopied State.execute).done = _
    rw [bankCopied_ends hc hr]
    exact done_of_settled hs
  case freed =>
    intro s id f p hs hp hst hf hr hrev
    have h := passageFree_gone hp hst hf hr
    refine ⟨s.passageFree id, ?_, ?_, fun k hk => ?_, h.log, h.banks, h.engs, h.mem, h.host⟩
    · show (s.passageFree id).revokeCheck.done = _
      rw [revokeCheck_idle (h.revoking.trans hrev)]
      exact done_of_settled (h.relayed.trans hs)
    · rw [h.pas, tget_tdel_self]
    · rw [h.pas, tget_tdel_ne _ hk]

end Sys2Proof.Proofs
end

section
/-!
What the loss of frame lock leaves of an engine's two-way timing input (R195, Table 11.3): LINE_FRAME_RECEIVE writes the timing too (O39).
-/
namespace Sys2Proof.Proofs
open Sys2Proof Sys2Proof.Machine

/-- The timing inputs whose signal is present in the state that a step leaves. -/
def presentAfter (o : Host.Outcome State Fault Refusal) : List Nat :=
  match o with | .next t => t.tim.present | _ => []

/-- Engine 0 is in service and in frame lock. Its two-way input is present, and the last marker was bad. -/
def oneBadMarker : State :=
  { servingDevice with
    engs := [(0, {
      cfg := { configured := true, mode := 1, code := 2, subs := 1, symRate := 600, rollMax := 10, roll := 10, hStart := 64 }
      tx := { enabled := true, prof := [64], permit := true }
      rx := { los := false, lock := true, prof := [64], frame := true, farEpoch := some 0, expect := some (78125000, 0), badRun := 1 } })]
    tim := { servingDevice.tim with present := [32] } }

/-- A frame at the expected place whose marker is not MARK: the second bad one in a row (cause 1 of Table 5.7). -/
def frameWithoutMark : LineFrame := {}

/-- The frame lock is lost, and with it the signal of the two-way input (Table 11.3). -/
theorem oneBadMarker_losesTwoWayInput : presentAfter (exec (.lineFrameReceive 0 frameWithoutMark) oneBadMarker) = [] := by
  decide +kernel

/-- Refutes O39: the second bad marker in a row ends frame lock, and with it the signal of the engine's two-way timing input is lost (R195,
Table 11.3), so where that input was present the timing is not left as it was. -/
theorem not_lineRowsComplete : ¬ Obligations.LineRowsComplete := by
  unfold Obligations.LineRowsComplete
  rintro ⟨-, -, hbad, -⟩
  have hlost := hbad oneBadMarker 0 1 frameWithoutMark
  iterate 9 specialize hlost (by decide +kernel)
  obtain ⟨t, hx, -, -, -, -, -, -, -, -, -, -, htim⟩ := hlost
  have hpresent := oneBadMarker_losesTwoWayInput
  rw [hx, presentAfter, htim] at hpresent
  exact absurd hpresent (by decide)

end Sys2Proof.Proofs
end

section
/-!
SUPPORT. Engines on their way: a laser that a carrier-up to come keeps on (R232), a disabled engine whose carrier still goes down (R215, R217),
a leaf that needs a longer lead (R297). Each is a state in which a statement about engines does not hold.
-/
namespace Sys2Proof.Proofs
open Sys2Proof Sys2Proof.Machine Sys2Proof.Laws

/-- An engine but for the messages that wait for its management channel. -/
def unqueued (e : Engine) : Engine := { e with tx := { e.tx with mgmtQ := [] } }

/-- A message for an engine's management channel changes what waits there alone. -/
theorem queueMgmt_unqueued (s : State) (m n : Nat) (content : List Byte) :
    unqueued ((s.queueMgmt m content).eng n) = unqueued (s.eng n) := by
  by_cases h : n = m
  · subst h
    simp [State.queueMgmt, State.eng, unqueued]
  · simp [State.queueMgmt, State.eng, tgetD_tput_ne _ _ _ h]

/-- A domain message changes of an engine what waits for its management channel alone. -/
theorem sendMessage_unqueued (s : State) (i ty : Nat) (all : Bool) (d t : Nat) (body : List Byte) (n : Nat) :
    unqueued ((s.sendMessage i ty all d t body).eng n) = unqueued (s.eng n) := by
  unfold State.sendMessage
  dsimp only
  split
  · rfl
  · unfold State.toCarrier
    split
    · exact queueMgmt_unqueued ..
    · rfl

/-- An answer changes of an engine what waits for its management channel alone. -/
theorem answer_unqueued (s : State) (op : Nat) (q : Request) (p : List Byte) (n : Nat) :
    unqueued ((s.answer op q p).eng n) = unqueued (s.eng n) := by
  have hrespond : (s.respond op q p).engs = s.engs := by simp
  exact foldl_keeps (fun u : State => unqueued (u.eng n) = unqueued (s.eng n)) _
    (fun u _ h => (sendMessage_unqueued u ..).trans h) _ _ (congrArg (fun l => unqueued (tgetD l n {})) hrespond)

/-- An engine of the state that a step leaves. -/
def engineAfter (o : Host.Outcome State Fault Refusal) (n : Nat) : Option Engine :=
  match o with | .next t => some (unqueued (t.eng n)) | _ => none

/-- An answer leaves the engines as they were. -/
theorem engineAfter_answer {o : Host.Outcome State Fault Refusal} {u : State} {op : Nat} {q : Request} {p : List Byte} (n : Nat)
    (h : o = .next (u.answer op q p)) : engineAfter o n = some (unqueued (u.eng n)) := by
  rw [h, engineAfter, answer_unqueued]

/-- An engine's configuration: one native subcarrier at 60 GBd. -/
def oneCarrier : EngCfg :=
  { configured := true, mode := 1, code := 2, subs := 1, symRate := 600, rollMax := 10, roll := 10, hStart := 64, rampMs := 10 }

/-! A carrier-up that is scheduled keeps the laser on. -/

/-- A carrier-up that is scheduled cancels the fall of LSR_ENn (R232). -/
theorem carrierLaserOff_of_upPending {s : State} {n : Nat} (h : s.upPending n = true) : s.carrierLaserOff n = s := by
  simp [State.carrierLaserOff, h]

/-- The carrier of engine 0 went down 1 ms ago, and TX_RAMP ACTION 3 was accepted for chamber 78 125 100. -/
def upAgain : State :=
  { servingDevice with
    engs := [(0, { cfg := oneCarrier, tx := { enabled := true, permit := true, car := .laserHold, carAt := 50 * secQ - msQ, ramp := 10 } })]
    tab := { commits := [{ cc := 78125100, changes := [.carrier 0 true 10] }] } }

/-- Refutes O41: 1 ms after a down ramp the laser stays on where a carrier-up is scheduled (R232), so the carrier of an enabled engine is not
dark there. -/
theorem not_transmitRowsComplete : ¬ Obligations.TransmitRowsComplete := by
  unfold Obligations.TransmitRowsComplete
  rintro ⟨-, -, -, -, hoff, -⟩
  obtain ⟨t, hx, htx, -⟩ := hoff upAgain 0 rfl rfl (by decide) rfl
  have hkept : exec (.carrierLaserOff 0) upAgain = .next upAgain := by
    show (upAgain.carrierLaserOff 0).done = _
    rw [carrierLaserOff_of_upPending (by decide +kernel)]
    exact done_of_settled rfl
  obtain rfl : upAgain = t := by simpa [hkept] using hx
  exact absurd (congrArg TxPath.car htx) (by decide)

/-! ENGINE_CONFIG on a disabled engine whose carrier still goes down. -/

/-- Engine 0 was disabled a moment ago: its carrier ramps down, and its pipeline runs until it is dark (R217). -/
def goingDown : State :=
  { servingDevice with engs := [(0, { cfg := oneCarrier, tx := { car := .rampDown, carAt := 50 * secQ, ramp := 10 } })] }

/-- ENGINE_CONFIG of engine 0 with values of Table 6.2, its flags and its output as they were. -/
def configEngine0 : Request :=
  ringRequest ([0, 1, 2, 1] ++ le 2 600 ++ [10, 10] ++ zeros 4 ++ [64, 0, 0, 0] ++ le 2 500 ++ [32, 0] ++ zeros 18 ++ [10, 0xFF])

/-- The new configuration waits for the pipeline's stop. -/
theorem goingDown_waits :
    (engineAfter (exec (.engineConfig configEngine0) goingDown) 0).bind Engine.nextCfg = some (78125000, cfgOf configEngine0) := by
  decide +kernel

/-- Refutes O5: on a disabled engine whose carrier still goes down, the configuration waits for the stop of the pipeline (R215, R217) and is not
in force at once. -/
theorem not_engineConfigComplete : ¬ Obligations.EngineConfigComplete := by
  unfold Obligations.EngineConfigComplete
  rintro ⟨h, -⟩
  have hcfg := h goingDown configEngine0 0
  iterate 10 specialize hcfg (by decide +kernel)
  obtain ⟨u, p, hx, hu, -⟩ := hcfg
  have hwaits := goingDown_waits
  rw [engineAfter_answer 0 hx, Option.bind_some, hu] at hwaits
  exact absurd hwaits (by decide)

/-! ENGINE_ENABLE on a leaf. -/

/-- Engine 0 is configured, calibrated and disabled, a leaf with an advance of 12.8 us: it needs a lead of 90 chambers (R297). -/
def leafAhead : State :=
  { servingDevice with
    engs := [(0, { cfg := oneCarrier, tx := { permit := true }, mp := { role := 2, advance := 12800000 }, cal := { bootDone := true } })] }

/-- ENGINE_ENABLE of engine 0 at the earliest chamber. -/
def enableEngine0 : Request := ringRequest (zeros 12)

/-- The enable is scheduled 90 chambers ahead. -/
theorem leafAhead_enables :
    (engineAfter (exec (.engineEnable enableEngine0) leafAhead) 0).bind (fun e => e.tx.enableAt) = some 78125090 := by
  decide +kernel

/-- Refutes O6: a leaf needs 80 chambers and its advance (R297), so the chamber that ENGINE_ENABLE finds for CHAMBER 0 is not the earliest one of
R114. -/
theorem not_engineEnableDisableComplete : ¬ Obligations.EngineEnableDisableComplete := by
  unfold Obligations.EngineEnableDisableComplete
  rintro ⟨-, h, -⟩
  have henable := h leafAhead enableEngine0 0 78125080
  iterate 17 specialize henable (by decide +kernel)
  obtain ⟨u, hx, -, hu, -⟩ := henable
  have hlater := leafAhead_enables
  rw [engineAfter_answer 0 hx, Option.bind_some, hu] at hlater
  exact absurd hlater (by decide)

end Sys2Proof.Proofs
end

section
/-!
SUPPORT. BITLOAD_SET, BITLOAD_MEASURE, TX_RAMP and CAPTURE_SAMPLES where they pass their checks (R218 to R220, R228 to R233, R278 to R281).
-/
namespace Sys2Proof.Proofs
open Sys2Proof Sys2Proof.Machine Sys2Proof.Laws

/-- A check passes whose failure does not hold (R16). -/
theorem judge_bad_cons {s : State} {c : Bool} (hc : c = false) (st : Status) (r : Nat) (cs : List Check) :
    s.judge (.bad c st r :: cs) = s.judge cs := by
  simp [hc]

/-- A lit unit passes the check that it is lit (R15, R16). -/
theorem judge_lit_cons {s : State} {u : Nat} (h : s.dark u = none) (us : List Nat) (cs : List Check) :
    s.judge (.lit (u :: us) :: cs) = s.judge (.lit us :: cs) := by
  simp only [judge_lit, State.firstDark, h]

/-- No unit is left to be lit. -/
theorem judge_lit_nil (s : State) (cs : List Check) : s.judge (.lit [] :: cs) = s.judge cs := rfl

/-- The first checks of an engine command pass: its ranges, that the island is lit, and the manager's rights (R16, R449). -/
theorem judge_engine {s : State} {q : Request} {n : Nat} {c : Bool} {st : Status} {r : Nat} (hc : c = false)
    (hd : s.dark (engIsland n) = none) (hm : s.manages q.tenant n = true) (cs : List Check) :
    s.judge (.bad c st r :: .lit [engIsland n] :: s.onlyManager q n :: cs) = s.judge cs := by
  rw [judge_bad_cons hc, judge_lit_cons hd, judge_lit_nil, State.onlyManager, judge_bad_cons (by simp [hm])]

/-- A changed receive path of an engine. -/
theorem eng_modRx_self (s : State) (n : Nat) (f : RxPath → RxPath) : (s.modRx n f).eng n = { s.eng n with rx := f (s.eng n).rx } := by
  simp [State.eng]

/-- Changing an engine's receive path leaves the other engines. -/
theorem eng_modRx_ne (s : State) {n k : Nat} (f : RxPath → RxPath) (h : k ≠ n) : (s.modRx n f).eng k = s.eng k := by
  simp [State.eng, tgetD_tput_ne _ _ _ h]

/-- A changed transmit path of an engine. -/
theorem eng_modTx_self (s : State) (n : Nat) (f : TxPath → TxPath) : (s.modTx n f).eng n = { s.eng n with tx := f (s.eng n).tx } := by
  simp [State.eng]

/-- A command that is taken, passes its checks and gives an answer ends in the state of its run with that answer. -/
theorem exists_serve_done {s u : State} {op : Nat} {q : Request} {size : Nat} {checks : List Check}
    {run : State → State × Option (List Byte)} (h : s.takes op q) (hc : s.judge checks = none)
    (hr : ∃ p, run s.accepted = (u, some p)) :
    ∃ p, (s.serve op q size true checks run).done = .next (u.answer op q p) :=
  hr.imp fun _ hrun => serve_done_of_run h hc hrun

/-- A run that answers either way answers. -/
theorem exists_answer_of_ite {s t : State} {a b : List Byte} (c : Prop) [Decidable c] :
    ∃ p, (if c then (s, some a) else (t, some b)) = (if c then s else t, some p) := by
  by_cases h : c
  · exact ⟨a, by simp [h]⟩
  · exact ⟨b, by simp [h]⟩

/-- Where a change is scheduled in either of two states, it is scheduled in the one that is chosen. -/
theorem hasScheduled_ite {s t : State} {cc : Nat} {x : FwChange} (c : Prop) [Decidable c] (hs : s.hasScheduled cc x)
    (ht : t.hasScheduled cc x) : (if c then s else t).hasScheduled cc x := by
  split
  · exact hs
  · exact ht

/-! BITLOAD_SET. -/

/-- Bytes beyond the end of a payload read as zero. -/
theorem u_of_len_le {q : Request} {off : Nat} (h : q.len ≤ off) (n : Nat) : q.u off n = 0 := by
  have hd : q.payload.drop off = [] := List.drop_eq_nil_of_le h
  simp [Request.u, fld, hd, unle]

/-- A profile of entropies has at most the 16 entries of its payload (Table 6.3). -/
theorem count_le_of_profileAt {q : Request} {count : Nat} (hl : q.len = 32) (h : ∀ x ∈ profileAt q 16 count, 32 ≤ x) : count ≤ 16 := by
  refine Nat.le_of_not_lt fun hc => ?_
  have hmem : q.u 32 1 ∈ profileAt q 16 count := List.mem_map.mpr ⟨16, List.mem_range.mpr (by omega), rfl⟩
  have h0 := u_of_len_le (q := q) (off := 32) (by omega) 1
  have := h _ hmem
  omega

/-- A back-to-back value is stored (R278). -/
def b2bStored (s : State) (n b : Nat) : State := s.modRx n fun r => { r with b2b := b }

/-! TX_RAMP. -/

/-- Does a TX_RAMP of an ACTION start a sequence on a transmit path (R229)? -/
def rampStarts (t : TxPath) (act : Nat) : Bool :=
  if act = 1 then t.enabled && t.withheld else if act = 3 then t.enabled && t.down else !t.down

/-- The permission of light that an ACTION of TX_RAMP leaves (R228). -/
def permitAfter (act : Nat) (t : TxPath) : TxPath :=
  { t with permit := if act = 1 then true else if act = 2 then false else t.permit }

/-- Where a TX_RAMP starts a sequence, its carrier step stands at the start chamber (R230). -/
def rampScheduled (s : State) (n act cc ms : Nat) (starts : Bool) : State :=
  let t := s.modTx n (permitAfter act)
  if starts then t.schedule cc none [] [.carrier n (act == 1 || act == 3) ms] else t

/-- What TX_RAMP writes: the permission, and the scheduled commits. -/
theorem rampScheduled_frame (s : State) (n act cc ms : Nat) (starts : Bool) :
    (rampScheduled s n act cc ms starts).eng n = { s.eng n with tx := permitAfter act (s.eng n).tx } ∧
    { rampScheduled s n act cc ms starts with engs := s.engs, tab := s.tab } = s := by
  cases starts
  · exact ⟨eng_modTx_self .., rfl⟩
  · exact ⟨eng_modTx_self s n (permitAfter act), rfl⟩

/-- The carrier step of a sequence that starts is scheduled. -/
theorem rampScheduled_has (s : State) (n act cc ms : Nat) :
    (rampScheduled s n act cc ms true).hasScheduled cc (.carrier n (act == 1 || act == 3) ms) :=
  schedule_has _ _ _ _ _ (List.mem_singleton.mpr rfl)

/-- Passages do not hold back a carrier-down with FORCE, one of a carrier that is down, nor one where no passage uses the engine (R233). -/
theorem not_inUse {act flags : Nat} {down uses : Bool} (h : act = 2 ∨ act = 4 → flags = 1 ∨ down = true ∨ uses = false) :
    ((act == 2 || act == 4) && !(bitAt flags 0) && !down && uses) = false := by
  by_cases hact : act = 2 ∨ act = 4
  · rcases h hact with hforce | hdown | hfree
    · simp [hforce, bitAt]
    · simp [hdown]
    · simp [hfree]
  · obtain ⟨h2, h4⟩ := not_or.mp hact
    simp [h2, h4]

/-- Settles O7, command by command: each passes its checks, runs on the journalled state and answers. -/
theorem engineSignalCommandsComplete : Obligations.EngineSignalCommandsComplete := by
  unfold Obligations.EngineSignalCommandsComplete
  refine ⟨?bitloadSet, ?measure, ?setB2b, ?ramp, ?capture⟩
  case bitloadSet =>
    rintro s q n prof h hl rfl h7 hdir h3 h6 h14 hd hm hr hcfg - hs rfl hcc hh hz hok hcap hc
    have h16 := count_le_of_profileAt hl fun x hx => (hh x hx).1
    have hlate : s.leafLate (q.u 0 1) (q.ch 8) = false := by simp [State.leafLate, hr]
    show ∃ u p, (s.cmdBitloadSet q).done = .next (State.answer u 0x0204 q p) ∧ _
    simp only [State.cmdBitloadSet, hcap, Option.isSome_none, Bool.and_false, Bool.false_eq_true, if_false, hl]
    refine ⟨_, _, serve_done_of_run h ((judge_engine ?_ hd hm _).trans ?_) rfl, hasScheduled_ite _ ?_ ?_, rfl⟩
    · simpa [h7, hdir, h3, h6, h14, hz, h16] using hh
    · simp [hr, hcfg, ← hs, hcc, hok, hc, hlate]
    · exact schedule_has _ _ _ _ _ (List.mem_singleton.mpr rfl)
    · exact schedule_has _ _ _ _ _ (List.mem_singleton.mpr rfl)
  case measure =>
    rintro s q n h hl rfl h7 h1 h4 hd hm he hb
    show (s.cmdBitloadMeasure q).done = _
    simp only [State.cmdBitloadMeasure, hb, hl]
    refine serve_done_of_run h ((judge_engine ?_ hd hm _).trans ?_) rfl
    · simp [h7, h1, h4]
    · simp [he]
  case setB2b =>
    rintro s q n h hl rfl h7 h1 h4 hd hm he h100 h400
    have hb : q.u 2 2 ≠ 0 := by omega
    obtain ⟨p, hrun⟩ : ∃ p, (s.cmdBitloadMeasure q).done = .next ((b2bStored s.accepted (q.u 0 1) (q.u 2 2)).answer 0x0205 q p) := by
      simp only [State.cmdBitloadMeasure, hb, hl]
      refine exists_serve_done h ((judge_engine ?_ hd hm _).trans ?_) ⟨_, rfl⟩
      · simp [h7, h1, h4, h100, h400]
      · simp [he]
    exact ⟨_, p, hrun, eng_modRx_self .., fun k hk => eng_modRx_ne _ _ hk, rfl⟩
  case ramp =>
    rintro s q n cc h hl rfl h7 h1 h4 hms hf hz hd hm hbelay hpermit hfree hcc hc
    obtain ⟨ms, p, hrun⟩ : ∃ ms p, (s.cmdTxRamp q).done = .next ((rampScheduled s.accepted (q.u 0 1) (q.u 1 1) cc ms
        (rampStarts (s.eng (q.u 0 1)).tx (q.u 1 1))).answer 0x0206 q p) := by
      simp only [State.cmdTxRamp, hl, ← hcc]
      refine ⟨_, exists_serve_done h ((judge_engine ?_ hd hm _).trans ?_) (exists_answer_of_ite _)⟩
      · simp [h7, Nat.ne_of_gt h1, h4, hms, hf, hz]
      · rw [judge_bad_cons (by simpa using hbelay), judge_bad_cons (by simpa using hpermit), judge_bad_cons (not_inUse hfree)]
        simp [hc]
    obtain ⟨heng, hrest⟩ := rampScheduled_frame s.accepted (q.u 0 1) (q.u 1 1) cc ms (rampStarts (s.eng (q.u 0 1)).tx (q.u 1 1))
    refine ⟨_, p, hrun, heng, hrest, ?up, ?down⟩
    case up =>
      rintro ⟨hact, he, hdown⟩
      have hhas := rampScheduled_has s.accepted (q.u 0 1) 3 cc ms
      exact ⟨ms, by simpa [rampStarts, hact, he, hdown] using hhas⟩
    case down =>
      rintro ⟨hact, hdown⟩
      have hhas := rampScheduled_has s.accepted (q.u 0 1) 4 cc ms
      exact ⟨ms, by simpa [rampStarts, hact, hdown] using hhas⟩
  case capture =>
    rintro s q n size h hl rfl h7 h1 h3 ht12 ht3 htr h0 h1024 hmax hpre hev hz14 hz22 hch hal hdest hd hdm hm rfl hin hno hfill he hj
    show ∃ u j c, (s.cmdCaptureSamples q).done = .next (State.answer u 0x0207 q (jobStarted (Job.token j))) ∧ _
    simp only [State.cmdCaptureSamples, hl]
    refine ⟨_, _, _, serve_done_of_run h ?_ rfl, rfl, rfl, rfl, rfl, rfl, rfl, rfl, rfl⟩
    rw [judge_bad_cons, judge_lit_cons hd, judge_lit_cons hdm, judge_lit_nil]
    · simpa [hm, hin, htr, hno, hfill, he, hj] using ht3
    · simpa [h7, h3, Nat.ne_of_gt h1, Nat.ne_of_gt h0, hmax, hdest, htr, hpre, hev, hz14, hz22, hch, hal, h1024] using ht12

end Sys2Proof.Proofs
end

section
/-!
RX_FRONTEND_LIMIT of a correction that no lane has (R250): the quadrature error is one of a polarisation pair, so only lanes 0 and 1 name one.
-/
namespace Sys2Proof.Proofs
open Sys2Proof Sys2Proof.Machine Sys2Proof.Laws

/-- A quadrature correction of lane 2 or 3 is none: nothing is adapted and nothing reported (R250; assumption 87). -/
theorem frontendLimit_quadrature_unpaired {lane : Nat} (h : 1 < lane) (s : State) (n ms : Nat) (value : Int) :
    s.frontendLimit n 3 lane value ms = s := by
  simp [State.frontendLimit, h]

/-- Engine 0 is in service and receives light. -/
def receivingLight : State :=
  { servingDevice with engs := [(0, { cfg := oneCarrier, tx := { enabled := true, permit := true }, rx := { los := false } })] }

/-- Refutes O40: a quadrature correction of 0.5 degrees for lane 2, where only the pairs 0 and 1 have one (R250), changes nothing, so it is not
in force as the last row says. -/
theorem not_receiveRowsComplete : ¬ Obligations.ReceiveRowsComplete := by
  unfold Obligations.ReceiveRowsComplete
  rintro ⟨-, -, -, -, -, -, -, -, -, -, -, -, -, -, -, -, hbelow⟩
  obtain ⟨t, hx, hrx, -⟩ := hbelow receivingLight 0 3 2 0 5 rfl rfl rfl (by decide) (by decide) (by decide) (by decide)
  have hkept : exec (.rxFrontendLimit 0 3 2 5 0) receivingLight = .next receivingLight := by
    show (receivingLight.frontendLimit 0 3 2 5 0).done = _
    rw [frontendLimit_quadrature_unpaired (by decide)]
    exact done_of_settled rfl
  obtain rfl : receivingLight = t := by simpa [hkept] using hx
  exact absurd (congrArg RxPath.front hrx) (by decide)

end Sys2Proof.Proofs
end

section
/-!
SUPPORT. MULTIPOINT_CONFIG where it passes its checks (R287 to R291): the role an engine takes, and the profiles that a new hub clears.
-/
namespace Sys2Proof.Proofs
open Sys2Proof Sys2Proof.Machine Sys2Proof.Laws

/-- A changed multipoint state of an engine. -/
theorem eng_modMp_self (s : State) (n : Nat) (f : Multi → Multi) : (s.modMp n f).eng n = { s.eng n with mp := f (s.eng n).mp } := by
  simp [State.eng]

/-- Changing an engine's multipoint state leaves the other engines. -/
theorem eng_modMp_ne (s : State) {n k : Nat} (f : Multi → Multi) (h : k ≠ n) : (s.modMp n f).eng k = s.eng k := by
  simp [State.eng, tgetD_tput_ne _ _ _ h]

/-- An entry of a table from which the keys that fail a test were removed. -/
theorem tget_filter_key {α : Type} (p : Nat → Bool) (k : Nat) :
    ∀ t : Tab α, tget (t.filter fun e => p e.1) k = if p k then tget t k else none
  | [] => by simp
  | (j, v) :: t => by
    have ih := tget_filter_key p k t
    by_cases hk : k = j
    · subst hk
      cases hp : p k
      · simpa [hp, tget] using ih
      · simp [hp, tget]
    · cases hp : p j
      · simpa [hp, tget, hk] using ih
      · simpa [hp, tget, hk] using ih

/-- A byte after blocks were filled with zero. -/
theorem read_fillZero (m : MemInst) (b lo hi a : Nat) :
    (m.fillZero b lo hi).data.read a = if lo * b ≤ a ∧ a < hi * b then 0 else m.data.read a := by
  simp only [MemInst.fillZero, Memory.read, tgetD, tget_filter_key fun k => !(decide (lo * b ≤ k) && decide (k < hi * b))]
  by_cases ha : lo * b ≤ a ∧ a < hi * b
  · simp [ha]
  · have hout : (decide (lo * b ≤ a) && decide (a < hi * b)) = false := by rw [← Bool.decide_and, decide_eq_false ha]
    rw [if_neg ha, hout]
    rfl

/-- A changed memory. -/
theorem memInst_modInst_self (s : State) (key : Nat) (f : MemInst → MemInst) : (s.modInst key f).memInst key = f (s.memInst key) := by
  simp [State.memInst]

/-- Changing a memory leaves the others. -/
theorem memInst_modInst_ne (s : State) {key k : Nat} (f : MemInst → MemInst) (h : k ≠ key) :
    (s.modInst key f).memInst k = s.memInst k := by
  simp [State.memInst, tgetD_tupd_ne _ _ _ _ h]

/-- LPDDR6 after an engine's profiles were cleared: its 2 MiB read as zero, and the rest as before (R317). -/
theorem read_clearProfiles (s : State) (n a : Nat) :
    ((s.clearProfiles n).memInst (dataKey 0x0C00 0)).data.read a =
      if 0x38000000 + n * 2 ^ 21 ≤ a ∧ a < 0x38000000 + (n + 1) * 2 ^ 21 then 0 else (s.memInst (dataKey 0x0C00 0)).data.read a := by
  have hlo : (0x38000000 + n * 2 ^ 21) / 4096 * 4096 = 0x38000000 + n * 2 ^ 21 := by omega
  have hhi : ((0x38000000 + n * 2 ^ 21) / 4096 + 512) * 4096 = 0x38000000 + (n + 1) * 2 ^ 21 := by
    rw [Nat.add_mul, hlo, Nat.add_mul n, Nat.add_assoc, show 512 * 4096 = 1 * 2 ^ 21 from rfl]
  rw [State.clearProfiles, memInst_modInst_self, read_fillZero, hlo, hhi]

/-- Clearing profiles leaves the other memories, and LPDDR6 outside those 2 MiB. -/
theorem read_clearProfiles_outside (s : State) (n : Nat) {key a : Nat}
    (h : key ≠ dataKey 0x0C00 0 ∨ a < 0x38000000 + n * 2 ^ 21 ∨ 0x38000000 + (n + 1) * 2 ^ 21 ≤ a) :
    ((s.clearProfiles n).memInst key).data.read a = (s.memInst key).data.read a := by
  by_cases hk : key = dataKey 0x0C00 0
  · subst hk
    have hout := h.resolve_left (fun hne => hne rfl)
    rw [read_clearProfiles, if_neg fun hin => hout.elim (Nat.not_lt_of_le hin.1) (Nat.not_le_of_lt hin.2)]
  · rw [State.clearProfiles, memInst_modInst_ne _ _ hk]

/-- Scheduling the time words changes the scheduled commits alone. -/
theorem syncTimeWords_restore (s : State) : { s.syncTimeWords with tab := s.tab } = s := by
  unfold State.syncTimeWords
  dsimp only
  split <;> rfl

/-- Time words leave the engines. -/
theorem syncTimeWords_engs (s : State) : s.syncTimeWords.engs = s.engs := by
  simpa using congrArg State.engs (syncTimeWords_restore s)

/-- The multipoint state of an engine that takes a role: it keeps the thresholds (R287; assumption 65). -/
def withRole (role leaf node : Nat) (m : Multi) : Multi :=
  { role := role, leafId := if role = 2 then leaf else 0, hubNode := if role = 2 then node else 0
    syncErr := m.syncErr, capture := m.capture, loss := m.loss, oldLimits := m.oldLimits, limitsAt := m.limitsAt }

/-- An engine takes a role, and the time words follow. -/
def roleTaken (s : State) (n role leaf node : Nat) : State := (s.modMp n (withRole role leaf node)).syncTimeWords

/-- What taking a role writes: the multipoint state of the engine, and the scheduled commits. -/
theorem roleTaken_frame (s : State) (n role leaf node : Nat) :
    (roleTaken s n role leaf node).eng n = { s.eng n with mp := withRole role leaf node (s.eng n).mp } ∧
    (∀ k, k ≠ n → (roleTaken s n role leaf node).eng k = s.eng k) ∧
    { roleTaken s n role leaf node with engs := s.engs, tab := s.tab } = s := by
  have heng : ∀ k, (roleTaken s n role leaf node).eng k = (s.modMp n (withRole role leaf node)).eng k := fun k => by
    rw [State.eng, roleTaken, syncTimeWords_engs]
    rfl
  refine ⟨(heng n).trans (eng_modMp_self ..), fun k hk => (heng k).trans (eng_modMp_ne _ _ hk), ?_⟩
  exact congrArg (fun u : State => { u with engs := s.engs }) (syncTimeWords_restore (s.modMp n (withRole role leaf node)))

/-- A hub compensates no dispersion of its own (R307). -/
def withoutCd (r : RxPath) : RxPath := { r with cdSets := (0, 0), oldSet := none, dEst := none, outSpan := false }

/-- An engine starts as a hub: its profiles are cleared, and its dispersion is 0 (R289, R307). -/
def hubStarted (s : State) (n : Nat) : State := (s.clearProfiles n).modRx n withoutCd

/-- What the start of a hub writes: the receive path of the engine, and memory. -/
theorem hubStarted_frame (s : State) (n : Nat) :
    (hubStarted s n).eng n = { s.eng n with rx := withoutCd (s.eng n).rx } ∧ (∀ k, k ≠ n → (hubStarted s n).eng k = s.eng k) ∧
    { hubStarted s n with engs := s.engs, mem := s.mem } = s :=
  ⟨eng_modRx_self .., fun _ hk => eng_modRx_ne _ _ hk, rfl⟩

/-- MULTIPOINT_CONFIG ACTION 1 on an engine that is not enabled gives it the role. -/
theorem exec_multipointConfig_role {s : State} {q : Request} {n : Nat} (h : s.takes 0x0208 q) (hl : q.len = 16) (hn : q.u 0 1 = n)
    (h7 : n ≤ 7) (hact : q.u 1 1 = 1) (hrole : q.u 2 1 ≤ 2) (hleaf : q.u 2 1 = 2 → q.u 3 1 ≤ 127)
    (h3 : q.u 2 1 ≠ 2 → q.rsv 3 3 = true) (h10 : q.rsv 10 2 = true) (hd : s.dark (engIsland n) = none)
    (hm : s.manages q.tenant n = true)
    (hcfg : q.u 2 1 = 0 ∨ ((s.eng n).cfg.mode ≠ 2 ∧ (s.eng n).cfg.windowLen.isSome = true)) (he : (s.eng n).tx.enabled = false)
    (hlp : q.u 2 1 = 1 → s.lpReady = true) :
    ∃ p, exec (.multipointConfig q) s = .next (State.answer
      (if q.u 2 1 = 1 then hubStarted (roleTaken s.accepted n (q.u 2 1) (q.u 3 1) (q.u 4 2)) n
        else roleTaken s.accepted n (q.u 2 1) (q.u 3 1) (q.u 4 2)) 0x0208 q p) := by
  subst hn
  show ∃ p, (s.cmdMultipointConfig q).done = _
  simp only [State.cmdMultipointConfig, hact, hl]
  refine exists_serve_done h ((judge_engine ?_ hd hm _).trans ?_) ?_
  · by_cases h2 : q.u 2 1 = 2
    · simp [h7, h2, hleaf h2, h10]
    · simp [h7, h2, hrole, h3 h2, h10]
  · have hmode : (q.u 2 1 != 0 && ((s.eng (q.u 0 1)).cfg.mode == 2 || (s.eng (q.u 0 1)).cfg.windowLen.isNone)) = false := by
      rcases hcfg with h0 | ⟨hmode, hwin⟩
      · simp [h0]
      · simp [hmode, hwin, Option.isNone_eq_false_iff]
    simpa [hmode, he] using hlp
  · simp only [true_and, if_true]
    exact ⟨_, rfl⟩

/-- MULTIPOINT_CONFIG ACTION 2 on a hub sets the thresholds from the next window on (R290). -/
theorem exec_multipointConfig_limits {s : State} {q : Request} {n : Nat} (h : s.takes 0x0208 q) (hl : q.len = 16) (hn : q.u 0 1 = n)
    (h7 : n ≤ 7) (hact : q.u 1 1 = 2) (h2 : q.rsv 2 4 = true) (hsync : q.u 6 1 ≤ 15) (h10 : 10 ≤ q.u 7 1) (h200 : q.u 7 1 ≤ 200)
    (h1 : 1 ≤ q.u 8 1) (h64 : q.u 8 1 ≤ 64) (hz : q.rsv 10 2 = true) (hd : s.dark (engIsland n) = none)
    (hm : s.manages q.tenant n = true) (hrole : (s.eng n).mp.role = 1) :
    ∃ p, exec (.multipointConfig q) s = .next (State.answer (s.accepted.modMp n fun m => { m with
      oldLimits := m.limits s.now, limitsAt := s.nextWindow, syncErr := q.u 6 1, capture := q.u 7 1, loss := q.u 8 1 }) 0x0208 q p) := by
  subst hn
  show ∃ p, (s.cmdMultipointConfig q).done = _
  simp only [State.cmdMultipointConfig, hact, hl]
  refine exists_serve_done h ((judge_engine ?_ hd hm _).trans ?_) ⟨_, rfl⟩
  · simp [h7, h2, hsync, h10, h200, Nat.ne_of_gt h1, h64, hz]
  · simp [hrole]

end Sys2Proof.Proofs
end

section
/-!
SUPPORT. LEAF_PROFILE_SET where it passes its checks (R294 to R298, R317, R318).
-/
namespace Sys2Proof.Proofs
open Sys2Proof Sys2Proof.Machine Sys2Proof.Laws

/-- A changed profile of a hub. -/
theorem leafProf_modProf_self {s : State} {n : Nat} (h : (s.eng n).mp.role = 1) (leaf : Nat) (f : LeafProf → LeafProf) :
    (s.modProf n leaf f).leafProf n leaf = f (s.leafProf n leaf) := by
  simp [State.leafProf, State.modProf, eng_modMp_self, h]

/-- Changing a profile of a hub leaves the others. -/
theorem leafProf_modProf_ne {s : State} {n : Nat} (h : (s.eng n).mp.role = 1) {leaf k : Nat} (f : LeafProf → LeafProf) (hk : k ≠ leaf) :
    (s.modProf n leaf f).leafProf n k = s.leafProf n k := by
  simp [State.leafProf, State.modProf, eng_modMp_self, h, tgetD_tupd_ne _ _ _ _ hk]

/-- LEAF_PROFILE_SET ACTION 1 on a hub schedules the windows. -/
theorem exec_leafProfileSet_windows {s : State} {q : Request} {n leaf cc : Nat} {wins : List Nat} (h : s.takes 0x0209 q) (hl : q.len = 40)
    (hn : q.u 0 1 = n) (hleaf : q.u 1 1 = leaf) (h7 : n ≤ 7) (h127 : leaf ≤ 127) (hact : q.u 2 1 = 1) (h10 : q.u 3 1 ≤ 10)
    (hoff : q.u 4 2 < 2 ^ q.u 3 1) (hch : q.ch 8 = cc) (hcc : cc ≠ 0) (h32 : 32 ≤ q.u 38 1) (h96 : q.u 38 1 ≤ 96)
    (h14 : q.rsv 14 2 = true) (h39 : q.rsv 39 1 = true) (hd : s.dark (engIsland n) = none) (hm : s.manages q.tenant n = true)
    (hrole : (s.eng n).mp.role = 1) (hwins : wins = profileAt q 16 16)
    (hsubs : ((wins.drop (s.eng n).cfg.subs).all fun b => b == 0) = true)
    (hclash : s.windowsClash n cc (.windows n leaf wins (q.u 3 1) (q.u 4 2) (q.u 38 1) (q.u 6 2)) = false)
    (hlow : s.lowAfter n cc (.windows n leaf wins (q.u 3 1) (q.u 4 2) (q.u 38 1) (q.u 6 2)) = false)
    (hheld : s.leafHeld n leaf ≤ (s.eng n).cfg.leafSlots wins (q.u 3 1) (q.u 38 1)) (hc : s.commitBad cc none = none) :
    ∃ p, exec (.leafProfileSet q) s = .next ((s.accepted.schedule cc none []
      [.windows n leaf wins (q.u 3 1) (q.u 4 2) (q.u 38 1) (q.u 6 2)]).answer 0x0209 q p) := by
  subst hn hleaf hch hwins
  have hlate : s.leafLate (q.u 0 1) (q.ch 8) = false := by simp [State.leafLate, hrole]
  have hbeyond : (((profileAt q 16 16).drop (s.eng (q.u 0 1)).cfg.subs).any fun b => b != 0) = false := by
    simpa using hsubs
  show ∃ p, (s.cmdLeafProfileSet q).done = _
  simp only [State.cmdLeafProfileSet, hact, hl]
  refine exists_serve_done h ((judge_engine ?_ hd hm _).trans ?_) ⟨_, rfl⟩
  · simp [h7, h127, h10, hoff, hcc, h32, h96, h14, h39]
  · rw [hc, hlate]
    simp [hrole, hbeyond, hclash, hlow, hheld]

/-- The profile that LEAF_PROFILE_SET ACTION 2 or 3 leaves (R317, R318). -/
def profileAfter (q : Request) (p : LeafProf) : LeafProf :=
  if q.u 2 1 = 2 then { p with cd := q.i 32 4, freq := q.i 36 2 } else p.forget

/-- LEAF_PROFILE_SET ACTION 2 and 3 on a hub change the leaf's profile. -/
theorem exec_leafProfileSet_profile {s : State} {q : Request} {n leaf : Nat} (h : s.takes 0x0209 q) (hl : q.len = 40) (hn : q.u 0 1 = n)
    (hleaf : q.u 1 1 = leaf) (h7 : n ≤ 7) (h127 : leaf ≤ 127) (hact2 : 2 ≤ q.u 2 1) (hact3 : q.u 2 1 ≤ 3) (h6 : q.rsv 6 2 = true)
    (hcd : q.u 2 1 = 2 → (q.i 36 2).natAbs ≤ 5000 ∧ (q.i 32 4).natAbs ≤ (s.eng n).cfg.dspan) (h14 : q.rsv 14 2 = true)
    (h39 : q.rsv 39 1 = true) (hd : s.dark (engIsland n) = none) (hm : s.manages q.tenant n = true) (hrole : (s.eng n).mp.role = 1) :
    ∃ p, exec (.leafProfileSet q) s = .next ((s.accepted.modProf n leaf (profileAfter q)).answer 0x0209 q p) := by
  subst hn hleaf
  show ∃ p, (s.cmdLeafProfileSet q).done = _
  rcases (by omega : q.u 2 1 = 2 ∨ q.u 2 1 = 3) with hact | hact
  · obtain ⟨hfreq, hspan⟩ := hcd hact
    rw [show profileAfter q = fun p => { p with cd := q.i 32 4, freq := q.i 36 2 } from funext fun _ => if_pos hact]
    simp only [State.cmdLeafProfileSet, hact, hl]
    refine exists_serve_done h ((judge_engine ?_ hd hm _).trans ?_) ⟨_, rfl⟩
    · simp [h7, h127, h6, h14, h39, within, hfreq]
    · simp [hrole, within, hspan]
  · rw [show profileAfter q = LeafProf.forget from funext fun _ => if_neg (by omega)]
    simp only [State.cmdLeafProfileSet, hact, hl]
    refine exists_serve_done h ((judge_engine ?_ hd hm _).trans ?_) ⟨_, rfl⟩
    · simp [h7, h127, h6, h14, h39]
    · simp [hrole]

/-- LEAF_PROFILE_SET ACTION 4 answers the profile of a hub's leaf, or a leaf's own (R318). -/
theorem exec_leafProfileSet_read {s : State} {q : Request} {n leaf : Nat} (h : s.takes 0x0209 q) (hl : q.len = 40) (hn : q.u 0 1 = n)
    (hleaf : q.u 1 1 = leaf) (h7 : n ≤ 7) (h127 : leaf ≤ 127) (hact : q.u 2 1 = 4) (h6 : q.rsv 6 2 = true) (h14 : q.rsv 14 2 = true)
    (h39 : q.rsv 39 1 = true) (hd : s.dark (engIsland n) = none) (hm : s.manages q.tenant n = true)
    (hrole : (s.eng n).mp.role = 1 ∨ ((s.eng n).mp.role = 2 ∧ leaf = (s.eng n).mp.leafId)) :
    exec (.leafProfileSet q) s = .next (s.accepted.answer 0x0209 q (s.profReply n leaf)) := by
  subst hn hleaf
  show (s.cmdLeafProfileSet q).done = _
  simp only [State.cmdLeafProfileSet, hact, hl]
  refine serve_done_of_run h ((judge_engine ?_ hd hm _).trans ?_) rfl
  · simp [h7, h127, h6, h14, h39]
  · rcases hrole with hhub | ⟨hleaf, hown⟩
    · simp [hhub]
    · simp [hleaf, hown]

/-- Settles O12, action by action: each passes its checks and answers, and what its run writes is read off. -/
theorem multipointCommandsComplete : Obligations.MultipointCommandsComplete := by
  unfold Obligations.MultipointCommandsComplete
  refine ⟨?role, ?limits, ?windows, ?profile, fun s q n leaf => exec_leafProfileSet_read⟩
  case role =>
    intro s q n h hl hn h7 hact hrole hleaf h3 h10 hd hm hcfg he hlp
    obtain ⟨p, hx⟩ := exec_multipointConfig_role h hl hn h7 hact hrole hleaf h3 h10 hd hm hcfg he hlp
    obtain ⟨heng, hother, hrest⟩ := roleTaken_frame s.accepted n (q.u 2 1) (q.u 3 1) (q.u 4 2)
    have hmem : (roleTaken s.accepted n (q.u 2 1) (q.u 3 1) (q.u 4 2)).mem = s.mem := by simpa using congrArg State.mem hrest
    generalize roleTaken s.accepted n (q.u 2 1) (q.u 3 1) (q.u 4 2) = t at hx heng hother hrest hmem
    have hinst : ∀ key, t.memInst key = s.memInst key := fun key => by rw [State.memInst, hmem, State.memInst]
    by_cases hhub : q.u 2 1 = 1
    · rw [if_pos hhub] at hx
      obtain ⟨hself, hothers, hkept⟩ := hubStarted_frame t n
      refine ⟨hubStarted t n, p, hx, ?_⟩
      rw [hself, heng]
      refine ⟨rfl, rfl, rfl, rfl, rfl, rfl, rfl, fun hne => absurd hhub hne, fun key a hout => ?_, fun _ a hlo hhi => ?_,
        fun k hk => (hothers k hk).trans (hother k hk), ?_⟩
      · exact (read_clearProfiles_outside t n hout).trans (by rw [hinst])
      · exact (read_clearProfiles t n a).trans (if_pos ⟨hlo, hhi⟩)
      · exact (congrArg (fun u : State => { u with engs := s.engs, tab := s.tab, mem := s.mem }) hkept).trans
          (congrArg (fun u : State => { u with mem := s.mem }) hrest)
    · rw [if_neg hhub] at hx
      refine ⟨t, p, hx, ?_⟩
      rw [heng]
      exact ⟨rfl, rfl, rfl, rfl, rfl, rfl, rfl, fun _ => ⟨rfl, hmem⟩, fun key _ _ => by rw [hinst], fun h1 => absurd h1 hhub, hother,
        congrArg (fun u : State => { u with mem := s.mem }) hrest⟩
  case limits =>
    intro s q n h hl hn h7 hact h2 hsync h10 h200 h1 h64 hz hd hm hrole
    obtain ⟨p, hx⟩ := exec_multipointConfig_limits h hl hn h7 hact h2 hsync h10 h200 h1 h64 hz hd hm hrole
    exact ⟨_, p, hx, congrArg Engine.mp (eng_modMp_self ..), fun k hk => eng_modMp_ne _ _ hk, rfl⟩
  case windows =>
    intro s q n leaf cc wins h hl hn hleaf h7 h127 hact h10 hoff hch hcc h32 h96 h14 h39 hd hm hrole hwins hsubs hclash hlow hheld hc
    obtain ⟨p, hx⟩ := exec_leafProfileSet_windows h hl hn hleaf h7 h127 hact h10 hoff hch hcc h32 h96 h14 h39 hd hm hrole hwins hsubs
      hclash hlow hheld hc
    exact ⟨_, p, hx, schedule_has _ _ _ _ _ (List.mem_singleton.mpr rfl), rfl⟩
  case profile =>
    intro s q n leaf h hl hn hleaf h7 h127 hact2 hact3 h6 hcd h14 h39 hd hm hrole
    obtain ⟨p, hx⟩ := exec_leafProfileSet_profile h hl hn hleaf h7 h127 hact2 hact3 h6 hcd h14 h39 hd hm hrole
    exact ⟨_, p, hx, leafProf_modProf_self (s := s.accepted) hrole .., fun k hk => leafProf_modProf_ne (s := s.accepted) hrole _ hk,
      fun k hk => eng_modMp_ne _ _ hk, rfl⟩

end Sys2Proof.Proofs
end

section
/-!
A burst on a leaf carrier that raw steps of T0 carry (R97, R98): its blocks wait in the raw flow, which the tables hold.
-/
namespace Sys2Proof.Proofs
open Sys2Proof Sys2Proof.Machine

/-- A standing raw step of slot 0. -/
def rawLine (operand target action : Nat) : StepWord := stepWord operand target action 0 0xF 0 1 0

/-- SWITCH_HOST from slot 0 of leaf 5 at engine 0 to slot 0 of host port 0, with a DELAY of 2. -/
def switchLeaf5 : StepWord := rawLine (0x805 * 2 ^ 52 + 0x100 * 2 ^ 30 + 2 * 2 ^ 16) 0x0200 0x11

/-- WINDOWS of leaf 5: window 2 of subcarrier 9. -/
def leaf5Windows : List Nat := (List.replicate 16 0).set 9 4

/-- A confirmed reception on subcarrier 9: the data burst of leaf 5 for window 2 of the last chamber. -/
def leaf5Burst : Recept :=
  { window := 2, chamber := 78124999, power := -30, confirmed := true, leaf := 5, header := burstHeaderOf 5 2 78124999 9 32 false false }

/-- Engine 0 is a hub of 16 subcarriers at 320 GBd. Leaf 5 is ACTIVE, and its window gives one slot, which raw steps carry to host
port 0. -/
def rawHub : State :=
  { servingDevice with
    engs := [(0, {
      cfg := { configured := true, mode := 1, code := 1, subs := 16, symRate := 3200, rollMax := 10, roll := 10, hStart := 64 }
      tx := { enabled := true, prof := List.replicate 16 64, permit := true }
      mp := { role := 1, profs := [(5, { st := 2, windows := leaf5Windows })], recv := [(9, leaf5Burst)] } })]
    host := forcedDisable.host
    tab := { banks := [
      (islFab, { raw := [switchLeaf5] }),
      (islEng 0, { fw := (windowWords 0 5 true leaf5Windows 0 0).map fun w => { w := w }
                   raw := [rawLine (2 ^ 9 * 2 ^ 48 + 2 ^ 31 + 5 * 2 ^ 24) (engUnit 0 3) 0x21] }),
      (islHost, { raw := [rawLine (0x100 * 2 ^ 52 + 2 ^ 51) 0x0B80 0x30] })] } }

/-- How many blocks wait in the flow of a raw switch step in the state that a step leaves. -/
def rawWaiting (o : Host.Outcome State Fault Refusal) (w : StepWord) : Nat :=
  match o with | .next t => (tgetD t.tab.raws (rawKey w) {}).queue.length | _ => 0

/-- The banks pass every check of R108, and the decoded burst brings its 100 blocks to the raw flow (R304, R310). -/
theorem rawHub_carries : rawHub.validate rawHub.tab.banks rawHub.chamber = none ∧
    rawWaiting (exec (.burstDecode 0 9 {}) rawHub) switchLeaf5 = 100 := by
  decide +kernel

/-- Refutes O44: where raw switch steps carry the slot of an ACTIVE leaf, its data burst brings 100 blocks to their flow (R97, R310), which
the tables hold, so they are not left as they were. -/
theorem not_burstRowsComplete : ¬ Obligations.BurstRowsComplete := by
  unfold Obligations.BurstRowsComplete
  rintro ⟨-, -, -, -, -, hdata, -⟩
  have htaken := hdata rawHub 0 9 5 {} leaf5Burst
  iterate 11 specialize htaken (by decide +kernel)
  obtain ⟨t, hx, -, -, -, -, -, -, -, -, -, -, htab⟩ := htaken
  obtain ⟨-, hcarried⟩ := rawHub_carries
  rw [hx, rawWaiting, htab] at hcarried
  exact absurd hcarried (by decide +kernel)

end Sys2Proof.Proofs
end

section
/-!
SUPPORT. CAL_RUN where the record of an ended job has the serial number that comes next (R452, R454): a record is dropped at JOB_RECORD_EXPIRY,
and until then it hides a later job of its token.
-/
namespace Sys2Proof.Proofs
open Sys2Proof Sys2Proof.Machine Sys2Proof.Laws

/-- A job that starts is hidden by a record of its token. -/
theorem job_startJob_of_kept {s : State} {tenant op : Nat} {work : JobWork} {j : Job}
    (h : s.job (tenant * 2 ^ 28 + s.jobs.next) = some j) (token : Nat) : (s.startJob tenant op work).1.job token = s.job token := by
  have hnew : (s.startJob tenant op work).1.job token =
      (s.job token).or ([Job.mk s.jobs.next tenant op work 0 none false none].find? fun x => x.token == token) :=
    List.find?_append
  rw [hnew]
  by_cases ht : tenant * 2 ^ 28 + s.jobs.next = token
  · rw [← ht, h]
    rfl
  · rw [List.find?_cons_of_neg (by simpa [Job.token] using ht), List.find?_nil, Option.or_none]

/-- Calibrated converters: the elements hold the positions in order, then come the rover and the reserve (R331). -/
def calibratedConvs : List Conv :=
  (List.range 8).map fun c => { hold := List.range (positions c), rover := some (positions c), reserve := some (positions c + 1) }

/-- The record of a CAL_RUN of converter 0 that ended a second ago, the first job since the reset. -/
def endedCalRun : Job :=
  { serial := 1, tenant := 0, op := 0x0E02, work := .calRun 0 [] [0] none, progress := 100
    ended := some { outcome := 0, cancelled := false, result := [], chamber := 77343750, at_ := 49 * secQ, order := 0 } }

/-- Engine 0 is calibrated, no job runs, and the serial numbers have wrapped: 1 comes next, and the first job's record still stands. -/
def wrappedSerials : State :=
  { servingDevice with
    engs := [(0, { cal := { bootDone := true, ohms := some 2000, convs := calibratedConvs } })]
    jobs := { next := 1, list := [endedCalRun], ended := 2 ^ 28 - 1 } }

/-- The record has the token of the next job of T0. -/
theorem wrappedSerials_keeps : wrappedSerials.job (0 * 2 ^ 28 + wrappedSerials.jobs.next) = some endedCalRun := by
  decide +kernel

/-- CAL_RUN of converter 0 of engine 0. -/
def calRunOf0 : Request := ringRequest [0, 1, 0, 0]

/-- The jobs of the state that a step leaves. -/
def jobsAfter (o : Host.Outcome State Fault Refusal) : Option Jobs :=
  match o with | .next t => some t.jobs | _ => none

/-- An answer leaves the jobs as they were. -/
theorem jobsAfter_answer {o : Host.Outcome State Fault Refusal} {u : State} {op : Nat} {q : Request} {p : List Byte}
    (h : o = .next (u.answer op q p)) : jobsAfter o = some u.jobs := by
  subst h
  simp [jobsAfter]

/-- CAL_RUN starts its job, with the token of the record. -/
theorem wrappedSerials_starts : jobsAfter (exec (.calRun calRunOf0) wrappedSerials) =
    some (wrappedSerials.startJob 0 0x0E02 (.calRun 0 [0] [0] none)).1.jobs := by
  decide +kernel

/-- Refutes O36: where the record of an ended job still has the serial number that comes next (R452, R454), CAL_RUN starts a job of that token,
and the token finds the ended one, so no token finds a CAL_RUN under way. -/
theorem not_calibrationComplete : ¬ Obligations.CalibrationComplete := by
  unfold Obligations.CalibrationComplete
  rintro ⟨-, -, hrun, -⟩
  have hstarted := hrun wrappedSerials calRunOf0 0
  iterate 13 specialize hstarted (by decide +kernel)
  obtain ⟨u, token, hx, hjob, -⟩ := hstarted
  have hjobs : u.jobs = (wrappedSerials.startJob 0 0x0E02 (.calRun 0 [0] [0] none)).1.jobs :=
    Option.some.inj ((jobsAfter_answer hx).symm.trans wrappedSerials_starts)
  have hkept : u.job token = wrappedSerials.job token := by
    rw [State.job, hjobs]
    exact job_startJob_of_kept wrappedSerials_keeps token
  obtain ⟨j, hj, hrunning⟩ := Option.map_eq_some_iff.mp (hkept ▸ hjob)
  obtain rfl : j = endedCalRun := List.mem_singleton.mp (List.mem_of_find?_eq_some hj)
  exact absurd hrunning (by decide)

end Sys2Proof.Proofs
end

section
/-!
SUPPORT. The cipher's tables: what a changed key slot, binding, pair or lane reads, and that the others stay.
-/
namespace Sys2Proof.Proofs
open Sys2Proof Sys2Proof.Machine Sys2Proof.Laws

/-- A key slot that entered a state keeps the rest. -/
theorem keySlot_keyTo_self (s : State) (k : Nat) (st : KeySt) : (s.keyTo k st).keySlot k = { s.keySlot k with st := st } := by
  rw [State.keySlot, keyTo_cip, tgetD_tupd_self]
  rfl

/-- The other key slots stay in their states. -/
theorem keySlot_keyTo_ne (s : State) {k j : Nat} (st : KeySt) (h : j ≠ k) : (s.keyTo k st).keySlot j = s.keySlot j := by
  rw [State.keySlot, keyTo_cip, tgetD_tupd_ne _ _ _ _ h]
  rfl

/-- A changed record of a passage. -/
theorem cipPas_modCipPas_self (s : State) (id : Nat) (f : CipPas → CipPas) : (s.modCipPas id f).cipPas id = f (s.cipPas id) := by
  rw [State.cipPas, modCipPas_cip, tgetD_tupd_self]
  rfl

/-- Changing the record of a passage leaves the others. -/
theorem cipPas_modCipPas_ne (s : State) {id j : Nat} (f : CipPas → CipPas) (h : j ≠ id) :
    (s.modCipPas id f).cipPas j = s.cipPas j := by
  rw [State.cipPas, modCipPas_cip, tgetD_tupd_ne _ _ _ _ h]
  rfl

/-- A changed pair. -/
theorem pair_modPair_self (s : State) (k : Nat) (f : Pair → Pair) : (s.modPair k f).pair k = f (s.pair k) := by
  rw [State.pair, modPair_cip, tgetD_tput_self]

/-- Changing a pair leaves the others. -/
theorem pair_modPair_ne (s : State) {k j : Nat} (f : Pair → Pair) (h : j ≠ k) : (s.modPair k f).pair j = s.pair j := by
  rw [State.pair, modPair_cip, tgetD_tput_ne _ _ _ h]
  rfl

/-- A changed lane. -/
theorem lane_modLane_self (s : State) (l : Nat) (f : Lane → Lane) : (s.modLane l f).lane l = f (s.lane l) := by
  rw [State.lane, modLane_cip, tgetD_tput_self]

/-- Changing a lane leaves the others. -/
theorem lane_modLane_ne (s : State) {l j : Nat} (f : Lane → Lane) (h : j ≠ l) : (s.modLane l f).lane j = s.lane j := by
  rw [State.lane, modLane_cip, tgetD_tput_ne _ _ _ h]
  rfl

/-- Pairs follow the cipher. -/
theorem pair_congr {s t : State} (h : t.cip = s.cip) (k : Nat) : t.pair k = s.pair k := by rw [State.pair, h, State.pair]

/-- Key slots follow the cipher. -/
theorem keySlot_congr {s t : State} (h : t.cip = s.cip) (k : Nat) : t.keySlot k = s.keySlot k := by
  rw [State.keySlot, h, State.keySlot]

/-- The cipher's records of passages follow the cipher. -/
theorem cipPas_congr {s t : State} (h : t.cip = s.cip) (id : Nat) : t.cipPas id = s.cipPas id := by
  rw [State.cipPas, h, State.cipPas]

/-- Adding to a counter leaves the others of its group. -/
theorem ctr_bump_ne (s : State) (u i n : Nat) {k j : Nat} (h : j ≠ k) : (s.bump u i k n).ctr u i j = s.ctr u i j := by
  rw [State.ctr, bump_cnt, tgetD_tupd_ne _ _ _ _ (by unfold ctrKey; omega)]
  rfl

end Sys2Proof.Proofs
end

section
/-!
SUPPORT. What the event log takes from the rest of the state: an event's records do not depend on passages, cipher and counters, and leave
the life record.
-/
namespace Sys2Proof.Proofs
open Sys2Proof Sys2Proof.Machine Sys2Proof.Laws

/-- The log with another life record. -/
def withLife (x : Life) (l : Log) : Log := { l with life := x }

/-- Counting dropped records leaves the life record. -/
theorem drop_withLife (x : Life) (l : Log) (rs : List EvRec) (ch mono : Nat) :
    (withLife x l).drop rs ch mono = withLife x (l.drop rs ch mono) :=
  List.foldl_hom (withLife x) fun _ _ => rfl

/-- Writing records leaves the life record. -/
theorem append_withLife (x : Life) (l : Log) (rs : List EvRec) : (withLife x l).append rs = withLife x (l.append rs) :=
  List.foldl_hom (withLife x) fun _ _ => rfl

/-- The unread records of a full spill that go where it makes room for the ring's oldest (R521). -/
def spillOld (l : Log) : List EvRec := l.spill.take (spillFront (l.spill.length + l.oldestSize - spillCap) l.spill)

/-- A full spill without its `n` oldest records. -/
def spillCut (l : Log) (n : Nat) : Log :=
  { l with spill := l.spill.drop n, spillRd := (l.spillRd + n) % 2 ^ 32, spillFull := true }

/-- A spill that is full and keeps what it has. -/
def spillRefused (l : Log) : Log := { l with spillFull := true }

/-- One step of making room in the ring (R521). -/
theorem room_succ (l : Log) (ready : Bool) (n ch mono fuel : Nat) :
    l.room ready n ch mono (fuel + 1) =
      if l.unread + n ≤ 65536 then (l, true)
      else if l.spillEn && ready then
        if l.spill.length + l.oldestSize ≤ spillCap then l.toSpill.room ready n ch mono fuel
        else if l.keepNewest then
          (((spillCut l (spillOld l).length).drop (spillOld l) ch mono).toSpill).room ready n ch mono fuel
        else (spillRefused l, false)
      else if l.keepNewest then ((l.drop l.oldest ch mono).skip).room ready n ch mono fuel
      else (l, false) := rfl

/-- Making room leaves the life record. -/
theorem room_withLife (x : Life) (ready : Bool) (n ch mono fuel : Nat) (l : Log) :
    (withLife x l).room ready n ch mono fuel = (l.room ready n ch mono fuel).map (withLife x) id := by
  induction fuel generalizing l with
  | zero => rfl
  | succ fuel ih =>
    have hspill : (withLife x l).toSpill = withLife x l.toSpill := rfl
    have hshed : ((spillCut (withLife x l) (spillOld (withLife x l)).length).drop (spillOld (withLife x l)) ch mono).toSpill =
        withLife x ((spillCut l (spillOld l).length).drop (spillOld l) ch mono).toSpill :=
      congrArg Log.toSpill (drop_withLife x (spillCut l (spillOld l).length) _ ch mono)
    have hskip : ((withLife x l).drop (withLife x l).oldest ch mono).skip = withLife x (l.drop l.oldest ch mono).skip :=
      congrArg Log.skip (drop_withLife x l _ ch mono)
    rw [room_succ, room_succ, hspill, hshed, hskip, ih, ih, ih]
    simp only [apply_ite (Prod.map (withLife x) id)]
    rfl

/-- The record of the ring that takes an occurrence as a repeat (R518). -/
def repeated (l : Log) (e : Ev) (rs : List EvRec) : Option (Nat × EvRec) :=
  if e = .logOverflow then none else l.ring.find? fun kr => l.coalesces kr.1 kr.2 e rs

/-- One more masked occurrence (R525). -/
def countMasked (l : Log) : Log := { l with masked := l.masked + 1 }

/-- What recording an occurrence does: it is masked, repeats a record, is written, or is dropped (R518 to R525). -/
theorem put_eq (l : Log) (ready : Bool) (ch mono : Nat) (e : Ev) (rs : List EvRec) :
    l.put ready ch mono e rs =
      if e ≠ .logOverflow ∧ e.severity < bitsAt l.floor (2 * e.cls) 2 then countMasked l
      else (repeated l e rs).elim
        (if (l.room ready rs.length ch mono 4).2 then (l.room ready rs.length ch mono 4).1.append rs
          else (l.room ready rs.length ch mono 4).1.drop rs ch mono)
        fun kr => l.bump kr.1 rs.length := by
  unfold Log.put repeated countMasked
  generalize (if e = .logOverflow then none else l.ring.find? fun kr => l.coalesces kr.1 kr.2 e rs) = found
  generalize l.room ready rs.length ch mono 4 = r
  obtain ⟨m, - | -⟩ := r <;> cases found <;> rfl

/-- Recording an occurrence leaves the life record. -/
theorem put_withLife (x : Life) (l : Log) (ready : Bool) (ch mono : Nat) (e : Ev) (rs : List EvRec) :
    (withLife x l).put ready ch mono e rs = withLife x (l.put ready ch mono e rs) := by
  rw [put_eq, put_eq, apply_ite (withLife x)]
  refine ite_congr rfl (fun _ => rfl) fun _ => ?_
  rw [show repeated (withLife x l) e rs = repeated l e rs from rfl]
  cases repeated l e rs with
  | some kr => rfl
  | none =>
    rw [room_withLife]
    generalize l.room ready rs.length ch mono 4 = r
    obtain ⟨m, - | -⟩ := r
    · exact drop_withLife ..
    · exact append_withLife ..

/-- LOG_SPILL_FULL where an occurrence found the spill full first (R521). -/
def spillNoted (s : State) (before : Bool) (l : Log) : Log :=
  if l.spillFull && !before then
    l.put s.lpReady s.chamber s.mono .logSpillFull
      (recordsOf s.now islCtrl .logSpillFull 0xFFFF (le 6 s.chamber ++ le 1 (if l.keepNewest then 2 else 1)))
  else l

/-- When an engine's island raised an event, for the captures that wait for it (R282). -/
def islandRaised (t island : Nat) (e : Ev) (l : Log) : Log :=
  { l with raised := if 3 ≤ island ∧ island ≤ 10 then tput l.raised (island * 65536 + e.code) t else l.raised }

/-- The log after an event was recorded: what the event finds there, and what it takes from the rest of the state. -/
theorem recordAt_log (s : State) (t island : Nat) (e : Ev) (source : Nat) (full : List Byte) :
    (s.recordAt t island e source full).log = islandRaised t island e
      (spillNoted s s.log.spillFull (s.log.put s.lpReady s.chamber s.mono e (recordsOf t island e source full))) := by
  have hset : ∀ u : State, (u.setInt 0 3).log = u.log := fun u => by simp
  simp only [State.recordAt, apply_ite State.log, hset, ite_self]
  rfl

/-- LOG_SPILL_FULL leaves the life record. -/
theorem spillNoted_withLife (s : State) (x : Life) (before : Bool) (l : Log) :
    spillNoted s before (withLife x l) = withLife x (spillNoted s before l) := by
  rw [spillNoted, spillNoted, apply_ite (withLife x)]
  exact ite_congr rfl (fun _ => put_withLife ..) fun _ => rfl

/-- An event after a change of the life record leaves what the event alone leaves, with the changed life record. -/
theorem raise_modLife_log (s : State) (f : Life → Life) (island : Nat) (e : Ev) (source : Nat) (p : List Byte) :
    ((s.modLife f).raise island e source p).log = { (s.raise island e source p).log with life := f s.log.life } := by
  have hput := fun t rs => put_withLife (f s.log.life) s.log s.lpReady s.chamber t e rs
  rw [State.raise, State.raise, State.raiseAt, State.raiseAt, recordAt_log, recordAt_log]
  exact congrArg (islandRaised s.now island e) ((congrArg (spillNoted s s.log.spillFull) (hput ..)).trans (spillNoted_withLife ..))

/-- What an event adds to the log does not depend on passages, the cipher, counters or the command interface. -/
theorem raise_log_of_cipher {s t : State} (h : { t with pas := s.pas, cip := s.cip, cnt := s.cnt, com := s.com } = s)
    (i : Nat) (e : Ev) (src : Nat) (p : List Byte) : (t.raise i e src p).log = (s.raise i e src p).log := by
  rw [← h, State.raise, State.raise, State.raiseAt, State.raiseAt, recordAt_log, recordAt_log]
  rfl

/-- An event changes nothing of the cipher. -/
theorem raise_cip (s : State) (i : Nat) (e : Ev) (src : Nat) (p : List Byte) : (s.raise i e src p).cip = s.cip := by simp

/-- An event changes no counter. -/
theorem raise_cnt (s : State) (i : Nat) (e : Ev) (src : Nat) (p : List Byte) : (s.raise i e src p).cnt = s.cnt := by simp

end Sys2Proof.Proofs
end

section
/-!
SUPPORT. The end of a retired pair's self-test (R362).
-/
namespace Sys2Proof.Proofs
open Sys2Proof Sys2Proof.Machine Sys2Proof.Laws

/-- `t` differs from `s` at most in the cipher, the log and the command interface, and has the same responses waiting. -/
def CipherEvent (s t : State) : Prop := { t with cip := s.cip, log := s.log, com := s.com } = s ∧ t.com.relayed = s.com.relayed

/-- A change of the cipher alone is such a change. -/
theorem CipherOnly.event {s t : State} (h : CipherOnly s t) : CipherEvent s t := by
  rw [h.eq]
  exact ⟨rfl, rfl⟩

/-- An event after such a change is one. -/
theorem CipherEvent.raise {s t : State} (h : CipherEvent s t) (i : Nat) (e : Ev) (src : Nat) (p : List Byte) :
    CipherEvent s (t.raise i e src p) := by
  have hevent := congrArg (fun v : State => { v with cip := s.cip, log := s.log, com := s.com })
    (recordAt_logAndWatermarkOnly t t.now i e src (if e.hasChamber then le 6 (chamberOf t.epoch t.now) ++ p else p)).1
  exact ⟨hevent.trans h.1, by simpa using h.2⟩

/-- A change of the cipher after such a change is one. -/
theorem CipherEvent.modCip {s t : State} (h : CipherEvent s t) (f : Cipher → Cipher) : CipherEvent s (t.modCip f) := h

/-- A row that makes no response ends with the state that it gives. -/
theorem CipherEvent.done {s t : State} (h : CipherEvent s t) (hs : s.settled) : t.done = .next t := done_of_settled (h.2.trans hs)

/-- A retired pair that fails its self-test at a step. -/
def pairFailed (s : State) (k step : Nat) : State :=
  ((s.modLife fun l => { l with pairFail := l.pairFail + 1 }).modPair k fun p => { p with st := 3 }).raise
    islFab .cipherPairFailed k (le 1 step)

/-- A retired pair that passes its self-test is a spare. -/
def pairReturned (s : State) (k : Nat) : State := (s.modPair k fun p => { p with st := 1 }).raise islFab .cipherPairReturned k []

/-- A spare serves a lane from the next chamber on, and the lanes of `rest` still wait. -/
def pairServes (s : State) (k l : Nat) (rest : List Nat) : State :=
  ((s.modPair k fun p => { p with st := 0 }).modLane l fun x => { x with pair := some k, start := some (chAdd s.chamber 1) }).modCip
    fun c => { c with waiting := rest }

/-- What the end of a self-test does, by its outcome and the lanes that wait. -/
theorem pairSelftestDone_cases {s : State} {k : Nat} (h : (s.pair k).st = 2) :
    (∀ step, s.pairSelftestDone k (some step) = pairFailed s k step) ∧
    (s.cip.waiting = [] → s.pairSelftestDone k none = pairReturned s k) ∧
    (∀ l rest, s.cip.waiting = l :: rest → s.pairSelftestDone k none = pairServes (pairReturned s k) k l rest) := by
  have hw : (pairReturned s k).cip.waiting = s.cip.waiting := by
    rw [pairReturned, raise_cip]
    rfl
  refine ⟨fun step => ?_, fun hnone => ?_, fun l rest hlane => ?_⟩ <;> rw [State.pairSelftestDone, if_neg (Classical.not_not.mpr h)]
  · rfl
  · rw [hnone] at hw
    show (match (pairReturned s k).cip.waiting with | [] => _ | _ :: _ => _) = _
    rw [hw]
    rfl
  · rw [hlane] at hw
    show (match (pairReturned s k).cip.waiting with | [] => _ | _ :: _ => _) = _
    rw [hw]
    rfl

/-- A pair that failed: what it writes. -/
theorem pairFailed_writes (s : State) (k step : Nat) :
    (pairFailed s k step).pair k = { s.pair k with st := 3 } ∧
    (pairFailed s k step).log =
      { (s.raise islFab .cipherPairFailed k (le 1 step)).log with life := { s.log.life with pairFail := s.log.life.pairFail + 1 } } ∧
    (∀ j, j ≠ k → (pairFailed s k step).pair j = s.pair j) ∧ (pairFailed s k step).cip.lanes = s.cip.lanes ∧
    CipherEvent s (pairFailed s k step) := by
  have hcip : (pairFailed s k step).cip = (s.modPair k fun p => { p with st := 3 }).cip := raise_cip ..
  refine ⟨?_, ?_, fun j hj => ?_, ?_, ?_⟩
  · rw [pair_congr hcip, pair_modPair_self]
  · exact (raise_log_of_cipher rfl ..).trans (raise_modLife_log s (fun l => { l with pairFail := l.pairFail + 1 }) ..)
  · rw [pair_congr hcip, pair_modPair_ne _ _ hj]
  · rw [hcip]
    rfl
  · have hlife : CipherEvent s ((s.modLife fun l => { l with pairFail := l.pairFail + 1 }).modPair k fun p => { p with st := 3 }) :=
      ⟨rfl, rfl⟩
    exact hlife.raise ..

/-- A pair that returned: what it writes. -/
theorem pairReturned_writes (s : State) (k : Nat) :
    (pairReturned s k).pair k = { s.pair k with st := 1 } ∧ (pairReturned s k).log = (s.raise islFab .cipherPairReturned k []).log ∧
    (∀ j, j ≠ k → (pairReturned s k).pair j = s.pair j) ∧ (pairReturned s k).cip.lanes = s.cip.lanes ∧
    CipherEvent s (pairReturned s k) := by
  have hcip : (pairReturned s k).cip = (s.modPair k fun p => { p with st := 1 }).cip := raise_cip ..
  refine ⟨?_, raise_log_of_cipher rfl .., fun j hj => ?_, ?_, ?_⟩
  · rw [pair_congr hcip, pair_modPair_self]
  · rw [pair_congr hcip, pair_modPair_ne _ _ hj]
  · rw [hcip]
    rfl
  · exact CipherEvent.raise (s := s) (t := s.modPair k fun p => { p with st := 1 }) ⟨rfl, rfl⟩ ..

/-- A pair that takes a waiting lane: what it writes. -/
theorem pairServes_writes (s : State) (k l : Nat) (rest : List Nat) :
    (pairServes s k l rest).pair k = { s.pair k with st := 0 } ∧ ((pairServes s k l rest).lane l).pair = some k ∧
    ((pairServes s k l rest).lane l).start = some (chAdd s.chamber 1) ∧ (pairServes s k l rest).cip.waiting = rest ∧
    (∀ j, j ≠ k → (pairServes s k l rest).pair j = s.pair j) ∧ (∀ j, j ≠ l → (pairServes s k l rest).lane j = s.lane j) := by
  have hpair : ∀ j, (pairServes s k l rest).pair j = (s.modPair k fun p => { p with st := 0 }).pair j := fun _ => rfl
  have hlane : ∀ j, (pairServes s k l rest).lane j =
      (s.modLane l fun x => { x with pair := some k, start := some (chAdd s.chamber 1) }).lane j := fun _ => rfl
  refine ⟨?_, ?_, ?_, rfl, fun j hj => ?_, fun j hj => ?_⟩
  · rw [hpair, pair_modPair_self]
  · rw [hlane, lane_modLane_self]
  · rw [hlane, lane_modLane_self]
  · rw [hpair, pair_modPair_ne _ _ hj]
  · rw [hlane, lane_modLane_ne _ _ hj]

/-- A pair that takes a lane changes the cipher alone. -/
theorem CipherEvent.serves {s t : State} (h : CipherEvent s t) (k l : Nat) (rest : List Nat) : CipherEvent s (pairServes t k l rest) := h

/-- A pair that passes while a lane waits for one: what it writes. -/
theorem pairReturned_serves (s : State) (k l : Nat) (rest : List Nat) :
    (pairServes (pairReturned s k) k l rest).pair k = { s.pair k with st := 0 } ∧
    ((pairServes (pairReturned s k) k l rest).lane l).pair = some k ∧
    ((pairServes (pairReturned s k) k l rest).lane l).start = some (chAdd s.chamber 1) ∧
    (pairServes (pairReturned s k) k l rest).cip.waiting = rest ∧
    (∀ j, j ≠ k → (pairServes (pairReturned s k) k l rest).pair j = s.pair j) ∧
    (∀ j, j ≠ l → (pairServes (pairReturned s k) k l rest).lane j = s.lane j) ∧
    CipherEvent s (pairServes (pairReturned s k) k l rest) := by
  obtain ⟨hpair, -, hothers, hlanes, hevent⟩ := pairReturned_writes s k
  obtain ⟨hpair', hlane, hstart, hwaiting, hothers', hlanes'⟩ := pairServes_writes (pairReturned s k) k l rest
  have hch : (pairReturned s k).chamber = s.chamber := by simp [pairReturned, State.chamber]
  refine ⟨?_, hlane, ?_, hwaiting, fun j hj => ?_, fun j hj => ?_, hevent.serves k l rest⟩
  · rw [hpair', hpair]
  · rw [hstart, hch]
  · rw [hothers' j hj, hothers j hj]
  · rw [hlanes' j hj, State.lane, hlanes, State.lane]

end Sys2Proof.Proofs
end

section
/-!
SUPPORT. The segment of an encrypting passage: its blocks leave the passage buffers, and it is sealed (R349 to R353, R363).
-/
namespace Sys2Proof.Proofs
open Sys2Proof Sys2Proof.Machine Sys2Proof.Laws

/-- `t` is `s` after passage `id` gave up blocks: no other passage changes, nor the tags that the passage has ready for its frames. -/
structure BlocksTaken (id : Nat) (s t : State) : Prop where
  signal : SignalOnly s t
  others : ∀ j, j ≠ id → tget t.pas j = tget s.pas j
  tags : (tget t.pas id).map Passage.segTags = (tget s.pas id).map Passage.segTags

theorem BlocksTaken.refl (id : Nat) (s : State) : BlocksTaken id s s := ⟨.refl s, fun _ _ => rfl, rfl⟩

theorem BlocksTaken.trans {id : Nat} {s t u : State} (h : BlocksTaken id s t) (h' : BlocksTaken id t u) : BlocksTaken id s u :=
  ⟨h.signal.trans h'.signal, fun j hj => (h'.others j hj).trans (h.others j hj), h'.tags.trans h.tags⟩

/-- An event is such a change. -/
theorem BlocksTaken.raise (id : Nat) (s : State) (i : Nat) (e : Ev) (src : Nat) (p : List Byte) : BlocksTaken id s (s.raise i e src p) :=
  ⟨signalOnly_raise .., fun j _ => by rw [raise_pas], by rw [raise_pas]⟩

/-- A passage that has nothing ready keeps what it has (R54, R72, R75). -/
theorem dry_taken (s : State) (p : Passage) (id : Nat) : BlocksTaken id s (s.dry p id).1 := by
  unfold State.dry
  dsimp only
  split
  · exact .refl id s
  · split
    · exact .refl id s
    · split
      · exact .refl id s
      · exact .raise ..

/-- A passage supplies one block (R54, R75). -/
theorem supply_taken (s : State) (id : Nat) : BlocksTaken id s (s.supply id).1 := by
  unfold State.supply
  split
  · exact .refl id s
  · rename_i p hp
    split
    · split
      · exact dry_taken s p id
      · refine ⟨signalOnly_modPas .., fun j hj => tget_modPas_ne _ _ hj, ?_⟩
        obtain ⟨l, hkeep⟩ := keep_eq p s.chamber
        obtain ⟨o, qp, q, hpop⟩ := pop_eq (p.keep s.chamber)
        rw [tget_modPas_of hp, hp, hpop, hkeep]
        rfl
    · exact dry_taken s p id

/-- A passage supplies the blocks of a segment, one after the other. -/
theorem pull_taken (id n : Nat) (s : State) : BlocksTaken id s (State.pull n s id).2 := by
  induction n generalizing s with
  | zero => exact .refl id s
  | succ n ih => exact (supply_taken s id).trans (ih _)

/-- As many blocks leave as the segment has places. -/
theorem pull_length (id n : Nat) (s : State) : (State.pull n s id).1.length = n := by
  induction n generalizing s with
  | zero => rfl
  | succ n ih => exact congrArg Nat.succ (ih _)

/-- `t` is `s` after a segment's blocks left passage `id` and were counted: no counter of the cipher's groups that stands first changes. -/
structure SegmentTaken (id : Nat) (s t : State) : Prop where
  restore : { t with pas := s.pas, cnt := s.cnt, log := s.log, com := s.com } = s
  relayed : t.com.relayed = s.com.relayed
  others : ∀ j, j ≠ id → tget t.pas j = tget s.pas j
  tags : (tget t.pas id).map Passage.segTags = (tget s.pas id).map Passage.segTags
  ctr : ∀ u i, t.ctr u i 0 = s.ctr u i 0

/-- A segment takes its blocks, and those with no place in Table 5.3 are counted by the engine (R183, R351). -/
theorem segmentIn_taken (s : State) (id : Nat) (p : Passage) : SegmentTaken id s (s.segmentIn id p).2 := by
  obtain ⟨⟨hrest, hrel⟩, hothers, htags⟩ := pull_taken id (100 * p.slots) s
  have hrest' := congrArg (fun v : State => { v with cnt := s.cnt }) hrest
  have hcnt : (State.pull (100 * p.slots) s id).2.cnt = s.cnt := by simpa using congrArg State.cnt hrest
  unfold State.segmentIn
  dsimp only
  split
  · exact ⟨hrest', hrel, hothers, htags, fun u i => ctr_congr hcnt u i 0⟩
  · refine ⟨hrest', hrel, hothers, htags, fun u i => ?_⟩
    rw [State.ctr, bump_cnt, tgetD_tupd_ne _ _ _ _ (by unfold ctrKey; omega), hcnt]
    rfl

/-- What the taking of a segment leaves: the state but for passages, counters, log and command interface. -/
theorem SegmentTaken.eq {id : Nat} {s t : State} (h : SegmentTaken id s t) :
    t = { s with pas := t.pas, cnt := t.cnt, log := t.log, com := t.com } :=
  congrArg (fun v : State => { v with pas := t.pas, cnt := t.cnt, log := t.log, com := t.com }) h.restore

/-- A passage with slots has a segment. -/
theorem segmentIn_nonempty (s : State) (id : Nat) {p : Passage} (h : p.slots ≠ 0) : (s.segmentIn id p).1.isEmpty = false := by
  have hlen : (s.segmentIn id p).1.length = 100 * p.slots := by
    rw [State.segmentIn, List.length_map, pull_length]
  rw [List.isEmpty_eq_false_iff_exists_mem]
  exact List.exists_mem_of_length_pos (by omega)

/-- A passage whose sealed blocks wait for egress. -/
def withSealed (g : Segment) (p : Passage) : Passage := { p with sealed := g.out }

/-- A passage that keeps a segment's tag for the frame (R177). -/
def withSegTag (g : Segment) (p : Passage) : Passage := { p with segTags := ((g.ch, g.tag) :: p.segTags).take 4 }

/-- A segment of passage `id` is sealed: it waits for its egress, its tag is kept for the frame, and it is counted (R350, R363, R177). -/
def sealSegment (s : State) (id : Nat) (g : Segment) : State :=
  (((s.modPas id (withSealed g)).modCipPas id fun r => { r with sentCh := some g.ch }).modPas id (withSegTag g)).cipCount id 0 1

/-- CIPHER_SEGMENT of an encrypting passage without a mismatch, where every lane has its pair, seals the segment. -/
theorem cipherSegment_seals {s : State} {id : Nat} {p : Passage} (hp : tget s.pas id = some p) (hm : p.mode ≠ 0) (hst : p.st ≠ 1)
    (hsl : p.slots ≠ 0) (hd : s.dark unitKeyStore = none) (he : p.decrypts = false) (hsent : (s.cipPas id).sentCh ≠ some s.chamber)
    (hdue : s.segmentDue id = true)
    (hl : (s.segmentLanes id).all (fun l => (s.lane l).badCh != some s.chamber && (s.lane l).pair.isSome && (s.lane l).start.isNone) =
      true) :
    s.cipherSegment id s.chamber none =
      sealSegment (s.segmentIn id p).2 id (s.segmentOf id p s.chamber (s.segmentIn id p).1) := by
  have htaken := (segmentIn_taken s id p).eq
  have hlane : ∀ l, (s.segmentIn id p).2.lane l = s.lane l := fun l => by rw [htaken]; rfl
  have hseg : ∀ c bs, (s.segmentIn id p).2.segmentOf id p c bs = s.segmentOf id p c bs := fun c bs => by rw [htaken]; rfl
  have hgood : ∀ l ∈ s.segmentLanes id,
      (s.lane l).badCh ≠ some s.chamber ∧ (s.lane l).pair.isSome = true ∧ (s.lane l).start = none := by
    simpa [and_assoc] using hl
  have hhit : ((s.segmentLanes id).any fun l => (s.lane l).badCh == some s.chamber) = false := by
    rw [List.any_eq_false]
    exact fun l hmem => by simpa using (hgood l hmem).1
  have hguard : (decide (p.mode = 0) || decide (p.st = 1) || (s.dark unitKeyStore).isSome || (s.chamber != s.chamber ||
      (s.cipPas id).sentCh == some s.chamber || !(s.segmentDue id))) = false := by
    simp [hm, hst, hd, hsent, hdue]
  have hchamber : (s.segmentIn id p).2.chamber = s.chamber := by rw [htaken]; rfl
  simp only [State.cipherSegment, hp, he, Bool.not_false, hguard, segmentIn_nonempty s id hsl, hlane, hseg, hhit, hchamber,
    State.passSegment, Bool.false_eq_true, if_false, Bool.true_and, if_true]
  refine (if_pos ?_).trans rfl
  rw [Bool.not_eq_true', List.any_eq_false]
  intro l hmem
  obtain ⟨-, hpair, hstart⟩ := hgood l hmem
  simp [hstart, Option.isNone_eq_false_iff.mpr hpair]

/-- What a sealed segment writes: the passage's blocks for egress and its tags, the chamber that was sealed, and the count. -/
theorem sealSegment_writes {s t : State} {id : Nat} {p : Passage} (hp : tget s.pas id = some p) (ht : SegmentTaken id s t) (g : Segment) :
    ((tget (sealSegment t id g).pas id).map fun y => (y.sealed, y.segTags)) = some (g.out, ((g.ch, g.tag) :: p.segTags).take 4) ∧
    ((sealSegment t id g).cipPas id).sentCh = some g.ch ∧
    (sealSegment t id g).ctr unitKeyStore id 0 = s.ctr unitKeyStore id 0 + 1 ∧
    (∀ j, j ≠ id → (sealSegment t id g).cipPas j = s.cipPas j) ∧
    (sealSegment t id g).cip = { s.cip with pas := (sealSegment t id g).cip.pas } ∧
    (∀ j, j ≠ id → tget (sealSegment t id g).pas j = tget s.pas j) ∧
    { sealSegment t id g with pas := s.pas, cip := s.cip, cnt := s.cnt, log := s.log, com := s.com } = s ∧
    (sealSegment t id g).com.relayed = s.com.relayed := by
  obtain ⟨hrest, hrel, hothers, htags, hctr⟩ := ht
  have hcip : t.cip = s.cip := by simpa using congrArg State.cip hrest
  have hsent : ∀ j, (sealSegment t id g).cipPas j = (t.modCipPas id fun r => { r with sentCh := some g.ch }).cipPas j := fun _ => rfl
  have hpas : (sealSegment t id g).pas = ((t.modPas id (withSealed g)).modPas id (withSegTag g)).pas := rfl
  refine ⟨?_, ?_, ?_, fun j hj => ?_, ?_, fun j hj => ?_, ?_, hrel⟩
  · rw [hp, Option.map_some, Option.map_eq_some_iff] at htags
    obtain ⟨p', hp', htags'⟩ := htags
    obtain ⟨l, hkeep⟩ := keep_eq p' t.chamber
    obtain ⟨l', hkeep'⟩ := keep_eq (withSealed g (p'.keep t.chamber)) t.chamber
    rw [hpas, tget_modPas_of (tget_modPas_of hp' (withSealed g)) (withSegTag g),
      show (t.modPas id (withSealed g)).chamber = t.chamber from rfl, hkeep', hkeep, ← htags']
    rfl
  · rw [hsent, cipPas_modCipPas_self]
  · exact (ctr_bump_self ..).trans (congrArg (· + 1) (hctr unitKeyStore id))
  · rw [hsent, cipPas_modCipPas_ne _ _ hj]
    exact cipPas_congr hcip j
  · rw [← hcip]
    rfl
  · rw [hpas, tget_modPas_ne _ _ hj, tget_modPas_ne _ _ hj, hothers j hj]
  · exact congrArg (fun v : State => { v with cip := s.cip }) hrest

end Sys2Proof.Proofs
end

section
/-!
SUPPORT. The tag of a segment at the decrypting device (R365 to R367): what a tag that agrees and a missing entry write.
-/
namespace Sys2Proof.Proofs
open Sys2Proof Sys2Proof.Machine Sys2Proof.Laws

/-- The segment for a chamber leaves the segment buffers, and the last old tag of a rebind is noted (R381). -/
def checkedRecord (c : Nat) (r : CipPas) : CipPas :=
  { r with
    segs := r.segs.filter fun g => g.ch != c
    olds := r.olds.map fun o => if o.decrypts && chSub o.cc 1 == c then { o with checked := true } else o }

/-- A passage whose last segment agreed with its tag. -/
def tagHeld (p : Passage) : Passage := { p with tagFail := false }

/-- A passage whose last segment failed its tag: in CIPHER_MODE 2 a packet under way ends as an error block (R366). -/
def tagLost (p : Passage) : Passage := { p with tagFail := true, endNext := p.endNext || (p.mode == 2 && p.inPacket) }

/-- A passage with blocks that became free to leave. -/
def withOpened (out : List (Block × Option QBlock)) (p : Passage) : Passage :=
  { p with opened := p.opened ++ out.filterMap fun x => x.2.map fun q => { q with b := x.1 } }

/-- `t` differs from `s` at most in the passages, the cipher and the counters. -/
def TagOnly (s t : State) : Prop := { t with pas := s.pas, cip := s.cip, cnt := s.cnt } = s

/-- A change of a passage after such a change is one. -/
theorem TagOnly.modPas {s t : State} (h : TagOnly s t) (id : Nat) (f : Passage → Passage) : TagOnly s (t.modPas id f) := h

/-- Counting after such a change is one. -/
theorem TagOnly.cipCount {s t : State} (h : TagOnly s t) (id k n : Nat) : TagOnly s (t.cipCount id k n) := h

/-- A check of the passage's segment takes it from the segment buffers and marks the passage. -/
theorem tagOnly_checked (s : State) (id c : Nat) (f : Passage → Passage) :
    TagOnly s ((s.modCipPas id (checkedRecord c)).modPas id f) := rfl

/-- A tag that agrees is marked in the passage. -/
def tagPassed (s : State) (id c : Nat) : State := (s.modCipPas id (checkedRecord c)).modPas id tagHeld

/-- What follows a tag that agrees: in CIPHER_MODE 1 the segment is released and counted (R365). -/
def tagAgreed (s : State) (id c : Nat) (p : Passage) (g : Segment) : State :=
  if p.mode = 1 then ((tagPassed s id c).modPas id (withOpened g.out)).cipCount id 0 1 else tagPassed s id c

/-- A failed tag is marked in the passage and counted. -/
def tagNoted (s : State) (id c : Nat) : State := ((s.modCipPas id (checkedRecord c)).modPas id tagLost).cipCount id 1 1

/-- What follows a failed tag: what was held goes as error control blocks in CIPHER_MODE 1, and in CIPHER_MODE 2 a packet under way is cut
short (R365, R366). -/
def tagFailed (s : State) (id c : Nat) (p : Passage) (g : Segment) : State :=
  if p.mode = 1 then ((tagNoted s id c).modPas id (withOpened (errorFrom 0 g.out))).cipCount id 3 g.out.length
  else if p.inPacket then (tagNoted s id c).cipCount id 4 1
  else tagNoted s id c

section
variable {s : State} {id c : Nat} {p : Passage} {g : Segment} (hp : tget s.pas id = some p) (he : p.decrypts = true)
  (hg : (s.cipPas id).segs.find? (fun g => g.ch == c) = some g)
include hp he hg

/-- CIPHER_TAG_CHECK of a tag that agrees. -/
theorem cipherTagCheck_agrees (ht : s.tagOf p c = some (.entry g.tag)) (hb : g.bad = false) :
    s.cipherTagCheck id c = tagAgreed s id c p g := by
  simp only [State.cipherTagCheck, hp, hg, ht, he, tagFault, hb, Bool.not_true, Bool.false_eq_true, if_false, ne_eq, not_true_eq_false]
  rfl

/-- CIPHER_TAG_CHECK where no entry matches: the failure is reported with cause 2 (R178, R367). -/
theorem cipherTagCheck_noEntry (ht : s.tagOf p c = some .noEntry) :
    s.cipherTagCheck id c = (tagFailed s id c p g).raise islFab .cipherTagFail id (le 6 c ++ le 1 2) := by
  simp only [State.cipherTagCheck, hp, hg, ht, he, tagFault, Bool.not_true, Bool.false_eq_true, if_false]
  rfl

end

/-- Counting leaves the other counters of the passage. -/
theorem ctr_cipCount_ne (s : State) (id n : Nat) {k j : Nat} (h : j ≠ k) :
    (s.cipCount id k n).ctr unitKeyStore id j = s.ctr unitKeyStore id j :=
  ctr_bump_ne s unitKeyStore id n h

/-- Counting by one. -/
theorem ctr_cipCount_self (s : State) (id k : Nat) : (s.cipCount id k 1).ctr unitKeyStore id k = s.ctr unitKeyStore id k + 1 :=
  ctr_bump_self s unitKeyStore id k

/-- Passages count nothing in the counters. -/
theorem ctr_modPas (s : State) (id : Nat) (f : Passage → Passage) (u i k : Nat) : (s.modPas id f).ctr u i k = s.ctr u i k := rfl

/-- Counting changes no passage. -/
theorem cipCount_pas (s : State) (id k n : Nat) : (s.cipCount id k n).pas = s.pas := rfl

/-- The segment buffers of the passage without the segment of the chamber. -/
theorem segs_checked {s t : State} {id c : Nat} (h : t.cip = (s.modCipPas id (checkedRecord c)).cip) :
    (t.cipPas id).segs = (s.cipPas id).segs.filter fun x => x.ch != c := by
  rw [cipPas_congr h, cipPas_modCipPas_self]
  rfl

/-- A tag that agrees: the passage is marked and the segment gone from the segment buffers. -/
theorem tagPassed_writes {s : State} {id : Nat} {p : Passage} (hp : tget s.pas id = some p) (c : Nat) :
    (∃ l, tget (tagPassed s id c).pas id = some (tagHeld { p with snap := some (s.chamber, l) })) ∧
    (tagPassed s id c).cip = (s.modCipPas id (checkedRecord c)).cip ∧ (tagPassed s id c).cnt = s.cnt ∧
    (∀ j, j ≠ id → tget (tagPassed s id c).pas j = tget s.pas j) ∧ (tagPassed s id c).chamber = s.chamber ∧
    TagOnly s (tagPassed s id c) := by
  obtain ⟨l, hkeep⟩ := keep_eq p s.chamber
  have hp' : tget (s.modCipPas id (checkedRecord c)).pas id = some p := hp
  refine ⟨⟨l, ?_⟩, rfl, rfl, fun j hj => ?_, rfl, tagOnly_checked ..⟩
  · rw [tagPassed, tget_modPas_of hp', ← hkeep]
    rfl
  · rw [tagPassed, tget_modPas_ne _ _ hj]
    rfl

/-- What a tag that agrees and what follows it write. -/
theorem tagAgreed_writes {s : State} {id : Nat} {p : Passage} (hp : tget s.pas id = some p) (c : Nat) (g : Segment) :
    ((tget (tagAgreed s id c p g).pas id).map fun y => (y.tagFail, y.opened)) =
      some (false, p.opened ++ if p.mode = 1 then g.out.filterMap (fun x => x.2.map fun q => { q with b := x.1 }) else []) ∧
    ((tagAgreed s id c p g).cipPas id).segs = ((s.cipPas id).segs.filter fun x => x.ch != c) ∧
    (tagAgreed s id c p g).ctr unitKeyStore id 0 = s.ctr unitKeyStore id 0 + (if p.mode = 1 then 1 else 0) ∧
    (tagAgreed s id c p g).ctr unitKeyStore id 1 = s.ctr unitKeyStore id 1 ∧
    (∀ j, j ≠ id → tget (tagAgreed s id c p g).pas j = tget s.pas j) ∧ TagOnly s (tagAgreed s id c p g) := by
  obtain ⟨⟨l, hheld⟩, hcip, hcnt, hothers, hch, honly⟩ := tagPassed_writes hp c
  by_cases hm : p.mode = 1
  · obtain ⟨l', hkeep⟩ := keep_eq (tagHeld { p with snap := some (s.chamber, l) }) s.chamber
    have hopened := tget_modPas_of hheld (withOpened g.out)
    rw [hch, hkeep] at hopened
    simp only [tagAgreed, if_pos hm]
    refine ⟨?_, segs_checked hcip, ?_, ?_, fun j hj => ?_, (honly.modPas ..).cipCount ..⟩
    · rw [cipCount_pas, hopened]
      rfl
    · rw [ctr_cipCount_self, ctr_modPas, ctr_congr hcnt]
    · rw [ctr_cipCount_ne _ _ _ (by decide), ctr_modPas, ctr_congr hcnt]
    · rw [cipCount_pas, tget_modPas_ne _ _ hj, hothers j hj]
  · simp only [tagAgreed, if_neg hm]
    refine ⟨?_, segs_checked hcip, ?_, ctr_congr hcnt .., hothers, honly⟩
    · rw [hheld, List.append_nil]
      rfl
    · rw [ctr_congr hcnt]
      exact (BitVec.add_zero _).symm

/-- Blocks that go as error control blocks. -/
theorem filterMap_errorFrom (out : List (Block × Option QBlock)) :
    ((errorFrom 0 out).filterMap fun x => x.2.map fun q => { q with b := x.1 }) =
      out.filterMap fun x => x.2.map fun q => { q with b := Block.error } := by
  rw [errorFrom, List.take_zero, List.drop_zero, List.nil_append, List.filterMap_map]
  rfl

/-- A failed tag: the passage is marked, the failure counted, and the segment gone. -/
theorem tagNoted_writes {s : State} {id : Nat} {p : Passage} (hp : tget s.pas id = some p) (c : Nat) :
    (∃ l, tget (tagNoted s id c).pas id = some (tagLost { p with snap := some (s.chamber, l) })) ∧
    (tagNoted s id c).cip = (s.modCipPas id (checkedRecord c)).cip ∧
    (tagNoted s id c).ctr unitKeyStore id 1 = s.ctr unitKeyStore id 1 + 1 ∧
    (∀ j, j ≠ id → tget (tagNoted s id c).pas j = tget s.pas j) ∧ (tagNoted s id c).chamber = s.chamber ∧
    TagOnly s (tagNoted s id c) := by
  obtain ⟨l, hkeep⟩ := keep_eq p s.chamber
  have hp' : tget (s.modCipPas id (checkedRecord c)).pas id = some p := hp
  refine ⟨⟨l, ?_⟩, rfl, ?_, fun j hj => ?_, rfl, (tagOnly_checked ..).cipCount ..⟩
  · rw [tagNoted, cipCount_pas, tget_modPas_of hp', ← hkeep]
    rfl
  · rw [tagNoted, ctr_cipCount_self, ctr_modPas]
    rfl
  · rw [tagNoted, cipCount_pas, tget_modPas_ne _ _ hj]
    rfl

/-- What a failed tag and what follows it write, but for the report. -/
theorem tagFailed_writes {s : State} {id : Nat} {p : Passage} (hp : tget s.pas id = some p) (c : Nat) (g : Segment) :
    ((tget (tagFailed s id c p g).pas id).map fun y => y.tagFail) = some true ∧
    (p.mode = 1 → ((tget (tagFailed s id c p g).pas id).map fun y => y.opened) =
      some (p.opened ++ g.out.filterMap fun x => x.2.map fun q => { q with b := Block.error })) ∧
    ((tagFailed s id c p g).cipPas id).segs = ((s.cipPas id).segs.filter fun x => x.ch != c) ∧
    (tagFailed s id c p g).ctr unitKeyStore id 1 = s.ctr unitKeyStore id 1 + 1 ∧
    (∀ j, j ≠ id → tget (tagFailed s id c p g).pas j = tget s.pas j) ∧
    TagOnly s (tagFailed s id c p g) := by
  obtain ⟨⟨l, hlost⟩, hcip, hctr, hothers, hch, honly⟩ := tagNoted_writes hp c
  have hmarked : ((tget (tagNoted s id c).pas id).map fun y => y.tagFail) = some true := by
    rw [hlost]
    rfl
  by_cases hm : p.mode = 1
  · obtain ⟨l', hkeep⟩ := keep_eq (tagLost { p with snap := some (s.chamber, l) }) s.chamber
    have hopened := tget_modPas_of hlost (withOpened (errorFrom 0 g.out))
    rw [hch, hkeep] at hopened
    simp only [tagFailed, if_pos hm]
    refine ⟨?_, fun _ => ?_, segs_checked hcip, ?_, fun j hj => ?_, (honly.modPas ..).cipCount ..⟩
    · rw [cipCount_pas, hopened]
      rfl
    · rw [cipCount_pas, hopened, ← filterMap_errorFrom]
      rfl
    · rw [ctr_cipCount_ne _ _ _ (by decide), ctr_modPas, hctr]
    · rw [cipCount_pas, tget_modPas_ne _ _ hj, hothers j hj]
  · by_cases hin : p.inPacket = true
    · simp only [tagFailed, if_neg hm, if_pos hin]
      refine ⟨hmarked, fun h1 => absurd h1 hm, segs_checked hcip, ?_, hothers, honly.cipCount ..⟩
      rw [ctr_cipCount_ne _ _ _ (by decide), hctr]
    · simp only [tagFailed, if_neg hm, if_neg hin]
      exact ⟨hmarked, fun h1 => absurd h1 hm, segs_checked hcip, hctr, hothers, honly⟩

end Sys2Proof.Proofs
end

section
/-!
SUPPORT. Keys over time (R356, R380, R381): the old slot of a rebind, and the age of a binding.
-/
namespace Sys2Proof.Proofs
open Sys2Proof Sys2Proof.Machine Sys2Proof.Laws

/-- The old slot of a rebind is LOADED again, and the passage's record forgets the old keys that are done. -/
def oldKeyReleased (s : State) (id slot : Nat) (done : OldKey → Bool) : State :=
  (s.keyTo slot .loaded).modCipPas id fun r => { r with olds := r.olds.filter fun o => !(done o) }

/-- A released old key: what it writes. -/
theorem oldKeyReleased_writes {s : State} {id : Nat} {o : OldKey} {done : OldKey → Bool} (ho : (s.cipPas id).olds = [o])
    (hd : done o = true) :
    (oldKeyReleased s id o.slot done).keySlot o.slot = { s.keySlot o.slot with st := .loaded } ∧
    ((oldKeyReleased s id o.slot done).cipPas id).olds = [] ∧
    (∀ k, k ≠ o.slot → (oldKeyReleased s id o.slot done).keySlot k = s.keySlot k) ∧
    CipherOnly s (oldKeyReleased s id o.slot done) := by
  refine ⟨keySlot_keyTo_self .., ?_, fun k hk => keySlot_keyTo_ne s _ hk, rfl⟩
  rw [oldKeyReleased, cipPas_modCipPas_self, show (s.keyTo o.slot .loaded).cipPas id = s.cipPas id from rfl, ho]
  simp [hd]

/-- Has the old key of an encrypting rebind served its last chamber (R380)? -/
def releaseDue (s : State) (o : OldKey) : Bool := !o.decrypts && chReached s.chamber (chAdd o.cc 1)

/-- Has the old key of a decrypting rebind served its last segment (R381)? -/
def rekeyDue (s : State) (o : OldKey) : Bool := o.decrypts && (o.checked || chReached s.chamber (chAdd o.cc 4096))

/-- KEY_SLOT_RELEASE of the one old key that is due. -/
theorem keySlotRelease_releases {s : State} {id : Nat} {o : OldKey} (ho : (s.cipPas id).olds = [o]) (hd : releaseDue s o = true) :
    s.keySlotRelease id = oldKeyReleased s id o.slot (releaseDue s) := by
  have hd' : (!o.decrypts && chReached s.chamber (chAdd o.cc 1)) = true := hd
  simp only [State.keySlotRelease, ho, hd', List.filter_cons_of_pos, List.filter_nil, List.foldl_cons, List.foldl_nil, List.any_cons,
    Bool.true_or, if_true]
  rfl

/-- The old slot of a rebind is LOADED again and reported with the slot that took over (R381). -/
def oldKeyReported (s : State) (id : Nat) (o : OldKey) (done : OldKey → Bool) : State :=
  ((s.keyTo o.slot .loaded).raise islFab .cipherRekeyed id (le 2 o.slot ++ le 2 o.next)).modCipPas id
    fun r => { r with olds := r.olds.filter fun o => !(done o) }

/-- CIPHER_REKEYED of the one old key that is due. -/
theorem cipherRekeyed_rekeys {s : State} {id : Nat} {o : OldKey} (ho : (s.cipPas id).olds = [o]) (hd : rekeyDue s o = true) :
    s.cipherRekeyed id = oldKeyReported s id o (rekeyDue s) := by
  have hd' : (o.decrypts && (o.checked || chReached s.chamber (chAdd o.cc 4096))) = true := hd
  simp only [State.cipherRekeyed, ho, hd', List.filter_cons_of_pos, List.filter_nil, List.foldl_cons, List.foldl_nil, List.any_cons,
    Bool.true_or, if_true]
  rfl

/-- A reported old key: the cipher is as where it is released, and the log as after the report alone. -/
theorem oldKeyReported_writes (s : State) (id : Nat) (o : OldKey) (done : OldKey → Bool) :
    (oldKeyReported s id o done).cip = (oldKeyReleased s id o.slot done).cip ∧
    (oldKeyReported s id o done).log = (s.raise islFab .cipherRekeyed id (le 2 o.slot ++ le 2 o.next)).log ∧
    CipherEvent s (oldKeyReported s id o done) := by
  refine ⟨?_, raise_log_of_cipher (t := s.keyTo o.slot .loaded) rfl .., ?_⟩
  · rw [oldKeyReported, modCipPas_cip, raise_cip]
    rfl
  · exact ((CipherOnly.event (s := s) (t := s.keyTo o.slot .loaded) rfl).raise ..).modCip _

/-- The age of a passage's binding is reported once (R356). -/
def keyAgeReported (s : State) (id : Nat) (p : Passage) : State :=
  (s.modCipPas id fun r => { r with aged := true }).raise islFab .cipherKeyAge id
    (le 2 (p.key.getD 0) ++ le 4 (s.keySlot (p.key.getD 0)).keyId)

/-- CIPHER_KEY_AGE of a binding that has served 2^46 chambers and was not yet reported. -/
theorem cipherKeyAge_reports {s : State} {id : Nat} {p : Passage} (hp : tget s.pas id = some p) (hm : p.mode ≠ 0) (hst : p.st ≠ 1)
    (ha : (s.cipPas id).aged = false) (hage : 2 ^ 46 ≤ chAhead s.chamber ((s.cipPas id).since.getD p.start)) :
    s.cipherKeyAge id = keyAgeReported s id p := by
  have hnot : (decide (p.mode = 0) || decide (p.st = 1) || (s.cipPas id).aged ||
      decide (chAhead s.chamber ((s.cipPas id).since.getD p.start) < 2 ^ 46)) = false := by
    simpa [hm, hst, ha] using hage
  simp only [State.cipherKeyAge, hp, hnot, Bool.false_eq_true, if_false]
  rfl

/-- A reported age: what it writes. -/
theorem keyAgeReported_writes (s : State) (id : Nat) (p : Passage) :
    (keyAgeReported s id p).cipPas id = { s.cipPas id with aged := true } ∧
    (keyAgeReported s id p).log =
      (s.raise islFab .cipherKeyAge id (le 2 (p.key.getD 0) ++ le 4 (s.keySlot (p.key.getD 0)).keyId)).log ∧
    (∀ j, j ≠ id → (keyAgeReported s id p).cipPas j = s.cipPas j) ∧ (keyAgeReported s id p).cip.slots = s.cip.slots ∧
    CipherEvent s (keyAgeReported s id p) := by
  have hcip : (keyAgeReported s id p).cip = (s.modCipPas id fun r => { r with aged := true }).cip := raise_cip ..
  refine ⟨?_, raise_log_of_cipher rfl .., fun j hj => ?_, ?_, ?_⟩
  · rw [cipPas_congr hcip, cipPas_modCipPas_self]
  · rw [cipPas_congr hcip, cipPas_modCipPas_ne _ _ hj]
  · rw [hcip]
    rfl
  · exact (CipherOnly.event (s := s) (t := s.modCipPas id fun r => { r with aged := true }) rfl).raise ..

end Sys2Proof.Proofs
end

section
/-!
The rows of segments, tags, compare pairs and old keys, together (O43).
-/
namespace Sys2Proof.Proofs
open Sys2Proof Sys2Proof.Machine Sys2Proof.Laws

/-- Changes of passages, cipher and counters make no response. -/
theorem TagOnly.settled {s t : State} (h : TagOnly s t) (hs : s.settled) : t.settled := by
  have hcom : t.com = s.com := by simpa using congrArg State.com h
  rw [State.settled, hcom]
  exact hs

/-- An event after changes of passages, cipher and counters: the log, what stays, and that nothing waits to leave. -/
theorem TagOnly.raise {s t : State} (h : TagOnly s t) (i : Nat) (e : Ev) (src : Nat) (p : List Byte) :
    (t.raise i e src p).log = (s.raise i e src p).log ∧
    { t.raise i e src p with pas := s.pas, cip := s.cip, cnt := s.cnt, log := s.log, com := s.com } = s ∧
    (s.settled → (t.raise i e src p).settled) := by
  have hevent := signalOnly_raise t i e src p
  refine ⟨raise_log_of_cipher (congrArg (fun v : State => { v with com := s.com }) h) .., ?_, fun hs => hevent.settled (h.settled hs)⟩
  exact (congrArg (fun v : State => { v with pas := s.pas, cip := s.cip, cnt := s.cnt, log := s.log, com := s.com }) hevent.1).trans
    (congrArg (fun v : State => { v with log := s.log, com := s.com }) h)

/-- CIPHER_PAIR_SELFTEST_DONE ends with the state that its row gives. -/
theorem exec_cipherPairSelftestDone {s t : State} {k : Nat} {x : Option Nat} (hs : s.settled) (h : s.pairSelftestDone k x = t)
    (ht : CipherEvent s t) : exec (.cipherPairSelftestDone k x) s = .next t := by
  show (s.pairSelftestDone k x).done = _
  rw [h, ht.done hs]

/-- Settles O43, row by row: what a sealed segment, a self-test, a tag, an old key and an aged binding write. -/
theorem cipherRowsComplete : Obligations.CipherRowsComplete := by
  unfold Obligations.CipherRowsComplete
  refine ⟨?sealed, ?failed, ?returned, ?serves, ?agrees, ?missing, ?released, ?rekeyed, ?aged⟩
  case sealed =>
    rintro s id c p g hs hp hm hst hsl hd he rfl hsent hdue hl rfl
    obtain ⟨hpas, hch, hctr, hcipPas, hcip, hothers, hrest, hrel⟩ :=
      sealSegment_writes hp (segmentIn_taken s id p) (s.segmentOf id p s.chamber (s.segmentIn id p).1)
    refine ⟨_, ?_, hpas, hch, hctr, hcipPas, ?_, ?_, ?_, ?_, hothers, hrest⟩
    · show (s.cipherSegment id s.chamber none).done = _
      rw [cipherSegment_seals hp hm hst hsl hd he hsent hdue hl]
      exact done_of_settled (hrel.trans hs)
    all_goals rw [hcip]
  case failed =>
    intro s k step hs hst
    obtain ⟨hfailed, -, -⟩ := pairSelftestDone_cases hst
    obtain ⟨hpair, hlog, hothers, hlanes, hevent⟩ := pairFailed_writes s k step
    exact ⟨pairFailed s k step, exec_cipherPairSelftestDone hs (hfailed step) hevent, hpair, hlog, hothers, hlanes, hevent.1⟩
  case returned =>
    intro s k hs hst hw
    obtain ⟨-, hspare, -⟩ := pairSelftestDone_cases hst
    obtain ⟨hpair, hlog, hothers, hlanes, hevent⟩ := pairReturned_writes s k
    exact ⟨pairReturned s k, exec_cipherPairSelftestDone hs (hspare hw) hevent, hpair, hlog, hothers, hlanes, hevent.1⟩
  case serves =>
    intro s k l rest hs hst hw
    obtain ⟨-, -, htakes⟩ := pairSelftestDone_cases hst
    obtain ⟨hpair, hlane, hstart, hwaiting, hothers, hlanes, hevent⟩ := pairReturned_serves s k l rest
    exact ⟨pairServes (pairReturned s k) k l rest, exec_cipherPairSelftestDone hs (htakes l rest hw) hevent, hpair, hlane, hstart,
      hwaiting, hothers, hlanes, hevent.1⟩
  case agrees =>
    intro s id c p g hs hp he hg ht hb
    obtain ⟨hpas, hsegs, hctr0, hctr1, hothers, honly⟩ := tagAgreed_writes hp c g
    exact ⟨_, (congrArg State.done (cipherTagCheck_agrees hp he hg ht hb)).trans (done_of_settled (honly.settled hs)), hpas, hsegs,
      hctr0, hctr1, hothers, honly⟩
  case missing =>
    intro s id c p g hs hp he hg ht
    obtain ⟨hmarked, hopened, hsegs, hctr, hothers, honly⟩ := tagFailed_writes hp c g
    obtain ⟨hlog, hrest, hset⟩ := honly.raise islFab .cipherTagFail id (le 6 c ++ le 1 2)
    refine ⟨_, (congrArg State.done (cipherTagCheck_noEntry hp he hg ht)).trans (done_of_settled (hset hs)), ?_, fun hm => ?_, ?_, ?_,
      hlog, fun j hj => ?_, hrest⟩
    · rw [raise_pas, hmarked]
    · rw [raise_pas, hopened hm]
    · rw [cipPas_congr (raise_cip ..), hsegs]
    · rw [ctr_congr (raise_cnt ..), hctr]
    · rw [raise_pas, hothers j hj]
  case released =>
    intro s id o hs ho hd hr
    have hdue : releaseDue s o = true := by simp [releaseDue, hd, hr]
    obtain ⟨hslot, holds, hothers, honly⟩ := oldKeyReleased_writes ho hdue
    exact ⟨_, (congrArg State.done (keySlotRelease_releases ho hdue)).trans (honly.event.done hs), hslot, holds, hothers, honly⟩
  case rekeyed =>
    intro s id o hs ho hd hr
    have hdue : rekeyDue s o = true := by simpa [rekeyDue, hd] using hr
    obtain ⟨hslot, holds, hothers, honly⟩ := oldKeyReleased_writes ho hdue
    obtain ⟨hcip, hlog, hevent⟩ := oldKeyReported_writes s id o (rekeyDue s)
    refine ⟨_, (congrArg State.done (cipherRekeyed_rekeys ho hdue)).trans (hevent.done hs), ?_, ?_, hlog, fun k hk => ?_, hevent.1⟩
    · rw [keySlot_congr hcip, hslot]
    · rw [cipPas_congr hcip, holds]
    · rw [keySlot_congr hcip, hothers k hk]
  case aged =>
    intro s id p hs hp hm hst ha hage
    obtain ⟨haged, hlog, hothers, hslots, hevent⟩ := keyAgeReported_writes s id p
    exact ⟨_, (congrArg State.done (cipherKeyAge_reports hp hm hst ha hage)).trans (hevent.done hs), haged, hlog, hothers, hslots,
      hevent.1⟩

end Sys2Proof.Proofs
end

section
/-!
SUPPORT. Reserved fields of a request: the parts of a range that is zero are zero and read as 0 (R20).
-/
namespace Sys2Proof.Proofs
open Sys2Proof Sys2Proof.Machine Sys2Proof.Laws

/-- Bytes that are all zero read as 0. -/
theorem unle_of_all_zero : ∀ l : List Byte, l.all (· == 0) = true → unle l = 0
  | [], _ => rfl
  | b :: l, h => by
    obtain ⟨hb, hl⟩ : b = 0 ∧ l.all (· == 0) = true := by simpa using h
    rw [unle, unle_of_all_zero l hl, hb]
    rfl

/-- A field whose bytes are zero reads as 0. -/
theorem u_of_rsv {q : Request} {off n : Nat} (h : q.rsv off n = true) : q.u off n = 0 := unle_of_all_zero _ h

/-- A part of bytes that are zero is zero. -/
theorem rsv_mono {q : Request} {off n off' n' : Nat} (h : q.rsv off n = true) (hlo : off ≤ off' := by decide)
    (hhi : off' + n' ≤ off + n := by decide) : q.rsv off' n' = true := by
  have hpart : (q.payload.drop off').take n' = (((q.payload.drop off).take n).drop (off' - off)).take n' := by
    rw [List.drop_take, List.take_take, List.drop_drop, Nat.add_sub_cancel' hlo, Nat.min_eq_left (by omega)]
  have hall : ∀ b ∈ (q.payload.drop off).take n, (b == 0) = true := List.all_eq_true.mp h
  refine List.all_eq_true.mpr fun b hb => hall b ?_
  rw [hpart] at hb
  exact List.mem_of_mem_drop (List.mem_of_mem_take hb)

end Sys2Proof.Proofs
end

section
/-!
SUPPORT. KEY_LOAD_WRAPPED, KEY_RETIRE, CIPHER_BIND and CIPHER_UNBIND where they pass their checks (R368 to R385).
-/
namespace Sys2Proof.Proofs
open Sys2Proof Sys2Proof.Machine Sys2Proof.Laws

/-- The first checks of a command of the cipher pass: the key store is lit, the ranges hold, and the tenant may send (R16, R386). -/
theorem judge_keyStore {s : State} {op : Nat} {q : Request} {c : Bool} {st : Status} {r : Nat} (h : s.takes op q)
    (hd : s.dark unitKeyStore = none) (hc : c = false) (ht : s.tenantOn q) (cs : List Check) :
    s.judge (.lit [unitKeyStore] :: .bad c st r :: s.transportRule q :: s.anyTenant q :: cs) = s.judge cs := by
  rw [judge_lit_cons hd, judge_lit_nil, judge_bad_cons hc, judge_transport h, judge_anyTenant ht]

/-! KEY_LOAD_WRAPPED. -/

/-- A loaded key slot: what it holds, and what stays. -/
theorem loadKey_writes (s : State) (t slot usage keyId gen : Nat) (key : List Byte) :
    (s.loadKey t slot usage keyId gen key).keySlot slot =
      { st := .loaded, owner := t, usage := usage, keyId := keyId, kekGen := gen, key := key
        subkey := if usage = 1 then gcmSubkey key else 0 } ∧
    (s.loadKey t slot usage keyId gen key).cip.keks = s.cip.keks ∧ CipherOnly s (s.loadKey t slot usage keyId gen key) := by
  refine ⟨?_, ?_, ?_⟩
  · rw [State.loadKey, State.keySlot, modKey_cip, tgetD_tupd_self]
  all_goals
    unfold State.loadKey
    split
    · split <;> rfl
    · rfl

/-- The slot that a load fills: the one that it names, or the lowest EMPTY one (R371). -/
theorem slotAsked {s : State} {want slot : Nat}
    (h : (if want = 0xFFFF then s.freeSlot else if want < 1024 then some want else none) = some slot) :
    (if want = 0xFFFF then s.freeSlot.getD 0 else want) = slot ∧ (want = 0xFFFF → s.freeSlot.isSome = true) ∧
    (want ≠ 0xFFFF → want = slot ∧ want < 1024) := by
  by_cases hw : want = 0xFFFF
  · rw [if_pos hw] at h ⊢
    simp [h, hw]
  · rw [if_neg hw] at h ⊢
    obtain ⟨hlt, rfl⟩ : want < 1024 ∧ want = slot := by simpa using h
    exact ⟨rfl, fun h0 => absurd h0 hw, fun _ => ⟨rfl, hlt⟩⟩

/-- KEY_LOAD_WRAPPED under the tenant's KEK of the generation named. -/
theorem exec_keyLoadWrapped {s : State} {q : Request} {k : Kek} {key : List Byte} {slot : Nat} (h : s.takes 0x0401 q) (hl : q.len = 52)
    (hd : s.dark unitKeyStore = none)
    (hslot : (if q.u 0 2 = 0xFFFF then s.freeSlot else if q.u 0 2 < 1024 then some (q.u 0 2) else none) = some slot)
    (hu : q.u 2 1 = 1 ∨ q.u 2 1 = 2) (h3 : q.rsv 3 1 = true) (ht : s.tenantOn q)
    (ho : q.u 0 2 ≠ 0xFFFF → s.foreignKey q.tenant slot = false) (hk : tget s.cip.keks q.tenant = some k) (hgen : k.gen = q.u 8 4)
    (hkey : keyUnwrap k.key ((q.payload.drop 12).take 40) = some key)
    (hst : q.u 0 2 ≠ 0xFFFF → (s.keySlot slot).st = .empty ∨ (s.keySlot slot).st = .loaded)
    (hover : s.overKeys q.tenant slot (q.u 2 1) = false) :
    exec (.keyLoadWrapped q) s = .next ((s.accepted.loadKey q.tenant slot (q.u 2 1) (q.u 4 4) k.gen key).answer 0x0401 q
      ([0, 0] ++ le 2 slot ++ kcv key ++ zeros 4)) := by
  obtain ⟨hasked, hfree, hnamed⟩ := slotAsked hslot
  show (s.cmdKeyLoadWrapped q).done = _
  simp only [State.cmdKeyLoadWrapped, hk, hkey, hl, hasked, hgen, Option.isNone_some, Option.isSome_some, Bool.and_false,
    Bool.false_eq_true, if_false, Option.getD_some, List.cons_append, List.nil_append]
  refine serve_done_of_run h ((judge_keyStore h hd ?ranges ht _).trans ?_) rfl
  case ranges =>
    have hw : q.u 0 2 = 0xFFFF ∨ q.u 0 2 < 1024 := (Decidable.em _).imp id fun hw => (hnamed hw).2
    rcases hw with hw | hw <;> rcases hu with hu | hu <;> simp [hw, hu, h3]
  by_cases hw : q.u 0 2 = 0xFFFF
  · simp [hw, hover, Option.isNone_eq_false_iff.mpr (hfree hw)]
  · obtain ⟨hnum, -⟩ := hnamed hw
    have hne : slot ≠ 0xFFFF := hnum ▸ hw
    rcases hst hw with hst | hst <;> simp [hnum, hne, ho hw, hover, hst]

/-! KEY_RETIRE. -/

/-- A zeroised key slot: it is EMPTY, and the others stay (R372). -/
theorem keyEmpty_writes (s : State) (k : Nat) :
    (s.keyEmpty k).keySlot k = {} ∧ (∀ j, j ≠ k → (s.keyEmpty k).keySlot j = s.keySlot j) ∧ CipherOnly s (s.keyEmpty k) := by
  refine ⟨?_, fun j hj => ?_, rfl⟩
  · simp [State.keyEmpty, State.keySlot, tgetD]
  · simp [State.keyEmpty, State.keySlot, tgetD, tget_tdel_ne _ hj]

/-- KEY_RETIRE of an empty or loaded slot of the tenant. -/
theorem exec_keyRetire {s : State} {q : Request} (h : s.takes 0x0402 q) (hl : q.len = 4) (hd : s.dark unitKeyStore = none)
    (hk : q.u 0 2 ≤ 1023) (h2 : q.rsv 2 2 = true) (ht : s.tenantOn q) (ho : s.foreignKey q.tenant (q.u 0 2) = false)
    (hst : (s.keySlot (q.u 0 2)).st = .empty ∨ (s.keySlot (q.u 0 2)).st = .loaded) :
    exec (.keyRetire q) s = .next ((s.accepted.keyEmpty (q.u 0 2)).answer 0x0402 q [0, 0, 0, 0]) := by
  show (s.cmdKeyRetire q).done = _
  simp only [State.cmdKeyRetire, hl]
  refine serve_done_of_run h ((judge_keyStore h hd ?_ ht _).trans ?_) rfl
  · simp [h2, hk]
  · rcases hst with hst | hst <;> simp [ho, hst]

/-! CIPHER_BIND and CIPHER_UNBIND. -/

/-- A key slot that enters a state keeps its key, and so do the others. -/
theorem key_keyTo (s : State) (k j : Nat) (st : KeySt) : ((s.keyTo k st).keySlot j).key = (s.keySlot j).key := by
  by_cases h : j = k
  · rw [h, keySlot_keyTo_self]
  · rw [keySlot_keyTo_ne _ _ h]

/-- A recorded binding: it is prepared, its slot PREPARED with the key that it held, and nothing outside the cipher changes (R378). -/
theorem prepare_writes (s : State) (t id slot : Nat) :
    ((t, id), slot) ∈ (s.prepare t id slot).cip.prepared ∧ ((s.prepare t id slot).keySlot slot).st = .prepared ∧
    ((s.prepare t id slot).keySlot slot).key = (s.keySlot slot).key ∧ CipherOnly s (s.prepare t id slot) := by
  unfold State.prepare
  dsimp only
  refine ⟨List.mem_append_right _ (List.mem_singleton.mpr rfl), ?_, ?_, ?_⟩
  · rw [keySlot_keyTo_self]
  · rw [keySlot_keyTo_self]
    split
    · exact key_keyTo ..
    · rfl
  · split <;> rfl

/-- CIPHER_BIND of an ID with no passage (R378). -/
theorem exec_cipherBind_prepares {s : State} {q : Request} {id slot : Nat} (h : s.takes 0x0403 q) (hl : q.len = 16)
    (hd : s.dark unitKeyStore = none) (hid : q.u 0 2 = id) (hs : q.u 2 2 = slot) (hid' : id ≤ 4095) (hs' : slot ≤ 1023)
    (hz : q.rsv 4 12 = true) (ht : s.tenantOn q) (hp : tget s.pas id = none) (hst : (s.keySlot slot).st = .loaded)
    (ho : (s.keySlot slot).owner = q.tenant) (hu : (s.keySlot slot).usage = 1) (hj : s.tim.joined = true) :
    exec (.cipherBind q) s = .next ((s.accepted.prepare q.tenant id slot).answer 0x0403 q
      ([0, 0, 1, 0] ++ le 2 0xFFFF ++ zeros 10)) := by
  subst hid hs
  have h4 : q.u 4 1 = 0 := u_of_rsv (rsv_mono hz)
  have h8 : q.ch 8 = 0 := u_of_rsv (q := q) (off := 8) (n := 6) (rsv_mono hz)
  have h5 : q.rsv 5 1 = true := rsv_mono hz
  have h6 : q.rsv 6 2 = true := rsv_mono hz
  have h14 : q.rsv 14 2 = true := rsv_mono hz
  show (s.cmdCipherBind q).done = _
  simp only [State.cmdCipherBind, hl, hp, h4, h8, Option.isNone_none, show bitAt 0 0 = false from rfl]
  refine serve_done_of_run h ((judge_keyStore h hd ?_ ht _).trans ?_) rfl
  · simp [hid', hs', h5, h6, h14]
  · simp [State.foreignKey, hst, ho, hu, hj]

/-- A slot is bound to a rebind at a chamber (R380). -/
def rebound (s : State) (id slot cc : Nat) (pc : Option Paired) : State :=
  ((s.keyTo slot .bound).modCipPas id fun r => { r with rebind := some (slot, cc) }).schedule cc pc [] [.rebind id slot]

/-- A scheduled rebind: what it writes. -/
theorem rebound_writes (s : State) (id slot cc : Nat) (pc : Option Paired) :
    (rebound s id slot cc pc).hasScheduled cc (.rebind id slot) ∧ ((rebound s id slot cc pc).keySlot slot).st = .bound ∧
    ((rebound s id slot cc pc).cipPas id).rebind = some (slot, cc) ∧
    { rebound s id slot cc pc with cip := s.cip, tab := s.tab } = s := by
  refine ⟨schedule_has _ _ _ _ _ (List.mem_singleton.mpr rfl), ?_, ?_, rfl⟩
  · exact congrArg KeySlot.st (keySlot_keyTo_self s slot .bound)
  · exact congrArg CipPas.rebind (cipPas_modCipPas_self (s.keyTo slot .bound) id fun r => { r with rebind := some (slot, cc) })

/-- CIPHER_BIND of an encrypted passage (R380). -/
theorem exec_cipherBind_rebinds {s : State} {q : Request} {id slot cc : Nat} {p : Passage} {pn : Option Nat} (h : s.takes 0x0403 q)
    (hl : q.len = 16) (hd : s.dark unitKeyStore = none) (hid : q.u 0 2 = id) (hs : q.u 2 2 = slot) (hid' : id ≤ 4095)
    (hs' : slot ≤ 1023) (h4 : q.u 4 1 ≤ 1) (h5 : q.rsv 5 1 = true) (h6 : q.u 4 1 = 0 → q.rsv 6 2 = true) (h14 : q.rsv 14 2 = true)
    (ht : s.tenantOn q) (hp : tget s.pas id = some p) (hpo : p.owner = q.tenant) (hm : p.mode ≠ 0)
    (hst : (s.keySlot slot).st = .loaded) (ho : (s.keySlot slot).owner = q.tenant) (hu : (s.keySlot slot).usage = 1)
    (hj : s.tim.joined = true) (hpn : pn = if q.u 4 1 = 1 then some p.cipherEngine else none)
    (hcc : cc = if q.ch 8 = 0 then s.earliest pn.isSome else q.ch 8) (hc : s.commitBad cc pn = none)
    (hstop : ∀ cs, p.stop = some cs → chReached cc cs = false) (hr : (s.cipPas id).rebind = none) :
    ∃ pc, exec (.cipherBind q) s = .next ((rebound s.accepted id slot cc pc).answer 0x0403 q
      ([0, 0, 2, 0] ++ le 2 (p.key.getD 0) ++ zeros 2 ++ le 8 cc)) := by
  subst hid hs
  have hpaired : bitAt (q.u 4 1) 0 = pn.isSome := by
    rcases Nat.le_one_iff_eq_zero_or_eq_one.mp h4 with h0 | h1
    · simp [hpn, h0, bitAt]
    · simp [hpn, h1, bitAt]
  have hpn' : (if pn.isSome = true then some p.cipherEngine else none) = pn := by
    by_cases h1 : q.u 4 1 = 1 <;> simp [hpn, h1]
  have hrsv : pn = none → q.rsv 6 2 = true := by
    intro hnone
    have h1 : q.u 4 1 ≠ 1 := fun h1 => by simp [hpn, h1] at hnone
    exact h6 (by omega)
  show ∃ pc, (s.cmdCipherBind q).done = _
  simp only [State.cmdCipherBind, hl, hp, Option.getD_some, hpaired, hpn', ← hcc, hc, Option.isNone_some]
  refine ⟨_, serve_done_of_run h ((judge_keyStore h hd ?_ ht _).trans ?_) rfl⟩
  · simpa [hid', hs', h4, h5, h14] using hrsv
  · cases hcs : p.stop with
    | none => simp [State.foreignKey, hst, ho, hu, hj, hpo, hm, hr]
    | some cs => simp [State.foreignKey, hst, ho, hu, hj, hpo, hm, hr, hstop cs hcs]

/-- A prepared binding is dropped, and its slot is LOADED again (R383). -/
def unbound (s : State) (t id slot : Nat) : State :=
  (s.modCip fun c => { c with prepared := c.prepared.filter fun e => e.1 != (t, id) }).keyTo slot .loaded

/-- CIPHER_UNBIND of a prepared binding whose ID has no encrypted passage (R383). -/
theorem exec_cipherUnbind {s : State} {q : Request} {slot : Nat} (h : s.takes 0x0404 q) (hl : q.len = 4)
    (hd : s.dark unitKeyStore = none) (hid : q.u 0 2 ≤ 4095) (h2 : q.rsv 2 2 = true) (ht : s.tenantOn q)
    (hm : ∀ p, tget s.pas (q.u 0 2) = some p → p.mode = 0) (hb : s.prepared q.tenant (q.u 0 2) = some slot) :
    exec (.cipherUnbind q) s = .next ((unbound s.accepted q.tenant (q.u 0 2) slot).answer 0x0404 q [0, 0, 0, 0]) := by
  show (s.cmdCipherUnbind q).done = _
  simp only [State.cmdCipherUnbind, hl, hb]
  refine serve_done_of_run h ((judge_keyStore h hd ?_ ht _).trans ?_) rfl
  · simp [hid, h2]
  · cases hp : tget s.pas (q.u 0 2) with
    | none => simp
    | some p => simp [hm p hp]

/-- A binding that was dropped: it is not prepared, its slot is LOADED, and nothing outside the cipher changes (R383). -/
theorem unbound_writes (s : State) (t id slot : Nat) :
    (unbound s t id slot).prepared t id = none ∧ ((unbound s t id slot).keySlot slot).st = .loaded ∧
    CipherOnly s (unbound s t id slot) := by
  refine ⟨?_, congrArg KeySlot.st (keySlot_keyTo_self ..), rfl⟩
  rw [State.prepared, unbound, keyTo_cip, modCip_cip, Option.map_eq_none_iff, List.find?_eq_none]
  intro e he
  simpa using (List.mem_filter.mp he).2

/-- Settles O13, command by command: each passes its checks, changes the cipher (a rebind the scheduled commits too) and answers. -/
theorem keyCommandsComplete : Obligations.KeyCommandsComplete := by
  unfold Obligations.KeyCommandsComplete
  refine ⟨?load, ?retire, ?prepare, ?rebind, ?unbind⟩
  case load =>
    intro s q k key slot h hl hd hslot hu h3 ht ho hk hgen hkey hst hover
    obtain ⟨hloaded, hkeks, honly⟩ := loadKey_writes s.accepted q.tenant slot (q.u 2 1) (q.u 4 4) k.gen key
    refine ⟨_, exec_keyLoadWrapped h hl hd hslot hu h3 ht ho hk hgen hkey hst hover, ?_⟩
    rw [hloaded]
    exact ⟨rfl, rfl, rfl, rfl, rfl, rfl, hkeks, honly⟩
  case retire =>
    intro s q h hl hd hk h2 ht ho hst
    obtain ⟨hempty, hothers, honly⟩ := keyEmpty_writes s.accepted (q.u 0 2)
    refine ⟨_, exec_keyRetire h hl hd hk h2 ht ho hst, ?_⟩
    rw [hempty]
    exact ⟨rfl, rfl, hothers, honly⟩
  case prepare =>
    intro s q id slot h hl hd hid hs hid' hs' hz ht hp hst ho hu hj
    exact ⟨_, exec_cipherBind_prepares h hl hd hid hs hid' hs' hz ht hp hst ho hu hj, prepare_writes s.accepted q.tenant id slot⟩
  case rebind =>
    intro s q id slot cc p pn h hl hd hid hs hid' hs' h4 h5 h6 h14 ht hp hpo hm hst ho hu hj hpn hcc hc hstop hr
    obtain ⟨pc, hrun⟩ := exec_cipherBind_rebinds h hl hd hid hs hid' hs' h4 h5 h6 h14 ht hp hpo hm hst ho hu hj hpn hcc hc hstop hr
    exact ⟨_, hrun, rebound_writes s.accepted id slot cc pc⟩
  case unbind =>
    intro s q slot h hl hd hid h2 ht hm hb
    exact ⟨_, exec_cipherUnbind h hl hd hid h2 ht hm hb, unbound_writes s.accepted q.tenant (q.u 0 2) slot⟩

end Sys2Proof.Proofs
end

section
/-!
SUPPORT. KEK_ROTATE where it passes its checks (R374 to R377). That a KEK of ACTION 1 or 2 is in force from acceptance on, and not from the
end of its job, is the model's choice (assumption 69).
-/
namespace Sys2Proof.Proofs
open Sys2Proof Sys2Proof.Machine Sys2Proof.Laws

/-- An installed KEK: it is the tenant's, the other tenants keep theirs, and nothing outside the cipher changes. -/
theorem setKek_writes (s : State) (t : Nat) (k : Kek) :
    tget (s.setKek t k).cip.keks t = some k ∧ (∀ j, j ≠ t → tget (s.setKek t k).cip.keks j = tget s.cip.keks j) ∧
    (s.setKek t k).cip.slots = s.cip.slots ∧ CipherOnly s (s.setKek t k) :=
  ⟨tget_tput_self .., fun _ hj => tget_tput_ne _ _ hj, rfl, rfl⟩

/-- A KEK is installed and its job starts (R374, R377; assumption 69). -/
def kekStarted (s : State) (act t gen : Nat) (key : List Byte) : State × Nat :=
  (s.setKek t { gen := gen, key := key }).startJob t 0x0405 (.kek act t (le 4 gen))

/-- A KEK whose job starts: the KEKs, the jobs and the key slots. -/
theorem kekStarted_writes (s : State) (act t gen : Nat) (key : List Byte) :
    tget (kekStarted s act t gen key).1.cip.keks t = some { gen := gen, key := key } ∧
    (∀ j, j ≠ t → tget (kekStarted s act t gen key).1.cip.keks j = tget s.cip.keks j) ∧
    (kekStarted s act t gen key).1.jobs.list.length = s.jobs.list.length + 1 ∧
    (kekStarted s act t gen key).1.cip.slots = s.cip.slots :=
  ⟨tget_tput_self .., fun _ hj => tget_tput_ne _ _ hj, List.length_append, rfl⟩

/-- A tenant's KEK is erased (R376). -/
def kekErased (s : State) (t : Nat) : State := s.modCip fun c => { c with keks := tdel c.keks t }

/-- An erased KEK: the tenant has none, the other tenants keep theirs, and nothing outside the cipher changes. -/
theorem kekErased_writes (s : State) (t : Nat) :
    tget (kekErased s t).cip.keks t = none ∧ (∀ j, j ≠ t → tget (kekErased s t).cip.keks j = tget s.cip.keks j) ∧
    (kekErased s t).cip.slots = s.cip.slots ∧ CipherOnly s (kekErased s t) :=
  ⟨tget_tdel_self .., fun _ hj => tget_tdel_ne _ hj, rfl, rfl⟩

/-- The first checks of KEK_ROTATE pass: the key store is lit, the ranges hold, ACTION 1 comes over SPI, and the tenant may send. -/
theorem judge_kek {s : State} {op : Nat} {q : Request} {c c' : Bool} {st st' : Status} {r r' : Nat} (h : s.takes op q)
    (hd : s.dark unitKeyStore = none) (hc : c = false) (hc' : c' = false) (ht : s.tenantOn q) (cs : List Check) :
    s.judge (.lit [unitKeyStore] :: .bad c st r :: s.transportRule q :: .bad c' st' r' :: s.anyTenant q :: cs) = s.judge cs := by
  rw [judge_lit_cons hd, judge_lit_nil, judge_bad_cons hc, judge_transport h, judge_bad_cons hc', judge_anyTenant ht]

/-- The generation field of ACTIONS 3 to 5 is reserved. -/
theorem rsv_of_action {q : Request} (h : q.rsv 1 7 = true) : q.rsv 1 3 = true ∧ q.u 4 4 = 0 := ⟨rsv_mono h, u_of_rsv (rsv_mono h)⟩

section
variable {s : State} {q : Request} (h : s.takes 0x0405 q) (hl : q.len = 72) (hd : s.dark unitKeyStore = none) (ht : s.tenantOn q)
include h hl hd ht

/-- ACTION 1 over SPI with no KEK in force installs the key of the payload. -/
theorem exec_kekRotate_installs (ha : q.u 0 1 = 1) (h1 : q.rsv 1 3 = true) (hz : zeroAt (q.payload.drop 8) 32 32 = true)
    (hv : q.via = .spi) (hk : tget s.cip.keks q.tenant = none) (hj : s.jobsFull q.tenant = false) :
    exec (.kekRotate q) s = .next (State.answer (kekStarted s.accepted 1 q.tenant (q.u 4 4) ((q.payload.drop 8).take 32)).1 0x0405 q
      (jobStarted (kekStarted s.accepted 1 q.tenant (q.u 4 4) ((q.payload.drop 8).take 32)).2)) := by
  show (s.cmdKekRotate q).done = _
  simp only [State.cmdKekRotate, ha, hl, hv, hk, Nat.reduceBEq, Bool.false_and, Bool.and_false, Bool.false_eq_true, if_false,
    List.cons_append, List.nil_append]
  refine serve_done_of_run h ((judge_kek h hd ?_ rfl ht _).trans ?_) rfl
  · simp [h1, hz]
  · simp [hj]

/-- ACTION 2 installs the key that the KEK in force unwraps, under a higher generation. -/
theorem exec_kekRotate_rotates {k : Kek} {key : List Byte} (ha : q.u 0 1 = 2) (h1 : q.rsv 1 3 = true)
    (hz : zeroAt (q.payload.drop 8) 40 24 = true) (hk : tget s.cip.keks q.tenant = some k) (hgen : k.gen < q.u 4 4)
    (hkey : keyUnwrap k.key ((q.payload.drop 8).take 40) = some key) (hj : s.jobsFull q.tenant = false) :
    exec (.kekRotate q) s = .next (State.answer (kekStarted s.accepted 2 q.tenant (q.u 4 4) key).1 0x0405 q
      (jobStarted (kekStarted s.accepted 2 q.tenant (q.u 4 4) key).2)) := by
  show (s.cmdKekRotate q).done = _
  simp only [State.cmdKekRotate, ha, hl, hk, hkey, Option.isNone_some, Bool.and_false, Bool.false_eq_true, if_false,
    List.cons_append, List.nil_append]
  refine serve_done_of_run h ((judge_kek h hd ?_ rfl ht _).trans ?_) rfl
  · simp [h1, hz]
  · simp [hgen, hj]

/-- ACTION 3 installs the KEK of a blob that opens (R377). -/
theorem exec_kekRotate_restores {k : Kek} (ha : q.u 0 1 = 3) (h1 : q.rsv 1 7 = true)
    (hb : openBlob q.tenant (q.payload.drop 8) = some k) :
    exec (.kekRotate q) s = .next ((s.accepted.setKek q.tenant k).answer 0x0405 q ([0, 0, 0, 0] ++ le 4 k.gen)) := by
  obtain ⟨h3, hgen⟩ := rsv_of_action h1
  show (s.cmdKekRotate q).done = _
  simp only [State.cmdKekRotate, ha, hl, hb, Nat.reduceBEq, Bool.false_and, Bool.and_false, Bool.false_eq_true, if_false,
    List.cons_append, List.nil_append]
  refine serve_done_of_run h ((judge_kek h hd ?_ rfl ht _).trans ?_) rfl
  · simp [h3, hgen, zeroAt]
  · simp

/-- ACTION 3 of a blob that does not open is refused with BAD_PARAM, reason 1 (R377). -/
theorem exec_kekRotate_refuses (ha : q.u 0 1 = 3) (h1 : q.rsv 1 7 = true) (hb : openBlob q.tenant (q.payload.drop 8) = none) :
    exec (.kekRotate q) s = .next (s.answer 0x0405 q ([0x14, 1] ++ zeros 6)) := by
  obtain ⟨h3, hgen⟩ := rsv_of_action h1
  show (s.cmdKekRotate q).done = _
  simp only [State.cmdKekRotate, ha, hl, hb, Nat.reduceBEq, Bool.false_and, Bool.and_false, Bool.false_eq_true, if_false,
    List.cons_append, List.nil_append]
  refine (congrArg State.done (serve_refuse (r := { st := .badParam, reason := 1 }) h ((judge_kek h hd ?_ rfl ht _).trans ?_))).trans rfl
  · simp [h3, hgen, zeroAt]
  · simp

/-- ACTION 4 answers with the blob of the tenant's KEK (R374). -/
theorem exec_kekRotate_answersBlob {k : Kek} (ha : q.u 0 1 = 4) (h1 : q.rsv 1 7 = true) (hz : zeroAt (q.payload.drop 8) 0 64 = true)
    (hk : tget s.cip.keks q.tenant = some k) :
    exec (.kekRotate q) s = .next (s.accepted.answer 0x0405 q ([0, 0, 0, 0] ++ le 4 k.gen ++ kekBlob q.tenant k)) := by
  obtain ⟨h3, hgen⟩ := rsv_of_action h1
  show (s.cmdKekRotate q).done = _
  simp only [State.cmdKekRotate, ha, hl, hk, Nat.reduceBEq, Bool.false_and, Bool.and_false, Bool.false_eq_true, if_false,
    List.cons_append, List.nil_append]
  refine serve_done_of_run h ((judge_kek h hd ?_ rfl ht _).trans ?_) rfl
  · simp [h3, hgen, hz]
  · simp

/-- ACTION 5 erases the tenant's KEK (R376). -/
theorem exec_kekRotate_erases (ha : q.u 0 1 = 5) (h1 : q.rsv 1 7 = true) (hz : zeroAt (q.payload.drop 8) 0 64 = true) :
    exec (.kekRotate q) s = .next ((kekErased s.accepted q.tenant).answer 0x0405 q (zeros 8)) := by
  obtain ⟨h3, hgen⟩ := rsv_of_action h1
  show (s.cmdKekRotate q).done = _
  simp only [State.cmdKekRotate, ha, hl, Nat.reduceBEq, Bool.false_and, Bool.and_false, Bool.false_eq_true, if_false,
    List.cons_append, List.nil_append]
  refine serve_done_of_run h ((judge_kek h hd ?_ rfl ht _).trans ?_) rfl
  · simp [h3, hgen, hz]
  · simp

end

/-- Settles O14, action by action: each passes its checks, changes the tenant's KEK at most, and answers. -/
theorem kekRotateComplete : Obligations.KekRotateComplete := by
  unfold Obligations.KekRotateComplete
  refine ⟨?installs, ?rotates, ?restores, ?answersBlob, ?erases⟩
  case installs =>
    intro s q h hl hd ha h1 hz hv ht hk hj
    exact ⟨_, _, exec_kekRotate_installs h hl hd ht ha h1 hz hv hk hj, kekStarted_writes ..⟩
  case rotates =>
    intro s q k key h hl hd ha h1 hz ht hk hgen hkey hj
    exact ⟨_, _, exec_kekRotate_rotates h hl hd ht ha h1 hz hk hgen hkey hj, kekStarted_writes ..⟩
  case restores =>
    rintro s q k? h hl hd ha h1 ht rfl
    cases hb : openBlob q.tenant (q.payload.drop 8) with
    | none =>
      exact ⟨s, exec_kekRotate_refuses h hl hd ht ha h1 hb, rfl, fun _ _ => rfl, rfl, fun _ => rfl, fun hne => absurd rfl hne⟩
    | some k =>
      obtain ⟨hinstalled, hothers, hslots, honly⟩ := setKek_writes s.accepted q.tenant k
      exact ⟨_, exec_kekRotate_restores h hl hd ht ha h1 hb, hinstalled, hothers, hslots, nofun, fun _ => honly⟩
  case answersBlob =>
    intro s q k h hl hd ha h1 hz ht hk
    exact exec_kekRotate_answersBlob h hl hd ht ha h1 hz hk
  case erases =>
    intro s q h hl hd ha h1 hz ht
    exact ⟨_, exec_kekRotate_erases h hl hd ht ha h1 hz, kekErased_writes ..⟩

end Sys2Proof.Proofs
end

section
/-!
SUPPORT. What a step does with the queue's front, what reset holds, and ECHO.
-/
namespace Sys2Proof.Proofs
open Sys2Proof Sys2Proof.Machine Sys2Proof.Laws

/-- Settles O45: a step is a match on the queue, and no word of the table spells a command (assumption 1). -/
theorem stepRunsTheFrontCommand : Obligations.StepRunsTheFrontCommand := by
  unfold Obligations.StepRunsTheFrontCommand
  refine ⟨fun s c cs => rfl, fun s h => ?_, fun s nbits w => ⟨rfl, rfl⟩⟩
  rw [step, h]

/-- Settles O46: each value of reset is the default of its field. -/
theorem resetHoldsTheResetValues : Obligations.ResetHoldsTheResetValues := by
  unfold Obligations.ResetHoldsTheResetValues
  refine ⟨?values, ⟨rfl, nofun⟩, by decide, by decide⟩
  case values => and_intros <;> decide

/-- ECHO of a payload that is too long answers the short response BAD_LENGTH (R451). -/
theorem exec_echo_badLength {s : State} {q : Request} (h : s.serving = true) (hl : 4079 < q.len) :
    exec (.echo q) s = .next (s.answer 0x0106 q [0x12, 0, 0, 0]) := by
  show (s.cmdEcho q).done = _
  rw [State.cmdEcho, decide_eq_false (Nat.not_le_of_lt hl)]
  exact serve_done_of_badLength h

/-- ECHO answers STATUS OK and its payload (R451). -/
theorem exec_echo {s : State} {q : Request} (h : s.takes 0x0106 q) (ht : s.tenantOn q) (hl : q.len ≤ 4079) :
    exec (.echo q) s = .next (s.accepted.answer 0x0106 q (0 :: q.payload)) := by
  show (s.cmdEcho q).done = _
  rw [State.cmdEcho, decide_eq_true hl]
  exact serve_done_of_run h (judge_anyTenant ht []) rfl

/-- Settles O2, by the length of the payload. -/
theorem echoReturnsItsPayload : Obligations.EchoReturnsItsPayload := by
  unfold Obligations.EchoReturnsItsPayload
  exact ⟨fun s q h ht hl => exec_echo h ht hl, fun s q h hl => exec_echo_badLength h.1 (by omega)⟩

end Sys2Proof.Proofs
end

section
/-!
SUPPORT. The commands of fixed length: a payload of another length is answered before any other check (R16, R444).
-/
namespace Sys2Proof.Proofs
open Sys2Proof Sys2Proof.Machine Sys2Proof.Laws

/-- A command that serves its request with a length check that fails ends with the short response BAD_LENGTH. -/
theorem serve_done_of_lenBad {s : State} {op : Nat} {q : Request} {size : Nat} {lenOk : Bool} {checks : List Check}
    {run : State → State × Option (List Byte)} {tail : List Byte} (h : s.serving = true) (hl : lenOk = false) :
    (s.serve op q size lenOk checks run tail).done = .next (s.answer op q [0x12, 0, 0, 0]) := by
  subst hl
  rw [serve_badLength h, done_eq]
  rfl

/-- TABLE_COMMIT and PASSAGE_OPEN that do not wait for the copy of banks are served. -/
theorem exec_tableCommit_badLength {s : State} {q : Request} (h : s.serving = true) (hb : s.behindCopy 0x0305 q = false)
    (hl : (q.len == 16) = false) : exec (.tableCommit q) s = .next (s.answer 0x0305 q [0x12, 0, 0, 0]) := by
  show (s.cmdTableCommit q).done = _
  simp only [State.cmdTableCommit, hb, Bool.false_eq_true, if_false]
  exact serve_done_of_lenBad h hl

/-- As `exec_tableCommit_badLength`. -/
theorem exec_passageOpen_badLength {s : State} {q : Request} (h : s.serving = true) (hb : s.behindCopy 0x0301 q = false)
    (hl : (q.len == 36) = false) : exec (.passageOpen q) s = .next (s.answer 0x0301 q [0x12, 0, 0, 0]) := by
  show (s.cmdPassageOpen q).done = _
  simp only [State.cmdPassageOpen, hb, Bool.false_eq_true, if_false]
  exact serve_done_of_lenBad h hl

/-- Settles O52: PASSAGE_OPEN and TABLE_COMMIT look first whether they wait for a copy of banks; every other command is served at once. -/
theorem wrongLengthsGetShortResponses : Obligations.WrongLengthsGetShortResponses := by
  unfold Obligations.WrongLengthsGetShortResponses
  intro s q op n c h hb hc hl
  have hlen : (q.len == n) = false := by simpa using hl
  by_cases hop : op = 0x0301 ∨ op = 0x0305
  · rcases hop with rfl | rfl
    · obtain ⟨rfl, rfl⟩ : c = .passageOpen q ∧ n = 36 := by simpa [fixedLengths] using hc
      exact exec_passageOpen_badLength h hb hlen
    · obtain ⟨rfl, rfl⟩ : c = .tableCommit q ∧ n = 16 := by simpa [fixedLengths] using hc
      exact exec_tableCommit_badLength h hb hlen
  · obtain ⟨h1, h2⟩ : op ≠ 0x0301 ∧ op ≠ 0x0305 := by simpa using hop
    simp only [fixedLengths, List.mem_cons, Prod.mk.injEq, List.not_mem_nil, or_false, h1, h2, false_and, false_or] at hc
    repeat' refine Or.elim hc (fun hc => ?_) (fun hc => ?_)
    all_goals
      obtain ⟨rfl, rfl, rfl⟩ := hc
      exact serve_done_of_lenBad h hlen

end Sys2Proof.Proofs
end

section
/-!
SUPPORT. Masked occurrences (R525).
-/
namespace Sys2Proof.Proofs
open Sys2Proof Sys2Proof.Machine Sys2Proof.Laws

/-- A device whose floors mask every event but the most severe. -/
def maskingDevice : State := { State.reset with log := { State.reset.log with floor := 2 ^ 64 - 1 } }

/-- Refutes O56: an occurrence that an engine's island raises and that is masked still stands among what the islands raised, which captures wait
for (R282), so that the log changes in more than RECORDS_MASKED. -/
theorem not_maskedOccurrencesAreOnlyCounted : ¬ Obligations.MaskedOccurrencesAreOnlyCounted := by
  unfold Obligations.MaskedOccurrencesAreOnlyCounted
  intro ⟨hmasked, _, _⟩
  have h := hmasked maskingDevice 0 3 0 .rxLock [] (by decide) (by decide)
  have hraised : (maskingDevice.recordAt 0 3 .rxLock 0 []).log.raised = [] := by rw [h]; rfl
  exact absurd hraised (by decide)

end Sys2Proof.Proofs
end

section
/-!
SUPPORT. The window of unread records of the event log (R520 to R522).
-/
namespace Sys2Proof.Proofs
open Sys2Proof Sys2Proof.Machine Sys2Proof.Laws

/-- The counts of the log are 32 bits wide, and at most 65 536 positions are unread (R520). -/
structure InWindow (l : Log) : Prop where
  wr : l.evtWr < 2 ^ 32
  rd : l.evtRd < 2 ^ 32
  unread : l.unread ≤ 65536

/-- The window depends on the two counts alone. -/
theorem InWindow.congr {l m : Log} (h : InWindow l) (hw : m.evtWr = l.evtWr) (hr : m.evtRd = l.evtRd) : InWindow m := by
  obtain ⟨h1, h2, h3⟩ := h
  exact ⟨hw ▸ h1, hr ▸ h2, by rwa [Log.unread, hw, hr]⟩

/-- Counting dropped records leaves the ring and both counts. -/
theorem drop_positions (l : Log) (rs : List EvRec) (ch mono : Nat) :
    (l.drop rs ch mono).evtWr = l.evtWr ∧ (l.drop rs ch mono).evtRd = l.evtRd ∧ (l.drop rs ch mono).ring = l.ring := by
  induction rs generalizing l with
  | nil => exact ⟨rfl, rfl, rfl⟩
  | cons r rs ih => exact ih _

/-- The oldest unread record takes one position or two, and no more than are unread. -/
theorem oldestSize_bounds (l : Log) (h : 0 < l.unread) : 1 ≤ l.oldestSize ∧ l.oldestSize ≤ l.unread := by
  unfold Log.oldestSize
  split
  · split <;> omega
  · omega

/-- `m` is `l` with its oldest unread record gone. -/
def OldestGone (l m : Log) : Prop := m.evtWr = l.evtWr ∧ m.evtRd = (l.evtRd + l.oldestSize) % 2 ^ 32

/-- Advancing EVT_RD past the oldest record keeps the window, and fewer positions are unread. -/
theorem InWindow.oldestGone {l m : Log} (h : InWindow l) (hg : OldestGone l m) (hu : 0 < l.unread) :
    InWindow m ∧ m.unread < l.unread := by
  obtain ⟨hw, hr, hmax⟩ := h
  obtain ⟨hmw, hmr⟩ := hg
  obtain ⟨h1, h2⟩ := oldestSize_bounds l hu
  have hless : m.unread < l.unread := by
    rw [Log.unread, hmw, hmr]
    unfold Log.unread at h2 hu ⊢
    omega
  exact ⟨⟨hmw ▸ hw, hmr ▸ Nat.mod_lt _ (by decide), by omega⟩, hless⟩

/-- Dropping the oldest record first does not change which record is skipped. -/
theorem oldestGone_drop {l m : Log} {rs : List EvRec} {ch mono : Nat} (hw : m.evtWr = l.evtWr) (hr : m.evtRd = l.evtRd)
    (hring : m.ring = l.ring) : OldestGone l (m.drop rs ch mono).skip ∧ OldestGone l (m.drop rs ch mono).toSpill := by
  obtain ⟨hdw, hdr, hdring⟩ := drop_positions m rs ch mono
  have hsize : (m.drop rs ch mono).oldestSize = l.oldestSize := by
    simp only [Log.oldestSize, Log.recAt, Log.unread, hdw, hdr, hdring, hw, hr, hring]
    rfl
  have hskip : OldestGone l (m.drop rs ch mono).skip := ⟨hdw.trans hw, by rw [Log.skip, hsize, hdr, hr]⟩
  exact ⟨hskip, hskip⟩

/-- Making room keeps the window; where it answers that there is room, there is, if each of its steps can free one of the positions that are
too many. -/
theorem room_inWindow {n : Nat} (hn : n ≤ 65536) (ready : Bool) (ch mono fuel : Nat) {l : Log} (h : InWindow l)
    (hf : l.unread + n ≤ 65536 + fuel) :
    InWindow (l.room ready n ch mono fuel).1 ∧
      ((l.room ready n ch mono fuel).2 = true → (l.room ready n ch mono fuel).1.unread + n ≤ 65536) := by
  induction fuel generalizing l with
  | zero => exact ⟨h, fun _ => hf⟩
  | succ fuel ih =>
    have next : ∀ {m : Log}, OldestGone l m → ¬ l.unread + n ≤ 65536 → InWindow (m.room ready n ch mono fuel).1 ∧
        ((m.room ready n ch mono fuel).2 = true → (m.room ready n ch mono fuel).1.unread + n ≤ 65536) := fun hg hfull => by
      obtain ⟨hm, hless⟩ := h.oldestGone hg (by omega)
      exact ih hm (by omega)
    rw [room_succ]
    split
    case isTrue hroom => exact ⟨h, fun _ => hroom⟩
    case isFalse hfull =>
      split
      · split
        · exact next ⟨rfl, rfl⟩ hfull
        · split
          · exact next (oldestGone_drop rfl rfl rfl).2 hfull
          · exact ⟨h.congr rfl rfl, nofun⟩
      · split
        · exact next (oldestGone_drop rfl rfl rfl).1 hfull
        · exact ⟨h, nofun⟩

/-- Writing records where there is room keeps the window. -/
theorem append_inWindow (rs : List EvRec) {l : Log} (h : InWindow l) (hroom : l.unread + rs.length ≤ 65536) : InWindow (l.append rs) := by
  induction rs generalizing l with
  | nil => exact h
  | cons r rs ih =>
    obtain ⟨hw, hr, hmax⟩ := h
    rw [List.length_cons] at hroom
    have hone : ((l.evtWr + 1) % 2 ^ 32 + 2 ^ 32 - l.evtRd) % 2 ^ 32 = l.unread + 1 := by
      rw [Log.unread] at hroom ⊢
      omega
    refine ih ⟨Nat.mod_lt _ (by decide), hr, ?_⟩ ?_
    · exact hone.trans_le (by omega)
    · exact (congrArg (· + rs.length) hone).trans_le (by omega)

/-- An occurrence takes one record or two (R514). -/
theorem recordsOf_length (t island : Nat) (e : Ev) (source : Nat) (p : List Byte) : (recordsOf t island e source p).length ≤ 2 := by
  rw [recordsOf, apply_ite List.length]
  split
  · exact Nat.le_succ 1
  · exact Nat.le_refl 2

/-- Putting an occurrence of at most two records into the log keeps the window. -/
theorem put_inWindow {l : Log} (h : InWindow l) (ready : Bool) (ch mono : Nat) (e : Ev) {rs : List EvRec} (hrs : rs.length ≤ 2) :
    InWindow (l.put ready ch mono e rs) := by
  have hmax := h.unread
  obtain ⟨hroom, hfits⟩ := room_inWindow (n := rs.length) (by omega) ready ch mono 4 h (by omega)
  rw [put_eq]
  by_cases hm : e ≠ .logOverflow ∧ e.severity < bitsAt l.floor (2 * e.cls) 2
  · rw [if_pos hm]
    exact h.congr rfl rfl
  · rw [if_neg hm]
    cases repeated l e rs with
    | some kr => exact h.congr rfl rfl
    | none =>
      rw [Option.elim_none]
      by_cases ht : (l.room ready rs.length ch mono 4).2 = true
      · rw [if_pos ht]
        exact append_inWindow rs hroom (hfits ht)
      · rw [if_neg ht]
        obtain ⟨hw, hr, -⟩ := drop_positions (l.room ready rs.length ch mono 4).1 rs ch mono
        exact hroom.congr hw hr

/-- Recording an event keeps the window. -/
theorem recordAt_inWindow {s : State} (h : InWindow s.log) (t island : Nat) (e : Ev) (source : Nat) (p : List Byte) :
    InWindow (s.recordAt t island e source p).log := by
  have hput := put_inWindow h s.lpReady s.chamber s.mono e (recordsOf_length t island e source p)
  rw [recordAt_log]
  refine InWindow.congr (l := spillNoted s _ _) ?_ rfl rfl
  unfold spillNoted
  split
  · exact put_inWindow hput _ _ _ _ (recordsOf_length ..)
  · exact hput

/-- A value written to EVT_RD is taken where it lies in the unread window, which then ends there, and is discarded elsewhere. -/
theorem evtRdWrite_inWindow {s : State} (h : InWindow s.log) (v : Reg) :
    (s.evtRdWrite v).log.unread ≤ s.log.unread ∧
      ((v.toNat + 2 ^ 32 - s.log.evtRd) % 2 ^ 32 > s.log.unread → (s.evtRdWrite v).log = s.log) := by
  obtain ⟨hw, hr, hmax⟩ := h
  have hv := v.isLt
  rw [State.evtRdWrite]
  split
  case isTrue hin =>
    refine ⟨?_, fun hout => absurd hin (Nat.not_le_of_lt hout)⟩
    rw [Log.unread] at hin
    show (s.log.evtWr + 2 ^ 32 - v.toNat) % 2 ^ 32 ≤ (s.log.evtWr + 2 ^ 32 - s.log.evtRd) % 2 ^ 32
    omega
  case isFalse => exact ⟨le_rfl, fun _ => rfl⟩

/-- The register at 0x38 is EVT_RD. -/
theorem globalWrite_evtRd (s : State) (v : Reg) {o : Nat} (ho : o = 0x38) : s.globalWrite o v = s.evtRdWrite v := by
  unfold State.globalWrite
  split
  case h_3 => rfl
  case h_5 h38 _ => exact absurd ho h38
  case h_1 | h_2 | h_4 => simp at ho

/-- The row of EVT_RD writes the register, or does nothing while the endpoint is down. -/
theorem evtRdRow_cases (s : State) (v : Reg) : s.evtRdRow v = s.evtRdWrite v ∨ s.evtRdRow v = s := by
  rw [State.evtRdRow, globalWrite_evtRd s v rfl]
  exact eq_or_eq_of_ite ..

/-- Sending the responses of domain messages leaves the log. -/
theorem log_sendRelayed (s : State) : s.sendRelayed.log = s.log := by simp

/-- Settles O57: a record, a report of drops and a write of EVT_RD each keep the window. -/
theorem theLogWindowHolds : Obligations.TheLogWindowHolds := by
  unfold Obligations.TheLogWindowHolds
  refine ⟨?record, ?event, ?write⟩
  case record =>
    intro s t island source e p hw hr hu
    obtain ⟨hw', hr', hu'⟩ := recordAt_inWindow ⟨hw, hr, hu⟩ t island e source p
    exact ⟨hu', hw', hr'⟩
  case event =>
    rintro s t e island source p hw hr hu h
    obtain rfl : (s.eventWrite e island source p).sendRelayed = t := by injection h
    rw [log_sendRelayed]
    exact (recordAt_inWindow ⟨hw, hr, hu⟩ ..).unread
  case write =>
    rintro s t v hw hr hu h
    obtain rfl : (s.evtRdRow v).sendRelayed = t := by injection h
    rw [log_sendRelayed]
    rcases evtRdRow_cases s v with h | h <;> rw [h]
    · obtain ⟨hless, hout⟩ := evtRdWrite_inWindow ⟨hw, hr, hu⟩ v
      exact ⟨hless.trans hu, hless, hout⟩
    · exact ⟨hu, le_rfl, fun _ => rfl⟩

end Sys2Proof.Proofs
end

section
/-!
SUPPORT. The rights step of the commands that only T0 may send (R14, R449, R457).
-/
namespace Sys2Proof.Proofs
open Sys2Proof Sys2Proof.Machine Sys2Proof.Laws

/-- A check that refuses does so with a status other than OK. -/
def faulty : Check → Bool
  | .bad _ st _ => st.code != 0
  | .badWith _ st _ _ => st.code != 0
  | _ => true

/-- Where every check that refuses has a status other than OK, so has the first refusal. -/
theorem judge_code_ne_zero {s : State} {cs : List Check} {r : Refuse} (hf : cs.all faulty = true) (h : s.judge cs = some r) :
    r.st.code ≠ 0 := by
  induction cs with
  | nil => exact nomatch h
  | cons c cs ih =>
    obtain ⟨hc, hcs⟩ : faulty c = true ∧ cs.all faulty = true := by simpa using hf
    cases c with
    | len ok =>
      cases ok
      · obtain rfl : { st := .badLength } = r := by simpa [State.judge] using h
        decide
      · exact ih hcs h
    | lit us =>
      rw [judge_lit] at h
      split at h
      · obtain rfl := Option.some.inj h
        exact (by decide : Status.blockDark.code ≠ 0)
      · exact ih hcs h
    | present us =>
      rw [judge_present] at h
      split at h
      · obtain rfl := Option.some.inj h
        exact (by decide : Status.blockDark.code ≠ 0)
      · exact ih hcs h
    | bad b st reason =>
      cases b
      · exact ih hcs h
      · obtain rfl := Option.some.inj h
        simpa [faulty] using hc
    | badWith b st reason tail =>
      cases b
      · exact ih hcs h
      · obtain rfl := Option.some.inj h
        simpa [faulty] using hc

/-- A check that fails refuses, if none before it does. -/
theorem judge_of_failing {s : State} {cs : List Check} {st : Status} {reason : Nat} (h : Check.bad true st reason ∈ cs) :
    ∃ r, s.judge cs = some r := by
  induction cs with
  | nil => exact nomatch h
  | cons c cs ih =>
    rcases List.mem_cons.mp h with rfl | hcs
    · exact ⟨_, rfl⟩
    · obtain ⟨r, hr⟩ := ih hcs
      cases c with
      | len ok => cases ok <;> simp [State.judge, hr]
      | lit us => rw [judge_lit]; split <;> simp [hr]
      | present us => rw [judge_present]; split <;> simp [hr]
      | bad b st reason => cases b <;> simp [hr]
      | badWith b st reason tail => cases b <;> simp [hr]

/-- The response to a refusal begins with its status. -/
theorem head_refusal {size : Nat} (hsize : 0 < size) (r : Refuse) : (refusal size r).headD 0 = BitVec.ofNat 8 r.st.code := by
  obtain ⟨n, rfl⟩ := Nat.exists_eq_succ_of_ne_zero hsize.ne'
  unfold refusal
  split <;> rfl

/-- The status codes fit a byte. -/
theorem code_of_status_byte (st : Status) : BitVec.ofNat 8 st.code = 0 → st.code = 0 := by
  cases st <;> decide

/-- What a command of T0 answers another tenant: a status other than OK, in the state as it was or with DARK_ACCESS recorded. -/
def RefusedTo (s : State) (op : Nat) (q : Request) (o : Host.Outcome State Fault Refusal) : Prop :=
  ∃ (u : State) (p : List Byte), o = .next (u.answer op q p) ∧ p.headD 0 ≠ 0 ∧
    (u = s ∨ ∃ unit why : Nat, u = s.darkAccess unit why 3 op q.tenant)

/-- A refusal answers so. -/
theorem refuse_refusedTo {s : State} {op : Nat} {q : Request} {size : Nat} (hsize : 0 < size) {r : Refuse} (hr : r.st.code ≠ 0) :
    RefusedTo s op q (s.refuse op q size r).done := by
  have hhead : (refusal size r).headD 0 ≠ 0 := fun hz => hr (code_of_status_byte _ ((head_refusal hsize r).symm.trans hz))
  cases hd : r.darkUnit with
  | none => exact ⟨s, _, by simp only [State.refuse, hd]; rfl, hhead, .inl rfl⟩
  | some d => exact ⟨_, _, by simp only [State.refuse, hd]; rfl, hhead, .inr ⟨d.1, d.2, rfl⟩⟩

/-- A served command with a check that fails answers a status other than OK and does no more. -/
theorem serve_refusedTo {s : State} {op : Nat} {q : Request} {size : Nat} {lenOk : Bool} {checks : List Check}
    {run : State → State × Option (List Byte)} {tail : List Byte} (h : s.takes op q) (hsize : 0 < size)
    (hbad : ∃ st reason, Check.bad true st reason ∈ checks) (hf : checks.all faulty = true) :
    RefusedTo s op q (s.serve op q size lenOk checks run tail).done := by
  cases lenOk with
  | false => exact ⟨s, _, serve_done_of_lenBad h.1 rfl, by decide, .inl rfl⟩
  | true =>
    obtain ⟨_, _, hmem⟩ := hbad
    obtain ⟨r, hr⟩ := judge_of_failing hmem
    rw [serve_refuse h hr]
    refine refuse_refusedTo hsize ?_
    rw [show (r.fill tail).st = r.st by unfold Refuse.fill; split <;> rfl]
    exact judge_code_ne_zero hf hr

section
variable {s : State} {q : Request} (ht : q.tenant ≠ 0)
include ht

/-- The rights step of T0's commands fails for another tenant. -/
theorem onlyT0_fails {checks : List Check} (h : onlyT0 q ∈ checks) : ∃ st reason, Check.bad true st reason ∈ checks := by
  refine ⟨.notPermitted, 0, ?_⟩
  rwa [onlyT0, show (q.tenant != 0) = true by simpa using ht] at h

/-- TABLE_WRITE, while no copy of banks runs. -/
theorem exec_tableWrite_refusedTo (h : s.takes 0x0304 q) (hc : s.tab.copying = none) : RefusedTo s 0x0304 q (exec (.tableWrite q) s) := by
  have hb : s.behindCopy 0x0304 q = false := by simp [State.behindCopy, hc]
  show RefusedTo s 0x0304 q (s.cmdTableWrite q).done
  simp only [State.cmdTableWrite, hb, Bool.false_eq_true, if_false]
  exact serve_refusedTo h (by decide) (onlyT0_fails ht (by simp only [List.mem_cons, true_or, or_true])) rfl

/-- TABLE_COMMIT, while no copy of banks runs. -/
theorem exec_tableCommit_refusedTo (h : s.takes 0x0305 q) (hc : s.tab.copying = none) : RefusedTo s 0x0305 q (exec (.tableCommit q) s) := by
  have hb : s.behindCopy 0x0305 q = false := by simp [State.behindCopy, hc]
  show RefusedTo s 0x0305 q (s.cmdTableCommit q).done
  simp only [State.cmdTableCommit, hb, Bool.false_eq_true, if_false]
  exact serve_refusedTo h (by decide) (onlyT0_fails ht (by simp only [List.mem_cons, true_or, or_true])) rfl

/-- HOST_TABLE_LOAD drops the table that it was loading only where it reaches the check of the table, which another tenant's does not. -/
theorem exec_hostTableLoad_refusedTo (h : s.takes 0x0B02 q) : RefusedTo s 0x0B02 q (exec (.hostTableLoad q) s) := by
  have hreach : ∀ ok, s.reaches 0x0B02 q ok [.bad (q.u 6 1 > 3 || !(q.rsv 7 1)) .badParam 0, onlyT0 q] = false := fun ok => by
    obtain ⟨_, _, hbad⟩ := onlyT0_fails ht (List.mem_append_right (.len ok :: s.gate 0x0B02 q)
      (show onlyT0 q ∈ [.bad (q.u 6 1 > 3 || !(q.rsv 7 1)) .badParam 0, onlyT0 q] by simp))
    obtain ⟨r, hr⟩ := judge_of_failing (s := s) hbad
    rw [State.reaches, hr, Option.isNone_some, Bool.and_false]
  show RefusedTo s 0x0B02 q (s.cmdHostTableLoad q).done
  simp only [State.cmdHostTableLoad, hreach, Bool.false_and, Bool.false_eq_true, if_false]
  exact serve_refusedTo h (by decide) (onlyT0_fails ht (by simp only [List.mem_append, List.mem_cons, true_or, or_true])) rfl

/-- RESET refuses another tenant with the same check as a unit that cannot be reset. -/
theorem exec_reset_refusedTo (h : s.takes 0x0901 q) : RefusedTo s 0x0901 q (exec (.reset q) s) :=
  serve_refusedTo h (by decide) ⟨.notPermitted, 0, by simp [show (q.tenant != 0) = true by simpa using ht]⟩ rfl

/-- Every other command of T0's is served at once, with the rights step among its checks. -/
theorem exec_t0Command_refusedTo {ok : Bool} {op : Nat} {c : Instr} (h : s.takes op q) (hc : (op, c) ∈ t0Commands q ok)
    (hop : op ≠ 0x0304 ∧ op ≠ 0x0305 ∧ op ≠ 0x0B02 ∧ op ≠ 0x0901) : RefusedTo s op q (exec c s) := by
  obtain ⟨h1, h2, h3, h4⟩ := hop
  simp only [t0Commands, List.mem_cons, Prod.mk.injEq, List.not_mem_nil, or_false, h1, h2, h3, h4, false_and, false_or] at hc
  repeat' refine Or.elim hc (fun hc => ?_) (fun hc => ?_)
  all_goals
    obtain ⟨rfl, rfl⟩ := hc
    exact serve_refusedTo h (by grind) (onlyT0_fails ht (by simp only [List.mem_append, List.mem_cons, true_or, or_true])) rfl

end

/-- Settles O53: the rights step refuses, if no check before it does. -/
theorem onlyT0MayChangeTheDevice : Obligations.OnlyT0MayChangeTheDevice := by
  unfold Obligations.OnlyT0MayChangeTheDevice
  intro s q ok op c h ht hcopy hc
  by_cases hop : op ≠ 0x0304 ∧ op ≠ 0x0305 ∧ op ≠ 0x0B02 ∧ op ≠ 0x0901
  · exact exec_t0Command_refusedTo ht h hc hop
  · obtain rfl | rfl | rfl | rfl : op = 0x0304 ∨ op = 0x0305 ∨ op = 0x0B02 ∨ op = 0x0901 := by omega
    · obtain rfl : c = .tableWrite q := by simpa [t0Commands] using hc
      exact exec_tableWrite_refusedTo ht h hcopy
    · obtain rfl : c = .tableCommit q := by simpa [t0Commands] using hc
      exact exec_tableCommit_refusedTo ht h hcopy
    · obtain rfl : c = .hostTableLoad q := by simpa [t0Commands] using hc
      exact exec_hostTableLoad_refusedTo ht h
    · obtain rfl : c = .reset q := by simpa [t0Commands] using hc
      exact exec_reset_refusedTo ht h

end Sys2Proof.Proofs
end

section
/-!
SUPPORT. What every operation of the model keeps: the queue of commands (R446), the canonical form of the memories (R481), the bytes of the
memories where it writes none (R479), and the limits on running jobs (R452). `Keeps w s t` says so of the change from `s` to `t`; `w` says
whether memory may be written. One lemma per operation, each the composition of the lemmas of the operations that it is made of.
-/
namespace Sys2Proof.Proofs
open Sys2Proof Sys2Proof.Machine Sys2Proof.Laws

set_option Elab.async false

/-- At most 32 jobs run, and at most 8 of any one tenant (R452). -/
def JobsLimited (s : State) : Prop :=
  s.runningJobs.length ≤ 32 ∧ ∀ n, (s.runningJobs.filter fun j => j.tenant == n).length ≤ 8

/-- The tenants of the running jobs. -/
def runningTenants (s : State) : List Nat := s.runningJobs.map Job.tenant

/-- The limits speak of the tenants of the running jobs alone. -/
theorem jobsLimited_iff (s : State) : JobsLimited s ↔ (runningTenants s).length ≤ 32 ∧ ∀ n, (runningTenants s).count n ≤ 8 := by
  have hcount : ∀ n, (runningTenants s).count n = (s.runningJobs.filter fun j => j.tenant == n).length := fun n => by
    rw [runningTenants, List.count, List.countP_map, List.countP_eq_length_filter]
    rfl
  rw [JobsLimited, runningTenants, List.length_map, ← runningTenants]
  simp only [hcount]

/-- Where no job starts, the limits stay. -/
theorem JobsLimited.of_sublist {s t : State} (hs : (runningTenants t).Sublist (runningTenants s)) (h : JobsLimited s) : JobsLimited t := by
  rw [jobsLimited_iff] at h ⊢
  exact ⟨hs.length_le.trans h.1, fun n => (hs.count_le n).trans (h.2 n)⟩

/-- The change from `s` to `t` keeps the queue, the canonical form of the memories, their bytes unless `w` says that memory may be written,
and the limits on jobs. -/
structure Keeps (w : Bool) (s t : State) : Prop where
  queue : t.pending = s.pending
  canonical : s.memOk → t.memOk
  bytes : w = false → ∀ key, (t.memInst key).data = (s.memInst key).data
  limits : JobsLimited s → JobsLimited t

variable {w : Bool} {s t u : State}

theorem Keeps.refl : Keeps w s s := ⟨rfl, id, fun _ _ => rfl, id⟩

theorem Keeps.trans (h : Keeps w s t) (h' : Keeps w t u) : Keeps w s u :=
  ⟨h'.queue.trans h.queue, h'.canonical ∘ h.canonical, fun hw key => (h'.bytes hw key).trans (h.bytes hw key), h'.limits ∘ h.limits⟩

/-- The queue, what the memories hold, and the jobs decide what is kept. -/
theorem Keeps.same (h : Keeps w s t)
    (he : (u.pending, u.mem.insts, u.jobs.list) = (t.pending, t.mem.insts, t.jobs.list) := by rfl) : Keeps w s u := by
  obtain ⟨hp, hm, hj⟩ : u.pending = t.pending ∧ u.mem.insts = t.mem.insts ∧ u.jobs.list = t.jobs.list := by simpa using he
  refine h.trans ⟨hp, fun hc => ?_, fun _ key => ?_, JobsLimited.of_sublist ?_⟩
  · rwa [State.memOk, hm]
  · rw [State.memInst, hm, State.memInst]
  · rw [runningTenants, State.runningJobs, hj]
    exact List.Sublist.refl _

theorem Keeps.ite {c : Prop} [Decidable c] (ht : Keeps w s t) (hu : Keeps w s u) : Keeps w s (if c then t else u) := by
  split
  · exact ht
  · exact hu

theorem Keeps.ite_fst {α : Type} {c : Prop} [Decidable c] {x y : State × α} (hx : Keeps w s x.1) (hy : Keeps w s y.1) :
    Keeps w s (if c then x else y).1 := by
  split
  · exact hx
  · exact hy

theorem Keeps.ite_snd {α : Type} {c : Prop} [Decidable c] {x y : α × State} (hx : Keeps w s x.2) (hy : Keeps w s y.2) :
    Keeps w s (if c then x else y).2 := by
  split
  · exact hx
  · exact hy

theorem Keeps.foldl {α : Type} {l : List α} {f : State → α → State} (h : Keeps w s t)
    (hf : ∀ v a, Keeps w s v → Keeps w s (f v a)) : Keeps w s (l.foldl f t) := by
  induction l generalizing t with
  | nil => exact h
  | cons a l ih => exact ih (hf t a h)

/-- As `foldl`, where the state is carried beside another value. -/
theorem Keeps.foldl_fst {α β : Type} {l : List α} {f : State × β → α → State × β} {x : State × β} (h : Keeps w s x.1)
    (hf : ∀ y a, Keeps w s y.1 → Keeps w s (f y a).1) : Keeps w s (l.foldl f x).1 := by
  induction l generalizing x with
  | nil => exact h
  | cons a l ih => exact ih (hf x a h)

/-! The parts of the state. -/

theorem Keeps.withCom {x : Com} (h : Keeps w s t) : Keeps w s { t with com := x } := h.same

theorem Keeps.withJobs {x : Jobs} (h : Keeps w s t) (hx : x.list = t.jobs.list := by rfl) : Keeps w s { t with jobs := x } :=
  h.same (by rw [hx])

theorem Keeps.withLog {x : Log} (h : Keeps w s t) : Keeps w s { t with log := x } := h.same

theorem Keeps.withStore {x : Store} (h : Keeps w s t) : Keeps w s { t with store := x } := h.same

theorem Keeps.withPower {x : Power} (h : Keeps w s t) : Keeps w s { t with power := x } := h.same

theorem Keeps.withBoot {x : Boot} (h : Keeps w s t) : Keeps w s { t with boot := x } := h.same

theorem Keeps.withTab {x : Tables} (h : Keeps w s t) : Keeps w s { t with tab := x } := h.same

theorem Keeps.withPas {x : Tab Passage} (h : Keeps w s t) : Keeps w s { t with pas := x } := h.same

theorem Keeps.withGuide {x : Guide} (h : Keeps w s t) : Keeps w s { t with guide := x } := h.same

theorem Keeps.withUl {x : Umran} (h : Keeps w s t) : Keeps w s { t with ul := x } := h.same

theorem Keeps.withNow {x : Nat} (h : Keeps w s t) : Keeps w s { t with now := x } := h.same

theorem Keeps.withHk {x : Hk} (h : Keeps w s t) : Keeps w s { t with hk := x } := h.same

theorem Keeps.withMem {x : Mem} (h : Keeps w s t) (hx : x.insts = t.mem.insts := by rfl) : Keeps w s { t with mem := x } :=
  h.same (by rw [hx])

theorem Keeps.withMonoStore {m : Nat} {x : Store} (h : Keeps w s t) : Keeps w s { t with mono := m, store := x } := h.same

theorem Keeps.withBootGuide {b : Boot} {g : Guide} (h : Keeps w s t) : Keeps w s { t with boot := b, guide := g } := h.same

theorem Keeps.withGuideCipPower {g : Guide} {c : Cipher} {p : Power} (h : Keeps w s t) :
    Keeps w s { t with guide := g, cip := c, power := p } := h.same

/-! Memory. -/

/-- An entry that a key finds stands in the table. -/
theorem mem_of_tget {α : Type} {m : Tab α} {k : Nat} {v : α} (h : tget m k = some v) : (k, v) ∈ m := by
  induction m with
  | nil => exact nomatch h
  | cons e m ih =>
    obtain ⟨k', v'⟩ := e
    by_cases hk : k = k'
    · obtain rfl : v' = v := by simpa [tget, hk] using h
      simp [hk]
    · rw [tget, if_neg hk] at h
      exact List.mem_cons_of_mem _ (ih h)

/-- In canonical memories every one is canonical, one not listed too. -/
theorem memInst_wf (h : s.memOk) (key : Nat) : Memory.wf (s.memInst key).data := by
  rw [State.memInst, tgetD]
  cases hk : tget s.mem.insts key with
  | none => exact memory_nil_wf
  | some m => exact h _ (mem_of_tget hk)

/-- What a key finds in a table changed entry by entry. -/
theorem tget_tmapv {α : Type} (m : Tab α) (g : Nat → α → α) (k : Nat) : tget (tmapv m g) k = (tget m k).map (g k) := by
  induction m with
  | nil => rfl
  | cons e m ih =>
    by_cases hk : k = e.1
    · simp [tmapv, tget, hk]
    · simpa [tmapv, tget, hk] using ih

/-- A changed memory whose change keeps canonical bytes canonical. -/
theorem Keeps.modInst_wf {key : Nat} {f : MemInst → MemInst} (h : Keeps true s t)
    (hf : ∀ m : MemInst, Memory.wf m.data → Memory.wf (f m).data) : Keeps true s (t.modInst key f) := by
  refine h.trans ⟨rfl, fun hc e he => ?_, nofun, id⟩
  rcases mem_tupd he with rfl | he
  · exact hf _ (memInst_wf hc key)
  · exact hc e he

/-- A changed memory that keeps its bytes. -/
theorem Keeps.modInst {key : Nat} {f : MemInst → MemInst} (h : Keeps w s t)
    (hf : ∀ m : MemInst, (f m).data = m.data := by exact fun _ => rfl) : Keeps w s (t.modInst key f) := by
  refine h.trans ⟨rfl, fun hc e he => ?_, fun _ k => ?_, id⟩
  · rcases mem_tupd he with rfl | he
    · rw [hf]
      exact memInst_wf hc key
    · exact hc e he
  · by_cases hk : k = key
    · rw [hk, State.memInst, modInst_mem, tgetD_tupd_self, hf]
      rfl
    · rw [State.memInst, modInst_mem, tgetD_tupd_ne _ _ _ _ hk]
      rfl

/-- Every memory changed, each keeping its bytes. -/
theorem Keeps.mapInsts {m : Mem} {g : Nat → MemInst → MemInst} (h : Keeps w s t) (hm : m.insts = tmapv t.mem.insts g)
    (hg : ∀ k x, (g k x).data = x.data) : Keeps w s { t with mem := m } := by
  refine h.trans ⟨rfl, fun hc e he => ?_, fun _ k => ?_, id⟩
  · rw [show State.mem { t with mem := m } = m from rfl, hm] at he
    obtain ⟨e, hmem, rfl⟩ := List.mem_map.mp he
    rw [hg]
    exact hc e hmem
  · rw [State.memInst, State.memInst, show State.mem { t with mem := m } = m from rfl, hm, tgetD, tgetD, tget_tmapv]
    cases tget t.mem.insts k with
    | none => rfl
    | some x => exact hg k x

/-! Jobs. -/

/-- A change of the jobs after which no more run. -/
theorem Keeps.fewerJobs {j : Jobs} (h : Keeps w s t) (hj : (runningTenants { t with jobs := j }).Sublist (runningTenants t)) :
    Keeps w s { t with jobs := j } :=
  h.trans ⟨rfl, id, fun _ _ => rfl, JobsLimited.of_sublist hj⟩

/-- Changing jobs so that an ended one stays ended and each keeps its tenant. -/
theorem runningTenants_map (s : State) {f : Job → Job} (hf : ∀ j, (f j).tenant = j.tenant ∧ (j.ended.isSome → (f j).ended.isSome)) :
    (runningTenants { s with jobs := { s.jobs with list := s.jobs.list.map f } }).Sublist (runningTenants s) := by
  simp only [runningTenants, State.runningJobs]
  induction s.jobs.list with
  | nil => exact List.Sublist.refl _
  | cons j l ih =>
    obtain ⟨htenant, hended⟩ := hf j
    cases hj : j.ended with
    | some e =>
      have he : (f j).ended.isNone = false := by simpa using hended (by simp [hj])
      simpa [hj, he] using ih
    | none =>
      cases he : (f j).ended with
      | some e => simpa [hj, he] using ih.cons j.tenant
      | none => simpa [hj, he, htenant] using ih.cons_cons j.tenant

/-- A change of the job of a token. -/
def onToken (token : Nat) (f : Job → Job) (j : Job) : Job := if j.token = token then f j else j

/-- What a change of a job keeps of that job, it keeps of every job. -/
theorem onToken_keeps {f : Job → Job} (hf : ∀ j, (f j).tenant = j.tenant ∧ (j.ended.isSome → (f j).ended.isSome)) (token : Nat) (j : Job) :
    (onToken token f j).tenant = j.tenant ∧ (j.ended.isSome → (onToken token f j).ended.isSome) := by
  unfold onToken
  split
  · exact hf j
  · exact ⟨rfl, id⟩

/-- `modJob` changes the jobs so. -/
theorem modJob_onToken (s : State) (token : Nat) (f : Job → Job) :
    s.modJob token f = { s with jobs := { s.jobs with list := s.jobs.list.map (onToken token f) } } := rfl

/-- A changed job keeps its tenant, and stays ended where it has ended. -/
theorem Keeps.modJob {token : Nat} {f : Job → Job} (h : Keeps w s t)
    (hf : ∀ j : Job, (f j).tenant = j.tenant ∧ (j.ended.isSome → (f j).ended.isSome) := by exact fun _ => ⟨rfl, id⟩) :
    Keeps w s (t.modJob token f) := by
  rw [modJob_onToken]
  exact h.fewerJobs (runningTenants_map t (onToken_keeps hf token))

/-- A job may start where the limits leave room for one more of its tenant. -/
theorem Keeps.startJob {tenant op : Nat} {work : JobWork} (h : Keeps w s t) (hroom : t.jobsFull tenant = false) :
    Keeps w s (t.startJob tenant op work).1 := by
  refine h.trans ⟨rfl, id, fun _ _ => rfl, fun ⟨_, hten⟩ => ?_⟩
  obtain ⟨hall, hown⟩ : t.runningJobs.length < 32 ∧ (t.runningJobs.filter fun j => j.tenant == tenant).length < 8 := by
    simpa [State.jobsFull] using hroom
  have hrun : (t.startJob tenant op work).1.runningJobs =
      t.runningJobs ++ [{ serial := t.jobs.next, tenant := tenant, op := op, work := work }] := by
    simp [State.runningJobs, State.startJob]
  rw [JobsLimited, hrun]
  refine ⟨by simpa using hall, fun n => ?_⟩
  rw [List.filter_append, List.length_append]
  by_cases hn : tenant = n
  · simpa [hn] using hn ▸ hown
  · simpa [hn] using hten n

/-! Commands. -/

/-- A check that passes among checks that all pass. -/
theorem passes_of_judge {cs : List Check} {c : Bool} {st : Status} {r : Nat} (h : s.judge cs = none) (hc : Check.bad c st r ∈ cs) :
    c = false := by
  cases c with
  | false => rfl
  | true =>
    obtain ⟨r, hr⟩ := judge_of_failing (s := s) hc
    exact nomatch h.symm.trans hr

/-- Where all checks pass, the later ones pass. -/
theorem judge_of_append {cs ds : List Check} (h : s.judge (cs ++ ds) = none) : s.judge ds = none := by
  induction cs with
  | nil => exact h
  | cons c cs ih =>
    refine ih ?_
    rw [List.cons_append] at h
    cases c with
    | len ok =>
      cases ok with
      | true => exact h
      | false => exact nomatch h
    | lit us =>
      rw [State.judge] at h
      split at h
      · exact nomatch h
      · exact h
    | present us =>
      rw [State.judge] at h
      split at h
      · exact nomatch h
      · exact h
    | bad c st r =>
      rw [State.judge] at h
      split at h
      · exact nomatch h
      · exact h
    | badWith c st r t =>
      rw [State.judge] at h
      split at h
      · exact nomatch h
      · exact h

end Sys2Proof.Proofs
end

section
/-!
SUPPORT. What the operations keep (`Keeps`), part 1 of 4, each after those that it is made of.
-/
namespace Sys2Proof.Proofs
open Sys2Proof Sys2Proof.Machine Sys2Proof.Laws

set_option Elab.async false

variable {w : Bool} {s t : State}

theorem Keeps.msi {v : Nat} (h : Keeps w s t) : Keeps w s (t.msi v) := by
  unfold State.msi
  exact .ite h.same h.same

theorem Keeps.setInt {n b : Nat} (h : Keeps w s t) : Keeps w s (t.setInt n b) := by
  unfold State.setInt
  exact .ite h.same.msi h.same

theorem Keeps.recordAt {x1 island : Nat} {e : Ev} {source : Nat} {full : List Byte} (h : Keeps w s t) :
    Keeps w s (t.recordAt x1 island e source full) := by
  unfold State.recordAt
  exact .ite h.same.setInt h.same

theorem Keeps.raiseAt {x1 island : Nat} {e : Ev} {source : Nat} {payload : List Byte} (h : Keeps w s t) :
    Keeps w s (t.raiseAt x1 island e source payload) :=
  h.recordAt

theorem Keeps.raise {island : Nat} {e : Ev} {source : Nat} {payload : List Byte} (h : Keeps w s t) :
    Keeps w s (t.raise island e source payload) :=
  h.raiseAt

theorem Keeps.modLog {f : Log → Log} (h : Keeps w s t) : Keeps w s (t.modLog f) := h.same

theorem Keeps.closeKind {kind flags next : Nat} (h : Keeps w s t) : Keeps w s (t.closeKind kind flags next) := h.same.raise

theorem Keeps.syncBins (h : Keeps w s t) : Keeps w s t.syncBins := h.same

theorem Keeps.closeBins {dest : Nat} (h : Keeps w s t) : Keeps w s (t.closeBins dest) := by
  unfold State.closeBins
  exact .ite h h.same.closeKind.closeKind.modLog

theorem Keeps.modLife {f : Life → Life} (h : Keeps w s t) : Keeps w s (t.modLife f) := h.same

theorem Keeps.mtpBegin {id copy rows : Nat} (h : Keeps w s t) : Keeps w s (t.mtpBegin id copy rows) := h.same

theorem Keeps.lifeWrite {ok : Bool} (h : Keeps w s t) : Keeps w s (t.lifeWrite ok) := by
  unfold State.lifeWrite
  exact .ite h.same h.same.raise.withLog.mtpBegin.withLog

theorem Keeps.ringRespond {n : Nat} {r : Rsp} (h : Keeps w s t) : Keeps w s (t.ringRespond n r) := by
  unfold State.ringRespond
  exact .ite h.same (.ite h.same.setInt h.same)

theorem Keeps.reply {sel : Received → Bool} {op : Nat} {q : Request} {payload : List Byte} (h : Keeps w s t) :
    Keeps w s (t.reply sel op q payload) := by
  unfold State.reply
  refine .ite ?_ ?_
  · exact h.same
  · split
    · exact h.same.ringRespond
    · exact h.same
    · exact h.same
    · exact .ite h.same h.same

theorem Keeps.answerBad (h : Keeps w s t) : Keeps w s t.answerBad := by
  unfold State.answerBad
  refine h.foldl fun _ _ h => ?_
  split
  · exact h.reply
  · exact h

theorem Keeps.hold {op : Nat} {q : Request} (h : Keeps w s t) : Keeps w s (t.hold op q) := by
  unfold State.hold
  exact .ite h h.same

theorem Keeps.darkAccess {unit reason kind loc tenant : Nat} (h : Keeps w s t) : Keeps w s (t.darkAccess unit reason kind loc tenant) :=
  h.raise

theorem Keeps.respond {op : Nat} {q : Request} {payload : List Byte} (h : Keeps w s t) : Keeps w s (t.respond op q payload) := h.reply

theorem Keeps.refuse {op : Nat} {q : Request} {size : Nat} {r : Refuse} (h : Keeps w s t) : Keeps w s (t.refuse op q size r) := by
  unfold State.refuse
  refine .respond ?_
  split
  · exact h.darkAccess
  · exact h

theorem Keeps.defer {op : Nat} {q : Request} (h : Keeps w s t) : Keeps w s (t.defer op q) := h.same

/-- A command that ran is answered or waits. -/
theorem Keeps.answered {op : Nat} {q : Request} {r : State × Option (List Byte)} : Keeps w s r.1 →
    Keeps w s (match r with
      | (v, out) => match out with
        | some p => v.respond op q p
        | none => v.defer op q) := by
  intro h
  obtain ⟨v, _ | p⟩ := r
  · exact h.same
  · exact h.respond

/-- A command keeps what its run keeps, for its run on the journalled state with every check passed (R36, R445). -/
theorem Keeps.serve_checked {op : Nat} {q : Request} {size : Nat} {lenOk : Bool} {checks : List Check}
    {run : State → State × Option (List Byte)} {tail : List Byte} (h : Keeps w s t)
    (hr : t.judge checks = none → Keeps w s (run t.accepted).1) : Keeps w s (t.serve op q size lenOk checks run tail) := by
  have hpass : t.judge (.len lenOk :: t.gate op q ++ checks) = none → t.judge checks = none := judge_of_append
  unfold State.serve
  refine .ite h.hold ?_
  split
  · exact h.refuse
  case h_2 hj => exact Keeps.answered (r := run t.accepted) (hr (hpass hj))

/-- A command keeps what its run keeps. -/
theorem Keeps.serve {op : Nat} {q : Request} {size : Nat} {lenOk : Bool} {checks : List Check}
    {run : State → State × Option (List Byte)} {tail : List Byte} (h : Keeps w s t)
    (hr : ∀ v, Keeps w s v → Keeps w s (run v).1) : Keeps w s (t.serve op q size lenOk checks run tail) :=
  h.serve_checked fun _ => hr _ h.same
/-- A command that starts a job on the journalled state. -/
theorem Keeps.startAccepted {tenant op : Nat} {work : JobWork} (h : Keeps w s t) (hroom : t.jobsFull tenant = false) :
    Keeps w s (t.accepted.startJob tenant op work).1 := (h.same (u := t.accepted)).startJob hroom

theorem Keeps.cmdGetInfo {q : Request} (h : Keeps w s t) : Keeps w s (t.cmdGetInfo q) := by
  unfold State.cmdGetInfo
  exact h.serve fun _ h => h

theorem Keeps.cmdGetVariant {q : Request} (h : Keeps w s t) : Keeps w s (t.cmdGetVariant q) := by
  unfold State.cmdGetVariant
  exact h.serve fun _ h => h

theorem Keeps.cmdJobStatus {q : Request} (h : Keeps w s t) : Keeps w s (t.cmdJobStatus q) := by
  unfold State.cmdJobStatus
  refine h.serve fun _ h => ?_
  split
  · exact h
  · exact h

theorem Keeps.modEng {n : Nat} {f : Engine → Engine} (h : Keeps w s t) : Keeps w s (t.modEng n f) := h.same

theorem Keeps.modConv {n c : Nat} {f : Conv → Conv} (h : Keeps w s t) : Keeps w s (t.modConv n c f) := h.same

theorem Keeps.cancelRuns {n : Nat} {left : List Nat} (h : Keeps w s t) : Keeps w s (t.cancelRuns n left) := by
  unfold State.cancelRuns
  exact h.foldl fun _ _ h => h.same

theorem Keeps.cancelJob {j : Job} (h : Keeps w s t) : Keeps w s (t.cancelJob j) := by
  unfold State.cancelJob
  dsimp only
  split
  · exact h.modJob.cancelRuns
  · exact h.modJob

theorem Keeps.cmdJobCancel {q : Request} (h : Keeps w s t) : Keeps w s (t.cmdJobCancel q) := by
  unfold State.cmdJobCancel
  refine h.serve fun _ h => ?_
  split
  · exact .ite_fst h h.cancelJob.withJobs
  · exact h

theorem Keeps.setPolicyOf {x1 : Nat} {p : Policy} (h : Keeps w s t) : Keeps w s (t.setPolicyOf x1 p) := h.same

theorem Keeps.schedule {cc : Nat} {paired : Option Paired} {raw : List (Nat × RawOp)} {changes : List FwChange} (h : Keeps w s t) :
    Keeps w s (t.schedule cc paired raw changes) :=
  h.same

theorem Keeps.modPas {id : Nat} {f : Passage → Passage} (h : Keeps w s t) : Keeps w s (t.modPas id f) := h.same

theorem Keeps.revokeClose {e : Nat × Passage} (h : Keeps w s t) : Keeps w s (t.revokeClose e) := by
  unfold State.revokeClose
  exact .ite h h.same

theorem Keeps.modCip {f : Cipher → Cipher} (h : Keeps w s t) : Keeps w s (t.modCip f) := h.same

theorem Keeps.modKey {k : Nat} {f : KeySlot → KeySlot} (h : Keeps w s t) : Keeps w s (t.modKey k f) := h.same

theorem Keeps.keyTo {k : Nat} {st : KeySt} (h : Keeps w s t) : Keeps w s (t.keyTo k st) := h.same

theorem Keeps.dropKeys {x1 : Nat} (h : Keeps w s t) : Keeps w s (t.dropKeys x1) := by
  unfold State.dropKeys
  refine .modCip ?_
  exact h.foldl fun _ _ h => h.same

theorem Keeps.revokeCheck (h : Keeps w s t) : Keeps w s t.revokeCheck := by
  unfold State.revokeCheck
  exact h.same.foldl fun _ _ h => h.dropKeys

theorem Keeps.revoke {x1 : Nat} (h : Keeps w s t) : Keeps w s (t.revoke x1).1 := by
  unfold State.revoke
  refine .raise (.revokeCheck ?_)
  refine .withCom (.setPolicyOf ?_)
  refine .foldl ?_ fun _ _ h => h.cancelJob
  refine .foldl ?_ fun _ _ h => h.same
  refine .modCip ?_
  exact h.foldl fun _ _ h => h.revokeClose

theorem Keeps.cmdSetTenantPolicy {q : Request} (h : Keeps w s t) : Keeps w s (t.cmdSetTenantPolicy q) := by
  unfold State.cmdSetTenantPolicy
  refine h.serve fun _ h => ?_
  split
  · exact .ite h.same h.same
  · exact h
  · exact h.revoke

theorem Keeps.cmdEcho {q : Request} (h : Keeps w s t) : Keeps w s (t.cmdEcho q) := by
  unfold State.cmdEcho
  exact h.serve fun _ h => h

theorem Keeps.modTx {n : Nat} {f : TxPath → TxPath} (h : Keeps w s t) : Keeps w s (t.modTx n f) := h.same

theorem Keeps.applyCfg {n : Nat} {c : EngCfg} (h : Keeps w s t) : Keeps w s (t.applyCfg n c) := by
  unfold State.applyCfg
  exact .ite (.ite h.same h.same) (.ite h.same (.ite h.same h.same))

theorem Keeps.cmdEngineConfig {q : Request} (h : Keeps w s t) : Keeps w s (t.cmdEngineConfig q) := by
  unfold State.cmdEngineConfig
  exact h.serve fun _ h => h.applyCfg

theorem Keeps.cmdEngineEnable {q : Request} (h : Keeps w s t) : Keeps w s (t.cmdEngineEnable q) := by
  unfold State.cmdEngineEnable
  exact h.serve fun _ h => .ite_fst h h.same

theorem Keeps.forceClose {id cd : Nat} (h : Keeps w s t) : Keeps w s (t.forceClose id cd) := by
  unfold State.forceClose
  split
  · exact h
  · split
    · exact .ite h h.same
    · exact h.same

theorem Keeps.scheduleLegEnd {id cc : Nat} (h : Keeps w s t) : Keeps w s (t.scheduleLegEnd id cc) := by
  unfold State.scheduleLegEnd
  exact .ite h h.same

theorem Keeps.dropLater {cd : Nat} {raw : List (Nat × RawOp)} (h : Keeps w s t) : Keeps w s (t.dropLater cd raw) := h.same

theorem Keeps.cmdEngineDisable {q : Request} (h : Keeps w s t) : Keeps w s (t.cmdEngineDisable q) := by
  unfold State.cmdEngineDisable
  refine h.serve fun _ h => ?_
  refine .ite_fst ?_ ?_
  · exact h
  · refine .dropLater ?_
    refine .schedule (.modTx ?_)
    refine .foldl ?_ fun _ _ h => h.scheduleLegEnd
    exact h.foldl fun _ _ h => h.forceClose

theorem Keeps.modRx {n : Nat} {f : RxPath → RxPath} (h : Keeps w s t) : Keeps w s (t.modRx n f) := h.same

theorem Keeps.cmdBitloadSet {q : Request} (h : Keeps w s t) : Keeps w s (t.cmdBitloadSet q) := by
  unfold State.cmdBitloadSet
  refine .serve ?_ fun _ h => ?_
  · exact .ite h.raise h
  · exact .ite h.same h.same

theorem Keeps.cmdBitloadMeasure {q : Request} (h : Keeps w s t) : Keeps w s (t.cmdBitloadMeasure q) := by
  unfold State.cmdBitloadMeasure
  exact h.serve fun _ h => .ite h h.same

theorem Keeps.cmdTxRamp {q : Request} (h : Keeps w s t) : Keeps w s (t.cmdTxRamp q) := by
  unfold State.cmdTxRamp
  exact h.serve fun _ h => .ite_fst h.same h.same

theorem Keeps.cmdCaptureSamples {q : Request} (h : Keeps w s t) : Keeps w s (t.cmdCaptureSamples q) := by
  unfold State.cmdCaptureSamples
  refine h.serve_checked fun hj => ?_
  have hroom := passes_of_judge hj (by simp only [List.mem_cons, true_or, or_true] : Check.bad (t.jobsFull q.tenant) .noResource 0 ∈ _)
  exact h.startAccepted hroom

theorem Keeps.modMp {n : Nat} {f : Multi → Multi} (h : Keeps w s t) : Keeps w s (t.modMp n f) := h.same

theorem Keeps.syncTimeWords (h : Keeps w s t) : Keeps w s t.syncTimeWords := by
  unfold State.syncTimeWords
  exact .ite h h.same

/-- A filled memory stays canonical: bytes go, and none comes. -/
theorem fillZero_wf {m : MemInst} (h : Memory.wf m.data) (b lo hi : Nat) : Memory.wf (m.fillZero b lo hi).data :=
  ⟨List.Pairwise.filter _ h.1, fun e he => h.2 e (List.mem_filter.mp he).1⟩

theorem Keeps.clearProfiles {n : Nat} (h : Keeps true s t) : Keeps true s (t.clearProfiles n) :=
  h.modInst_wf fun _ hc => fillZero_wf hc ..

theorem Keeps.cmdMultipointConfig {q : Request} (h : Keeps true s t) : Keeps true s (t.cmdMultipointConfig q) := by
  unfold State.cmdMultipointConfig
  refine h.serve fun _ h => ?_
  refine .ite ?_ ?_
  · refine .modRx (.clearProfiles ?_)
    refine .ite ?_ ?_
    · refine .syncTimeWords ?_
      split
      · exact h.same
      · exact h.same
      · exact h.same
    · split
      · exact h.same
      · exact h.same
      · exact h.same
  · refine .ite ?_ ?_
    · refine .syncTimeWords ?_
      split
      · exact h.same
      · exact h.same
      · exact h.same
    · split
      · exact h.same
      · exact h.same
      · exact h.same

theorem Keeps.modProf {n leaf : Nat} {f : LeafProf → LeafProf} (h : Keeps w s t) : Keeps w s (t.modProf n leaf f) := h.same

theorem Keeps.cmdLeafProfileSet {q : Request} (h : Keeps w s t) : Keeps w s (t.cmdLeafProfileSet q) := by
  unfold State.cmdLeafProfileSet
  refine h.serve fun _ h => ?_
  dsimp only
  split
  · exact h.same
  · exact h.same
  · exact h.same
  · exact h

theorem Keeps.closeForForced {id n : Nat} (h : Keeps w s t) : Keeps w s (t.closeForForced id n) := by
  unfold State.closeForForced
  split
  · exact .ite h.forceClose h
  · exact h

theorem Keeps.cmdPassageOpen {q : Request} (h : Keeps w s t) : Keeps w s (t.cmdPassageOpen q) := by
  unfold State.cmdPassageOpen
  refine .ite ?_ ?_
  · exact h.hold
  · refine h.serve fun _ h => ?_
    refine .foldl ?_ fun _ _ h => h.closeForForced
    refine .schedule ?_
    exact .ite h.same h.same

theorem Keeps.cmdPassageClose {q : Request} (h : Keeps w s t) : Keeps w s (t.cmdPassageClose q) := by
  unfold State.cmdPassageClose
  refine .ite ?_ ?_
  · exact h.hold
  · refine h.serve fun _ h => ?_
    split
    · exact h
    · split
      · exact h
      · exact h.same

theorem Keeps.cmdPassageQuery {q : Request} (h : Keeps w s t) : Keeps w s (t.cmdPassageQuery q) := by
  unfold State.cmdPassageQuery
  refine h.serve fun _ h => ?_
  split
  · exact h
  · exact h

theorem Keeps.cmdTableWrite {q : Request} (h : Keeps w s t) : Keeps w s (t.cmdTableWrite q) := by
  unfold State.cmdTableWrite
  exact .ite h.hold (h.serve fun _ h => .ite h.same h.same)

theorem Keeps.cmdTableCommit {q : Request} (h : Keeps w s t) : Keeps w s (t.cmdTableCommit q) := by
  unfold State.cmdTableCommit
  exact .ite h.hold (h.serve fun _ h => h.same)

theorem Keeps.cmdTableRead {q : Request} (h : Keeps w s t) : Keeps w s (t.cmdTableRead q) := by
  unfold State.cmdTableRead
  exact .ite h.hold (h.serve fun _ h => h)

theorem Keeps.endForForced {id n : Nat} (h : Keeps w s t) : Keeps w s (t.endForForced id n) := by
  unfold State.endForForced
  split
  · exact .ite h.scheduleLegEnd h
  · exact h

theorem Keeps.cmdProtectGroupSet {q : Request} (h : Keeps w s t) : Keeps w s (t.cmdProtectGroupSet q) := by
  unfold State.cmdProtectGroupSet
  refine .ite ?_ ?_
  · exact h.hold
  · refine h.serve fun _ h => ?_
    dsimp only
    split
    · exact h.same.endForForced
    · exact h.scheduleLegEnd
    · exact h.same
    · exact h.same
    · exact h.same

theorem Keeps.unwrapFail {slot x2 keyId gen : Nat} (h : Keeps w s t) : Keeps w s (t.unwrapFail slot x2 keyId gen) := h.same.raise

theorem Keeps.loadKey {x1 slot usage keyId gen : Nat} {key : List Byte} (h : Keeps w s t) :
    Keeps w s (t.loadKey x1 slot usage keyId gen key) := by
  unfold State.loadKey
  refine .modKey (.modCip ?_)
  split
  · exact .ite h.same h
  · exact h

theorem Keeps.cmdKeyLoadWrapped {q : Request} (h : Keeps w s t) : Keeps w s (t.cmdKeyLoadWrapped q) := by
  unfold State.cmdKeyLoadWrapped
  refine .serve ?_ fun _ h => ?_
  · exact .ite h.unwrapFail h
  · exact h.loadKey

theorem Keeps.cmdKeyRetire {q : Request} (h : Keeps w s t) : Keeps w s (t.cmdKeyRetire q) := by
  unfold State.cmdKeyRetire
  exact h.serve fun _ h => h.same

theorem Keeps.prepare {x1 id slot : Nat} (h : Keeps w s t) : Keeps w s (t.prepare x1 id slot) := by
  unfold State.prepare
  refine .keyTo (.modCip ?_)
  split
  · exact h.same
  · exact h

theorem Keeps.modCipPas {id : Nat} {f : CipPas → CipPas} (h : Keeps w s t) : Keeps w s (t.modCipPas id f) := h.same

theorem Keeps.cmdCipherBind {q : Request} (h : Keeps w s t) : Keeps w s (t.cmdCipherBind q) := by
  unfold State.cmdCipherBind
  exact h.serve fun _ h => .ite_fst h.prepare h.same

theorem Keeps.cmdCipherUnbind {q : Request} (h : Keeps w s t) : Keeps w s (t.cmdCipherUnbind q) := by
  unfold State.cmdCipherUnbind
  exact h.serve fun _ h => h.same

theorem Keeps.setKek {x1 : Nat} {k : Kek} (h : Keeps w s t) : Keeps w s (t.setKek x1 k) := h.same

theorem Keeps.cmdKekRotate {q : Request} (h : Keeps w s t) : Keeps w s (t.cmdKekRotate q) := by
  unfold State.cmdKekRotate
  extract_lets act gen m tenant kek used unwrapped blob overSpi first failed v
  have hv : Keeps w s v := .ite h.unwrapFail h
  refine hv.serve_checked fun hj => ?_
  have hroom : (decide (act ≤ 2) && v.jobsFull tenant) = false :=
    passes_of_judge (st := .noResource) (r := 0) hj (List.mem_append_right _ (by simp only [List.mem_cons, true_or, or_true]))
  have hmay : act ≤ 2 → ∀ k op work, Keeps w s ((v.accepted.setKek tenant k).startJob tenant op work).1 := fun hle _ _ _ =>
    (hv.same (u := v.accepted.setKek tenant _)).startJob (by rw [decide_eq_true hle, Bool.true_and] at hroom; exact hroom)
  clear_value blob kek act
  dsimp only
  split
  case h_1 hact => exact hmay (by omega) ..
  case h_2 hact => exact hmay (by omega) ..
  · cases blob with
    | some k => exact hv.same
    | none => exact hv.same
  · cases kek with
    | some k => exact hv.same
    | none => exact hv.same
  · exact hv.same

theorem Keeps.selectedEvent {new old : Option Nat} {role : Nat} (h : Keeps w s t) : Keeps w s (t.selectedEvent new old role) := h.raise

theorem Keeps.modTim {f : Timing → Timing} (h : Keeps w s t) : Keeps w s (t.modTim f) := h.same

theorem Keeps.setLoop {st : Nat} (h : Keeps w s t) : Keeps w s (t.setLoop st) := by
  unfold State.setLoop
  exact .ite h h.same.setInt

theorem Keeps.holdOver (h : Keeps w s t) : Keeps w s t.holdOver := by
  unfold State.holdOver
  refine .ite ?_ ?_
  · exact h
  · split
    · exact h.setLoop.modTim.raise
    · exact h.setLoop.modTim.raise

theorem Keeps.reselect (h : Keeps w s t) : Keeps w s t.reselect := by
  unfold State.reselect
  refine .ite ?_ ?_
  · refine .ite ?_ ?_
    · exact h
    · dsimp only
      split
      · exact h.same.selectedEvent.holdOver
      · exact .ite h.same.selectedEvent.setLoop.modTim (.ite h.same.selectedEvent.modTim h.same.selectedEvent)
  · refine .selectedEvent (.modTim ?_)
    refine .ite ?_ ?_
    · exact h
    · dsimp only
      split
      · exact h.same.selectedEvent.holdOver
      · exact .ite h.same.selectedEvent.setLoop.modTim (.ite h.same.selectedEvent.modTim h.same.selectedEvent)

theorem Keeps.modInput {i : Nat} {f : TimeInput → TimeInput} (h : Keeps w s t) : Keeps w s (t.modInput i f) := h.same

theorem Keeps.leaveState {i st cause : Nat} (h : Keeps w s t) : Keeps w s (t.leaveState i st cause) := by
  unfold State.leaveState
  exact .ite h.same.raise h.same

theorem Keeps.dropInput {i : Nat} (h : Keeps w s t) : Keeps w s (t.dropInput i) := by
  unfold State.dropInput
  exact .ite h h.leaveState.modInput.reselect

theorem Keeps.judgeQl {i : Nat} (h : Keeps w s t) : Keeps w s (t.judgeQl i) := by
  unfold State.judgeQl
  exact .ite h.leaveState h

theorem Keeps.cmdRefConfig {q : Request} (h : Keeps w s t) : Keeps w s (t.cmdRefConfig q) := by
  unfold State.cmdRefConfig
  refine h.serve fun _ h => ?_
  refine .ite_fst ?_ ?_
  · exact h.dropInput.modTim.reselect
  · refine .reselect ?_
    refine .ite ?_ ?_
    · refine .modInput ?_
      refine .judgeQl (.modTim ?_)
      exact .ite h.leaveState h
    · refine .judgeQl (.modTim ?_)
      exact .ite h.leaveState h

theorem Keeps.cmdRefStatus {q : Request} (h : Keeps w s t) : Keeps w s (t.cmdRefStatus q) := by
  unfold State.cmdRefStatus
  exact h.serve fun _ h => h

theorem Keeps.cmdLoopConfig {q : Request} (h : Keeps w s t) : Keeps w s (t.cmdLoopConfig q) := by
  unfold State.cmdLoopConfig
  exact h.serve fun _ h => .ite_fst h.same.reselect h

theorem Keeps.stepTime {dest : Nat} (h : Keeps w s t) : Keeps w s (t.stepTime dest State.closeBins) :=
  h.closeBins.same.raise

theorem Keeps.cmdTimeSet {q : Request} (h : Keeps w s t) : Keeps w s (t.cmdTimeSet q State.closeBins) := by
  unfold State.cmdTimeSet
  refine h.serve fun _ h => ?_
  split
  · exact h.same
  · exact h.stepTime

theorem Keeps.modUl {p : Nat} {f : UlPort → UlPort} (h : Keeps w s t) : Keeps w s (t.modUl p f) := h.same

theorem Keeps.toCarrier {input : Nat} {content : List Byte} (h : Keeps w s t) : Keeps w s (t.toCarrier input content) := by
  unfold State.toCarrier
  exact .ite h.same h.same

theorem Keeps.sendMessage {input type : Nat} {broadcast : Bool} {dest tenant : Nat} {body : List Byte} (h : Keeps w s t) :
    Keeps w s (t.sendMessage input type broadcast dest tenant body) := by
  unfold State.sendMessage
  dsimp only
  split
  · exact h
  · exact h.toCarrier.modTim

theorem Keeps.finishJob {token : Nat} {st : Status} {result : List Byte} (h : Keeps w s t) : Keeps w s (t.finishJob token st result) :=
  h.modJob

theorem Keeps.cmdDomainJoin {q : Request} (h : Keeps w s t) : Keeps w s (t.cmdDomainJoin q) := by
  unfold State.cmdDomainJoin
  refine h.serve_checked fun hj => ?_
  have hact := passes_of_judge hj (List.mem_cons_self)
  have hroom := passes_of_judge hj (by simp only [List.mem_cons, true_or, or_true] :
    Check.bad (q.u 0 1 == 3 && t.jobsFull q.tenant) .noResource 0 ∈ _)
  split
  · exact h.same
  · exact h.same
  case h_3 h1 h2 =>
    have h3 : q.u 0 1 = 3 := by
      simp only [Bool.or_eq_false_iff, decide_eq_false_iff_not] at hact
      obtain ⟨⟨⟨⟨⟨hlo, hhi⟩, -⟩, -⟩, -⟩, -⟩ := hact
      have hne : q.u 0 1 ≠ 1 ∧ q.u 0 1 ≠ 2 := ⟨h1, h2⟩
      omega
    have hstart : ∀ op work, Keeps w s (t.accepted.startJob q.tenant op work).1 := fun _ _ =>
      h.startAccepted (by simpa [h3] using hroom)
    exact .ite (hstart ..).sendMessage.finishJob (hstart ..).sendMessage

theorem Keeps.cmdMemFill {q : Request} (h : Keeps w s t) : Keeps w s (t.cmdMemFill q) := by
  unfold State.cmdMemFill
  refine h.serve_checked fun hj => ?_
  have hroom := passes_of_judge hj (by simp only [List.mem_cons, true_or, or_true] : Check.bad (t.jobsFull q.tenant) .noResource 0 ∈ _)
  exact h.startAccepted hroom

theorem Keeps.cmdScrubConfig {q : Request} (h : Keeps w s t) : Keeps w s (t.cmdScrubConfig q) := by
  unfold State.cmdScrubConfig
  refine h.serve_checked fun hj => ?_
  have hact := passes_of_judge hj (List.mem_cons_self)
  have hroom := passes_of_judge hj (by simp only [List.mem_cons, true_or, or_true] :
    Check.bad (q.u 0 1 == 3 && t.jobsFull q.tenant) .noResource 0 ∈ _)
  split
  · exact h.same
  · exact h.same
  case h_3 h1 h2 =>
    have h3 : q.u 0 1 = 3 := by
      simp only [Bool.or_eq_false_iff, decide_eq_false_iff_not] at hact
      obtain ⟨⟨⟨hlo, hhi⟩, -⟩, -⟩ := hact
      have hne : q.u 0 1 ≠ 1 ∧ q.u 0 1 ≠ 2 := ⟨h1, h2⟩
      omega
    exact h.startAccepted (by simpa [h3] using hroom)

theorem Keeps.free (h : Keeps w s t) : Keeps w s (t.free).2 := h.same

theorem Keeps.mtpWrite {id len : Nat} {ok : Bool} (h : Keeps w s t) : Keeps w s (t.mtpWrite id len ok) := by
  unfold State.mtpWrite
  exact .ite h.same h.same.raise

theorem Keeps.recordRow {x1 row mode : Nat} {ok : Bool} (h : Keeps w s t) : Keeps w s (t.recordRow x1 row mode ok) := by
  unfold State.recordRow
  exact .ite h.same.mtpWrite.withStore.modLife h.same.mtpWrite

theorem Keeps.repaired {x1 row off mode : Nat} (h : Keeps w s t) : Keeps w s (t.repaired x1 row off mode) := h.modInst.raise

theorem Keeps.startRepair {req : Option Request} {x2 off : Nat} {ok : Bool} (h : Keeps w s t) :
    Keeps w s (t.startRepair req x2 off ok).1 := by
  unfold State.startRepair
  exact .ite_fst h.withMem (.ite_fst h.recordRow.repaired h.recordRow)

theorem Keeps.cmdMemRepair {q : Request} {ok : Bool} (h : Keeps w s t) : Keeps w s (t.cmdMemRepair q ok) := by
  unfold State.cmdMemRepair
  exact h.serve fun _ h => h.startRepair

theorem Keeps.cmdPageRetire {q : Request} (h : Keeps w s t) : Keeps w s (t.cmdPageRetire q) := by
  unfold State.cmdPageRetire
  exact h.serve fun _ h => h.withMem

theorem Keeps.cmdEccStatus {q : Request} (h : Keeps w s t) : Keeps w s (t.cmdEccStatus q) := by
  unfold State.cmdEccStatus
  exact h.serve fun _ h => h

theorem Keeps.cmdEventMask {q : Request} (h : Keeps w s t) : Keeps w s (t.cmdEventMask q) := by
  unfold State.cmdEventMask
  exact h.serve fun _ h => .ite_fst h.same (.ite_fst h h.same)

theorem Keeps.cmdPmBinRead {q : Request} (h : Keeps w s t) : Keeps w s (t.cmdPmBinRead q) := by
  unfold State.cmdPmBinRead
  refine h.serve fun _ h => ?_
  refine .ite_fst ?_ ?_
  · exact h.same
  · split
    · exact h
    · exact h

theorem Keeps.cmdCounterSnapshot {q : Request} (h : Keeps w s t) : Keeps w s (t.cmdCounterSnapshot q) := by
  unfold State.cmdCounterSnapshot
  exact h.serve fun _ h => h.same

theorem Keeps.cmdLifeRead {q : Request} (h : Keeps w s t) : Keeps w s (t.cmdLifeRead q) := by
  unfold State.cmdLifeRead
  refine h.serve fun _ h => ?_
  refine .ite_fst ?_ ?_
  · exact h
  · split
    · exact h
    · exact h.same

theorem Keeps.leapTableSet {q : Request} {ok : Bool} (h : Keeps w s t) : Keeps w s (t.leapTableSet q ok State.closeBins) := by
  unfold State.leapTableSet
  refine h.serve fun _ h => ?_
  exact .ite_fst h (.ite_fst h.modLife.mtpWrite h.modLife.mtpWrite.withLog.closeBins)

theorem Keeps.operate {x1 : Nat} {on : Bool} {code : Nat} (h : Keeps w s t) : Keeps w s (t.operate x1 on code) := by
  unfold State.operate
  exact .ite h h.same

theorem Keeps.railsUp {steps : List (List Nat)} (h : Keeps w s t) : Keeps w s (t.railsUp steps) :=
  h.foldl_fst fun _ _ h => h.foldl fun _ _ h => h.operate

theorem Keeps.steer {code mv : Nat} (h : Keeps w s t) : Keeps w s (t.steer code mv) := by
  unfold State.steer
  exact .ite h.same h

theorem Keeps.modIsland {i : Nat} {f : Island → Island} (h : Keeps w s t) : Keeps w s (t.modIsland i f) := h.same

theorem Keeps.beginExit {i : Nat} (h : Keeps w s t) : Keeps w s (t.beginExit i) := by
  unfold State.beginExit
  refine .modIsland ?_
  exact h.railsUp.foldl fun _ _ h => h.steer

theorem Keeps.refuseEntry {target st reason refuser : Nat} (h : Keeps w s t) : Keeps w s (t.refuseEntry target st reason refuser) :=
  h.same.raise

theorem Keeps.beginDormant {wm gm gl timer : Nat} (h : Keeps w s t) : Keeps w s (t.beginDormant wm gm gl timer) := by
  unfold State.beginDormant
  refine .withPower ?_
  refine .foldl ?_ fun _ _ h => h.same
  exact h.foldl fun _ _ h => h.same

theorem Keeps.beginEntry {i : Nat} {st : IslSt} (h : Keeps w s t) : Keeps w s (t.beginEntry i st) := by
  unfold State.beginEntry
  refine .modIsland ?_
  refine .ite ?_ ?_
  · exact .ite h.same h
  · refine .free ?_
    exact .ite h.same h

theorem Keeps.cmdPowerStateSet {q : Request} (h : Keeps w s t) : Keeps w s (t.cmdPowerStateSet q) := by
  unfold State.cmdPowerStateSet
  refine h.serve fun _ h => ?_
  refine .ite_fst ?_ ?_
  · exact h
  · refine .ite_fst ?_ ?_
    · exact h.beginExit
    · split
      · exact h.refuseEntry
      · exact .ite_fst h.beginDormant h.beginEntry

theorem Keeps.cmdPerfLevelSet {q : Request} (h : Keeps w s t) : Keeps w s (t.cmdPerfLevelSet q) := by
  unfold State.cmdPerfLevelSet
  refine h.serve fun _ h => ?_
  refine .ite_fst ?_ ?_
  · exact h.foldl fun _ _ h => h.same
  · refine .withPower ?_
    exact h.foldl fun _ _ h => h.same

theorem Keeps.cmdDriplineConfig {q : Request} (h : Keeps w s t) : Keeps w s (t.cmdDriplineConfig q) := by
  unfold State.cmdDriplineConfig
  exact h.serve fun _ h => .ite h.same h

theorem Keeps.cmdBelayRelease {q : Request} (h : Keeps w s t) : Keeps w s (t.cmdBelayRelease q) := by
  unfold State.cmdBelayRelease
  exact h.serve fun _ h => h.foldl fun _ _ h => h.same.raise

theorem Keeps.cmdPowerAccountRead {q : Request} (h : Keeps w s t) : Keeps w s (t.cmdPowerAccountRead q) := by
  unfold State.cmdPowerAccountRead
  exact h.serve fun _ h => h

theorem Keeps.fillIsland {i : Nat} (h : Keeps true s t) : Keeps true s (t.fillIsland i) := by
  have hunits := h.foldl (l := onchipUnits.filter fun u => u / 256 == i && u != 0x0C02 && (t.absent u).isNone)
    (f := fun s u => s.modInst (2 * u) fun m =>
      if u = 0x0001 then { m with valid := spanPut m.valid 0 (memSize u / 256) } else m.fillZero 256 0 (memSize u / 256))
    fun _ u h => h.modInst_wf fun m hc => by
      split
      · exact hc
      · exact fillZero_wf hc ..
  exact .ite (hunits.modInst_wf fun _ hc => fillZero_wf hc ..) hunits

theorem Keeps.clearMemories {i : Nat} (h : Keeps true s t) : Keeps true s (t.clearMemories i) := by
  have hmap : ∀ g : Nat × MemInst → Nat × MemInst, (∀ e, (g e).2.data = [] ∨ g e = e) →
      t.memOk → ∀ e ∈ t.mem.insts.map g, Memory.wf e.2.data := fun g hg hc e he => by
    obtain ⟨e, hmem, rfl⟩ := List.mem_map.mp he
    rcases hg e with h0 | h1
    · rw [h0]
      exact memory_nil_wf
    · rw [h1]
      exact hc e hmem
  unfold State.clearMemories
  refine .ite (h.trans ⟨rfl, hmap _ fun e => ?_, nofun, id⟩) (h.trans ⟨rfl, hmap _ fun e => ?_, nofun, id⟩)
  all_goals
    split
    · exact .inl rfl
    · exact .inr rfl

theorem Keeps.clearCounters {i : Nat} (h : Keeps w s t) : Keeps w s (t.clearCounters i) := h.same

theorem Keeps.clearRegs {i : Nat} (h : Keeps w s t) : Keeps w s (t.clearRegs i) := by
  unfold State.clearRegs
  split
  · exact h.same
  · exact .ite h.same (.ite h.same h)

theorem Keeps.clearIsland {i : Nat} (h : Keeps true s t) : Keeps true s (t.clearIsland i) := h.clearRegs.clearCounters.clearMemories

theorem Keeps.needBootCal {n : Nat} (h : Keeps w s t) : Keeps w s (t.needBootCal n) := h.same

theorem Keeps.clearUnit {x1 : Nat} (h : Keeps w s t) : Keeps w s (t.clearUnit x1) := by
  unfold State.clearUnit
  exact .ite h.same (.ite h.same (.ite h.same (.ite h.same h)))

theorem Keeps.resetTarget {x1 : Nat} (h : Keeps true s t) : Keeps true s (t.resetTarget x1) := by
  unfold State.resetTarget
  refine .ite ?_ ?_
  · refine .raise ?_
    exact .ite h.same.clearIsland.fillIsland.needBootCal h.same.clearIsland.fillIsland
  · refine .raise ?_
    exact .ite h.same h.same.clearUnit

theorem Keeps.cmdReset {q : Request} (h : Keeps true s t) : Keeps true s (t.cmdReset q) := by
  unfold State.cmdReset
  exact h.serve fun _ h => .ite_fst h.same h.resetTarget

theorem Keeps.cmdFwUpdate {q : Request} (h : Keeps w s t) : Keeps w s (t.cmdFwUpdate q) := by
  unfold State.cmdFwUpdate
  refine h.serve_checked fun hj => ?_
  have hroom := passes_of_judge hj (by simp only [List.mem_cons, true_or, or_true] :
    Check.bad ((q.u 0 1 != 2 || bitAt (q.u 3 1) 0) && t.jobsFull q.tenant) .noResource 0 ∈ _)
  have hmay : (q.u 0 1 != 2 || bitAt (q.u 3 1) 0) = true → ∀ b op work,
      Keeps w s (State.startJob { t.accepted with boot := b } q.tenant op work).1 := fun hs _ _ _ =>
    (h.same (u := { t.accepted with boot := _ })).startJob (by rw [hs, Bool.true_and] at hroom; exact hroom)
  by_cases h2 : q.u 0 1 = 2
  · rw [if_pos h2]
    dsimp only
    split
    case isTrue hlast => exact hmay (by simp [hlast]) ..
    case isFalse => exact h.same
  · rw [if_neg h2]
    exact .ite_fst (hmay (by simp [h2]) ..) (hmay (by simp [h2]) t.boot ..)

theorem Keeps.cmdFuseStatus {q : Request} (h : Keeps w s t) : Keeps w s (t.cmdFuseStatus q) := by
  unfold State.cmdFuseStatus
  exact h.serve fun _ h => h

theorem Keeps.modHost {f : HostSide → HostSide} (h : Keeps w s t) : Keeps w s (t.modHost f) := h.same

theorem Keeps.laneStart {lane rate : Nat} (h : Keeps w s t) : Keeps w s (t.laneStart lane rate) := h.same

theorem Keeps.spreadInputs (h : Keeps w s t) : Keeps w s t.spreadInputs := by
  unfold State.spreadInputs
  exact h.foldl fun _ _ h => .ite h (.ite (.ite h h.leaveState) (.ite h.same h))

/-- The lanes of an Umran port that is configured start. -/
theorem Keeps.lanesStart {lane rate : Nat} (h : Keeps w s t) :
    Keeps w s ((List.range 4).foldl (fun (s : State) k => s.laneStart (lane + k) rate) t) := h.foldl fun _ _ h => h.laneStart

theorem Keeps.cmdUlinkConfig {q : Request} (h : Keeps w s t) : Keeps w s (t.cmdUlinkConfig q) := by
  unfold State.cmdUlinkConfig
  refine h.serve fun v h => ?_
  split
  · dsimp only
    exact .syncTimeWords (.ite h.withUl.lanesStart h.withUl.lanesStart.raise)
  · dsimp only
    exact h.withUl.modHost.syncTimeWords
  · exact h.withUl.spreadInputs.reselect.syncTimeWords

theorem Keeps.cmdUlinkStatus {q : Request} (h : Keeps w s t) : Keeps w s (t.cmdUlinkStatus q) := by
  unfold State.cmdUlinkStatus
  exact h.serve fun _ h => h

theorem Keeps.inputLost {i : Nat} (h : Keeps w s t) : Keeps w s (t.inputLost i) := h.same.dropInput

theorem Keeps.dropPort {lane : Nat} (h : Keeps w s t) : Keeps w s (t.dropPort lane) := by
  unfold State.dropPort
  split
  · exact h
  · exact h.same

end Sys2Proof.Proofs
end

section
/-!
SUPPORT. What the operations keep (`Keeps`), part 2 of 4, each after those that it is made of.
-/
namespace Sys2Proof.Proofs
open Sys2Proof Sys2Proof.Machine Sys2Proof.Laws

set_option Elab.async false

variable {w : Bool} {s t : State}

theorem Keeps.cmdHostPortConfig {q : Request} (h : Keeps w s t) : Keeps w s (t.cmdHostPortConfig q) := by
  unfold State.cmdHostPortConfig
  refine h.serve fun _ h => ?_
  refine .ite_fst ?_ ?_
  · exact h.dropPort.inputLost
  · refine .ite ?_ ?_
    · exact h.dropPort.inputLost.modHost.foldl fun _ _ h => h.same
    · refine .raise ?_
      exact h.dropPort.inputLost.modHost.foldl fun _ _ h => h.same

theorem Keeps.installTable {b : List Byte} {live : Bool} (h : Keeps w s t) : Keeps w s (t.installTable b live) := h.same.raise

theorem Keeps.cmdHostTableLoad {q : Request} (h : Keeps w s t) : Keeps w s (t.cmdHostTableLoad q) := by
  unfold State.cmdHostTableLoad
  refine .serve ?_ fun _ h => ?_
  · exact .ite h.same h
  · exact .ite h.installTable h.same

theorem Keeps.cmdFlexeCalendarSet {q : Request} (h : Keeps w s t) : Keeps w s (t.cmdFlexeCalendarSet q) := by
  unfold State.cmdFlexeCalendarSet
  exact h.serve fun _ h => .ite_fst h.same h.same

theorem Keeps.modHk {c : Nat} {f : HkConv → HkConv} (h : Keeps w s t) : Keeps w s (t.modHk c f) := by
  unfold State.modHk
  exact .ite h.same h.same

theorem Keeps.cmdHkSequenceSet {q : Request} (h : Keeps w s t) : Keeps w s (t.cmdHkSequenceSet q) := by
  unfold State.cmdHkSequenceSet
  refine h.serve fun _ h => ?_
  split
  · dsimp only
    exact h.modHk
  · dsimp only
    exact h.modHk
  · exact h
  · exact h.same

theorem Keeps.modFilter {k : Nat} {f : HkFilter → HkFilter} (h : Keeps w s t) : Keeps w s (t.modFilter k f) := h.same

theorem Keeps.cmdHkFilterSet {q : Request} (h : Keeps w s t) : Keeps w s (t.cmdHkFilterSet q) := by
  unfold State.cmdHkFilterSet
  refine h.serve fun _ h => ?_
  dsimp only
  split
  · exact h.same
  · exact h.same
  · exact h

theorem Keeps.cmdHkRead {q : Request} (h : Keeps w s t) : Keeps w s (t.cmdHkRead q) := by
  unfold State.cmdHkRead
  exact h.serve fun _ h => h

theorem Keeps.calTrigger {n c cause : Nat} {job : Bool} (h : Keeps w s t) : Keeps w s (t.calTrigger n c cause job) := by
  unfold State.calTrigger
  exact .ite h (.ite h.raise (.ite h.same h.same))

theorem Keeps.setPolicy {n mask flags delta hours : Nat} (h : Keeps w s t) : Keeps w s (t.setPolicy n mask flags delta hours) := by
  unfold State.setPolicy
  exact h.foldl fun _ _ h => .ite h.same.calTrigger (.ite h.same.calTrigger h.same)

theorem Keeps.cmdCalPolicy {q : Request} (h : Keeps w s t) : Keeps w s (t.cmdCalPolicy q) := by
  unfold State.cmdCalPolicy
  exact h.serve fun _ h => .ite (h.foldl fun _ _ h => h.setPolicy) h

theorem Keeps.cmdCalRun {q : Request} (h : Keeps w s t) : Keeps w s (t.cmdCalRun q) := by
  unfold State.cmdCalRun
  refine h.serve_checked fun hj => ?_
  refine .foldl ?_ fun _ _ h => h.calTrigger
  have hroom := passes_of_judge hj (by simp only [List.mem_cons, true_or, or_true] : Check.bad (t.jobsFull q.tenant) .noResource 0 ∈ _)
  exact h.startAccepted hroom

theorem Keeps.execute {op : Nat} {q : Request} (h : Keeps true s t) : Keeps true s (t.execute op q) := by
  unfold State.execute
  split
  · exact h.cmdGetInfo
  · exact h.cmdGetVariant
  · exact h.cmdJobStatus
  · exact h.cmdJobCancel
  · exact h.cmdSetTenantPolicy
  · exact h.cmdEcho
  · exact h.cmdEngineConfig
  · exact h.cmdEngineEnable
  · exact h.cmdEngineDisable
  · exact h.cmdBitloadSet
  · exact h.cmdBitloadMeasure
  · exact h.cmdTxRamp
  · exact h.cmdCaptureSamples
  · exact h.cmdMultipointConfig
  · exact h.cmdLeafProfileSet
  · exact h.cmdPassageOpen
  · exact h.cmdPassageClose
  · exact h.cmdPassageQuery
  · exact h.cmdTableWrite
  · exact h.cmdTableCommit
  · exact h.cmdTableRead
  · exact h.cmdProtectGroupSet
  · exact h.cmdKeyLoadWrapped
  · exact h.cmdKeyRetire
  · exact h.cmdCipherBind
  · exact h.cmdCipherUnbind
  · exact h.cmdKekRotate
  · exact h.cmdRefConfig.syncTimeWords
  · exact h.cmdRefStatus
  · exact h.cmdLoopConfig
  · exact h.cmdTimeSet
  · exact h.cmdDomainJoin
  · exact h.cmdMemFill
  · exact h.cmdScrubConfig
  · exact h.same.cmdMemRepair
  · exact h.cmdPageRetire
  · exact h.cmdEccStatus
  · exact h.cmdEventMask
  · exact h.cmdPmBinRead
  · exact h.cmdCounterSnapshot
  · exact h.cmdLifeRead
  · exact h.same.leapTableSet
  · exact h.cmdPowerStateSet
  · exact h.cmdPerfLevelSet
  · exact h.cmdDriplineConfig
  · exact h.cmdBelayRelease
  · exact h.cmdPowerAccountRead
  · exact h.cmdReset
  · exact h.cmdFwUpdate
  · exact h.cmdFuseStatus
  · exact h.cmdUlinkConfig
  · exact h.cmdUlinkStatus
  · exact h.cmdHostPortConfig
  · exact h.cmdHostTableLoad
  · exact h.cmdFlexeCalendarSet
  · exact h.cmdHkSequenceSet
  · exact h.cmdHkFilterSet
  · exact h.cmdHkRead
  · exact h.cmdCalPolicy
  · exact h.cmdCalRun
  · exact h

theorem Keeps.answerAll (h : Keeps true s t) : Keeps true s t.answerAll := by
  unfold State.answerAll
  exact h.answerBad.foldl fun _ _ h => h.execute

theorem Keeps.sendRelayed (h : Keeps w s t) : Keeps w s t.sendRelayed := by
  unfold State.sendRelayed
  exact h.same.foldl fun _ _ h => h.sendMessage

theorem Keeps.haltRing {n cause index : Nat} (h : Keeps w s t) : Keeps w s (t.haltRing n cause index) := h.same.setInt.raise

theorem Keeps.ringCtrl {n : Nat} {v : Reg} (h : Keeps w s t) : Keeps w s (t.ringCtrl n v) := by
  unfold State.ringCtrl
  exact .ite h.same (.ite h.same (.ite h.same (.ite h.same h.same.haltRing)))

theorem Keeps.doorbell {n : Nat} {v : BitVec 16} (h : Keeps w s t) : Keeps w s (t.doorbell n v) := by
  unfold State.doorbell
  exact .ite h.same.haltRing h.same

theorem Keeps.intClear {n : Nat} {v : Reg} (h : Keeps w s t) : Keeps w s (t.intClear n v) := by
  unfold State.intClear
  exact .ite h.same.msi h.same

theorem Keeps.intMaskWrite {n : Nat} {v : Reg} (h : Keeps w s t) : Keeps w s (t.intMaskWrite n v) := by
  unfold State.intMaskWrite
  exact .ite h.same.msi h.same

theorem Keeps.pageWrite {n o : Nat} {v : Reg} (h : Keeps w s t) : Keeps w s (t.pageWrite n o v) := by
  unfold State.pageWrite
  dsimp only
  split
  · exact h.ringCtrl
  · exact h.same
  · exact h.same
  · exact h.same
  · exact h.doorbell
  · exact h.same
  · exact h.same
  · exact h.same
  · exact h.intClear
  · exact h.intMaskWrite
  · exact h.same
  · exact h

theorem Keeps.pageRow {n o : Nat} {v : Reg} (h : Keeps w s t) : Keeps w s (t.pageRow n o v) := by
  unfold State.pageRow
  exact .ite h.pageWrite h

theorem Keeps.tailDoorbell {n : Nat} {v : BitVec 16} (h : Keeps w s t) : Keeps w s (t.tailDoorbell n v) := h.pageRow

theorem Keeps.responseLost {n : Nat} (h : Keeps w s t) : Keeps w s (t.responseLost n) := by
  unfold State.responseLost
  exact .ite h h.same.haltRing

theorem Keeps.receive {via : Via} {page : Option Nat} {exactLen : Bool} {p : List Byte} (h : Keeps w s t) :
    Keeps w s (t.receive via page exactLen p) := by
  unfold State.receive
  dsimp only
  split
  · exact h.same
  · exact .ite h.respond h.same

theorem Keeps.fetchFrom {n : Nat} {io : RingIo} (h : Keeps w s t) : Keeps w s (t.fetchFrom n io) := by
  unfold State.fetchFrom
  split
  · exact h
  · exact h.haltRing
  · exact h.same.respond.haltRing
  · exact h.same.receive

theorem Keeps.ringFetch {io : RingIo} (h : Keeps w s t) : Keeps w s (t.ringFetch io) := by
  unfold State.ringFetch
  split
  · exact h.responseLost
  · split
    · exact h
    · exact .ite h.same h.same.fetchFrom

theorem Keeps.headWrite {n : Nat} {v : BitVec 16} (h : Keeps w s t) : Keeps w s (t.headWrite n v) := h.pageRow

theorem Keeps.ringEnable {n cmdq rspq : Nat} (h : Keeps w s t) : Keeps w s (t.ringEnable n cmdq rspq) := h.pageRow

theorem Keeps.ringResetRow {n : Nat} (h : Keeps w s t) : Keeps w s (t.ringResetRow n) := h.pageRow

theorem Keeps.intStatusRow {n : Nat} {v : Reg} (h : Keeps w s t) : Keeps w s (t.intStatusRow n v) := h.pageRow

theorem Keeps.rspModeration {n : Nat} (h : Keeps w s t) : Keeps w s (t.rspModeration n) := by
  unfold State.rspModeration
  dsimp only
  split
  · exact h
  · exact .ite h (.ite h.same.setInt h.same)

theorem Keeps.evtRdWrite {v : Reg} (h : Keeps w s t) : Keeps w s (t.evtRdWrite v) := by
  unfold State.evtRdWrite
  exact .ite h.same h

theorem Keeps.msixWrite {x1 : Nat} {v : Reg} (h : Keeps w s t) : Keeps w s (t.msixWrite x1 v) := by
  unfold State.msixWrite
  exact .ite h.same h.same

theorem Keeps.globalWrite {o : Nat} {v : Reg} (h : Keeps w s t) : Keeps w s (t.globalWrite o v) := by
  unfold State.globalWrite
  split
  · exact h.same
  · exact h.same
  · exact h.evtRdWrite
  · exact h.same
  · exact .ite h.msixWrite h

theorem Keeps.evtRdRow {v : Reg} (h : Keeps w s t) : Keeps w s (t.evtRdRow v) := by
  unfold State.evtRdRow
  exact .ite h.globalWrite h

theorem Keeps.liveRead {x1 off a : Nat} (h : Keeps w s t) : Keeps w s (t.liveRead x1 off a).1 := by
  unfold State.liveRead
  split
  · exact h
  · dsimp only
    split
    · exact h.darkAccess
    · split
      · exact h
      · exact .ite_fst h.same h

theorem Keeps.partRead {p : Bar0Part} {a : Nat} (h : Keeps w s t) : Keeps w s (t.partRead p a).1 := by
  unfold State.partRead
  split
  · exact .ite h.same h
  · exact h
  · exact h
  · exact h.liveRead
  · exact h
  · exact h

theorem Keeps.bar0Read {a : Nat} (h : Keeps w s t) : Keeps w s (t.bar0Read a).1 := h.partRead

theorem Keeps.wordsRead {n a : Nat} (h : Keeps w s t) : Keeps w s (State.wordsRead n t a).1 := by
  induction n generalizing t a with
  | zero => exact h
  | succ n ih => exact ih h.bar0Read

theorem Keeps.pcieRead {a size : Nat} (h : Keeps w s t) : Keeps w s (t.pcieRead a size) := by
  unfold State.pcieRead
  exact .ite h h.wordsRead.withCom

theorem Keeps.chamberLoRead (h : Keeps w s t) : Keeps w s t.chamberLoRead := h.pcieRead

theorem Keeps.counterLowRead {x1 j : Nat} (h : Keeps w s t) : Keeps w s (t.counterLowRead x1 j) := by
  unfold State.counterLowRead
  exact .ite h.pcieRead h

theorem Keeps.bar0Write {a : Nat} {v : Reg} (h : Keeps w s t) : Keeps w s (t.bar0Write a v) := by
  unfold State.bar0Write
  split
  · exact h.globalWrite
  · exact h.pageWrite
  · split
    · exact h.darkAccess
    · exact h
  · exact h

theorem Keeps.registerWrite {a size : Nat} {v : Reg} (h : Keeps w s t) : Keeps w s (t.registerWrite a size v) := by
  unfold State.registerWrite
  exact .ite h h.bar0Write

theorem Keeps.uncorrectable {x1 inst addr reader : Nat} (h : Keeps w s t) : Keeps w s (t.uncorrectable x1 inst addr reader) :=
  h.modInst.raise

theorem Keeps.uncorrectableRead {x1 inst addr : Nat} {spi : Bool} (h : Keeps w s t) : Keeps w s (t.uncorrectableRead x1 inst addr spi) := by
  unfold State.uncorrectableRead
  exact .ite h (.ite h.uncorrectable.withCom h.uncorrectable.withCom)

theorem Keeps.latchItem {x : Latched} (h : Keeps w s t) : Keeps w s (t.latchItem x) := by
  unfold State.latchItem
  exact .ite h.same h.same

theorem Keeps.wakeNow {source gpio : Nat} (h : Keeps w s t) : Keeps w s (t.wakeNow source gpio) := h.same

theorem Keeps.wakeSource {source gpio : Nat} {level : Bool} {arg : Nat} {message : List Byte} (h : Keeps w s t) :
    Keeps w s (t.wakeSource source gpio level arg message) := by
  unfold State.wakeSource
  refine .ite ?_ ?_
  · exact h
  · refine .ite ?_ ?_
    · refine .wakeNow ?_
      exact .ite h.latchItem h
    · exact .ite h.latchItem h

theorem Keeps.modSpi {f : Target → Target} (h : Keeps w s t) : Keeps w s (t.modSpi f) := h.same

theorem Keeps.packetWrite {p : List Byte} (h : Keeps w s t) : Keeps w s (t.packetWrite p) := by
  unfold State.packetWrite
  refine .ite ?_ ?_
  · exact h
  · refine .ite ?_ ?_
    · refine .receive ?_
      exact .ite h.wakeSource h
    · refine .raise (.modSpi ?_)
      exact .ite h.wakeSource h

theorem Keeps.responseRead {whole : Bool} (h : Keeps w s t) : Keeps w s (t.responseRead whole) := by
  unfold State.responseRead
  exact .ite h h.same

theorem Keeps.statusRead (h : Keeps w s t) : Keeps w s t.statusRead := by
  unfold State.statusRead
  exact .ite h h.same

theorem Keeps.regRead {a : Nat} (h : Keeps w s t) : Keeps w s (t.regRead a) := by
  unfold State.regRead
  exact .ite h h.bar0Read.modSpi

theorem Keeps.regWrite {a : Nat} {v : Reg} (h : Keeps w s t) : Keeps w s (t.regWrite a v) := by
  unfold State.regWrite
  exact .ite h h.bar0Write

theorem Keeps.modI2c {f : Target → Target} (h : Keeps w s t) : Keeps w s (t.modI2c f) := h.same

theorem Keeps.i2cPacketWrite {p : List Byte} (h : Keeps w s t) : Keeps w s (t.i2cPacketWrite p) := by
  unfold State.i2cPacketWrite
  refine .ite ?_ ?_
  · exact h
  · refine .ite ?_ ?_
    · refine .receive ?_
      exact .ite h.wakeSource h
    · refine .modI2c ?_
      exact .ite h.wakeSource h

theorem Keeps.i2cRead {status whole : Bool} (h : Keeps w s t) : Keeps w s (t.i2cRead status whole) := by
  unfold State.i2cRead
  refine .ite ?_ ?_
  · exact h
  · refine .ite ?_ ?_
    · refine .modI2c ?_
      exact .ite h.wakeSource h
    · refine .ite ?_ ?_
      · exact .ite h.wakeSource h
      · refine .modI2c ?_
        exact .ite h.wakeSource h

theorem Keeps.perst (h : Keeps w s t) : Keeps w s t.perst := by
  unfold State.perst
  refine .withCom ?_
  exact h.foldl fun _ _ h => h.same

theorem Keeps.memWrite {u inst addr : Nat} {bytes : List Byte} (h : Keeps true s t) : Keeps true s (t.memWrite u inst addr bytes) :=
  (h.foldl fun _ _ h => h.modInst).modInst_wf fun _ hc => writeL_wf hc _ _

theorem Keeps.captureBad {j : Job} {c : Capture} {k : Nat} (h : Keeps true s t) : Keeps true s (t.captureBad j c k) :=
  h.memWrite.modInst.modJob

theorem Keeps.captureStep {j : Job} {n : Nat} {c : Capture} {io : JobIo} (h : Keeps true s t) : Keeps true s (t.captureStep j n c io) := by
  unfold State.captureStep
  refine .ite ?_ ?_
  · exact h.modJob
  · split
    · exact h.captureBad
    · exact .ite h.memWrite.finishJob.recordAt h.memWrite.modJob

theorem Keeps.unwrittenRead {x1 inst addr reader : Nat} (h : Keeps w s t) : Keeps w s (t.unwrittenRead x1 inst addr reader) :=
  h.modInst.raise

theorem Keeps.fillStep {j : Job} {act x3 addr len data done : Nat} {io : JobIo} (h : Keeps true s t) :
    Keeps true s (t.fillStep j act x3 addr len data done io) := by
  unfold State.fillStep
  refine .ite ?_ ?_
  · exact h.modJob
  · refine .ite ?_ ?_
    · exact h.modJob
    · refine .ite ?_ ?_
      · refine .finishJob ?_
        split
        · exact h.memWrite
        · refine .withJobs ?_
          exact h.foldl fun _ _ h => h.unwrittenRead
        · exact h.memWrite
      · refine .modJob ?_
        split
        · exact h.memWrite
        · refine .withJobs ?_
          exact h.foldl fun _ _ h => h.unwrittenRead
        · exact h.memWrite

theorem Keeps.correction {x1 inst : Nat} (h : Keeps w s t) : Keeps w s (t.correction x1 inst) := by
  unfold State.correction
  exact .ite h.modInst h.modInst.setInt.modInst.raise

theorem Keeps.setWalk {x1 : Nat} {x2 : Walk} (h : Keeps w s t) : Keeps w s (t.setWalk x1 x2) :=
  h.withMem (by split <;> rfl)

theorem Keeps.autoRepair {x1 off : Nat} {ok : Bool} (h : Keeps w s t) : Keeps w s (t.autoRepair x1 off ok) := by
  unfold State.autoRepair
  exact .ite h h.startRepair

theorem Keeps.scrubFixed {x1 addr bit : Nat} {ok : Bool} (h : Keeps w s t) : Keeps w s (t.scrubFixed x1 addr bit ok) := by
  unfold State.scrubFixed
  refine .ite ?_ ?_
  · refine .ite ?_ ?_
    · refine .raise (.modInst ?_)
      exact .ite h.correction.setWalk.raise h.correction.setWalk
    · refine .autoRepair ?_
      refine .raise (.modInst ?_)
      exact .ite h.correction.setWalk.raise h.correction.setWalk
  · exact .ite h.correction.setWalk.raise h.correction.setWalk

theorem Keeps.writeBack {u addr : Nat} {flips : List Nat} {bit : Nat} (h : Keeps true s t) : Keeps true s (t.writeBack u addr flips bit) :=
  .ite h (h.modInst_wf fun _ hc => writeL_wf hc _ _)

theorem Keeps.scrubBlock {x1 block : Nat} {found : List Finding} {ok : Bool} (h : Keeps true s t) :
    Keeps true s (t.scrubBlock x1 block found ok) := by
  unfold State.scrubBlock
  refine h.foldl fun _ _ h => ?_
  split
  · exact h
  · exact h.writeBack.scrubFixed
  · exact h.uncorrectable

theorem Keeps.endPass {lp : Bool} {units : List Nat} {start : Nat} (h : Keeps w s t) : Keeps w s (t.endPass lp units start) := by
  unfold State.endPass
  refine .setWalk ?_
  exact h.foldl fun _ _ h => h.modInst

theorem Keeps.sweepStep {j : Job} {units : List (Nat × Nat)} {start total : Nat} {io : JobIo} (h : Keeps true s t) :
    Keeps true s (t.sweepStep j units start total io) := by
  unfold State.sweepStep
  split
  · exact h.finishJob
  · refine .ite ?_ ?_
    · exact h.modJob
    · refine .ite ?_ ?_
      · exact h
      · split
        · exact h.scrubBlock.modJob
        · exact .ite h.endPass.finishJob h.endPass.modJob

theorem Keeps.kekDone {x1 : Nat} {gen : List Byte} (h : Keeps w s t) : Keeps w s (t.kekDone x1 gen) := h.raise

theorem Keeps.applyBoard {b : List Byte} (h : Keeps w s t) : Keeps w s (t.applyBoard b) := h.same

theorem Keeps.stageCheck {token target : Nat} (h : Keeps w s t) : Keeps w s (t.stageCheck token target) := by
  unfold State.stageCheck
  dsimp only
  split
  · exact h.finishJob
  · refine .finishJob ?_
    refine .ite ?_ ?_
    · refine .railsUp (.applyBoard ?_)
      exact .ite h.same h.same
    · exact .ite h.same h.same

theorem Keeps.stageMore {token target hostAddr len : Nat} {bytes : List Byte} (h : Keeps w s t) :
    Keeps w s (t.stageMore token target hostAddr len bytes) := by
  unfold State.stageMore
  exact .ite h.same.stageCheck h.same.modJob

theorem Keeps.flashWrite {token target : Nat} {verified : Bool} (h : Keeps w s t) : Keeps w s (t.flashWrite token target verified) := by
  unfold State.flashWrite
  split
  · exact h.finishJob
  · refine .ite ?_ ?_
    · exact h.finishJob
    · refine .finishJob ?_
      exact .ite h.same h.same

theorem Keeps.activate {token mode : Nat} (h : Keeps w s t) : Keeps w s (t.activate token mode) := by
  unfold State.activate
  split
  · exact h.finishJob
  · refine .ite ?_ ?_
    · split
      · exact h.same.finishJob.raise
      · exact h
    · exact h.finishJob.raise.withBoot

theorem Keeps.runStep {j : Job} {io : JobIo} (h : Keeps true s t) : Keeps true s (t.runStep j io) := by
  unfold State.runStep
  split
  · exact h.captureStep
  · exact h.fillStep
  · exact h.sweepStep
  · exact h.kekDone.finishJob
  · exact .ite h.stageCheck h.stageMore
  · exact h.flashWrite
  · exact h.activate
  · exact h
  · exact h

theorem Keeps.jobStep {io : JobIo} (h : Keeps true s t) : Keeps true s (t.jobStep io) := by
  unfold State.jobStep
  refine .ite ?_ ?_
  · exact h
  · split
    · exact h
    · exact h.same.runStep

theorem Keeps.executeOldest (h : Keeps true s t) : Keeps true s t.executeOldest := by
  unfold State.executeOldest
  refine .ite ?_ ?_
  · exact h
  · split
    · exact h.execute
    · exact h

theorem Keeps.respondLate {op : Nat} {q : Request} {payload : List Byte} (h : Keeps w s t) : Keeps w s (t.respondLate op q payload) :=
  h.reply

theorem Keeps.jobEnds {token : Nat} {e : JobEnd} (h : Keeps w s t) :
    Keeps w s (t.modJob token fun j => { j with ended := some e, finish := none, cancel := false }) :=
  h.modJob fun _ => ⟨rfl, fun _ => rfl⟩

theorem Keeps.endJob {token outcome : Nat} {cancelled : Bool} {result : List Byte} (h : Keeps w s t) :
    Keeps w s (t.endJob token outcome cancelled result) := by
  unfold State.endJob
  split
  · exact h
  · refine .ite h ?_
    refine .foldl ?_ fun _ _ h => h.respondLate
    exact h.jobEnds.withJobs.setInt.raise.withJobs

theorem Keeps.jobComplete {token : Nat} (h : Keeps w s t) : Keeps w s (t.jobComplete token) := by
  unfold State.jobComplete
  split
  · exact h
  · refine .ite ?_ ?_
    · exact h
    · split
      · exact h.endJob
      · exact .ite h.endJob h

theorem Keeps.jobExpiry (h : Keeps w s t) : Keeps w s t.jobExpiry :=
  h.fewerJobs ((List.filter_sublist.filter _).map _)

theorem Keeps.wiped {full : Bool} (h : Keeps true s t) : Keeps true s (t.wiped full) := by
  refine h.trans ⟨rfl, fun hc => ?_, nofun, fun _ => ⟨Nat.zero_le _, fun _ => Nat.zero_le _⟩⟩
  cases full with
  | true => exact fun e he => nomatch he
  | false =>
    intro e he
    have hwatch : e ∈ (match tget t.mem.insts 2 with
      | some m => [(2, { ({} : MemInst) with data := m.data, valid := m.valid, poison := m.poison })]
      | none => []) := he
    cases hm : tget t.mem.insts 2 with
    | none => exact nomatch hm ▸ hwatch
    | some m =>
      rw [hm] at hwatch
      rw [List.mem_singleton.mp hwatch]
      have hwf := hc _ (mem_of_tget hm)
      exact hwf

theorem Keeps.mtpUndo {x1 : MtpWrite} (h : Keeps w s t) : Keeps w s (t.mtpUndo x1) := by
  unfold State.mtpUndo
  refine .ite ?_ ?_
  · exact .ite h.same h
  · dsimp only
    split
    · exact h.same
    · exact h.same
    · exact h.same
    · exact h.same

theorem Keeps.mtpCut {noSupply : Bool} (h : Keeps w s t) : Keeps w s (t.mtpCut noSupply) := by
  unfold State.mtpCut
  refine .withMonoStore ?_
  exact h.foldl fun _ _ h => h.mtpUndo

theorem Keeps.assertReset {cause rail : Nat} (h : Keeps true s t) : Keeps true s (t.assertReset cause rail) := by
  unfold State.assertReset
  refine .ite ?_ ?_
  · exact h
  · refine .withBoot (.wiped ?_)
    exact .ite h h.mtpCut

theorem Keeps.porst (h : Keeps true s t) : Keeps true s t.porst := h.assertReset

theorem Keeps.sysrst (h : Keeps true s t) : Keeps true s t.sysrst := h.assertReset

theorem Keeps.supplyTrip {code mv : Nat} (h : Keeps true s t) : Keeps true s (t.supplyTrip code mv) := by
  unfold State.supplyTrip
  split
  · exact .ite h.assertReset h
  · exact h

theorem Keeps.thermalTrip {temp : Int} (h : Keeps true s t) : Keeps true s (t.thermalTrip temp) := by
  unfold State.thermalTrip
  exact .ite (.ite h.same h.assertReset) h

theorem Keeps.thermalRelease {hottest : Int} {ms : Nat} (h : Keeps w s t) : Keeps w s (t.thermalRelease hottest ms) := by
  unfold State.thermalRelease
  exact .ite h.same h

theorem Keeps.watchdog {ms : Nat} (h : Keeps true s t) : Keeps true s (t.watchdog ms) := by
  unfold State.watchdog
  exact .ite h.assertReset h

theorem Keeps.doubleLockstep (h : Keeps true s t) : Keeps true s t.doubleLockstep := by
  unfold State.doubleLockstep
  exact .ite h.assertReset h

theorem Keeps.mtpEnded (h : Keeps w s t) : Keeps w s t.mtpEnded := h.same

theorem Keeps.resetDue {lifeOk : Bool} (h : Keeps true s t) : Keeps true s (t.resetDue lifeOk) := by
  unfold State.resetDue
  exact .ite h.lifeWrite.mtpEnded.assertReset h

theorem Keeps.release {is : List Nat} (h : Keeps w s t) : Keeps w s (t.release is) := by
  unfold State.release
  exact h.foldl fun _ _ h => h.same

theorem Keeps.bootEvent {e : Ev} {island source : Nat} {payload : List Byte} (h : Keeps w s t) :
    Keeps w s (t.bootEvent e island source payload) := by
  unfold State.bootEvent
  exact .ite h.raise h.same

theorem Keeps.releaseReset {bootSrc clkMode : Nat} (h : Keeps w s t) : Keeps w s (t.releaseReset bootSrc clkMode) := by
  unfold State.releaseReset
  refine .ite ?_ ?_
  · exact h
  · refine .ite ?_ ?_
    · refine .bootEvent ?_
      exact .ite h.same.release.mtpWrite.withStore.modLife h.same.release
    · exact .ite h.same.release.mtpWrite.withStore.modLife h.same.release

theorem Keeps.flushEarly (h : Keeps w s t) : Keeps w s t.flushEarly := by
  unfold State.flushEarly
  exact h.same.foldl fun _ _ h => h.raiseAt

theorem Keeps.deviceReset {slot : Nat} (h : Keeps w s t) : Keeps w s (t.deviceReset slot) := h.raise

theorem Keeps.enterRecovery (h : Keeps w s t) : Keeps w s t.enterRecovery := h.same.deviceReset

theorem Keeps.fuseDone (h : Keeps w s t) : Keeps w s t.fuseDone := by
  unfold State.fuseDone
  exact .ite h.same.release.flushEarly.enterRecovery h.same.release.flushEarly

theorem Keeps.fuseLoad {f : FuseRead} (h : Keeps w s t) : Keeps w s (t.fuseLoad f) := by
  unfold State.fuseLoad
  refine .ite ?_ ?_
  · exact h
  · dsimp only
    split
    · exact h.same.fuseDone
    · exact .ite h.same.bootEvent h.same.fuseDone

theorem Keeps.boardRead (h : Keeps w s t) : Keeps w s t.boardRead := by
  unfold State.boardRead
  refine .ite ?_ ?_
  · exact h
  · refine .ite ?_ ?_
    · exact h.same.enterRecovery
    · split
      · exact h.same.raise.enterRecovery
      · exact h.same.railsUp

theorem Keeps.lpddrReady (h : Keeps true s t) : Keeps true s t.lpddrReady := by
  refine h.trans ⟨rfl, fun hc e he => ?_, nofun, id⟩
  obtain ⟨e, hmem, rfl⟩ := List.mem_map.mp he
  split
  · exact hc e hmem
  · exact hc e hmem

theorem Keeps.trainingDone (h : Keeps true s t) : Keeps true s t.trainingDone := by
  unfold State.trainingDone
  exact .ite h h.lpddrReady

theorem Keeps.authFail {slot cause : Nat} (h : Keeps w s t) : Keeps w s (t.authFail slot cause) := h.raise

theorem Keeps.authenticate (h : Keeps w s t) : Keeps w s t.authenticate := by
  unfold State.authenticate
  refine .ite h ?_
  dsimp only
  split
  · exact h.same
  · split
    · exact h.authFail.withBoot
    · exact h.authFail.authFail.enterRecovery

theorem Keeps.fillMemories (h : Keeps true s t) : Keeps true s t.fillMemories := by
  unfold State.fillMemories
  refine .withMem ?_
  exact h.foldl fun _ _ h => h.fillIsland

theorem Keeps.islandsUp (h : Keeps true s t) : Keeps true s t.islandsUp := by
  unfold State.islandsUp
  refine .ite ?_ ?_
  · exact h
  · refine .foldl ?_ fun _ _ h => ?_
    · exact h.same.railsUp.release.fillMemories.foldl fun _ _ h => h.clearIsland.modIsland
    · exact .ite h.same h

theorem Keeps.bootComplete (h : Keeps true s t) : Keeps true s t.bootComplete := by
  unfold State.bootComplete
  exact .ite h.islandsUp h.islandsUp.withBootGuide.deviceReset

theorem Keeps.noteLegs {id : Nat} (h : Keeps w s t) : Keeps w s (t.noteLegs id) := by
  unfold State.noteLegs
  split
  · exact h
  · exact h.same

theorem Keeps.alert {id : Nat} (h : Keeps w s t) : Keeps w s (t.alert id) := by
  unfold State.alert
  split
  · exact h.setInt
  · exact h

theorem Keeps.resignal1 {id : Nat} (h : Keeps w s t) : Keeps w s (t.resignal1 id) := by
  unfold State.resignal1
  split
  · exact h
  · refine .ite ?_ ?_
    · exact h
    · dsimp only
      split
      · exact .ite h.noteLegs h.noteLegs.modPas.raise.alert
      · exact .ite h.noteLegs h.noteLegs.modPas.raise

theorem Keeps.resignal (h : Keeps w s t) : Keeps w s t.resignal := by
  unfold State.resignal
  exact h.foldl fun _ _ h => h.resignal1

theorem Keeps.startPassage {id cc : Nat} (h : Keeps w s t) : Keeps w s (t.startPassage id cc) := by
  unfold State.startPassage
  split
  · exact h
  · exact .ite h.same h.same.raise.resignal1

theorem Keeps.releaseKey {id : Nat} (h : Keeps w s t) : Keeps w s (t.releaseKey id) := by
  unfold State.releaseKey
  split
  · split
    · exact h.same
    · exact h
  · exact h

theorem Keeps.drainPassage {id : Nat} {c : Commit} (h : Keeps w s t) : Keeps w s (t.drainPassage id c) := h.same.releaseKey

theorem Keeps.moveLeg {id : Nat} {prot : Bool} {cause : Nat} (h : Keeps w s t) : Keeps w s (t.moveLeg id prot cause) := h.same.raise.alert

theorem Keeps.removeLeg {id cc : Nat} {c : Commit} (h : Keeps w s t) : Keeps w s (t.removeLeg id cc c) := by
  unfold State.removeLeg
  split
  · exact h
  · split
    · exact h
    · refine .resignal1 (.modPas ?_)
      exact .ite h.moveLeg h

theorem Keeps.forceLeg {id f : Nat} (h : Keeps w s t) : Keeps w s (t.forceLeg id f) := by
  unfold State.forceLeg
  dsimp only
  split
  · exact h.same
  · exact .ite h.same (.ite h.same.moveLeg.resignal1 (.ite h.same.moveLeg.resignal1 h.same))

theorem Keeps.revertNow {id : Nat} (h : Keeps w s t) : Keeps w s (t.revertNow id) := by
  unfold State.revertNow
  split
  · exact h
  · exact .ite h.moveLeg.resignal1 h

theorem Keeps.bump {unit inst k n : Nat} (h : Keeps w s t) : Keeps w s (t.bump unit inst k n) := h.same

theorem Keeps.rampDone {n dir ms : Nat} (h : Keeps w s t) : Keeps w s (t.rampDone n dir ms) := h.same.raise

theorem Keeps.carrierAct {n : Nat} {on : Bool} {ms : Nat} (h : Keeps w s t) : Keeps w s (t.carrierAct n on ms) := by
  unfold State.carrierAct
  exact .ite (.ite h.same h) (.ite h.same.rampDone h.same)

theorem Keeps.enableNow {n : Nat} (h : Keeps w s t) : Keeps w s (t.enableNow n) := by
  unfold State.enableNow
  exact .ite h.same.carrierAct h.same.raise

theorem Keeps.endCapture {n : Nat} (h : Keeps w s t) : Keeps w s (t.endCapture n) := by
  unfold State.endCapture
  split
  · split
    · exact .ite h.finishJob h
    · exact h
  · exact h

theorem Keeps.stopEngine {n : Nat} (h : Keeps w s t) : Keeps w s (t.stopEngine n) := h.same.endCapture.inputLost.inputLost

theorem Keeps.disableNow {n : Nat} (h : Keeps w s t) : Keeps w s (t.disableNow n) := by
  unfold State.disableNow
  refine .ite ?_ ?_
  · refine .modRx ?_
    refine .modTx (.carrierAct ?_)
    exact h.foldl fun _ _ h => h.same
  · refine .stopEngine (.modRx ?_)
    refine .modTx (.carrierAct ?_)
    exact h.foldl fun _ _ h => h.same

theorem Keeps.windowsNow {n leaf : Nat} {wins : List Nat} {pl off hMin node : Nat} (h : Keeps w s t) :
    Keeps w s (t.windowsNow n leaf wins pl off hMin node) := by
  unfold State.windowsNow
  exact .ite h.same h.same

theorem Keeps.rebindKey {id slot cc : Nat} (h : Keeps w s t) : Keeps w s (t.rebindKey id slot cc) := by
  unfold State.rebindKey
  split
  · exact h
  · exact .ite h h.same

theorem Keeps.changeNow {c : Commit} {ch : FwChange} (h : Keeps w s t) : Keeps w s (t.changeNow c ch) := by
  unfold State.changeNow
  split
  · exact h.startPassage
  · exact h.drainPassage
  · exact h.same
  · exact h.removeLeg
  · exact h.forceLeg
  · exact h.revertNow
  · exact h.enableNow
  · exact h.disableNow
  · exact h.same
  · exact .ite h.same h
  · exact h
  · exact h
  · exact h.carrierAct
  · exact h.windowsNow
  · exact h.same
  · exact h.rebindKey
  · exact h

theorem Keeps.setProfile {n : Nat} {rx : Bool} {prof : List Nat} (h : Keeps w s t) : Keeps w s (t.setProfile n rx prof) := by
  unfold State.setProfile
  exact .ite h (.ite (.ite h.same h.same) (.ite h.same (.ite h.same h.same)))

theorem Keeps.setCd {n set : Nat} (h : Keeps w s t) : Keeps w s (t.setCd n set) := h.same

theorem Keeps.setRoll {n roll : Nat} (h : Keeps w s t) : Keeps w s (t.setRoll n roll) := by
  unfold State.setRoll
  exact .ite h (.ite h.same h.same)

theorem Keeps.loadEngine {n : Nat} {old : Bank} (h : Keeps w s t) : Keeps w s (t.loadEngine n old) := by
  unfold State.loadEngine
  refine .foldl ?_ fun _ _ h => h.carrierAct
  exact .ite h h.setProfile.setProfile.setCd.setRoll

theorem Keeps.swapNow {c : Commit} {rest : List Commit} (h : Keeps w s t) : Keeps w s (t.swapNow c rest) := by
  unfold State.swapNow
  dsimp only
  split
  · refine .modTx (.withTab ?_)
    refine .foldl ?_ fun _ _ h => h.loadEngine
    exact h.same.raise.foldl fun _ _ h => h.changeNow
  · refine .withTab ?_
    refine .foldl ?_ fun _ _ h => h.loadEngine
    exact h.same.raise.foldl fun _ _ h => h.changeNow

theorem Keeps.rebindAborted {id slot : Nat} (h : Keeps w s t) : Keeps w s (t.rebindAborted id slot) := by
  unfold State.rebindAborted
  exact .ite h h.same

theorem Keeps.abortPaired {c : Commit} {p : Paired} (h : Keeps w s t) : Keeps w s (t.abortPaired c p) := by
  unfold State.abortPaired
  refine .ite ?_ ?_
  · refine .ite ?_ ?_
    · refine .raise (.modRx ?_)
      refine h.same.raise.foldl fun _ _ h => ?_
      split
      · exact h.rebindAborted
      · exact h
    · refine .modRx ?_
      refine h.same.raise.foldl fun _ _ h => ?_
      split
      · exact h.rebindAborted
      · exact h
  · refine h.same.raise.foldl fun _ _ h => ?_
    split
    · exact h.rebindAborted
    · exact h

end Sys2Proof.Proofs
end

section
/-!
SUPPORT. What the operations keep (`Keeps`), part 3 of 4, each after those that it is made of.
-/
namespace Sys2Proof.Proofs
open Sys2Proof Sys2Proof.Machine Sys2Proof.Laws

set_option Elab.async false

variable {w : Bool} {s t : State}

theorem Keeps.recommit {c : Commit} (h : Keeps w s t) : Keeps w s (t.recommit c) := by
  unfold State.recommit
  refine .ite ?_ ?_
  · exact h.same
  · refine h.same.foldl fun _ _ h => ?_
    split
    · exact h.same
    · exact h.same
    · exact h.same
    · exact h.same
    · exact h.same
    · exact h.same
    · exact h.same
    · exact h

theorem Keeps.tableSwap (h : Keeps w s t) : Keeps w s t.tableSwap := by
  unfold State.tableSwap
  split
  · exact h
  · refine .ite ?_ ?_
    · exact h
    · split
      · exact .ite h.swapNow.resignal h.abortPaired
      · exact .ite h.swapNow.resignal h.recommit

theorem Keeps.unschedule {p : FwChange → Bool} (h : Keeps w s t) : Keeps w s (t.unschedule p) := h.same

theorem Keeps.freeKey {id : Nat} (h : Keeps w s t) : Keeps w s (t.freeKey id) := by
  unfold State.freeKey
  split
  · split
    · refine .modCip ?_
      split
      · refine .keyTo ?_
        exact h.foldl fun _ _ h => h.same
      · exact h.foldl fun _ _ h => h.same
    · exact h
  · exact h

theorem Keeps.passageFree {id : Nat} (h : Keeps w s t) : Keeps w s (t.passageFree id) := by
  unfold State.passageFree
  split
  · exact h
  · refine .ite ?_ ?_
    · exact h.raise.freeKey.unschedule.withPas
    · split
      · exact .ite h.same h
      · exact h

theorem Keeps.bankCopied (h : Keeps true s t) : Keeps true s (t.bankCopied State.execute) := by
  unfold State.bankCopied
  split
  · exact h
  · exact h.same.foldl fun _ _ h => h.execute

theorem Keeps.commitStaging {bad : Option (Nat × Nat × Nat)} (h : Keeps w s t) : Keeps w s (t.commitStaging bad) := by
  unfold State.commitStaging
  split
  · exact h
  · dsimp only
    split
    · exact h.same
    · exact .ite h.same.raise h.same.raise.recommit

theorem Keeps.stepsSkipped {α : Type} {l : List α} {i x : α → Nat} {p : α → List Byte} (h : Keeps w s t) :
    Keeps w s (l.foldl (fun (s : State) a => s.raise (i a) .tableStepSkipped (x a) (p a)) t) := h.foldl fun _ _ h => h.raise

theorem Keeps.timedStepIssue {errs : List (Nat × Nat × Nat)} (h : Keeps w s t) : Keeps w s (t.timedStepIssue errs) := by
  unfold State.timedStepIssue
  refine .ite h ?_
  extract_lets ch hit issued skipped scheduled marks tab marked
  have hskipped : Keeps w s skipped := h.withTab.stepsSkipped
  have hmarked : Keeps w s marked := .withTab (.ite hskipped hskipped.schedule)
  split
  · exact hmarked.withMem
  · exact hmarked

theorem Keeps.pairedDecide (h : Keeps w s t) : Keeps w s t.pairedDecide := by
  unfold State.pairedDecide
  split
  · exact h
  · split
    · exact .ite h h.abortPaired
    · exact h

theorem Keeps.countClips {n : Nat} (h : Keeps w s t) : Keeps w s (t.countClips n) := by
  unfold State.countClips
  refine .modTx ?_
  exact h.foldl fun _ _ h => h.same

theorem Keeps.nativeSend {n : Nat} (h : Keeps w s t) : Keeps w s (t.nativeSend n) := by
  unfold State.nativeSend
  refine .bump (.modTx ?_)
  exact .ite h.same h

theorem Keeps.lineFrameSend {n : Nat} (h : Keeps w s t) : Keeps w s (t.lineFrameSend n) := by
  unfold State.lineFrameSend
  exact .ite h (.ite h.same.countClips (.ite h (.ite h.same.countClips h.nativeSend.bump.countClips)))

theorem Keeps.declareFault {cls : Nat} {light : Bool} (h : Keeps w s t) : Keeps w s (t.declareFault cls light) := by
  unfold State.declareFault
  refine .ite ?_ ?_
  · exact h
  · dsimp only
    split
    · exact .ite h.same.raise.withGuide h.same
    · exact h.same

theorem Keeps.classOne {n : Nat} (h : Keeps w s t) : Keeps w s (t.classOne n) := by
  unfold State.classOne
  exact .ite h.declareFault h

theorem Keeps.engineLoss {n : Nat} (h : Keeps w s t) : Keeps w s (t.engineLoss n) := h.classOne.resignal

theorem Keeps.frameLost {n cause : Nat} (h : Keeps w s t) : Keeps w s (t.frameLost n cause) := by
  unfold State.frameLost
  refine .ite ?_ ?_
  · exact h
  · refine .engineLoss (.inputLost ?_)
    refine .ite ?_ ?_
    · refine .ite ?_ ?_
      · refine .modMp ?_
        refine .modTx (.modRx ?_)
        exact .ite h.same h.same
      · refine .modTx (.modRx ?_)
        exact .ite h.same h.same
    · refine .raise ?_
      refine .ite ?_ ?_
      · refine .modMp ?_
        refine .modTx (.modRx ?_)
        exact .ite h.same h.same
      · refine .modTx (.modRx ?_)
        exact .ite h.same h.same

theorem Keeps.takeFec {n : Nat} (h : Keeps w s t) : Keeps w s (t.takeFec n) := by
  unfold State.takeFec
  exact .ite h.same.raise h.same

theorem Keeps.takeBer {n ber : Nat} (h : Keeps w s t) : Keeps w s (t.takeBer n ber) := by
  unfold State.takeBer
  exact .ite h.same.raise (.ite h.same.raise h.same)

theorem Keeps.trail {id : Nat} {prot : Bool} {seen : TrailSeen} (h : Keeps w s t) : Keeps w s (t.trail id prot seen) := by
  unfold State.trail
  split
  · exact h
  · dsimp only
    split
    · exact h
    · exact h.same
    · exact .ite h.same h.same.raise

theorem Keeps.takeEntries {n : Nat} {entries : Nat → List (Option Nat)} (h : Keeps w s t) : Keeps w s (t.takeEntries n entries) := by
  unfold State.takeEntries
  refine h.foldl fun _ _ h => ?_
  split
  · exact h
  · dsimp only
    split
    · refine .ite ?_ ?_
      · refine .ite ?_ ?_
        · refine .trail ?_
          exact .ite h.trail h
        · exact .ite h.trail h
      · exact .ite h.trail h
    · exact .ite h.trail h

theorem Keeps.takeMgmt {n : Nat} {bytes : List (Option Byte)} (h : Keeps w s t) : Keeps w s (t.takeMgmt n bytes) := h.same

theorem Keeps.portBlock {a : SlotAt} {bad : Bool} (h : Keeps w s t) : Keeps w s (t.portBlock a bad) := by
  unfold State.portBlock
  split
  · exact h
  · exact .ite h.same (.ite h.same h.same)

theorem Keeps.receiveQl {i ql : Nat} (h : Keeps w s t) : Keeps w s (t.receiveQl i ql) := by
  unfold State.receiveQl
  exact .ite h (.ite (.ite h.same.leaveState.reselect h.same) (.ite h.same h.same.reselect))

theorem Keeps.readEsmc {lane : Nat} {b : Block} (h : Keeps w s t) : Keeps w s (t.readEsmc lane b) := by
  unfold State.readEsmc
  split
  · exact h
  · dsimp only
    split
    · exact h.same.receiveQl
    · exact h.same

theorem Keeps.rxTake {a : SlotAt} (h : Keeps w s t) : Keeps w s (t.rxTake a) := h.same

theorem Keeps.insertIdle {id : Nat} {a : SlotAt} {tag at_ : Nat} (h : Keeps w s t) : Keeps w s (t.insertIdle id a tag at_) := by
  unfold State.insertIdle
  exact .ite h.same h.same

theorem Keeps.takeBlock {id : Nat} {prot : Bool} {a : SlotAt} {down : Bool} {b : Block} {tag at_ : Nat} (h : Keeps w s t) :
    Keeps w s (t.takeBlock id prot a down b tag at_) := by
  unfold State.takeBlock
  split
  · exact h
  · refine .ite ?_ ?_
    · exact h
    · refine .ite ?_ ?_
      · exact .ite h.same h
      · refine .ite ?_ ?_
        · exact h
        · refine .ite ?_ ?_
          · exact .ite h h.same.raise
          · refine .ite ?_ ?_
            · exact h.same
            · refine .ite ?_ ?_
              · refine .insertIdle ?_
                exact .ite h.same h.same
              · exact .ite h.same h.same

theorem Keeps.rawAdmit {x1 : StepWord} {b : Block} {tag at_ : Nat} (h : Keeps w s t) : Keeps w s (t.rawAdmit x1 b tag at_) := by
  unfold State.rawAdmit
  exact .ite h h.same

theorem Keeps.rawTake {a : SlotAt} {b : Block} {tag at_ : Nat} (h : Keeps w s t) : Keeps w s (t.rawTake a b tag at_) := by
  unfold State.rawTake
  exact h.foldl fun _ _ h => h.rawAdmit

theorem Keeps.unassigned {a : SlotAt} {b : Block} (h : Keeps w s t) : Keeps w s (t.unassigned a b) := by
  unfold State.unassigned
  exact .ite h (.ite h.same (.ite h.same h))

theorem Keeps.enter {a : SlotAt} {down : Bool} {b : Block} {tag at_ : Nat} (h : Keeps w s t) : Keeps w s (t.enter a down b tag at_) := by
  unfold State.enter
  dsimp only
  split
  · split
    · exact h.takeBlock
    · exact .ite h.rawTake.rxTake h.rawTake
  · split
    · refine .modPas ?_
      exact .ite h.same h
    · refine .unassigned ?_
      exact .ite h.same h

theorem Keeps.ingress {a : SlotAt} {b : Block} {bad : Bool} {tag at_ : Nat} (h : Keeps w s t) : Keeps w s (t.ingress a b bad tag at_) := by
  unfold State.ingress
  dsimp only
  split
  · refine .modTx ?_
    exact .ite h.portBlock.readEsmc h.portBlock
  · refine .enter ?_
    exact .ite h.portBlock.readEsmc h.portBlock

theorem Keeps.takeBlocks {n ch : Nat} {f : LineFrame} {bad : List (Nat × Nat)} (h : Keeps w s t) : Keeps w s (t.takeBlocks n ch f bad) := by
  unfold State.takeBlocks
  exact h.foldl fun _ _ h => h.same.foldl fun _ _ h => h.ingress

theorem Keeps.takeFrame {n ch : Nat} {f : LineFrame} {bad : List (Nat × Nat)} (h : Keeps w s t) : Keeps w s (t.takeFrame n ch f bad) := by
  unfold State.takeFrame
  exact .ite h.takeBer.takeFec.modRx.resignal h.takeBer.takeFec.modRx.takeEntries.takeMgmt.resignal.takeBlocks

theorem Keeps.badMarker {n cause : Nat} {f : LineFrame} {bad : List (Nat × Nat)} (h : Keeps w s t) :
    Keeps w s (t.badMarker n cause f bad) := by
  unfold State.badMarker
  refine .ite ?_ ?_
  · exact h.frameLost
  · split
    · exact h
    · exact h.same.takeFrame

theorem Keeps.frameLocked {n : Nat} (h : Keeps w s t) : Keeps w s (t.frameLocked n) := h.same.raise

theorem Keeps.takeTags {n ch : Nat} {ws : List Nat} (h : Keeps w s t) : Keeps w s (t.takeTags n ch ws) := by
  unfold State.takeTags
  refine .ite ?_ ?_
  · refine .raise ?_
    exact .ite h.same.raise h.same
  · exact .ite h.same.raise h.same

theorem Keeps.takeEpoch {n epoch : Nat} (h : Keeps w s t) : Keeps w s (t.takeEpoch n epoch) := by
  unfold State.takeEpoch
  refine .ite ?_ ?_
  · refine .raise ?_
    exact .ite h.same h.same
  · exact .ite h.same h.same

theorem Keeps.takeArm {n cc : Nat} (h : Keeps w s t) : Keeps w s (t.takeArm n cc) := h.same

theorem Keeps.takePaired {n ch : Nat} {far : Option Nat} (h : Keeps w s t) : Keeps w s (t.takePaired n ch far) := by
  unfold State.takePaired
  exact .ite h.same (.ite h.same.raise h.same)

theorem Keeps.inputPresent {i : Nat} (h : Keeps w s t) : Keeps w s (t.inputPresent i) := by
  unfold State.inputPresent
  refine .ite ?_ ?_
  · refine .judgeQl ?_
    refine .modInput (.modTim ?_)
    exact .ite h.same h
  · refine .modTim ?_
    exact .ite h.same h

theorem Keeps.exchanged {i : Nat} {theta delay : Int} (h : Keeps w s t) : Keeps w s (t.exchanged i theta delay) := by
  unfold State.exchanged
  exact .ite h.same.inputPresent h.same

theorem Keeps.takeTime {n : Nat} {ws : List Nat} {arrival : Nat} (h : Keeps w s t) : Keeps w s (t.takeTime n ws arrival) := by
  unfold State.takeTime
  refine .ite ?_ ?_
  · dsimp only
    split
    · exact h.same.exchanged.modRx
    · exact h.same
  · exact .ite h (.ite h h.same.exchanged)

theorem Keeps.measureSkew {id : Nat} {ns : Int} (h : Keeps w s t) : Keeps w s (t.measureSkew id ns) := by
  unfold State.measureSkew
  split
  · exact h
  · exact .ite h (.ite (.ite h.same h.same.raise) h.same)

theorem Keeps.takeSkews {n ch : Nat} (h : Keeps w s t) : Keeps w s (t.takeSkews n ch) := by
  unfold State.takeSkews
  refine h.foldl fun _ _ h => ?_
  split
  · exact h
  · split
    · exact h
    · refine .ite ?_ ?_
      · exact h
      · split
        · exact h.measureSkew
        · exact h

theorem Keeps.useHeader {n : Nat} {ws : List Nat} {arrival : Nat} (h : Keeps w s t) : Keeps w s (t.useHeader n ws arrival) := by
  unfold State.useHeader
  refine .takeSkews (.modRx ?_)
  refine .takeTime (.takePaired ?_)
  exact .ite h.takeEpoch.takeTags.takeArm h.takeEpoch.takeTags

theorem Keeps.leafRange {n : Nat} (h : Keeps w s t) : Keeps w s (t.leafRange n) := by
  unfold State.leafRange
  exact .ite h.same h

theorem Keeps.goodMarker {n : Nat} {f : LineFrame} {bad : List (Nat × Nat)} (h : Keeps w s t) : Keeps w s (t.goodMarker n f bad) := by
  unfold State.goodMarker
  refine .ite ?_ ?_
  · exact h.same
  · refine .leafRange (.takeFrame ?_)
    refine .ite ?_ ?_
    · exact .ite h.same h.same.frameLocked
    · refine .useHeader ?_
      exact .ite h.same h.same.frameLocked

theorem Keeps.lineFrameReceive {n : Nat} {f : LineFrame} (h : Keeps w s t) : Keeps w s (t.lineFrameReceive n f) := by
  unfold State.lineFrameReceive
  refine .ite ?_ ?_
  · exact h
  · refine .ite ?_ ?_
    · exact h
    · refine .modRx ?_
      split
      · exact .ite h.same.badMarker (.ite h.same h.same)
      · exact h.goodMarker

theorem Keeps.collect {n : Nat} (h : Keeps w s t) : Keeps w s (t.collect n) := by
  unfold State.collect
  exact .ite h.same h.same

theorem Keeps.fecDecode {n : Nat} {failed : Bool} {corrected iters : Nat} (h : Keeps w s t) :
    Keeps w s (t.fecDecode n failed corrected iters) := by
  unfold State.fecDecode
  refine .ite ?_ ?_
  · exact h
  · refine .ite ?_ ?_
    · refine .ite ?_ ?_
      · refine .engineLoss ?_
        refine .raise (.modTx ?_)
        refine .modRx (.modRx ?_)
        refine .bump (.modRx ?_)
        exact .ite h.collect.bump.bump h.collect.bump
      · refine .modRx ?_
        refine .bump (.modRx ?_)
        exact .ite h.collect.bump.bump h.collect.bump
    · refine .ite ?_ ?_
      · refine .bump (.modRx ?_)
        exact .ite h.collect.bump.bump h.collect.bump
      · refine .modRx ?_
        refine .bump (.modRx ?_)
        exact .ite h.collect.bump.bump h.collect.bump

theorem Keeps.msgAuthFail {input src tenant cause : Nat} (h : Keeps w s t) : Keeps w s (t.msgAuthFail input src tenant cause) := h.raise

theorem Keeps.takeCommand {input src tenant : Nat} {broadcast : Bool} {body : List Byte} (h : Keeps w s t) :
    Keeps w s (t.takeCommand input src tenant broadcast body) := by
  unfold State.takeCommand
  exact .ite h h.receive

theorem Keeps.snrMeasured {n : Nat} {snrs : List Int} {prof : List Nat} (h : Keeps w s t) : Keeps w s (t.snrMeasured n snrs prof) := h.raise

theorem Keeps.firstUseFail {n : Nat} (h : Keeps w s t) : Keeps w s (t.firstUseFail n) := by
  unfold State.firstUseFail
  exact .ite h.same.raise h.same

theorem Keeps.firstUseReply {n tag status : Nat} (h : Keeps w s t) : Keeps w s (t.firstUseReply n tag status) := by
  unfold State.firstUseReply
  dsimp only
  split
  · exact h
  · refine .ite ?_ ?_
    · exact h
    · refine .ite ?_ ?_
      · exact h.same
      · refine .ite ?_ ?_
        · split
          · exact h.same.snrMeasured
          · exact h.same
        · exact .ite h.same h.same.firstUseFail

theorem Keeps.takeResponse {input src tenant : Nat} {body : List Byte} (h : Keeps w s t) :
    Keeps w s (t.takeResponse input src tenant body) := by
  unfold State.takeResponse
  dsimp only
  split
  · exact h.finishJob
  · exact .ite h.firstUseReply h

theorem Keeps.takeStatus {input : Nat} {body : List Byte} (h : Keeps w s t) : Keeps w s (t.takeStatus input body) := by
  unfold State.takeStatus
  exact .ite h.same.receiveQl.receiveQl h.same.receiveQl

theorem Keeps.domainReceive (h : Keeps w s t) : Keeps w s t.domainReceive := by
  unfold State.domainReceive
  split
  · exact h
  · refine .ite ?_ ?_
    · exact h.same
    · split
      · exact h.same.msgAuthFail
      · dsimp only
        split
        · refine .takeCommand ?_
          exact .ite h.same.raise h.same
        · refine .takeResponse ?_
          exact .ite h.same.raise h.same
        · refine .ite ?_ ?_
          · refine .takeStatus ?_
            exact .ite h.same.raise h.same
          · exact .ite h.same.raise h.same
        · exact .ite h.same.raise h.same

theorem Keeps.timeStatusSend (h : Keeps w s t) : Keeps w s t.timeStatusSend := by
  unfold State.timeStatusSend
  exact .ite h (h.same.foldl fun _ _ h => h.sendMessage)

theorem Keeps.relayTimeout (h : Keeps w s t) : Keeps w s t.relayTimeout := by
  unfold State.relayTimeout
  refine h.foldl fun _ _ h => ?_
  split
  · exact .ite h.modJob h
  · exact h

theorem Keeps.lineLos {n mv : Nat} (h : Keeps w s t) : Keeps w s (t.lineLos n mv) := by
  unfold State.lineLos
  exact .ite h (.ite h.same.raise.inputLost.frameLost h.same.raise.inputLost.engineLoss)

theorem Keeps.lineLosClear {n mv : Nat} (h : Keeps w s t) : Keeps w s (t.lineLosClear n mv) := by
  unfold State.lineLosClear
  exact .ite h h.same.raise.resignal

theorem Keeps.frozenExpiry {n : Nat} (h : Keeps w s t) : Keeps w s (t.frozenExpiry n) := by
  unfold State.frozenExpiry
  split
  · exact .ite h.same h
  · exact h

theorem Keeps.digitise {n : Nat} {inputs : List (List Int)} (h : Keeps w s t) : Keeps w s (t.digitise n inputs).1 := by
  unfold State.digitise
  dsimp only
  refine .modRx ?_
  exact h.foldl fun _ _ h => h.same

theorem Keeps.feedTap {n tap sub : Nat} {new : List (Int × List Byte)} (h : Keeps w s t) : Keeps w s (t.feedTap n tap sub new) := by
  unfold State.feedTap
  split
  · exact h
  · split
    · exact .ite h.modJob h
    · exact h

theorem Keeps.symbolsIn {n : Nat} (h : Keeps w s t) : Keeps w s (t.symbolsIn n) := by
  unfold State.symbolsIn
  exact h.same.foldl fun _ _ h => h.foldl fun _ _ h => h.feedTap

theorem Keeps.zrSymbolsIn {n : Nat} (h : Keeps w s t) : Keeps w s (t.zrSymbolsIn n) := by
  unfold State.zrSymbolsIn
  refine .ite ?_ ?_
  · exact h.symbolsIn
  · split
    · exact h
    · exact h.same

theorem Keeps.rxBatch {n : Nat} {inputs : List (List Int)} (h : Keeps w s t) : Keeps w s (t.rxBatch n inputs) := by
  unfold State.rxBatch
  refine .ite ?_ ?_
  · exact h.digitise.feedTap
  · refine .ite ?_ ?_
    · exact h.digitise.feedTap.modRx.feedTap.modRx
    · refine .ite ?_ ?_
      · refine .modRx ?_
        exact .ite h.digitise.feedTap.modRx.feedTap.modRx.zrSymbolsIn h.digitise.feedTap.modRx.feedTap.modRx.symbolsIn
      · exact .ite h.digitise.feedTap.modRx.feedTap.modRx.zrSymbolsIn h.digitise.feedTap.modRx.feedTap.modRx.symbolsIn

theorem Keeps.agcUpdate {n : Nat} {inputs : List (List Int)} {want : Int} (h : Keeps w s t) : Keeps w s (t.agcUpdate n inputs want) := by
  unfold State.agcUpdate
  exact .ite h (.ite h.rxBatch h.rxBatch.modRx)

theorem Keeps.acqStart {n : Nat} (h : Keeps w s t) : Keeps w s (t.acqStart n) := by
  unfold State.acqStart
  exact .ite h h.same

theorem Keeps.lockTrigger {n : Nat} (h : Keeps w s t) : Keeps w s (t.lockTrigger n) := by
  unfold State.lockTrigger
  exact .ite h (h.same.foldl fun _ _ h => h.calTrigger)

theorem Keeps.rxLock {n : Nat} {probes : List PilotProbe} {d : Int} {skip : Nat} (h : Keeps w s t) :
    Keeps w s (t.rxLock n probes d skip) := by
  unfold State.rxLock
  dsimp only
  split
  · exact h
  · exact .ite h h.same.raise.inputPresent.lockTrigger

theorem Keeps.acqFail {n : Nat} {met : List Nat} (h : Keeps w s t) : Keeps w s (t.acqFail n met) := by
  unfold State.acqFail
  exact .ite h (.ite h.same h.same.raise)

theorem Keeps.warmTimeout {n : Nat} (h : Keeps w s t) : Keeps w s (t.warmTimeout n) := by
  unfold State.warmTimeout
  exact .ite h h.same

theorem Keeps.rxLockLost {n cause : Nat} (h : Keeps w s t) : Keeps w s (t.rxLockLost n cause) := by
  unfold State.rxLockLost
  exact .ite h h.same.raise.inputLost.frameLost

theorem Keeps.snrWindowEnd {n : Nat} (h : Keeps w s t) : Keeps w s (t.snrWindowEnd n) := by
  unfold State.snrWindowEnd
  dsimp only
  split
  · exact h
  · exact .ite h h.same

theorem Keeps.lowSnr {n : Nat} {snrs : List Int} (h : Keeps w s t) : Keeps w s (t.lowSnr n snrs) := by
  unfold State.lowSnr
  exact h.foldl fun _ _ h => .ite h.raise h

theorem Keeps.firstUseHold {n slots : Nat} (h : Keeps w s t) : Keeps w s (t.firstUseHold n slots) := h.same.raise

theorem Keeps.firstUseCommit {n : Nat} (h : Keeps w s t) : Keeps w s (t.firstUseCommit n) := by
  unfold State.firstUseCommit
  dsimp only
  split
  · exact h
  · exact .ite h (.ite h.lowSnr.modRx.snrMeasured (.ite h.lowSnr.firstUseHold (.ite h.lowSnr.sendMessage.firstUseHold
      (.ite h.lowSnr.sendMessage.modRx.firstUseFail h.lowSnr.sendMessage.schedule.modRx))))

theorem Keeps.cdRecentre {n : Nat} (h : Keeps w s t) : Keeps w s (t.cdRecentre n) := by
  unfold State.cdRecentre
  dsimp only
  split
  · exact h
  · exact .ite h h.same.raise

theorem Keeps.cdOut {n : Nat} (h : Keeps w s t) : Keeps w s (t.cdOut n) := by
  unfold State.cdOut
  dsimp only
  split
  · exact h
  · exact .ite h h.same.raise

theorem Keeps.cdIn {n : Nat} (h : Keeps w s t) : Keeps w s (t.cdIn n) := by
  unfold State.cdIn
  dsimp only
  split
  · exact .ite h h.same.raise
  · exact h

theorem Keeps.adcOvr {n : Nat} (h : Keeps w s t) : Keeps w s (t.adcOvr n) := by
  unfold State.adcOvr
  exact .ite h (.ite (.ite h.same h.same.raise) (.ite h.same (.ite h.same (.ite h.same h.same.raise))))

theorem Keeps.clampOn {n lane : Nat} (h : Keeps w s t) : Keeps w s (t.clampOn n lane) := by
  unfold State.clampOn
  exact .ite h h.same

theorem Keeps.frontendLimit {n what lane : Nat} {value : Int} {ms : Nat} (h : Keeps w s t) :
    Keeps w s (t.frontendLimit n what lane value ms) := by
  unfold State.frontendLimit
  exact .ite h (.ite h.same (.ite h.same h.same.raise))

theorem Keeps.frontendStep {n : Nat} (h : Keeps w s t) : Keeps w s (t.frontendStep n) := by
  unfold State.frontendStep
  exact .ite h (.ite h.same.raise h.same)

theorem Keeps.dacClip {n : Nat} (h : Keeps w s t) : Keeps w s (t.dacClip n) := by
  unfold State.dacClip
  exact .ite h (.ite h.same (.ite h.same h.same.raise))

theorem Keeps.carrierDriverOn {n : Nat} (h : Keeps w s t) : Keeps w s (t.carrierDriverOn n) := by
  unfold State.carrierDriverOn
  exact .ite h.same h

theorem Keeps.carrierRampStart {n : Nat} (h : Keeps w s t) : Keeps w s (t.carrierRampStart n) := by
  unfold State.carrierRampStart
  exact .ite h.same h

theorem Keeps.carrierRampEnd {n : Nat} (h : Keeps w s t) : Keeps w s (t.carrierRampEnd n) := by
  unfold State.carrierRampEnd
  refine .ite ?_ ?_
  · exact h
  · split
    · exact h.same.rampDone
    · exact h.same
    · exact h

theorem Keeps.carrierLaserOff {n : Nat} (h : Keeps w s t) : Keeps w s (t.carrierLaserOff n) := by
  unfold State.carrierLaserOff
  exact .ite (.ite h.same.rampDone h.same.rampDone.stopEngine) h

theorem Keeps.blockIngress {a : SlotAt} {x : Arrival} (h : Keeps w s t) : Keeps w s (t.blockIngress a x) := by
  unfold State.blockIngress
  split
  · exact h.ingress
  · split
    · exact h
    · exact .ite h (h.same.foldl fun _ _ h => h.ingress)

theorem Keeps.dry {p : Passage} {id : Nat} (h : Keeps w s t) : Keeps w s (t.dry p id).1 := by
  unfold State.dry
  exact .ite_fst h (.ite_fst h (.ite_fst h h.raise))

theorem Keeps.supply {id : Nat} (h : Keeps w s t) : Keeps w s (t.supply id).1 := by
  unfold State.supply
  split
  · exact h
  · split
    · exact .ite_fst h.dry h.same
    · exact h.dry

theorem Keeps.nextOf {id : Nat} (h : Keeps w s t) : Keeps w s (t.nextOf id).1 := by
  unfold State.nextOf
  split
  · exact h
  · refine .ite_fst ?_ ?_
    · split
      · exact h.same
      · exact h
    · exact h.supply

theorem Keeps.left {id : Nat} {x : Block × Option QBlock} (h : Keeps w s t) : Keeps w s (t.left id x) := by
  unfold State.left
  dsimp only
  split
  · exact .ite h.same h
  · split
    · refine .modPas ?_
      exact .ite h.same h
    · refine .ite ?_ ?_
      · refine .alert ?_
        refine .raise (.modPas ?_)
        exact .ite h.same h
      · refine .modPas ?_
        exact .ite h.same h

theorem Keeps.legNext {id : Nat} {prot count : Bool} (h : Keeps w s t) : Keeps w s (t.legNext id prot count).1 := by
  have hnext := h.nextOf (id := id)
  unfold State.legNext
  split
  · exact h
  · split
    · exact h.same
    · split
      case h_1 v hn =>
        rw [hn] at hnext
        exact hnext
      case h_2 v x hn =>
        rw [hn] at hnext
        exact .ite (Keeps.ite hnext.left hnext).modPas (.ite hnext.left hnext)

theorem Keeps.rawNext {x1 : StepWord} {others : List StepWord} {kind : Nat} (h : Keeps w s t) : Keeps w s (t.rawNext x1 others kind).1 := by
  unfold State.rawNext
  split
  · exact .ite_fst (h.same.foldl fun _ _ h => .ite h h.same) h
  · exact h

/-- The block of a leg, or the fill. -/
theorem Keeps.legOut {id kind : Nat} {prot count : Bool} (h : Keeps w s t) :
    Keeps w s (match t.legNext id prot count with
      | (v, some b) => (v, b)
      | (v, none) => (v, fillOf kind)).1 := by
  have hleg := h.legNext (id := id) (prot := prot) (count := count)
  split
  all_goals
    next hl =>
      rw [hl] at hleg
      exact hleg

theorem Keeps.egressNext {a : SlotAt} {count : Bool} (h : Keeps w s t) : Keeps w s (t.egressNext a count).1 := by
  unfold State.egressNext
  dsimp only
  split
  · split
    · exact h.same
    · exact h
  · split
    · split
      · exact h.legOut
      · split
        · exact h.rawNext
        · exact h
    · split
      · exact h.legOut
      · split
        · exact h.rawNext
        · exact h

theorem Keeps.sendOn {a : SlotAt} {b : Block} (h : Keeps w s t) : Keeps w s (t.sendOn a b) := by
  unfold State.sendOn
  refine .ite ?_ ?_
  · refine .modTx ?_
    exact .ite h.same h
  · refine .ite ?_ ?_
    · refine .withUl ?_
      exact .ite h.same h
    · split
      · exact h
      · exact h.same

theorem Keeps.slotOut {a : SlotAt} {room : Bool} (h : Keeps w s t) : Keeps w s (t.slotOut a room) := by
  unfold State.slotOut
  refine .ite ?_ ?_
  · refine .ite ?_ ?_
    · split
      · exact h.egressNext.bump
      · exact h.egressNext
    · exact h
  · exact h.egressNext.sendOn

theorem Keeps.txTake {a : SlotAt} {x : Place} (h : Keeps w s t) : Keeps w s (t.txTake a x) := h.same

theorem Keeps.blockEgress {a : SlotAt} {room : Bool} (h : Keeps w s t) : Keeps w s (t.blockEgress a room) := by
  unfold State.blockEgress
  refine .ite ?_ ?_
  · split
    · exact h
    · exact .ite h.slotOut.txTake h.slotOut
  · exact h.slotOut

theorem Keeps.modPort {lane : Nat} {f : HostPort → HostPort} (h : Keeps w s t) : Keeps w s (t.modPort lane f) := h.same

theorem Keeps.hostPortUp {lane : Nat} {pcs : List (Nat × Nat)} (h : Keeps w s t) : Keeps w s (t.hostPortUp lane pcs) := by
  unfold State.hostPortUp
  split
  · exact h
  · exact .ite h (.ite h.same h.same.raise.inputPresent)

theorem Keeps.flexeGroupDown {g cause crcErrors losses : Nat} (h : Keeps w s t) :
    Keeps w s (t.flexeGroupDown g cause crcErrors losses) := by
  unfold State.flexeGroupDown
  split
  · exact h
  · exact .ite h.same h.same.raise

theorem Keeps.phyDown {lane : Nat} (h : Keeps w s t) : Keeps w s (t.phyDown lane) := by
  unfold State.phyDown
  split
  · exact h.flexeGroupDown
  · exact h

theorem Keeps.portStart {lane : Nat} (h : Keeps w s t) : Keeps w s (t.portStart lane) := by
  unfold State.portStart
  split
  · exact h.foldl fun _ _ h => h.same
  · exact h

theorem Keeps.hostPortDown {lane cause bad : Nat} (h : Keeps w s t) : Keeps w s (t.hostPortDown lane cause bad) := by
  unfold State.hostPortDown
  split
  · exact h
  · refine .ite ?_ ?_
    · exact .ite h.same h
    · refine .phyDown (.inputLost ?_)
      refine .portStart (.raise ?_)
      refine .bump (.modPort ?_)
      exact .ite h.same h

theorem Keeps.hostPortTimeout {lane cause : Nat} (h : Keeps w s t) : Keeps w s (t.hostPortTimeout lane cause) := by
  unfold State.hostPortTimeout
  split
  · exact h
  · exact .ite h (.ite h.same.portStart h.same.portStart.modPort.raise)

theorem Keeps.countFec {x1 : Nat} {hist : List Nat} {uncorr : Nat} (h : Keeps w s t) : Keeps w s (t.countFec x1 hist uncorr) := by
  unfold State.countFec
  refine .bump (.bump ?_)
  refine .bump (.bump ?_)
  exact h.foldl fun _ _ h => h.same

theorem Keeps.hostFecWindow {lane : Nat} {hist : List Nat} {uncorr : Nat} (h : Keeps w s t) :
    Keeps w s (t.hostFecWindow lane hist uncorr) := by
  unfold State.hostFecWindow
  split
  · exact h
  · exact .ite h.countFec (.ite h.countFec.modPort (.ite h.countFec.modPort (.ite h.countFec.modPort.modPort.raise
      (.ite h.countFec.modPort.modPort.raise h.countFec.modPort))))

theorem Keeps.hostAdaptLimit {lane which : Nat} (h : Keeps w s t) : Keeps w s (t.hostAdaptLimit lane which) := by
  unfold State.hostAdaptLimit
  split
  · exact h
  · exact .ite h h.same.raise

theorem Keeps.adaptStep {lane : Nat} (h : Keeps w s t) : Keeps w s (t.adaptStep lane) := by
  unfold State.adaptStep
  split
  · exact h
  · exact .ite h h.same

theorem Keeps.txTapStep {lane : Nat} {ctle ffe dfe : Int} (h : Keeps w s t) : Keeps w s (t.txTapStep lane ctle ffe dfe) := by
  unfold State.txTapStep
  split
  · exact h
  · exact h.same.adaptStep

theorem Keeps.flexeCalSwitch {g : Nat} (h : Keeps w s t) : Keeps w s (t.flexeCalSwitch g) := by
  unfold State.flexeCalSwitch
  split
  · exact h
  · split
    · exact h
    · exact .ite h (.ite h.same.raise h.same)

theorem Keeps.flexeCalTimeout {g : Nat} (h : Keeps w s t) : Keeps w s (t.flexeCalTimeout g) := by
  unfold State.flexeCalTimeout
  split
  · exact h
  · split
    · exact h
    · exact .ite h h.same.raise

theorem Keeps.flexeCalRequest {g : Nat} {cal : List Nat} (h : Keeps w s t) : Keeps w s (t.flexeCalRequest g cal) := by
  unfold State.flexeCalRequest
  split
  · exact h
  · dsimp only
    split
    · exact h.same
    · exact h.same.raise

theorem Keeps.flexeGroupUp {g : Nat} (h : Keeps w s t) : Keeps w s (t.flexeGroupUp g) := by
  unfold State.flexeGroupUp
  split
  · exact h
  · exact .ite h h.same.raise

theorem Keeps.protectSelect {id : Nat} (h : Keeps w s t) : Keeps w s (t.protectSelect id) := by
  unfold State.protectSelect
  split
  · exact h
  · refine .ite ?_ ?_
    · exact h
    · split
      · exact .ite h.moveLeg.resignal1 h
      · exact .ite h.moveLeg.resignal1 h

theorem Keeps.protectRevert {id : Nat} (h : Keeps w s t) : Keeps w s (t.protectRevert id) := by
  unfold State.protectRevert
  split
  · exact h
  · exact .ite h.same h

theorem Keeps.protectSkewClear {id : Nat} (h : Keeps w s t) : Keeps w s (t.protectSkewClear id) := by
  unfold State.protectSkewClear
  split
  · exact h
  · exact .ite h.same h

theorem Keeps.pull {n id : Nat} (h : Keeps w s t) : Keeps w s (State.pull n t id).2 := by
  induction n generalizing t with
  | zero => exact h
  | succ n ih => exact ih h.supply

theorem Keeps.segmentIn {id : Nat} {p : Passage} (h : Keeps w s t) : Keeps w s (t.segmentIn id p).2 := by
  unfold State.segmentIn
  exact .ite h.pull h.pull.bump

theorem Keeps.cipCount {id k n : Nat} (h : Keeps w s t) : Keeps w s (t.cipCount id k n) := h.same

theorem Keeps.withdraw {id c : Nat} {inTag : Bool} (h : Keeps w s t) : Keeps w s (t.withdraw id c inTag) := by
  unfold State.withdraw
  split
  · exact h
  · exact .ite (.ite h (.ite h.same h.same)) (.ite h (.ite h.same h.same))

theorem Keeps.modLane {l : Nat} {f : Lane → Lane} (h : Keeps w s t) : Keeps w s (t.modLane l f) := h.same

theorem Keeps.modPair {k : Nat} {f : Pair → Pair} (h : Keeps w s t) : Keeps w s (t.modPair k f) := h.same

theorem Keeps.mismatch {l c : Nat} {inTag : Bool} (h : Keeps w s t) : Keeps w s (t.mismatch l c inTag) := by
  unfold State.mismatch
  split
  · exact h
  · dsimp only
    split
    · refine .modLane (.modPair ?_)
      refine .declareFault (.raise ?_)
      refine .modLane (.modPair ?_)
      exact h.foldl fun _ _ h => h.withdraw
    · refine .raise ?_
      refine .modCip (.modLane ?_)
      refine .declareFault (.raise ?_)
      refine .modLane (.modPair ?_)
      exact h.foldl fun _ _ h => h.withdraw

theorem Keeps.passSegment {id : Nat} {p : Passage} {g : Segment} (h : Keeps w s t) : Keeps w s (t.passSegment id p g) := by
  unfold State.passSegment
  exact .ite h.same (.ite h.same h.same)

theorem Keeps.cipherSegment {id c : Nat} {fault : Option SegFault} (h : Keeps w s t) : Keeps w s (t.cipherSegment id c fault) := by
  unfold State.cipherSegment
  split
  · exact h
  · refine .ite ?_ ?_
    · exact h
    · refine .ite ?_ ?_
      · exact h
      · refine .ite ?_ ?_
        · refine .ite ?_ ?_
          · refine .cipCount ?_
            refine .modPas (.passSegment ?_)
            refine .ite ?_ ?_
            · refine .cipCount ?_
              split
              · refine .ite ?_ ?_
                · refine .mismatch ?_
                  exact .ite_snd h.same h.segmentIn
                · exact .ite_snd h.same h.segmentIn
              · exact .ite_snd h.same h.segmentIn
            · split
              · refine .ite ?_ ?_
                · refine .mismatch ?_
                  exact .ite_snd h.same h.segmentIn
                · exact .ite_snd h.same h.segmentIn
              · exact .ite_snd h.same h.segmentIn
          · refine .ite ?_ ?_
            · refine .cipCount (.passSegment ?_)
              refine .ite ?_ ?_
              · refine .cipCount ?_
                split
                · refine .ite ?_ ?_
                  · refine .mismatch ?_
                    exact .ite_snd h.same h.segmentIn
                  · exact .ite_snd h.same h.segmentIn
                · exact .ite_snd h.same h.segmentIn
              · split
                · refine .ite ?_ ?_
                  · refine .mismatch ?_
                    exact .ite_snd h.same h.segmentIn
                  · exact .ite_snd h.same h.segmentIn
                · exact .ite_snd h.same h.segmentIn
            · refine .passSegment ?_
              refine .ite ?_ ?_
              · refine .cipCount ?_
                split
                · refine .ite ?_ ?_
                  · refine .mismatch ?_
                    exact .ite_snd h.same h.segmentIn
                  · exact .ite_snd h.same h.segmentIn
                · exact .ite_snd h.same h.segmentIn
              · split
                · refine .ite ?_ ?_
                  · refine .mismatch ?_
                    exact .ite_snd h.same h.segmentIn
                  · exact .ite_snd h.same h.segmentIn
                · exact .ite_snd h.same h.segmentIn
        · refine .ite ?_ ?_
          · refine .cipCount ?_
            refine .ite ?_ ?_
            · refine .passSegment ?_
              refine .ite ?_ ?_
              · refine .cipCount ?_
                split
                · refine .ite ?_ ?_
                  · refine .mismatch ?_
                    exact .ite_snd h.same h.segmentIn
                  · exact .ite_snd h.same h.segmentIn
                · exact .ite_snd h.same h.segmentIn
              · split
                · refine .ite ?_ ?_
                  · refine .mismatch ?_
                    exact .ite_snd h.same h.segmentIn
                  · exact .ite_snd h.same h.segmentIn
                · exact .ite_snd h.same h.segmentIn
            · refine .cipCount (.passSegment ?_)
              refine .ite ?_ ?_
              · refine .cipCount ?_
                split
                · refine .ite ?_ ?_
                  · refine .mismatch ?_
                    exact .ite_snd h.same h.segmentIn
                  · exact .ite_snd h.same h.segmentIn
                · exact .ite_snd h.same h.segmentIn
              · split
                · refine .ite ?_ ?_
                  · refine .mismatch ?_
                    exact .ite_snd h.same h.segmentIn
                  · exact .ite_snd h.same h.segmentIn
                · exact .ite_snd h.same h.segmentIn
          · refine .ite ?_ ?_
            · refine .passSegment ?_
              refine .ite ?_ ?_
              · refine .cipCount ?_
                split
                · refine .ite ?_ ?_
                  · refine .mismatch ?_
                    exact .ite_snd h.same h.segmentIn
                  · exact .ite_snd h.same h.segmentIn
                · exact .ite_snd h.same h.segmentIn
              · split
                · refine .ite ?_ ?_
                  · refine .mismatch ?_
                    exact .ite_snd h.same h.segmentIn
                  · exact .ite_snd h.same h.segmentIn
                · exact .ite_snd h.same h.segmentIn
            · refine .cipCount (.passSegment ?_)
              refine .ite ?_ ?_
              · refine .cipCount ?_
                split
                · refine .ite ?_ ?_
                  · refine .mismatch ?_
                    exact .ite_snd h.same h.segmentIn
                  · exact .ite_snd h.same h.segmentIn
                · exact .ite_snd h.same h.segmentIn
              · split
                · refine .ite ?_ ?_
                  · refine .mismatch ?_
                    exact .ite_snd h.same h.segmentIn
                  · exact .ite_snd h.same h.segmentIn
                · exact .ite_snd h.same h.segmentIn

theorem Keeps.pairSelftestDone {k : Nat} {failed : Option Nat} (h : Keeps w s t) : Keeps w s (t.pairSelftestDone k failed) := by
  unfold State.pairSelftestDone
  refine .ite ?_ ?_
  · exact h
  · split
    · exact h.same.raise
    · dsimp only
      split
      · exact h.same.raise
      · exact h.same.raise.modPair.modLane.modCip

theorem Keeps.cipherTagCheck {id c : Nat} (h : Keeps w s t) : Keeps w s (t.cipherTagCheck id c) := by
  unfold State.cipherTagCheck
  split
  · exact h
  · split
    · refine .ite ?_ ?_
      · exact h
      · dsimp only
        split
        · exact .ite h.same h.same
        · refine .raise ?_
          exact .ite h.same (.ite h.same h.same)
    · exact h

theorem Keeps.keySlotRelease {id : Nat} (h : Keeps w s t) : Keeps w s (t.keySlotRelease id) := by
  unfold State.keySlotRelease
  refine .ite ?_ ?_
  · refine .modCipPas ?_
    exact h.foldl fun _ _ h => h.same
  · exact h.foldl fun _ _ h => h.same

theorem Keeps.cipherRekeyed {id : Nat} (h : Keeps w s t) : Keeps w s (t.cipherRekeyed id) := by
  unfold State.cipherRekeyed
  refine .ite ?_ ?_
  · refine .modCipPas ?_
    exact h.foldl fun _ _ h => h.same.raise
  · exact h.foldl fun _ _ h => h.same.raise

theorem Keeps.cipherKeyAge {id : Nat} (h : Keeps w s t) : Keeps w s (t.cipherKeyAge id) := by
  unfold State.cipherKeyAge
  split
  · exact h
  · exact .ite h h.same.raise

theorem Keeps.refLost {i quiet : Nat} (h : Keeps w s t) : Keeps w s (t.refLost i quiet) := by
  unfold State.refLost
  exact .ite h.inputLost h

theorem Keeps.refPresent {i : Nat} (h : Keeps w s t) : Keeps w s (t.refPresent i) := by
  unfold State.refPresent
  exact .ite h.inputPresent h

theorem Keeps.qualified {i : Nat} (h : Keeps w s t) : Keeps w s (t.qualified i) := h.same.raise.reselect

theorem Keeps.refQualified {i : Nat} (h : Keeps w s t) : Keeps w s (t.refQualified i) := by
  unfold State.refQualified
  exact .ite h.qualified h

theorem Keeps.evalInput {m : Meas} (h : Keeps w s t) : Keeps w s (t.evalInput m) := by
  unfold State.evalInput
  refine .ite ?_ ?_
  · exact h
  · refine .ite ?_ ?_
    · refine .leaveState ?_
      exact .ite h.same.raise (.ite h.same h.same)
    · refine .ite ?_ ?_
      · refine .leaveState ?_
        exact .ite h.same.raise (.ite h.same h.same)
      · refine .ite ?_ ?_
        · refine .judgeQl (.modInput ?_)
          exact .ite h.same.raise (.ite h.same h.same)
        · refine .ite ?_ ?_
          · refine .ite ?_ ?_
            · refine .modInput ?_
              exact .ite h.same.raise (.ite h.same h.same)
            · split
              · refine .modInput ?_
                exact .ite h.same.raise (.ite h.same h.same)
              · refine .ite ?_ ?_
                · refine .qualified ?_
                  exact .ite h.same.raise (.ite h.same h.same)
                · exact .ite h.same.raise (.ite h.same h.same)
          · exact .ite h.same.raise (.ite h.same h.same)

theorem Keeps.disputePair {p : (Nat × TimeInput) × Nat × TimeInput} (h : Keeps w s t) : Keeps w s (t.disputePair p) := by
  unfold State.disputePair
  refine .ite ?_ ?_
  · exact h.same
  · refine .ite ?_ ?_
    · exact .ite h.same (.ite h.same h)
    · refine .raise (.modTim ?_)
      exact .ite h.same (.ite h.same h)

theorem Keeps.disputeClear {i : Nat} (h : Keeps w s t) : Keeps w s (t.disputeClear i) := by
  unfold State.disputeClear
  dsimp only
  split
  · exact h
  · refine .ite ?_ ?_
    · split
      · exact h.same
      · exact .ite h.same h
    · exact h.same

end Sys2Proof.Proofs
end

section
/-!
SUPPORT. What the operations keep (`Keeps`), part 4 of 4, each after those that it is made of.
-/
namespace Sys2Proof.Proofs
open Sys2Proof Sys2Proof.Machine Sys2Proof.Laws

set_option Elab.async false

variable {w : Bool} {s t : State}

theorem Keeps.phaseMoved {d : Int} (h : Keeps w s t) : Keeps w s (t.phaseMoved d) := by
  unfold State.phaseMoved
  refine .modTim ?_
  split
  · exact h
  · exact h.same
  · exact h.same

theorem Keeps.followPhase (h : Keeps w s t) : Keeps w s (t.followPhase State.closeBins) := by
  unfold State.followPhase
  split
  · exact h.same
  · refine .ite ?_ ?_
    · exact h.stepTime.modTim.phaseMoved
    · refine .phaseMoved ?_
      refine .modTim (.withNow ?_)
      exact .ite h.same.raise (.ite h.same h)

theorem Keeps.secondEval {ms : List Meas} {loopFreq : Int} (h : Keeps w s t) :
    Keeps w s (t.secondEval ms loopFreq State.closeBins) := by
  unfold State.secondEval
  refine .ite h ?_
  extract_lets s1 s2 s3 s4 s5 s6 s7
  have h2 : Keeps w s s2 := h.modTim.foldl fun _ _ h => h.evalInput
  have h3 : Keeps w s s3 := h2.foldl fun _ _ h => h.disputePair
  have h4 : Keeps w s s4 := h3.foldl fun _ _ h => h.disputeClear
  have h5 : Keeps w s s5 := h4.reselect
  have h6 : Keeps w s s6 := .ite h5.modTim h5
  have h7 : Keeps w s s7 := .ite h6.modTim h6
  exact h7.followPhase

theorem Keeps.loopNarrow (h : Keeps w s t) : Keeps w s t.loopNarrow := by
  unfold State.loopNarrow
  exact .ite h (.ite h.same.setLoop h.same.setLoop.modTim.raise)

theorem Keeps.oscWrite {temp : Int} {mtpOk : Bool} (h : Keeps w s t) : Keeps w s (t.oscWrite temp mtpOk) := by
  unfold State.oscWrite
  exact .ite h (.ite h.same.mtpWrite.withStore h.same.mtpWrite)

theorem Keeps.ppsEdge (h : Keeps w s t) : Keeps w s (t.ppsEdge State.closeBins) := by
  unfold State.ppsEdge
  extract_lets comp early v u
  have hu : Keeps w s u := .modTim (.ite h.inputLost h)
  split
  · exact .ite hu.modTim.stepTime.modTim hu
  · exact hu

theorem Keeps.qlTimeout {i : Nat} (h : Keeps w s t) : Keeps w s (t.qlTimeout i) := by
  unfold State.qlTimeout
  exact .ite h (.ite h.same.leaveState.reselect h.same)

theorem Keeps.partnerOffset {i : Nat} {off : Int} (h : Keeps w s t) : Keeps w s (t.partnerOffset i off) := by
  unfold State.partnerOffset
  exact .ite h (.ite h.same (.ite h.same h.same.raise))

theorem Keeps.elasticSlip {i : Nat} {theta : Int} (h : Keeps w s t) : Keeps w s (t.elasticSlip i theta) := by
  unfold State.elasticSlip
  refine .ite ?_ ?_
  · exact h
  · refine .raise ?_
    exact h.same.foldl fun _ _ h => h.same

theorem Keeps.domainJoinApply (h : Keeps w s t) : Keeps w s t.domainJoinApply := by
  unfold State.domainJoinApply
  refine .ite ?_ ?_
  · exact h
  · split
    · exact h
    · exact h.same
    · exact h.same.raise

theorem Keeps.hubCount {n k : Nat} (h : Keeps w s t) : Keeps w s (t.hubCount n k) := h.same

theorem Keeps.setRecv {n sub : Nat} {r : Option Recept} (h : Keeps w s t) : Keeps w s (t.setRecv n sub r) := h.same

theorem Keeps.raiseLeaf {n leaf : Nat} {e : Ev} {body : List Byte} (h : Keeps w s t) : Keeps w s (t.raiseLeaf n leaf e body) := h.raise

theorem Keeps.overlap {n sub : Nat} {r : Recept} {power : Int} (h : Keeps w s t) : Keeps w s (t.overlap n sub r power) := h.same.raiseLeaf

theorem Keeps.burstSync {n sub at_ decisions : Nat} {power : Int} (h : Keeps w s t) :
    Keeps w s (t.burstSync n sub at_ decisions power) := by
  unfold State.burstSync
  refine .ite ?_ ?_
  · exact h
  · refine .ite ?_ ?_
    · exact h.same
    · split
      · exact h.same
      · exact .ite h.same (.ite h.overlap (.ite h.same h))

theorem Keeps.captureEvent {n sub : Nat} {r : Recept} (h : Keeps w s t) : Keeps w s (t.captureEvent n sub r) := by
  unfold State.captureEvent
  split
  · exact h
  · exact h.same.raiseLeaf

theorem Keeps.burstHeader {n sub header : Nat} (h : Keeps w s t) : Keeps w s (t.burstHeader n sub header) := by
  unfold State.burstHeader
  split
  · exact h
  · refine .ite ?_ ?_
    · exact h
    · refine .ite ?_ ?_
      · refine .captureEvent (.setRecv ?_)
        split
        · exact h.overlap
        · exact h
      · exact h.same.captureEvent.setRecv

theorem Keeps.sendTiming {n leaf timing : Nat} {delta : Int} (h : Keeps w s t) : Keeps w s (t.sendTiming n leaf timing delta) :=
  h.same.sendMessage

theorem Keeps.correct {n leaf : Nat} {delta : Int} (h : Keeps w s t) : Keeps w s (t.correct n leaf delta) := by
  unfold State.correct
  exact .ite h.sendTiming.modProf h

theorem Keeps.learn {n leaf sub : Nat} {r : Recept} {b : Burst} (h : Keeps w s t) : Keeps w s (t.learn n leaf sub r b) := h.same

theorem Keeps.rangeBurst {n leaf : Nat} {b : Burst} (h : Keeps w s t) : Keeps w s (t.rangeBurst n leaf b) := by
  unfold State.rangeBurst
  exact .ite h.same.resignal (.ite h.same.raiseLeaf.sendTiming h.same)

theorem Keeps.windowGot {n leaf ch idx : Nat} (h : Keeps w s t) : Keeps w s (t.windowGot n leaf ch idx) := h.same

theorem Keeps.leafMgmt {n leaf : Nat} {bytes : List (Option Byte)} (h : Keeps w s t) : Keeps w s (t.leafMgmt n leaf bytes) := h.same

theorem Keeps.burstFec {n leaf : Nat} {b : Burst} (h : Keeps w s t) : Keeps w s (t.burstFec n leaf b) := by
  unfold State.burstFec
  refine h.foldl fun _ _ h => ?_
  refine .ite ?_ ?_
  · refine .modProf (.bump ?_)
    exact .ite h.same h.same
  · refine .bump ?_
    exact .ite h.same h.same

theorem Keeps.burstBlock {a : SlotAt} {b : Option Block} {tag row at_ : Nat} (h : Keeps w s t) :
    Keeps w s (t.burstBlock a b tag row at_) := by
  unfold State.burstBlock
  split
  · split
    · exact h.ingress
    · exact h
  · split
    · exact h
    · exact .ite h h.same

theorem Keeps.leafBlocks {n leaf sub x4 ch : Nat} {blocks : Option (List Block)} (h : Keeps w s t) :
    Keeps w s (t.leafBlocks n leaf sub x4 ch blocks) := by
  unfold State.leafBlocks
  exact h.foldl fun _ _ h => h.burstBlock

theorem Keeps.leafTrails {n leaf : Nat} (h : Keeps w s t) : Keeps w s (t.leafTrails n leaf) := by
  unfold State.leafTrails
  refine h.foldl fun _ _ h => ?_
  split
  · exact h
  · refine .ite ?_ ?_
    · exact h
    · dsimp only
      split
      · exact h.trail
      · exact .ite h.trail h

theorem Keeps.takeBurst {n leaf sub : Nat} {r : Recept} {b : Burst} (h : Keeps w s t) : Keeps w s (t.takeBurst n leaf sub r b) := by
  unfold State.takeBurst
  refine .leafBlocks ?_
  refine .resignal (.leafTrails ?_)
  exact .ite h.same.burstFec.leafMgmt.bump.windowGot.modProf.modProf h.same.burstFec.leafMgmt.bump.windowGot.modProf

theorem Keeps.burstDecode {n sub : Nat} {b : Burst} (h : Keeps w s t) : Keeps w s (t.burstDecode n sub b) := by
  unfold State.burstDecode
  split
  · exact h
  · refine .ite ?_ ?_
    · exact h
    · dsimp only
      split
      · refine .ite ?_ ?_
        · refine .rangeBurst ?_
          refine .ite ?_ ?_
          · refine .raiseLeaf ?_
            refine .ite ?_ ?_
            · exact .ite h.same h.same
            · refine .correct (.learn ?_)
              exact .ite h.same h.same
          · refine .ite ?_ ?_
            · exact .ite h.same h.same
            · refine .correct (.learn ?_)
              exact .ite h.same h.same
        · refine .ite ?_ ?_
          · refine .raiseLeaf ?_
            refine .ite ?_ ?_
            · exact .ite h.same h.same
            · refine .correct (.learn ?_)
              exact .ite h.same h.same
          · refine .ite ?_ ?_
            · exact .ite h.same h.same
            · refine .correct (.learn ?_)
              exact .ite h.same h.same
      · refine .ite ?_ ?_
        · refine .raiseLeaf (.hubCount ?_)
          refine .ite ?_ ?_
          · refine .rangeBurst ?_
            refine .ite ?_ ?_
            · refine .raiseLeaf ?_
              refine .ite ?_ ?_
              · exact .ite h.same h.same
              · refine .correct (.learn ?_)
                exact .ite h.same h.same
            · refine .ite ?_ ?_
              · exact .ite h.same h.same
              · refine .correct (.learn ?_)
                exact .ite h.same h.same
          · refine .ite ?_ ?_
            · refine .raiseLeaf ?_
              refine .ite ?_ ?_
              · exact .ite h.same h.same
              · refine .correct (.learn ?_)
                exact .ite h.same h.same
            · refine .ite ?_ ?_
              · exact .ite h.same h.same
              · refine .correct (.learn ?_)
                exact .ite h.same h.same
        · refine .ite ?_ ?_
          · refine .resignal ?_
            refine .modProf (.hubCount ?_)
            refine .ite ?_ ?_
            · refine .rangeBurst ?_
              refine .ite ?_ ?_
              · refine .raiseLeaf ?_
                refine .ite ?_ ?_
                · exact .ite h.same h.same
                · refine .correct (.learn ?_)
                  exact .ite h.same h.same
              · refine .ite ?_ ?_
                · exact .ite h.same h.same
                · refine .correct (.learn ?_)
                  exact .ite h.same h.same
            · refine .ite ?_ ?_
              · refine .raiseLeaf ?_
                refine .ite ?_ ?_
                · exact .ite h.same h.same
                · refine .correct (.learn ?_)
                  exact .ite h.same h.same
              · refine .ite ?_ ?_
                · exact .ite h.same h.same
                · refine .correct (.learn ?_)
                  exact .ite h.same h.same
          · refine .ite ?_ ?_
            · refine .ite ?_ ?_
              · refine .rangeBurst ?_
                refine .ite ?_ ?_
                · refine .raiseLeaf ?_
                  refine .ite ?_ ?_
                  · exact .ite h.same h.same
                  · refine .correct (.learn ?_)
                    exact .ite h.same h.same
                · refine .ite ?_ ?_
                  · exact .ite h.same h.same
                  · refine .correct (.learn ?_)
                    exact .ite h.same h.same
              · refine .ite ?_ ?_
                · refine .raiseLeaf ?_
                  refine .ite ?_ ?_
                  · exact .ite h.same h.same
                  · refine .correct (.learn ?_)
                    exact .ite h.same h.same
                · refine .ite ?_ ?_
                  · exact .ite h.same h.same
                  · refine .correct (.learn ?_)
                    exact .ite h.same h.same
            · refine .ite ?_ ?_
              · refine .windowGot ?_
                refine .ite ?_ ?_
                · refine .rangeBurst ?_
                  refine .ite ?_ ?_
                  · refine .raiseLeaf ?_
                    refine .ite ?_ ?_
                    · exact .ite h.same h.same
                    · refine .correct (.learn ?_)
                      exact .ite h.same h.same
                  · refine .ite ?_ ?_
                    · exact .ite h.same h.same
                    · refine .correct (.learn ?_)
                      exact .ite h.same h.same
                · refine .ite ?_ ?_
                  · refine .raiseLeaf ?_
                    refine .ite ?_ ?_
                    · exact .ite h.same h.same
                    · refine .correct (.learn ?_)
                      exact .ite h.same h.same
                  · refine .ite ?_ ?_
                    · exact .ite h.same h.same
                    · refine .correct (.learn ?_)
                      exact .ite h.same h.same
              · refine .ite ?_ ?_
                · refine .raiseLeaf (.hubCount ?_)
                  refine .ite ?_ ?_
                  · refine .rangeBurst ?_
                    refine .ite ?_ ?_
                    · refine .raiseLeaf ?_
                      refine .ite ?_ ?_
                      · exact .ite h.same h.same
                      · refine .correct (.learn ?_)
                        exact .ite h.same h.same
                    · refine .ite ?_ ?_
                      · exact .ite h.same h.same
                      · refine .correct (.learn ?_)
                        exact .ite h.same h.same
                  · refine .ite ?_ ?_
                    · refine .raiseLeaf ?_
                      refine .ite ?_ ?_
                      · exact .ite h.same h.same
                      · refine .correct (.learn ?_)
                        exact .ite h.same h.same
                    · refine .ite ?_ ?_
                      · exact .ite h.same h.same
                      · refine .correct (.learn ?_)
                        exact .ite h.same h.same
                · refine .ite ?_ ?_
                  · refine .takeBurst ?_
                    refine .ite ?_ ?_
                    · refine .rangeBurst ?_
                      refine .ite ?_ ?_
                      · refine .raiseLeaf ?_
                        refine .ite ?_ ?_
                        · exact .ite h.same h.same
                        · refine .correct (.learn ?_)
                          exact .ite h.same h.same
                      · refine .ite ?_ ?_
                        · exact .ite h.same h.same
                        · refine .correct (.learn ?_)
                          exact .ite h.same h.same
                    · refine .ite ?_ ?_
                      · refine .raiseLeaf ?_
                        refine .ite ?_ ?_
                        · exact .ite h.same h.same
                        · refine .correct (.learn ?_)
                          exact .ite h.same h.same
                      · refine .ite ?_ ?_
                        · exact .ite h.same h.same
                        · refine .correct (.learn ?_)
                          exact .ite h.same h.same
                  · refine .modProf ?_
                    refine .ite ?_ ?_
                    · refine .rangeBurst ?_
                      refine .ite ?_ ?_
                      · refine .raiseLeaf ?_
                        refine .ite ?_ ?_
                        · exact .ite h.same h.same
                        · refine .correct (.learn ?_)
                          exact .ite h.same h.same
                      · refine .ite ?_ ?_
                        · exact .ite h.same h.same
                        · refine .correct (.learn ?_)
                          exact .ite h.same h.same
                    · refine .ite ?_ ?_
                      · refine .raiseLeaf ?_
                        refine .ite ?_ ?_
                        · exact .ite h.same h.same
                        · refine .correct (.learn ?_)
                          exact .ite h.same h.same
                      · refine .ite ?_ ?_
                        · exact .ite h.same h.same
                        · refine .correct (.learn ?_)
                          exact .ite h.same h.same

theorem Keeps.windowMissed {n sub x3 ch : Nat} {profBad : Bool} (h : Keeps w s t) : Keeps w s (t.windowMissed n sub x3 ch profBad) := by
  unfold State.windowMissed
  split
  · exact h
  · exact .ite h (.ite h.same.leafBlocks.modProf.raiseLeaf.modProf.resignal.sendTiming h.same.leafBlocks.modProf)

theorem Keeps.leafBurstSend {n sub x3 ch : Nat} (h : Keeps w s t) : Keeps w s (t.leafBurstSend n sub x3 ch) := by
  unfold State.leafBurstSend
  exact .ite h (.ite h.same (.ite (.ite h h.same) h.same))

theorem Keeps.calresFault {ohms : Nat} (h : Keeps w s t) : Keeps w s (t.calresFault ohms) := h.raise

theorem Keeps.calBootDone {n ohms : Nat} {temp : Int} {bad : List (Nat × Nat)} {found : List BootTrims} (h : Keeps w s t) :
    Keeps w s (t.calBootDone n ohms temp bad found) := by
  unfold State.calBootDone
  refine .ite ?_ ?_
  · exact h
  · refine .raise ?_
    refine .foldl ?_ fun _ _ h => ?_
    · exact .ite h.same h.same.calresFault
    · exact .ite h.raise (.ite h.raise h)

theorem Keeps.runEnded {n c : Nat} {bad : Option Nat} (h : Keeps w s t) : Keeps w s (t.runEnded n c bad) := by
  refine h.fewerJobs (runningTenants_map t fun j => ?_)
  split
  · split
    · exact ⟨rfl, id⟩
    · exact ⟨rfl, id⟩
  · exact ⟨rfl, id⟩

theorem Keeps.startHeld {n c : Nat} (h : Keeps w s t) : Keeps w s (t.startHeld n c) := by
  unfold State.startHeld
  split
  · exact .ite (.ite h.same.raise.runEnded h.same.raise) (.ite h h.same)
  · exact h

theorem Keeps.abandonRun {n c cause : Nat} (h : Keeps w s t) : Keeps w s (t.abandonRun n c cause) := by
  unfold State.abandonRun
  split
  · exact h
  · refine .startHeld ?_
    exact .ite h.same.raise.runEnded h.same.raise

theorem Keeps.checkRun {n c ohms : Nat} (h : Keeps w s t) : Keeps w s (t.checkRun n c ohms) := by
  unfold State.checkRun
  exact .ite h.same h.same.abandonRun.calresFault

theorem Keeps.calTriggerRow {n c cause : Nat} {temp : Int} {ohms : Nat} (h : Keeps w s t) :
    Keeps w s (t.calTriggerRow n c cause temp ohms) := by
  unfold State.calTriggerRow
  refine .ite ?_ ?_
  · exact h
  · dsimp only
    split
    · refine .ite ?_ ?_
      · refine .checkRun ?_
        exact .ite h.same.calTrigger h.same.startHeld
      · exact .ite h.same.calTrigger h.same.startHeld
    · exact .ite h.same.calTrigger h.same.startHeld

theorem Keeps.calCount {n c k : Nat} (h : Keeps w s t) : Keeps w s (t.calCount n c k) := by
  unfold State.calCount
  exact .ite h.same h.same

theorem Keeps.stopAfterStep {n c : Nat} (h : Keeps w s t) : Keeps w s (t.stopAfterStep n c) := by
  unfold State.stopAfterStep
  split
  · split
    · exact .ite h h.abandonRun
    · exact h
  · exact h

theorem Keeps.runDone {n c : Nat} {r : Run} (h : Keeps w s t) : Keeps w s (t.runDone n c r) := by
  unfold State.runDone
  refine .startHeld ?_
  exact .ite h.same.calCount.modLife.raise.runEnded h.same.calCount.modLife.raise

theorem Keeps.stepAccepted {n c : Nat} {r : Run} (h : Keeps w s t) : Keeps w s (t.stepAccepted n c r) := by
  unfold State.stepAccepted
  exact .ite h.same.calCount (.ite (.ite h.same.runDone h.same) h.runDone)

theorem Keeps.trimStep {n c k : Nat} {io : StepIo} (h : Keeps w s t) : Keeps w s (t.trimStep n c k io) := h.same

theorem Keeps.elementFailed {n c k role : Nat} {mtpOk : Bool} (h : Keeps w s t) : Keeps w s (t.elementFailed n c k role mtpOk) := by
  unfold State.elementFailed
  exact .ite h.same.raise.calCount.modLife.mtpWrite.withStore h.same.raise.calCount.modLife.mtpWrite

theorem Keeps.runLost {n c : Nat} (h : Keeps w s t) : Keeps w s (t.runLost n c) := by
  unfold State.runLost
  split
  · exact h
  · refine .startHeld ?_
    exact .ite h.same.runEnded h.same

theorem Keeps.offlineFail {n c : Nat} {r : Run} {mtpOk : Bool} (h : Keeps w s t) : Keeps w s (t.offlineFail n c r mtpOk) := by
  unfold State.offlineFail
  dsimp only
  split
  · exact h.elementFailed.modConv
  · exact h.elementFailed.modConv.runLost.raise

theorem Keeps.stepRejected {n c : Nat} {r : Run} {io : StepIo} (h : Keeps w s t) : Keeps w s (t.stepRejected n c r io) := by
  unfold State.stepRejected
  refine .ite ?_ ?_
  · exact h.same.calCount
  · refine .ite ?_ ?_
    · split
      · exact h.same.elementFailed.runDone
      · exact h.runDone
    · exact h.offlineFail

theorem Keeps.calStepEnd {n c : Nat} {io : StepIo} (h : Keeps w s t) : Keeps w s (t.calStepEnd n c io) := by
  unfold State.calStepEnd
  split
  · exact h
  · refine .ite ?_ ?_
    · exact h
    · refine .ite ?_ ?_
      · exact h.checkRun
      · refine .stopAfterStep ?_
        refine .ite ?_ ?_
        · refine .stepAccepted (.trimStep ?_)
          exact .ite h.same.calCount h.same
        · refine .stepRejected ?_
          exact .ite h.same.calCount h.same

theorem Keeps.serviceFail {n c pos k : Nat} {mtpOk : Bool} (h : Keeps w s t) : Keeps w s (t.serviceFail n c pos k mtpOk) := by
  unfold State.serviceFail
  dsimp only
  split
  · exact h.same.elementFailed.declareFault
  · split
    · exact h.same.elementFailed.runLost.raise.declareFault
    · exact h.same.elementFailed.raise

theorem Keeps.spareFail {n c k : Nat} {mtpOk : Bool} (h : Keeps w s t) : Keeps w s (t.spareFail n c k mtpOk) := by
  unfold State.spareFail
  exact .ite h.same.elementFailed.raise h.same.elementFailed

theorem Keeps.sliceWindow {n c : Nat} {x3 : SliceWindow} {mtpOk : Bool} (h : Keeps w s t) : Keeps w s (t.sliceWindow n c x3 mtpOk) := by
  unfold State.sliceWindow
  refine .ite ?_ ?_
  · exact h
  · refine .ite ?_ ?_
    · exact h.same
    · refine .ite ?_ ?_
      · exact h.same
      · split
        · exact h.serviceFail
        · exact h.spareFail

theorem Keeps.scrubLp {found : List Finding} (h : Keeps true s t) : Keeps true s (t.scrubLp found) := by
  unfold State.scrubLp
  refine .ite ?_ ?_
  · exact h
  · refine .ite ?_ ?_
    · exact .ite h.withMem.raise h
    · split
      · refine .withMem (.scrubBlock ?_)
        exact .ite h.withMem.raise h
      · refine .withMem (.endPass ?_)
        exact .ite h.withMem.raise h

theorem Keeps.scrubOnchip {found : List Finding} {ok : Bool} (h : Keeps true s t) : Keeps true s (t.scrubOnchip found ok) := by
  unfold State.scrubOnchip
  refine .ite ?_ ?_
  · exact h
  · dsimp only
    split
    · exact h.scrubBlock.withMem
    · exact h.endPass.withMem

theorem Keeps.scrubStep {lp : Bool} {found : List Finding} {ok : Bool} (h : Keeps true s t) : Keeps true s (t.scrubStep lp found ok) := by
  unfold State.scrubStep
  exact .ite (.ite h.scrubLp h) (.ite h.scrubOnchip h)

theorem Keeps.activeTrap {p cause : Nat} (h : Keeps w s t) : Keeps w s (t.activeTrap p cause) := by
  unfold State.activeTrap
  exact h.withGuide.raise.declareFault

theorem Keeps.guideTrap {cause : Nat} (h : Keeps true s t) : Keeps true s (t.guideTrap cause) := by
  unfold State.guideTrap
  split
  · exact h
  · exact .ite h.assertReset h.activeTrap

theorem Keeps.standbyTrap {cause : Nat} (h : Keeps w s t) : Keeps w s (t.standbyTrap cause) := by
  unfold State.standbyTrap
  split
  · exact .ite h h.same.raise.declareFault
  · exact h

theorem Keeps.uncorrEffect {x1 addr : Nat} {use : MemUse} (h : Keeps true s t) : Keeps true s (t.uncorrEffect x1 addr use) := by
  unfold State.uncorrEffect
  split
  · exact .ite h.guideTrap (.ite h.standbyTrap h)
  · exact .ite h.guideTrap (.ite h.standbyTrap h)
  · exact h.modInst
  · split
    · split
      · exact .ite h.modJob h
      · exact h
    · split
      · exact h.same
      · exact h
    · exact h.same
    · split
      · exact h
      · exact .ite h.withdraw h.same
    · split
      · exact h.same
      · exact h
    · exact h.same
    · exact h.haltRing
    · exact h

theorem Keeps.memoryRead {x1 inst addr reader : Nat} {flips : List Nat} {use : MemUse} (h : Keeps true s t) :
    Keeps true s (t.memoryRead x1 inst addr reader flips use) := by
  unfold State.memoryRead
  refine .ite ?_ ?_
  · exact h
  · refine .ite ?_ ?_
    · exact h.unwrittenRead
    · split
      · exact h
      · exact h.correction
      · exact h.uncorrectable.uncorrEffect

theorem Keeps.bucketLeak (h : Keeps w s t) : Keeps w s t.bucketLeak := by
  refine h.mapInsts (by dsimp only)  fun _ _ => ?_
  split <;> rfl

theorem Keeps.copyBad {x1 inst : Nat} {bad : List Nat} (h : Keeps w s t) : Keeps w s (t.copyBad x1 inst bad) := by
  unfold State.copyBad
  exact h.foldl fun _ _ h => h.uncorrectable.modInst

theorem Keeps.repairSwitch {bad : List Nat} {ok : Bool} (h : Keeps w s t) : Keeps w s (t.repairSwitch bad ok) := by
  unfold State.repairSwitch
  split
  · exact h
  · dsimp only
    split
    · exact h.withMem.copyBad.recordRow.repaired.respondLate
    · exact h.withMem.copyBad.recordRow.repaired

theorem Keeps.pageSwitch {bad : List Nat} {ok : Bool} (h : Keeps w s t) : Keeps w s (t.pageSwitch bad ok) := by
  unfold State.pageSwitch
  split
  · exact h
  · extract_lets valid v poisoned mapped written store repair stored
    have hv : Keeps w s v := .ite h.copyBad h
    have hmapped : Keeps w s mapped := by
      refine hv.mapInsts (by dsimp only) fun _ _ => ?_
      split <;> rfl
    have hwritten : Keeps w s written := hmapped.modLife.mtpWrite
    have hstored : Keeps w s stored := .ite hwritten.withStore.modLife hwritten
    exact hstored.raise.respondLate

theorem Keeps.eventWrite {e : Ev} {island source : Nat} {payload : List Byte} (h : Keeps w s t) :
    Keeps w s (t.eventWrite e island source payload) :=
  h.raise

theorem Keeps.logOverflow (h : Keeps w s t) : Keeps w s t.logOverflow := by
  unfold State.logOverflow
  exact .ite h.same.raise h

theorem Keeps.freezeOne {p : SnapPending} (h : Keeps w s t) : Keeps w s (t.freezeOne p) := by
  unfold State.freezeOne
  split
  · exact h.same.respondLate
  · exact h.same.respondLate

theorem Keeps.snapshotFreeze (h : Keeps w s t) : Keeps w s t.snapshotFreeze := by
  unfold State.snapshotFreeze
  exact h.same.foldl fun _ _ h => h.freezeOne

theorem Keeps.markLeap (h : Keeps w s t) : Keeps w s t.markLeap := h.same

theorem Keeps.binClose (h : Keeps w s t) : Keeps w s t.binClose := by
  unfold State.binClose
  refine .ite h (.ite h.same (.ite h ?_))
  extract_lets c l1 l0 leap s1 s2 s3 s4
  have h1 : Keeps w s s1 := h.syncBins.modLog
  have h2 : Keeps w s s2 := .ite h1.markLeap h1
  have h3 : Keeps w s s3 := .ite h2.closeKind h2
  have h4 : Keeps w s s4 := .ite h3.closeKind h3
  exact .ite h4.markLeap h4

theorem Keeps.lifeRecordWrite {ok : Bool} (h : Keeps w s t) : Keeps w s (t.lifeRecordWrite ok) := by
  unfold State.lifeRecordWrite
  exact .ite h.lifeWrite h

theorem Keeps.leapStale (h : Keeps w s t) : Keeps w s t.leapStale := by
  unfold State.leapStale
  exact .ite h.same.raise h

theorem Keeps.railsDown {codes : List Nat} (h : Keeps w s t) : Keeps w s (t.railsDown codes) := by
  unfold State.railsDown
  exact h.foldl fun _ _ h => h.operate

theorem Keeps.stateChanged {target old new : Nat} (h : Keeps w s t) : Keeps w s (t.stateChanged target old new) := h.raise

theorem Keeps.dormantEntered {ok : Bool} (h : Keeps true s t) : Keeps true s (t.dormantEntered fun s => s.lifeWrite ok) := by
  unfold State.dormantEntered
  refine .ite h ?_
  extract_lets v cleared guide power off down
  have hv : Keeps true s v := h.lifeWrite
  have hcleared : Keeps true s cleared := hv.foldl fun _ _ h => h.clearIsland.modIsland
  have hoff : Keeps true s off := hcleared.withGuideCipPower
  exact hoff.railsDown.stateChanged

theorem Keeps.coldWake (h : Keeps true s t) : Keeps true s t.coldWake := by
  unfold State.coldWake
  refine .fillMemories ?_
  exact h.trans ⟨rfl, id, nofun, fun _ => ⟨Nat.zero_le _, fun _ => Nat.zero_le _⟩⟩

theorem Keeps.replay {x : Latched} (h : Keeps w s t) : Keeps w s (t.replay x) := by
  unfold State.replay
  split
  · exact h.same
  · exact h.same
  · exact h.resignal
  · exact h.raise

theorem Keeps.replayAll (h : Keeps w s t) : Keeps w s t.replayAll := by
  unfold State.replayAll
  refine .ite ?_ ?_
  · refine .raise (.withPower ?_)
    exact h.same.foldl fun _ _ h => h.replay.raise
  · exact h.same.foldl fun _ _ h => h.replay.raise

theorem Keeps.dormantLeft (h : Keeps true s t) : Keeps true s t.dormantLeft := by
  unfold State.dormantLeft
  refine .replayAll ?_
  refine .raise (.stateChanged ?_)
  refine .foldl ?_ fun _ _ h => ?_
  · refine .withPower ?_
    exact h.railsUp.coldWake.foldl fun _ _ h => .ite h h.same
  · exact .ite h.same h

theorem Keeps.invalidate {u : Nat} (h : Keeps true s t) : Keeps true s (t.invalidate u) :=
  h.modInst_wf fun _ _ => memory_nil_wf

theorem Keeps.retentionLost {i bank : Nat} (h : Keeps true s t) : Keeps true s (t.retentionLost i bank) := by
  unfold State.retentionLost
  exact .ite h.raise.invalidate (.ite h.raise.clearCounters.needBootCal h.raise.clearCounters)

theorem Keeps.wakeTriggers {n : Nat} (h : Keeps w s t) : Keeps w s (t.wakeTriggers n) := by
  unfold State.wakeTriggers
  exact h.foldl fun _ _ h => h.startHeld.calTrigger

theorem Keeps.islandDone {i : Nat} {corrupt : List Nat} (h : Keeps true s t) : Keeps true s (t.islandDone i corrupt) := by
  unfold State.islandDone
  dsimp only
  split
  · exact h
  · refine .stateChanged (.replayAll ?_)
    refine .ite ?_ ?_
    · refine .ite ?_ ?_
      · refine .needBootCal (.fillIsland ?_)
        refine .foldl ?_ fun _ _ h => h.retentionLost
        exact .ite h.same h.same
      · refine .ite ?_ ?_
        · refine .foldl ?_ fun _ _ h => h.retentionLost
          exact .ite h.same h.same
        · refine .wakeTriggers ?_
          refine .foldl ?_ fun _ _ h => h.retentionLost
          exact .ite h.same h.same
    · refine .foldl ?_ fun _ _ h => h.retentionLost
      exact .ite h.same h.same
  · refine .ite ?_ ?_
    · exact h
    · refine .stateChanged (.withPower ?_)
      refine .ite ?_ ?_
      · refine .modEng ?_
        refine .ite ?_ ?_
        · refine .railsDown (.clearIsland ?_)
          exact .ite h.same.railsUp.fillIsland h.same
        · refine .foldl ?_ fun _ _ h => h.steer
          exact .ite h.same.railsUp.fillIsland h.same
      · refine .ite ?_ ?_
        · refine .railsDown (.clearIsland ?_)
          exact .ite h.same.railsUp.fillIsland h.same
        · refine .foldl ?_ fun _ _ h => h.steer
          exact .ite h.same.railsUp.fillIsland h.same

theorem Keeps.transitionDone {target : Nat} {corrupt : List Nat} {lifeOk : Bool} (h : Keeps true s t) :
    Keeps true s (t.transitionDone target corrupt lifeOk) := by
  unfold State.transitionDone
  refine .ite ?_ ?_
  · split
    · exact h.dormantEntered
    · exact h.dormantLeft
    · exact h
  · exact h.islandDone

theorem Keeps.railUnconfirmed {code status : Nat} (h : Keeps w s t) : Keeps w s (t.railUnconfirmed code status) := h.same.raise

theorem Keeps.abortDormant {cause code status : Nat} (h : Keeps w s t) : Keeps w s (t.abortDormant cause code status) := by
  unfold State.abortDormant
  refine .ite ?_ ?_
  · exact h.railUnconfirmed
  · split
    · exact h
    · refine .raise (.raise ?_)
      exact .ite (h.same.foldl fun _ _ h => h.startHeld) h.same

theorem Keeps.abortTransition {target cause code status : Nat} (h : Keeps true s t) :
    Keeps true s (t.abortTransition target cause code status) := by
  unfold State.abortTransition
  refine .ite ?_ ?_
  · exact h.abortDormant
  · split
    · exact h
    · refine .ite ?_ ?_
      · refine .raise ?_
        refine .raise (.withPower ?_)
        refine .ite ?_ ?_
        · refine .railsDown (.clearIsland ?_)
          exact .ite h.beginExit h.same
        · refine .ite ?_ ?_
          · refine .foldl ?_ fun _ _ h => h.startHeld
            exact .ite h.beginExit h.same
          · exact .ite h.beginExit h.same
      · refine .raise ?_
        refine .raise (.withPower ?_)
        refine .ite ?_ ?_
        · refine .railsDown (.clearIsland ?_)
          exact .ite h.beginExit h.same
        · refine .ite ?_ ?_
          · refine .foldl ?_ fun _ _ h => h.startHeld
            exact .ite h.beginExit h.same
          · exact .ite h.beginExit h.same

theorem Keeps.driplineCycle {n : Nat} {los : List Nat} {samples : List Int} (h : Keeps w s t) :
    Keeps w s (t.driplineCycle n los samples) := by
  unfold State.driplineCycle
  exact .ite h (.ite h.same (.ite h.same (.ite h.same (.ite h.same (.ite h.same.raise.beginExit h.same.raise)))))

theorem Keeps.answerPerf {failed : Option Nat} (h : Keeps w s t) : Keeps w s (t.answerPerf failed) := by
  unfold State.answerPerf
  exact h.foldl fun _ _ h => .ite h.same.respondLate h

theorem Keeps.perfLevelChange {n : Nat} {confirmed : Bool} {status : Nat} {drift : Int} (h : Keeps w s t) :
    Keeps w s (t.perfLevelChange n confirmed status drift) := by
  unfold State.perfLevelChange
  exact .ite h (.ite h.raise.answerPerf h.same.steer.raise.answerPerf)

theorem Keeps.vTrimRecompute {n : Nat} {drift : Int} (h : Keeps w s t) : Keeps w s (t.vTrimRecompute n drift) := by
  unfold State.vTrimRecompute
  exact .ite h.same h

theorem Keeps.pmAlert {code status : Nat} (h : Keeps w s t) : Keeps w s (t.pmAlert code status) := by
  unfold State.pmAlert
  exact .ite h h.same.raise.withPower

theorem Keeps.pmbusPoll {xs : List (Nat × Nat × Nat × Int × Nat)} (h : Keeps w s t) : Keeps w s (t.pmbusPoll xs) := by
  unfold State.pmbusPoll
  exact .ite h.same h

theorem Keeps.takeOver (h : Keeps true s t) : Keeps true s (t.takeOver State.answerAll) := by
  unfold State.takeOver
  split
  · exact h
  · exact h.same.answerAll.raise

theorem Keeps.standbyReady {failed : Option Nat} (h : Keeps w s t) : Keeps w s (t.standbyReady failed) := by
  unfold State.standbyReady
  split
  · exact h
  · split
    · exact h.same.raise
    · exact h.same.raise

theorem Keeps.ulDown {p cause : Nat} (h : Keeps w s t) : Keeps w s (t.ulDown p cause) := by
  unfold State.ulDown
  refine .ite ?_ ?_
  · exact h
  · refine .resignal ?_
    refine .syncTimeWords (.inputLost ?_)
    refine .raise (.bump ?_)
    exact .ite h.same h.same

theorem Keeps.ulLaneLost {p i : Nat} (h : Keeps w s t) : Keeps w s (t.ulLaneLost p i) := h.same.raise.ulDown

theorem Keeps.ulTryUp {p : Nat} (h : Keeps w s t) : Keeps w s (t.ulTryUp p) := by
  unfold State.ulTryUp
  refine .ite ?_ ?_
  · exact h
  · refine .resignal (.syncTimeWords ?_)
    exact .ite h.same.raise.spreadInputs h.same.raise.inputPresent

theorem Keeps.ulLaneLock {p i : Nat} {blocks : List Block} {skew : Nat} (h : Keeps w s t) : Keeps w s (t.ulLaneLock p i blocks skew) := by
  unfold State.ulLaneLock
  refine .ite ?_ ?_
  · exact h
  · refine .ite ?_ ?_
    · exact h.ulLaneLost
    · refine .ite ?_ ?_
      · exact h
      · dsimp only
        split
        · exact .ite h.same.ulDown h.same
        · exact h.same.ulTryUp

theorem Keeps.ulTimeWord {p c : Nat} (h : Keeps w s t) : Keeps w s (t.ulTimeWord p c).2 := by
  unfold State.ulTimeWord
  split
  · exact h
  · exact h.same

theorem Keeps.ulWords {p depart slot : Nat} (h : Keeps w s t) : Keeps w s (t.ulWords p depart slot).2.2 := by
  unfold State.ulWords
  exact .ite_snd h.ulTimeWord h

theorem Keeps.ulFrameSend {p depart : Nat} (h : Keeps w s t) : Keeps w s (t.ulFrameSend p depart) := by
  unfold State.ulFrameSend
  refine .ite h ?_
  exact h.ulWords.modUl.bump.bump.bump

theorem Keeps.ulLanes {p : Nat} {lanes : List (List Block)} (h : Keeps w s t) : Keeps w s (t.ulLanes p lanes) := by
  unfold State.ulLanes
  exact h.foldl fun _ _ h => .ite h (.ite h.same.ulLaneLost h.same)

theorem Keeps.ulDeliver {p : Nat} {blocks : List (Nat × Block)} {arrival : Nat} (h : Keeps w s t) :
    Keeps w s (t.ulDeliver p blocks arrival) := by
  unfold State.ulDeliver
  exact h.same.foldl fun _ _ h => h.same.ingress

theorem Keeps.ulNoMap {p : Nat} (h : Keeps w s t) : Keeps w s (t.ulNoMap p) := by
  unfold State.ulNoMap
  refine h.foldl fun _ _ h => ?_
  split
  · exact h
  · exact .ite h.same h

theorem Keeps.ulMgmt {p : Nat} {bytes : List (Option Byte)} (h : Keeps w s t) : Keeps w s (t.ulMgmt p bytes) := h.same

theorem Keeps.ulBadFrame {p : Nat} (h : Keeps w s t) : Keeps w s (t.ulBadFrame p) := by
  unfold State.ulBadFrame
  exact .ite h.same.ulNoMap.ulMgmt.bump.ulDown h.same.ulNoMap.ulMgmt.bump

theorem Keeps.ulSlots {p : Nat} {ws : List Nat} (h : Keeps w s t) : Keeps w s (t.ulSlots p ws) := by
  unfold State.ulSlots
  refine .modUl ?_
  exact .ite h h.same

theorem Keeps.ulTime {p : Nat} {ws : List Nat} {arrival : Nat} (h : Keeps w s t) : Keeps w s (t.ulTime p ws arrival) := by
  unfold State.ulTime
  refine .ite ?_ ?_
  · exact h
  · dsimp only
    split
    · exact h.same
    · exact .ite h.same h.same.exchanged

theorem Keeps.ulLegSeen {id : Nat} {y : Passage} {got : List (Option Nat)} {arrival : Nat} (h : Keeps w s t) :
    Keeps w s (t.ulLegSeen id y got arrival) := by
  unfold State.ulLegSeen
  split
  · exact h.trail
  · exact .ite h.same.trail h.same

theorem Keeps.ulMap {p : Nat} {ws : List Nat} {arrival : Nat} (h : Keeps w s t) : Keeps w s (t.ulMap p ws arrival) := by
  unfold State.ulMap
  refine h.same.foldl fun _ _ h => ?_
  split
  · exact h
  · exact .ite h h.ulLegSeen

theorem Keeps.ulHeader {p : Nat} {ws : List Nat} (h : Keeps w s t) : Keeps w s (t.ulHeader p ws) := by
  unfold State.ulHeader
  refine .ite ?_ ?_
  · refine .raise ?_
    exact .ite h.same.raise h.same
  · exact .ite h.same.raise h.same

theorem Keeps.ulFrameReceive {p : Nat} {f : UlFrame} (h : Keeps w s t) : Keeps w s (t.ulFrameReceive p f) := by
  unfold State.ulFrameReceive
  refine .ite ?_ ?_
  · exact h
  · dsimp only
    split
    · exact h.ulLanes.ulDown
    · exact .ite h.ulLanes.ulBadFrame.ulDeliver (.ite h.ulLanes.modUl.ulTryUp.ulSlots.ulMgmt.ulDeliver
        h.ulLanes.modUl.ulTryUp.ulHeader.ulMap.ulTime.ulSlots.ulMgmt.resignal.ulDeliver)

theorem Keeps.ulTimeout {p : Nat} (h : Keeps w s t) : Keeps w s (t.ulTimeout p) := by
  unfold State.ulTimeout
  exact .ite h h.same.raise

theorem Keeps.refclkMeasure {ppm : Int} {peak : Nat} (h : Keeps w s t) : Keeps w s (t.refclkMeasure ppm peak) := by
  unfold State.refclkMeasure
  refine .ite ?_ ?_
  · exact .ite h.same.raise h.same
  · refine .syncTimeWords ?_
    refine .reselect (.spreadInputs ?_)
    exact .ite h.same.raise h.same

theorem Keeps.filterRestart {k c cause : Nat} (h : Keeps w s t) : Keeps w s (t.filterRestart k c cause) := h.same.raise

theorem Keeps.filterTo {k : Nat} {g : Option HkCfg} (h : Keeps w s t) : Keeps w s (t.filterTo k g) := by
  unfold State.filterTo
  split
  · exact h.same
  · dsimp only
    split
    · exact h.same.filterRestart
    · exact .ite h.same.filterRestart (.ite h.same.filterRestart (.ite h.same h.same))

theorem Keeps.sequenceTo {c : Nat} {q : HkSeq} (h : Keeps w s t) : Keeps w s (t.sequenceTo c q) := by
  unfold State.sequenceTo
  refine h.modHk.foldl fun _ _ h => ?_
  split
  · refine .ite ?_ ?_
    · exact h
    · split
      · exact h.filterTo
      · exact .ite h h.filterRestart
      · exact h
  · exact h

theorem Keeps.filterDue {k start : Nat} (h : Keeps w s t) : Keeps w s (t.filterDue k start) := by
  unfold State.filterDue
  dsimp only
  split
  · exact h
  · exact .ite h.same (h.same.foldl fun _ _ h => h.filterTo)

theorem Keeps.frameStart {start : Nat} (h : Keeps w s t) : Keeps w s (t.frameStart start) := by
  unfold State.frameStart
  refine .withHk ?_
  refine .foldl ?_ fun _ _ h => h.filterDue
  exact h.foldl fun _ _ h => h.modHk.foldl fun _ _ h => h.sequenceTo

theorem Keeps.hkCount {c k n : Nat} (h : Keeps w s t) : Keeps w s (t.hkCount c k n) := h.same

theorem Keeps.modEntry {c i : Nat} {f : HkEntry → HkEntry} (h : Keeps w s t) : Keeps w s (t.modEntry c i f) := h.modHk

theorem Keeps.openTest {c i : Nat} {e : HkEntry} {x : Nat × Bool} (h : Keeps w s t) : Keeps w s (t.openTest c i e x) := by
  unfold State.openTest
  exact .ite h.same (.ite (.ite h.same.modEntry.raise h.same.modEntry) (.ite h.same.modEntry.raise h.same.modEntry))

theorem Keeps.limitCheck {c i value : Nat} (h : Keeps w s t) : Keeps w s (t.limitCheck c i value) := by
  unfold State.limitCheck
  dsimp only
  split
  · exact h
  · exact .ite (.ite h.modEntry.hkCount.raise h) (.ite h.modEntry h)

theorem Keeps.filterEmit {k : Nat} {f : HkFilter} {g : HkCfg} {stamp : Nat} (h : Keeps w s t) : Keeps w s (t.filterEmit k f g stamp).1 :=
  h.same

theorem Keeps.filterSample {k f : Nat} {sample : Option (Nat × Bool)} {stamp : Nat} (h : Keeps w s t) :
    Keeps w s (t.filterSample k f sample stamp) := by
  unfold State.filterSample
  dsimp only
  split
  · exact h
  · exact h.same
  · refine .ite ?_ ?_
    · refine .ite ?_ ?_
      · refine .limitCheck ?_
        refine .modFilter (.modFilter ?_)
        exact .ite h.filterRestart h
      · refine .modFilter (.modFilter ?_)
        exact .ite h.filterRestart h
    · refine .ite ?_ ?_
      · refine .modFilter ?_
        exact .ite h.filterRestart h
      · refine .ite ?_ ?_
        · refine .modFilter (.modFilter ?_)
          exact .ite h.filterRestart h
        · refine .ite ?_ ?_
          · refine .limitCheck ?_
            refine .filterEmit (.modFilter ?_)
            exact .ite h.filterRestart h
          · refine .filterEmit (.modFilter ?_)
            exact .ite h.filterRestart h

theorem Keeps.feed {c i f : Nat} {sample : Option (Nat × Bool)} {stamp : Nat} (h : Keeps w s t) :
    Keeps w s (t.feed c i f sample stamp) := by
  unfold State.feed
  refine h.foldl fun _ _ h => ?_
  split
  · exact .ite h.filterSample h
  · exact h

theorem Keeps.entrySlot {c i f : Nat} {x : Int} {stamp : Nat} (h : Keeps w s t) : Keeps w s (t.entrySlot c i f x stamp) := by
  unfold State.entrySlot
  dsimp only
  split
  · exact h
  · refine .ite ?_ ?_
    · exact .ite h.openTest.feed h.openTest
    · refine .ite ?_ ?_
      · exact h.modEntry.feed
      · refine .feed ?_
        refine .ite ?_ ?_
        · refine .modEntry ?_
          exact .ite h.same h
        · refine .limitCheck (.modEntry ?_)
          exact .ite h.same h

theorem Keeps.sensorSample {k code : Nat} (h : Keeps w s t) : Keeps w s (t.sensorSample k code) := h.same

theorem Keeps.systemSlot {i channel : Nat} {x : Int} {stamp : Nat} (h : Keeps w s t) : Keeps w s (t.systemSlot i channel x stamp) := by
  unfold State.systemSlot
  refine .withHk ?_
  refine .ite ?_ ?_
  · refine .sensorSample ?_
    exact .ite h.same h
  · exact .ite h.same h

theorem Keeps.hkFrame {adc0 adc1 : List Int} (h : Keeps w s t) : Keeps w s (t.hkFrame adc0 adc1) := by
  unfold State.hkFrame
  refine .ite ?_ ?_
  · exact .ite h.frameStart (h.frameStart.hkCount.foldl fun _ _ h => h.entrySlot)
  · refine .foldl ?_ fun _ _ h => h.entrySlot
    refine .foldl ?_ fun _ _ h => h.systemSlot
    refine .hkCount ?_
    exact .ite h.frameStart (h.frameStart.hkCount.foldl fun _ _ h => h.entrySlot)

theorem Keeps.thermalAlarm {k : Nat} {x2 : Int} (h : Keeps w s t) : Keeps w s (t.thermalAlarm k x2) := by
  unfold State.thermalAlarm
  exact .ite h.wakeSource h.raise

theorem Keeps.sensorMean {k : Nat} {x2 : Int} (h : Keeps w s t) : Keeps w s (t.sensorMean k x2) := by
  unfold State.sensorMean
  refine .ite ?_ ?_
  · exact h
  · refine .ite ?_ ?_
    · refine .thermalAlarm (.withHk ?_)
      exact .ite h.same.raise (.ite h.same.raise h)
    · refine .ite ?_ ?_
      · refine .raise (.withHk ?_)
        exact .ite h.same.raise (.ite h.same.raise h)
      · exact .ite h.same.raise (.ite h.same.raise h)

theorem Keeps.thermalMean {x1 : Int} (h : Keeps w s t) : Keeps w s (t.thermalMean x1) := h.same

theorem Keeps.thermalEval (h : Keeps w s t) : Keeps w s t.thermalEval := by
  unfold State.thermalEval
  refine .ite ?_ ?_
  · exact h.same.foldl fun _ _ h => h.sensorMean
  · dsimp only
    split
    · refine .foldl ?_ fun _ _ h => ?_
      · refine .withHk ?_
        exact h.same.foldl fun _ _ h => h.sensorMean
      · exact .ite h.same h
    · refine .thermalMean ?_
      refine .foldl ?_ fun _ _ h => ?_
      · refine .withHk ?_
        exact h.same.foldl fun _ _ h => h.sensorMean
      · exact .ite h.same h

theorem Keeps.captureTrigger {n : Nat} (h : Keeps w s t) : Keeps w s (t.captureTrigger n) := by
  unfold State.captureTrigger
  split
  · exact h
  · split
    · refine .ite ?_ ?_
      · exact h
      · refine .modJob ?_
        exact .ite_snd h.same h
    · exact h

theorem Keeps.d3hot {on : Bool} (h : Keeps w s t) : Keeps w s (t.d3hot on) := by
  unfold State.d3hot
  exact .ite h.same (h.same.foldl fun _ _ h => h.same.foldl fun _ _ h => h.ringRespond)

theorem Keeps.gaugeSample (h : Keeps w s t) : Keeps w s t.gaugeSample := by
  unfold State.gaugeSample
  exact .ite h.binClose h.binClose.syncBins.modLog

theorem Keeps.rawSelect (h : Keeps w s t) : Keeps w s t.rawSelect := by
  unfold State.rawSelect
  exact h.foldl fun _ _ h => h.same

theorem Keeps.marksDue (h : Keeps w s t) : Keeps w s t.marksDue := by
  unfold State.marksDue
  exact .ite h (h.same.foldl fun _ _ h => h.raiseAt)

theorem Keeps.tick (h : Keeps w s t) : Keeps w s t.tick := h.same

theorem Keeps.lifeTick (h : Keeps w s t) : Keeps w s t.lifeTick := by
  unfold State.lifeTick
  exact .ite h h.same

theorem Keeps.idle (h : Keeps true s t) : Keeps true s t.idle := h.executeOldest.sendRelayed.lifeTick.tick.marksDue.rawSelect

end Sys2Proof.Proofs
end

section
/-!
SUPPORT and PROOFS. What every row of the table keeps (`exec_keeps`), and from it the invariants of the queue (R446), of the memories (R481)
and of the limits on jobs (R452), and that commands store no byte (R479).
-/
namespace Sys2Proof.Proofs
open Sys2Proof Sys2Proof.Machine Sys2Proof.Laws

set_option Elab.async false

/-- The rows that may change the bytes of a memory. -/
def writes : Instr → Bool
  | .multipointConfig _ | .reset _ | .jobStep _ | .porstNAssert | .sysrstNAssert | .supplyMonitorTrip _ _ | .thermalTrip _
  | .watchdogExpiry _ | .doubleLockstepFault | .resetCommandAssert _ | .lpddr6TrainingDone | .bootComplete | .imageBankCopy
  | .calBootDone _ _ _ _ _ | .scrubStep _ _ _ | .memoryRead _ _ _ _ _ _ | .powerTransitionDone _ _ _ | .powerEntryAborted _ _ _ _
  | .guideActiveTrap _ | .guideTakeover => true
  | _ => false

/-- Every row ends in a state that keeps what `Keeps` says. -/
theorem exec_keeps (i : Instr) (s : State) : ∃ u : State, exec i s = u.done ∧ Keeps (writes i) s u := by
  have h : ∀ {w : Bool}, Keeps w s s := .refl
  cases i with
  | getInfo _ => exact ⟨_, rfl, h.cmdGetInfo⟩
  | getVariant _ => exact ⟨_, rfl, h.cmdGetVariant⟩
  | jobStatus _ => exact ⟨_, rfl, h.cmdJobStatus⟩
  | jobCancel _ => exact ⟨_, rfl, h.cmdJobCancel⟩
  | setTenantPolicy _ => exact ⟨_, rfl, h.cmdSetTenantPolicy⟩
  | echo _ => exact ⟨_, rfl, h.cmdEcho⟩
  | engineConfig _ => exact ⟨_, rfl, h.cmdEngineConfig⟩
  | engineEnable _ => exact ⟨_, rfl, h.cmdEngineEnable⟩
  | engineDisable _ => exact ⟨_, rfl, h.cmdEngineDisable⟩
  | bitloadSet _ => exact ⟨_, rfl, h.cmdBitloadSet⟩
  | bitloadMeasure _ => exact ⟨_, rfl, h.cmdBitloadMeasure⟩
  | txRamp _ => exact ⟨_, rfl, h.cmdTxRamp⟩
  | captureSamples _ => exact ⟨_, rfl, h.cmdCaptureSamples⟩
  | multipointConfig _ => exact ⟨_, rfl, h.cmdMultipointConfig⟩
  | leafProfileSet _ => exact ⟨_, rfl, h.cmdLeafProfileSet⟩
  | passageOpen _ => exact ⟨_, rfl, h.cmdPassageOpen⟩
  | passageClose _ => exact ⟨_, rfl, h.cmdPassageClose⟩
  | passageQuery _ => exact ⟨_, rfl, h.cmdPassageQuery⟩
  | tableWrite _ => exact ⟨_, rfl, h.cmdTableWrite⟩
  | tableCommit _ => exact ⟨_, rfl, h.cmdTableCommit⟩
  | tableRead _ => exact ⟨_, rfl, h.cmdTableRead⟩
  | protectGroupSet _ => exact ⟨_, rfl, h.cmdProtectGroupSet⟩
  | keyLoadWrapped _ => exact ⟨_, rfl, h.cmdKeyLoadWrapped⟩
  | keyRetire _ => exact ⟨_, rfl, h.cmdKeyRetire⟩
  | cipherBind _ => exact ⟨_, rfl, h.cmdCipherBind⟩
  | cipherUnbind _ => exact ⟨_, rfl, h.cmdCipherUnbind⟩
  | kekRotate _ => exact ⟨_, rfl, h.cmdKekRotate⟩
  | refConfig _ => exact ⟨_, rfl, h.cmdRefConfig.syncTimeWords⟩
  | refStatus _ => exact ⟨_, rfl, h.cmdRefStatus⟩
  | loopConfig _ => exact ⟨_, rfl, h.cmdLoopConfig⟩
  | timeSet _ => exact ⟨_, rfl, h.cmdTimeSet⟩
  | domainJoin _ => exact ⟨_, rfl, h.cmdDomainJoin⟩
  | memFill _ => exact ⟨_, rfl, h.cmdMemFill⟩
  | scrubConfig _ => exact ⟨_, rfl, h.cmdScrubConfig⟩
  | memRepair _ _ => exact ⟨_, rfl, h.cmdMemRepair⟩
  | pageRetire _ => exact ⟨_, rfl, h.cmdPageRetire⟩
  | eccStatus _ => exact ⟨_, rfl, h.cmdEccStatus⟩
  | eventMask _ => exact ⟨_, rfl, h.cmdEventMask⟩
  | pmBinRead _ => exact ⟨_, rfl, h.cmdPmBinRead⟩
  | counterSnapshot _ => exact ⟨_, rfl, h.cmdCounterSnapshot⟩
  | lifeRead _ => exact ⟨_, rfl, h.cmdLifeRead⟩
  | leapTableSet _ _ => exact ⟨_, rfl, h.leapTableSet⟩
  | powerStateSet _ => exact ⟨_, rfl, h.cmdPowerStateSet⟩
  | perfLevelSet _ => exact ⟨_, rfl, h.cmdPerfLevelSet⟩
  | driplineConfig _ => exact ⟨_, rfl, h.cmdDriplineConfig⟩
  | belayRelease _ => exact ⟨_, rfl, h.cmdBelayRelease⟩
  | powerAccountRead _ => exact ⟨_, rfl, h.cmdPowerAccountRead⟩
  | reset _ => exact ⟨_, rfl, h.cmdReset⟩
  | fwUpdate _ => exact ⟨_, rfl, h.cmdFwUpdate⟩
  | fuseStatus _ => exact ⟨_, rfl, h.cmdFuseStatus⟩
  | ulinkConfig _ => exact ⟨_, rfl, h.cmdUlinkConfig⟩
  | ulinkStatus _ => exact ⟨_, rfl, h.cmdUlinkStatus⟩
  | hostPortConfig _ => exact ⟨_, rfl, h.cmdHostPortConfig⟩
  | hostTableLoad _ => exact ⟨_, rfl, h.cmdHostTableLoad⟩
  | flexeCalendarSet _ => exact ⟨_, rfl, h.cmdFlexeCalendarSet⟩
  | hkSequenceSet _ => exact ⟨_, rfl, h.cmdHkSequenceSet⟩
  | hkFilterSet _ => exact ⟨_, rfl, h.cmdHkFilterSet⟩
  | hkRead _ => exact ⟨_, rfl, h.cmdHkRead⟩
  | calPolicy _ => exact ⟨_, rfl, h.cmdCalPolicy⟩
  | calRun _ => exact ⟨_, rfl, h.cmdCalRun⟩
  | cmdqTailDoorbell _ _ => exact ⟨_, rfl, h.tailDoorbell⟩
  | ringFetch _ => exact ⟨_, rfl, h.ringFetch⟩
  | rspqHeadWrite _ _ => exact ⟨_, rfl, h.headWrite⟩
  | ringEnable _ _ _ => exact ⟨_, rfl, h.ringEnable⟩
  | ringReset _ => exact ⟨_, rfl, h.ringResetRow⟩
  | intStatusClear _ _ => exact ⟨_, rfl, h.intStatusRow⟩
  | rspReadyModeration _ => exact ⟨_, rfl, h.rspModeration⟩
  | evtRdWrite _ => exact ⟨_, rfl, h.evtRdRow⟩
  | chamberLoRead => exact ⟨_, rfl, h.chamberLoRead⟩
  | counterLowWordRead _ _ => exact ⟨_, rfl, h.counterLowRead⟩
  | bar0DarkRead _ _ => exact ⟨_, rfl, h.pcieRead⟩
  | registerWrite _ _ _ => exact ⟨_, rfl, h.registerWrite⟩
  | uncorrectableRegisterRead _ _ _ _ => exact ⟨_, rfl, h.uncorrectableRead⟩
  | packetWrite _ => exact ⟨_, rfl, h.packetWrite⟩
  | responseRead _ => exact ⟨_, rfl, h.responseRead⟩
  | statusRead => exact ⟨_, rfl, h.statusRead⟩
  | regRead _ => exact ⟨_, rfl, h.regRead⟩
  | regWrite _ _ => exact ⟨_, rfl, h.regWrite⟩
  | i2cPacketWrite _ => exact ⟨_, rfl, h.i2cPacketWrite⟩
  | i2cRead _ _ => exact ⟨_, rfl, h.i2cRead⟩
  | pciePerst => exact ⟨_, rfl, h.perst⟩
  | jobStep _ => exact ⟨_, rfl, h.executeOldest.jobStep⟩
  | jobComplete _ => exact ⟨_, rfl, h.jobComplete⟩
  | jobRecordExpiry => exact ⟨_, rfl, h.jobExpiry⟩
  | porstNAssert => exact ⟨_, rfl, h.porst⟩
  | sysrstNAssert => exact ⟨_, rfl, h.sysrst⟩
  | supplyMonitorTrip _ _ => exact ⟨_, rfl, h.supplyTrip⟩
  | thermalTrip _ => exact ⟨_, rfl, h.thermalTrip⟩
  | thermalTripRelease _ _ => exact ⟨_, rfl, h.thermalRelease⟩
  | watchdogExpiry _ => exact ⟨_, rfl, h.watchdog⟩
  | doubleLockstepFault => exact ⟨_, rfl, h.doubleLockstep⟩
  | resetCommandAssert _ => exact ⟨_, rfl, h.resetDue⟩
  | resetRelease _ _ => exact ⟨_, rfl, h.releaseReset⟩
  | fuseLoad _ => exact ⟨_, rfl, h.fuseLoad⟩
  | boardConfigRead => exact ⟨_, rfl, h.boardRead⟩
  | lpddr6TrainingDone => exact ⟨_, rfl, h.trainingDone⟩
  | imageAuthenticate => exact ⟨_, rfl, h.authenticate⟩
  | bootComplete => exact ⟨_, rfl, h.bootComplete.answerBad⟩
  | tableSwap => exact ⟨_, rfl, h.tableSwap⟩
  | passageFree _ => exact ⟨_, rfl, h.passageFree.revokeCheck⟩
  | imageBankCopy => exact ⟨_, rfl, h.bankCopied⟩
  | commitStaging _ => exact ⟨_, rfl, h.commitStaging⟩
  | timedStepIssue _ => exact ⟨_, rfl, h.timedStepIssue⟩
  | pairedCommitDecide => exact ⟨_, rfl, h.pairedDecide⟩
  | lineFrameSend _ => exact ⟨_, rfl, h.lineFrameSend⟩
  | lineFrameReceive _ _ => exact ⟨_, rfl, h.lineFrameReceive⟩
  | fecCodewordDecode _ _ _ _ => exact ⟨_, rfl, h.fecDecode⟩
  | domainMessageReceive => exact ⟨_, rfl, h.domainReceive⟩
  | timeStatusSend => exact ⟨_, rfl, h.timeStatusSend⟩
  | relayTimeout => exact ⟨_, rfl, h.relayTimeout⟩
  | lineLos _ _ => exact ⟨_, rfl, h.lineLos⟩
  | lineLosClear _ _ => exact ⟨_, rfl, h.lineLosClear⟩
  | frozenStateExpiry _ => exact ⟨_, rfl, h.frozenExpiry⟩
  | agcUpdate _ _ _ => exact ⟨_, rfl, h.agcUpdate⟩
  | rxAcquisitionStart _ => exact ⟨_, rfl, h.acqStart⟩
  | rxLock _ _ _ _ => exact ⟨_, rfl, h.rxLock⟩
  | rxAcqFail _ _ => exact ⟨_, rfl, h.acqFail⟩
  | warmAcquisitionTimeout _ => exact ⟨_, rfl, h.warmTimeout⟩
  | rxLockLost _ _ => exact ⟨_, rfl, h.rxLockLost⟩
  | snrWindowEnd _ => exact ⟨_, rfl, h.snrWindowEnd⟩
  | firstUseCommit _ => exact ⟨_, rfl, h.firstUseCommit⟩
  | rxCdRecentred _ => exact ⟨_, rfl, h.cdRecentre⟩
  | lineCdOutOfSpan _ => exact ⟨_, rfl, h.cdOut⟩
  | lineCdInSpan _ => exact ⟨_, rfl, h.cdIn⟩
  | lineAdcOvr _ => exact ⟨_, rfl, h.adcOvr⟩
  | adcClampEngage _ _ => exact ⟨_, rfl, h.clampOn⟩
  | adcClampRelease _ _ => exact ⟨_, rfl, h.same⟩
  | rxFrontendLimit _ _ _ _ _ => exact ⟨_, rfl, h.frontendLimit⟩
  | txFrontendStep _ => exact ⟨_, rfl, h.frontendStep⟩
  | dacClipHigh _ => exact ⟨_, rfl, h.dacClip⟩
  | carrierDriverOn _ => exact ⟨_, rfl, h.carrierDriverOn⟩
  | carrierRampStart _ => exact ⟨_, rfl, h.carrierRampStart⟩
  | carrierRampEnd _ => exact ⟨_, rfl, h.carrierRampEnd⟩
  | carrierLaserOff _ => exact ⟨_, rfl, h.carrierLaserOff⟩
  | blockIngress _ _ => exact ⟨_, rfl, h.blockIngress⟩
  | blockEgress _ _ => exact ⟨_, rfl, h.blockEgress⟩
  | hostPortUp _ _ => exact ⟨_, rfl, h.hostPortUp⟩
  | hostPortDown _ _ _ => exact ⟨_, rfl, h.hostPortDown⟩
  | hostPortTimeout _ _ => exact ⟨_, rfl, h.hostPortTimeout⟩
  | hostFecWindowEnd _ _ _ => exact ⟨_, rfl, h.hostFecWindow⟩
  | hostAdaptLimit _ _ => exact ⟨_, rfl, h.hostAdaptLimit⟩
  | txTapStep _ _ _ _ => exact ⟨_, rfl, h.txTapStep⟩
  | flexeCalSwitch _ => exact ⟨_, rfl, h.flexeCalSwitch⟩
  | flexeCalTimeout _ => exact ⟨_, rfl, h.flexeCalTimeout⟩
  | flexeCalRequest _ _ => exact ⟨_, rfl, h.flexeCalRequest⟩
  | flexeGroupDown _ _ _ _ => exact ⟨_, rfl, h.flexeGroupDown⟩
  | flexeGroupUp _ => exact ⟨_, rfl, h.flexeGroupUp⟩
  | protectSelect _ => exact ⟨_, rfl, h.protectSelect⟩
  | protectRevert _ => exact ⟨_, rfl, h.protectRevert⟩
  | protectSkewClear _ => exact ⟨_, rfl, h.protectSkewClear⟩
  | cipherSegment _ _ _ => exact ⟨_, rfl, h.cipherSegment⟩
  | cipherPairSelftestDone _ _ => exact ⟨_, rfl, h.pairSelftestDone⟩
  | cipherTagCheck _ _ => exact ⟨_, rfl, h.cipherTagCheck⟩
  | keySlotRelease _ => exact ⟨_, rfl, h.keySlotRelease⟩
  | cipherRekeyed _ => exact ⟨_, rfl, h.cipherRekeyed⟩
  | cipherKeyAge _ => exact ⟨_, rfl, h.cipherKeyAge⟩
  | refInputLost _ _ => exact ⟨_, rfl, h.refLost⟩
  | refInputPresent _ => exact ⟨_, rfl, h.refPresent⟩
  | refQualified _ => exact ⟨_, rfl, h.refQualified⟩
  | refSecondEval _ _ => exact ⟨_, rfl, h.secondEval⟩
  | loopNarrowStep => exact ⟨_, rfl, h.loopNarrow⟩
  | oscOffsetWrite _ _ => exact ⟨_, rfl, h.oscWrite⟩
  | ppsInEdge => exact ⟨_, rfl, h.ppsEdge⟩
  | qlTimeout _ => exact ⟨_, rfl, h.qlTimeout⟩
  | timePartnerOffset _ _ => exact ⟨_, rfl, h.partnerOffset⟩
  | timeElasticSlip _ _ => exact ⟨_, rfl, h.elasticSlip⟩
  | domainJoinApply => exact ⟨_, rfl, h.domainJoinApply⟩
  | burstSync _ _ _ _ _ => exact ⟨_, rfl, h.burstSync⟩
  | burstHeader _ _ _ => exact ⟨_, rfl, h.burstHeader⟩
  | burstDecode _ _ _ => exact ⟨_, rfl, h.burstDecode⟩
  | windowMissed _ _ _ _ _ => exact ⟨_, rfl, h.windowMissed⟩
  | leafBurstSend _ _ _ _ => exact ⟨_, rfl, h.leafBurstSend⟩
  | calBootDone _ _ _ _ _ => exact ⟨_, rfl, h.islandsUp.calBootDone⟩
  | calTrigger _ _ _ _ _ => exact ⟨_, rfl, h.calTriggerRow⟩
  | calStepEnd _ _ _ => exact ⟨_, rfl, h.calStepEnd⟩
  | sliceWindowEval _ _ _ _ => exact ⟨_, rfl, h.sliceWindow⟩
  | scrubStep _ _ _ => exact ⟨_, rfl, h.scrubStep⟩
  | memoryRead _ _ _ _ _ _ => exact ⟨_, rfl, h.memoryRead⟩
  | eccBucketLeak => exact ⟨_, rfl, h.bucketLeak⟩
  | memRepairSwitch _ _ => exact ⟨_, rfl, h.repairSwitch⟩
  | pageRetireSwitch _ _ => exact ⟨_, rfl, h.pageSwitch⟩
  | eventRecordWrite _ _ _ _ => exact ⟨_, rfl, h.eventWrite⟩
  | logOverflow => exact ⟨_, rfl, h.logOverflow⟩
  | snapshotFreeze => exact ⟨_, rfl, h.snapshotFreeze⟩
  | pmBinClose => exact ⟨_, rfl, h.binClose⟩
  | lifeRecordWrite _ => exact ⟨_, rfl, h.lifeRecordWrite⟩
  | leapTableStale => exact ⟨_, rfl, h.leapStale⟩
  | powerTransitionDone _ _ _ => exact ⟨_, rfl, h.transitionDone⟩
  | powerEntryAborted _ _ _ _ => exact ⟨_, rfl, h.abortTransition⟩
  | wakeSource _ _ _ _ _ => exact ⟨_, rfl, h.wakeSource⟩
  | driplineCycle _ _ _ => exact ⟨_, rfl, h.driplineCycle⟩
  | perfLevelChange _ _ _ _ => exact ⟨_, rfl, h.perfLevelChange⟩
  | vTrimRecompute _ _ => exact ⟨_, rfl, h.vTrimRecompute⟩
  | pmAlert _ _ => exact ⟨_, rfl, h.pmAlert⟩
  | pmbusTelemetryPoll _ => exact ⟨_, rfl, h.pmbusPoll⟩
  | guideActiveTrap _ => exact ⟨_, rfl, h.guideTrap⟩
  | guideTakeover => exact ⟨_, rfl, h.takeOver⟩
  | guideStandbyTrap _ => exact ⟨_, rfl, h.standbyTrap⟩
  | guideStandbyReady _ => exact ⟨_, rfl, h.standbyReady⟩
  | ulinkLaneLock _ _ _ _ => exact ⟨_, rfl, h.ulLaneLock⟩
  | ulinkFrameSend _ _ => exact ⟨_, rfl, h.ulFrameSend⟩
  | ulinkFrameReceive _ _ => exact ⟨_, rfl, h.ulFrameReceive⟩
  | ulinkPortTimeout _ => exact ⟨_, rfl, h.ulTimeout⟩
  | ulinkRefclkMeasure _ _ => exact ⟨_, rfl, h.refclkMeasure⟩
  | hkFrame _ _ => exact ⟨_, rfl, h.hkFrame⟩
  | hkThermalEval => exact ⟨_, rfl, h.thermalEval⟩
  | captureTrigger _ => exact ⟨_, rfl, h.captureTrigger⟩
  | pcieD3hotTransition _ => exact ⟨_, rfl, h.d3hot⟩
  | pmGaugeSample => exact ⟨_, rfl, h.gaugeSample⟩
  | tapInstructionUpdate _ => exact ⟨_, rfl, h.same⟩

/-- A row that is executed keeps all that `Keeps` says. -/
theorem keeps_of_exec {i : Instr} {s t : State} (h : exec i s = .next t) : Keeps (writes i) s t := by
  obtain ⟨u, hu, hk⟩ := exec_keeps i s
  obtain rfl : u.sendRelayed = t := by simpa [hu, done_eq] using h
  exact hk.sendRelayed

/-- A step keeps the canonical form of the memories and the limits on jobs, and leaves the commands behind the front one. -/
theorem step_keeps {s t : State} (h : step s = .next t) : Keeps true { s with pending := s.pending.tail } t := by
  rw [step] at h
  split at h
  case h_1 hp =>
    obtain rfl : s.idle = t := by simpa using h
    have hs : { s with pending := s.pending.tail } = s := by
      rw [hp, List.tail_nil, ← hp]
    rw [hs]
    exact Keeps.refl.idle
  case h_2 c cs hp =>
    have hk := keeps_of_exec h
    rw [hp, List.tail_cons]
    exact ⟨hk.queue, hk.canonical, nofun, hk.limits⟩

/-- Settles O58: no operation of the model touches the queue. -/
theorem commandsRunInOrder : Obligations.CommandsRunInOrder := by
  unfold Obligations.CommandsRunInOrder
  exact fun s t h => (step_keeps h).queue

/-- Settles O59: what writes memory writes through `writeL` or drops bytes, and both keep the form. -/
theorem memoryStaysCanonical : Obligations.MemoryStaysCanonical := by
  unfold Obligations.MemoryStaysCanonical
  exact fun s t hm h => (step_keeps h).canonical hm

/-- Settles O60: a job starts only behind the check for room, and no operation makes an ended one run again. -/
theorem jobLimitsHold : Obligations.JobLimitsHold := by
  unfold Obligations.JobLimitsHold
  exact fun s t hall hown h => (step_keeps h).limits ⟨hall, hown⟩

/-- The commands other than RESET and MULTIPOINT_CONFIG are no rows that write. -/
theorem otherCommands_writes (q : Request) (ok : Bool) : ∀ c ∈ otherCommands q ok, writes c = false := by
  simp [otherCommands, writes]

/-- Settles O55: such a command changes what the memories count, never their bytes. -/
theorem commandsStoreNoByte : Obligations.CommandsStoreNoByte := by
  unfold Obligations.CommandsStoreNoByte
  intro s t q ok c hc h key addr
  rw [(keeps_of_exec h).bytes (otherCommands_writes q ok c hc) key]

end Sys2Proof.Proofs
end

section
/-!
SUPPORT and PROOFS. Jobs and tenants: JOB_CANCEL, JOB_COMPLETE and the expiry of records (R454, R456), SET_TENANT_POLICY (R458 to R462).
-/
namespace Sys2Proof.Proofs
open Sys2Proof Sys2Proof.Machine Sys2Proof.Laws

set_option Elab.async false

/-- What each change leaves, a run of changes leaves. -/
theorem foldl_leaves {α β : Type} (g : State → β) {f : State → α → State} {l : List α} {s : State}
    (h : ∀ u a, g (f u a) = g u := by exact fun _ _ => rfl) : g (l.foldl f s) = g s :=
  foldl_keeps (fun u => g u = g s) f (fun u a hu => (h u a).trans hu) l s rfl

/-! Tenants. -/

/-- The policy set is in force. -/
theorem policy_setPolicyOf_self (s : State) {t : Nat} (ht : t ≠ 0) (p : Policy) : (s.setPolicyOf t p).policy t = p := by
  rw [State.policy, if_neg ht, setPolicyOf_com, tgetD_tput_self]

/-- Setting a tenant's policy leaves the other policies. -/
theorem policy_setPolicyOf_ne (s : State) {t k : Nat} (hk : k ≠ t) (p : Policy) : (s.setPolicyOf t p).policy k = s.policy k := by
  rw [State.policy, State.policy, setPolicyOf_com, tgetD_tput_ne _ _ _ hk]

/-- The list of policies decides the policy in force. -/
theorem policy_congr {s t : State} (h : t.com.policies = s.com.policies) (k : Nat) : t.policy k = s.policy k := by
  rw [State.policy, State.policy, h]

/-- Stopping the runs of a calibration job changes the engines alone. -/
theorem cancelRuns_restore (s : State) (n : Nat) (left : List Nat) : { s.cancelRuns n left with engs := s.engs } = s := by
  unfold State.cancelRuns
  refine foldl_keeps (fun u : State => { u with engs := s.engs } = s) _ (fun u c h => ?_) left s rfl
  exact h

/-- Stopping a job marks it, and changes the engines besides. -/
theorem cancelJob_restore (s : State) (j : Job) :
    { s.cancelJob j with engs := s.engs } = s.modJob j.token fun j => { j with cancel := true } := by
  unfold State.cancelJob
  dsimp only
  split
  · exact cancelRuns_restore (s.modJob j.token _) ..
  · rfl

/-- Stopping a job leaves the policies. -/
theorem cancelJob_policies (s : State) (j : Job) : (s.cancelJob j).com.policies = s.com.policies := by
  have h := congrArg (fun t : State => t.com.policies) (cancelJob_restore s j)
  exact h

/-- Closing a passage of a revoked tenant leaves the policies. -/
theorem revokeClose_policies (s : State) (e : Nat × Passage) : (s.revokeClose e).com.policies = s.com.policies := by
  unfold State.revokeClose
  split <;> rfl

/-- Emptying a tenant's key slots leaves the policies. -/
theorem dropKeys_policies (s : State) (t : Nat) : (s.dropKeys t).com.policies = s.com.policies := by
  unfold State.dropKeys
  exact foldl_leaves fun u => u.com.policies

/-- What is due of the revocations leaves the policies. -/
theorem revokeCheck_policies (s : State) : s.revokeCheck.com.policies = s.com.policies := by
  unfold State.revokeCheck
  exact foldl_leaves (fun u => u.com.policies) fun u r => dropKeys_policies u r.1

/-- What a revocation does before it takes the policy: closes, unbinds and stops. -/
def revokeStops (s : State) (t : Nat) : State :=
  let s := (s.passagesOf t).foldl State.revokeClose s
  let bound := (s.cip.prepared.filter fun b => b.1.1 == t).map Prod.snd
  let s := s.modCip fun c => { c with prepared := c.prepared.filter fun b => b.1.1 != t }
  let s := bound.foldl (fun (s : State) k => s.keyTo k .loaded) s
  (s.jobsOf t).foldl State.cancelJob s

/-- Closing, unbinding and stopping leave the policies. -/
theorem revokeStops_policies (s : State) (t : Nat) : (revokeStops s t).com.policies = s.com.policies := by
  unfold revokeStops
  dsimp only
  rw [foldl_leaves (fun u => u.com.policies) cancelJob_policies, foldl_leaves fun u => u.com.policies]
  exact foldl_leaves (fun u => u.com.policies) revokeClose_policies

/-- A revocation takes the tenant's policy and no other. -/
theorem revoke_policies (s : State) (t : Nat) :
    (s.revoke t).1.com.policies = tput (revokeStops s t).com.policies t {} := by
  rw [State.revoke]
  simp only [raise_comFrame, revokeCheck_policies]
  rfl

/-- After a revocation the tenant has the policy of a tenant that is not enabled, and the others have theirs. -/
theorem policy_revoke (s : State) {t : Nat} (ht : t ≠ 0) :
    (s.revoke t).1.policy t = {} ∧ ∀ k, k ≠ t → (s.revoke t).1.policy k = s.policy k := by
  constructor
  · rw [State.policy, if_neg ht, revoke_policies, tgetD_tput_self]
  · intro k hk
    rw [State.policy, revoke_policies, tgetD_tput_ne _ _ _ hk, revokeStops_policies, State.policy]

/-- Settles O4, ACTION by ACTION. -/
theorem tenantPolicyComplete : Obligations.TenantPolicyComplete := by
  unfold Obligations.TenantPolicyComplete
  refine ⟨?sets, ?reads, ?revokes⟩
  case sets =>
    rintro s q h h0 hl h1 h15 hact hen h3 humran h7 h36 hquota hbusy
    have ht : q.u 0 1 ≠ 0 := by omega
    refine ⟨s.accepted.setPolicyOf (q.u 0 1) (policyOf q), _, ?_, policy_setPolicyOf_self _ ht _,
      fun k hk => policy_setPolicyOf_ne _ hk _, rfl, rfl⟩
    show (s.cmdSetTenantPolicy q).done = _
    simp only [State.cmdSetTenantPolicy, hact, hl]
    refine serve_done_of_run h ?_ (by rw [if_neg ht]; rfl)
    have hkeys : (policyOf q).keyQuota ≤ 1024 ∨ (policyOf q).keyQuota = 0xFFFF := hquota
    have hports : (policyOf q).umranUse ≤ 15 := humran
    rcases hkeys with hk | hk <;> simp [ht, h0, h15, hen, h3, h7, h36, hbusy, hports, hk]
  case reads =>
    rintro s q h hon htenant hl h15 hact hz
    show (s.cmdSetTenantPolicy q).done = _
    simp only [State.cmdSetTenantPolicy, hact, hl]
    refine serve_done_of_run h ?_ rfl
    by_cases hm : q.tenant = q.u 0 1
    · have hen : (s.policy (q.u 0 1)).enabled = true := by
        rw [← hm]
        exact hon
      simp [Nat.not_lt.mpr h15, hz, hm, State.disabled, hen]
    · have h0 := htenant.resolve_right hm
      simp [Nat.not_lt.mpr h15, hz, h0, h0 ▸ hm]
  case revokes =>
    rintro s q h h0 hl h1 h15 hact hz
    have ht : q.u 0 1 ≠ 0 := by omega
    obtain ⟨hself, hothers⟩ := policy_revoke s.accepted ht
    refine ⟨(s.accepted.revoke (q.u 0 1)).1, (s.accepted.revoke (q.u 0 1)).2, ?_, hself, hothers⟩
    show (s.cmdSetTenantPolicy q).done = _
    simp only [State.cmdSetTenantPolicy, hact, hl]
    refine serve_done_of_run h ?_ rfl
    simp [ht, h0, h15, hz]

/-! Jobs. -/

/-- A command that is taken, passes its checks and waits for its answer. -/
theorem serve_done_of_wait {s u : State} {op : Nat} {q : Request} {size : Nat} {checks : List Check}
    {run : State → State × Option (List Byte)} (h : s.takes op q) (hc : s.judge checks = none) (hr : run s.accepted = (u, none)) :
    (s.serve op q size true checks run).done = .next (u.defer op q).sendRelayed := by
  rw [serve_run h rfl hc, hr, done_eq]

/-- JOB_CANCEL passes its checks for a token of the tenant's own, but that of a KEK_ROTATE under way. -/
theorem judge_jobCancel {s : State} {q : Request} {j : Job} (ht : s.tenantOn q) (ho : q.u 0 4 / 2 ^ 28 = q.tenant)
    (hk : (j.op == 0x0405 && j.ended.isNone) = false) :
    s.judge [s.anyTenant q, .bad (some j).isNone .badParam 0, .bad (foreignToken q) .notOwner 0,
      .bad (match some j with | some j => j.op == 0x0405 && j.ended.isNone | none => false) .notPermitted 0] = none := by
  rw [judge_anyTenant ht]
  simp [foreignToken, show q.u 0 4 / 268435456 = q.tenant from ho, hk]

/-- A running job that JOB_CANCEL names, and the request that waits for its stop. -/
def cancelWaits (s : State) (j : Job) (q : Request) : State :=
  let s := s.cancelJob j
  { s with jobs := { s.jobs with waits := s.jobs.waits ++ [(j.token, q)] } }

/-- Of the jobs, JOB_CANCEL marks the one named and keeps the request. -/
theorem cancelWaits_jobs (s : State) (j : Job) (q : Request) :
    (cancelWaits s j q).jobs =
      { (s.modJob j.token fun j => { j with cancel := true }).jobs with waits := s.jobs.waits ++ [(j.token, q)] } := by
  have hj : (s.cancelJob j).jobs = (s.modJob j.token fun j => { j with cancel := true }).jobs := by
    have h := congrArg State.jobs (cancelJob_restore s j)
    exact h
  rw [cancelWaits, hj]
  rfl

/-- JOB_CANCEL leaves the log, the memories and the command interface. -/
theorem cancelWaits_frame (s : State) (j : Job) (q : Request) :
    (cancelWaits s j q).log = s.log ∧ (cancelWaits s j q).mem = s.mem ∧ (cancelWaits s j q).com = s.com := by
  have h := congrArg (fun t : State => (t.log, t.mem, t.com)) (cancelJob_restore s j)
  simpa [cancelWaits] using h

/-- JOB_COMPLETE of a job whose work is done, before the waiting cancels are answered. -/
theorem jobComplete_of_finish {s : State} {token : Nat} {j : Job} {f : Nat × List Byte} (hj : s.job token = some j) (he : j.ended = none)
    (hf : j.finish = some f) : s.jobComplete token = s.endJob token f.1 j.cancel f.2 := by
  rw [State.jobComplete, hj]
  simp [he, hf]

/-- A job with its record (R454). -/
def withEnd (e : JobEnd) (j : Job) : Job := { j with ended := some e, finish := none, cancel := false }

/-- What the end of a running job leaves of the jobs and of memory. -/
theorem endJob_writes {s : State} {token : Nat} {j : Job} (hj : s.job token = some j) (he : j.ended = none) (outcome : Nat)
    (cancelled : Bool) (result : List Byte) :
    (s.endJob token outcome cancelled result).jobs =
      { s.jobs with
        list := s.jobs.list.map fun j =>
          if j.token = token then withEnd (JobEnd.mk outcome cancelled result s.chamber s.mono s.jobs.ended) j else j
        ended := s.jobs.ended + 1
        waits := s.jobs.waits.filter fun w => w.1 != token } ∧
    (s.endJob token outcome cancelled result).mem = s.mem := by
  have hrun : j.ended.isSome = false := by simp [he]
  rw [State.endJob, hj]
  dsimp only
  rw [hrun, if_neg Bool.false_ne_true, foldl_leaves State.jobs (by simp), foldl_leaves State.mem (by simp)]
  simp [withEnd]

/-- A record stays that ended less than 60 s ago and before fewer than 65 later ones. -/
theorem mem_jobExpiry (s : State) (j : Job) : j ∈ s.jobExpiry.jobs.list ↔ j ∈ s.jobs.list ∧
    ∀ e, j.ended = some e → s.mono < e.at_ + 60 * secQ ∧ s.jobs.ended < e.order + 65 := by
  cases he : j.ended <;> simp [State.jobExpiry, he, State.since]

/-- JOB_CANCEL of a job that has ended. -/
theorem exec_jobCancel_ended {s : State} {q : Request} {j : Job} (h : s.takes 0x0104 q) (ht : s.tenantOn q) (hl : q.len = 4)
    (hj : s.job (q.u 0 4) = some j) (ho : q.u 0 4 / 2 ^ 28 = q.tenant) (he : j.ended.isSome = true) :
    exec (.jobCancel q) s = .next (s.accepted.answer 0x0104 q [0, 0, 0, 0]) := by
  show (s.cmdJobCancel q).done = _
  rw [State.cmdJobCancel, hl, hj]
  exact serve_done_of_run h (judge_jobCancel ht ho (by simp [he])) (by simp [he, okay4])

/-- JOB_CANCEL of a job that runs. -/
theorem exec_jobCancel_running {s : State} {q : Request} {j : Job} (h : s.takes 0x0104 q) (ht : s.tenantOn q) (hl : q.len = 4)
    (hj : s.job (q.u 0 4) = some j) (ho : q.u 0 4 / 2 ^ 28 = q.tenant) (he : j.ended = none) (hop : j.op ≠ 0x0405) :
    exec (.jobCancel q) s = .next ((cancelWaits s.accepted j q).defer 0x0104 q).sendRelayed := by
  show (s.cmdJobCancel q).done = _
  rw [State.cmdJobCancel, hl, hj]
  exact serve_done_of_wait h (judge_jobCancel ht ho (by simp [hop])) (by simp [he, cancelWaits])

/-- The jobs decide what a token finds. -/
theorem job_congr {s t : State} (h : t.jobs = s.jobs) (token : Nat) : t.job token = s.job token := by
  rw [State.job, State.job, h]

/-- The token of a job that a cancel marks finds the marked job. -/
theorem job_cancelWaits {s : State} {j : Job} {token : Nat} (hj : s.job token = some j) (q : Request) :
    (cancelWaits s j q).job token = some { j with cancel := true } := by
  rw [State.job, cancelWaits_jobs, job_token hj]
  exact find_modJob (fun j => by rw [Job.token, Job.token]) hj

/-- The token of a job that ends finds the job with its record. -/
theorem job_endJob {s : State} {token : Nat} {j : Job} (hj : s.job token = some j) (he : j.ended = none) (outcome : Nat)
    (cancelled : Bool) (result : List Byte) :
    (s.endJob token outcome cancelled result).job token =
      some (withEnd (JobEnd.mk outcome cancelled result s.chamber s.mono s.jobs.ended) j) := by
  rw [State.job, (endJob_writes hj he outcome cancelled result).1]
  exact find_modJob (fun j => by rw [Job.token, Job.token, withEnd]) hj

/-- Settles O3: a cancel answers or waits, an end writes the record and answers, and an expiry drops what is old. -/
theorem jobsComplete : Obligations.JobsComplete := by
  unfold Obligations.JobsComplete
  refine ⟨fun s q j => exec_jobCancel_ended, ?running, ?completes, ?expiry⟩
  case running =>
    rintro s q j h ht hl hj ho he hop
    have hjobs := cancelWaits_jobs s.accepted j q
    obtain ⟨hlog, hmem, hcom⟩ := cancelWaits_frame s.accepted j q
    refine ⟨_, exec_jobCancel_running h ht hl hj ho he hop, ?_, ?_, ?_, ?_, ?_, ?_⟩
    · rw [job_congr (s := cancelWaits s.accepted j q) (by simp)]
      exact job_cancelWaits (s := s.accepted) hj q
    · simp [hjobs, job_token hj]
    · simp [hjobs]
    · simpa using hlog
    · simpa using hmem
    · simp [hcom]
  case completes =>
    rintro s token j f hj he hf
    obtain ⟨hjobs, hmem⟩ := endJob_writes hj he f.1 j.cancel f.2
    refine ⟨(s.jobComplete token).sendRelayed, rfl, ?_⟩
    rw [jobComplete_of_finish hj he hf, job_congr (s := s.endJob token f.1 j.cancel f.2) (by simp), job_endJob hj he]
    refine ⟨rfl, ?_, ?_, ?_⟩
    · simp [hjobs]
    · simp [hjobs]
    · simpa using hmem
  case expiry =>
    intro s hs
    exact ⟨s.jobExpiry, done_of_settled hs, rfl, mem_jobExpiry s⟩

end Sys2Proof.Proofs
end

section
/-!
SUPPORT and PROOFS. RESET, FUSE_STATUS and FW_UPDATE where they pass their checks (R582 to R585, R589, R601 to R603).
-/
namespace Sys2Proof.Proofs
open Sys2Proof Sys2Proof.Machine Sys2Proof.Laws

set_option Elab.async false

/-! RESET. -/

/-- RESET of the device is due from now on. -/
theorem exec_reset_device {s : State} {q : Request} (h : s.takes 0x0901 q) (h0 : q.tenant = 0) (hl : q.len = 8) (hs : q.u 0 1 = 0)
    (hz : q.rsv 1 7 = true) :
    exec (.reset q) s = .next ({ s.accepted with boot := { s.boot with resetDue := some s.mono } }.answer 0x0901 q [0, 0, 0, 0]) := by
  have h1 : q.rsv 1 1 = true := rsv_mono hz
  have h4 : q.rsv 4 4 = true := rsv_mono hz
  have hu : q.u 2 2 = 0 := u_of_rsv (rsv_mono hz)
  show (s.cmdReset q).done = _
  simp only [State.cmdReset, hs, hl]
  refine serve_done_of_run h ?_ rfl
  simp [h1, h4, hu, h0, State.firstDark]

/-- Filling an island's memories changes the memories alone. -/
theorem fillIsland_restore (s : State) (i : Nat) : { s.fillIsland i with mem := s.mem } = s := by
  have hunits : ∀ (l : List Nat) (f : Nat → MemInst → MemInst),
      { l.foldl (fun (t : State) u => t.modInst (2 * u) (f u)) s with mem := s.mem } = s := fun l f => by
    refine foldl_keeps (fun t : State => { t with mem := s.mem } = s) _ (fun t u h => ?_) l s rfl
    exact h
  unfold State.fillIsland
  dsimp only
  split
  · exact hunits ..
  · exact hunits ..

/-- Clearing an island's memories changes the memories alone. -/
theorem clearMemories_restore (s : State) (i : Nat) : { s.clearMemories i with mem := s.mem } = s := by
  unfold State.clearMemories
  split <;> rfl

/-- The parts of the state that an island reset names besides memories and counters. -/
def resetView (s : State) : Tab Engine × Tab Passage × Power × Timing × Boot := (s.engs, s.pas, s.power, s.tim, s.boot)

/-- Clearing an engine's island gives the engine its reset values but for its power settings. -/
theorem clearIsland_engine (s : State) {n : Nat} (hn : n ≤ 7) :
    resetView ((s.clearIsland (islEng n)).fillIsland (islEng n)) =
      (tput s.engs n { ({} : Engine) with pwr := (s.eng n).pwr }, s.pas, s.power, s.tim, s.boot) := by
  have hi : islandEngine (islEng n) = some n := by
    rw [islandEngine, if_pos (by rw [islEng]; omega), islEng, Nat.add_sub_cancel_left]
  have hfill := congrArg resetView (fillIsland_restore (s.clearIsland (islEng n)) (islEng n))
  have hmem := congrArg resetView (clearMemories_restore ((s.clearRegs (islEng n)).clearCounters (islEng n)) (islEng n))
  have hregs : resetView (s.clearRegs (islEng n)) =
      (tput s.engs n { ({} : Engine) with pwr := (s.eng n).pwr }, s.pas, s.power, s.tim, s.boot) := by
    rw [State.clearRegs, hi]
    rfl
  exact (hfill.trans hmem).trans hregs

/-- The cause of an island reset is noted (R584). -/
def causeNoted (s : State) (n : Nat) : State :=
  { s with boot := { s.boot with cause := 7, scope := 1, unit := islEng n * 256 + 0xFE } }

/-- The unit that names an engine's island. -/
theorem engineUnit (n : Nat) : unitIndex (islEng n * 256 + 0xFE) = 0xFE ∧ unitIsland (islEng n * 256 + 0xFE) = islEng n := by
  rw [unitIndex, unitIsland, islEng]
  omega

/-- An island reset of an engine, part by part. -/
theorem resetTarget_engine_eq (s : State) {n : Nat} (hn : n ≤ 7) :
    s.resetTarget (islEng n * 256 + 0xFE) =
      ((((causeNoted s n).clearIsland (islEng n)).fillIsland (islEng n)).modCal n fun _ => {}).raise islLamp .islandReset (islEng n)
        (le 1 7) := by
  obtain ⟨hx, hi⟩ := engineUnit n
  have hcal : 3 ≤ islEng n ∧ islEng n ≤ 10 := by
    rw [islEng]
    omega
  have hn3 : islEng n - 3 = n := Nat.add_sub_cancel_left 3 n
  simp only [State.resetTarget, hx, hi, if_true, if_pos hcal, State.needBootCal, hn3]
  rfl

/-- An island reset of an engine: the engine has its reset values but for its power settings, and the cause is noted. -/
theorem resetTarget_engine (s : State) {n : Nat} (hn : n ≤ 7) :
    (s.resetTarget (islEng n * 256 + 0xFE)).eng n = { ({} : Engine) with pwr := (s.eng n).pwr } ∧
    (∀ k, k ≠ n → (s.resetTarget (islEng n * 256 + 0xFE)).eng k = s.eng k) ∧
    (s.resetTarget (islEng n * 256 + 0xFE)).boot = (causeNoted s n).boot ∧
    (s.resetTarget (islEng n * 256 + 0xFE)).pas = s.pas ∧ (s.resetTarget (islEng n * 256 + 0xFE)).power = s.power ∧
    (s.resetTarget (islEng n * 256 + 0xFE)).tim = s.tim := by
  have hclear := clearIsland_engine (causeNoted s n) hn
  simp only [resetView, Prod.mk.injEq] at hclear
  obtain ⟨hengs, hpas, hpower, htim, hboot⟩ := hclear
  rw [resetTarget_engine_eq s hn]
  refine ⟨?_, fun k hk => ?_, ?_, ?_, ?_, ?_⟩
  · simp [State.eng, hengs]
    rfl
  · simp [State.eng, hengs, tgetD_tput_ne _ _ _ hk]
    rfl
  · simpa using hboot
  · simpa [causeNoted] using hpas
  · simpa [causeNoted] using hpower
  · simpa [causeNoted] using htim

/-- RESET of an engine's island that is idle. -/
theorem exec_reset_engine {s : State} {q : Request} {n : Nat} (h : s.takes 0x0901 q) (h0 : q.tenant = 0) (hl : q.len = 8) (hn : n ≤ 7)
    (hs : q.u 0 1 = 1) (hu : q.u 2 2 = islEng n * 256 + 0xFE) (h1 : q.rsv 1 1 = true) (h4 : q.rsv 4 4 = true)
    (hd : s.dark (islEng n * 256 + 0xFE) = none) (hidle : s.idleReason (islEng n) = none) :
    exec (.reset q) s = .next ((s.accepted.resetTarget (islEng n * 256 + 0xFE)).answer 0x0901 q [0, 0, 0, 0]) := by
  obtain ⟨hx, hi⟩ := engineUnit n
  have hisl : islEng n ≤ 14 ∧ 3 ≤ islEng n ∧ islEng n ≤ 11 := by
    rw [islEng]
    omega
  obtain ⟨h14, h3, h11⟩ := hisl
  have hbusy : s.resetBusy (islEng n * 256 + 0xFE) = none := by
    rw [State.resetBusy, if_pos hx, hi, hidle]
    rfl
  have hmay : s.resettable (islEng n * 256 + 0xFE) = true := by
    simp [State.resettable, hx, hi, h3, h11]
  show (s.cmdReset q).done = _
  simp only [State.cmdReset, hs, hl, hu]
  refine serve_done_of_run h ?_ rfl
  rw [judge_bad_cons, if_neg (by decide), judge_lit_cons hd, judge_lit_nil]
  · simp [h0, hmay, hbusy]
  · simp [h1, h4, hx, hi, h14]

/-! FUSE_STATUS. -/

/-- FUSE_STATUS answers with its layout (R589). -/
theorem exec_fuseStatus {s : State} {q : Request} (h : s.takes 0x0903 q) (ht : s.tenantOn q) (hl : q.len = 0) :
    exec (.fuseStatus q) s = .next (s.accepted.answer 0x0903 q
      (le 1 0 ++ le 1 (bit s.variant.fuseValid) ++ le 1 s.boot.loads ++ le 1 s.boot.failCause ++ le 4 s.boot.firstBad ++
        le 2 s.boot.spareRows ++ le 2 (s.store.repair.rows.length + s.store.repair.pages.length + s.store.repair.convs.length) ++
        le 1 (bit s.boot.rootKey) ++ le 1 s.variant.dieStep ++ zeros 2 ++
        le 8 (if s.variant.fuseValid then s.boot.serial.toNat else 0))) := by
  show (s.cmdFuseStatus q).done = _
  simp only [State.cmdFuseStatus, hl]
  exact serve_done_of_run h (judge_anyTenant ht []) rfl

/-! FW_UPDATE. -/

/-- A staging buffer that a chunk of an item continues, or begins. -/
def staging (b : Boot) (target : Nat) (bytes : List Byte) : Boot :=
  { b with
    stageBuf := some (target, bytes), imgOk := if target = 1 then false else b.imgOk, cfgOk := if target = 2 then false else b.cfgOk }

/-- Settles O30, command by command. -/
theorem resetAndFirmwareCommandsComplete : Obligations.ResetAndFirmwareCommandsComplete := by
  unfold Obligations.ResetAndFirmwareCommandsComplete
  refine ⟨fun s q => exec_reset_device, ?engine, fun s q => exec_fuseStatus, ?chunk, ?stage, ?write, ?live⟩
  case engine =>
    rintro s q n h h0 hl hn hs hu h1 h4 hd hidle
    obtain ⟨hself, hothers, hboot, hpas, hpower, htim⟩ := resetTarget_engine s.accepted hn
    refine ⟨_, exec_reset_engine h h0 hl hn hs hu h1 h4 hd hidle, ?_, ?_, ?_, ?_, ?_, hothers, ?_, ?_, hpas, hpower, htim⟩
    · rw [hself]
      rfl
    · rw [hself]
    · rw [hself]
    · rw [hself]
    · rw [hself]
    · rw [hboot]
      rfl
    · rw [hboot]
      rfl
  case chunk =>
    rintro s q target h h0 hact ht htar hmode hflags hoff hlen1 hlen hl hz8 hz20 hready
    refine ⟨{ s.accepted with boot := staging s.boot target (s.stageBytes target ++ q.payload.drop 24) }, ?_, rfl, rfl, rfl⟩
    have hbytes : (if q.u 4 4 = 0 then [] else s.stageBytes target) = s.stageBytes target := by
      split
      case isTrue hz => exact (List.eq_nil_of_length_eq_zero (hoff ▸ hz)).symm
      case isFalse => rfl
    have hcount : (s.stageBytes target ++ q.payload.drop 24).length = (s.stageBytes target).length + q.u 16 4 := by
      have hp : q.payload.length = 24 + q.u 16 4 := hl
      rw [List.length_append, List.length_drop, hp, Nat.add_sub_cancel_left]
    have hlast : bitAt 0 0 = false := rfl
    show (s.cmdFwUpdate q).done = _
    simp only [State.cmdFwUpdate, hact, ht, hl, hmode, hflags, hlast, if_true, beq_self_eq_true]
    refine serve_done_of_run h ?_ ?_
    · have hgap : (q.u 4 4 != 0 && q.u 4 4 != (s.stageBytes target).length) = false := by simp [hoff]
      rcases htar with rfl | rfl
      · simp [onlyT0, h0, hz8, hz20, hgap, Nat.not_lt.mpr hlen, Nat.ne_of_gt hlen1, hready rfl]
      · simp [onlyT0, h0, hz8, hz20, hgap, Nat.not_lt.mpr hlen, Nat.ne_of_gt hlen1]
    · rw [if_neg Bool.false_ne_true, show s.accepted.stageBytes target = s.stageBytes target from rfl, hbytes, hcount]
      rfl
  case stage =>
    rintro s q target h h0 hl hact ht htar hz2 hal hlen hz20 hbusy hready hjobs
    have hoff : q.u 4 4 = 0 := u_of_rsv (rsv_mono hz2)
    have hmode : q.u 2 1 = 0 := u_of_rsv (rsv_mono hz2)
    have hflags : q.u 3 1 = 0 := u_of_rsv (rsv_mono hz2)
    refine ⟨({ s.accepted with boot := staging s.boot target [] }.startJob 0 0x0902 (.fwStage target (q.u 8 8) (q.u 16 4) 0)).1,
      (s.accepted.startJob 0 0x0902 (.fwStage target (q.u 8 8) (q.u 16 4) 0)).2, ?_, rfl, rfl, rfl⟩
    show (s.cmdFwUpdate q).done = _
    simp only [State.cmdFwUpdate, hact, ht, hl, hoff, hmode, hflags, h0]
    refine serve_done_of_run h ?_ rfl
    rcases htar with rfl | rfl
    · simp [onlyT0, h0, hal, hlen, hz20, hbusy, hjobs, hready rfl]
    · simp [onlyT0, h0, hal, hlen, hz20, hbusy, hjobs]
  case write =>
    rintro s q target h h0 hl hact ht htar hz2 hbusy hflash hstaged hjobs
    have hoff : q.u 4 4 = 0 := u_of_rsv (rsv_mono hz2)
    have hmode : q.u 2 1 = 0 := u_of_rsv (rsv_mono hz2)
    have hflags : q.u 3 1 = 0 := u_of_rsv (rsv_mono hz2)
    have hlen : q.u 16 4 = 0 := u_of_rsv (rsv_mono hz2)
    have hz8 : q.rsv 8 8 = true := rsv_mono hz2
    have hz20 : q.rsv 20 4 = true := rsv_mono hz2
    refine ⟨(s.accepted.startJob 0 0x0902 (.fwWrite target 0)).1, (s.accepted.startJob 0 0x0902 (.fwWrite target 0)).2, ?_, rfl, rfl⟩
    show (s.cmdFwUpdate q).done = _
    simp only [State.cmdFwUpdate, hact, ht, hl, hoff, hmode, hflags, hlen, h0]
    refine serve_done_of_run h ?_ rfl
    rcases htar with rfl | rfl
    · simp [onlyT0, h0, hz8, hz20, hbusy, hflash, Option.isNone_eq_false_iff.mpr hstaged, hjobs]
    · simp [onlyT0, h0, hz8, hz20, hbusy, hflash, Option.isNone_eq_false_iff.mpr hstaged, hjobs]
  case live =>
    rintro s q h h0 hl hact ht hmode hz3 hbusy hlive hjobs
    have hoff : q.u 4 4 = 0 := u_of_rsv (rsv_mono hz3)
    have hflags : q.u 3 1 = 0 := u_of_rsv (rsv_mono hz3)
    have hlen : q.u 16 4 = 0 := u_of_rsv (rsv_mono hz3)
    have hz8 : q.rsv 8 8 = true := rsv_mono hz3
    have hz20 : q.rsv 20 4 = true := rsv_mono hz3
    refine ⟨(s.accepted.startJob 0 0x0902 (.fwActivate 1)).1, (s.accepted.startJob 0 0x0902 (.fwActivate 1)).2, ?_, rfl, rfl⟩
    show (s.cmdFwUpdate q).done = _
    simp only [State.cmdFwUpdate, hact, ht, hl, hoff, hmode, hflags, hlen, h0]
    refine serve_done_of_run h ?_ rfl
    simp [onlyT0, h0, hz8, hz20, hbusy, hlive, hjobs]

end Sys2Proof.Proofs
end

section
/-!
SUPPORT and PROOFS. MEM_FILL, SCRUB_CONFIG, MEM_REPAIR, PAGE_RETIRE and ECC_STATUS where they pass their checks (R495 to R509).
-/
namespace Sys2Proof.Proofs
open Sys2Proof Sys2Proof.Machine Sys2Proof.Laws

set_option Elab.async false

/-- The state in which T0 starts a job. -/
def withJob (s : State) (op : Nat) (work : JobWork) : State := (s.startJob 0 op work).1

/-- The token of the job that T0 starts. -/
def nextToken (s : State) (op : Nat) (work : JobWork) : Nat := (s.startJob 0 op work).2

/-! MEM_FILL. -/

/-- The memories that every MEM_FILL of a pattern may write: passage buffers, bin memory and the memories of the engines (R506). -/
theorem fillable_listed {m : Nat} (h : m = 0x0201 ∨ m = 0x0204 ∨ (memEngine m).isSome = true) :
    memListed m 0 = true ∧ m ∉ [0x0C00, 0x0202, 0x0100, 0x0101, 0x0106, 0x0C02, 0x0001] := by
  rcases h with rfl | rfl | h
  · decide
  · decide
  · unfold memEngine at h
    split at h
    case isTrue hm =>
      obtain ⟨h6, h3, h10⟩ := hm
      have hm : m = 256 * (m / 256) + 6 := by omega
      rw [hm]
      generalize m / 256 = k at h3 h10
      interval_cases k <;> decide
    case isFalse => cases h

/-- MEM_FILL of a pattern. -/
theorem exec_memFill_pattern {s : State} {q : Request} {m : Nat} (h : s.takes 0x0601 q) (h0 : q.tenant = 0) (hl : q.len = 32)
    (hact : q.u 0 1 = 1) (h1 : q.rsv 1 1 = true) (h4 : q.rsv 4 4 = true) (hm : q.u 2 2 = m)
    (hmay : m = 0x0201 ∨ m = 0x0204 ∨ (memEngine m).isSome = true) (hlen : q.u 16 8 ≠ 0) (hoff : q.u 8 8 % 256 = 0)
    (hmod : q.u 16 8 % 256 = 0) (hsize : q.u 8 8 + q.u 16 8 ≤ memSize m) (hd : s.dark m = none)
    (hbusy : s.fillBusy m (q.u 8 8) (q.u 8 8 + q.u 16 8) = false) (hjobs : s.jobsFull 0 = false) :
    exec (.memFill q) s = .next ((withJob s.accepted 0x0601 (.fill 1 m (q.u 8 8) (q.u 16 8) (q.u 24 8) 0)).answer 0x0601 q
      (jobStarted (nextToken s.accepted 0x0601 (.fill 1 m (q.u 8 8) (q.u 16 8) (q.u 24 8) 0)))) := by
  obtain ⟨hlisted, hnot⟩ := fillable_listed hmay
  simp only [List.mem_cons, List.not_mem_nil, or_false, not_or] at hnot
  obtain ⟨hlp, hrest⟩ := hnot
  show (s.cmdMemFill q).done = _
  simp only [State.cmdMemFill, hact, hl, hm, h0]
  refine serve_done_of_run h ?_ rfl
  rw [judge_bad_cons, judge_lit_cons hd, judge_lit_nil]
  · simp [hlp, hrest, hbusy, hjobs]
  · simp [h1, h4, hlen, hlisted, memBlock, hlp, hoff, hmod, hsize]

/-- MEM_FILL of ACTIONS 2 and 3 moves bytes between LPDDR6's capture area and host memory. -/
theorem exec_memFill_copy {s : State} {q : Request} {act : Nat} (h : s.takes 0x0601 q) (h0 : q.tenant = 0) (hl : q.len = 32)
    (hact : q.u 0 1 = act) (h2 : 2 ≤ act) (h3 : act ≤ 3) (h1 : q.rsv 1 1 = true) (h4 : q.rsv 4 4 = true) (hm : q.u 2 2 = 0x0C00)
    (hlen : q.u 16 8 ≠ 0) (hoff : q.u 8 8 % 64 = 0) (hmod : q.u 16 8 % 64 = 0) (hhost : q.u 24 8 % 64 = 0)
    (hlo : 0x40000000 ≤ q.u 8 8) (hhi : q.u 8 8 + q.u 16 8 ≤ 0x40000000 + 16 * s.captureSize)
    (hsize : q.u 8 8 + q.u 16 8 ≤ s.mem.capacity) (hlp : s.lpReady = true) (hd : s.dark 0x0C00 = none) (hup : s.pcieUp = true)
    (hcap : s.captureHolds (q.u 8 8) (q.u 8 8 + q.u 16 8) = false) (hjobs : s.jobsFull 0 = false) :
    exec (.memFill q) s = .next ((withJob s.accepted 0x0601 (.fill act 0x0C00 (q.u 8 8) (q.u 16 8) (q.u 24 8) 0)).answer 0x0601 q
      (jobStarted (nextToken s.accepted 0x0601 (.fill act 0x0C00 (q.u 8 8) (q.u 16 8) (q.u 24 8) 0)))) := by
  have hlisted : memListed 0x0C00 0 = true := by decide
  have hbusy : s.fillBusy 0x0C00 (q.u 8 8) (q.u 8 8 + q.u 16 8) = false := hcap
  show (s.cmdMemFill q).done = _
  simp only [State.cmdMemFill, hact, hl, hm, h0]
  refine serve_done_of_run h ?_ rfl
  rw [judge_bad_cons, judge_lit_cons hd, judge_lit_nil]
  · simp [hlo, hhi, hlp, hup, hbusy, hjobs]
  · simp [h1, h4, hlen, hlisted, hoff, hmod, hhost, hsize, Nat.ne_of_gt h2, Nat.not_lt.mpr h3, Nat.ne_of_gt (Nat.le_of_succ_le h2)]

/-! SCRUB_CONFIG. -/

/-- Bytes that give 0 are zero. -/
theorem all_zero_of_unle : ∀ l : List Byte, unle l = 0 → l.all (· == 0) = true
  | [], _ => rfl
  | b :: bs, h => by
    have hsum : b.toNat + 256 * unle bs = 0 := h
    have hb : b = 0 := BitVec.eq_of_toNat_eq (by simp; omega)
    have hbs := all_zero_of_unle bs (by omega)
    rw [List.all_cons, hb, hbs]
    rfl

/-- Zero bytes before a field that is 0 are more zero bytes. -/
theorem rsv_append {q : Request} {off m n : Nat} (h : q.rsv off m = true) (hu : q.u (off + m) n = 0) : q.rsv off (m + n) = true := by
  have htail := all_zero_of_unle _ hu
  rw [Request.rsv, zeroAt, List.take_add, List.all_append, List.drop_drop, htail, Bool.and_true]
  exact h

/-- The configuration that SCRUB_CONFIG ACTION 1 puts in force. -/
def scrubSet (q : Request) (m : Mem) : Mem :=
  let f := if q.u 1 1 = 0 then 7 else if q.u 1 1 = 0x80 then 0 else q.u 1 1
  { m with
    onchipEn := bitAt f 0, lpEn := bitAt f 1, autoRep := bitAt f 2, passMin := orDefault (q.u 2 2) 240
    mibPerMin := orDefault (q.u 4 2) 1024, leakMs := orDefault (q.u 6 2) 1000, level := orDefault (q.u 8 2) 64 }

/-- FLAGS as held are those set, with 7 for 0 and none for 0x80. -/
theorem scrubFlags_scrubSet {q : Request} (m : Mem) (hf : q.u 1 1 ≤ 7 ∨ q.u 1 1 = 0x80) :
    (scrubSet q m).scrubFlags = if q.u 1 1 = 0 then 7 else if q.u 1 1 = 0x80 then 0 else q.u 1 1 := by
  have hbits : ∀ f, f ≤ 7 → bit (bitAt f 0) + 2 * bit (bitAt f 1) + 4 * bit (bitAt f 2) = f := by decide
  refine hbits _ ?_
  split
  · exact Nat.le_refl 7
  · split
    · exact Nat.zero_le 7
    · exact hf.resolve_right ‹_›

/-- SCRUB_CONFIG ACTION 1. -/
theorem exec_scrubConfig_sets {s : State} {q : Request} (h : s.takes 0x0602 q) (h0 : q.tenant = 0) (hl : q.len = 16) (hact : q.u 0 1 = 1)
    (hf : q.u 1 1 ≤ 7 ∨ q.u 1 1 = 0x80) (hpass : q.u 2 2 = 0 ∨ (15 ≤ q.u 2 2 ∧ q.u 2 2 ≤ 1440))
    (hrate : q.u 4 2 = 0 ∨ (64 ≤ q.u 4 2 ∧ q.u 4 2 ≤ 16384)) (hleak : q.u 6 2 = 0 ∨ (10 ≤ q.u 6 2 ∧ q.u 6 2 ≤ 60000))
    (hu : q.u 10 2 = 0) (h12 : q.rsv 12 4 = true) :
    exec (.scrubConfig q) s =
      .next ((s.accepted.modMem (scrubSet q)).answer 0x0602 q (s.accepted.modMem (scrubSet q)).mem.scrubReply) := by
  show (s.cmdScrubConfig q).done = _
  simp only [State.cmdScrubConfig, hact, hl, hu]
  refine serve_done_of_run h ?_ rfl
  have hrange : ∀ {x lo hi : Nat}, (x = 0 ∨ (lo ≤ x ∧ x ≤ hi)) → (x == 0 || (decide (lo ≤ x) && decide (x ≤ hi))) = true := by
    simp
  have hflags : (decide (q.u 1 1 ≤ 7) || q.u 1 1 == 0x80) = true := by simpa using hf
  simp only [hrange hpass, hrange hrate, hrange hleak, hflags, h12]
  simp [onlyT0, h0, State.firstDark]

/-- SCRUB_CONFIG ACTION 2. -/
theorem exec_scrubConfig_reads {s : State} {q : Request} (h : s.takes 0x0602 q) (h0 : q.tenant = 0) (hl : q.len = 16) (hact : q.u 0 1 = 2)
    (h1 : q.rsv 1 9 = true) (hu : q.u 10 2 = 0) (h12 : q.rsv 12 4 = true) :
    exec (.scrubConfig q) s = .next (s.accepted.answer 0x0602 q s.mem.scrubReply) := by
  have hzero : q.rsv 1 11 = true := rsv_append h1 hu
  show (s.cmdScrubConfig q).done = _
  simp only [State.cmdScrubConfig, hact, hl]
  refine serve_done_of_run h ?_ rfl
  simp [h12, hzero, onlyT0, h0, State.firstDark]

/-- SCRUB_CONFIG ACTION 3 of one memory. -/
theorem exec_scrubConfig_sweeps {s : State} {q : Request} {m : Nat} (h : s.takes 0x0602 q) (h0 : q.tenant = 0) (hl : q.len = 16)
    (hact : q.u 0 1 = 3) (h1 : q.rsv 1 9 = true) (hu : q.u 10 2 = m) (hm : memListed m 0 = true) (h12 : q.rsv 12 4 = true)
    (hd : s.dark m = none) (hlp : m = 0x0C00 → s.lpReady = true)
    (hidle : (s.runningJobs.all fun j => match j.work with | .sweep _ _ _ => false | _ => true) = true) (hjobs : s.jobsFull 0 = false) :
    exec (.scrubConfig q) s = .next ((withJob s.accepted 0x0602 (.sweep [(m, 0)] s.mono 1)).answer 0x0602 q
      (jobStarted (nextToken s.accepted 0x0602 (.sweep [(m, 0)] s.mono 1)))) := by
  have hall : m ≠ 0xFFFF := by
    rintro rfl
    exact absurd hm (by decide)
  have hf : q.u 1 1 = 0 := u_of_rsv (rsv_mono h1)
  have hunits : s.sweepUnits m = [m] := if_neg hall
  have hfree : (s.runningJobs.any fun j =>
      match j.work with | .sweep us _ _ => us.any fun x => [m].contains x.1 | _ => false) = false := by
    rw [List.any_eq_false]
    intro j hj
    have := List.all_eq_true.mp hidle j hj
    cases hw : j.work <;> simp_all
  have hready : (m == 0x0C00 && !s.lpReady) = false := by
    by_cases hc : m = 0x0C00
    · simp [hc, hlp hc]
    · simp [hc]
  show (s.cmdScrubConfig q).done = _
  simp only [State.cmdScrubConfig, hact, hl, hu, hf, hunits, h0]
  refine serve_done_of_run h ?_ rfl
  rw [judge_bad_cons, if_pos ⟨trivial, hall⟩, judge_lit_cons hd, judge_lit_nil]
  · have hT0 : (q.tenant != 0) = false := by simp [h0]
    exact (judge_bad_cons hT0 _ _ _).trans ((judge_bad_cons hfree _ _ _).trans ((judge_bad_cons hready _ _ _).trans (judge_bad_cons hjobs _ _ [])))
  · simp [h12, hm]

/-! MEM_REPAIR, PAGE_RETIRE and ECC_STATUS. -/

/-- A command that is answered later stands among the packets received, as one that has begun. -/
theorem deferred_waits (u : State) (op : Nat) (q : Request) :
    ((u.defer op q).sendRelayed.com.received.any fun r => r.op == op && r.req == q && r.started) = true := by
  simp [State.defer]

/-- An event leaves the life record. -/
theorem life_raise (s : State) (i : Nat) (e : Ev) (src : Nat) (p : List Byte) : (s.raise i e src p).log.life = s.log.life := by
  have h := congrArg Log.life (raise_modLife_log s id i e src p)
  exact h

/-- A row of a byte-coded memory whose repair is recorded. -/
def rowRepaired (s : State) (u off : Nat) : State := (s.recordRow u (rowOf off) 2 true).repaired u (rowOf off) off 2

section
variable {s : State} {q : Request} {u off : Nat} {ok : Bool}
variable (h : s.takes 0x0603 q) (h0 : q.tenant = 0) (hl : q.len = 12) (hu : q.u 0 2 = u) (hoff : q.u 4 4 = off) (h2 : q.rsv 2 2 = true)
variable (h8 : q.rsv 8 4 = true) (hchip : u ∈ onchipUnits) (hmap : u ≠ 0x0C02) (hsize : off < memSize u) (hd : s.dark u = none)
variable (hfree : (s.mem.repairing.all fun r => bankKey r.unit r.offset != bankKey u off) = true) (hspare : s.sparesLeft u off ≠ 0)
variable (hroom : s.store.repair.rows.length < 256)
include h0 hchip hmap hsize hd hfree hspare hroom h2 h8

/-- The checks that MEM_REPAIR passes. -/
theorem judge_memRepair :
    s.judge ([.bad (!(q.rsv 2 2) || !(q.rsv 8 4) || !(onchipUnits.contains u) || u == 0x0C02 || decide (off ≥ memSize u)) .badParam 0, .lit [u],
      onlyT0 q] ++ s.repairChecks u off) = none := by
  have hbusy : (s.mem.repairing.any fun r => bankKey r.unit r.offset == bankKey u off) = false := by
    simpa [List.any_eq_false] using hfree
  rw [List.cons_append, judge_bad_cons, List.cons_append, judge_lit_cons hd, judge_lit_nil]
  · simp [onlyT0, h0, State.repairChecks, hbusy, hspare, hroom]
  · simp [h2, h8, hchip, hmap, hsize]

include h hl hu hoff

/-- MEM_REPAIR of a line-coded memory starts the copy, and is answered at its switch. -/
theorem exec_memRepair_live (hline : lineCoded u = true) :
    exec (.memRepair q ok) s = .next (((s.accepted.modMem fun m => { m with
      repairing := m.repairing ++ [{ req := some q, unit := u, offset := off, since := s.chamber }] }).defer 0x0603 q).sendRelayed) := by
  show (s.cmdMemRepair q ok).done = _
  simp only [State.cmdMemRepair, hl, hu, hoff]
  exact serve_done_of_wait h (judge_memRepair h0 h2 h8 hchip hmap hsize hd hfree hspare hroom) (by rw [State.startRepair, if_pos hline]; rfl)

/-- MEM_REPAIR of a byte-coded memory records the repair. -/
theorem exec_memRepair_deferred (hline : lineCoded u = false) :
    exec (.memRepair q true) s = .next ((rowRepaired s.accepted u off).answer 0x0603 q
      (repairReply 0 2 ((s.accepted.recordRow u (rowOf off) 2 true).sparesLeft u off) 0)) := by
  show (s.cmdMemRepair q true).done = _
  simp only [State.cmdMemRepair, hl, hu, hoff]
  exact serve_done_of_run h (judge_memRepair h0 h2 h8 hchip hmap hsize hd hfree hspare hroom)
    (by rw [State.startRepair, if_neg (by simp [hline])]; rfl)

end

/-- Settling the suspects of a repaired row leaves the bytes of every memory. -/
theorem data_repaired (s : State) (u row off mode k : Nat) : ((s.repaired u row off mode).memInst k).data = (s.memInst k).data := by
  have hmem : (s.repaired u row off mode).memInst k =
      (s.modInst (2 * u) fun m => { m with suspects := m.suspects.filter fun a => rowOf a != row }).memInst k := by
    rw [State.memInst, State.memInst, State.repaired, (raise_frame ..).2.2.2.2.2.2.2.2.1]
  rw [hmem]
  by_cases hk : k = 2 * u
  · rw [hk, memInst_modInst_self]
  · rw [memInst_modInst_ne _ _ hk]

/-- What a recorded row repair leaves. -/
theorem rowRepaired_writes (s : State) (u off : Nat) :
    (rowRepaired s u off).store.repair.rows = s.store.repair.rows ++ [(u, rowOf off, 2)] ∧
    (rowRepaired s u off).log.life = { s.log.life with wrRepair := s.log.life.wrRepair + 1, deferRep := s.log.life.deferRep + 1 } ∧
    (rowRepaired s u off).mem.repairing = s.mem.repairing ∧
    ∀ k, ((rowRepaired s u off).memInst k).data = (s.memInst k).data := by
  have hmem : (s.recordRow u (rowOf off) 2 true).mem = s.mem := by simp [State.recordRow, State.mtpWrite, State.mtpBegin, State.modLife]
  refine ⟨?_, ?_, ?_, fun k => ?_⟩
  · simp [rowRepaired, State.repaired]
    rfl
  · rw [rowRepaired, State.repaired, life_raise]
    rfl
  · simp [rowRepaired, State.repaired]
    rfl
  · rw [rowRepaired, data_repaired, State.memInst, State.memInst, hmem]

/-- PAGE_RETIRE takes the lowest free spare, and is answered at its switch. -/
theorem exec_pageRetire {s : State} {q : Request} {spare : Nat} (h : s.takes 0x0604 q) (h0 : q.tenant = 0) (hl : q.len = 12)
    (h8 : q.rsv 8 4 = true) (ha : q.u 0 8 % 4096 = 0) (hcap : q.u 0 8 < s.mem.capacity) (harea : q.u 0 8 < 0x39000000 ∨ 0x39400000 ≤ q.u 0 8)
    (hd : s.dark 0x0C00 = none) (hfree : (s.mem.moving.all fun m => m.addr != q.u 0 8) = true) (hlp : s.lpReady = true)
    (hspare : s.freeSpare = some spare) (hroom : s.store.repair.pages.length < 1024) :
    exec (.pageRetire q) s = .next (((s.accepted.modMem fun m => { m with
      moving := m.moving ++ [{ req := q, addr := q.u 0 8, spare := spare, since := s.chamber }] }).defer 0x0604 q).sendRelayed) := by
  have hbusy : (s.mem.moving.any fun m => m.addr == q.u 0 8) = false := by
    simpa [List.any_eq_false] using hfree
  have hout : inSparePages (q.u 0 8) = false := by
    simp [inSparePages]
    omega
  show (s.cmdPageRetire q).done = _
  simp only [State.cmdPageRetire, hl]
  refine serve_done_of_wait h ?_ ?_
  · rw [judge_bad_cons, judge_lit_cons hd, judge_lit_nil]
    · simp [onlyT0, h0, hbusy, hlp, hspare, hroom]
    · simp [h8, ha, hcap, hout]
  · rw [show s.accepted.freeSpare = some spare from hspare]
    rfl

/-- ECC_STATUS answers with its layout (Table 13.7). -/
theorem exec_eccStatus {s : State} {q : Request} (h : s.takes 0x0605 q) (ht : s.tenantOn q) (hl : q.len = 4)
    (hm : memListed (q.u 0 2) (q.u 2 2) = true) (hd : s.dark (q.u 0 2) = none) :
    exec (.eccStatus q) s = .next (s.accepted.answer 0x0605 q (s.eccReply (q.u 0 2) (q.u 2 2))) := by
  show (s.cmdEccStatus q).done = _
  simp only [State.cmdEccStatus, hl]
  refine serve_done_of_run h ?_ rfl
  rw [judge_bad_cons (by simp [hm]), judge_lit_cons hd, judge_lit_nil, judge_anyTenant ht]
  rfl

/-- Settles O24, command by command. -/
theorem memoryCommandsComplete : Obligations.MemoryCommandsComplete := by
  unfold Obligations.MemoryCommandsComplete
  refine ⟨?pattern, ?copy, ?sets, fun s q => exec_scrubConfig_reads, ?sweeps, ?live, ?deferred, ?retire, fun s q => exec_eccStatus⟩
  case pattern =>
    rintro s q m h h0 hl hact h1 h4 hm hmay hlen hoff hmod hsize hd hbusy hjobs
    exact ⟨_, _, exec_memFill_pattern h h0 hl hact h1 h4 hm hmay hlen hoff hmod hsize hd hbusy hjobs, rfl, rfl⟩
  case copy =>
    rintro s q act h h0 hl hact h2 h3 h1 h4 hm hlen hoff hmod hhost hlo hhi hsize hlp hd hup hcap hjobs
    exact ⟨_, _, exec_memFill_copy h h0 hl hact h2 h3 h1 h4 hm hlen hoff hmod hhost hlo hhi hsize hlp hd hup hcap hjobs, rfl, rfl⟩
  case sets =>
    rintro s q h h0 hl hact hf hpass hrate hleak hu h12
    refine ⟨_, exec_scrubConfig_sets h h0 hl hact hf hpass hrate hleak hu h12, ?_, rfl, rfl, rfl, rfl, rfl, rfl⟩
    exact scrubFlags_scrubSet s.mem hf
  case sweeps =>
    rintro s q m h h0 hl hact h1 hu hm h12 hd hlp hidle hjobs
    exact ⟨_, _, exec_scrubConfig_sweeps h h0 hl hact h1 hu hm h12 hd hlp hidle hjobs, rfl, rfl⟩
  case live =>
    rintro s q u off ok h h0 hl hu hoff h2 h8 hchip hline hsize hd hfree hspare hroom
    have hmap : u ≠ 0x0C02 := by
      rintro rfl
      exact absurd hline (by decide)
    refine ⟨_, exec_memRepair_live h h0 hl hu hoff h2 h8 hchip hmap hsize hd hfree hspare hroom hline, ?_, ?_, deferred_waits ..⟩
    · simp
    · simp
  case deferred =>
    rintro s q u off h h0 hl hu hoff h2 h8 hchip hmap hline hsize hd hfree hspare hroom
    obtain ⟨hrows, hlife, hmem, hdata⟩ := rowRepaired_writes s.accepted u off
    refine ⟨_, exec_memRepair_deferred h h0 hl hu hoff h2 h8 hchip hmap hsize hd hfree hspare hroom hline, ?_, ?_, ?_, ?_, fun k => ?_⟩
    · simpa [rowOf] using hrows
    · simp [hlife]
    · simp [hlife]
    · simpa using hmem
    · rw [State.memInst, (answer_frame ..).2.2.2.2.2.2.2.2.1]
      exact hdata k
  case retire =>
    rintro s q spare h h0 hl h8 ha hcap harea hd hfree hlp hspare hroom
    refine ⟨_, exec_pageRetire h h0 hl h8 ha hcap harea hd hfree hlp hspare hroom, ?_, ?_, deferred_waits ..⟩
    · simp
    · simp

end Sys2Proof.Proofs
end

section
/-!
PROOFS. Statements that a concrete state of the model refutes: a doorbell at a stopped ring, REF_CONFIG with a reserved field, an early PPS edge,
a lost input that is measured, a miscorrected code, a masked occurrence, a steered rail, and an abandoned entry from OFF.
-/
namespace Sys2Proof.Proofs
open Sys2Proof Sys2Proof.Machine Sys2Proof.Laws

set_option Elab.async false

/-- What a part of the state is after a step. -/
def partAfter {α : Type} (f : State → α) (o : Host.Outcome State Fault Refusal) : Option α :=
  match o with | .next t => some (f t) | _ => none

/-- The part of the state that a step names. -/
theorem partAfter_of_eq {α : Type} {o : Host.Outcome State Fault Refusal} {t : State} (f : State → α) (h : o = .next t) :
    partAfter f o = some (f t) := by
  rw [h, partAfter]

/-! CMDQ_TAIL_DOORBELL. -/

/-- Page 0's ring is stopped, and its command ring has two entries. -/
def stoppedRing : State := { servingDevice with com := { pages := [(0, { cmdqLog := 1 })] } }

/-- A doorbell that exceeds the ring halts it, though it is stopped (R429). -/
theorem stoppedRing_halts : partAfter (fun t => (t.page 0).halted) (exec (.cmdqTailDoorbell 0 3) stoppedRing) = some true := by
  decide +kernel

/-- Refutes O15: a doorbell whose fill exceeds the ring halts a ring that is not enabled too, so that CMDQ_TAIL is not all that changes there. -/
theorem not_ringRowsComplete : ¬ Obligations.RingRowsComplete := by
  unfold Obligations.RingRowsComplete
  rintro ⟨hdoorbell, -⟩
  obtain ⟨t, hx, hpage, -⟩ := hdoorbell stoppedRing 0 3 (by decide) (by decide) (by decide) (by decide)
  have hruns : partAfter (fun t => (t.page 0).halted) (exec (.cmdqTailDoorbell 0 3) stoppedRing) = some false := by
    rw [partAfter_of_eq _ hx, hpage]
    rfl
  exact absurd (stoppedRing_halts.symm.trans hruns) (by decide)

/-! REF_CONFIG. -/

/-- Reference pin 0 is configured. -/
def pinConfigured : State := { servingDevice with tim := { inputs := [(0, {})] } }

/-- REF_CONFIG ACTION 2 for pin 0, with a reserved bit set in its TIME_USE field. -/
def removePin : Request := ringRequest ([0, 2, 0, 0, 0, 2] ++ zeros 14)

/-- The command is refused, and the input stays (R20). -/
theorem pinConfigured_stays :
    partAfter (fun t => (tget t.tim.inputs 0).isSome) (exec (.refConfig removePin) pinConfigured) = some true := by
  decide +kernel

/-- Refutes O21: REF_CONFIG ACTION 2 with a reserved field that is not zero is refused with BAD_PARAM (R20), and removes no input. -/
theorem not_timingCommandsComplete : ¬ Obligations.TimingCommandsComplete := by
  unfold Obligations.TimingCommandsComplete
  rintro ⟨-, -, hremove, -⟩
  have hgone := hremove pinConfigured removePin 0 0x0D00
  iterate 10 specialize hgone (by decide +kernel)
  obtain ⟨t, hx, ht, -⟩ := hgone
  have hremoved : partAfter (fun t => (tget t.tim.inputs 0).isSome) (exec (.refConfig removePin) pinConfigured) = some false := by
    rw [partAfter_of_eq _ hx, ht]
    rfl
  exact absurd (pinConfigured_stays.symm.trans hremoved) (by decide)

/-! PPS_IN. -/

/-- PPS_IN is present, and its last edge came at this very time. -/
def pulsedTwice : State := { servingDevice with tim := { present := [8], ppsAt := 50 * secQ } }

/-- An edge that comes too early means that PPS_IN is lost (Table 11.3). -/
theorem pulsedTwice_loses : partAfter (fun t => t.tim.present) (exec .ppsInEdge pulsedTwice) = some [] := by
  decide +kernel

/-- Refutes O22: a PPS edge that comes earlier than a second after the one before it also takes PPS_IN from the inputs that are present. -/
theorem not_referenceRowsComplete : ¬ Obligations.ReferenceRowsComplete := by
  unfold Obligations.ReferenceRowsComplete
  rintro ⟨-, -, -, -, -, -, -, -, -, hedge⟩
  have hmarked := partAfter_of_eq (fun t => t.tim.present) (hedge pulsedTwice (by decide) (by decide))
  exact absurd (pulsedTwice_loses.symm.trans hmarked) (by decide)

/-! REF_SECOND_EVAL. -/

/-- Reference pin 0 is configured and LOST, and its last mean was 0. -/
def lostPin : State := { servingDevice with tim := { inputs := [(0, { st := 1 })] } }

/-- A measurement of a lost input is not taken in (R396). -/
theorem lostPin_keeps : partAfter (fun t => (t.input 0).mean) (exec (.refSecondEval [⟨0, [5]⟩] 0) lostPin) = some 0 := by
  decide +kernel

/-- Refutes O23: the mean of a measured input that is LOST stays. -/
theorem not_loopRowsComplete : ¬ Obligations.LoopRowsComplete := by
  unfold Obligations.LoopRowsComplete
  rintro ⟨heval, -⟩
  obtain ⟨t, hx, -, -, -, hmean, -⟩ := heval lostPin [⟨0, [5]⟩] 0 (by decide) (by decide) (by decide)
  have hmeant : (t.input 0).mean = 5 := hmean ⟨0, [5]⟩ (by decide) (by decide) (by decide)
  have htaken := partAfter_of_eq (fun t => (t.input 0).mean) hx
  rw [hmeant] at htaken
  exact absurd (lostPin_keeps.symm.trans htaken) (by decide)

/-! SCRUB_STEP. -/

/-- LPDDR6 is ready, its first block is valid, and holds zeros. -/
def zeroBlock : State := { servingDevice with mem := { ready := true, capacity := 2 ^ 33, insts := [(0x1800, { valid := [(0, 1)] })] } }

/-- Three bits in error are miscorrected, and the scrubber writes the code back with them (R478, R488). -/
theorem zeroBlock_written :
    partAfter (fun t => (t.memInst 0x1800).data.isEmpty) (exec (.scrubStep true [⟨0, [0, 1, 2]⟩] true) zeroBlock) = some false := by
  decide +kernel

/-- Refutes O25: a code with three bits in error reads as one that is corrected, and its write-back changes the contents of the memory. -/
theorem not_memoryRowsComplete : ¬ Obligations.MemoryRowsComplete := by
  unfold Obligations.MemoryRowsComplete
  rintro ⟨-, -, -, -, -, -, -, -, -, hscrub, -⟩
  have hkept := hscrub zeroBlock 0 0 71 [0, 1, 2]
  iterate 9 specialize hkept (by decide +kernel)
  obtain ⟨t, hx, -, -, hdata, -⟩ := hkept
  have hzero : partAfter (fun t => (t.memInst 0x1800).data.isEmpty) (exec (.scrubStep true [⟨0, [0, 1, 2]⟩] true) zeroBlock) = some true := by
    rw [partAfter_of_eq _ hx, hdata]
    rfl
  exact absurd (zeroBlock_written.symm.trans hzero) (by decide)

/-! EVENT_RECORD_WRITE. -/

/-- A masked occurrence of an engine's island stands among what the islands raised (R282). -/
theorem maskingDevice_raises :
    partAfter (fun t => t.log.raised.isEmpty) (exec (.eventRecordWrite .rxLock 3 0 []) maskingDevice) = some false := by
  decide +kernel

/-- Refutes O27: a masked occurrence that an engine's island raises changes more of the log than RECORDS_MASKED: captures wait for it. -/
theorem not_logRowsComplete : ¬ Obligations.LogRowsComplete := by
  unfold Obligations.LogRowsComplete
  rintro ⟨-, hmasked, -⟩
  have hcounted := partAfter_of_eq (fun t => t.log.raised.isEmpty) (hmasked maskingDevice .rxLock 3 0 [] (by decide) (by decide) (by decide))
  exact absurd (maskingDevice_raises.symm.trans hcounted) (by decide)

/-! POWER_STATE_SET. -/

/-- Engine 0's island is OFF, and its rail is steered over AVSBus. -/
def steeredOff : State :=
  { servingDevice with power := { islands := tput servingDevice.power.islands 3 { inReset := false, st := .off }, rails := [(0, { bus := 2 })] } }

/-- POWER_STATE_SET of island 3 to ACTIVE. -/
def wakeIsland3 : Request := ringRequest ([3, 0] ++ zeros 18)

/-- The exit raises the rail to the voltage of the engine's level (R546, R563). -/
theorem steeredOff_raises :
    partAfter (fun t => t.power.rails.map fun r => r.2.setMv) (exec (.powerStateSet wakeIsland3) steeredOff) = some [550] := by
  decide +kernel

/-- Refutes O28: the exit to ACTIVE also writes the voltage of a rail that the device steers, so that the island is not all that changes. -/
theorem not_powerCommandsComplete : ¬ Obligations.PowerCommandsComplete := by
  unfold Obligations.PowerCommandsComplete
  rintro ⟨-, hexit, -⟩
  have hset := hexit steeredOff wakeIsland3 3
  iterate 13 specialize hset (by decide +kernel)
  have hleft := partAfter_of_eq (fun t => t.power.rails.map fun r => r.2.setMv) hset
  simp only [answer_frame] at hleft
  exact absurd (steeredOff_raises.symm.trans hleft) (by decide)

/-! POWER_ENTRY_ABORTED. -/

/-- Engine 0's island is on its way from OFF to PARKED. -/
def offToParked : State :=
  { servingDevice with power := { islands := tput servingDevice.power.islands 3 { inReset := true, st := .off, moving := some (.parked, 0) } } }

/-- An abandoned entry of an island that is not ACTIVE begins an exit (R548). -/
theorem offToParked_exits :
    partAfter (fun t => (t.island 3).moving.isSome) (exec (.powerEntryAborted 3 1 0 0) offToParked) = some true := by
  decide +kernel

/-- Refutes O29: an entry into PARKED that is abandoned leaves an island that was OFF on its way to ACTIVE, not ACTIVE. -/
theorem not_powerRowsComplete : ¬ Obligations.PowerRowsComplete := by
  unfold Obligations.PowerRowsComplete
  rintro ⟨-, -, -, habort, -⟩
  obtain ⟨t, hx, hisland, -⟩ := habort offToParked 3 0 0 0 (by decide) (by decide) (by decide)
  have hactive : partAfter (fun t => (t.island 3).moving.isSome) (exec (.powerEntryAborted 3 1 0 0) offToParked) = some false := by
    rw [partAfter_of_eq _ hx, hisland]
    rfl
  exact absurd (offToParked_exits.symm.trans hactive) (by decide)

end Sys2Proof.Proofs
end

section
/-!
PROOFS. Interrupt status, moderation, EVT_RD and the accesses to registers (12_commands.md R463 to R472, 13_memory.md R504, 14_events.md R520).
-/
namespace Sys2Proof.Proofs
open Sys2Proof Sys2Proof.Machine Sys2Proof.Laws

set_option Elab.async false

variable {s : State}

/-! Pages. -/

/-- A page that is written holds what is written. -/
theorem page_modPage_self (s : State) (n : Nat) (f : Page → Page) : (s.modPage n f).page n = f (s.page n) :=
  tgetD_tput_self ..

/-- The other pages are left. -/
theorem page_modPage_ne (s : State) {n k : Nat} (f : Page → Page) (h : k ≠ n) : (s.modPage n f).page k = s.page k :=
  tgetD_tput_ne _ _ _ h

/-- A message leaves every page. -/
theorem page_msi (s : State) (v k : Nat) : (s.msi v).page k = s.page k := by
  unfold State.msi
  split <;> rfl

/-- An interrupt flag sets its bit in its page and nothing else there. -/
theorem page_setInt_self (s : State) (n b : Nat) :
    (s.setInt n b).page n = { s.page n with intStatus := (s.page n).intStatus ||| BitVec.ofNat 32 (2 ^ b) } := by
  unfold State.setInt
  dsimp only
  split
  · rw [page_msi, page_modPage_self]
  · rw [page_modPage_self]

/-- While BAR0 is reached, a row that writes a register of a tenant page writes it. -/
theorem pageRow_eq {n : Nat} (o : Nat) (v : Reg) (hu : s.barUp = true) (hn : n ≤ 15) : s.pageRow n o v = s.pageWrite n o v := by
  rw [State.pageRow, hu, if_pos (by simpa using hn)]

/-! INT_STATUS and its moderation (R471, R472). -/

/-- INT_STATUS_CLEAR leaves the rest of the page, the other pages and everything outside the command interface. -/
theorem intClear_page (s : State) (n : Nat) (v : Reg) :
    ((s.intClear n v).page n).intStatus = (s.page n).intStatus &&& ~~~v ∧ ((s.intClear n v).page n).intMask = (s.page n).intMask := by
  unfold State.intClear
  dsimp only
  split <;> simp [page_msi, page_modPage_self]

/-- The other pages. -/
theorem intClear_page_ne (s : State) {n k : Nat} (v : Reg) (h : k ≠ n) : (s.intClear n v).page k = s.page k := by
  unfold State.intClear
  dsimp only
  split <;> simp [page_msi, page_modPage_ne, h]

/-- With the command interface put back, INT_STATUS_CLEAR leaves no trace. -/
theorem intClear_restore (s : State) (n : Nat) (v : Reg) : { s.intClear n v with com := s.com } = s := by
  unfold State.intClear
  dsimp only
  split
  · exact congrArg (fun t : State => { t with com := s.com }) (msi_restore (s.modPage n _) _)
  · rfl

/-- INT_STATUS_CLEAR makes no response that waits to leave. -/
theorem intClear_settled (hs : s.settled) (n : Nat) (v : Reg) : (s.intClear n v).settled := by
  have hs' : s.com.relayed = [] := hs
  unfold State.settled State.intClear
  dsimp only
  split <;> simp [hs']

/-- RSP_READY_MODERATION with responses written meanwhile. -/
theorem rspModeration_due {n t0 : Nat} (hc : (s.page n).rspCleared = some t0) (ht : t0 + (s.page n).moderation * usQ ≤ s.mono)
    (hd : (s.page n).rspDue = true) :
    s.rspModeration n = (s.modPage n fun p => { p with rspCleared := none, rspDue := false }).setInt n 0 := by
  have hsince : s.since t0 ((s.page n).moderation * usQ) = true := decide_eq_true ht
  simp [State.rspModeration, hc, hsince, hd]

/-- Before MODERATION_US is over nothing happens. -/
theorem rspModeration_early {n t0 : Nat} (hc : (s.page n).rspCleared = some t0) (ht : s.mono < t0 + (s.page n).moderation * usQ) :
    s.rspModeration n = s := by
  have hsince : s.since t0 ((s.page n).moderation * usQ) = false := decide_eq_false (Nat.not_le.mpr ht)
  simp [State.rspModeration, hc, hsince]

/-! Reads of registers (R463, R465, R468, R504). -/

/-- CHAMBER_LO is the low word of the chamber. -/
theorem globalReg_chamberLo (s : State) : (s.globalReg 0x20).toNat = s.chamber % 2 ^ 32 := by
  show (BitVec.ofNat 32 (s.chamber % 2 ^ 32)).toNat = _
  rw [BitVec.toNat_ofNat, Nat.mod_mod]

/-- A read of a global register other than CHAMBER_LO changes nothing. -/
theorem bar0Read_global {a o : Nat} (hp : bar0Part (a / 4 * 4) = .global o) (ho : o ≠ 0x20) : s.bar0Read a = (s, s.globalReg o) := by
  rw [State.bar0Read, hp, State.partRead, if_neg ho]

/-- The low word of counter `j` lies in the live window of its tenant. -/
theorem bar0Part_counterLow {n j : Nat} (hn : n ≤ 15) (hj : j < 512) :
    bar0Part ((0x400000 + n * 0x40000 + 8 * j) / 4 * 4) = .live n (8 * j) := by
  have ha : (0x400000 + n * 0x40000 + 8 * j) / 4 * 4 = 0x400000 + n * 0x40000 + 8 * j := by omega
  have ht : (0x400000 + n * 0x40000 + 8 * j - 0x400000) / 0x40000 = n := by omega
  have hm : (0x400000 + n * 0x40000 + 8 * j) % 0x40000 = 8 * j := by omega
  rw [ha, bar0Part, if_neg (by omega), if_neg (by omega), if_neg (by omega), if_neg (by omega), if_pos (by omega)]
  simp only [ht, hm]
  rw [if_pos (by omega)]

/-- A read of the low word of a lit group's counter. -/
theorem bar0Read_counterLow {n j : Nat} {cells : List GCell} {c : GCell} (hn : n ≤ 15) (hj : j < 512)
    (hg : s.liveGroup n = some cells) (hd : s.dark (s.selected n).1 = none) (hc : cells[j]? = some c) :
    s.bar0Read (0x400000 + n * 0x40000 + 8 * j) =
      (s.modPage n fun p => { p with shadowHi := (c.val >>> 32).setWidth 32 }, c.val.setWidth 32) := by
  have h8 : 8 * j / 8 = j := by omega
  have hm : 8 * j % 8 = 0 := by omega
  rw [State.bar0Read, bar0Part_counterLow hn hj]
  simp only [State.partRead, State.liveRead, hg, hd, h8, hc, hm, if_true]

/-- A view's high word. -/
def highWord (x : BitVec 64) (p : Page) : Page := { p with shadowHi := (x >>> 32).setWidth 32 }

/-- The low word of a counter read over PCIe, its high word latched. -/
def latched (s : State) (n : Nat) (x : BitVec 64) : State :=
  { s.modPage n (highWord x) with com := { (s.modPage n (highWord x)).com with readData := le 4 (x.setWidth 32).toNat } }

/-- The row reads the word over PCIe. -/
theorem counterLowRead_eq {n j : Nat} (hn : n ≤ 15) (hj : j < 512) :
    s.counterLowRead n j = s.pcieRead (0x400000 + n * 0x40000 + 8 * j) 4 := by
  rw [State.counterLowRead, if_pos (by simpa using ⟨hn, hj⟩)]

/-- The four bytes of a word are whole. -/
theorem le_take_four (x : Nat) : (((le 4 x).drop 0).take 4) = le 4 x := rfl

/-- A whole word at an aligned offset, read over PCIe. -/
theorem pcieRead_whole {a : Nat} (hu : s.barUp = true) (ha : a % 4 = 0) :
    s.pcieRead a 4 = { (s.bar0Read a).1 with com := { (s.bar0Read a).1.com with readData := le 4 (s.bar0Read a).2.toNat } } := by
  rw [pcieRead_word hu (by omega) (by omega), ha, le_take_four]

/-- A whole word whose read latches a high word of the chamber. -/
theorem pcieRead_latching {a n : Nat} {x w : Reg} (hu : s.barUp = true) (ha : a % 4 = 0)
    (hr : s.bar0Read a = ({ s with com := { s.com with chamberHi := x } }, w)) (hw : w.toNat = n) :
    s.pcieRead a 4 = { s with com := { s.com with chamberHi := x, readData := le 4 n } } := by
  rw [pcieRead_whole hu ha, hr, ← hw]

/-- CHAMBER_LO gives the low word of the chamber and latches the high word. -/
theorem pcieRead_chamberLo (hu : s.barUp = true) :
    s.pcieRead 0x20 4 = { s with com := { s.com with
      chamberHi := reg (s.chamber / 2 ^ 32), readData := le 4 (s.chamber % 2 ^ 32) } } :=
  pcieRead_latching hu (by decide) rfl (globalReg_chamberLo s)

/-- CHAMBER_LO_READ is that read. -/
theorem exec_chamberLoRead (s : State) : exec .chamberLoRead s = (s.pcieRead 0x20 4).done := rfl

/-- A read makes no response that waits to leave. -/
theorem settled_latching (hs : s.settled) (x : Reg) (bs : List Byte) :
    ({ s with com := { s.com with chamberHi := x, readData := bs } } : State).settled := hs

/-- A word of a dark unit's group, read over PCIe, is the dark word. -/
theorem pcieRead_dark {a n o why : Nat} (hu : s.barUp = true) (ha : a % 4 = 0) (hp : bar0Part (a / 4 * 4) = .live n o)
    (hg : (s.liveGroup n).isSome = true) (hd : s.dark (s.selected n).1 = some why) :
    (s.pcieRead a 4).com.readData = [0x4C, 0xDA, 0x4C, 0xDA] := by
  rw [pcieRead_whole hu ha, bar0Read_dark hp hg hd, ← le_darkWord]

/-- A write over PCIe of another size, or at another offset, is discarded. -/
theorem registerWrite_discarded {a size : Nat} (v : Reg) (h : size ≠ 4 ∨ a % 4 ≠ 0) : s.registerWrite a size v = s := by
  rw [State.registerWrite, if_pos (by rcases h with h | h <;> simp [h])]

/-- EVT_RD takes a count from its own value up to EVT_WR and discards any other (R520). -/
theorem evtRdRow_eq (v : Reg) (hu : s.barUp = true) :
    s.evtRdRow v = if (v.toNat + 2 ^ 32 - s.log.evtRd) % 2 ^ 32 ≤ s.log.unread then
      { s with log := { s.log with evtRd := v.toNat } } else s := by
  rw [State.evtRdRow, if_pos hu, globalWrite_evtRd s v rfl, State.evtRdWrite]

/-- A write of SCRATCH0 in the global block. -/
theorem globalWrite_scratch0 (s : State) (v : Reg) : s.globalWrite 0x10 v = { s with com := { s.com with scratch0 := v } } := rfl

/-- A write of SCRATCH0. -/
theorem bar0Write_scratch0 (s : State) (v : Reg) : s.bar0Write 0x10 v = { s with com := { s.com with scratch0 := v } } := by
  rw [State.bar0Write, show bar0Part 0x10 = .global 0x10 from rfl]
  exact globalWrite_scratch0 s v

/-- Settles O16: each row is one access to BAR0, and each access is read off its part of BAR0. -/
theorem interruptAndRegisterRowsComplete : Obligations.InterruptAndRegisterRowsComplete := by
  unfold Obligations.InterruptAndRegisterRowsComplete
  refine ⟨?_, ?_, ?_, ?_, ?_, ?_, ?_, ?_, ?_, ?_, ?_, ?_⟩
  case refine_1 =>
    intro s n v hs hu hn
    obtain ⟨hst, hmask⟩ := intClear_page s n v
    refine ⟨s.intClear n v, ?_, hst, hmask, fun k hk => intClear_page_ne s v hk, intClear_restore s n v⟩
    show (s.pageRow n 0x30 v).done = _
    rw [pageRow_eq _ _ hu hn]
    exact done_of_settled (intClear_settled hs n v)
  case refine_2 =>
    intro s n t0 hs hc ht hd
    refine ⟨(s.modPage n fun p => { p with rspCleared := none, rspDue := false }).setInt n 0, ?_, ?_, ?_, ?_, fun k hk => ?_⟩
    · show (s.rspModeration n).done = _
      rw [rspModeration_due hc ht hd]
      exact done_of_settled (by simpa [State.settled] using hs)
    · rw [page_setInt_self]; simp
    · rw [page_setInt_self, page_modPage_self]
    · rw [page_setInt_self, page_modPage_self]
    · rw [setInt_page_ne _ _ hk, page_modPage_ne _ _ hk]
  case refine_3 =>
    intro s n t0 hs hc ht
    show (s.rspModeration n).done = _
    rw [rspModeration_early hc ht]
    exact done_of_settled hs
  case refine_4 =>
    intro s v hs hu
    show (s.evtRdRow v).done = _
    rw [evtRdRow_eq v hu]
    split
    · exact done_of_settled hs
    · exact done_of_settled hs
  case refine_5 =>
    intro s hs hu
    rw [exec_chamberLoRead, pcieRead_chamberLo hu]
    exact done_of_settled (settled_latching hs _ _)
  case refine_6 =>
    intro s n j u i cells c hs hu hn hj hsel hg hd hc
    have hd' : s.dark (s.selected n).1 = none := by rw [hsel]; exact hd
    refine ⟨latched s n c.val, ?_, ?_, page_modPage_self s n _, fun k hk => page_modPage_ne s _ hk, rfl⟩
    · show (s.counterLowRead n j).done = _
      rw [counterLowRead_eq hn hj, pcieRead_whole hu (by omega), bar0Read_counterLow hn hj hg hd' hc]
      exact done_of_settled hs
    · show le 4 (c.val.setWidth 32).toNat = _
      rw [BitVec.toNat_setWidth]
  case refine_7 =>
    intro s n j why hs hu hn hj hg hd
    have hp := bar0Part_counterLow hn hj
    refine ⟨(s.counterLowRead n j).sendRelayed, rfl, ?_⟩
    have hr : (s.counterLowRead n j).sendRelayed.com.readData = (s.counterLowRead n j).com.readData := by simp
    rw [hr, counterLowRead_eq hn hj, pcieRead_dark hu (by omega) hp hg hd]
  case refine_8 =>
    intro s a size o hs hu hp ho h1 h4
    show (s.pcieRead a size).done = _
    rw [pcieRead_word hu h1 h4, bar0Read_global hp ho]
    exact done_of_settled hs
  case refine_9 =>
    intro s v hs hu
    show (s.registerWrite 0x10 4 v).done = _
    rw [registerWrite_aligned v hu (by decide), bar0Write_scratch0]
    exact done_of_settled hs
  case refine_10 =>
    intro s a size v hs h
    show (s.registerWrite a size v).done = _
    rw [registerWrite_discarded v h]
    exact done_of_settled hs
  case refine_11 =>
    intro s u inst a hs hl hd
    refine ⟨(s.uncorrectableRead u inst a false).sendRelayed, rfl, ?_⟩
    have hr : (s.uncorrectableRead u inst a false).sendRelayed.com.readData = (s.uncorrectableRead u inst a false).com.readData := by simp
    rw [hr]
    simp [State.uncorrectableRead, hl, hd]
    decide
  case refine_12 =>
    intro s u inst a hs hl hd
    refine ⟨(s.uncorrectableRead u inst a true).sendRelayed, rfl, ?_⟩
    have hr : (s.uncorrectableRead u inst a true).sendRelayed.com.spi = (s.uncorrectableRead u inst a true).com.spi := by simp
    rw [hr]
    simp [State.uncorrectableRead, hl, hd]
    decide

end Sys2Proof.Proofs
end

section
/-!
PROOFS. The SPI target and the I2C target (12_commands.md R435 to R438).
-/
namespace Sys2Proof.Proofs
open Sys2Proof Sys2Proof.Machine Sys2Proof.Laws

set_option Elab.async false

variable {s : State}

/-- The packet that waits once its header has passed. -/
def heldPacket (via : Via) (b : List Byte) : Received :=
  Received.mk (fld b 2 2) (Request.mk via (fld b 4 2) (BitVec.ofNat 32 (fld b 8 4)) (packetPayload b)) false none false

/-- A packet whose header passes waits in order of receipt (R443, R446). -/
theorem receive_passed {via : Via} {page : Option Nat} {exactLen : Bool} {b : List Byte} (h : headerCheck page exactLen b = none) :
    s.receive via page exactLen b = { s with com := { s.com with received := s.com.received ++ [heldPacket via b] } } := by
  simp only [State.receive, h, heldPacket]

/-- The SPI target takes a packet. -/
theorem packetWrite_taken {b : List Byte} (hu : s.targetsUp = true) (hd : s.power.dormant = .no)
    (hsp : s.cmdSpace s.com.spi .spi = true) : s.packetWrite b = s.receive .spi none true b := by
  simp [State.packetWrite, hu, hd, hsp]

/-- The SPI target without space discards the packet with OVERRUN and SPI_OVERRUN (R435). -/
theorem packetWrite_discarded {b : List Byte} (hu : s.targetsUp = true) (hd : s.power.dormant = .no)
    (hsp : s.cmdSpace s.com.spi .spi = false) :
    s.packetWrite b = (s.modSpi fun t => { t with overrun := true, discarded := t.discarded + 1 }).raise islCtrl .spiOverrun 0xFFFF
      (le 2 (satN 2 (s.com.spi.discarded + 1))) := by
  simp [State.packetWrite, hu, hd, hsp]

/-- The SPI target returns a response. -/
theorem responseRead_eq (whole : Bool) (hu : s.targetsUp = true) (hd : s.power.dormant = .no) :
    s.responseRead whole = s.modSpi fun t => t.readResponse whole := by
  simp [State.responseRead, hu, hd]

/-- A whole read removes the oldest response (R435). -/
theorem readResponse_whole {t : Target} {r : Rsp} {rs : List Rsp} (h : t.responses = r :: rs) :
    t.readResponse true = { t with lastRead := r.bytes ++ [0], responses := rs } := by
  simp [Target.readResponse, h]

/-- A read that ends early leaves it waiting (R435). -/
theorem readResponse_early {t : Target} {r : Rsp} {rs : List Rsp} (h : t.responses = r :: rs) :
    t.readResponse false = { t with lastRead := r.bytes.dropLast } := by
  simp [Target.readResponse, h]

/-- A change of the SPI target that depends on its present contents alone. -/
theorem modSpi_congr {f g : Target → Target} (h : f s.com.spi = g s.com.spi) : s.modSpi f = s.modSpi g := by
  rw [State.modSpi, h, State.modSpi]

/-- A change of the I2C target that depends on its present contents alone. -/
theorem modI2c_congr {f g : Target → Target} (h : f s.com.i2c = g s.com.i2c) : s.modI2c f = s.modI2c g := by
  rw [State.modI2c, h, State.modI2c]

/-- The I2C target takes a packet. -/
theorem i2cPacketWrite_taken {b : List Byte} (hu : s.targetsUp = true) (ho : s.com.i2cOff = false) (hd : s.power.dormant = .no)
    (hsp : s.cmdSpace s.com.i2c .i2c = true) : s.i2cPacketWrite b = s.receive .i2c none true b := by
  simp [State.i2cPacketWrite, hu, ho, hd, hsp]

/-- The I2C target without space discards the packet with OVERRUN (R438). -/
theorem i2cPacketWrite_discarded {b : List Byte} (hu : s.targetsUp = true) (ho : s.com.i2cOff = false) (hd : s.power.dormant = .no)
    (hsp : s.cmdSpace s.com.i2c .i2c = false) :
    s.i2cPacketWrite b = s.modI2c fun t => { t with overrun := true, discarded := t.discarded + 1 } := by
  simp [State.i2cPacketWrite, hu, ho, hd, hsp]

/-- The I2C target returns a response. -/
theorem i2cRead_response (whole : Bool) (hu : s.targetsUp = true) (ho : s.com.i2cOff = false) (hd : s.power.dormant = .no) :
    s.i2cRead false whole = s.modI2c fun t => t.readResponse whole := by
  simp [State.i2cRead, hu, ho, hd]

/-- The I2C target returns its status word and clears OVERRUN (R438). -/
theorem i2cRead_status (whole : Bool) (hu : s.targetsUp = true) (ho : s.com.i2cOff = false) (hd : s.power.dormant = .no) :
    s.i2cRead true whole = s.modI2c fun t =>
      { t with lastRead := le 4 (s.statusWord s.com.i2c .i2c), overrun := false, discarded := 0 } := by
  simp [State.i2cRead, hu, ho, hd]

/-- The SPI target reaches the global block, DORMANT or not (R554). -/
theorem spiReaches_global {o : Nat} (hu : s.targetsUp = true) (ho : o < 0x10000) : s.spiReaches o = true := by
  have hp : bar0Part o = .global o := if_pos ho
  simp [State.spiReaches, hu, hp]

/-- REG_READ of a global register other than CHAMBER_LO. -/
theorem regRead_global {o : Nat} (hu : s.targetsUp = true) (ho : o < 0x10000) (ha : o % 4 = 0) (hc : o ≠ 0x20) :
    s.regRead o = s.modSpi fun t => { t with lastRead := le 4 (s.globalReg o).toNat } := by
  have hp : bar0Part (o / 4 * 4) = .global o := by
    rw [show o / 4 * 4 = o by omega]
    exact if_pos ho
  rw [State.regRead, spiReaches_global hu ho, bar0Read_global hp hc]
  rfl

/-- REG_WRITE of SCRATCH0. -/
theorem regWrite_scratch0 (v : Reg) (hu : s.targetsUp = true) :
    s.regWrite 0x10 v = { s with com := { s.com with scratch0 := v } } := by
  rw [State.regWrite, spiReaches_global hu (by decide), bar0Write_scratch0]
  rfl

/-- Settles O19: each row of a target that is up, in the case that the statement names. -/
theorem targetRowsComplete : Obligations.TargetRowsComplete := by
  unfold Obligations.TargetRowsComplete
  refine ⟨?_, ?_, ?_, ?_, ?_, ?_, ?_, ?_, ?_, ?_, ?_, ?_⟩
  case refine_1 =>
    intro s b hs hu hd hsp hh
    show (s.packetWrite b).done = _
    rw [packetWrite_taken hu hd hsp, receive_passed hh]
    exact done_of_settled hs
  case refine_2 =>
    intro s b hs hu hd hsp
    refine ⟨(s.packetWrite b).sendRelayed, rfl, ?_⟩
    rw [packetWrite_discarded hu hd hsp]
    simp
  case refine_3 =>
    intro s b hs hu ho hd hsp hh
    show (s.i2cPacketWrite b).done = _
    rw [i2cPacketWrite_taken hu ho hd hsp, receive_passed hh]
    exact done_of_settled hs
  case refine_4 =>
    intro s r rs hs hu hd hr
    show (s.responseRead true).done = _
    rw [responseRead_eq true hu hd, modSpi_congr (g := fun t => { t with lastRead := r.bytes ++ [0], responses := rs }) (readResponse_whole hr)]
    exact done_of_settled hs
  case refine_5 =>
    intro s r rs hs hu hd hr
    show (s.responseRead false).done = _
    rw [responseRead_eq false hu hd, modSpi_congr (g := fun t => { t with lastRead := r.bytes.dropLast }) (readResponse_early hr)]
    exact done_of_settled hs
  case refine_6 =>
    intro s hs hu
    show s.statusRead.done = _
    rw [State.statusRead, hu]
    exact done_of_settled hs
  case refine_7 =>
    intro s r rs hs hu ho hd hr
    show (s.i2cRead false true).done = _
    rw [i2cRead_response true hu ho hd, modI2c_congr (g := fun t => { t with lastRead := r.bytes ++ [0], responses := rs }) (readResponse_whole hr)]
    exact done_of_settled hs
  case refine_8 =>
    intro s r rs hs hu ho hd hr
    show (s.i2cRead false false).done = _
    rw [i2cRead_response false hu ho hd, modI2c_congr (g := fun t => { t with lastRead := r.bytes.dropLast }) (readResponse_early hr)]
    exact done_of_settled hs
  case refine_9 =>
    intro s b hs hu ho hd hsp
    refine ⟨(s.i2cPacketWrite b).sendRelayed, rfl, ?_⟩
    rw [i2cPacketWrite_discarded hu ho hd hsp]
    simp
  case refine_10 =>
    intro s hs hu ho hd
    show (s.i2cRead true true).done = _
    rw [i2cRead_status true hu ho hd]
    exact done_of_settled hs
  case refine_11 =>
    intro s o hs hu ho ha hc
    show (s.regRead o).done = _
    rw [regRead_global hu ho ha hc]
    exact done_of_settled hs
  case refine_12 =>
    intro s v hs hu
    show (s.regWrite 0x10 v).done = _
    rw [regWrite_scratch0 v hu]
    exact done_of_settled hs

end Sys2Proof.Proofs
end

section
/-!
PROOFS. The endpoint's reset and power states, and the steps of jobs (12_commands.md R427, R453).
-/
namespace Sys2Proof.Proofs
open Sys2Proof Sys2Proof.Machine Sys2Proof.Laws

set_option Elab.async false

variable {s : State}

/-- What the step for one element brings about, and every step keeps, holds after the fold over a list with that element. -/
theorem foldl_establishes {α β : Type} (P : β → Prop) {f : β → α → β} {a : α} (hkeep : ∀ t b, P t → P (f t b)) (hest : ∀ t, P (f t a)) :
    ∀ (l : List α) (t : β), a ∈ l → P (l.foldl f t)
  | [], _, h => absurd h List.not_mem_nil
  | b :: l, t, h => by
    rcases List.mem_cons.mp h with rfl | h
    · exact foldl_keeps P f hkeep l _ (hest t)
    · exact foldl_establishes P hkeep hest l _ h

/-! PCIE_PERST_N. -/

/-- What the endpoint's reset leaves of a page. -/
def perstPage (p : Page) : Page :=
  { ({} : Page) with
    intStatus := p.intStatus, intMask := p.intMask, vector := p.vector, pin := p.pin, pinEn := p.pinEn
    moderation := p.moderation, ctrSelect := p.ctrSelect, shadowHi := p.shadowHi }

/-- The endpoint's reset of one page. -/
def perstOne (s : State) (n : Nat) : State := (s.ringReset n).modPage n perstPage

/-- The endpoint itself, once its pages are reset. -/
def endpointReset (s : State) : State := { s with com := { s.com with msix := [], pba := 0, d3hot := false } }

/-- The endpoint's reset, page by page. -/
theorem perst_eq (s : State) : s.perst = endpointReset ((List.range 16).foldl perstOne s) := rfl

/-- What RING_CTRL.RESET leaves of a page (R433). -/
def ringResetPage (p : Page) : Page :=
  { p with
    enable := false, halted := false, cause := 0, index := 0, cmdqTail := 0, cmdqHead := 0, rspqTail := 0, rspqHead := 0
    unread := [], held := [], outstanding := 0 }

/-- RING_CTRL.RESET of a page. -/
theorem page_ringReset_self (s : State) (n : Nat) : (s.ringReset n).page n = ringResetPage (s.page n) :=
  page_modPage_self _ n ringResetPage

/-- The page that is reset. -/
theorem page_perstOne_self (s : State) (n : Nat) : (perstOne s n).page n = perstPage (s.page n) := by
  rw [perstOne, page_modPage_self, page_ringReset_self]
  rfl

/-- The other pages. -/
theorem page_perstOne_ne (s : State) {n k : Nat} (h : k ≠ n) : (perstOne s n).page k = s.page k :=
  (page_modPage_ne _ _ h).trans (page_modPage_ne _ _ h)

/-- A ring that is reset and holds nothing. -/
def Emptied (p : Page) : Prop :=
  p.enable = false ∧ p.cmdqHead = 0 ∧ p.cmdqTail = 0 ∧ p.rspqHead = 0 ∧ p.rspqTail = 0 ∧ p.unread = []

/-- Every page is emptied. -/
theorem emptied_perst (s : State) {n : Nat} (hn : n ≤ 15) : Emptied (((List.range 16).foldl perstOne s).page n) := by
  have hself : ∀ t : State, Emptied ((perstOne t n).page n) := fun t => by
    rw [page_perstOne_self]
    exact ⟨rfl, rfl, rfl, rfl, rfl, rfl⟩
  refine foldl_establishes (fun t : State => Emptied (t.page n)) (fun t b h => ?_) hself _ s (List.mem_range.mpr (by omega))
  by_cases hb : n = b
  · exact hb ▸ hself t
  · exact (page_perstOne_ne t hb).symm ▸ h

/-- What the endpoint's reset leaves: interrupt status, the packet targets and everything outside the command interface. -/
def PerstKeeps (s t : State) : Prop :=
  (∀ n, (t.page n).intStatus = (s.page n).intStatus) ∧ t.com.spi = s.com.spi ∧ t.com.i2c = s.com.i2c ∧
    t.com.relayed = s.com.relayed ∧ { t with com := s.com } = s

/-- The reset of one page leaves it. -/
theorem perstKeeps_one {t : State} (h : PerstKeeps s t) (b : Nat) : PerstKeeps s (perstOne t b) := by
  obtain ⟨hint, hspi, hi2c, hrel, hrest⟩ := h
  refine ⟨fun n => ?_, hspi, hi2c, hrel, hrest⟩
  rw [← hint n]
  by_cases hb : n = b
  · rw [hb, page_perstOne_self]; rfl
  · rw [page_perstOne_ne t hb]

/-- The whole reset leaves it. -/
theorem perstKeeps_all (s : State) : PerstKeeps s ((List.range 16).foldl perstOne s) :=
  foldl_keeps (PerstKeeps s) perstOne (fun _ b h => perstKeeps_one h b) _ _ ⟨fun _ => rfl, rfl, rfl, rfl, rfl⟩

/-! The return to D0. -/

/-- With the command interface put back, a response written to a ring leaves no trace. -/
theorem ringRespond_restore (s : State) (n : Nat) (r : Rsp) : { s.ringRespond n r with com := s.com } = s := by
  unfold State.ringRespond
  split
  · rfl
  · dsimp only
    split
    · exact (congrArg (fun t : State => { t with com := s.com }) (setInt_restore _ n 0) :)
    · rfl

/-- In D0 a response that is written is held on no page. -/
theorem ringRespond_held (s : State) (n k : Nat) (r : Rsp) (hd : s.com.d3hot = false) :
    ((s.ringRespond n r).page k).held = (s.page k).held := by
  unfold State.ringRespond
  rw [if_neg (by simp [hd])]
  dsimp only
  by_cases hk : k = n
  · subst hk
    split <;> simp [page_setInt_self, page_modPage_self]
  · split <;> simp [setInt_page_ne _ _ hk, page_modPage_ne _ _ hk]

/-- The responses held on a page are written. -/
def releaseHeld (s : State) (n : Nat) : State :=
  (s.page n).held.foldl (fun s r => s.ringRespond n r) (s.modPage n fun p => { p with held := [] })

/-- What the return to D0 keeps. -/
def InD0 (s t : State) : Prop := t.com.d3hot = false ∧ t.com.relayed = s.com.relayed ∧ { t with com := s.com } = s

/-- A response written keeps it. -/
theorem inD0_ringRespond {t : State} (h : InD0 s t) (n : Nat) (r : Rsp) : InD0 s (t.ringRespond n r) := by
  obtain ⟨hd, hrel, hrest⟩ := h
  refine ⟨by simpa using hd, by simpa using hrel, ?_⟩
  exact (congrArg (fun u : State => { u with com := s.com }) (ringRespond_restore t n r)).trans hrest

/-- The responses of a page written keep it, and leave the held responses of the other pages. -/
theorem inD0_releaseHeld {t : State} (h : InD0 s t) (n : Nat) :
    InD0 s (releaseHeld t n) ∧ ∀ k, ((releaseHeld t n).page k).held = if k = n then [] else (t.page k).held := by
  refine foldl_keeps (fun u : State => InD0 s u ∧ ∀ k, (u.page k).held = if k = n then [] else (t.page k).held) _
    (fun u r hu => ?_) _ _ ⟨h, fun k => ?_⟩
  · exact ⟨inD0_ringRespond hu.1 n r, fun k => (ringRespond_held u n k r hu.1.1).trans (hu.2 k)⟩
  · by_cases hk : k = n
    · rw [if_pos hk, hk, page_modPage_self]
    · rw [if_neg hk, page_modPage_ne _ _ hk]

/-- The return to D0, page by page. -/
theorem d3hot_eq (s : State) :
    s.d3hot false = (List.range 16).foldl releaseHeld { s with com := { s.com with d3hot := false } } := rfl

/-- The return to D0 keeps everything outside the command interface. -/
theorem inD0_d3hot (s : State) : InD0 s (s.d3hot false) := by
  rw [d3hot_eq]
  exact foldl_keeps (InD0 s) releaseHeld (fun _ b h => (inD0_releaseHeld h b).1) _ _ ⟨rfl, rfl, rfl⟩

/-- Writing a page's responses leaves the power state. -/
theorem releaseHeld_d3hot (t : State) (n : Nat) : (releaseHeld t n).com.d3hot = t.com.d3hot :=
  foldl_keeps (fun u : State => u.com.d3hot = t.com.d3hot) _ (fun u r hu => by simpa using hu) _ _ rfl

/-- No response is held in D0. -/
theorem d3hot_held (s : State) {n : Nat} (hn : n ≤ 15) : ((s.d3hot false).page n).held = [] := by
  have hheld : ∀ t : State, t.com.d3hot = false → ∀ b, ((releaseHeld t b).page n).held = if n = b then [] else (t.page n).held :=
    fun t ht b => (inD0_releaseHeld (s := t) ⟨ht, rfl, rfl⟩ b).2 n
  have hd0 := (inD0_d3hot s).1
  rw [d3hot_eq] at hd0 ⊢
  refine foldl_establishes (fun t : State => t.com.d3hot = false → (t.page n).held = []) (f := releaseHeld) (a := n)
    (fun t b h hd => ?_) (fun t hd => ?_) _ _ (List.mem_range.mpr (by omega)) hd0
  · rw [releaseHeld_d3hot] at hd
    rw [hheld t hd, h hd, ite_self]
  · rw [releaseHeld_d3hot] at hd
    rw [hheld t hd, if_pos rfl]

/-! Steps of jobs. -/

/-- The job of a token is what the change makes of one. -/
theorem of_mem_modJob {token : Nat} {f : Job → Job} {k : Job}
    (hk : k ∈ (s.modJob token f).jobs.list) (ht : k.token = token) : ∃ j, k = f j := by
  rw [modJob_jobs] at hk
  obtain ⟨j, -, rfl⟩ := List.mem_map.mp hk
  by_cases h : j.token = token
  · exact ⟨j, if_pos h⟩
  · exact absurd (by rwa [if_neg h] at ht) h

/-- With no packet that waits, a job step is the next job's step. -/
theorem executeOldest_none (h : s.com.received.find? Received.waits = none) : s.executeOldest = s := by
  simp [State.executeOldest, h]

/-- A job's tenant has had its turn. -/
def inTurn (s : State) (j : Job) : State := { s with jobs := { s.jobs with lastTenant := j.tenant } }

/-- The step of the next job in turn. -/
theorem jobStep_some {j : Job} (io : JobIo) (hs : s.serving = true) (hj : s.nextJob = some j) :
    s.jobStep io = (inTurn s j).runStep j io := by
  unfold inTurn
  simp [State.jobStep, hs, hj]

/-- Where no job is due a step does nothing. -/
theorem jobStep_none (io : JobIo) (hj : s.nextJob = none) : s.jobStep io = s := by
  simp [State.jobStep, hj]

/-- An image in the slot that was not preferred, which becomes the preferred one. -/
def slotWritten (s : State) (img : List Byte) : State :=
  { s with store := { s.store with slots := tput s.store.slots (1 - s.store.preferred) img, preferred := 1 - s.store.preferred } }

/-- A verified flash write puts the staged image into the slot that was not preferred (R602). -/
theorem flashWrite_image {img : List Byte} (token : Nat) (hi : s.staged 1 = some img) :
    s.flashWrite token 1 true = (slotWritten s img).finishJob token .ok [] := by
  simp [State.flashWrite, hi, slotWritten]

/-- Writing memory works on the memories alone. -/
theorem memWrite_jobs (s : State) (J : Jobs) (u inst addr : Nat) (bytes : List Byte) :
    ({ s with jobs := J } : State).memWrite u inst addr bytes = { s.memWrite u inst addr bytes with jobs := J } := by
  have hfold : ∀ (l : List Nat) (key : Nat → Nat) (f : MemInst → MemInst),
      l.foldl (fun (t : State) k => t.modInst (key k) f) ({ s with jobs := J } : State) =
        { l.foldl (fun (t : State) k => t.modInst (key k) f) s with jobs := J } := fun l key f =>
    List.foldl_hom (fun t : State => { t with jobs := J }) (fun _ _ => rfl)
  unfold State.memWrite
  dsimp only
  rw [hfold]
  rfl

/-- With the memories put back, writing memory leaves no trace. -/
theorem memWrite_restore (s : State) (u inst addr : Nat) (bytes : List Byte) : { s.memWrite u inst addr bytes with mem := s.mem } = s := by
  have hfold : ∀ (l : List Nat) (key : Nat → Nat) (f : MemInst → MemInst),
      { l.foldl (fun (t : State) k => t.modInst (key k) f) s with mem := s.mem } = s := fun l key f =>
    foldl_keeps (fun t : State => { t with mem := s.mem } = s) (fun t k => t.modInst (key k) f) (fun _ _ h => h) l s rfl
  unfold State.memWrite
  exact hfold ..

/-- A step of a pattern's fill that is not its last (R507). -/
theorem fillStep_pattern {j : Job} {io : JobIo} {u addr len data done : Nat} (hd : s.dark u = none) (hb : io.readBad = none)
    (hl : done + 4096 < len) :
    s.fillStep j 1 u addr len data done io =
      (s.memWrite u 0 (addr + done) ((List.range 512).flatMap fun _ => le 8 data)).modJob j.token fun j =>
        { j with work := .fill 1 u addr len data (done + 4096), progress := (done + 4096) * 100 / len } := by
  have hn : min fillChunk (len - done) = 4096 := by
    rw [fillChunk]
    omega
  unfold State.fillStep
  simp only [hn, hd, hb, Option.isSome_none, Bool.false_eq_true, if_false, if_neg (Nat.not_le.mpr hl), show 4096 / 8 = 512 from rfl]

/-- Settles O20: the endpoint's rows page by page, and a job step as the next job's step. -/
theorem endpointAndJobRowsComplete : Obligations.EndpointAndJobRowsComplete := by
  unfold Obligations.EndpointAndJobRowsComplete
  refine ⟨?_, ?_, ?_, ?_, ?_, ?_⟩
  case refine_1 =>
    intro s hs
    have hpages := fun n (hn : n ≤ 15) => emptied_perst s hn
    have hkept := perstKeeps_all s
    refine ⟨s.perst, done_of_settled ?_, ?_⟩
    all_goals rw [perst_eq]; generalize (List.range 16).foldl perstOne s = t at hpages hkept
    all_goals obtain ⟨hint, hspi, hi2c, hrel, hrest⟩ := hkept
    · exact hrel.trans hs
    · refine ⟨fun n hn => ?_, rfl, hspi, hi2c, hrest⟩
      obtain ⟨hen, hch, hct, hrh, hrt, hun⟩ := hpages n hn
      exact ⟨hen, hch, hct, hrh, hrt, hun, hint n⟩
  case refine_2 =>
    intro s hs
    exact done_of_settled (s := { s with com := { s.com with d3hot := true } }) hs
  case refine_3 =>
    intro s hs
    show ∃ t, (s.d3hot false).done = _ ∧ _
    have hheld := fun n (hn : n ≤ 15) => d3hot_held s hn
    have hd0 := inD0_d3hot s
    generalize s.d3hot false = t at hheld hd0
    obtain ⟨hd, hrel, hrest⟩ := hd0
    exact ⟨t, done_of_settled (hrel.trans hs), hd, hheld, hrest⟩
  case refine_4 =>
    intro s io hs hw hj
    show (s.executeOldest.jobStep io).done = _
    rw [executeOldest_none hw, jobStep_none io hj]
    exact done_of_settled hs
  case refine_5 =>
    intro s j io off img hs hserv hw hj hwork hi hok
    refine ⟨(slotWritten (inTurn s j) img).finishJob j.token .ok [], ?_, rfl, tget_tput_self .., rfl, fun k hk ht => ?_, rfl, rfl, rfl, rfl⟩
    · show (s.executeOldest.jobStep io).done = _
      rw [executeOldest_none hw, jobStep_some io hserv hj, State.runStep, hwork]
      dsimp only
      rw [hok, flashWrite_image (s := inTurn s j) j.token hi]
      exact done_of_settled hs
    · obtain ⟨j, rfl⟩ := of_mem_modJob hk ht
      exact ⟨rfl, rfl⟩
  case refine_6 =>
    intro s j io u addr len data done hs hserv hw hj hwork hd hb hl
    have hrest := memWrite_restore s u 0 (addr + done) ((List.range 512).flatMap fun _ => le 8 data)
    have hstep : s.jobStep io = ({ s.memWrite u 0 (addr + done) ((List.range 512).flatMap fun _ => le 8 data) with
        jobs := { s.jobs with lastTenant := j.tenant } } : State).modJob j.token fun j =>
          { j with work := .fill 1 u addr len data (done + 4096), progress := (done + 4096) * 100 / len } := by
      rw [jobStep_some io hserv hj, State.runStep, hwork, ← memWrite_jobs]
      exact fillStep_pattern (s := inTurn s j) hd hb hl
    generalize s.memWrite u 0 (addr + done) ((List.range 512).flatMap fun _ => le 8 data) = t at hrest hstep ⊢
    have hengs : t.engs = s.engs := (congrArg (fun u : State => u.engs) hrest :)
    have hpas : t.pas = s.pas := (congrArg (fun u : State => u.pas) hrest :)
    have htab : t.tab = s.tab := (congrArg (fun u : State => u.tab) hrest :)
    refine ⟨({ t with jobs := { s.jobs with lastTenant := j.tenant } } : State).modJob j.token fun j =>
      { j with work := .fill 1 u addr len data (done + 4096), progress := (done + 4096) * 100 / len }, ?_, rfl, fun k hk ht => ?_,
      hengs, hpas, htab⟩
    · show (s.executeOldest.jobStep io).done = _
      rw [executeOldest_none hw, hstep]
      exact done_of_settled ((congrArg (fun u : State => u.com.relayed) hrest).trans hs)
    · obtain ⟨j, rfl⟩ := of_mem_modJob hk ht
      exact ⟨rfl, rfl⟩

end Sys2Proof.Proofs
end

section
/-!
SUPPORT and PROOFS. The commands of the log: EVENT_MASK, PM_BIN_READ, COUNTER_SNAPSHOT, LIFE_READ and LEAP_TABLE_SET (R469, R524 to R536).
-/
namespace Sys2Proof.Proofs
open Sys2Proof Sys2Proof.Machine Sys2Proof.Laws

set_option Elab.async false

variable {s : State} {q : Request}

/-! What recording an event leaves of the log. -/

/-- What both choices have, the one taken has. -/
theorem of_ite {α : Type} {P : α → Prop} {c : Prop} [Decidable c] {a b : α} (ha : P a) (hb : P b) : P (if c then a else b) := by
  split
  · exact ha
  · exact hb

/-- `m` differs from `l` at most in the ring, the spill and the counts of records. -/
def RecordsOnly (l m : Log) : Prop :=
  { m with
    ring := l.ring, evtWr := l.evtWr, evtRd := l.evtRd, raised := l.raised, spill := l.spill, spillWr := l.spillWr, spillRd := l.spillRd
    written := l.written, coalesced := l.coalesced, spilled := l.spilled, masked := l.masked, drops := l.drops, dropCount := l.dropCount
    dropFirst := l.dropFirst, dropLast := l.dropLast, dropMask := l.dropMask, dropSince := l.dropSince, spillFull := l.spillFull } = l

/-- Counting dropped records. -/
theorem RecordsOnly.drop {l m : Log} (h : RecordsOnly l m) (rs : List EvRec) (ch mono : Nat) : RecordsOnly l (m.drop rs ch mono) := by
  unfold Log.drop
  refine foldl_keeps (RecordsOnly l) _ (fun m r h => ?_) _ _ h
  exact h

/-- Writing records. -/
theorem RecordsOnly.append {l m : Log} (h : RecordsOnly l m) (rs : List EvRec) : RecordsOnly l (m.append rs) := by
  unfold Log.append
  refine foldl_keeps (RecordsOnly l) _ (fun m r h => ?_) _ _ h
  exact h

/-- Moving the oldest record to the spill. -/
theorem RecordsOnly.toSpill {l m : Log} (h : RecordsOnly l m) : RecordsOnly l m.toSpill := h

/-- Passing the oldest record. -/
theorem RecordsOnly.skip {l m : Log} (h : RecordsOnly l m) : RecordsOnly l m.skip := h

/-- Dropping from the spill. -/
theorem RecordsOnly.spillCut {l m : Log} (h : RecordsOnly l m) (n : Nat) : RecordsOnly l (spillCut m n) := h

/-- Finding the spill full. -/
theorem RecordsOnly.spillRefused {l m : Log} (h : RecordsOnly l m) : RecordsOnly l (spillRefused m) := h

/-- Counting a masked occurrence. -/
theorem RecordsOnly.countMasked {l m : Log} (h : RecordsOnly l m) : RecordsOnly l (countMasked m) := h

/-- Counting a repeat. -/
theorem RecordsOnly.bump {l m : Log} (h : RecordsOnly l m) (k n : Nat) : RecordsOnly l (m.bump k n) := h

/-- Making room in the ring. -/
theorem RecordsOnly.room {l m : Log} (h : RecordsOnly l m) (ready : Bool) (n ch mono fuel : Nat) :
    RecordsOnly l (m.room ready n ch mono fuel).1 := by
  let P := fun x : Log × Bool => RecordsOnly l x.1
  induction fuel generalizing m with
  | zero => exact h
  | succ fuel ih =>
    rw [room_succ]
    refine of_ite (P := P) h (of_ite (P := P) (of_ite (P := P) ?_ (of_ite (P := P) ?_ h.spillRefused)) (of_ite (P := P) ?_ h))
    · exact ih h.toSpill
    · exact ih ((h.spillCut _).drop ..).toSpill
    · exact ih (h.drop ..).skip

/-- Recording an occurrence. -/
theorem RecordsOnly.put {l m : Log} (h : RecordsOnly l m) (ready : Bool) (ch mono : Nat) (e : Ev) (rs : List EvRec) :
    RecordsOnly l (m.put ready ch mono e rs) := by
  have hroom := h.room ready rs.length ch mono 4
  rw [put_eq]
  refine of_ite h.countMasked ?_
  cases repeated m e rs with
  | some kr =>
    rw [Option.elim_some]
    exact h.bump kr.1 rs.length
  | none =>
    rw [Option.elim_none]
    exact of_ite (P := RecordsOnly l) (hroom.append rs) (hroom.drop rs ch mono)

/-- An event changes no more of the log. -/
theorem raise_recordsOnly (s : State) (i : Nat) (e : Ev) (src : Nat) (p : List Byte) : RecordsOnly s.log (s.raise i e src p).log := by
  have hput := fun rs => RecordsOnly.put (l := s.log) rfl s.lpReady s.chamber s.mono e rs
  have hspill : ∀ m, RecordsOnly s.log m → RecordsOnly s.log (spillNoted s s.log.spillFull m) := fun m hm => by
    rw [spillNoted]
    split
    · exact hm.put ..
    · exact hm
  rw [State.raise, State.raiseAt, recordAt_log]
  exact hspill _ (hput _)

/-- The calendar, its staleness and the life record are the same. -/
def SameCalendar (l m : Log) : Prop := m.calendar = l.calendar ∧ m.stale = l.stale ∧ m.life = l.life

/-- Recording leaves them. -/
theorem RecordsOnly.sameCalendar {l m : Log} (h : RecordsOnly l m) : SameCalendar l m :=
  ⟨(congrArg Log.calendar h :), (congrArg Log.stale h :), (congrArg Log.life h :)⟩

/-! Closing the open bins. -/

/-- `t` differs from `s` at most in the log and the command interface, with the calendar and the life record of `s`. -/
def BinsOnly (s t : State) : Prop := { t with log := s.log, com := s.com } = s ∧ SameCalendar s.log t.log

/-- Closing the bins of a kind. -/
theorem BinsOnly.closeKind {t : State} (h : BinsOnly s t) (kind flags next : Nat) : BinsOnly s (t.closeKind kind flags next) := by
  obtain ⟨hrest, hcal, hstale, hlife⟩ := h
  unfold State.closeKind
  extract_lets ch common bins u
  obtain ⟨hc, hs, hl⟩ := (raise_recordsOnly u islCtrl .pmBinClosed 0xFFFF (le 1 kind ++ le 1 common ++ le 2 (satN 2 bins.length))).sameCalendar
  refine ⟨?_, hc.trans hcal, hs.trans hstale, hl.trans hlife⟩
  have hput := (recordAt_logAndWatermarkOnly u u.now islCtrl .pmBinClosed 0xFFFF
    (le 6 (chamberOf u.epoch u.now) ++ (le 1 kind ++ le 1 common ++ le 2 (satN 2 bins.length)))).1
  exact (congrArg (fun v : State => { v with log := s.log, com := s.com }) hput).trans hrest

/-- Closing every open bin at a new calendar (R529, R536). -/
theorem binsOnly_closeBins (s : State) (dest : Nat) : BinsOnly s (s.closeBins dest) := by
  have hself : BinsOnly s s.syncBins := ⟨rfl, rfl, rfl, rfl⟩
  unfold State.closeBins
  split
  · exact ⟨rfl, rfl, rfl, rfl⟩
  · exact (hself.closeKind 1 4 _).closeKind 2 4 _

/-! EVENT_MASK. -/

/-- The flags and floors that EVENT_MASK ACTION 1 sets. -/
def maskSet (s : State) (q : Request) : State :=
  { s with log := { s.log with keepNewest := q.u 1 1 % 2 == 1, spillEn := q.u 1 1 / 2 % 2 == 1, floor := q.u 8 8 } }

/-- EVENT_MASK ACTION 1. -/
theorem exec_eventMask_sets (h : s.takes 0x0701 q) (h0 : q.tenant = 0) (hl : q.len = 16) (hact : q.u 0 1 = 1) (hf : q.u 1 1 ≤ 3)
    (hc : q.u 2 1 = 0) (h3 : q.rsv 3 5 = true) :
    exec (.eventMask q) s = .next ((maskSet s.accepted q).answer 0x0701 q (maskSet s.accepted q).maskReply) := by
  have hbits : bitAt (q.u 1 1) 0 = (q.u 1 1 % 2 == 1) ∧ bitAt (q.u 1 1) 1 = (q.u 1 1 / 2 % 2 == 1) := by
    generalize q.u 1 1 = f at hf
    revert f
    decide
  show (s.cmdEventMask q).done = _
  simp only [State.cmdEventMask, hact, hl, hc, hbits.1, hbits.2]
  refine serve_done_of_run h ?_ rfl
  simp [h3, onlyT0, h0, Nat.not_lt.mpr hf]

/-- EVENT_MASK ACTION 2. -/
theorem exec_eventMask_reads (h : s.takes 0x0701 q) (h0 : q.tenant = 0) (hl : q.len = 16) (hact : q.u 0 1 = 2) (h1 : q.rsv 1 15 = true) :
    exec (.eventMask q) s = .next (s.accepted.answer 0x0701 q s.maskReply) := by
  have hf : q.u 1 1 = 0 := u_of_rsv (rsv_mono h1)
  have hc : q.u 2 1 = 0 := u_of_rsv (rsv_mono h1)
  have h3 : q.rsv 3 5 = true := rsv_mono h1
  have h8 : q.rsv 8 8 = true := rsv_mono h1
  show (s.cmdEventMask q).done = _
  simp only [State.cmdEventMask, hact, hl, hc, hf]
  refine serve_done_of_run h ?_ rfl
  simp [h3, h8, onlyT0, h0]

/-- EVENT_MASK ACTION 3. -/
theorem exec_eventMask_spill (h : s.takes 0x0701 q) (h0 : q.tenant = 0) (hl : q.len = 16) (hact : q.u 0 1 = 3) (hf : q.u 1 1 = 0)
    (hc1 : 1 ≤ q.u 2 1) (hc : q.u 2 1 ≤ 127) (h3 : q.rsv 3 13 = true) (hen : s.log.spillEn = true) (hlp : s.lpReady = true) :
    exec (.eventMask q) s =
      .next ((s.accepted.readSpill (q.u 2 1)).1.answer 0x0701 q (s.accepted.readSpill (q.u 2 1)).2) := by
  have h35 : q.rsv 3 5 = true := rsv_mono h3
  have h8 : q.rsv 8 8 = true := rsv_mono h3
  show (s.cmdEventMask q).done = _
  simp only [State.cmdEventMask, hact, hl, hf]
  refine serve_done_of_run h ?_ rfl
  simp [h35, h8, onlyT0, h0, hen, hlp, Nat.not_lt.mpr hc, Nat.ne_of_gt hc1]

/-- The answer holds the records read, after a header of 16 bytes that counts them. -/
theorem readSpill_reply (s : State) {n : Nat} (hn : n ≤ 127) :
    fld (s.readSpill n).2 2 1 = (s.log.spill.take n).length ∧
      (s.readSpill n).2.drop 16 = (s.log.spill.take n).flatMap EvRec.bytes := by
  refine ⟨?_, rfl⟩
  have hlen : (s.log.spill.take n).length < 256 := by
    rw [List.length_take]
    omega
  show (BitVec.ofNat 8 (s.log.spill.take n).length).toNat + 256 * 0 = _
  rw [BitVec.toNat_ofNat, Nat.mod_eq_of_lt hlen, Nat.mul_zero, Nat.add_zero]

/-! PM_BIN_READ and COUNTER_SNAPSHOT. -/

/-- PM_BIN_READ of a closed bin. -/
theorem exec_pmBinRead_closed {set : BinSet} {b : Bin} (h : s.takes 0x0702 q) (hl : q.len = 8) (hk : q.u 4 1 = 1 ∨ q.u 4 1 = 2)
    (h1 : 1 ≤ q.u 5 1) (hmax : q.u 5 1 ≤ (if q.u 4 1 = 1 then 32 else 7)) (h6 : q.rsv 6 2 = true)
    (hg : (s.group (q.u 0 2) (s.normInst (q.u 0 2) (q.u 2 2))).isSome = true) (ht : s.tenantOn q)
    (hmay : s.mayRead q.tenant (q.u 0 2) (s.normInst (q.u 0 2) (q.u 2 2)) = true) (hlp : s.lpReady = true)
    (hset : tget s.log.bins (q.u 0 2 * 65536 + s.normInst (q.u 0 2) (q.u 2 2)) = some set)
    (hb : (set.closed (q.u 4 1))[q.u 5 1 - 1]? = some b) :
    exec (.pmBinRead q) s = .next (s.accepted.answer 0x0702 q (binReply b (q.u 4 1))) := by
  have hz : q.u 5 1 ≠ 0 := Nat.ne_of_gt h1
  have hset' : tget s.log.bins (binKey (q.u 0 2, s.normInst (q.u 0 2) (q.u 2 2))) = some set := hset
  have hg' := Option.isNone_eq_false_iff.mpr hg
  show (s.cmdPmBinRead q).done = _
  simp only [State.cmdPmBinRead, hl, hset', hb, if_neg hz]
  refine serve_done_of_run h ?_ rfl
  have hkind : ¬q.u 4 1 = 0 ∧ q.u 4 1 ≤ 2 := by omega
  simp [hkind, h6, hg', State.disabled, ht, hmay, hlp, hmax, State.firstDark]

/-- PM_BIN_READ of the open bin waits for the next chamber boundary. -/
theorem exec_pmBinRead_open (h : s.takes 0x0702 q) (hl : q.len = 8) (hk : q.u 4 1 = 1 ∨ q.u 4 1 = 2) (hz : q.u 5 1 = 0)
    (h6 : q.rsv 6 2 = true) (hg : (s.group (q.u 0 2) (s.normInst (q.u 0 2) (q.u 2 2))).isSome = true) (hd : s.dark (q.u 0 2) = none)
    (ht : s.tenantOn q) (hmay : s.mayRead q.tenant (q.u 0 2) (s.normInst (q.u 0 2) (q.u 2 2)) = true) (hlp : s.lpReady = true) :
    exec (.pmBinRead q) s = .next ((s.accepted.freezeLater q (q.u 0 2) (s.normInst (q.u 0 2) (q.u 2 2)) 0 (some (q.u 4 1))).defer
      0x0702 q).sendRelayed := by
  have hg' := Option.isNone_eq_false_iff.mpr hg
  have hkind : ¬q.u 4 1 = 0 ∧ q.u 4 1 ≤ 2 := by omega
  show (s.cmdPmBinRead q).done = _
  simp only [State.cmdPmBinRead, hl, hz, if_true]
  refine serve_done_of_wait h ?_ rfl
  rw [judge_bad_cons, judge_lit_cons hd, judge_lit_nil]
  · simp [State.disabled, ht, hmay, hlp]
  · simp [hkind, h6, hg']

/-- COUNTER_SNAPSHOT waits for the next chamber boundary. -/
theorem exec_counterSnapshot (h : s.takes 0x0703 q) (hl : q.len = 8) (hslot : q.u 4 1 ≤ 15) (h5 : q.rsv 5 3 = true)
    (hg : (s.group (q.u 0 2) (s.normInst (q.u 0 2) (q.u 2 2))).isSome = true) (hd : s.dark (q.u 0 2) = none)
    (ht : s.tenantOn q) (hmay : s.mayRead q.tenant (q.u 0 2) (s.normInst (q.u 0 2) (q.u 2 2)) = true) :
    exec (.counterSnapshot q) s = .next ((s.accepted.freezeLater q (q.u 0 2) (s.normInst (q.u 0 2) (q.u 2 2)) (q.u 4 1) none).defer
      0x0703 q).sendRelayed := by
  have hg' := Option.isNone_eq_false_iff.mpr hg
  show (s.cmdCounterSnapshot q).done = _
  simp only [State.cmdCounterSnapshot, hl]
  refine serve_done_of_wait h ?_ rfl
  rw [judge_bad_cons, judge_lit_cons hd, judge_lit_nil]
  · simp [State.disabled, ht, hmay]
  · simp [h5, hg', Nat.not_lt.mpr hslot]

/-! LIFE_READ. -/

/-- LIFE_READ of the live record. -/
theorem exec_lifeRead_live (h : s.takes 0x0704 q) (ht : s.tenantOn q) (hl : q.len = 4) (hslot : q.u 0 1 = 0xFF) (h1 : q.rsv 1 3 = true) :
    exec (.lifeRead q) s = .next (s.accepted.answer 0x0704 q ([0, 0, 1] ++ le 1 s.log.lifeNext ++ zeros 4 ++
      { s.log.life with seq := s.log.life.seq + 1 }.bytes)) := by
  show (s.cmdLifeRead q).done = _
  simp only [State.cmdLifeRead, hl, hslot]
  refine serve_done_of_run h ?_ rfl
  rw [judge_bad_cons, judge_anyTenant ht, judge_nil]
  simp [h1]

/-- LIFE_READ of a slot that holds a record. -/
theorem exec_lifeRead_slot {l : Life} (h : s.takes 0x0704 q) (ht : s.tenantOn q) (hl : q.len = 4) (hslot : q.u 0 1 < 64)
    (h1 : q.rsv 1 3 = true) (hrec : tget s.log.lifeSlots (q.u 0 1) = some l) :
    exec (.lifeRead q) s = .next (s.accepted.answer 0x0704 q ([0, 0, 1] ++ le 1 (q.u 0 1) ++ zeros 4 ++ l.bytes)) := by
  have hne : q.u 0 1 ≠ 0xFF := by omega
  show (s.cmdLifeRead q).done = _
  simp only [State.cmdLifeRead, hl, if_neg hne]
  refine serve_done_of_run h ?_ (by rw [show tget s.accepted.log.lifeSlots (q.u 0 1) = _ from hrec]; rfl)
  rw [judge_bad_cons, judge_anyTenant ht, judge_nil]
  simp [h1, hslot]

/-- LIFE_READ of a slot that holds none gives free bytes (assumption 3). -/
theorem exec_lifeRead_empty (h : s.takes 0x0704 q) (ht : s.tenantOn q) (hl : q.len = 4) (hslot : q.u 0 1 < 64) (h1 : q.rsv 1 3 = true)
    (hrec : tget s.log.lifeSlots (q.u 0 1) = none) :
    exec (.lifeRead q) s = .next ((s.accepted.freeBytes 256).2.answer 0x0704 q
      (le 1 0 ++ le 1 0 ++ le 1 0 ++ le 1 (q.u 0 1) ++ zeros 4 ++ (s.accepted.freeBytes 256).1)) := by
  have hne : q.u 0 1 ≠ 0xFF := by omega
  show (s.cmdLifeRead q).done = _
  simp only [State.cmdLifeRead, hl, if_neg hne]
  refine serve_done_of_run h ?_ (by rw [show tget s.accepted.log.lifeSlots (q.u 0 1) = _ from hrec])
  rw [judge_bad_cons, judge_anyTenant ht, judge_nil]
  simp [h1, hslot]

/-! LEAP_TABLE_SET. -/

/-- The live record with one more write of the calendar. -/
def calendarCounted (s : State) : State := s.modLife fun l => { l with wrCal := l.wrCal + 1 }

/-- A calendar in force. -/
def calendarSet (s : State) (c : Calendar) : State := { s with log := { s.log with calendar := c, stale := false } }

section
variable (h : s.takes 0x0705 q) (h0 : q.tenant = 0) (hact : q.u 0 1 = 1) (hn : q.u 1 1 ≤ 64) (hl : q.len = 16 + 8 * q.u 1 1)
variable (h4 : q.rsv 4 4 = true) (h14 : q.rsv 14 2 = true) (hbad : (calendarOf q).bad = false)
include h h0 hact hn hl h4 h14 hbad

/-- LEAP_TABLE_SET ACTION 1 whose write succeeds. -/
theorem exec_leapTableSet_sets :
    exec (.leapTableSet q true) s = .next (((calendarSet ((calendarCounted s.accepted).mtpWrite 3 (15 + 8 * q.u 1 1) true)
      (calendarOf q)).closeBins s.now).answer 0x0705 q (calendarOf q).reply) := by
  show (s.leapTableSet q true State.closeBins).done = _
  simp only [State.leapTableSet, hact, hl, beq_self_eq_true]
  refine serve_done_of_run h ?_ rfl
  simp [hbad, h4, h14, onlyT0, h0, Nat.not_lt.mpr hn]

/-- LEAP_TABLE_SET ACTION 1 whose write fails. -/
theorem exec_leapTableSet_fails :
    exec (.leapTableSet q false) s = .next (((calendarCounted s.accepted).mtpWrite 3 (15 + 8 * q.u 1 1) false).answer 0x0705 q
      (refusal (16 + 8 * q.u 1 1) { st := .hwFault })) := by
  show (s.leapTableSet q false State.closeBins).done = _
  simp only [State.leapTableSet, hact, hl, beq_self_eq_true]
  refine serve_done_of_run h ?_ rfl
  simp [hbad, h4, h14, onlyT0, h0, Nat.not_lt.mpr hn]

end

/-- LEAP_TABLE_SET ACTION 2. -/
theorem exec_leapTableSet_reads (ok : Bool) (h : s.takes 0x0705 q) (h0 : q.tenant = 0) (hl : q.len = 16) (hact : q.u 0 1 = 2)
    (hn : q.u 1 1 = 0) (h2 : q.rsv 2 14 = true) :
    exec (.leapTableSet q ok) s = .next (s.accepted.answer 0x0705 q s.log.calendar.reply) := by
  show (s.leapTableSet q ok State.closeBins).done = _
  simp only [State.leapTableSet, hact, hl, hn]
  refine serve_done_of_run h ?_ rfl
  simp [h2, onlyT0, h0]

/-- A failed MTP write leaves the calendar in force, and marks its copy invalid. -/
theorem mtpWrite_fails (s : State) (id len : Nat) :
    (s.mtpWrite id len false).log.calendar = s.log.calendar ∧
      { (s.mtpWrite id len false).store with invalid := s.store.invalid } = s.store ∧
      (s.mtpWrite id len false).engs = s.engs ∧ (s.mtpWrite id len false).pas = s.pas := by
  refine ⟨?_, ?_, ?_, ?_⟩
  · exact (raise_recordsOnly ..).sameCalendar.1
  all_goals simp [State.mtpWrite]

/-- An MTP write that succeeds changes MTP alone. -/
theorem mtpWrite_succeeds (s : State) (id len : Nat) :
    (s.mtpWrite id len true).now = s.now ∧ (s.mtpWrite id len true).tim = s.tim ∧ (s.mtpWrite id len true).engs = s.engs ∧
      (s.mtpWrite id len true).pas = s.pas ∧ (s.mtpWrite id len true).log = s.log := by
  simp [State.mtpWrite, State.mtpBegin]

/-- HW_FAULT as an answer of its command's length (R16). -/
theorem fld_refusal_hwFault (n : Nat) : fld (refusal (16 + n) { st := .hwFault }) 0 1 = 0x50 := by
  rw [refusal, if_neg (by decide), Nat.add_comm]
  rfl

/-- A little-endian value has as many bytes as it is given. -/
theorem length_le : ∀ n x : Nat, (le n x).length = n
  | 0, _ => rfl
  | n + 1, x => congrArg Nat.succ (length_le n (x / 256))

/-- The answer of an empty slot: its header, and 256 bytes. -/
theorem emptySlot_reply (x : Nat) {b : List Byte} (hb : b.length = 256) :
    (le 1 0 ++ le 1 0 ++ le 1 0 ++ le 1 x ++ zeros 4 ++ b).take 8 = [0, 0, 0] ++ le 1 x ++ zeros 4 ∧
      (le 1 0 ++ le 1 0 ++ le 1 0 ++ le 1 x ++ zeros 4 ++ b).length = 264 := by
  refine ⟨rfl, ?_⟩
  rw [List.length_append, hb]
  rfl

/-- Settles O26, command by command. -/
theorem logCommandsComplete : Obligations.LogCommandsComplete := by
  unfold Obligations.LogCommandsComplete
  refine ⟨?_, fun s q => exec_eventMask_reads, ?_, fun s q set b => exec_pmBinRead_closed, ?_, ?_, fun s q => exec_lifeRead_live,
    fun s q l => exec_lifeRead_slot, ?_, ?_, ?_, fun s q ok h h0 hl hact hn h2 => exec_leapTableSet_reads ok h h0 hl hact hn h2⟩
  case refine_1 =>
    intro s q h h0 hl hact hf hc h3
    exact ⟨_, exec_eventMask_sets h h0 hl hact hf hc h3, rfl, rfl⟩
  case refine_2 =>
    intro s q h h0 hl hact hf hc1 hc h3 hen hlp
    obtain ⟨hlen, hbytes⟩ := readSpill_reply s.accepted hc
    exact ⟨_, _, exec_eventMask_spill h h0 hl hact hf hc1 hc h3 hen hlp, rfl, rfl, hlen, hbytes, rfl⟩
  case refine_3 =>
    intro s q h hl hk hz h6 hg hd ht hmay hlp
    refine ⟨_, exec_pmBinRead_open h hl hk hz h6 hg hd ht hmay hlp, ?_, ?_⟩
    · simp [State.freezeLater]; rfl
    · simp [State.freezeLater]
  case refine_4 =>
    intro s q h hl hslot h5 hg hd ht hmay
    refine ⟨_, exec_counterSnapshot h hl hslot h5 hg hd ht hmay, ?_, ?_⟩
    · simp [State.freezeLater]; rfl
    · simp [State.freezeLater]
  case refine_5 =>
    intro s q h ht hl hslot h1 hrec
    obtain ⟨htake, hlen⟩ := emptySlot_reply (q.u 0 1) (length_le 256 s.accepted.free.1)
    exact ⟨_, _, exec_lifeRead_empty h ht hl hslot h1 hrec, htake, hlen, rfl⟩
  case refine_6 =>
    intro s q h h0 hact hn hl h4 h14 hbad
    have hset := exec_leapTableSet_sets h h0 hact hn hl h4 h14 hbad
    obtain ⟨hnow, htim, hengs, hpas, hlog⟩ := mtpWrite_succeeds (calendarCounted s.accepted) 3 (15 + 8 * q.u 1 1)
    generalize (calendarCounted s.accepted).mtpWrite 3 (15 + 8 * q.u 1 1) true = t at hset hnow htim hengs hpas hlog
    obtain ⟨hrest, hcal, hstale, hlife⟩ := binsOnly_closeBins (calendarSet t (calendarOf q)) s.now
    generalize (calendarSet t (calendarOf q)).closeBins s.now = u at hset hrest hcal hstale hlife
    refine ⟨u, hset, hcal, hstale, ?_, ?_, ?_, ?_, ?_⟩
    · rw [hlife]
      show t.log.life.wrCal = _
      rw [hlog]
      rfl
    · exact (congrArg State.now hrest :).trans hnow
    · exact (congrArg State.tim hrest :).trans htim
    · exact (congrArg State.engs hrest :).trans hengs
    · exact (congrArg State.pas hrest :).trans hpas
  case refine_7 =>
    intro s q h h0 hact hn hl h4 h14 hbad
    obtain ⟨hcal, hstore, hengs, hpas⟩ := mtpWrite_fails (calendarCounted s.accepted) 3 (15 + 8 * q.u 1 1)
    exact ⟨_, _, exec_leapTableSet_fails h h0 hact hn hl h4 h14 hbad, fld_refusal_hwFault _, hcal, hstore, hengs, hpas⟩

end Sys2Proof.Proofs
end

section
/-!
SUPPORT and PROOFS. Reset sources, what a reset keeps, and the release (16_reset_boot.md R574 to R585).
-/
namespace Sys2Proof.Proofs
open Sys2Proof Sys2Proof.Machine Sys2Proof.Laws

set_option Elab.async false

variable {s : State}

/-! The cut of a write of MTP under way (R592). -/

/-- `t` differs from `s` at most in the monotone time, in MTP, and in the slots and the calendar of the log. -/
def StoreOnly (s t : State) : Prop :=
  { t with mono := s.mono, store := s.store, log := { t.log with lifeSlots := s.log.lifeSlots, calendar := s.log.calendar } } = s

/-- Undoing a write. -/
theorem StoreOnly.mtpUndo {t : State} (h : StoreOnly s t) (w : MtpWrite) : StoreOnly s (t.mtpUndo w) := by
  unfold State.mtpUndo
  dsimp only
  split
  · exact of_ite (P := StoreOnly s) h h
  · split
    · exact h
    · exact h
    · exact h
    · exact h

/-- The cut of the writes under way. -/
theorem storeOnly_mtpCut (s : State) (noSupply : Bool) : StoreOnly s (s.mtpCut noSupply) := by
  have hundo : ∀ l : List MtpWrite, StoreOnly s (l.foldl State.mtpUndo s) := fun l =>
    foldl_keeps (StoreOnly s) State.mtpUndo (fun _ w h => h.mtpUndo w) l s rfl
  unfold State.mtpCut
  exact hundo _

/-- The parts of the state that hold items of Table 16.3 are the same. -/
def SameParts (s t : State) : Prop := t.com = s.com ∧ t.boot = s.boot ∧ t.power = s.power ∧ t.tim = s.tim ∧ t.tap = s.tap

/-- A change of MTP leaves them. -/
theorem StoreOnly.sameParts {t : State} (h : StoreOnly s t) : SameParts s t :=
  ⟨(congrArg State.com h :), (congrArg State.boot h :), (congrArg State.power h :), (congrArg State.tim h :), (congrArg State.tap h :)⟩

/-- A change of MTP leaves the live life record. -/
theorem StoreOnly.life {t : State} (h : StoreOnly s t) : t.log.life = s.log.life := (congrArg (fun u : State => u.log.life) h :)

/-- With no write under way nothing is cut. -/
theorem mtpCut_idle (noSupply : Bool) (h : s.store.writing = []) : s.mtpCut noSupply = s := by
  have hstore : { s.store with writing := [] } = s.store := by rw [← h]
  unfold State.mtpCut
  rw [h]
  show { s with store := { s.store with writing := [] } } = s
  rw [hstore]

/-! The state under reset (R575, Table 16.3). -/

/-- The life record that is loaded leaves the rest of the log. -/
theorem lifeLoad_rest (l : Log) : l.lifeLoad.ring = l.ring ∧ l.lifeLoad.bins = l.bins ∧ l.lifeLoad.calendar = l.calendar := by
  unfold Log.lifeLoad
  split <;> exact ⟨rfl, rfl, rfl⟩

/-- The state under a reset that takes effect in `u`. -/
def resetFrom (s u : State) (cause rail : Nat) : State :=
  { u.wiped (cause == 1) with boot := { (u.wiped (cause == 1)).boot with
    asserted := true, full := cause == 1 || (s.boot.asserted && s.boot.full)
    thermal := (cause == 4 || s.boot.thermal) && !(cause == 1), cause := cause, scope := 0, unit := 0, railCode := rail } }

/-- A source that asserts a device reset (R574, R578). -/
theorem assertReset_eq (cause rail : Nat) (h : s.boot.asserted = false ∨ cause = 1) :
    s.assertReset cause rail = resetFrom s (if s.boot.asserted then s else s.mtpCut (rail == 0x1A)) cause rail := by
  unfold State.assertReset resetFrom
  rw [if_neg (by rcases h with h | h <;> simp [h])]

/-- Where none is asserted. -/
theorem assertReset_new (cause rail : Nat) (h : s.boot.asserted = false) :
    s.assertReset cause rail = resetFrom s (s.mtpCut (rail == 0x1A)) cause rail := by
  rw [assertReset_eq cause rail (.inl h), h]
  rfl

/-- A full reset leaves nothing but the items that outlive every reset. -/
theorem underReset_full (s u : State) (rail : Nat) : underReset u (resetFrom s u 1 rail) 1 := by
  obtain ⟨hring, hbins, hcal⟩ := lifeLoad_rest { ({} : Log) with
    life := u.log.life, lifeSlots := u.log.lifeSlots, lifeNext := u.log.lifeNext, lifeTenMin := u.log.lifeTenMin
    calendar := u.log.calendar, stale := u.log.stale }
  exact ⟨rfl, rfl, rfl, rfl, rfl, rfl, rfl, rfl, rfl, rfl, rfl, rfl, rfl, rfl, rfl, rfl, hring, hbins, rfl, rfl, rfl, rfl, rfl, rfl, hcal,
    rfl, rfl⟩

/-- Any other reset leaves no more of what `underReset` names. -/
theorem underReset_partial (s u : State) {cause : Nat} (rail : Nat) (hc : (cause == 1) = false) :
    underReset u (resetFrom s u cause rail) cause := by
  unfold resetFrom
  rw [hc]
  exact ⟨rfl, rfl, rfl, rfl, rfl, rfl, rfl, rfl, rfl, rfl, rfl, rfl, rfl, rfl, rfl, rfl, rfl, rfl, rfl, rfl, rfl, rfl, rfl, rfl, rfl,
    rfl, rfl⟩

/-- A reset that is not full keeps the items of Table 16.3. -/
theorem keptItems_partial {r u : State} {cause : Nat} (rail : Nat) (hc : (cause == 1) = false) (hu : SameParts s u) :
    keptItems s (resetFrom r u cause rail) := by
  obtain ⟨hcom, hboot, hpow, htim, htap⟩ := hu
  unfold resetFrom
  rw [hc]
  refine ⟨?_, rfl, ?_, ?_, ?_, ?_, ?_, rfl, htap⟩
  · exact (congrArg Com.scratch1 hcom :)
  · exact (congrArg Boot.bootSrc hboot :)
  · exact (congrArg Boot.clkMode hboot :)
  · exact (congrArg Power.entries hpow :)
  · exact (congrArg Power.refusals hpow :)
  · exact (congrArg Timing.lastSeq htim :)

/-- No response waits under reset. -/
theorem resetFrom_settled (s u : State) (cause rail : Nat) : (resetFrom s u cause rail).settled := by
  unfold State.settled resetFrom State.wiped
  dsimp only
  split <;> rfl

/-- A source other than PORST_N, with what it leaves. -/
theorem reset_partial {o : Host.Outcome State Fault Refusal} {cause rail : Nat} (ho : o = (s.assertReset cause rail).done)
    (hn : s.boot.asserted = false) (hc : (cause == 1) = false) :
    o = .next (resetFrom s (s.mtpCut (rail == 0x1A)) cause rail) ∧
      underReset (s.mtpCut (rail == 0x1A)) (resetFrom s (s.mtpCut (rail == 0x1A)) cause rail) cause ∧
      keptItems s (resetFrom s (s.mtpCut (rail == 0x1A)) cause rail) := by
  refine ⟨?_, underReset_partial _ _ _ hc, keptItems_partial rail hc (storeOnly_mtpCut ..).sameParts⟩
  rw [ho, assertReset_new cause rail hn]
  exact done_of_settled (resetFrom_settled ..)

/-! The sources (R574, R579 to R581, R585). -/

/-- A supply monitor that trips. -/
theorem supplyTrip_trips {code mv lo hi : Nat} (hr : monitorRange code = some (lo, hi)) (hm : s.monitored code = true)
    (hmv : mv < lo ∨ hi < mv) : s.supplyTrip code mv = s.assertReset 3 code := by
  unfold State.supplyTrip
  rw [hr]
  dsimp only
  rw [if_pos (by rw [hm]; simpa using hmv)]

/-- A die sensor that trips. -/
theorem thermalTrip_trips {temp : Int} (hn : s.boot.asserted = false) (ht : 1150 ≤ temp) : s.thermalTrip temp = s.assertReset 4 0xFF := by
  rw [State.thermalTrip, if_pos ht, if_neg (by simp [hn])]

/-- One second with every die sensor at or below 105 °C. -/
theorem thermalRelease_ends {hottest : Int} {ms : Nat} (hh : hottest ≤ 1050) (hms : 1000 ≤ ms) :
    s.thermalRelease hottest ms = { s with boot := { s.boot with thermal := false } } := by
  unfold State.thermalRelease
  cases ht : s.boot.thermal
  · have hboot : { s.boot with thermal := false } = s.boot := by rw [← ht]
    rw [hboot]
    rfl
  · rw [if_pos (by simp [hh, hms])]

/-- The watchdog expires. -/
theorem watchdog_trips {ms : Nat} (hn : s.boot.asserted = false) (hw : 0 < s.boot.wdtS) (hms : s.boot.wdtS * 1000 ≤ ms) :
    s.watchdog ms = s.assertReset 5 0xFF := by
  rw [State.watchdog, if_pos ⟨hw, hms, by rw [hn]; rfl⟩]

/-- A lockstep mismatch that no standby can take over. -/
theorem doubleLockstep_trips (ha : s.guide.active.isSome = true) (ht : s.trapResets = true) : s.doubleLockstep = s.assertReset 6 0xFF := by
  rw [State.doubleLockstep, if_pos (by rw [ha, ht]; rfl)]

/-- The live record as it is written (R533). -/
def savedLife (s : State) : Life :=
  { s.log.life with wrLife := s.log.life.wrLife + 1, lastTai := if s.timeWasSet then s.sec else 0, seq := s.log.life.seq + 1 }

/-- The log with that record in the slot that was next. -/
def savedLog (s : State) : Log :=
  { s.log with
    life := savedLife s, lifeSlots := tput s.log.lifeSlots s.log.lifeNext (savedLife s), lifeNext := (s.log.lifeNext + 1) % 64
    lifeTenMin := s.log.life.powerOnMin }

/-- The state in which a RESET that is due takes effect: the life record is written. -/
def lifeSaved (s : State) : State := { s with log := savedLog s, store := { s.store with writing := [] } }

/-- Writing the life record, the write then ended. -/
theorem lifeWrite_ended (s : State) : (s.lifeWrite true).mtpEnded = lifeSaved s := by
  simp [State.lifeWrite, State.mtpEnded, State.mtpBegin, State.modLife, lifeSaved, savedLog, savedLife]

/-- A reset that is not full keeps the life record. -/
theorem resetFrom_life (r u : State) {cause : Nat} (rail : Nat) (hc : (cause == 1) = false) :
    (resetFrom r u cause rail).log.life = u.log.life ∧ (resetFrom r u cause rail).log.lifeSlots = u.log.lifeSlots := by
  unfold resetFrom
  rw [hc]
  exact ⟨rfl, rfl⟩

/-- A RESET that is due. -/
theorem resetDue_trips (hn : s.boot.asserted = false) (hd : s.boot.resetDue.isSome = true) :
    s.resetDue true = resetFrom (lifeSaved s) (lifeSaved s) 7 0xFF := by
  have hcut : (lifeSaved s).mtpCut false = lifeSaved s := mtpCut_idle false rfl
  rw [State.resetDue, if_pos hd, lifeWrite_ended]
  exact (assertReset_new (s := lifeSaved s) 7 0xFF hn).trans (by rw [show ((0xFF : Nat) == 0x1A) = false from rfl, hcut])

/-! The release (R576, R577). -/

/-- The device runs again: domain time counts from zero, and a full reset samples the straps. -/
def running (s : State) (src clk : Nat) : State :=
  ({ s with now := 0, boot := { s.boot with
      asserted := false, full := false, stage := 1, endedAt := s.mono
      bootSrc := if s.boot.full then src % 4 else s.boot.bootSrc
      clkMode := if s.boot.full then clk % 4 else s.boot.clkMode } } : State).release [0]

/-- A power-up counted in MTP and in the life record. -/
def powerUpCounted (s : State) : State :=
  ({ s.mtpWrite 1 16 true with store := { (s.mtpWrite 1 16 true).store with powerUps := (s.mtpWrite 1 16 true).store.powerUps + 1 } } :
    State).modLife fun l => { l with powerCycles := l.powerCycles + 1 }

/-- The reserved value of the straps is an event of the boot. -/
def strapsChecked (s : State) : State := if s.boot.clkMode = 3 then s.bootEvent .strapReserved islLamp 0xFFFF (le 1 s.boot.straps) else s

/-- The release of a reset that no thermal trip holds. -/
theorem releaseReset_eq (src clk : Nat) (ha : s.boot.asserted = true) (ht : s.boot.thermal = false) :
    s.releaseReset src clk = strapsChecked (if s.boot.full then powerUpCounted (running s src clk) else running s src clk) := by
  unfold State.releaseReset
  rw [if_neg (by simp [ha, ht])]
  rfl

/-- `t` has the command interface, the engines, the islands, the time and, but for the list of early events, the boot and MTP of `s`. -/
def Checked (s t : State) : Prop :=
  t.now = s.now ∧ t.com = s.com ∧ t.engs = s.engs ∧ t.power = s.power ∧ { t.boot with early := s.boot.early } = s.boot ∧
    t.store.powerUps = s.store.powerUps

/-- Before the event ring runs, checking the straps changes no more. -/
theorem strapsChecked_checked (h : s.boot.stage < 4) : Checked s (strapsChecked s) := by
  unfold strapsChecked State.bootEvent
  rw [if_neg (show ¬ s.boot.stage ≥ 4 from Nat.not_le.mpr h)]
  exact of_ite (P := Checked s) ⟨rfl, rfl, rfl, rfl, rfl, rfl⟩ ⟨rfl, rfl, rfl, rfl, rfl, rfl⟩

/-- The boot's part after a release. -/
def bootRunning (s : State) (src clk : Nat) : Boot :=
  { s.boot with
      asserted := false, full := false, stage := 1, endedAt := s.mono
      bootSrc := if s.boot.full then src % 4 else s.boot.bootSrc
      clkMode := if s.boot.full then clk % 4 else s.boot.clkMode }

/-- `t` is `s` released, but for the islands and the counts of power-ups. -/
def Released (s t : State) (src clk : Nat) : Prop :=
  t.now = 0 ∧ t.com = s.com ∧ t.engs = s.engs ∧
    t.power = { s.power with islands := tput s.power.islands 0 { s.island 0 with inReset := false, activeAt := s.mono } } ∧
    t.boot = bootRunning s src clk ∧ t.store.powerUps = s.store.powerUps + (if s.boot.full then 1 else 0)

/-- What the release leaves before the straps are checked. -/
theorem released (s : State) (src clk : Nat) :
    Released s (if s.boot.full then powerUpCounted (running s src clk) else running s src clk) src clk := by
  unfold Released
  cases hf : s.boot.full
  · refine ⟨rfl, rfl, rfl, rfl, ?_, rfl⟩
    simp [running, State.release, bootRunning, hf]
  · rw [if_pos rfl]
    refine ⟨rfl, rfl, rfl, ?_, ?_, ?_⟩ <;>
      simp [powerUpCounted, running, State.release, State.mtpWrite, State.mtpBegin, State.modLife, bootRunning, hf, State.island]

/-- Settles O31: each source asserts the same reset, and the release is read off step by step. -/
theorem resetRowsComplete : Obligations.ResetRowsComplete := by
  unfold Obligations.ResetRowsComplete
  refine ⟨?_, ?_, ?_, ?_, ?_, ?_, ?_, ?_, ?_, fun s noSupply => mtpCut_idle noSupply, ?_⟩
  case refine_1 =>
    intro s
    refine ⟨resetFrom s (if s.boot.asserted then s else s.mtpCut false) 1 0xFF, ?_, underReset_full s _ 0xFF, rfl, rfl, rfl, rfl, rfl⟩
    show (s.assertReset 1 0xFF).done = _
    rw [assertReset_eq 1 0xFF (.inr rfl)]
    exact done_of_settled (resetFrom_settled ..)
  case refine_2 =>
    intro s hn
    obtain ⟨hex, hunder, hkept⟩ := reset_partial (s := s) (cause := 2) (rail := 0xFF) rfl hn rfl
    exact ⟨_, hex, hunder, hkept, (storeOnly_mtpCut s false).life, by simp [resetFrom, hn]⟩
  case refine_3 =>
    intro s hs ha
    show (s.assertReset 2 0xFF).done = _
    rw [State.assertReset, if_pos (by simp [ha])]
    exact done_of_settled hs
  case refine_4 =>
    intro s code mv lo hi hn hr hm hmv
    obtain ⟨hex, hunder, hkept⟩ := reset_partial (s := s) (cause := 3) (rail := code)
      (congrArg State.done (supplyTrip_trips hr hm hmv)) hn rfl
    exact ⟨_, hex, hunder, hkept, rfl⟩
  case refine_5 =>
    intro s temp hn ht
    obtain ⟨hex, hunder, hkept⟩ := reset_partial (s := s) (cause := 4) (rail := 0xFF)
      (congrArg State.done (thermalTrip_trips hn ht)) hn rfl
    exact ⟨_, hex, hunder, hkept, rfl⟩
  case refine_6 =>
    intro s hottest ms hs hh hms
    show (s.thermalRelease hottest ms).done = _
    rw [thermalRelease_ends hh hms]
    exact done_of_settled hs
  case refine_7 =>
    intro s ms hn hw hms
    obtain ⟨hex, hunder, hkept⟩ := reset_partial (s := s) (cause := 5) (rail := 0xFF)
      (congrArg State.done (watchdog_trips hn hw hms)) hn rfl
    exact ⟨_, hex, hunder, hkept⟩
  case refine_8 =>
    intro s hn ha ht
    obtain ⟨hex, hunder, hkept⟩ := reset_partial (s := s) (cause := 6) (rail := 0xFF)
      (congrArg State.done (doubleLockstep_trips ha ht)) hn rfl
    exact ⟨_, hex, hunder, hkept⟩
  case refine_9 =>
    intro s hn hd
    obtain ⟨hlife, hslots⟩ := resetFrom_life (lifeSaved s) (lifeSaved s) 0xFF (cause := 7) rfl
    refine ⟨resetFrom (lifeSaved s) (lifeSaved s) 7 0xFF, ?_, underReset_partial _ (lifeSaved s) _ rfl,
      keptItems_partial _ rfl ⟨rfl, rfl, rfl, rfl, rfl⟩, ?_, ?_⟩
    · show (s.resetDue true).done = _
      rw [resetDue_trips hn hd]
      exact done_of_settled (resetFrom_settled ..)
    · rw [hlife, hslots]
      exact tget_tput_self ..
    · rw [hlife]
      rfl
  case refine_10 =>
    intro s src clk hs ha ht
    obtain ⟨hnow, hcom, hengs, hpow, hboot, hups⟩ := released s src clk
    have hstage := congrArg Boot.stage hboot
    obtain ⟨hnow', hcom', hengs', hpow', hboot', hups'⟩ := strapsChecked_checked (s := if s.boot.full then powerUpCounted (running s src clk)
      else running s src clk) (by rw [hstage]; exact (by decide : 1 < 4))
    have hrel := releaseReset_eq src clk ha ht
    rw [hnow] at hnow'
    rw [hcom] at hcom'
    rw [hengs] at hengs'
    rw [hpow] at hpow'
    rw [hboot] at hboot'
    rw [hups] at hups'
    generalize strapsChecked (if s.boot.full then powerUpCounted (running s src clk) else running s src clk) = t at *
    refine ⟨t, ?_, hnow', ?_, ?_, ?_, ?_, hups', ?_, fun k hk => ?_, hcom', hengs'⟩
    · show (s.releaseReset src clk).done = _
      rw [hrel]
      exact done_of_settled ((congrArg Com.relayed hcom').trans hs)
    · exact (congrArg Boot.asserted hboot' :)
    · exact (congrArg Boot.stage hboot' :)
    · exact (congrArg Boot.bootSrc hboot' :)
    · exact (congrArg Boot.clkMode hboot' :)
    · rw [State.island, hpow', tgetD_tput_self]
    · rw [State.island, hpow', tgetD_tput_ne _ _ _ hk]
      rfl

end Sys2Proof.Proofs
end

section
/-!
SUPPORT and PROOFS. The housekeeping ADC: HK_SEQUENCE_SET, HK_FILTER_SET, HK_READ, a frame and the thermal limits (R651 to R669).
-/
namespace Sys2Proof.Proofs
open Sys2Proof Sys2Proof.Machine Sys2Proof.Laws

set_option Elab.async false

variable {s : State} {q : Request}

/-! HK_SEQUENCE_SET (R665). -/

/-- A converter that is changed. -/
theorem hkConv_modHk_self (s : State) (c : Nat) (f : HkConv → HkConv) : (s.modHk c f).hkConv c = f (s.hkConv c) := by
  unfold State.modHk State.hkConv
  by_cases hc : c = 0
  · rw [if_pos hc, if_pos hc, if_pos hc]
  · rw [if_neg hc, if_neg hc, if_neg hc]

/-- The other converter. -/
theorem hkConv_modHk_other (s : State) {c : Nat} (hc : c ≤ 1) (f : HkConv → HkConv) : (s.modHk c f).hkConv (1 - c) = s.hkConv (1 - c) := by
  have hc : c = 0 ∨ c = 1 := by omega
  rcases hc with rfl | rfl <;> rfl

/-- A change that leaves the converter as it is. -/
theorem modHk_same (c : Nat) {f : HkConv → HkConv} (h : f (s.hkConv c) = s.hkConv c) : s.modHk c f = s := by
  unfold State.modHk
  unfold State.hkConv at h
  by_cases hc : c = 0
  · rw [if_pos hc] at h ⊢
    rw [h]
  · rw [if_neg hc] at h ⊢
    rw [h]

/-- A change of a converter changes the converters alone. -/
theorem modHk_restore (s : State) (c : Nat) (f : HkConv → HkConv) :
    { s.modHk c f with hk := s.hk } = s ∧ (s.modHk c f).hk.filters = s.hk.filters := by
  unfold State.modHk
  split <;> exact ⟨rfl, rfl⟩

/-- A sequence that will be in force from the frame named on. -/
def seqScheduled (s : State) (c start : Nat) (x : HkSeq) : State := s.modHk c fun v => { v with pend := v.pend ++ [(start, x)] }

/-- The answer of the changes that are scheduled. -/
def hkScheduledReply (s : State) : List Byte := [0, 0, 0, 0] ++ zeros 4 ++ le 8 s.hkStart

/-- The sequence that a request gives. -/
def hkSeqOf (q : Request) : HkSeq :=
  { left := q.u 3 1 == 1, owPeriod := q.u 4 2, owThresh := q.u 6 2, hyst := q.u 14 2, entries := (List.range (q.u 2 1)).map (hkEntryOf q) }

/-- HK_SEQUENCE_SET ACTION 1. -/
theorem exec_hkSequenceSet_sets {c : Nat} (h : s.takes 0x0D01 q) (h0 : q.tenant = 0) (hu : q.u 0 1 = c) (hc : c ≤ 1) (hact : q.u 1 1 = 1)
    (hl : q.len = 16 + 8 * q.u 2 1) (hn1 : 1 ≤ q.u 2 1) (hn : q.u 2 1 ≤ (if c = 0 then 64 else 22)) (h3 : q.u 3 1 ≤ 1) (hp1 : 1 ≤ q.u 4 2)
    (hp : q.u 4 2 ≤ 4096) (ht1 : 16 ≤ q.u 6 2) (ht : q.u 6 2 ≤ 2048) (h8 : q.rsv 8 6 = true) (hy1 : 1 ≤ q.u 14 2) (hy : q.u 14 2 ≤ 4096)
    (hall : (List.range (q.u 2 1)).all (fun i => !(hkEntryBad q i) && !((hkEntryOf q i).filtered)) = true) (hd : s.dark (2 + c) = none)
    (hother : (s.hkConv (1 - c)).latest.entries = []) :
    exec (.hkSequenceSet q) s = .next ((seqScheduled s.accepted c s.hkStart (hkSeqOf q)).answer 0x0D01 q (hkScheduledReply s)) := by
  have hent : ∀ i ∈ List.range (q.u 2 1), hkEntryBad q i = false ∧ (hkEntryOf q i).filtered = false := fun i hi => by
    simpa using List.all_eq_true.mp hall i hi
  have hbad : (List.range (q.u 2 1)).any (hkEntryBad q) = false := List.any_eq_false.mpr fun i hi => by simp [(hent i hi).1]
  have hloose : ((List.range (q.u 2 1)).any fun i => (hkEntryOf q i).filtered && !(s.hkTaken c i 32)) = false :=
    List.any_eq_false.mpr fun i hi => by simp [(hent i hi).2]
  show (s.cmdHkSequenceSet q).done = _
  simp only [State.cmdHkSequenceSet, hact, hl, hu, hother, List.flatMap_nil, beq_self_eq_true]
  refine serve_done_of_run h ?_ rfl
  rw [judge_bad_cons, judge_lit_cons hd, judge_lit_nil]
  · simp [onlyT0, h0, hloose]
  · have hc' : decide (c > 1) = false := by simpa using hc
    have hn' : decide (q.u 2 1 > (if c = 0 then 64 else 22)) = false := by simpa using hn
    simp [hc', hn', hbad, h8, Nat.ne_of_gt hn1, Nat.not_lt.mpr h3, Nat.ne_of_gt hp1, Nat.not_lt.mpr hp, Nat.not_lt.mpr ht1,
      Nat.not_lt.mpr ht, Nat.ne_of_gt hy1, Nat.not_lt.mpr hy]

/-- HK_SEQUENCE_SET ACTION 2. -/
theorem exec_hkSequenceSet_ends {c : Nat} (h : s.takes 0x0D01 q) (h0 : q.tenant = 0) (hu : q.u 0 1 = c) (hc : c ≤ 1) (hact : q.u 1 1 = 2)
    (hl : q.len = 16) (hn : q.u 2 1 = 0) (h3 : q.rsv 3 13 = true) (hd : s.dark (2 + c) = none) :
    exec (.hkSequenceSet q) s = .next ((seqScheduled s.accepted c s.hkStart {}).answer 0x0D01 q (hkScheduledReply s)) := by
  show (s.cmdHkSequenceSet q).done = _
  simp only [State.cmdHkSequenceSet, hact, hl, hu, hn]
  refine serve_done_of_run h ?_ rfl
  rw [judge_bad_cons, judge_lit_cons hd, judge_lit_nil]
  · simp [onlyT0, h0]
  · simp [h3, Nat.not_lt.mpr hc]

/-- HK_SEQUENCE_SET ACTION 3. -/
theorem exec_hkSequenceSet_reads {c : Nat} (h : s.takes 0x0D01 q) (h0 : q.tenant = 0) (hu : q.u 0 1 = c) (hc : c ≤ 1) (hact : q.u 1 1 = 3)
    (hl : q.len = 16) (hn : q.u 2 1 = 0) (h3 : q.rsv 3 13 = true) (hd : s.dark (2 + c) = none) :
    exec (.hkSequenceSet q) s = .next (s.accepted.answer 0x0D01 q (s.hkSeqReply c)) := by
  show (s.cmdHkSequenceSet q).done = _
  simp only [State.cmdHkSequenceSet, hact, hl, hu, hn]
  refine serve_done_of_run h ?_ rfl
  rw [judge_bad_cons, judge_lit_cons hd, judge_lit_nil]
  · simp [onlyT0, h0]
  · simp [h3, Nat.not_lt.mpr hc]

/-- Thermal limits that will be in force from the frame named on. -/
def limitsScheduled (s : State) (start : Nat) (l : HkLimits) : State := { s with hk := { s.hk with limPend := s.hk.limPend ++ [(start, l)] } }

/-- HK_SEQUENCE_SET ACTION 4. -/
theorem exec_hkSequenceSet_limits {c : Nat} (h : s.takes 0x0D01 q) (h0 : q.tenant = 0) (hu : q.u 0 1 = c) (hc : c ≤ 1) (hact : q.u 1 1 = 4)
    (hl : q.len = 16) (hn : q.u 2 1 = 0) (h3 : q.rsv 3 5 = true) (h14 : q.rsv 14 2 = true) (hw : zeroOr (q.u 8 2) 500 1100 = true)
    (ha : zeroOr (q.u 10 2) 510 1100 = true) (hy : zeroOr (q.u 12 2) 10 100 = true) (hd : s.dark (2 + c) = none)
    (hlt : (s.hkLimits q).warn < (s.hkLimits q).alarm) :
    exec (.hkSequenceSet q) s =
      .next ((limitsScheduled s.accepted s.hkStart (s.hkLimits q)).answer 0x0D01 q (hkScheduledReply s)) := by
  show (s.cmdHkSequenceSet q).done = _
  simp only [State.cmdHkSequenceSet, hact, hl, hu, hn]
  refine serve_done_of_run h ?_ rfl
  rw [judge_bad_cons, judge_lit_cons hd, judge_lit_nil]
  · simp [onlyT0, h0, hlt]
  · simp [h3, h14, hw, ha, hy, Nat.not_lt.mpr hc]

/-! HK_FILTER_SET (R667). -/

/-- A filter channel that is changed. -/
theorem hkFilter_modFilter_self (s : State) (k : Nat) (f : HkFilter → HkFilter) : (s.modFilter k f).hkFilter k = f (s.hkFilter k) :=
  tgetD_tput_self ..

/-- The other filter channels. -/
theorem hkFilter_modFilter_ne (s : State) {k j : Nat} (f : HkFilter → HkFilter) (h : j ≠ k) : (s.modFilter k f).hkFilter j = s.hkFilter j :=
  tgetD_tput_ne _ _ _ h

/-- A setting that a filter channel will have from the frame named on. -/
def filterScheduled (s : State) (k start : Nat) (g : Option HkCfg) : State := s.modFilter k fun f => { f with pend := f.pend ++ [(start, g)] }

/-- HK_FILTER_SET ACTION 1. -/
theorem exec_hkFilterSet_sets {k : Nat} {g : HkCfg} (h : s.takes 0x0D03 q) (h0 : q.tenant = 0) (hl : q.len = 8) (hu : q.u 0 1 = k)
    (hk : k ≤ 31) (hact : q.u 1 1 = 1) (hg : g = { conv := q.u 2 1, entry := q.u 3 1, decim := q.u 4 1, shape := q.u 5 1 })
    (hconv : g.conv ≤ 1) (hdec : g.decim ≤ 10) (hs1 : 1 ≤ g.shape) (hs4 : g.shape ≤ 4) (h6 : q.rsv 6 2 = true)
    (hd : s.dark (2 + g.conv) = none) (hent : g.entry < (s.hkConv g.conv).latest.entries.length) (hfree : s.hkTaken g.conv g.entry k = false) :
    exec (.hkFilterSet q) s =
      .next ((filterScheduled s.accepted k s.hkStart (some g)).answer 0x0D03 q ((s.hkFilter k).reply (some g))) := by
  subst hg
  show (s.cmdHkFilterSet q).done = _
  simp only [State.cmdHkFilterSet, hact, hl, hu]
  refine serve_done_of_run h ?_ rfl
  rw [judge_bad_cons, judge_lit_cons hd, judge_lit_nil]
  · simp [onlyT0, h0, hfree, hent]
  · simp [h6, Nat.not_lt.mpr hk, Nat.not_lt.mpr hconv, Nat.not_lt.mpr hdec, Nat.ne_of_gt hs1, Nat.not_lt.mpr hs4]

/-- What HK_FILTER_SET ACTIONS 2 and 3 schedule. -/
def filterEnds (s : State) (k start act : Nat) : State := if act = 2 then filterScheduled s k start none else s

/-- HK_FILTER_SET ACTIONS 2 and 3. -/
theorem exec_hkFilterSet_ends {k : Nat} (h : s.takes 0x0D03 q) (h0 : q.tenant = 0) (hl : q.len = 8) (hu : q.u 0 1 = k) (hk : k ≤ 31)
    (ha2 : 2 ≤ q.u 1 1) (ha3 : q.u 1 1 ≤ 3) (h2 : q.rsv 2 6 = true) (hd : s.dark 2 = none) :
    exec (.hkFilterSet q) s =
      .next ((filterEnds s.accepted k s.hkStart (q.u 1 1)).answer 0x0D03 q ((s.hkFilter k).reply (s.hkFilter k).cfg)) := by
  have hconv : q.u 2 1 = 0 := u_of_rsv (rsv_mono h2)
  have h6 : q.rsv 6 2 = true := rsv_mono h2
  have h24 : q.rsv 2 4 = true := rsv_mono h2
  have hact : q.u 1 1 = 2 ∨ q.u 1 1 = 3 := by omega
  show (s.cmdHkFilterSet q).done = _
  rcases hact with hact | hact
  all_goals
    simp only [State.cmdHkFilterSet, hact, hl, hu, hconv]
    refine serve_done_of_run h ?_ rfl
    rw [judge_bad_cons, judge_lit_cons hd, judge_lit_nil]
    · simp [onlyT0, h0]
    · simp [h6, h24, Nat.not_lt.mpr hk]

/-! HK_READ (R668). -/

/-- HK_READ. -/
theorem exec_hkRead {items : List (List Byte)} (h : s.takes 0x0D02 q) (ht : s.tenantOn q) (hl : q.len = 4) (hsrc1 : 1 ≤ q.u 0 1)
    (hsrc : q.u 0 1 ≤ 3) (hc : q.u 0 1 = 1 → q.u 1 1 ≤ 1) (hc0 : q.u 0 1 ≠ 1 → q.u 1 1 = 0) (hn1 : 1 ≤ q.u 3 1) (hn : q.u 3 1 ≤ 64)
    (hd1 : q.u 0 1 = 1 → s.dark (2 + q.u 1 1) = none) (hd3 : q.u 0 1 = 3 → s.dark 3 = none)
    (hi : items = s.hkItems (q.u 0 1) (q.u 1 1)) (hf : q.u 2 1 < items.length) :
    exec (.hkRead q) s = .next (s.accepted.answer 0x0D02 q ([0, 0] ++ le 1 ((items.drop (q.u 2 1)).take (q.u 3 1)).length ++ [0] ++
      ((items.drop (q.u 2 1)).take (q.u 3 1)).flatten)) := by
  have hfirst : decide (q.u 2 1 ≥ items.length) = false := by simpa using hf
  have hcases : q.u 0 1 = 1 ∨ q.u 0 1 = 2 ∨ q.u 0 1 = 3 := by omega
  show (s.cmdHkRead q).done = _
  unfold State.cmdHkRead
  simp only [hl, ← hi]
  refine serve_done_of_run h ?_ rfl
  rcases hcases with hs | hs | hs
  · have hle := hc hs
    rw [judge_bad_cons, hs]
    · exact (judge_lit_cons (hd1 hs) _ _).trans ((judge_anyTenant ht _).trans (judge_bad_cons hfirst _ _ _))
    · simp [hs, Nat.not_lt.mpr hle, Nat.not_lt.mpr hn, Nat.ne_of_gt hn1]
  · have hz := hc0 (by omega)
    rw [judge_bad_cons, hs]
    · exact (judge_anyTenant ht _).trans (judge_bad_cons hfirst _ _ _)
    · simp [hs, hz, Nat.not_lt.mpr hn, Nat.ne_of_gt hn1]
  · have hz := hc0 (by omega)
    rw [judge_bad_cons, hs]
    · exact (judge_lit_cons (hd3 hs) _ _).trans ((judge_anyTenant ht _).trans (judge_bad_cons hfirst _ _ _))
    · simp [hs, hz, Nat.not_lt.mpr hn, Nat.ne_of_gt hn1]

/-! A frame with system slots alone (R651, R655, R669). -/

/-- A counter of another key. -/
theorem ctr_bump_of_ne (s : State) {u i k u' i' k' : Nat} (n : Nat) (h : ctrKey u' i' k' ≠ ctrKey u i k) :
    (s.bump u i k n).ctr u' i' k' = s.ctr u' i' k' := by
  rw [State.ctr, bump_cnt, tgetD_tupd_ne _ _ _ _ h]
  rfl

/-- Adding to a counter. -/
theorem ctr_bump_by (s : State) (u i k n : Nat) : (s.bump u i k n).ctr u i k = s.ctr u i k + BitVec.ofNat 64 n := by
  rw [State.ctr, bump_cnt, tgetD_tupd_self]
  rfl

/-- `t` differs from `s` at most in the results of system slots, the sums of the sensors and the counters but CONVERSIONS. -/
def SlotsOnly (s t : State) : Prop :=
  { t with hk := s.hk, cnt := s.cnt } = s ∧
    { t.hk with system := s.hk.system, msSum := s.hk.msSum, sSum := s.hk.sSum } = s.hk ∧
    t.ctr 2 0 0 = s.ctr 2 0 0 ∧ t.ctr 3 0 0 = s.ctr 3 0 0

/-- Counting a result beyond the range is such a change. -/
theorem SlotsOnly.count {t : State} (h : SlotsOnly s t) : SlotsOnly s (t.hkCount 1 1 1) := by
  obtain ⟨hrest, hhk, h2, h3⟩ := h
  refine ⟨hrest, hhk, ?_, ?_⟩
  · exact (ctr_bump_of_ne t 1 (by decide)).trans h2
  · exact (ctr_bump_of_ne t 1 (by decide)).trans h3

/-- So is a sample of a die sensor. -/
theorem SlotsOnly.sample {t : State} (h : SlotsOnly s t) (k code : Nat) : SlotsOnly s (t.sensorSample k code) := h

/-- A system slot's result. -/
def slotResult (s : State) (i : Nat) (r : HkRes) : State := { s with hk := { s.hk with system := tput s.hk.system i r } }

/-- A conversion of a system slot: its result stands over a change of the slots. -/
theorem systemSlot_cases {t : State} (h : SlotsOnly s t) (i channel : Nat) (x : Int) (stamp : Nat) :
    ∃ u : State, SlotsOnly s u ∧ u.hk.system = t.hk.system ∧ ∃ lit : Bool, t.systemSlot i channel x stamp =
      slotResult u i { code := (hkCode x).1, ovr := (hkCode x).2, valid := lit, stamp := stamp } := by
  refine ⟨_, ?_, ?_, (channel < 0x70 || t.sensorLit (channel - 0x70)), rfl⟩
  · refine of_ite (P := SlotsOnly s) ?_ ?_
    · exact (of_ite (P := SlotsOnly s) h.count h).sample _ _
    · exact of_ite (P := SlotsOnly s) h.count h
  · refine of_ite (P := fun u : State => u.hk.system = t.hk.system) ?_ ?_
    · exact of_ite (P := fun u : State => (u.sensorSample (channel - 0x70) (hkCode x).1).hk.system = t.hk.system) rfl rfl
    · exact of_ite (P := fun u : State => u.hk.system = t.hk.system) rfl rfl

/-- The result of a slot is its input clamped to the range, with OVR beyond it (R655). -/
def Converted (t : State) (i : Nat) (x : Int) : Prop :=
  ∃ r : HkRes, tget t.hk.system i = some r ∧ (r.code : Int) = max 0 (min 4095 x) ∧ (r.ovr = true ↔ x < 0 ∨ 4095 < x)

/-- The slot converted holds its result. -/
theorem converted_systemSlot (t : State) (i channel : Nat) (x : Int) (stamp : Nat) : Converted (t.systemSlot i channel x stamp) i x := by
  obtain ⟨u, -, -, lit, heq⟩ := systemSlot_cases (s := t) (t := t) ⟨rfl, rfl, rfl, rfl⟩ i channel x stamp
  rw [heq]
  refine ⟨_, tget_tput_self .., ?_, ?_⟩
  · exact Int.toNat_of_nonneg (by omega)
  · simp [hkCode]

/-- The other slots keep theirs. -/
theorem Converted.systemSlot {t : State} {i j : Nat} {x : Int} (h : Converted t i x) (hj : i ≠ j) (channel : Nat) (y : Int) (stamp : Nat) :
    Converted (t.systemSlot j channel y stamp) i x := by
  obtain ⟨u, -, hsys, lit, heq⟩ := systemSlot_cases (s := t) (t := t) ⟨rfl, rfl, rfl, rfl⟩ j channel y stamp
  rw [heq]
  unfold Converted
  rw [slotResult, tget_tput_ne _ _ hj, hsys]
  exact h

/-- The 42 system slots. -/
def systemSlots (adc : List Int) (stamp : Nat → Nat) (s : State) : State :=
  ((List.range 42).zip hkSystem).foldl (fun (s : State) e => s.systemSlot e.1 e.2 ((adc[e.1]?).getD 0) (stamp e.1)) s

/-- Every system slot is one of the list. -/
theorem systemSlot_mem {i : Nat} (hi : i < 42) : ∃ channel, (i, channel) ∈ (List.range 42).zip hkSystem := by
  have hlen : ((List.range 42).zip hkSystem).length = 42 := by decide
  have hget : ((List.range 42).zip hkSystem)[i]'(by omega) = (i, hkSystem[i]'(show i < 42 from hi)) := by
    rw [List.getElem_zip, List.getElem_range]
    rfl
  exact ⟨_, hget ▸ List.getElem_mem _⟩

/-- Each system slot holds its result after the frame. -/
theorem converted_systemSlots (adc : List Int) (stamp : Nat → Nat) (s : State) {i : Nat} (hi : i < 42) :
    Converted (systemSlots adc stamp s) i ((adc[i]?).getD 0) := by
  obtain ⟨channel, hmem⟩ := systemSlot_mem hi
  refine foldl_establishes (fun t : State => Converted t i ((adc[i]?).getD 0)) (a := (i, channel)) (fun t e h => ?_)
    (fun t => converted_systemSlot t i channel _ (stamp i)) _ s hmem
  by_cases he : i = e.1
  · rw [he]
    exact converted_systemSlot ..
  · exact h.systemSlot he ..

/-- The system slots change no more. -/
theorem slotsOnly_systemSlots (adc : List Int) (stamp : Nat → Nat) (s : State) : SlotsOnly s (systemSlots adc stamp s) := by
  refine foldl_keeps (SlotsOnly s) _ (fun t e h => ?_) _ s ⟨rfl, rfl, rfl, rfl⟩
  obtain ⟨u, hu, -, lit, heq⟩ := systemSlot_cases h e.1 e.2 ((adc[e.1]?).getD 0) (stamp e.1)
  rw [heq]
  exact hu

/-- The slots of a converter whose sequence is empty do nothing. -/
theorem entrySlot_none {c i : Nat} (h : (s.hkConv c).seq.entries = []) (f : Nat) (x : Int) (stamp : Nat) :
    s.entrySlot c i f x stamp = s := by
  simp only [State.entrySlot, h, List.getElem?_nil]

/-- A whole frame of them does nothing. -/
theorem foldl_entrySlot_none {c : Nat} (h : (s.hkConv c).seq.entries = []) (f : Nat) (at_ : Nat → Nat) (x : Nat → Int) (stamp : Nat → Nat)
    (l : List Nat) : l.foldl (fun (s : State) i => s.entrySlot c (at_ i) f (x i) (stamp i)) s = s :=
  foldl_keeps (fun t : State => t = s) _ (fun t i ht => by rw [ht]; exact entrySlot_none h ..) l s rfl

/-- With nothing waiting, a frame begins with nothing new. -/
theorem frameStart_idle (start : Nat) (h0 : s.hk.conv0.pend = []) (h1 : s.hk.conv1.pend = []) (hf : s.hk.filters = [])
    (hl : s.hk.limPend = []) : s.frameStart start = s := by
  have hstep : ∀ c, (s.hkConv c).pend = [] →
      s.modHk c (fun v => { v with pend := v.pend.filter fun p => !(chReached start p.1) }) = s := fun c hc => by
    refine modHk_same c ?_
    rw [hc, List.filter_nil, ← hc]
  have h0' : (s.hkConv 0).pend = [] := h0
  have h1' : (s.hkConv 1).pend = [] := h1
  have hhk : { s.hk with filters := [], limPend := [] } = s.hk := by
    rw [← hf]
    show { s.hk with limPend := [] } = s.hk
    rw [← hl]
  simp only [State.frameStart, List.foldl_cons, List.foldl_nil, h0', hstep 0 h0', List.filter_nil, h1', hstep 1 h1', hf, hl,
    show tkeys ([] : Tab HkFilter) = [] from rfl, List.getLast?_nil]
  exact congrArg (fun k : Hk => { s with hk := k }) hhk

/-- The frame of two converters that are lit, where nothing but the system slots is set up. -/
theorem hkFrame_system (adc0 adc1 : List Int) (hd2 : s.dark 2 = none) (hd3 : s.dark 3 = none) (he0 : s.hk.conv0.seq.entries = [])
    (he1 : s.hk.conv1.seq.entries = []) (h0 : s.hk.conv0.pend = []) (h1 : s.hk.conv1.pend = []) (hf : s.hk.filters = [])
    (hl : s.hk.limPend = []) : ∃ stamp : Nat → Nat, s.hkFrame adc0 adc1 = systemSlots adc1 stamp ((s.hkCount 0 0 64).hkCount 1 0 64) := by
  unfold State.hkFrame
  extract_lets f t0 stampOf s1 s2 s3
  have hs1 : s1 = s := frameStart_idle _ h0 h1 hf hl
  have hs2 : s2 = s.hkCount 0 0 64 := by
    unfold s2
    rw [hs1, hd2, Option.isSome_none, if_neg Bool.false_ne_true]
    exact foldl_entrySlot_none (s := s.hkCount 0 0 64) (c := 0) he0 f (fun i => i) (fun i => (adc0[i]?).getD 0) stampOf _
  have hd : s2.dark 3 = none := by
    rw [hs2]
    exact hd3
  have hs3 : s3 = systemSlots adc1 stampOf ((s.hkCount 0 0 64).hkCount 1 0 64) := by
    unfold s3
    rw [hs2]
    rfl
  clear_value s3
  rw [hd, Option.isSome_none, if_neg Bool.false_ne_true]
  have hent : (s3.hkConv 1).seq.entries = [] := by
    have hkept := (slotsOnly_systemSlots adc1 stampOf ((s.hkCount 0 0 64).hkCount 1 0 64)).2.1
    rw [← hs3] at hkept
    have hconv : s3.hk.conv1 = s.hk.conv1 := (congrArg Hk.conv1 hkept :)
    show s3.hk.conv1.seq.entries = []
    rw [hconv, he1]
  refine ⟨stampOf, ?_⟩
  rw [← hs3]
  exact foldl_entrySlot_none hent f (fun i => i) (fun i => (adc1[42 + i]?).getD 0) (fun i => stampOf (42 + i)) _

/-! The thermal limits (R663). -/

/-- What an event adds to the log does not depend on the housekeeping converters. -/
theorem raise_log_with_hk (s : State) (k : Hk) (i : Nat) (e : Ev) (src : Nat) (p : List Byte) :
    (({ s with hk := k } : State).raise i e src p).log = (s.raise i e src p).log := by
  rw [State.raise, State.raise, State.raiseAt, State.raiseAt, recordAt_log, recordAt_log]
  rfl

/-- With the log and the command interface put back, an event leaves no trace. -/
theorem raise_restore (s : State) (i : Nat) (e : Ev) (src : Nat) (p : List Byte) :
    { s.raise i e src p with log := s.log, com := s.com } = s :=
  (recordAt_logAndWatermarkOnly s s.now i e src (if e.hasChamber then le 6 (chamberOf s.epoch s.now) ++ p else p)).1

/-- A warning is noted. -/
def warnNoted (s : State) (k : Nat) : State := { s with hk := { s.hk with warned := s.hk.warned ++ [k] } }

/-- A judged sensor at or above the warning limit, and below the alarm's, is a warning. -/
theorem sensorMean_warns {k : Nat} {x : Int} (hk : k ≤ 11) (hj : s.sensorJudged k = true) (hw : s.hk.warned.contains k = false)
    (ha : s.hk.alarmed.contains k = false) (hwx : s.hk.limits.warn ≤ x) (hxa : x < s.hk.limits.alarm) :
    s.sensorMean k x = (warnNoted s k).raise islLamp .hkThermalWarn k (leS 2 x) := by
  have hk' : ¬ k > 11 := Nat.not_lt.mpr hk
  have hw' : k ∉ s.hk.warned := by simpa using hw
  have ha' : k ∉ s.hk.alarmed := by simpa using ha
  have halarm : ¬ s.hk.limits.alarm ≤ x := by omega
  simp [State.sensorMean, hk', hj, hw', hwx, ha', halarm, warnNoted]

/-- The sums of the last 1 ms are judged and begin anew. -/
def msJudged (s : State) : State :=
  (s.hk.msSum.map fun e => (e.1, sensorTenths e.2)).foldl (fun (s : State) m => s.sensorMean m.1 m.2) { s with hk := { s.hk with msSum := [] } }

/-- Within a second only the means over 1 ms are judged. -/
theorem thermalEval_within (h : (msJudged s).since (msJudged s).hk.sAt secQ = false) : s.thermalEval = msJudged s := by
  unfold State.thermalEval
  change (if !((msJudged s).since (msJudged s).hk.sAt secQ) then msJudged s else _) = _
  rw [h]
  rfl

/-- The temperatures of the engines after a whole second, from the means of their sensors. -/
def secondJudged (s : State) : State :=
  (s.hk.sSum.map fun e => (e.1, sensorTenths e.2)).foldl
    (fun (s : State) m => if m.1 < 8 then s.modCal m.1 fun c => { c with temp := m.2 } else s)
    { s with hk := { s.hk with sSum := [], sAt := s.mono } }

/-- At a whole second, with one sensor sampled. -/
theorem thermalEval_second {k : Nat} {e : Nat × Nat} (hms : s.hk.msSum = []) (hs : s.hk.sSum = [(k, e)])
    (h : s.since s.hk.sAt secQ = true) : s.thermalEval = (secondJudged s).thermalMean (sensorTenths e) := by
  have hhk : { s.hk with msSum := [] } = s.hk := by rw [← hms]
  have hs1 : ({ s with hk := { s.hk with msSum := [] } } : State) = s := congrArg (fun k : Hk => { s with hk := k }) hhk
  have hj : msJudged s = s := by
    unfold msJudged
    rw [hms, hs1]
    rfl
  have hif : ∀ a b : State, (if !((msJudged s).since (msJudged s).hk.sAt secQ) then a else b) = b := fun a b => by
    rw [hj, h]
    rfl
  refine (hif _ _).trans ?_
  show (match (msJudged s).hk.sSum.map fun e => (e.1, sensorTenths e.2) with
    | [] => secondJudged (msJudged s)
    | m :: ms => (secondJudged (msJudged s)).thermalMean (ms.foldl (fun (a : Int) (x : Nat × Int) => max a x.2) m.2)) = _
  rw [hj, hs]
  rfl

/-- The engine of the sensor takes its mean. -/
theorem secondJudged_one {k : Nat} {e : Nat × Nat} (hk : k ≤ 7) (hs : s.hk.sSum = [(k, e)]) :
    secondJudged s = ({ s with hk := { s.hk with sSum := [], sAt := s.mono } } : State).modCal k fun c => { c with temp := sensorTenths e } := by
  unfold secondJudged
  rw [hs]
  exact if_pos (show k < 8 by omega)

/-- The mean of the hottest sensor goes to the log alone. -/
theorem thermalMean_restore (s : State) (x : Int) : { s.thermalMean x with log := s.log } = s := rfl

/-- Settles O37: the commands one by one, the frame slot by slot, and the two kinds of means. -/
theorem housekeepingComplete : Obligations.HousekeepingComplete := by
  unfold Obligations.HousekeepingComplete
  refine ⟨?_, ?_, fun s q c => exec_hkSequenceSet_reads, ?_, ?_, ?_, fun s q items => exec_hkRead, ?_, ?_, ?_⟩
  case refine_1 =>
    intro s q c h h0 hu hc hact hl hn1 hn h3 hp1 hp ht1 ht h8 hy1 hy hall hd hother
    have hself := hkConv_modHk_self s.accepted c fun v => { v with pend := v.pend ++ [(s.hkStart, hkSeqOf q)] }
    obtain ⟨hrest, hfil⟩ := modHk_restore s.accepted c fun v => { v with pend := v.pend ++ [(s.hkStart, hkSeqOf q)] }
    refine ⟨_, exec_hkSequenceSet_sets h h0 hu hc hact hl hn1 hn h3 hp1 hp ht1 ht h8 hy1 hy hall hd hother, ?_, ?_,
      hkConv_modHk_other _ hc _, hfil, hrest⟩
    · exact congrArg HkConv.pend hself
    · exact (congrArg HkConv.seq hself :)
  case refine_2 =>
    intro s q c h h0 hu hc hact hl hn h3 hd
    have hself := hkConv_modHk_self s.accepted c fun v => { v with pend := v.pend ++ [(s.hkStart, {})] }
    exact ⟨_, exec_hkSequenceSet_ends h h0 hu hc hact hl hn h3 hd, congrArg HkConv.pend hself, hkConv_modHk_other _ hc _,
      (modHk_restore s.accepted c _).1⟩
  case refine_3 =>
    intro s q c h h0 hu hc hact hl hn h3 h14 hw ha hy hd hlt
    exact ⟨_, exec_hkSequenceSet_limits h h0 hu hc hact hl hn h3 h14 hw ha hy hd hlt, rfl, rfl⟩
  case refine_4 =>
    intro s q k g h h0 hl hu hk hact hg hconv hdec hs1 hs4 h6 hd hent hfree
    exact ⟨_, exec_hkFilterSet_sets h h0 hl hu hk hact hg hconv hdec hs1 hs4 h6 hd hent hfree, hkFilter_modFilter_self ..,
      fun j hj => hkFilter_modFilter_ne _ _ hj, rfl, rfl, rfl⟩
  case refine_5 =>
    intro s q k h h0 hl hu hk ha2 ha3 h2 hd
    have hex := exec_hkFilterSet_ends h h0 hl hu hk ha2 ha3 h2 hd
    refine ⟨_, hex, ?_⟩
    unfold filterEnds
    by_cases hact : q.u 1 1 = 2
    · rw [if_pos hact, if_pos hact]
      have hself := hkFilter_modFilter_self s.accepted k fun f => { f with pend := f.pend ++ [(s.hkStart, none)] }
      exact ⟨(congrArg HkFilter.cfg hself :), (congrArg HkFilter.pend hself :), fun j hj => hkFilter_modFilter_ne _ _ hj, rfl⟩
    · rw [if_neg hact, if_neg hact, List.append_nil]
      exact ⟨rfl, rfl, fun _ _ => rfl, rfl⟩
  case refine_6 =>
    intro s adc0 adc1 hs hd2 hd3 he0 he1 h0 h1 hf hl
    obtain ⟨stamp, hframe⟩ := hkFrame_system adc0 adc1 hd2 hd3 he0 he1 h0 h1 hf hl
    have hconv := fun i (hi : i < 42) => converted_systemSlots adc1 stamp ((s.hkCount 0 0 64).hkCount 1 0 64) hi
    obtain ⟨hrest, hhk, hc2, hc3⟩ := slotsOnly_systemSlots adc1 stamp ((s.hkCount 0 0 64).hkCount 1 0 64)
    generalize systemSlots adc1 stamp ((s.hkCount 0 0 64).hkCount 1 0 64) = t at *
    have hrest' : { t with hk := s.hk, cnt := s.cnt } = s := (congrArg (fun u : State => { u with cnt := s.cnt }) hrest :)
    refine ⟨t, ?_, ?_, ?_, hconv, hrest', hhk⟩
    · show (s.hkFrame adc0 adc1).done = _
      rw [hframe]
      exact done_of_settled ((congrArg (fun u : State => u.com.relayed) hrest' :).trans hs)
    · rw [hc2]
      exact (ctr_bump_of_ne _ 64 (by decide)).trans (ctr_bump_by s 2 0 0 64)
    · rw [hc3]
      exact (ctr_bump_by _ 3 0 0 64).trans (congrArg (· + 64) (ctr_bump_of_ne s 64 (by decide)))
  case refine_7 =>
    intro s k x e hs hk hms hx hj hw ha hwx hxa hsec
    subst hx
    let b : State := { s with hk := { s.hk with msSum := [], warned := s.hk.warned ++ [k] } }
    have hjudged : msJudged s = b.raise islLamp .hkThermalWarn k (leS 2 (sensorTenths e)) := by
      unfold msJudged
      rw [hms]
      exact sensorMean_warns (s := { s with hk := { s.hk with msSum := [] } }) hk hj hw ha hwx hxa
    have hsince : (msJudged s).since (msJudged s).hk.sAt secQ = false := by
      rw [hjudged, ← hsec]
      simp [State.since, b]
    refine ⟨b.raise islLamp .hkThermalWarn k (leS 2 (sensorTenths e)), ?_, by simp [b], raise_log_with_hk s _ _ _ _ _, ?_⟩
    · show s.thermalEval.done = _
      rw [thermalEval_within hsince, hjudged]
      exact done_of_settled (by simpa [State.settled, b] using hs)
    · exact (congrArg (fun u : State => { u with hk := s.hk }) (raise_restore b islLamp .hkThermalWarn k (leS 2 (sensorTenths e))) :)
  case refine_8 =>
    intro s k e hs hk hms hss hsec
    let b : State := { s with hk := { s.hk with sSum := [], sAt := s.mono } }
    let f : Cal → Cal := fun c => { c with temp := sensorTenths e }
    refine ⟨(b.modCal k f).thermalMean (sensorTenths e), ?_, ?_, rfl, fun j hj => ?_, rfl, rfl, rfl⟩
    · show s.thermalEval.done = _
      rw [thermalEval_second hms hss hsec, secondJudged_one hk hss]
      exact done_of_settled hs
    · show (tgetD (b.modCal k f).engs k {}).cal.temp = _
      rw [modCal_engs, tgetD_tput_self]
    · show tgetD (b.modCal k f).engs j {} = _
      rw [modCal_engs, tgetD_tput_ne _ _ _ hj]
      rfl

end Sys2Proof.Proofs
end

section
/-!
SUPPORT and PROOFS. The boot from the fuse load to service, the guide pairs, and the test access port (R587 to R599, R616 to R618, R690 to R692).
-/
namespace Sys2Proof.Proofs
open Sys2Proof Sys2Proof.Machine Sys2Proof.Laws

set_option Elab.async false

variable {s : State}

/-! Islands. -/

/-- An island that is changed. -/
theorem island_modIsland_self (s : State) (i : Nat) (f : Island → Island) : (s.modIsland i f).island i = f (s.island i) :=
  tgetD_tput_self ..

/-- The other islands. -/
theorem island_modIsland_ne (s : State) {i k : Nat} (f : Island → Island) (h : k ≠ i) : (s.modIsland i f).island k = s.island k :=
  tgetD_tput_ne _ _ _ h

/-- The power part decides every island. -/
theorem island_congr {t : State} (h : t.power = s.power) (k : Nat) : t.island k = s.island k := by
  rw [State.island, State.island, h]

/-- An island released from reset. -/
def releaseOne (s : State) (i : Nat) : State := s.modIsland i fun x => { x with inReset := false, activeAt := s.mono }

/-- Islands are released one by one. -/
theorem release_eq (s : State) (is : List Nat) : s.release is = is.foldl releaseOne s := rfl

/-- A released island is out of reset. -/
theorem release_mem (s : State) {is : List Nat} {k : Nat} (h : k ∈ is) : ((s.release is).island k).inReset = false := by
  rw [release_eq]
  refine foldl_establishes (fun t : State => (t.island k).inReset = false) (f := releaseOne) (a := k) (fun t i ht => ?_) (fun t => ?_) is s h
  · by_cases hk : k = i
    · rw [hk, releaseOne, island_modIsland_self]
    · rw [releaseOne, island_modIsland_ne _ _ hk, ht]
  · rw [releaseOne, island_modIsland_self]

/-- The others are as they were. -/
theorem release_not_mem (s : State) {is : List Nat} {k : Nat} (h : k ∉ is) : (s.release is).island k = s.island k := by
  rw [release_eq]
  refine List.foldlRecOn (motive := fun t : State => t.island k = s.island k) is releaseOne rfl fun t ht i hi => ?_
  have hk : k ≠ i := fun hk => h (hk.symm ▸ hi)
  rw [releaseOne, island_modIsland_ne _ _ hk, ht]

/-- A release changes the islands alone. -/
theorem release_restore (s : State) (is : List Nat) :
    { s.release is with power := { (s.release is).power with islands := s.power.islands } } = s := by
  rw [release_eq]
  exact foldl_keeps (fun t : State => { t with power := { t.power with islands := s.power.islands } } = s) releaseOne (fun _ _ h => h) is s rfl

/-! The fuse load (R586 to R588). -/

/-- Recording the early events leaves everything but the list of them, the log and the command interface. -/
theorem flushEarly_restore (s : State) :
    { s.flushEarly with log := s.log, com := s.com } = { s with boot := { s.boot with early := [] } } ∧
      s.flushEarly.com.relayed = s.com.relayed := by
  unfold State.flushEarly
  refine foldl_keeps (fun t : State => { t with log := s.log, com := s.com } = { s with boot := { s.boot with early := [] } } ∧
    t.com.relayed = s.com.relayed) _ (fun t x h => ?_) _ ({ s with boot := { s.boot with early := [] } } : State) ⟨rfl, rfl⟩
  have hput := (recordAt_logAndWatermarkOnly t x.1 x.2.2.1 x.2.1 x.2.2.2.1
    (if x.2.1.hasChamber then le 6 (chamberOf t.epoch x.1) ++ x.2.2.2.2 else x.2.2.2.2)).1
  exact ⟨(congrArg (fun u : State => { u with log := s.log, com := s.com }) hput).trans h.1, by simpa using h.2⟩

/-- The end of the fuse load, before safe mode is looked at. -/
def fuseEnded (s : State) : State := (({ s with boot := { s.boot with stage := 4 } } : State).release [1, 2, 12]).flushEarly

/-- What it leaves: the stage, the early events, the three islands. -/
theorem fuseEnded_facts (s : State) :
    (fuseEnded s).boot = { s.boot with stage := 4, early := [] } ∧ (fuseEnded s).variant = s.variant ∧
      (fuseEnded s).com.relayed = s.com.relayed ∧
      (fuseEnded s).power = (({ s with boot := { s.boot with stage := 4 } } : State).release [1, 2, 12]).power := by
  obtain ⟨hrest, hrel⟩ := flushEarly_restore (({ s with boot := { s.boot with stage := 4 } } : State).release [1, 2, 12])
  exact ⟨(congrArg State.boot hrest :), (congrArg State.variant hrest :), hrel, (congrArg State.power hrest :)⟩

/-- Entering the recovery service (R598). -/
theorem enterRecovery_facts (s : State) :
    s.enterRecovery.boot = { s.boot with recovery := true, stage := 0xE, slot := 2 } ∧
      s.enterRecovery.guide = { s.guide with active := some 0, standby := false } ∧ s.enterRecovery.variant = s.variant ∧
      s.enterRecovery.store = s.store ∧ s.enterRecovery.com.relayed = s.com.relayed := by
  simp [State.enterRecovery, State.deviceReset]

/-- The fuse load ends in the recovery service in safe mode, and goes on else. -/
theorem fuseDone_eq (s : State) :
    s.fuseDone = if (fuseEnded s).variant.safeMode then (fuseEnded s).enterRecovery else fuseEnded s := rfl

/-- A load under way. -/
def fuseTried (s : State) : State := { s with boot := { s.boot with stage := 2, loads := s.boot.loads + 1 } }

/-- A load that fails, with its cause. -/
def fuseFailed (s : State) (f : FuseRead) (c : Nat) : State :=
  { fuseTried s with boot := { (fuseTried s).boot with
    failCause := c, firstBad := if c = 1 then firstDiff f.first f.second 0 else 0xFFFFFFFF } }

/-- Safe mode after the third load that fails. -/
def fuseSafe (s : State) (f : FuseRead) (c : Nat) : State :=
  { fuseFailed s f c with variant := { bond64 := f.bond64, safeMode := true }, boot := { (fuseFailed s f c).boot with loadFail := true } }

/-- A load in stage 0x1 or 0x2 passes, is tried again, or leads to safe mode. -/
theorem fuseLoad_eq (f : FuseRead) (ha : s.boot.asserted = false) (hst : s.boot.stage = 1 ∨ s.boot.stage = 2) :
    s.fuseLoad f = match fuseFail f with
      | none => ((fuseTried s).fusePass f).fuseDone
      | some c =>
        if s.boot.loads + 1 < 3 then
          (fuseFailed s f c).bootEvent .fuseLoadRetry islLamp 0xFFFF (le 1 (s.boot.loads + 1) ++ le 1 c)
        else (fuseSafe s f c).fuseDone := by
  unfold State.fuseLoad
  rw [if_neg (by rcases hst with hst | hst <;> simp [ha, hst])]
  rfl

/-- A load that passes. -/
theorem fuseLoad_passes {f : FuseRead} (ha : s.boot.asserted = false) (hst : s.boot.stage = 1 ∨ s.boot.stage = 2)
    (hsrc : s.boot.bootSrc ≠ 3) (hf : fuseFail f = none) : s.fuseLoad f = fuseEnded ((fuseTried s).fusePass f) := by
  have hsafe : (fuseEnded ((fuseTried s).fusePass f)).variant.safeMode = false := by
    rw [(fuseEnded_facts _).2.1]
    show (s.boot.bootSrc == 3) = false
    simpa using hsrc
  have hdone : ((fuseTried s).fusePass f).fuseDone = fuseEnded ((fuseTried s).fusePass f) := by
    rw [fuseDone_eq, hsafe]
    rfl
  rw [fuseLoad_eq f ha hst, hf, hdone]

/-- A load that fails and is tried again; its event waits for the event ring. -/
def fuseRetried (s : State) (f : FuseRead) (c : Nat) : State :=
  { fuseFailed s f c with boot := { (fuseFailed s f c).boot with early := (fuseFailed s f c).boot.early ++
    [((fuseFailed s f c).now, .fuseLoadRetry, islLamp, 0xFFFF, le 1 (s.boot.loads + 1) ++ le 1 c)] } }

/-- The first two loads that fail are events of the boot. -/
theorem fuseLoad_retries {f : FuseRead} {c : Nat} (ha : s.boot.asserted = false) (hst : s.boot.stage = 1 ∨ s.boot.stage = 2)
    (hn : s.boot.loads ≤ 1) (hf : fuseFail f = some c) :
    s.fuseLoad f = fuseRetried s f c := by
  rw [fuseLoad_eq f ha hst, hf]
  exact (if_pos (show s.boot.loads + 1 < 3 by omega)).trans (if_neg (show ¬ 2 ≥ 4 by decide))

/-- The third load that fails. -/
theorem fuseLoad_gives_up {f : FuseRead} {c : Nat} (ha : s.boot.asserted = false) (hst : s.boot.stage = 1 ∨ s.boot.stage = 2)
    (hn : s.boot.loads = 2) (hf : fuseFail f = some c) : s.fuseLoad f = (fuseEnded (fuseSafe s f c)).enterRecovery := by
  have hsafe : (fuseEnded (fuseSafe s f c)).variant.safeMode = true := by
    rw [(fuseEnded_facts _).2.1]
    rfl
  rw [fuseLoad_eq f ha hst, hf]
  dsimp only
  rw [if_neg (by omega), fuseDone_eq, hsafe]
  rfl

/-! Rails (R569, R688). -/

/-- `t` differs from `s` at most in the rails, and has the same unconfirmed ones. -/
def RailsOnly (s t : State) : Prop :=
  { t with power := { t.power with rails := s.power.rails, operation := s.power.operation } } = s

/-- Turning on a rail that is not unconfirmed. -/
theorem RailsOnly.operate {t : State} (h : RailsOnly s t) (at_ : Nat) {code : Nat} (hc : code ∉ s.power.unconfirmed) :
    RailsOnly s (t.operate at_ true code) := by
  have hun : t.power.unconfirmed = s.power.unconfirmed := (congrArg (fun u : State => u.power.unconfirmed) h :)
  have hkept : (t.power.unconfirmed.filter fun c => c != code) = t.power.unconfirmed :=
    List.filter_eq_self.mpr fun c hc' => bne_iff_ne.mpr fun he => hc (he ▸ hun ▸ hc')
  unfold State.operate
  rw [if_pos rfl, hkept]
  exact of_ite (P := RailsOnly s) h h

/-- Turning on, in steps, rails that are not unconfirmed. -/
theorem railsOnly_railsUp {steps : List (List Nat)} (h : ∀ step ∈ steps, ∀ c ∈ step, c ∉ s.power.unconfirmed) :
    RailsOnly s (s.railsUp steps) := by
  unfold State.railsUp
  refine List.foldlRecOn (motive := fun a : State × Nat => RailsOnly s a.1) steps _ rfl fun a ha step hstep => ?_
  refine List.foldlRecOn (motive := fun t : State => RailsOnly s t) _ _ ha fun t ht c hc => ?_
  exact ht.operate a.2 (h step hstep c (List.mem_of_mem_filter hc))

/-- Turning on rails leaves everything but the power part. -/
theorem railsUp_restore (s : State) (steps : List (List Nat)) : { s.railsUp steps with power := s.power } = s := by
  unfold State.railsUp
  refine foldl_keeps (fun a : State × Nat => { a.1 with power := s.power } = s) _ (fun a step ha => ?_) steps _ rfl
  refine foldl_keeps (fun t : State => { t with power := s.power } = s) _ (fun t c ht => ?_) _ _ ha
  unfold State.operate
  exact of_ite (P := fun t : State => { t with power := s.power } = s) ht ht

/-! The board configuration, training and the images (R595 to R598, R483). -/

/-- Stage 0x4 of the boot, with the flash mode chosen. -/
def flashChosen (s : State) : State := { s with boot := { s.boot with fspi := s.flashMode } }

/-- A board configuration in force. -/
def boardApplied (s : State) : State :=
  let t := (flashChosen s).applyBoard s.store.board
  { t with boot := { t.boot with stage := 6 } }

/-- A board configuration that passes its checks. -/
theorem boardRead_passes (ha : s.boot.asserted = false) (hst : s.boot.stage = 4) (hsrc : s.boot.bootSrc = 0)
    (hb : checkBoard s.store.board = none) : s.boardRead = (boardApplied s).railsUp stage6Rails := by
  unfold State.boardRead
  rw [if_neg (by simp [ha, hst])]
  show (if s.boot.bootSrc = 1 ∨ s.boot.bootSrc = 2 then _ else match checkBoard s.store.board with | some c => _ | none => _) = _
  rw [if_neg (by omega), hb]
  rfl

/-- A board configuration that fails leads to the recovery service. -/
theorem boardRead_fails {c : Nat} (ha : s.boot.asserted = false) (hst : s.boot.stage = 4) (hsrc : s.boot.bootSrc = 0)
    (hb : checkBoard s.store.board = some c) :
    s.boardRead = (({ flashChosen s with boot := { (flashChosen s).boot with stage := 5 } } : State).raise islCtrl .boardConfigFail 0xFFFF
      (le 1 c)).enterRecovery := by
  unfold State.boardRead
  rw [if_neg (by simp [ha, hst])]
  show (if s.boot.bootSrc = 1 ∨ s.boot.bootSrc = 2 then _ else match checkBoard s.store.board with | some c => _ | none => _) = _
  rw [if_neg (by omega), hb]
  rfl

/-- The parts that a board configuration in force changes, but for the rails. -/
theorem boardApplied_facts (s : State) :
    (boardApplied s).boot = { s.boot with
        fspi := s.flashMode, boardOk := true, boardTag := fld s.store.board 4 4, lp6Ranks := fld s.store.board 12 1
        lp6Gib := fld s.store.board 13 1, lp6Rate := fld s.store.board 14 1, wdtS := fld s.store.board 15 1, stage := 6 } ∧
      (boardApplied s).mem = { s.mem with capacity := lpCapacity (fld s.store.board 13 1) } ∧ (boardApplied s).com = s.com :=
  ⟨rfl, rfl, rfl⟩

/-- What the read of the board configuration leaves. -/
theorem boardRead_facts (ha : s.boot.asserted = false) (hst : s.boot.stage = 4) (hsrc : s.boot.bootSrc = 0) :
    (checkBoard s.store.board = none → s.boardRead.boot = { s.boot with
        fspi := s.flashMode, boardOk := true, boardTag := fld s.store.board 4 4, lp6Ranks := fld s.store.board 12 1
        lp6Gib := fld s.store.board 13 1, lp6Rate := fld s.store.board 14 1, wdtS := fld s.store.board 15 1, stage := 6 } ∧
      s.boardRead.mem = { s.mem with capacity := lpCapacity (fld s.store.board 13 1) }) ∧
      (checkBoard s.store.board ≠ none → s.boardRead.boot = { s.boot with
        fspi := s.flashMode, recovery := true, stage := 0xE, slot := 2 }) ∧
      s.boardRead.com.relayed = s.com.relayed := by
  cases hb : checkBoard s.store.board with
  | none =>
    rw [boardRead_passes ha hst hsrc hb]
    obtain ⟨hboot, hmem, hcom⟩ := boardApplied_facts s
    have hrest := railsUp_restore (boardApplied s) stage6Rails
    generalize boardApplied s = t at *
    generalize t.railsUp stage6Rails = u at *
    exact ⟨fun _ => ⟨(congrArg State.boot hrest :).trans hboot, (congrArg State.mem hrest :).trans hmem⟩, fun h => absurd rfl h,
      congrArg Com.relayed ((congrArg State.com hrest :).trans hcom)⟩
  | some c =>
    rw [boardRead_fails ha hst hsrc hb]
    obtain ⟨hboot, -, -, -, hrel⟩ := enterRecovery_facts (({ flashChosen s with boot := { (flashChosen s).boot with stage := 5 } } :
      State).raise islCtrl .boardConfigFail 0xFFFF (le 1 c))
    refine ⟨fun h => (nomatch h), fun _ => ?_, ?_⟩
    · rw [hboot]
      simp [flashChosen]
    · rw [hrel]
      simp [flashChosen]

/-- LPDDR6 training in stage 0x6. -/
theorem trainingDone_readies (ha : s.boot.asserted = false) (hb : s.boot.boardOk = true) (hr : s.mem.ready = false)
    (hst : s.boot.stage = 6) : s.trainingDone = s.lpddrReady := by
  rw [State.trainingDone, if_neg (by simp [ha, hb, hr, hst])]

/-- No block of LPDDR6 is valid once it is ready. -/
theorem lpddrReady_valid (s : State) : (s.lpddrReady.memInst 0x1800).valid = [] := by
  show (tgetD (tmod s.mem.insts 0x1800 fun m => { m with valid := [], poison := [] }) 0x1800 {}).valid = []
  rw [tgetD, tget_tmod_self]
  cases tget s.mem.insts 0x1800 <;> rfl

/-- An image runs. -/
def imageRuns (s : State) (slot : Nat) (b : List Byte) : State :=
  { s with boot := { s.boot with stage := 9, slot := slot, running := runningOf b } }

/-- The preferred image, the other slot, or the recovery service (R597). -/
theorem authenticate_eq {a b : List Byte} (ha : s.boot.asserted = false) (hst : s.boot.stage = 7)
    (h : a = tgetD s.store.slots s.store.preferred []) (hb : b = tgetD s.store.slots (1 - s.store.preferred) []) :
    s.authenticate = match checkImage a with
      | none => imageRuns s s.store.preferred a
      | some c => match checkImage b with
        | none => imageRuns (s.authFail s.store.preferred c) (1 - s.store.preferred) b
        | some d => ((s.authFail s.store.preferred c).authFail (1 - s.store.preferred) d).enterRecovery := by
  unfold State.authenticate
  rw [if_neg (by simp [ha, hst]), h, hb]
  rfl

/-- An image that fails leaves MTP and the boot. -/
theorem authFail_facts (s : State) (slot cause : Nat) :
    (s.authFail slot cause).store = s.store ∧ (s.authFail slot cause).boot = s.boot ∧ (s.authFail slot cause).com.relayed = s.com.relayed := by
  simp [State.authFail]

/-- What the authentication leaves: the image that runs, or the recovery service. -/
theorem authenticate_facts {a b : List Byte} (ha : s.boot.asserted = false) (hst : s.boot.stage = 7)
    (h : a = tgetD s.store.slots s.store.preferred []) (hb : b = tgetD s.store.slots (1 - s.store.preferred) []) :
    (checkImage a = none → s.authenticate.boot.stage = 9 ∧ s.authenticate.boot.slot = s.store.preferred ∧
        s.authenticate.boot.running = runningOf a) ∧
      (checkImage a ≠ none → checkImage b = none → s.authenticate.boot.stage = 9 ∧
        s.authenticate.boot.slot = 1 - s.store.preferred ∧ s.authenticate.boot.running = runningOf b) ∧
      (checkImage a ≠ none → checkImage b ≠ none → s.authenticate.boot.stage = 0xE ∧ s.authenticate.boot.recovery = true ∧
        s.authenticate.guide.active = some 0) ∧
      s.authenticate.store = s.store ∧ s.authenticate.com.relayed = s.com.relayed := by
  rw [authenticate_eq ha hst h hb]
  cases hca : checkImage a with
  | none => exact ⟨fun _ => ⟨rfl, rfl, rfl⟩, fun hn => absurd rfl hn, fun hn => absurd rfl hn, rfl, rfl⟩
  | some c =>
    obtain ⟨hstore, -, hrel⟩ := authFail_facts s s.store.preferred c
    cases hcb : checkImage b with
    | none => exact ⟨fun hn => (nomatch hn), fun _ _ => ⟨rfl, rfl, rfl⟩, fun _ hn => absurd rfl hn, hstore, hrel⟩
    | some d =>
      obtain ⟨hstore', -, hrel'⟩ := authFail_facts (s.authFail s.store.preferred c) (1 - s.store.preferred) d
      obtain ⟨hboot, hguide, -, hstore'', hrel''⟩ := enterRecovery_facts
        ((s.authFail s.store.preferred c).authFail (1 - s.store.preferred) d)
      dsimp only
      rw [hboot, hguide]
      exact ⟨fun hn => (nomatch hn), fun _ hn => (nomatch hn), fun _ _ => ⟨rfl, rfl, rfl⟩, hstore''.trans (hstore'.trans hstore),
        hrel''.trans (hrel'.trans hrel)⟩

/-! The end of the boot (R508, R599, R688). -/

/-- The parts that the end of the boot speaks of besides the islands. -/
def bootView (s : State) : Power × Boot × Guide × Com := (s.power, s.boot, s.guide, s.com)

/-- Filling the memories leaves them. -/
theorem bootView_fillMemories (s : State) : bootView s.fillMemories = bootView s := by
  have hmod : ∀ (t : State) (f : Mem → Mem), bootView (t.modMem f) = bootView t := fun _ _ => rfl
  rw [State.fillMemories, hmod]
  exact foldl_leaves bootView (f := fun t i => t.fillIsland i) fun t i => (congrArg bootView (fillIsland_restore t i) :)

/-- Clearing an island leaves them. -/
theorem bootView_clearIsland (s : State) (i : Nat) : bootView (s.clearIsland i) = bootView s := by
  have hmem : bootView (s.clearIsland i) = bootView ((s.clearRegs i).clearCounters i) :=
    (congrArg bootView (clearMemories_restore ((s.clearRegs i).clearCounters i) i) :)
  have hregs : bootView (s.clearRegs i) = bootView s := by
    unfold State.clearRegs
    split
    · rfl
    · exact of_ite (P := fun t => bootView t = bootView s) rfl (of_ite (P := fun t => bootView t = bootView s) rfl rfl)
  exact hmem.trans hregs

/-- An island that stays OFF for want of a rail. -/
def islandOff (s : State) (i : Nat) : State := (s.clearIsland i).modIsland i fun x => { x with st := .off, inReset := true }

/-- The islands without a rail are OFF. -/
def islandsOff (s : State) : State := ((List.range 15).filter s.unpowered).foldl islandOff s

/-- Boot calibration is due. -/
def calibrationDue (s : State) : State :=
  (List.range 8).foldl (fun (s : State) n => if s.fitted n && !(s.unpowered (islEng n)) then s.needBootCal n else s) s

/-- Stage 0xB of the boot, its rails turned on. -/
def enginesUp (s : State) : State :=
  ({ s with boot := { s.boot with stage := 0xB } } : State).railsUp
    (s.stageBRails.map fun (step : List Nat) => step.filter fun c => !(s.power.unconfirmed.contains c))

/-- The islands come up. -/
theorem islandsUp_eq (ha : s.boot.asserted = false) (hst : s.boot.stage = 9 ∨ s.boot.stage = 0xA) :
    s.islandsUp = calibrationDue (islandsOff
      ((enginesUp s).release ((List.range 15).filter fun i => !((enginesUp s).unpowered i))).fillMemories) := by
  unfold State.islandsUp
  rw [if_neg (by rcases hst with hst | hst <;> simp [ha, hst])]
  rfl

/-- The rails of stage 0xB leave the unconfirmed rails and the islands. -/
theorem railsOnly_enginesUp (s : State) : RailsOnly { s with boot := { s.boot with stage := 0xB } } (enginesUp s) := by
  refine railsOnly_railsUp fun step hstep c hc => ?_
  obtain ⟨x, -, rfl⟩ := List.mem_map.mp hstep
  simpa using (List.mem_filter.mp hc).2

/-- The unconfirmed rails decide which islands stay OFF. -/
theorem unpowered_congr {t : State} (h : t.power.unconfirmed = s.power.unconfirmed) (k : Nat) : t.unpowered k = s.unpowered k := by
  rw [State.unpowered, State.unpowered, h]

/-- An island that stays OFF. -/
theorem islandOff_facts (s : State) (i : Nat) :
    (islandOff s i).boot = s.boot ∧ (islandOff s i).guide = s.guide ∧ (islandOff s i).com = s.com ∧
      (islandOff s i).power.unconfirmed = s.power.unconfirmed ∧
      (islandOff s i).island i = { s.island i with st := .off, inReset := true } ∧ ∀ k, k ≠ i → (islandOff s i).island k = s.island k := by
  have hview := bootView_clearIsland s i
  have hpow : (s.clearIsland i).power = s.power := congrArg Prod.fst hview
  have hboot : (s.clearIsland i).boot = s.boot := congrArg (fun v => v.2.1) hview
  have hguide : (s.clearIsland i).guide = s.guide := congrArg (fun v => v.2.2.1) hview
  have hcom : (s.clearIsland i).com = s.com := congrArg (fun v => v.2.2.2) hview
  refine ⟨hboot, hguide, hcom, (congrArg Power.unconfirmed hpow :), ?_, fun k hk => ?_⟩
  · rw [islandOff, island_modIsland_self, island_congr hpow]
  · rw [islandOff, island_modIsland_ne _ _ hk, island_congr hpow]

/-- What the end of the boot leaves of the parts it speaks of. -/
def BootKept (s t : State) : Prop :=
  t.boot = s.boot ∧ t.guide = s.guide ∧ t.com = s.com ∧ t.power.unconfirmed = s.power.unconfirmed

/-- Islands without a rail are OFF, the others as they were. -/
theorem islandsOff_facts (s : State) :
    BootKept s (islandsOff s) ∧ ∀ k, k ≤ 14 → (s.unpowered k = false → (islandsOff s).island k = s.island k) ∧
      (s.unpowered k = true → ((islandsOff s).island k).st = .off ∧ ((islandsOff s).island k).inReset = true) := by
  refine ⟨?_, fun k hk => ⟨fun hu => ?_, fun hu => ?_⟩⟩
  · refine foldl_keeps (BootKept s) islandOff (fun t i ht => ?_) _ s ⟨rfl, rfl, rfl, rfl⟩
    obtain ⟨hboot, hguide, hcom, hun⟩ := ht
    obtain ⟨hboot', hguide', hcom', hun', -⟩ := islandOff_facts t i
    exact ⟨hboot'.trans hboot, hguide'.trans hguide, hcom'.trans hcom, hun'.trans hun⟩
  · refine List.foldlRecOn (motive := fun t : State => t.island k = s.island k) _ islandOff rfl fun t ht i hi => ?_
    have hk : k ≠ i := by
      rintro rfl
      exact absurd ((List.mem_filter.mp hi).2.symm.trans hu) (by decide)
    exact ((islandOff_facts t i).2.2.2.2.2 k hk).trans ht
  · have hmem : k ∈ (List.range 15).filter s.unpowered := List.mem_filter.mpr ⟨List.mem_range.mpr (by omega), hu⟩
    have hself : ∀ t : State, ((islandOff t k).island k).st = .off ∧ ((islandOff t k).island k).inReset = true := fun t => by
      rw [(islandOff_facts t k).2.2.2.2.1]
      exact ⟨rfl, rfl⟩
    refine foldl_establishes (fun t : State => (t.island k).st = .off ∧ (t.island k).inReset = true) (fun t i ht => ?_) hself _ s hmem
    by_cases hi : k = i
    · exact hi ▸ hself t
    · rw [(islandOff_facts t i).2.2.2.2.2 k hi]
      exact ht

/-- Boot calibration that is due changes the engines alone. -/
theorem bootView_calibrationDue (s : State) : bootView (calibrationDue s) = bootView s :=
  foldl_leaves bootView fun _ _ => of_ite (P := fun t => bootView t = bootView _) rfl rfl

/-- The islands after the end of the boot. -/
def IslandsUp (s t : State) : Prop :=
  ∀ k, k ≤ 14 → (s.unpowered k = false → (t.island k).inReset = false) ∧
    (s.unpowered k = true → (t.island k).st = .off ∧ (t.island k).inReset = true)

/-- The end of the boot, before commands are served. -/
theorem islandsUp_facts (ha : s.boot.asserted = false) (hst : s.boot.stage = 9 ∨ s.boot.stage = 0xA) :
    IslandsUp s s.islandsUp ∧ s.islandsUp.boot = { s.boot with stage := 0xB } ∧ s.islandsUp.guide = s.guide ∧ s.islandsUp.com = s.com := by
  have hrails := railsOnly_enginesUp s
  have hup : ∀ k, (enginesUp s).unpowered k = s.unpowered k := unpowered_congr (congrArg (fun u : State => u.power.unconfirmed) hrails :)
  have hboot : (enginesUp s).boot = { s.boot with stage := 0xB } := (congrArg State.boot hrails :)
  have hguide : (enginesUp s).guide = s.guide := (congrArg State.guide hrails :)
  have hcom : (enginesUp s).com = s.com := (congrArg State.com hrails :)
  rw [islandsUp_eq ha hst]
  generalize enginesUp s = a at *
  have hrel := fun k (hk : k ≤ 14) (hu : s.unpowered k = false) => release_mem a (is := (List.range 15).filter fun i => !(a.unpowered i))
    (List.mem_filter.mpr ⟨List.mem_range.mpr (by omega), by rw [hup, hu]; rfl⟩ : k ∈ _)
  have hrest := release_restore a ((List.range 15).filter fun i => !(a.unpowered i))
  generalize a.release ((List.range 15).filter fun i => !(a.unpowered i)) = b at *
  have hfill := bootView_fillMemories b
  generalize b.fillMemories = c at *
  obtain ⟨⟨hboot', hguide', hcom', hun⟩, hoff⟩ := islandsOff_facts c
  have hcal := bootView_calibrationDue (islandsOff c)
  generalize islandsOff c = d at *
  generalize calibrationDue d = e at *
  have hbun : b.power.unconfirmed = a.power.unconfirmed := (congrArg (fun u : State => u.power.unconfirmed) hrest :)
  have hbboot : b.boot = a.boot := (congrArg State.boot hrest :)
  have hbguide : b.guide = a.guide := (congrArg State.guide hrest :)
  have hbcom : b.com = a.com := (congrArg State.com hrest :)
  obtain ⟨hcpow, hcboot, hcguide, hccom⟩ : c.power = b.power ∧ c.boot = b.boot ∧ c.guide = b.guide ∧ c.com = b.com := by
    simpa [bootView] using hfill
  obtain ⟨hepow, heboot, heguide, hecom⟩ : e.power = d.power ∧ e.boot = d.boot ∧ e.guide = d.guide ∧ e.com = d.com := by
    simpa [bootView] using hcal
  have hcup : ∀ k, c.unpowered k = s.unpowered k := fun k =>
    (unpowered_congr ((congrArg Power.unconfirmed hcpow).trans hbun) k).trans (hup k)
  refine ⟨fun k hk => ⟨fun hu => ?_, fun hu => ?_⟩, ?_, ?_, ?_⟩
  · rw [island_congr hepow, (hoff k hk).1 ((hcup k).trans hu), island_congr hcpow]
    exact hrel k hk hu
  · rw [island_congr hepow]
    exact (hoff k hk).2 ((hcup k).trans hu)
  · rw [heboot, hboot', hcboot, hbboot, hboot]
  · rw [heguide, hguide', hcguide, hbguide, hguide]
  · rw [hecom, hcom', hccom, hbcom, hcom]

/-- The device serves commands. -/
def served (s : State) : State :=
  { s with
    boot := { s.boot with stage := 0xF, recovery := false }
    guide := { s.guide with active := some 0, standby := s.guide.failed.isEmpty } }

/-- Answering packets whose headers failed leaves everything but the command interface, timing and engines. -/
theorem answerBad_keeps (s : State) : s.answerBad.boot = s.boot ∧ s.answerBad.guide = s.guide ∧ s.answerBad.power = s.power := by
  refine foldl_keeps (fun t : State => t.boot = s.boot ∧ t.guide = s.guide ∧ t.power = s.power) _ (fun t r h => ?_) _ s ⟨rfl, rfl, rfl⟩
  split
  · simpa using h
  · exact h

/-- The boot completes. -/
theorem bootComplete_eq (ha : s.boot.asserted = false) (hst : s.boot.stage = 9 ∨ s.boot.stage = 0xA) :
    s.bootComplete = (served s.islandsUp).deviceReset s.boot.slot := by
  have hboot := (islandsUp_facts ha hst).2.1
  have hstage : s.islandsUp.boot.stage = 0xB := (congrArg Boot.stage hboot :)
  have hasserted : s.islandsUp.boot.asserted = false := (congrArg Boot.asserted hboot :).trans ha
  have hslot : s.islandsUp.boot.slot = s.boot.slot := (congrArg Boot.slot hboot :)
  rw [← hslot]
  exact if_neg (by simp [hstage, hasserted])

/-- What the completed boot leaves, packets with a bad header answered. -/
theorem bootComplete_facts (ha : s.boot.asserted = false) (hst : s.boot.stage = 9 ∨ s.boot.stage = 0xA) :
    IslandsUp s s.bootComplete.answerBad ∧ s.bootComplete.answerBad.boot = { s.boot with stage := 0xF, recovery := false } ∧
      s.bootComplete.answerBad.guide = { s.guide with active := some 0, standby := s.guide.failed.isEmpty } := by
  obtain ⟨hisl, hboot, hguide, -⟩ := islandsUp_facts ha hst
  rw [bootComplete_eq ha hst]
  obtain ⟨hboot', hguide', hpow'⟩ := answerBad_keeps ((served s.islandsUp).deviceReset s.boot.slot)
  rw [hboot', hguide']
  have hpow : ((served s.islandsUp).deviceReset s.boot.slot).answerBad.power = s.islandsUp.power := by
    rw [hpow']
    simp [State.deviceReset, served]
  refine ⟨fun k hk => ?_, ?_, ?_⟩
  · rw [island_congr hpow]
    exact hisl k hk
  · simp [State.deviceReset, served, hboot]
  · simp [State.deviceReset, served, hguide]

/-! The guide pairs (R616 to R618). -/

/-- `t` differs from `s` at most in the guide pairs, the log and the command interface, and there in what an event changes. -/
def GuideEvent (s t : State) : Prop :=
  { t with guide := s.guide, log := s.log, com := s.com } = s ∧ t.com.received = s.com.received ∧ t.com.relayed = s.com.relayed

/-- An event. -/
theorem GuideEvent.raise {t : State} (h : GuideEvent s t) (i : Nat) (e : Ev) (src : Nat) (p : List Byte) :
    GuideEvent s (t.raise i e src p) := by
  obtain ⟨hrest, hrec, hrel⟩ := h
  refine ⟨?_, by simpa using hrec, by simpa using hrel⟩
  exact (congrArg (fun u : State => { u with guide := s.guide, log := s.log, com := s.com }) (raise_restore t i e src p)).trans hrest

/-- What the declaration of a fault leaves of the guide pairs. -/
def SamePairs (g h : Guide) : Prop :=
  { h with lastFault := g.lastFault, losFirst := g.losFirst, boundVoid := g.boundVoid } = g

/-- Declaring a fault is an event of the guide pairs, and leaves which pair serves. -/
theorem declareFault_facts {t : State} (h : GuideEvent s t) (cls : Nat) (light : Bool) :
    GuideEvent s (t.declareFault cls light) ∧ SamePairs t.guide (t.declareFault cls light).guide := by
  unfold State.declareFault
  dsimp only
  refine of_ite (P := fun u : State => GuideEvent s u ∧ SamePairs t.guide u.guide) ⟨h, rfl⟩ ?_
  have hnoted : GuideEvent s { t with guide := { t.guide with
      lastFault := some (cls, t.mono, t.chamber), losFirst := if light then some t.mono else t.guide.losFirst } } := h
  split
  · refine of_ite (P := fun u : State => GuideEvent s u ∧ SamePairs t.guide u.guide) ?_ ⟨hnoted, rfl⟩
    exact ⟨hnoted.raise .., by simp [SamePairs]⟩
  · exact ⟨hnoted, rfl⟩

/-- An event of the guide pairs and the declaration of a fault, after a change of the guide pairs. -/
theorem trap_facts {t : State} (h : GuideEvent s t) (src : Nat) (p : List Byte) (cls : Nat) :
    GuideEvent s ((t.raise islCtrl .guideMismatch src p).declareFault cls false) ∧
      SamePairs t.guide ((t.raise islCtrl .guideMismatch src p).declareFault cls false).guide := by
  obtain ⟨hdecl, hpairs⟩ := declareFault_facts (h.raise islCtrl .guideMismatch src p) cls false
  have hguide : (t.raise islCtrl .guideMismatch src p).guide = t.guide := by simp
  exact ⟨hdecl, hguide ▸ hpairs⟩

/-- The standby takes over from pair `p`. -/
def handedOver (s : State) (p : Nat) : State :=
  { s with guide := { s.guide with
    active := some (1 - p), standby := false, trapped := some (p, s.mono), taking := some (1 - p, s.mono) } }

/-- The active pair traps and the standby takes over. -/
theorem activeTrap_facts (s : State) (p cause : Nat) :
    GuideEvent s (s.activeTrap p cause) ∧ SamePairs (handedOver s p).guide (s.activeTrap p cause).guide :=
  trap_facts (s := s) (t := handedOver s p) ⟨rfl, rfl, rfl⟩ p (le 1 1 ++ le 1 cause) 2

/-- The standby of pair `p` is halted. -/
def standbyHalted (s : State) (p : Nat) : State :=
  { s with guide := { s.guide with standby := false, trapped := some (1 - p, s.mono) } }

/-- The standby pair traps. -/
theorem standbyTrap_facts {p : Nat} (cause : Nat) (ha : s.guide.active = some p) (hst : s.guide.standby = true) :
    GuideEvent s (s.standbyTrap cause) ∧ SamePairs (standbyHalted s p).guide (s.standbyTrap cause).guide := by
  have htrap : s.standbyTrap cause =
      ((standbyHalted s p).raise islCtrl .guideMismatch (1 - p) (le 1 2 ++ le 1 cause)).declareFault 3 false := by
    unfold State.standbyTrap
    split
    case h_1 q hq =>
      obtain rfl : q = p := Option.some.inj (hq.symm.trans ha)
      rw [if_neg (by simp [hst])]
      rfl
    case h_2 hn => exact absurd (hn.symm.trans ha) (by simp)
  rw [htrap]
  exact trap_facts (s := s) (t := standbyHalted s p) ⟨rfl, rfl, rfl⟩ ..

/-- Where every packet received is under way, a takeover has nothing to answer. -/
theorem answerAll_idle (h : (s.com.received.all fun r => r.started && r.bad.isNone) = true) : s.answerAll = s := by
  have hmem : ∀ r ∈ s.com.received, r.started = true ∧ r.bad = none := by simpa using h
  have hbad : s.answerBad = s := by
    refine List.foldlRecOn (motive := fun t : State => t = s) s.com.received _ rfl fun t ht r hr => ?_
    rw [(hmem r hr).2]
    exact ht
  have hwaits : s.com.received.filter Received.waits = [] :=
    List.filter_eq_nil_iff.mpr fun r hr => by simp [Received.waits, (hmem r hr).1]
  unfold State.answerAll
  rw [hbad]
  dsimp only
  rw [hwaits]
  rfl

/-- The new active pair resumes. -/
def resumed (s : State) : State := { s with guide := { s.guide with taking := none, takeover := some s.mono } }

/-- A takeover that ends. -/
theorem takeOver_facts {p t0 : Nat} (ht : s.guide.taking = some (p, t0))
    (h : (s.com.received.all fun r => r.started && r.bad.isNone) = true) :
    GuideEvent s (s.takeOver State.answerAll) ∧ (s.takeOver State.answerAll).guide = (resumed s).guide := by
  have hidle : (resumed s).answerAll = resumed s := answerAll_idle (s := resumed s) h
  have hev : GuideEvent s (resumed s) := ⟨rfl, rfl, rfl⟩
  have htake : ∃ x : List Byte, s.takeOver State.answerAll = (resumed s).raise islCtrl .guideTakeover p x := by
    unfold State.takeOver
    split
    case h_1 hn => exact absurd (hn.symm.trans ht) (by simp)
    case h_2 q u hq =>
      obtain rfl : q = p := congrArg Prod.fst (Option.some.inj (hq.symm.trans ht))
      exact ⟨_, congrArg (fun r : State => r.raise islCtrl .guideTakeover q (le 2 (satN 2 ((s.com.received.filter fun r => r.started).length)) ++
        le 2 (satN 2 ((s.com.received.filter fun r => !r.started).length)) ++ le 1 (satN 1 r.runningJobs.length) ++
          le 4 (satN 4 ((r.mono - u) / usQ)))) hidle⟩
  obtain ⟨x, hx⟩ := htake
  rw [hx]
  exact ⟨hev.raise .., by simp⟩

/-- A trapped pair that passed its self-test. -/
def standbyBack (s : State) : State := { s with guide := { s.guide with trapped := none, standby := true } }

/-- A trapped pair that failed it. -/
def standbyLost (s : State) (p : Nat) : State := { s with guide := { s.guide with trapped := none, failed := s.guide.failed ++ [p] } }

/-- A trapped pair ends its self-test. -/
theorem standbyReady_eq {p t0 : Nat} (failed : Option Nat) (h : s.guide.trapped = some (p, t0)) :
    s.standbyReady failed = failed.elim ((standbyBack s).raise islCtrl .guideStandbyReady p (le 4 (satN 4 s.guide.journal)))
      fun st => (standbyLost s p).raise islCtrl .guidePairFailed p (le 1 st) := by
  unfold State.standbyReady
  rw [h]
  cases failed <;> rfl

/-! The obligation. -/

/-- Settles O32: the boot stage by stage, then the traps of the guide pairs. -/
theorem bootAndGuideRowsComplete : Obligations.BootAndGuideRowsComplete := by
  unfold Obligations.BootAndGuideRowsComplete
  refine ⟨?_, ?_, ?_, ?_, ?_, ?_, ?_, ?_, ?_, ?_, ?_, ?_, ?_, ?_⟩
  case refine_1 =>
    intro s f hs ha hst hsrc hf
    obtain ⟨hboot, hvar, hrel, hpow⟩ := fuseEnded_facts ((fuseTried s).fusePass f)
    have hload := fuseLoad_passes ha hst hsrc hf
    generalize fuseEnded ((fuseTried s).fusePass f) = t at *
    refine ⟨t, ?_, ?_, ?_, ?_, ?_, ?_, ?_, ?_, fun k hk => ?_, fun k h1 h2 h12 => ?_⟩
    · show (s.fuseLoad f).done = _
      rw [hload]
      exact done_of_settled (hrel.trans hs)
    · rw [hboot]
    · rw [hboot]; rfl
    · rw [hvar]; rfl
    · rw [hvar]
      show variantOf f (s.boot.bootSrc == 3) = _
      rw [beq_eq_false_iff_ne.mpr hsrc]
    · rw [hboot]; rfl
    · rw [hboot]; rfl
    · rw [hboot]
    · rw [island_congr hpow]
      exact release_mem _ (by simpa using hk)
    · rw [island_congr hpow, release_not_mem _ (by simp [h1, h2, h12])]
      rfl
  case refine_2 =>
    intro s f hs ha hst hn hf
    obtain ⟨c, hc⟩ := Option.isSome_iff_exists.mp hf
    have hload := fuseLoad_gives_up ha (.inr hst) hn hc
    obtain ⟨hboot, hvar, hrel, -⟩ := fuseEnded_facts (fuseSafe s f c)
    obtain ⟨hboot', hguide', hvar', -, hrel'⟩ := enterRecovery_facts (fuseEnded (fuseSafe s f c))
    rw [hboot] at hboot'
    generalize (fuseEnded (fuseSafe s f c)).enterRecovery = t at *
    refine ⟨t, ?_, ?_, ?_, ?_, ?_, ?_, ?_, ?_⟩
    · show (s.fuseLoad f).done = _
      rw [hload]
      exact done_of_settled (hrel'.trans (hrel.trans hs))
    · rw [hvar', hvar]; rfl
    · rw [hvar', hvar]; rfl
    · rw [hboot']; rfl
    · rw [hboot']
      show s.boot.loads + 1 = 3
      rw [hn]
    · rw [hboot']
    · rw [hboot']
    · rw [hguide']
  case refine_3 =>
    intro s f c hs ha hst hn hf
    have hload := fuseLoad_retries ha hst hn hf
    refine ⟨fuseRetried s f c, ?_, rfl, rfl, rfl, rfl, rfl, rfl⟩
    show (s.fuseLoad f).done = _
    rw [hload]
    exact done_of_settled hs
  case refine_4 =>
    intro s hs ha hst hsrc
    obtain ⟨hpass, hfail, hrel⟩ := boardRead_facts ha hst hsrc
    refine ⟨s.boardRead, done_of_settled (hrel.trans hs), fun hb => ?_, fun hb => ?_⟩
    · obtain ⟨hboot, hmem⟩ := hpass hb
      rw [hboot, hmem]
      exact ⟨rfl, rfl, rfl, rfl, rfl⟩
    · rw [hfail hb]
      exact ⟨rfl, rfl, rfl⟩
  case refine_5 =>
    intro s hs ha hb hr hst
    refine ⟨s.lpddrReady, ?_, rfl, ?_, lpddrReady_valid s, rfl, rfl, rfl, rfl, rfl⟩
    · show (s.trainingDone).done = _
      rw [trainingDone_readies ha hb hr hst]
      exact done_of_settled hs
    · exact if_pos hst
  case refine_6 =>
    intro s a b hs ha hst hslot hother
    obtain ⟨hfirst, hother', hnone, hstore, hrel⟩ := authenticate_facts ha hst hslot hother
    exact ⟨s.authenticate, done_of_settled (hrel.trans hs), hfirst, hother', hnone, hstore⟩
  case refine_7 =>
    intro s hs ha hst
    obtain ⟨hisl, hboot, hguide⟩ := bootComplete_facts ha hst
    refine ⟨s.bootComplete.answerBad.sendRelayed, rfl, ?_⟩
    have hpow : s.bootComplete.answerBad.sendRelayed.power = s.bootComplete.answerBad.power := by simp
    have hboot' : s.bootComplete.answerBad.sendRelayed.boot = s.bootComplete.answerBad.boot := by simp
    have hguide' : s.bootComplete.answerBad.sendRelayed.guide = s.bootComplete.answerBad.guide := by simp
    rw [hboot', hguide', hboot, hguide]
    exact ⟨rfl, rfl, rfl, rfl, fun k hk hu => (congrArg Island.inReset (island_congr hpow k)).trans ((hisl k hk).1 hu),
      fun k hk hu => (island_congr hpow k).symm ▸ (hisl k hk).2 hu, ha⟩
  case refine_8 =>
    intro s p cause hs ha ht
    obtain ⟨⟨hrest, hrec, hrel⟩, hpairs⟩ := activeTrap_facts s p cause
    have htrap : s.guideTrap cause = s.activeTrap p cause := by
      unfold State.guideTrap
      rw [ha]
      exact if_neg (by simp [ht])
    generalize s.activeTrap p cause = t at *
    refine ⟨t, ?_, (congrArg Guide.active hpairs :), (congrArg Guide.standby hpairs :), (congrArg Guide.trapped hpairs :),
      (congrArg Guide.taking hpairs :), (congrArg State.engs hrest :), (congrArg State.pas hrest :), (congrArg State.tab hrest :),
      (congrArg State.jobs hrest :), hrec, (congrArg State.mem hrest :)⟩
    show (s.guideTrap cause).done = _
    rw [htrap]
    exact done_of_settled (hrel.trans hs)
  case refine_9 =>
    intro s cause ha ht hn
    obtain ⟨p, hp⟩ := Option.isSome_iff_exists.mp ha
    have htrap : s.guideTrap cause = s.assertReset 6 0xFF := by
      unfold State.guideTrap
      rw [hp]
      exact if_pos ht
    obtain ⟨hex, hunder, -⟩ := reset_partial (s := s) (cause := 6) (rail := 0xFF) (congrArg State.done htrap) hn rfl
    exact ⟨_, hex, hunder⟩
  case refine_10 =>
    intro s p t0 hs ht hidle
    obtain ⟨⟨hrest, hrec, hrel⟩, hguide⟩ := takeOver_facts ht hidle
    refine ⟨s.takeOver State.answerAll, done_of_settled (hrel.trans hs), ?_⟩
    generalize s.takeOver State.answerAll = t at *
    exact ⟨(congrArg Guide.taking hguide :), (congrArg Guide.takeover hguide :), (congrArg Guide.active hguide :), hrec,
      (congrArg State.engs hrest :), (congrArg State.pas hrest :), (congrArg State.jobs hrest :), (congrArg State.mem hrest :)⟩
  case refine_11 =>
    intro s p cause hs ha hst
    obtain ⟨⟨hrest, hrec, hrel⟩, hpairs⟩ := standbyTrap_facts cause ha hst
    refine ⟨s.standbyTrap cause, done_of_settled (hrel.trans hs), ?_⟩
    generalize s.standbyTrap cause = t at *
    exact ⟨(congrArg Guide.active hpairs :).trans ha, (congrArg Guide.standby hpairs :), (congrArg Guide.trapped hpairs :),
      (congrArg State.engs hrest :), (congrArg State.pas hrest :), (congrArg State.jobs hrest :), (congrArg State.mem hrest :)⟩
  case refine_12 =>
    intro s p t0 hs ht
    have hev : GuideEvent s (standbyBack s) := ⟨rfl, rfl, rfl⟩
    obtain ⟨hrest, -, hrel⟩ := hev.raise islCtrl .guideStandbyReady p (le 4 (satN 4 s.guide.journal))
    refine ⟨(standbyBack s).raise islCtrl .guideStandbyReady p (le 4 (satN 4 s.guide.journal)), ?_, by simp [standbyBack],
      (congrArg State.engs hrest :), (congrArg State.pas hrest :), (congrArg State.jobs hrest :)⟩
    show (s.standbyReady none).done = _
    rw [standbyReady_eq none ht]
    exact done_of_settled (hrel.trans hs)
  case refine_13 =>
    intro s p t0 st hs ht
    have hev : GuideEvent s (standbyLost s p) := ⟨rfl, rfl, rfl⟩
    obtain ⟨hrest, -, hrel⟩ := hev.raise islCtrl .guidePairFailed p (le 1 st)
    refine ⟨(standbyLost s p).raise islCtrl .guidePairFailed p (le 1 st), ?_, by simp [standbyLost],
      (congrArg State.engs hrest :), (congrArg State.pas hrest :), (congrArg State.jobs hrest :)⟩
    show (s.standbyReady (some st)).done = _
    rw [standbyReady_eq (some st) ht]
    exact done_of_settled (hrel.trans hs)
  case refine_14 =>
    intro s code hs hc
    show (s.tapUpdate code).done = _
    rw [State.tapUpdate, Nat.mod_eq_of_lt hc]
    exact done_of_settled hs

end Sys2Proof.Proofs
end

section
/-!
SUPPORT. What the rows of the Umran link leave of the state (chapter 18): timing and the log, passages, a port and its counters.
-/
namespace Sys2Proof.Proofs
open Sys2Proof Sys2Proof.Machine Sys2Proof.Laws

set_option Elab.async false

variable {s t : State}

/-! Operations on timing. -/

/-- `t` differs from `s` at most in timing, the log, the command interface and the tables, and no response is due that was not. -/
def TimingOnly (s t : State) : Prop :=
  { t with tim := s.tim, log := s.log, com := s.com, tab := s.tab } = s ∧ t.com.relayed = s.com.relayed

theorem TimingOnly.refl : TimingOnly s s := ⟨rfl, rfl⟩

theorem TimingOnly.trans {u : State} (h : TimingOnly s t) (h' : TimingOnly t u) : TimingOnly s u :=
  ⟨(congrArg (fun v : State => { v with tim := s.tim, log := s.log, com := s.com, tab := s.tab }) h'.1 :).trans h.1, h'.2.trans h.2⟩

/-- A change of those parts alone. -/
theorem TimingOnly.same {u : State} (h : TimingOnly s t) (h' : TimingOnly t u := by exact ⟨rfl, rfl⟩) : TimingOnly s u := h.trans h'

theorem TimingOnly.raise {i src : Nat} {e : Ev} {p : List Byte} (h : TimingOnly s t) : TimingOnly s (t.raise i e src p) := by
  refine h.trans ⟨?_, by simp⟩
  exact (congrArg (fun v : State => { v with tim := t.tim, tab := t.tab }) (raise_restore t i e src p) :)

theorem TimingOnly.setInt {n b : Nat} (h : TimingOnly s t) : TimingOnly s (t.setInt n b) := by
  refine h.trans ⟨?_, ?_⟩
  · unfold State.setInt
    exact of_ite (P := fun v : State => { v with tim := t.tim, log := t.log, com := t.com, tab := t.tab } = t)
      (of_ite (P := fun v : State => { v with tim := t.tim, log := t.log, com := t.com, tab := t.tab } = t) rfl rfl) rfl
  · simp

theorem TimingOnly.setLoop {st : Nat} (h : TimingOnly s t) : TimingOnly s (t.setLoop st) := by
  unfold State.setLoop
  exact of_ite (P := TimingOnly s) h h.same.setInt

theorem TimingOnly.selectedEvent {new old : Option Nat} {role : Nat} (h : TimingOnly s t) :
    TimingOnly s (t.selectedEvent new old role) := h.raise

theorem TimingOnly.modTim {f : Timing → Timing} (h : TimingOnly s t) : TimingOnly s (t.modTim f) := h.same

theorem TimingOnly.holdOver (h : TimingOnly s t) : TimingOnly s t.holdOver := by
  unfold State.holdOver
  refine of_ite (P := TimingOnly s) h ?_
  split
  · exact h.setLoop.modTim.raise
  · exact h.setLoop.modTim.raise

/-- The selected input is another one. -/
theorem TimingOnly.selectInput {new old : Option Nat} (h : TimingOnly s t) :
    TimingOnly s ((t.modTim fun x => { x with selected := new }).selectedEvent new old 1) := h.modTim.selectedEvent

theorem TimingOnly.reselect (h : TimingOnly s t) : TimingOnly s t.reselect := by
  have hsel : TimingOnly s (if t.bestInput = t.tim.selected then t else
      match t.bestInput with
      | none => ((t.modTim fun x => { x with selected := t.bestInput }).selectedEvent t.bestInput t.tim.selected 1).holdOver
      | some _ =>
        let u := (t.modTim fun x => { x with selected := t.bestInput }).selectedEvent t.bestInput t.tim.selected 1
        if u.tim.loopSt = 0 ∨ u.tim.loopSt = 4 then (u.setLoop 1).modTim fun x => { x with bwStep := 0, dwellAt := u.mono }
        else if u.tim.loopSt = 1 then u.modTim fun x => { x with bwStep := 0, dwellAt := u.mono } else u) := by
    refine of_ite (P := TimingOnly s) h ?_
    split
    · exact h.selectInput.holdOver
    · exact of_ite (P := TimingOnly s) h.selectInput.setLoop.modTim (of_ite (P := TimingOnly s) h.selectInput.modTim h.selectInput)
  unfold State.reselect
  exact of_ite (P := TimingOnly s) hsel hsel.modTim.selectedEvent

theorem TimingOnly.modInput {i : Nat} {f : TimeInput → TimeInput} (h : TimingOnly s t) : TimingOnly s (t.modInput i f) := h.same

theorem TimingOnly.leaveState {i st cause : Nat} (h : TimingOnly s t) : TimingOnly s (t.leaveState i st cause) := by
  unfold State.leaveState
  exact of_ite (P := TimingOnly s) h.modInput.raise h.modInput

theorem TimingOnly.dropInput {i : Nat} (h : TimingOnly s t) : TimingOnly s (t.dropInput i) := by
  unfold State.dropInput
  exact of_ite (P := TimingOnly s) h h.leaveState.modInput.reselect

theorem TimingOnly.inputLost {i : Nat} (h : TimingOnly s t) : TimingOnly s (t.inputLost i) := h.modTim.dropInput

theorem TimingOnly.judgeQl {i : Nat} (h : TimingOnly s t) : TimingOnly s (t.judgeQl i) := by
  unfold State.judgeQl
  exact of_ite (P := TimingOnly s) h.leaveState h

theorem TimingOnly.modPartner {i : Nat} {f : Partner → Partner} (h : TimingOnly s t) : TimingOnly s (t.modPartner i f) := h.modTim

theorem TimingOnly.inputPresent {i : Nat} (h : TimingOnly s t) : TimingOnly s (t.inputPresent i) := by
  have hpart : TimingOnly s (if twoWay i && !(t.tim.present.contains i) then t.modPartner i fun p => { p with exAt := t.mono } else t) :=
    of_ite (P := TimingOnly s) h.modPartner h
  unfold State.inputPresent
  exact of_ite (P := TimingOnly s) hpart.modTim.modInput.judgeQl hpart.modTim

theorem TimingOnly.exchanged {i : Nat} {theta delay : Int} (h : TimingOnly s t) : TimingOnly s (t.exchanged i theta delay) := by
  unfold State.exchanged
  exact of_ite (P := TimingOnly s) h.modPartner.modInput.inputPresent h.modPartner.modInput

theorem TimingOnly.syncTimeWords (h : TimingOnly s t) : TimingOnly s t.syncTimeWords := by
  unfold State.syncTimeWords
  exact of_ite (P := TimingOnly s) h h.same

theorem TimingOnly.spreadInputs (h : TimingOnly s t) : TimingOnly s t.spreadInputs := by
  unfold State.spreadInputs
  refine foldl_keeps (TimingOnly s) _ (fun u p hu => ?_) _ t h
  refine of_ite (P := TimingOnly s) hu (of_ite (P := TimingOnly s) ?_ (of_ite (P := TimingOnly s) hu.modInput hu))
  exact of_ite (P := TimingOnly s) hu hu.leaveState

/-! Passages. -/

/-- `t` differs from `s` at most in what `TimingOnly` names and in the passages. -/
def LinkQuiet (s t : State) : Prop :=
  { t with tim := s.tim, log := s.log, com := s.com, tab := s.tab, pas := s.pas } = s ∧ t.com.relayed = s.com.relayed

theorem LinkQuiet.refl : LinkQuiet s s := ⟨rfl, rfl⟩

theorem LinkQuiet.trans {u : State} (h : LinkQuiet s t) (h' : LinkQuiet t u) : LinkQuiet s u :=
  ⟨(congrArg (fun v : State => { v with tim := s.tim, log := s.log, com := s.com, tab := s.tab, pas := s.pas }) h'.1 :).trans h.1,
    h'.2.trans h.2⟩

/-- Timing is part of it. -/
theorem TimingOnly.quiet (h : TimingOnly s t) : LinkQuiet s t :=
  ⟨(congrArg (fun v : State => { v with pas := s.pas }) h.1 :), h.2⟩

/-- A change of those parts alone. -/
theorem LinkQuiet.same {u : State} (h : LinkQuiet s t) (h' : LinkQuiet t u := by exact ⟨rfl, rfl⟩) : LinkQuiet s u := h.trans h'

theorem LinkQuiet.raise {i src : Nat} {e : Ev} {p : List Byte} (h : LinkQuiet s t) : LinkQuiet s (t.raise i e src p) :=
  h.trans (TimingOnly.raise .refl).quiet

theorem LinkQuiet.modPas {id : Nat} {f : Passage → Passage} (h : LinkQuiet s t) : LinkQuiet s (t.modPas id f) := h.same

theorem LinkQuiet.alert {id : Nat} (h : LinkQuiet s t) : LinkQuiet s (t.alert id) := by
  unfold State.alert
  split
  · exact h.trans (TimingOnly.setInt .refl).quiet
  · exact h

theorem LinkQuiet.noteLegs {id : Nat} (h : LinkQuiet s t) : LinkQuiet s (t.noteLegs id) := by
  unfold State.noteLegs
  split
  · exact h
  · exact h.modPas

theorem LinkQuiet.resignal1 {id : Nat} (h : LinkQuiet s t) : LinkQuiet s (t.resignal1 id) := by
  unfold State.resignal1
  split
  · exact h
  · refine of_ite (P := LinkQuiet s) h ?_
    dsimp only
    split
    · exact of_ite (P := LinkQuiet s) h.noteLegs h.noteLegs.modPas.raise.alert
    · exact of_ite (P := LinkQuiet s) h.noteLegs h.noteLegs.modPas.raise

theorem LinkQuiet.resignal (h : LinkQuiet s t) : LinkQuiet s t.resignal :=
  foldl_keeps (LinkQuiet s) _ (fun _ _ hu => hu.resignal1) _ t h

theorem LinkQuiet.trail {id : Nat} {prot : Bool} {seen : TrailSeen} (h : LinkQuiet s t) : LinkQuiet s (t.trail id prot seen) := by
  unfold State.trail
  split
  · exact h
  · dsimp only
    split
    · exact h
    · exact h.modPas
    · exact of_ite (P := LinkQuiet s) h.modPas h.modPas.raise

theorem LinkQuiet.ulLegSeen {id : Nat} {y : Passage} {got : List (Option Nat)} {arrival : Nat} (h : LinkQuiet s t) :
    LinkQuiet s (t.ulLegSeen id y got arrival) := by
  unfold State.ulLegSeen
  split
  · exact h.trail
  · exact of_ite (P := LinkQuiet s) h.modPas.trail h.modPas

theorem LinkQuiet.ulNoMap {p : Nat} (h : LinkQuiet s t) : LinkQuiet s (t.ulNoMap p) := by
  unfold State.ulNoMap
  refine foldl_keeps (LinkQuiet s) _ (fun u id hu => ?_) _ t h
  dsimp only
  split
  · exact hu
  · exact of_ite (P := LinkQuiet s) hu.modPas hu

/-! A port and its counters. -/

/-- The counters of a port that the rows speak of: slot blocks received, frames with a bad checksum, lane losses. -/
def PortCount (k : Nat) : Prop := k = 0 ∨ k = 4 ∨ k = 6

/-- `t` differs from `s` at most in what `LinkQuiet` names, in port `p` and in the counters. -/
def LinkOnly (p : Nat) (s t : State) : Prop :=
  LinkQuiet { s with ul := t.ul, cnt := t.cnt } t ∧ (∀ k, k ≠ p → tget t.ul.ports k = tget s.ul.ports k) ∧
    t.ulConfigured p = s.ulConfigured p

theorem LinkOnly.refl {p : Nat} : LinkOnly p s s := ⟨⟨rfl, rfl⟩, fun _ _ => rfl, rfl⟩

theorem LinkOnly.trans {p : Nat} {u : State} (h : LinkOnly p s t) (h' : LinkOnly p t u) : LinkOnly p s u := by
  obtain ⟨⟨hrest, hrel⟩, hports, hconf⟩ := h
  obtain ⟨⟨hrest', hrel'⟩, hports', hconf'⟩ := h'
  refine ⟨⟨?_, hrel'.trans hrel⟩, fun k hk => (hports' k hk).trans (hports k hk), hconf'.trans hconf⟩
  refine (congrArg (fun v : State => { v with tim := s.tim, log := s.log, com := s.com, tab := s.tab, pas := s.pas }) hrest' :).trans ?_
  exact (congrArg (fun v : State => { v with ul := u.ul, cnt := u.cnt }) hrest :)

/-- The Umran part follows from what is quiet. -/
theorem LinkQuiet.ul (h : LinkQuiet s t) : t.ul = s.ul := (congrArg State.ul h.1 :)

/-- So do the counters. -/
theorem LinkQuiet.cnt (h : LinkQuiet s t) : t.cnt = s.cnt := (congrArg State.cnt h.1 :)

/-- A part that is quiet changes no port. -/
theorem LinkQuiet.linkOnly {p : Nat} (h : LinkQuiet s t) : LinkOnly p s t := by
  refine ⟨?_, fun k _ => by rw [h.ul], by rw [State.ulConfigured, State.ulConfigured, h.ul]⟩
  rw [h.ul, h.cnt]
  exact h

/-- The port's state is `x`, and `LinkOnly`, with none of the port's counters that the rows speak of. -/
def LinkTo (p : Nat) (s t : State) (x : UlPort) : Prop :=
  LinkOnly p s t ∧ (∀ k, PortCount k → t.ctr (0x0E00 + p) 0 k = s.ctr (0x0E00 + p) 0 k) ∧ t.ulPort p = x

theorem LinkTo.refl {p : Nat} : LinkTo p s s (s.ulPort p) := ⟨.refl, fun _ _ => rfl, rfl⟩

theorem LinkTo.trans {p : Nat} {u : State} {x y : UlPort} (h : LinkTo p s t x) (h' : LinkTo p t u y) : LinkTo p s u y :=
  ⟨h.1.trans h'.1, fun k hk => (h'.2.1 k hk).trans (h.2.1 k hk), h'.2.2⟩

/-- What is quiet leaves the port. -/
theorem LinkTo.quiet {p : Nat} {u : State} {x : UlPort} (h : LinkTo p s t x) (h' : LinkQuiet t u) : LinkTo p s u x := by
  refine h.trans ⟨h'.linkOnly, fun k _ => ctr_congr h'.cnt .., ?_⟩
  rw [State.ulPort, h'.ul]
  exact h.2.2

/-- A change of the port, which is configured. -/
theorem LinkTo.modUl {p : Nat} {x : UlPort} (h : LinkTo p s t x) (hc : t.ulConfigured p = true) (f : UlPort → UlPort) :
    LinkTo p s (t.modUl p f) (f x) := by
  obtain ⟨y, hy⟩ := Option.isSome_iff_exists.mp hc
  have hput : tget (t.modUl p f).ul.ports p = some (f y) := by
    show tget (tmod t.ul.ports p f) p = _
    rw [tget_tmod_self, hy]
    rfl
  refine h.trans ⟨⟨⟨rfl, rfl⟩, fun k hk => tget_tmod_ne _ _ hk, ?_⟩, fun _ _ => rfl, ?_⟩
  · rw [State.ulConfigured, thas, hput, hc]
    rfl
  · rw [State.ulPort, tgetD, hput, ← h.2.2, State.ulPort, tgetD, hy]
    rfl

/-- Another counter of the port. -/
theorem LinkTo.bump {p : Nat} {x : UlPort} (h : LinkTo p s t x) {k : Nat} (n : Nat) (hk : ¬ PortCount k) :
    LinkTo p s (t.bump (0x0E00 + p) 0 k n) x := by
  refine h.trans ⟨⟨⟨rfl, rfl⟩, fun _ _ => rfl, rfl⟩, fun j hj => ctr_bump_ne _ _ _ _ ?_, h.2.2⟩
  rintro rfl
  exact hk hj

/-- The port stays configured. -/
theorem LinkTo.configured {p : Nat} {x : UlPort} (h : LinkTo p s t x) (hc : s.ulConfigured p = true) : t.ulConfigured p = true :=
  h.1.2.2.trans hc

/-- Any counter of the port. -/
theorem linkOnly_bump (s : State) (p k n : Nat) : LinkOnly p s (s.bump (0x0E00 + p) 0 k n) := ⟨⟨rfl, rfl⟩, fun _ _ => rfl, rfl⟩

/-! A port goes up and down. -/

/-- A port that is down since `m`. -/
def portDown (x : UlPort) (m : Nat) : UlPort :=
  if x.up then { x with up := false, ref := m, timedOut := false, good := 0, mgmtBuf := [], seen := [], exchanged := false, farEpoch := none }
  else x

theorem portDown_up (x : UlPort) (m : Nat) : (portDown x m).up = false := by
  unfold portDown
  split
  case isTrue => rfl
  case isFalse h => simpa using h

theorem portDown_lanes (x : UlPort) (m : Nat) : (portDown x m).lanes = x.lanes := by
  unfold portDown
  split <;> rfl

/-- A port that is not up does not go down. -/
theorem ulDown_of_down {p : Nat} (h : (s.ulPort p).up = false) (cause : Nat) : s.ulDown p cause = s := by
  unfold State.ulDown
  exact if_pos (by simp [h])

/-- A port goes down. -/
theorem LinkTo.ulDown {p : Nat} {x : UlPort} (h : LinkTo p s t x) (hc : t.ulConfigured p = true) (cause : Nat) :
    LinkTo p s (t.ulDown p cause) (portDown x t.mono) := by
  by_cases hup : x.up = true
  · have hdown : LinkTo p s (t.modUl p fun x => { x with
        up := false, ref := t.mono, timedOut := false, good := 0, mgmtBuf := [], seen := [], exchanged := false, farEpoch := none })
        (portDown x t.mono) := by
      rw [portDown, if_pos hup]
      exact h.modUl hc _
    have hrest : ∀ u : State, LinkTo p s u (portDown x t.mono) → LinkTo p s
        (((((u.bump (0x0E00 + p) 0 7 1).raise islUlink .ulinkPortDown p (le 1 cause)).inputLost (24 + p)).syncTimeWords).resignal)
          (portDown x t.mono) :=
      fun u hu => (hu.bump 1 (by simp [PortCount])).quiet ((TimingOnly.refl.raise.inputLost.syncTimeWords).quiet.resignal)
    unfold State.ulDown
    show LinkTo p s (if !(t.ulPort p).up then t else _) _
    rw [if_neg (by simp [h.2.2, hup])]
    refine hrest _ ?_
    exact of_ite (P := fun u => LinkTo p s u (portDown x t.mono)) hdown (hdown.bump 1 (by simp [PortCount]))
  · have hdown : x.up = false := by simpa using hup
    rw [ulDown_of_down (by rw [h.2.2, hdown]), portDown, if_neg hup]
    exact h

/-- A port tries to go up. -/
theorem LinkTo.ulTryUp {p : Nat} {x : UlPort} (h : LinkTo p s t x) (hc : t.ulConfigured p = true) :
    ∃ y : UlPort, LinkTo p s (t.ulTryUp p) y ∧ y.lanes = x.lanes := by
  have hup := h.modUl hc fun x => { x with up := true, wasUp := true, timedOut := false, bad := 0 }
  unfold State.ulTryUp
  refine of_ite (P := fun u : State => ∃ y : UlPort, LinkTo p s u y ∧ y.lanes = x.lanes) ⟨x, h, rfl⟩ ⟨_, hup.quiet ?_, rfl⟩
  refine .resignal (TimingOnly.quiet (.syncTimeWords ?_))
  exact of_ite (P := TimingOnly _) TimingOnly.refl.raise.spreadInputs TimingOnly.refl.raise.inputPresent

/-- A port that is up does not go up. -/
theorem ulTryUp_of_up {p : Nat} (h : (s.ulPort p).up = true) : s.ulTryUp p = s := by
  unfold State.ulTryUp
  exact if_pos (by simp [h])

/-- A lane that loses lock, before its port goes down. -/
def laneLost (s : State) (p i : Nat) : State :=
  ((s.modUl p fun x => { x with lanes := x.lanes.set i {}, good := 0 }).bump (0x0E00 + p) 0 6 1).raise islUlink .ulinkLaneLost p
    (le 1 (4 * p + i))

/-- The port of a lane that lost lock. -/
theorem laneLost_facts {p : Nat} (hc : s.ulConfigured p = true) (i : Nat) :
    LinkOnly p s (laneLost s p i) ∧ (laneLost s p i).ctr (0x0E00 + p) 0 6 = s.ctr (0x0E00 + p) 0 6 + 1 ∧
      (laneLost s p i).ulPort p = { s.ulPort p with lanes := (s.ulPort p).lanes.set i {}, good := 0 } := by
  have hmod := (LinkTo.refl (s := s) (p := p)).modUl hc fun x => { x with lanes := x.lanes.set i {}, good := 0 }
  have hraise : LinkQuiet _ (laneLost s p i) := TimingOnly.refl.raise.quiet
  refine ⟨(hmod.1.trans (linkOnly_bump _ p 6 1)).trans hraise.linkOnly, ?_, ?_⟩
  · rw [ctr_congr hraise.cnt, ctr_bump_self]
    rfl
  · rw [State.ulPort, hraise.ul]
    exact hmod.2.2

/-- A lane that loses lock. -/
theorem ulLaneLost_facts {p : Nat} (hc : s.ulConfigured p = true) (i : Nat) :
    LinkOnly p s (s.ulLaneLost p i) ∧ (s.ulLaneLost p i).ctr (0x0E00 + p) 0 6 = s.ctr (0x0E00 + p) 0 6 + 1 ∧
      ∃ m, (s.ulLaneLost p i).ulPort p = portDown { s.ulPort p with lanes := (s.ulPort p).lanes.set i {}, good := 0 } m := by
  obtain ⟨honly, hctr, hport⟩ := laneLost_facts hc i
  obtain ⟨honly', hctr', hport'⟩ := LinkTo.refl.ulDown (honly.2.2.trans hc) 1
  exact ⟨honly.trans honly', (hctr' 6 (.inr (.inr rfl))).trans hctr, _, hport'.trans (by rw [hport])⟩

/-- The event of a lane that lost lock. -/
theorem laneLost_log (s : State) (p i : Nat) : (laneLost s p i).log = (s.raise islUlink .ulinkLaneLost p (le 1 (4 * p + i))).log := by
  rw [laneLost, State.raise, State.raise, State.raiseAt, State.raiseAt, recordAt_log, recordAt_log]
  rfl

/-! Frames (R628 to R639). -/

/-- A locked lane of a frame is taken in: its invalid blocks are counted, its comma names it, its descrambler runs on. -/
def laneTaken (p : Nat) (lanes : List (List Block)) (s : State) (i : Nat) : State :=
  let x := s.ulPort p
  let l := (x.lanes[i]?).getD {}
  let bs := invertLane x.rxInvert i ((lanes[i]?).getD [])
  let bad := invalidAt bs
  let scr := (descrambleLane ((x.rxScr[i]?).getD 0) bs).2
  (s.bump (0x0E00 + p) 0 3 bad.length).modUl p fun x => { x with
    rxScr := x.rxScr.set i scr, lanes := x.lanes.set i { l with id := (laneIdOf bs).getD l.id % 4, late := bad } }

/-- Does a lane of a frame lose lock? -/
def laneLoses (p : Nat) (lanes : List (List Block)) (s : State) (i : Nat) : Bool :=
  let x := s.ulPort p
  eightIn64 (((x.lanes[i]?).getD {}).late ++ (invalidAt (invertLane x.rxInvert i ((lanes[i]?).getD []))).map fun k => k + 1024)

/-- A lane of a frame. -/
def laneStep (p : Nat) (lanes : List (List Block)) (s : State) (i : Nat) : State :=
  if !(((s.ulPort p).lanes[i]?).getD {}).locked then s
  else if laneLoses p lanes s i then (laneTaken p lanes s i).ulLaneLost p i
  else laneTaken p lanes s i

/-- The lanes of a frame one by one. -/
theorem ulLanes_eq (s : State) (p : Nat) (lanes : List (List Block)) : s.ulLanes p lanes = (List.range 4).foldl (laneStep p lanes) s := rfl

/-- A lane of the port hunts. -/
def Hunts (x : UlPort) : Prop := ∃ l ∈ x.lanes, l.locked = false

/-- A port with a lane that hunts has a fault. -/
theorem laneFault_of_hunts {x : UlPort} (h : Hunts x) : x.laneFault ≠ none := by
  obtain ⟨l, hl, hlock⟩ := h
  unfold UlPort.laneFault
  rw [if_pos (List.any_eq_true.mpr ⟨l, hl, by simp [hlock]⟩)]
  exact Option.some_ne_none 1

/-- A locked lane that stays locked leaves the lanes that hunt. -/
theorem Hunts.set {x y : UlPort} {i : Nat} {l : UlLane} (h : Hunts x) (hi : ((x.lanes[i]?).getD {}).locked = true)
    (hy : y.lanes = x.lanes.set i l) : Hunts y := by
  obtain ⟨k, hk, hlock⟩ := h
  obtain ⟨j, hj⟩ := List.mem_iff_getElem?.mp hk
  have hne : i ≠ j := by
    rintro rfl
    rw [hj] at hi
    exact absurd (hi.symm.trans hlock) (by decide)
  refine ⟨k, List.mem_iff_getElem?.mpr ⟨j, ?_⟩, hlock⟩
  rw [hy, List.getElem?_set_ne hne, hj]

/-- A lane that loses lock hunts. -/
theorem hunts_of_set {x y : UlPort} {i : Nat} (hi : i < x.lanes.length) (hy : y.lanes = x.lanes.set i {}) : Hunts y :=
  ⟨{}, by rw [hy]; exact List.mem_set hi _, rfl⟩

/-- A lane that is taken in changes the lanes and their descramblers. -/
theorem laneTaken_linkTo {p : Nat} (hc : s.ulConfigured p = true) (lanes : List (List Block)) (i : Nat) :
    ∃ l r, LinkTo p s (laneTaken p lanes s i) { s.ulPort p with lanes := (s.ulPort p).lanes.set i l, rxScr := r } ∧ l.locked =
      (((s.ulPort p).lanes[i]?).getD {}).locked :=
  ⟨_, _, (LinkTo.refl.bump _ (by simp [PortCount])).modUl hc _, rfl⟩

/-- A port with a lane that hunts, and configured. -/
def HuntsAt (p : Nat) (s : State) : Prop := Hunts (s.ulPort p) ∧ s.ulConfigured p = true

/-- A lane that loses lock leaves its port hunting. -/
theorem ulLaneLost_hunts {p i : Nat} (hc : s.ulConfigured p = true) (hi : i < (s.ulPort p).lanes.length) : HuntsAt p (s.ulLaneLost p i) := by
  obtain ⟨honly, -, m, hport⟩ := ulLaneLost_facts hc i
  refine ⟨hunts_of_set hi ?_, honly.2.2.trans hc⟩
  rw [hport, portDown_lanes]

/-- A locked lane is one of the port's. -/
theorem lane_lt {x : UlPort} {i : Nat} (h : ((x.lanes[i]?).getD {}).locked = true) : i < x.lanes.length := by
  by_contra hn
  rw [List.getElem?_eq_none (by omega)] at h
  exact absurd h (by decide)

/-- A lane of a frame leaves its port hunting, or changes the lanes and their descramblers. -/
theorem laneStep_cases {p : Nat} (hc : s.ulConfigured p = true) (lanes : List (List Block)) (i : Nat) :
    HuntsAt p (laneStep p lanes s i) ∨
      ∃ l r, LinkTo p s (laneStep p lanes s i) { s.ulPort p with lanes := l, rxScr := r } ∧ (Hunts (s.ulPort p) → HuntsAt p (laneStep p lanes s i)) := by
  unfold laneStep
  by_cases hlock : (((s.ulPort p).lanes[i]?).getD {}).locked = true
  · rw [if_neg (by simp [hlock])]
    obtain ⟨l, r, hto, hl⟩ := laneTaken_linkTo hc lanes i
    by_cases hlose : laneLoses p lanes s i = true
    · rw [if_pos hlose]
      refine .inl (ulLaneLost_hunts (hto.configured hc) ?_)
      rw [hto.2.2, List.length_set]
      exact lane_lt hlock
    · rw [if_neg hlose]
      refine .inr ⟨_, r, hto, fun h => ⟨?_, hto.configured hc⟩⟩
      rw [hto.2.2]
      exact h.set hlock rfl
  · rw [if_pos (by simpa using hlock)]
    exact .inr ⟨_, _, .refl, fun h => ⟨h, hc⟩⟩

/-- The lanes of a frame, where no lane of the port has a fault then. -/
theorem ulLanes_linkTo {p : Nat} (hc : s.ulConfigured p = true) (lanes : List (List Block))
    (hn : ((s.ulLanes p lanes).ulPort p).laneFault = none) :
    ∃ l r, LinkTo p s (s.ulLanes p lanes) { s.ulPort p with lanes := l, rxScr := r } := by
  have hcases : HuntsAt p (s.ulLanes p lanes) ∨ ∃ l r, LinkTo p s (s.ulLanes p lanes) { s.ulPort p with lanes := l, rxScr := r } := by
    rw [ulLanes_eq]
    refine foldl_keeps (fun t => HuntsAt p t ∨ ∃ l r, LinkTo p s t { s.ulPort p with lanes := l, rxScr := r }) _ (fun t i ht => ?_) _ s
      (.inr ⟨_, _, .refl⟩)
    rcases ht with ⟨hhunt, hconf⟩ | ⟨l, r, hto⟩
    · rcases laneStep_cases hconf lanes i with h | ⟨-, -, -, h⟩
      · exact .inl h
      · exact .inl (h hhunt)
    · rcases laneStep_cases (hto.configured hc) lanes i with h | ⟨l', r', hto', -⟩
      · exact .inl h
      · rw [hto.2.2] at hto'
        exact .inr ⟨l', r', hto.trans hto'⟩
  rcases hcases with ⟨h, -⟩ | h
  · exact absurd hn (laneFault_of_hunts h)
  · exact h

end Sys2Proof.Proofs
end

section
/-!
SUPPORT. What a frame of the Umran link leaves of its port (R628 to R639), and the blocks that it brings to the passage switch.
-/
namespace Sys2Proof.Proofs
open Sys2Proof Sys2Proof.Machine Sys2Proof.Laws

set_option Elab.async false

variable {s t : State} {p : Nat} {x : UlPort}

/-! The blocks of a port at the passage switch (R27, R52, R71). -/

theorem LinkQuiet.insertIdle {id : Nat} {a : SlotAt} {tag at_ : Nat} (ha : a.kind = 4) (h : LinkQuiet s t) :
    LinkQuiet s (t.insertIdle id a tag at_) := by
  unfold State.insertIdle
  rw [if_pos ha]
  exact h.modPas

/-- A block of a port meets the passage of its slot. -/
theorem LinkQuiet.takeBlock {id : Nat} {prot down : Bool} {a : SlotAt} {b : Block} {tag at_ : Nat} (ha : a.kind = 4) (h : LinkQuiet s t) :
    LinkQuiet s (t.takeBlock id prot a down b tag at_) := by
  unfold State.takeBlock
  split
  · exact h
  · refine of_ite (P := LinkQuiet s) h (of_ite (P := LinkQuiet s) (of_ite (P := LinkQuiet s) h.modPas h) ?_)
    refine of_ite (P := LinkQuiet s) h (of_ite (P := LinkQuiet s) (of_ite (P := LinkQuiet s) h h.modPas.raise)
      (of_ite (P := LinkQuiet s) h.modPas ?_))
    dsimp only
    rw [if_pos ha]
    exact of_ite (P := LinkQuiet s) (h.modPas.insertIdle ha) h.modPas

theorem LinkQuiet.rawTake {a : SlotAt} {b : Block} {tag at_ : Nat} (h : LinkQuiet s t) : LinkQuiet s (t.rawTake a b tag at_) := by
  unfold State.rawTake
  refine foldl_keeps (LinkQuiet s) _ (fun u w hu => ?_) _ t h
  unfold State.rawAdmit
  exact of_ite (P := LinkQuiet s) hu hu.same

/-- A block of a port reaches the switch at once. -/
theorem ingress_link {a : SlotAt} (ha : a.kind = 4) (b : Block) (bad : Bool) (tag at_ : Nat) :
    s.ingress a b bad tag at_ = s.enter a false (if bad then Block.error else b) tag at_ := by
  simp [State.ingress, State.ingressDown, State.portBlock, State.portOfSlot, State.zrOf, ha]

/-- A block of a port arrives. -/
theorem LinkTo.ingress {a : SlotAt} (ha : a.kind = 4) (hi : a.index = p) (h : LinkTo p s t x) (b : Block) (bad : Bool) (tag at_ : Nat) :
    LinkTo p s (t.ingress a b bad tag at_) x := by
  rw [ingress_link ha]
  unfold State.enter
  have hhost : ¬ (decide (a.kind ≤ 2) = true) := by simp [ha]
  split
  · split
    · exact h.quiet (LinkQuiet.refl.takeBlock ha)
    · rw [if_neg hhost]
      exact h.quiet LinkQuiet.refl.rawTake
  · dsimp only
    rw [if_neg hhost]
    split
    · exact h.quiet LinkQuiet.refl.modPas
    · unfold State.unassigned
      rw [if_neg (show ¬ a.kind = 3 by omega), if_pos ha, hi]
      exact of_ite (P := fun u => LinkTo p s u x) h (h.bump 1 (by simp [PortCount]))

/-- The blocks of a frame go to their slots. -/
def deliverOne (p arrival : Nat) (s : State) (b : Nat × Block) : State :=
  let slot := (s.ulPort p).rxSlot
  let s := s.modUl p fun y => { y with rxSlot := (slot + 1) % 80 }
  s.ingress { kind := 4, index := p, slot := slot } b.2 false s.chamber (arrival + b.1 * 264 / 425)

/-- The delivery counts the blocks first. -/
theorem ulDeliver_eq (s : State) (p : Nat) (blocks : List (Nat × Block)) (arrival : Nat) :
    s.ulDeliver p blocks arrival = blocks.foldl (deliverOne p arrival) (s.bump (0x0E00 + p) 0 0 blocks.length) := rfl

/-- One block moves the slot count on. -/
theorem LinkTo.deliverOne (h : LinkTo p s t x) (hc : t.ulConfigured p = true) (arrival : Nat) (b : Nat × Block) :
    LinkTo p s (deliverOne p arrival t b) { x with rxSlot := (x.rxSlot + 1) % 80 } := by
  have hmod := (h.modUl hc fun y => { y with rxSlot := ((t.ulPort p).rxSlot + 1) % 80 }).ingress
    (a := { kind := 4, index := p, slot := (t.ulPort p).rxSlot }) rfl rfl b.2 false
    (t.modUl p fun y => { y with rxSlot := ((t.ulPort p).rxSlot + 1) % 80 }).chamber (arrival + b.1 * 264 / 425)
  rw [h.2.2] at hmod
  unfold Proofs.deliverOne
  rw [h.2.2]
  exact hmod

/-- The blocks of a frame move the slot count on by as many, modulo 80. -/
theorem LinkTo.deliver (hc : s.ulConfigured p = true) (arrival : Nat) :
    ∀ (blocks : List (Nat × Block)) (t : State) (x : UlPort), LinkTo p s t x →
      ∃ r, LinkTo p s (blocks.foldl (Proofs.deliverOne p arrival) t) { x with rxSlot := r } ∧
        (x.rxSlot < 80 → r = (x.rxSlot + blocks.length) % 80)
  | [], _, x, h => ⟨x.rxSlot, h, fun hx => (Nat.mod_eq_of_lt hx).symm⟩
  | b :: blocks, t, x, h => by
    obtain ⟨r, hto, hr⟩ := LinkTo.deliver hc arrival blocks _ _ (h.deliverOne (h.configured hc) arrival b)
    refine ⟨r, hto, fun _ => (hr (Nat.mod_lt _ (by decide))).trans ?_⟩
    show ((x.rxSlot + 1) % 80 + blocks.length) % 80 = (x.rxSlot + (blocks.length + 1)) % 80
    omega

/-! The parts of a good frame. -/

/-- A change of a port leaves it configured. -/
theorem configured_modUl (s : State) (p : Nat) (f : UlPort → UlPort) : (s.modUl p f).ulConfigured p = s.ulConfigured p := by
  rw [State.ulConfigured, modUl_ul, thas, tget_tmod_self, Option.isSome_map]
  rfl

/-- The header names the far end. -/
theorem LinkTo.ulHeader (h : LinkTo p s t x) (hc : t.ulConfigured p = true) (ws : List Nat) :
    ∃ wrong, LinkTo p s (t.ulHeader p ws) { x with
      farNode := hbits ws 0 48 16, farEpoch := some (hbits ws 0 0 48), rdi := hbits ws 1 61 1 == 1, farPort := hbits ws 1 59 2
      mismatch := wrong } := by
  refine ⟨(t.ulPort p).check && hbits ws 0 48 16 != (t.ulPort p).expect, ?_⟩
  have hmod := h.modUl hc fun x => { x with
      farNode := hbits ws 0 48 16, farEpoch := some (hbits ws 0 0 48), rdi := hbits ws 1 61 1 == 1, farPort := hbits ws 1 59 2
      mismatch := (t.ulPort p).check && hbits ws 0 48 16 != (t.ulPort p).expect }
  have hraise : ∀ (c : Bool) (u : State) (y : UlPort) (e : Ev) (l : List Byte), LinkTo p s u y →
      LinkTo p s (if c then u.raise islUlink e p l else u) y := fun c u y e l hu =>
    of_ite (P := fun v => LinkTo p s v y) (hu.quiet LinkQuiet.refl.raise) hu
  unfold State.ulHeader
  exact hraise _ _ _ _ _ (hraise _ _ _ _ _ hmod)

/-- The map is compared with the passages. -/
theorem LinkTo.ulMap (h : LinkTo p s t x) (hc : t.ulConfigured p = true) (ws : List Nat) (arrival : Nat) :
    ∃ seen, LinkTo p s (t.ulMap p ws arrival) { x with seen := seen } := by
  refine ⟨(List.range 40).foldl (fun t j => tput t ((if hbits ws 1 62 1 = 1 then 40 else 0) + j) (hbits ws (4 + j / 4) (48 - 16 * (j % 4)) 16))
    x.seen, ?_⟩
  unfold State.ulMap
  refine foldl_keeps (fun u : State => LinkTo p s u _) _ (fun u id hu => ?_) _ _ (h.modUl hc _)
  split
  · exact hu
  · exact of_ite (P := fun u : State => LinkTo p s u _) hu (hu.quiet LinkQuiet.refl.ulLegSeen)

/-- The time words of a frame, with what they leave of its port. -/
theorem LinkTo.ulTime (h : LinkTo p s t x) (hc : t.ulConfigured p = true) (ws : List Nat) (arrival : Nat) :
    ∃ marks theta done, LinkTo p s (t.ulTime p ws arrival) { x with farMarks := marks, theta := theta, exchanged := done } := by
  have hmod := h.modUl hc fun x => { x with farMarks := ((hbits ws 1 0 48, arrival) :: x.farMarks).take 2 }
  unfold State.ulTime
  refine of_ite (P := fun u : State => ∃ marks theta done, LinkTo p s u { x with farMarks := marks, theta := theta, exchanged := done })
    ⟨_, _, _, h⟩ ?_
  dsimp only
  split
  · exact ⟨_, _, _, hmod⟩
  · refine of_ite (P := fun u : State => ∃ marks theta done, LinkTo p s u { x with farMarks := marks, theta := theta, exchanged := done })
      ⟨_, _, _, hmod⟩ ?_
    exact ⟨_, _, _, (hmod.modUl ((configured_modUl ..).trans hc) _).quiet (TimingOnly.refl.modTim.exchanged).quiet⟩

/-- The slot count follows the frame's. -/
theorem LinkTo.ulSlots (h : LinkTo p s t x) (hc : t.ulConfigured p = true) (ws : List Nat) :
    LinkTo p s (t.ulSlots p ws) { x with rxSlot := hbits ws 1 52 7 % 80 } := by
  have hcount : LinkTo p s (if (t.ulPort p).rxSlot = hbits ws 1 52 7 then t else t.bump (0x0E00 + p) 0 5 1) x :=
    of_ite (P := fun u : State => LinkTo p s u x) h (h.bump 1 (by simp [PortCount]))
  have hconf : (if (t.ulPort p).rxSlot = hbits ws 1 52 7 then t else t.bump (0x0E00 + p) 0 5 1).ulConfigured p = true :=
    of_ite (P := fun u : State => u.ulConfigured p = true) hc hc
  exact hcount.modUl hconf fun x => { x with rxSlot := hbits ws 1 52 7 % 80 }

/-- The management bytes of a frame. -/
theorem LinkTo.ulMgmt (h : LinkTo p s t x) (hc : t.ulConfigured p = true) (bytes : List (Option Byte)) :
    ∃ buf, LinkTo p s (t.ulMgmt p bytes) { x with mgmtBuf := buf } := by
  refine ⟨(hunt (((t.ulPort p).mgmtBuf ++ bytes).length + 1) ((t.ulPort p).mgmtBuf ++ bytes)).2.2, ?_⟩
  unfold State.ulMgmt
  exact (((h.modUl hc _).bump _ (by simp [PortCount])).bump _ (by simp [PortCount])).quiet TimingOnly.refl.modTim.quiet

/-! A whole frame. -/

/-- The fields of a port that a good frame decides. -/
def linkCore (x : UlPort) : Nat × Nat × Bool × Nat × Option Nat × Bool := (x.good, x.bad, x.up, x.farNode, x.farEpoch, x.rdi)

/-- The parts of a good frame of a port that is up, before its blocks are delivered. -/
theorem goodFrame_linkTo (h : LinkTo p s t x) (hc : s.ulConfigured p = true) (ws : List Nat) (bytes : List (Option Byte)) (arrival : Nat) :
    ∃ y : UlPort, LinkTo p s ((((((t.ulHeader p ws).ulMap p ws arrival).ulTime p ws arrival).ulSlots p ws).ulMgmt p bytes).resignal) y ∧
      linkCore y = (x.good, x.bad, x.up, hbits ws 0 48 16, some (hbits ws 0 0 48), hbits ws 1 61 1 == 1) ∧
      y.rxSlot = hbits ws 1 52 7 % 80 := by
  obtain ⟨wrong, hhead⟩ := h.ulHeader (h.configured hc) ws
  obtain ⟨seen, hmap⟩ := hhead.ulMap (hhead.configured hc) ws arrival
  obtain ⟨marks, theta, done, htime⟩ := hmap.ulTime (hmap.configured hc) ws arrival
  have hslots := htime.ulSlots (htime.configured hc) ws
  obtain ⟨buf, hmgmt⟩ := hslots.ulMgmt (hslots.configured hc) bytes
  exact ⟨_, hmgmt.quiet LinkQuiet.refl.resignal, rfl, rfl⟩

/-- A frame whose checksum fails is counted. -/
def badCounted (s : State) (p : Nat) : State :=
  ((((s.modUl p fun x => { x with good := 0, bad := (s.ulPort p).bad + 1, seen := [] }).ulNoMap p).ulMgmt p (List.replicate 32 none)).bump
    (0x0E00 + p) 0 4 1)

/-- The second one in a row takes the port down. -/
theorem ulBadFrame_eq (s : State) (p : Nat) :
    s.ulBadFrame p = if (s.ulPort p).bad + 1 ≥ 2 then (badCounted s p).ulDown p 3 else badCounted s p := rfl

/-- A port that received such a frame. -/
def BadPort (x y : UlPort) : Prop := y.good = 0 ∧ y.bad = x.bad + 1 ∧ y.seen = [] ∧ (y.up = true ↔ x.up = true ∧ x.bad = 0)

/-- The port behind such a frame, while it stays up. -/
theorem badCounted_facts (hc : s.ulConfigured p = true) :
    LinkOnly p s (badCounted s p) ∧ (badCounted s p).ctr (0x0E00 + p) 0 4 = s.ctr (0x0E00 + p) 0 4 + 1 ∧
      (∀ k, k ≠ 4 → PortCount k → (badCounted s p).ctr (0x0E00 + p) 0 k = s.ctr (0x0E00 + p) 0 k) ∧
      ∃ buf, (badCounted s p).ulPort p = { s.ulPort p with good := 0, bad := (s.ulPort p).bad + 1, seen := [], mgmtBuf := buf } := by
  have hmod := ((LinkTo.refl (s := s) (p := p)).modUl hc fun x => { x with good := 0, bad := (s.ulPort p).bad + 1, seen := [] }).quiet
    (LinkQuiet.refl.ulNoMap (p := p))
  obtain ⟨buf, honly, hctr, hport⟩ := hmod.ulMgmt (hmod.configured hc) (List.replicate 32 none)
  refine ⟨honly.trans (linkOnly_bump ..), ?_, fun k hk hp => ?_, buf, hport⟩
  · rw [badCounted, ctr_bump_self, hctr 4 (.inr (.inl rfl))]
  · rw [badCounted, ctr_bump_ne _ _ _ _ hk, hctr k hp]

/-- A frame whose checksum fails, before its blocks are delivered. -/
theorem badFrame_facts (hc : s.ulConfigured p = true) :
    LinkOnly p s (s.ulBadFrame p) ∧ (s.ulBadFrame p).ctr (0x0E00 + p) 0 4 = s.ctr (0x0E00 + p) 0 4 + 1 ∧
      BadPort (s.ulPort p) ((s.ulBadFrame p).ulPort p) := by
  obtain ⟨honly, hctr, -, buf, hport⟩ := badCounted_facts hc
  rw [ulBadFrame_eq]
  by_cases hbad : (s.ulPort p).bad + 1 ≥ 2
  · rw [if_pos hbad]
    obtain ⟨honly', hctr', hport'⟩ := (LinkTo.refl (s := badCounted s p)).ulDown (honly.2.2.trans hc) 3
    refine ⟨honly.trans honly', (hctr' 4 (.inr (.inl rfl))).trans hctr, ?_⟩
    rw [hport', hport]
    refine ⟨?_, ?_, ?_, ?_⟩
    · unfold portDown
      split <;> rfl
    · unfold portDown
      split <;> rfl
    · unfold portDown
      split <;> rfl
    · rw [portDown_up]
      exact ⟨fun h => absurd h (by decide), fun h => absurd h.2 (by omega)⟩
  · rw [if_neg hbad]
    refine ⟨honly, hctr, ?_⟩
    rw [hport]
    exact ⟨rfl, rfl, rfl, fun h => ⟨h, by omega⟩, fun h => h.1⟩

/-- A delivery counts its blocks and moves the slot count alone. -/
theorem ulDeliver_facts (hc : s.ulConfigured p = true) (blocks : List (Nat × Block)) (arrival : Nat) :
    LinkOnly p s (s.ulDeliver p blocks arrival) ∧
      (s.ulDeliver p blocks arrival).ctr (0x0E00 + p) 0 0 = s.ctr (0x0E00 + p) 0 0 + BitVec.ofNat 64 blocks.length ∧
      (∀ k, k ≠ 0 → PortCount k → (s.ulDeliver p blocks arrival).ctr (0x0E00 + p) 0 k = s.ctr (0x0E00 + p) 0 k) ∧
      ∃ r, (s.ulDeliver p blocks arrival).ulPort p = { s.ulPort p with rxSlot := r } ∧
        ((s.ulPort p).rxSlot < 80 → r = ((s.ulPort p).rxSlot + blocks.length) % 80) := by
  rw [ulDeliver_eq]
  obtain ⟨r, ⟨honly, hctr, hport⟩, hr⟩ := LinkTo.deliver (s := s.bump (0x0E00 + p) 0 0 blocks.length) (p := p) hc arrival blocks _ _ .refl
  refine ⟨(linkOnly_bump ..).trans honly, ?_, fun k hk hp => ?_, r, hport, hr⟩
  · rw [hctr 0 (.inl rfl), ctr_bump_by]
  · rw [hctr k hp, ctr_bump_ne _ _ _ _ hk]

/-- The frame's overhead words. -/
def frameWords (frame : List (Nat × Block)) : List Nat := ((frame.drop 4).take 14).map fun x => blockWord x.2

/-- A good frame of a port that is up. -/
theorem frameReceive_good {f : UlFrame} {frame : List (Nat × Block)} (hc : s.ulConfigured p = true) (hf : frame = (s.ulPort p).portFrame f.lanes)
    (hn : ((s.ulLanes p f.lanes).ulPort p).laneFault = none) (hcrc : ocrc (frameWords frame) = hbits (frameWords frame) 3 0 16)
    (hup : (s.ulPort p).up = true) :
    s.ulFrameReceive p f =
      ((((((((s.ulLanes p f.lanes).modUl p fun x => { x with good := x.good + 1, bad := 0 }).ulHeader p (frameWords frame)).ulMap p
        (frameWords frame) f.arrival).ulTime p (frameWords frame) f.arrival).ulSlots p (frameWords frame)).ulMgmt p
        ((((frame.drop 18).take 4).flatMap fun x => be 8 (blockWord x.2)).map some)).resignal).ulDeliver p (slotBlocksOf frame) f.arrival := by
  obtain ⟨l, r, hto⟩ := ulLanes_linkTo hc f.lanes hn
  have hmod := hto.modUl (hto.configured hc) fun x => { x with good := x.good + 1, bad := 0 }
  have hup' : (((s.ulLanes p f.lanes).modUl p fun x => { x with good := x.good + 1, bad := 0 }).ulPort p).up = true := by
    rw [hmod.2.2]
    exact hup
  unfold State.ulFrameReceive
  have hnot : ¬ (!(s.ulConfigured p)) = true := by simp [hc]
  refine Eq.trans (if_neg hnot) ?_
  dsimp only
  rw [hn, ← hf]
  refine (if_neg (not_not.mpr hcrc)).trans ?_
  rw [ulTryUp_of_up hup']
  exact if_neg (by simp [hup'])

/-- A frame whose checksum fails. -/
theorem frameReceive_bad {f : UlFrame} {frame : List (Nat × Block)} (hc : s.ulConfigured p = true) (hf : frame = (s.ulPort p).portFrame f.lanes)
    (hn : ((s.ulLanes p f.lanes).ulPort p).laneFault = none) (hcrc : ocrc (frameWords frame) ≠ hbits (frameWords frame) 3 0 16) :
    s.ulFrameReceive p f = ((s.ulLanes p f.lanes).ulBadFrame p).ulDeliver p (slotBlocksOf frame) f.arrival := by
  unfold State.ulFrameReceive
  have hnot : ¬ (!(s.ulConfigured p)) = true := by simp [hc]
  refine Eq.trans (if_neg hnot) ?_
  dsimp only
  rw [hn, ← hf]
  exact if_pos hcrc

end Sys2Proof.Proofs
end

section
/-!
PROOFS. ULINK_CONFIG, ULINK_STATUS and the rows of the Umran link (chapter 18).
-/
namespace Sys2Proof.Proofs
open Sys2Proof Sys2Proof.Machine Sys2Proof.Laws

set_option Elab.async false

variable {s : State} {q : Request} {p : Nat}

/-! ULINK_CONFIG (R643). -/

/-- The port that ULINK_CONFIG ACTION 1 configures. -/
def newPort (s : State) (q : Request) : UlPort :=
  { txInvert := q.u 2 1, rxInvert := q.u 3 1, check := bitAt (q.u 5 1) 0, expect := q.u 6 2, ref := s.mono }

/-- The port is configured. -/
def portPut (s : State) (n : Nat) (x : UlPort) : State := { s with ul := { s.ul with ports := tput s.ul.ports n x } }

/-- Its lanes start from the board table. -/
def lanesStarted (s : State) (n : Nat) : State := (List.range 4).foldl (fun (s : State) k => s.laneStart (128 + 4 * n + k) 2) s

/-- `t` differs from `s` at most in the runs of the host lanes. -/
def LaneRunsOnly (s t : State) : Prop := { t with host := { t.host with lanes := s.host.lanes } } = s

/-- Lanes that start change the host lanes alone. -/
theorem laneRunsOnly_lanesStarted (s : State) (n : Nat) : LaneRunsOnly s (lanesStarted s n) := by
  unfold lanesStarted
  refine foldl_keeps (LaneRunsOnly s) _ ?_ _ s rfl
  exact fun _ _ h => h

/-- A lane without an entry in the table is reported. -/
def tableChecked (s : State) (n : Nat) : State :=
  if s.defaultMask (128 + 4 * n) 4 2 = 0 then s else s.raise islUlink .ulinkTableDefault n (le 1 (s.defaultMask (128 + 4 * n) 4 2))

/-- The state that ULINK_CONFIG ACTION 1 leaves. -/
def portConfigured (s : State) (q : Request) (n : Nat) : State :=
  (tableChecked (lanesStarted (portPut s n (newPort s q)) n) n).syncTimeWords

/-- What it leaves of the others. -/
theorem portConfigured_facts (s : State) (q : Request) (n : Nat) :
    (portConfigured s q n).ul = (portPut s n (newPort s q)).ul ∧ (portConfigured s q n).engs = s.engs ∧
      (portConfigured s q n).pas = s.pas ∧ (portConfigured s q n).mem = s.mem ∧ (portConfigured s q n).host.ports = s.host.ports := by
  have hlanes := laneRunsOnly_lanesStarted (portPut s n (newPort s q)) n
  unfold portConfigured
  generalize lanesStarted (portPut s n (newPort s q)) n = t at hlanes
  have htim : TimingOnly t (tableChecked t n).syncTimeWords := by
    unfold tableChecked
    exact TimingOnly.syncTimeWords (of_ite (P := TimingOnly t) .refl (.raise .refl))
  have hrest := htim.1
  generalize (tableChecked t n).syncTimeWords = u at hrest
  exact ⟨(congrArg State.ul hrest :).trans (congrArg State.ul hlanes :), (congrArg State.engs hrest :).trans (congrArg State.engs hlanes :),
    (congrArg State.pas hrest :).trans (congrArg State.pas hlanes :), (congrArg State.mem hrest :).trans (congrArg State.mem hlanes :),
    (congrArg (fun v : State => v.host.ports) hrest :).trans (congrArg (fun v : State => v.host.ports) hlanes :)⟩

/-- ULINK_CONFIG ACTION 1. -/
theorem exec_ulinkConfig_sets {n : Nat} (h : s.takes 0x0A01 q) (h0 : q.tenant = 0) (hl : q.len = 12) (hu : q.u 0 1 = n) (hn : n ≤ 3)
    (hact : q.u 1 1 = 1) (h2 : q.u 2 1 ≤ 15) (h3 : q.u 3 1 ≤ 15) (h4 : q.u 4 1 = 0) (h5 : q.u 5 1 ≤ 1) (h8 : q.rsv 8 4 = true)
    (hd : s.dark (0x0E00 + n) = none) (hb : (s.island islUlink).belay = false) (hfree : s.ulUsed n = false) :
    exec (.ulinkConfig q) s = .next ((portConfigured s.accepted q n).answer 0x0A01 q [0, 0, 1, 0]) := by
  show (s.cmdUlinkConfig q).done = _
  simp only [State.cmdUlinkConfig, hact, hl, hu]
  refine serve_done_of_run h ?_ rfl
  rw [judge_bad_cons]
  · refine (judge_lit_cons hd _ _).trans ?_
    rw [judge_lit_nil]
    simp [onlyT0, h0, hb, hfree]
  · simp [h4, h8, Nat.not_lt.mpr hn, Nat.not_lt.mpr h2, Nat.not_lt.mpr h3, Nat.not_lt.mpr h5]

/-- A port and its lanes are deleted. -/
def portDeleted (s : State) (n : Nat) : State :=
  ({ s with ul := { s.ul with ports := tdel s.ul.ports n } } : State).modHost fun h =>
    { h with lanes := h.lanes.filter fun e => !(128 + 4 * n ≤ e.1 && e.1 < 132 + 4 * n) }

/-- The state that ULINK_CONFIG ACTION 2 leaves. -/
def portRemoved (s : State) (n : Nat) : State := (portDeleted s n).syncTimeWords

/-- What it leaves of the others. -/
theorem portRemoved_facts (s : State) (n : Nat) :
    (portRemoved s n).ul = { s.ul with ports := tdel s.ul.ports n } ∧ (portRemoved s n).engs = s.engs ∧ (portRemoved s n).pas = s.pas ∧
      (portRemoved s n).mem = s.mem ∧ (portRemoved s n).host.ports = s.host.ports := by
  have hrest := (TimingOnly.syncTimeWords (.refl (s := portDeleted s n))).1
  unfold portRemoved
  generalize (portDeleted s n).syncTimeWords = u at hrest
  exact ⟨(congrArg State.ul hrest :), (congrArg State.engs hrest :), (congrArg State.pas hrest :), (congrArg State.mem hrest :),
    (congrArg (fun v : State => v.host.ports) hrest :)⟩

/-- ULINK_CONFIG ACTION 2. -/
theorem exec_ulinkConfig_removes {n : Nat} (h : s.takes 0x0A01 q) (h0 : q.tenant = 0) (hl : q.len = 12) (hu : q.u 0 1 = n) (hn : n ≤ 3)
    (hact : q.u 1 1 = 2) (h2 : q.rsv 2 3 = true) (h5 : q.rsv 5 3 = true) (h8 : q.rsv 8 4 = true)
    (hd : s.dark (0x0E00 + n) = none) (hb : (s.island islUlink).belay = false) (hfree : s.ulUsed n = false) :
    exec (.ulinkConfig q) s = .next ((portRemoved s.accepted n).answer 0x0A01 q [0, 0, 0, 0]) := by
  have h4 : q.u 4 1 = 0 := u_of_rsv (rsv_mono h2)
  have h22 : q.rsv 2 2 = true := rsv_mono h2
  show (s.cmdUlinkConfig q).done = _
  simp only [State.cmdUlinkConfig, hact, hl, hu]
  refine serve_done_of_run h ?_ rfl
  rw [judge_bad_cons]
  · refine (judge_lit_cons hd _ _).trans ?_
    rw [judge_lit_nil]
    simp [onlyT0, h0, hb, hfree]
  · simp [h4, h22, h5, h8, Nat.not_lt.mpr hn]

/-- Spread is declared, or no longer. -/
def spreadPut (s : State) (on : Bool) : State := { s with ul := { s.ul with declared := on } }

/-- The state that ULINK_CONFIG ACTION 3 leaves. -/
def spreadDeclared (s : State) (on : Bool) : State := ((spreadPut s on).spreadInputs.reselect).syncTimeWords

/-- What it leaves of the others. -/
theorem spreadDeclared_facts (s : State) (on : Bool) :
    (spreadDeclared s on).ul = { s.ul with declared := on } ∧ (spreadDeclared s on).engs = s.engs ∧ (spreadDeclared s on).pas = s.pas ∧
      (spreadDeclared s on).mem = s.mem ∧ (spreadDeclared s on).host = s.host := by
  have hrest := ((TimingOnly.refl (s := spreadPut s on)).spreadInputs.reselect.syncTimeWords).1
  unfold spreadDeclared
  generalize ((spreadPut s on).spreadInputs.reselect).syncTimeWords = u at hrest
  exact ⟨(congrArg State.ul hrest :), (congrArg State.engs hrest :), (congrArg State.pas hrest :), (congrArg State.mem hrest :),
    (congrArg State.host hrest :)⟩

/-- ULINK_CONFIG ACTION 3. -/
theorem exec_ulinkConfig_declares (h : s.takes 0x0A01 q) (h0 : q.tenant = 0) (hl : q.len = 12) (hu : q.u 0 1 = 0xFF) (hact : q.u 1 1 = 3)
    (h4 : q.u 4 1 ≤ 1) (h2 : q.rsv 2 2 = true) (h5 : q.rsv 5 3 = true) (h8 : q.rsv 8 4 = true) (hd : s.dark 0x0EFE = none)
    (hb : (s.island islUlink).belay = false) (hnone : s.ul.ports = []) :
    exec (.ulinkConfig q) s = .next ((spreadDeclared s.accepted (q.u 4 1 == 1)).answer 0x0A01 q [0, 0, 0, 0]) := by
  show (s.cmdUlinkConfig q).done = _
  simp only [State.cmdUlinkConfig, hact, hl, hu]
  refine serve_done_of_run h ?_ rfl
  rw [judge_bad_cons]
  · refine (judge_lit_cons hd _ _).trans ?_
    rw [judge_lit_nil]
    simp [onlyT0, h0, hb, hnone]
  · simp [h2, h5, h8, Nat.not_lt.mpr h4]

/-! ULINK_STATUS (R645). -/

/-- Two bytes of a signed value read back as its residue. -/
theorem signed_unle_leS (x : Int) : signed 2 (unle (leS 2 x)) = (x + 2 ^ 15) % 2 ^ 16 - 2 ^ 15 := by
  have hread : ∀ n : Nat, unle (le 2 n) = n % 65536 := fun n => by
    simp only [le, unle, BitVec.toNat_ofNat]
    omega
  rw [leS, hread, signed]
  split <;> omega

/-- The part of one port has 16 bytes. -/
theorem ulStatus_length (s : State) (p : Nat) : (s.ulStatus p).length = 16 := by
  simp [State.ulStatus, length_le, zeros]

/-- SPREAD as it is answered. -/
def spreadCode (s : State) : Nat := if s.ul.declared then 1 else if s.ul.detected then 2 else 0

/-- Is every lane of the table given? -/
def tableGiven (s : State) : Bool := (List.range 16).all fun i => (s.tableEntry (128 + i) 2).isSome

/-- The answer of ULINK_STATUS. -/
def ulinkReply (s : State) : List Byte :=
  le 1 0 ++ le 1 (spreadCode s) ++ le 1 (bit (tableGiven s)) ++ zeros 1 ++ leS 2 s.ul.ppm ++ zeros 2 ++ (List.range 4).flatMap s.ulStatus

/-- Its layout. -/
theorem ulinkReply_facts (s : State) :
    (ulinkReply s).length = 72 ∧ fld (ulinkReply s) 0 1 = 0 ∧ fld (ulinkReply s) 1 1 = spreadCode s ∧
      fldS (ulinkReply s) 4 2 = (s.ul.ppm + 2 ^ 15) % 2 ^ 16 - 2 ^ 15 ∧
      (ulinkReply s).drop 8 = s.ulStatus 0 ++ s.ulStatus 1 ++ s.ulStatus 2 ++ s.ulStatus 3 := by
  have hports : (List.range 4).flatMap s.ulStatus = s.ulStatus 0 ++ s.ulStatus 1 ++ s.ulStatus 2 ++ s.ulStatus 3 := by
    simp [List.range_succ]
  have hcode : spreadCode s < 256 := by
    unfold spreadCode
    split
    · decide
    · split <;> decide
  refine ⟨?_, rfl, ?_, ?_, ?_⟩
  · rw [ulinkReply, hports]
    simp [length_le, zeros, ulStatus_length, leS]
  · show (BitVec.ofNat 8 (spreadCode s)).toNat + 256 * 0 = spreadCode s
    rw [BitVec.toNat_ofNat, Nat.mod_eq_of_lt hcode, Nat.mul_zero, Nat.add_zero]
  · exact signed_unle_leS s.ul.ppm
  · rw [← hports]
    rfl

/-- The status is answered from the state before. -/
theorem exec_ulinkStatus (h : s.takes 0x0A02 q) (ht : s.tenantOn q) (hl : q.len = 0) (hd : s.dark 0x0EFE = none) :
    exec (.ulinkStatus q) s = .next (s.accepted.answer 0x0A02 q (ulinkReply s)) := by
  show (s.cmdUlinkStatus q).done = _
  simp only [State.cmdUlinkStatus, hl]
  refine serve_done_of_run h ?_ rfl
  exact (judge_lit_cons hd _ _).trans ((judge_lit_nil ..).trans (judge_anyTenant ht _))

/-! Lanes (R632, R633). -/

/-- A lane that hunts locks. -/
def laneLocked (s : State) (p i skew : Nat) (bs : List Block) : State :=
  s.modUl p fun x => { x with
    lanes := x.lanes.set i { ((s.ulPort p).lanes[i]?).getD {} with
      locked := true, id := (laneIdOf bs).getD (((s.ulPort p).lanes[i]?).getD {}).id % 4, skew := skew } }

/-- A lane that hunts and finds its comma. -/
theorem ulLaneLock_locks {i skew : Nat} {blocks bs : List Block} (hc : s.ulConfigured p = true) (hi : i ≤ 3)
    (hl : (((s.ulPort p).lanes[i]?).getD {}).locked = false) (hbs : bs = invertLane (s.ulPort p).rxInvert i blocks) (hlock : locksAt bs = true) :
    ∃ y : UlPort, LinkTo p s (s.ulLaneLock p i blocks skew) y ∧ y.lanes = (s.ulPort p).lanes.set i { ((s.ulPort p).lanes[i]?).getD {} with
      locked := true, id := (laneIdOf bs).getD (((s.ulPort p).lanes[i]?).getD {}).id % 4, skew := skew } := by
  have hto : LinkTo p s (laneLocked s p i skew bs) _ := LinkTo.refl.modUl hc _
  have heq : s.ulLaneLock p i blocks skew = match ((laneLocked s p i skew bs).ulPort p).laneFault with
      | some c => if (s.ulPort p).up then (laneLocked s p i skew bs).ulDown p c else laneLocked s p i skew bs
      | none => (laneLocked s p i skew bs).ulTryUp p := by
    unfold State.ulLaneLock
    dsimp only
    rw [← hbs, if_neg (by simp [hc, hi]), if_neg (by simp [hl]), if_neg (by simp [hlock])]
    rfl
  rw [heq]
  split
  · refine of_ite (P := fun t : State => ∃ y : UlPort, LinkTo p s t y ∧ y.lanes = _) ⟨_, hto.ulDown (hto.configured hc) _, ?_⟩ ⟨_, hto, rfl⟩
    rw [portDown_lanes]
  · exact hto.ulTryUp (hto.configured hc)

/-- A lane that hunts and finds none. -/
theorem ulLaneLock_hunts {i skew : Nat} {blocks : List Block} (hc : s.ulConfigured p = true) (hi : i ≤ 3)
    (hl : (((s.ulPort p).lanes[i]?).getD {}).locked = false) (hlock : locksAt (invertLane (s.ulPort p).rxInvert i blocks) = false) :
    s.ulLaneLock p i blocks skew = s := by
  unfold State.ulLaneLock
  dsimp only
  rw [if_neg (by simp [hc, hi]), if_neg (by simp [hl]), if_pos (by simp [hl, hlock])]

/-- A locked lane that loses lock. -/
theorem ulLaneLock_loses {i skew : Nat} {blocks : List Block} (hc : s.ulConfigured p = true) (hi : i ≤ 3)
    (hl : (((s.ulPort p).lanes[i]?).getD {}).locked = true) (h8 : eightIn64 (invalidAt (invertLane (s.ulPort p).rxInvert i blocks)) = true) :
    s.ulLaneLock p i blocks skew = s.ulLaneLost p i := by
  unfold State.ulLaneLock
  dsimp only
  rw [if_neg (by simp [hc, hi]), if_pos (by simp [hl, h8])]

/-! A frame that is sent (R628 to R631). -/

/-- The slot blocks that a port owes by a time. -/
def owedBlocks (x : UlPort) (depart : Nat) : Nat :=
  min 8000 (x.owed + (x.sentAt.map fun a => slotBlocksBy depart - slotBlocksBy a).getD 0)

/-- The slot blocks of the frame. -/
def sentSlots (s : State) (p depart : Nat) : List Block × Nat × Tab (List Block) :=
  takeReady (s.ulAssigned p) (min (owedBlocks (s.ulPort p) depart) 4074) (s.ulPort p).txSlot (s.ulPort p).stage

/-- The lanes of the frame. -/
def sentLanes (s : State) (p depart : Nat) : List (List Block × Nat) :=
  (s.ulPort p).lanesFor (portBlocks p (s.ulWords p depart (s.ulPort p).txSlot).1 (sendMgmt 32 (s.ulPort p).mgmtQ).2.1 (sentSlots s p depart).1)

/-- The port behind the frame. -/
def sentPort (s : State) (p depart : Nat) (x : UlPort) : UlPort :=
  { x with
    frame := (s.ulWords p depart (s.ulPort p).txSlot).1, lanesOut := (sentLanes s p depart).map Prod.fst
    txScr := (sentLanes s p depart).map Prod.snd, mgmtQ := (sendMgmt 32 (s.ulPort p).mgmtQ).1, half := !x.half
    txSlot := (sentSlots s p depart).2.1, stage := (sentSlots s p depart).2.2, sentAt := some depart
    owed := owedBlocks (s.ulPort p) depart - (sentSlots s p depart).1.length
    marks := if (s.ulWords p depart (s.ulPort p).txSlot).2.1 then ((chamberOf s.epoch depart, depart) :: x.marks).take 8 else x.marks }

/-- A configured port sends. -/
theorem frameSend_eq (hc : s.ulConfigured p = true) (depart : Nat) :
    s.ulFrameSend p depart = (((((s.ulWords p depart (s.ulPort p).txSlot).2.2.modUl p (sentPort s p depart)).bump (0x0E00 + p) 0 1
      (sentSlots s p depart).1.length).bump (0x0E00 + p) 0 2 (4074 - (sentSlots s p depart).1.length)).bump (0x0E00 + p) 0 10
        (sendMgmt 32 (s.ulPort p).mgmtQ).2.2) := by
  have howed : owedBlocks (s.ulPort p) depart =
      min 8000 ((s.ulPort p).owed + (match (s.ulPort p).sentAt with | some t => slotBlocksBy depart - slotBlocksBy t | none => 0)) := by
    unfold owedBlocks
    cases (s.ulPort p).sentAt <;> rfl
  have hnot : ¬ (!(s.ulConfigured p)) = true := by simp [hc]
  unfold sentPort sentLanes sentSlots
  rw [howed]
  unfold State.ulFrameSend
  exact if_neg hnot

/-- `t` differs from `s` at most in the free values taken. -/
def FreeOnly (s t : State) : Prop := { t with freeCtr := s.freeCtr } = s

/-- The time fields of a marked frame. -/
theorem freeOnly_ulTimeWord (s : State) (p c : Nat) : FreeOnly s (s.ulTimeWord p c).2 := by
  unfold State.ulTimeWord
  split <;> rfl

/-- A frame has fourteen overhead words, and takes free values at most. -/
theorem ulWords_facts (s : State) (p depart slot : Nat) :
    (s.ulWords p depart slot).1.length = 14 ∧ FreeOnly s (s.ulWords p depart slot).2.2 := by
  constructor
  · simp only [State.ulWords, List.length_set, List.length_append, List.length_map, List.length_range, List.length_cons, List.length_nil]
  · unfold State.ulWords
    dsimp only
    split
    · exact freeOnly_ulTimeWord ..
    · rfl

/-- What a frame that is sent leaves. -/
theorem frameSend_facts (hc : s.ulConfigured p = true) (depart : Nat) :
    (s.ulFrameSend p depart).ulPort p = sentPort s p depart (s.ulPort p) ∧
      (s.ulFrameSend p depart).ctr (0x0E00 + p) 0 1 = s.ctr (0x0E00 + p) 0 1 + BitVec.ofNat 64 (sentSlots s p depart).1.length ∧
      (s.ulFrameSend p depart).ctr (0x0E00 + p) 0 2 = s.ctr (0x0E00 + p) 0 2 + BitVec.ofNat 64 (4074 - (sentSlots s p depart).1.length) ∧
      (∀ k, k ≠ p → tget (s.ulFrameSend p depart).ul.ports k = tget s.ul.ports k) ∧
      { s.ulFrameSend p depart with ul := s.ul, cnt := s.cnt, freeCtr := s.freeCtr } = s := by
  rw [frameSend_eq hc]
  have hfree := (ulWords_facts s p depart (s.ulPort p).txSlot).2
  generalize (s.ulWords p depart (s.ulPort p).txSlot).2.2 = t at hfree
  have hul : t.ul = s.ul := (congrArg State.ul hfree :)
  have hcnt : t.cnt = s.cnt := (congrArg State.cnt hfree :)
  have hconf : t.ulConfigured p = true := by rw [State.ulConfigured, hul]; exact hc
  have hmod := (LinkTo.refl (s := t) (p := p)).modUl hconf (sentPort s p depart)
  have hport : t.ulPort p = s.ulPort p := by rw [State.ulPort, State.ulPort, hul]
  rw [hport] at hmod
  generalize sentSlots s p depart = r
  generalize (sendMgmt 32 (s.ulPort p).mgmtQ).2.2 = m
  refine ⟨hmod.2.2, ?_, ?_, fun k hk => ?_, ?_⟩
  · rw [ctr_bump_ne _ _ _ _ (by decide), ctr_bump_ne _ _ _ _ (by decide), ctr_bump_by]
    exact congrArg (· + BitVec.ofNat 64 r.1.length) (ctr_congr hcnt ..)
  · rw [ctr_bump_ne _ _ _ _ (by decide), ctr_bump_by, ctr_bump_ne _ _ _ _ (by decide)]
    exact congrArg (· + BitVec.ofNat 64 (4074 - r.1.length)) (ctr_congr hcnt ..)
  · exact (hmod.1.2.1 k hk).trans (by rw [hul])
  · exact (congrArg (fun u : State => { u with ul := s.ul, cnt := s.cnt }) hfree :)

/-! The timeout and the reference clock (R625, R634). -/

/-- A port that is late. -/
theorem ulTimeout_reports (hc : s.ulConfigured p = true) (hup : (s.ulPort p).up = false) (ht : (s.ulPort p).timedOut = false)
    (hs : s.since (s.ulPort p).ref (100 * msQ) = true) :
    s.ulTimeout p = (s.modUl p fun x => { x with timedOut := true }).raise islUlink .ulinkPortDown p (le 1 ((s.ulPort p).laneFault.getD 3)) := by
  unfold State.ulTimeout
  exact if_neg (by simp [hc, hup, ht, hs])

/-- What an event adds to the log does not depend on the Umran link. -/
theorem raise_log_with_ul (s : State) (u : Umran) (i : Nat) (e : Ev) (src : Nat) (b : List Byte) :
    (({ s with ul := u } : State).raise i e src b).log = (s.raise i e src b).log := by
  rw [State.raise, State.raise, State.raiseAt, State.raiseAt, recordAt_log, recordAt_log]
  rfl

/-- With the Umran link, the log and the command interface put back, an event leaves no trace. -/
theorem raise_restore_with_ul (s : State) (u : Umran) (i : Nat) (e : Ev) (src : Nat) (b : List Byte) :
    { ({ s with ul := u } : State).raise i e src b with ul := s.ul, log := s.log, com := s.com } = s := by
  have hrest := raise_restore { s with ul := u } i e src b
  generalize ({ s with ul := u } : State).raise i e src b = t at hrest
  exact (congrArg (fun v : State => { v with ul := s.ul }) hrest :)

/-- Does a measure of the reference clock show spread? -/
def clockSpreads (ppm : Int) (peak : Nat) : Bool := decide (ppm < -1000) || decide (peak > 200)

/-- The seconds without it. -/
def cleanSeconds (s : State) (ppm : Int) (peak : Nat) : Nat := if clockSpreads ppm peak then 0 else s.ul.cleanS + 1

/-- The measure is held. -/
def clockHeld (s : State) (ppm : Int) (peak : Nat) : State :=
  { s with ul := { s.ul with
    ppm := ppm, cleanS := cleanSeconds s ppm peak
    detected := clockSpreads ppm peak || (s.ul.detected && decide (cleanSeconds s ppm peak < 60)) } }

/-- A measure changes, besides, timing alone. -/
theorem timingOnly_refclkMeasure (s : State) (ppm : Int) (peak : Nat) : TimingOnly (clockHeld s ppm peak) (s.refclkMeasure ppm peak) := by
  have hraise : TimingOnly (clockHeld s ppm peak)
      (if (clockHeld s ppm peak).ul.detected && !s.ul.detected then (clockHeld s ppm peak).raise islUlink .ulinkSpreadDetected 0xFFFF (leS 2 ppm)
        else clockHeld s ppm peak) := of_ite (P := TimingOnly _) (.raise .refl) .refl
  unfold State.refclkMeasure
  exact of_ite (P := TimingOnly (clockHeld s ppm peak)) hraise hraise.spreadInputs.reselect.syncTimeWords

/-- When spread is detected. -/
theorem clockHeld_detected (s : State) (ppm : Int) (peak : Nat) :
    (clockHeld s ppm peak).ul.detected = true ↔ (ppm < -1000 ∨ 200 < peak) ∨ (s.ul.detected = true ∧ s.ul.cleanS + 1 < 60) := by
  show (clockSpreads ppm peak || (s.ul.detected && decide (cleanSeconds s ppm peak < 60))) = true ↔ _
  have hspread : clockSpreads ppm peak = true ↔ ppm < -1000 ∨ 200 < peak := by simp [clockSpreads]
  unfold cleanSeconds
  cases hc : clockSpreads ppm peak
  · have hn : ¬ (ppm < -1000 ∨ 200 < peak) := fun h => absurd (hc.symm.trans (hspread.mpr h)) (by decide)
    simp [hn]
  · simp [hspread.mp hc]

/-! A frame that is received (R631, R633 to R637). -/

/-- The state behind a good frame, before its blocks are delivered. -/
def goodFrame (s : State) (p : Nat) (f : UlFrame) (frame : List (Nat × Block)) : State :=
  (((((((s.ulLanes p f.lanes).modUl p fun x => { x with good := x.good + 1, bad := 0 }).ulHeader p (frameWords frame)).ulMap p
    (frameWords frame) f.arrival).ulTime p (frameWords frame) f.arrival).ulSlots p (frameWords frame)).ulMgmt p
    ((((frame.drop 18).take 4).flatMap fun x => be 8 (blockWord x.2)).map some)).resignal

/-- What it leaves of the port. -/
theorem goodFrame_facts {f : UlFrame} (hc : s.ulConfigured p = true) (hn : ((s.ulLanes p f.lanes).ulPort p).laneFault = none)
    (frame : List (Nat × Block)) :
    ∃ y : UlPort, LinkTo p s (goodFrame s p f frame) y ∧ linkCore y = ((s.ulPort p).good + 1, 0, (s.ulPort p).up,
        hbits (frameWords frame) 0 48 16, some (hbits (frameWords frame) 0 0 48), hbits (frameWords frame) 1 61 1 == 1) ∧
      y.rxSlot = hbits (frameWords frame) 1 52 7 % 80 := by
  obtain ⟨l, r, hto⟩ := ulLanes_linkTo hc f.lanes hn
  exact goodFrame_linkTo (hto.modUl (hto.configured hc) fun x => { x with good := x.good + 1, bad := 0 }) hc _ _ _

/-- What `LinkOnly` leaves of the rest. -/
theorem LinkOnly.rest {t : State} (h : LinkOnly p s t) :
    t.engs = s.engs ∧ t.mem = s.mem ∧ t.host = s.host ∧ t.com.relayed = s.com.relayed ∧
      ∀ k, k ≠ p → tget t.ul.ports k = tget s.ul.ports k := by
  obtain ⟨⟨hrest, hrel⟩, hports, -⟩ := h
  exact ⟨(congrArg State.engs hrest :), (congrArg State.mem hrest :), (congrArg State.host hrest :), hrel, hports⟩

/-! The obligation. -/

/-- Settles O35: the commands, then the rows; each row of a port is followed through `LinkOnly` and the port that it leaves. -/
theorem umranComplete : Obligations.UmranComplete := by
  unfold Obligations.UmranComplete
  refine ⟨?_, ?_, ?_, ?_, ?_, ?_, ?_, ?_, ?_, ?_, ?_, ?_⟩
  case refine_1 =>
    intro s q n h h0 hl hu hn hact h2 h3 h4 h5 h8 hd hb hfree
    obtain ⟨hul, hengs, hpas, hmem, hports⟩ := portConfigured_facts s.accepted q n
    refine ⟨_, exec_ulinkConfig_sets h h0 hl hu hn hact h2 h3 h4 h5 h8 hd hb hfree, ?_, fun k hk => ?_, ?_, hengs, hpas, hmem, hports⟩
    · rw [hul]
      exact tget_tput_self ..
    · rw [hul]
      exact tget_tput_ne _ _ hk
    · rw [hul]
      rfl
  case refine_2 =>
    intro s q n h h0 hl hu hn hact h2 h5 h8 hd hb hfree
    obtain ⟨hul, hengs, hpas, hmem, hports⟩ := portRemoved_facts s.accepted n
    refine ⟨_, exec_ulinkConfig_removes h h0 hl hu hn hact h2 h5 h8 hd hb hfree, ?_, fun k hk => ?_, hengs, hpas, hmem, hports⟩
    · rw [hul]
      exact tget_tdel_self ..
    · rw [hul]
      exact tget_tdel_ne _ hk
  case refine_3 =>
    intro s q h h0 hl hu hact h4 h2 h5 h8 hd hb hnone
    obtain ⟨hul, hengs, hpas, hmem, hhost⟩ := spreadDeclared_facts s.accepted (q.u 4 1 == 1)
    exact ⟨_, exec_ulinkConfig_declares h h0 hl hu hact h4 h2 h5 h8 hd hb hnone, hul, hengs, hpas, hmem, hhost⟩
  case refine_4 =>
    intro s q h ht hl hd
    obtain ⟨hlen, hst, hspread, hppm, hports⟩ := ulinkReply_facts s
    exact ⟨s.accepted, ulinkReply s, exec_ulinkStatus h ht hl hd, rfl, hlen, hst, hspread, hppm, hports⟩
  case refine_5 =>
    intro s p i skew blocks bs l hs hc hi hl hlock hbs hat
    subst hl
    obtain ⟨y, hto, hy⟩ := ulLaneLock_locks (skew := skew) hc hi hlock hbs hat
    obtain ⟨hengs, hmem, hhost, hrel, hports⟩ := hto.1.rest
    refine ⟨s.ulLaneLock p i blocks skew, done_of_settled (hrel.trans hs), ?_, hports, hengs, hmem, hhost⟩
    rw [hto.2.2, hy]
  case refine_6 =>
    intro s p i skew blocks hs hc hi hl hat
    show (s.ulLaneLock p i blocks skew).done = _
    rw [ulLaneLock_hunts hc hi hl hat]
    exact done_of_settled hs
  case refine_7 =>
    intro s p i skew blocks hs hc hi hl h8
    obtain ⟨honly, hctr, m, hport⟩ := ulLaneLost_facts hc i
    obtain ⟨hengs, hmem, hhost, hrel, hports⟩ := honly.rest
    refine ⟨s.ulLaneLost p i, ?_, ?_, ?_, ?_, hctr, fun hup => ?_, hports, hengs, hmem, hhost⟩
    · show (s.ulLaneLock p i blocks skew).done = _
      rw [ulLaneLock_loses hc hi hl h8]
      exact done_of_settled (hrel.trans hs)
    · rw [hport, portDown_lanes]
    · rw [hport, portDown_up]
    · rw [hport, portDown]
      split <;> rfl
    · have hdown : ((laneLost s p i).ulPort p).up = false := by
        rw [(laneLost_facts hc i).2.2]
        exact hup
      exact (congrArg State.log (ulDown_of_down hdown 1)).trans (laneLost_log s p i)
  case refine_8 =>
    intro s p depart x r hs hc hx hr
    subst hx
    obtain ⟨hport, hctr1, hctr2, hports, hrest⟩ := frameSend_facts hc depart
    have hlen := (ulWords_facts s p depart (s.ulPort p).txSlot).1
    have hslots : sentSlots s p depart = r := hr.symm
    refine ⟨s.ulFrameSend p depart, ?_, ?_, ?_, ?_, ?_, ?_, ?_, ?_, ?_, ?_, hports, hrest⟩
    · exact done_of_settled ((congrArg (fun u : State => u.com.relayed) hrest :).trans hs)
    · rw [hport, ← hslots]
      rfl
    · rw [hport, ← hslots]
      rfl
    · rw [hport]
      rfl
    · rw [hport]
      exact hlen
    · rw [hport]
      rfl
    · rw [hport]
      rfl
    · rw [hport, ← hslots]
      rfl
    · rw [hctr1, hslots]
    · rw [hctr2, hslots]
  case refine_9 =>
    intro s p n f frame ws hs hc hf hn hws hcrc hnum hup
    have hwords : ws = frameWords frame := hws
    rw [hwords] at hcrc ⊢
    obtain ⟨y, ⟨honly, hctr, hport⟩, hcore, hslot⟩ := goodFrame_facts hc hn frame
    have hrecv : s.ulFrameReceive p f = (goodFrame s p f frame).ulDeliver p (slotBlocksOf frame) f.arrival :=
      frameReceive_good hc hf hn hcrc hup
    obtain ⟨honly', hctr', -, r, hport', hr⟩ := ulDeliver_facts (honly.2.2.trans hc) (slotBlocksOf frame) f.arrival
    obtain ⟨hengs, hmem, hhost, hrel, hports⟩ := (honly.trans honly').rest
    rw [hport] at hport' hr
    rw [← hrecv] at hport' hctr' hengs hmem hhost hrel hports
    rw [hslot, Nat.mod_add_mod, ← hnum] at hr
    simp only [linkCore, Prod.mk.injEq] at hcore
    obtain ⟨hgood, hbad, hyup, hnode, hepoch, hrdi⟩ := hcore
    refine ⟨s.ulFrameReceive p f, done_of_settled (hrel.trans hs), ?_, ?_, ?_, ?_, ?_, ?_, ?_, ?_, hports, hengs, hmem, hhost⟩
    · rw [hport', ← hgood]
    · rw [hport', ← hbad]
    · rw [hport', ← hup, ← hyup]
    · rw [hport', ← hnode]
    · rw [hport', ← hepoch]
    · rw [hport', ← hrdi]
    · rw [hport', ← hr (Nat.mod_lt _ (by decide))]
    · rw [hctr', hctr 0 (.inl rfl), hnum]
  case refine_10 =>
    intro s p f frame ws hs hc hf hn hws hcrc
    have hwords : ws = frameWords frame := hws
    rw [hwords] at hcrc
    have hrecv := frameReceive_bad hc hf hn hcrc
    obtain ⟨l, r, honly, hctr, hport⟩ := ulLanes_linkTo hc f.lanes hn
    obtain ⟨honly', hctr', hgood, hbad, hseen, hup⟩ := badFrame_facts (honly.2.2.trans hc)
    rw [hport] at hbad hup
    have hconf := (honly.trans honly').2.2.trans hc
    obtain ⟨honly'', -, hctr'', r', hport'', -⟩ := ulDeliver_facts hconf (slotBlocksOf frame) f.arrival
    obtain ⟨hengs, hmem, hhost, hrel, hports⟩ := ((honly.trans honly').trans honly'').rest
    rw [← hrecv] at hport'' hctr'' hengs hmem hhost hrel hports
    refine ⟨s.ulFrameReceive p f, done_of_settled (hrel.trans hs), ?_, ?_, ?_, ?_, ?_, hports, hengs, hmem, hhost⟩
    · rw [hport'', ← hgood]
    · rw [hport'', ← hbad]
    · dsimp only at hup
      rw [hport'', ← hup]
    · rw [hport'', ← hseen]
    · rw [hctr'' 4 (by decide) (.inr (.inl rfl)), hctr', hctr 4 (.inr (.inl rfl))]
  case refine_11 =>
    intro s p hs hc hup ht hsince
    have hto := (LinkTo.refl.modUl hc fun x => { x with timedOut := true }).quiet
      (TimingOnly.raise (i := islUlink) (e := .ulinkPortDown) (src := p) (p := le 1 ((s.ulPort p).laneFault.getD 3)) .refl).quiet
    obtain ⟨-, -, -, hrel, hports⟩ := hto.1.rest
    have hlate := ulTimeout_reports hc hup ht hsince
    rw [← hlate] at hto hrel hports
    refine ⟨s.ulTimeout p, done_of_settled (hrel.trans hs), hto.2.2, ?_, hports, ?_⟩
    · rw [hlate]
      exact raise_log_with_ul s _ _ _ _ _
    · rw [hlate]
      exact raise_restore_with_ul s _ _ _ _ _
  case refine_12 =>
    intro s ppm peak hs
    obtain ⟨hrest, hrel⟩ := timingOnly_refclkMeasure s ppm peak
    have hdet := clockHeld_detected s ppm peak
    refine ⟨s.refclkMeasure ppm peak, done_of_settled (hrel.trans hs), ?_⟩
    generalize s.refclkMeasure ppm peak = t at hrest
    have hul : t.ul = (clockHeld s ppm peak).ul := (congrArg State.ul hrest :)
    rw [hul]
    refine ⟨rfl, hdet, ?_, rfl, rfl, (congrArg State.engs hrest :), (congrArg State.pas hrest :), (congrArg State.mem hrest :),
      (congrArg State.host hrest :)⟩
    show (if clockSpreads ppm peak then 0 else s.ul.cleanS + 1) = _
    simp [clockSpreads]

end Sys2Proof.Proofs
end
